-- ==== Sys2Proof/Word.lean ====
section
/-!
DEFINITION. The word types of the KV8 model and nothing else.
-/

namespace Sys2Proof

/-- One byte (R13: byte 0 of a multi-byte value holds bits 7 to 0). -/
abbrev Byte := BitVec 8

/-- A scalar register or a register of a control block (R81, R15). -/
abbrev Word := BitVec 32

/-- A 64-bit quantity: a line time, a seed, a base address. -/
abbrev DWord := BitVec 64

/-- A cell ID (R20): bits 10 to 8 die, 7 to 4 cluster, 3 to 0 cell. -/
abbrev CellId := BitVec 11

/-- A 128-bit engine command or tensor descriptor (R14, R100). -/
abbrev QWord := BitVec 128

end Sys2Proof
end

