-- ==== Sys2Proof/Syntax.lean ====
section
/-!
DEFINITION. The commands the KV8 takes: one constructor of `Instr` for each row of the table, with the row's operands.
-/

namespace Sys2Proof

/-- An upset of one accumulator the environment causes before a check beat (R146): site (row, col) takes another value. -/
structure Upset where
  row : Nat
  col : Nat
  value : BitVec 64
  deriving DecidableEq, Repr

/-- A die-to-die link (R32): the ring link from die n to die n + 1, or the spoke of an odd die. -/
inductive DieLink where
  | ring (n : BitVec 3)
  | spoke (n : BitVec 3)
  deriving DecidableEq, Repr


/-- What a granted access to a 32-byte sector of HBM does (R290, R297): a read, or a write of bytes at an offset. -/
inductive HbmOp where
  | read
  | write (off : BitVec 5) (bytes : List Byte) (poison : Bool)
  deriving DecidableEq, Repr

/-- A place for a tensor (R299): a cell's store, extents of HBM (DPA and length), a lender's HBM, or host memory. -/
inductive Spot where
  | store (cell : CellId) (addr : Nat)
  | hbm (extents : List (Nat × Nat))
  | lender (module : BitVec 15) (addr : Nat)
  | host (addr : Nat)
  deriving DecidableEq, Repr

/-- A firmware bundle as the checks of R500 see it. -/
structure Bundle where
  svn : BitVec 32
  version : BitVec 64
  keyIdx : BitVec 2
  raiseSvn : Bool
  raiseKey : Bool
  /-- HOFMT: handover formats accepted, current and previous. -/
  hoCur : BitVec 8
  hoPrev : BitVec 8
  khiCur : BitVec 8
  khiPrev : BitVec 8
  levels : BitVec 32
  /-- HIF_FEAT_DEV its dispatcher image offers. -/
  features : BitVec 32
  /-- Checks of R500 it would fail: layout, key hash, signature, images. -/
  badLayout : Bool
  badKey : Bool
  badSig : Bool
  badImage : Bool
  deriving DecidableEq, Repr

/-- What a start finds at its steps 5 and 8 (R35, R287, R288). -/
structure Training where
  /-- Die links that trained with fewer than 16 modules: first die, second die or 8 for the I/O die, modules. -/
  narrow : List (BitVec 4 × BitVec 4 × BitVec 5)
  /-- Data and check lanes that fail training: pseudo-channel, lane. -/
  lanes : List (BitVec 10 × Nat)
  /-- Command and address lanes that fail training: channel, lane. -/
  cmds : List (BitVec 9 × Nat)
  /-- Channels that fail the check of a device warm start. -/
  checks : List (BitVec 9)
  deriving DecidableEq, Repr

/-- Nothing to report. -/
def Training.clean : Training := ⟨[], [], [], []⟩

/-- Who writes a register (R521): the host to BAR0 or to BAR2, the side-band, or firmware. -/
inductive Writer where
  | host
  | msix
  | side
  | firmware
  deriving DecidableEq, Repr


/-- The commands of the KV8, one constructor per row of the table. A cell core instruction carries its cell, its
guard field (GNEG and GP, R88) and its 22 operand bits; an engine command acts on the head of its queue. -/
inductive Instr where
  /-- NOP (R90). Cell core instruction that does nothing. -/
  | nop (cell : CellId) (g : BitVec 4) (o : BitVec 22)
  /-- ALU (R91). Cell core instruction that computes the FUNC-selected function of two scalar registers into sD. -/
  | alu (cell : CellId) (g : BitVec 4) (o : BitVec 22)
  /-- ADDI (R90). Cell core instruction that adds a sign-extended 12-bit immediate to sA. -/
  | addi (cell : CellId) (g : BitVec 4) (o : BitVec 22)
  /-- ANDI (R90). Cell core instruction that ANDs sA with a zero-extended immediate. -/
  | andi (cell : CellId) (g : BitVec 4) (o : BitVec 22)
  /-- ORI (R90). Cell core instruction that ORs sA with a zero-extended immediate. -/
  | ori (cell : CellId) (g : BitVec 4) (o : BitVec 22)
  /-- XORI (R90). Cell core instruction that XORs sA with a zero-extended immediate. -/
  | xori (cell : CellId) (g : BitVec 4) (o : BitVec 22)
  /-- SLLI (R90). Cell core instruction that shifts sA left by an immediate. -/
  | slli (cell : CellId) (g : BitVec 4) (o : BitVec 22)
  /-- SRLI (R90). Cell core instruction that shifts sA right logically by an immediate. -/
  | srli (cell : CellId) (g : BitVec 4) (o : BitVec 22)
  /-- SRAI (R90). Cell core instruction that shifts sA right arithmetically by an immediate. -/
  | srai (cell : CellId) (g : BitVec 4) (o : BitVec 22)
  /-- LI (R93). Cell core instruction that loads a sign-extended 16-bit immediate into sD. -/
  | li (cell : CellId) (g : BitVec 4) (o : BitVec 22)
  /-- LIH (R93). Cell core instruction that writes the upper 16 bits of sD. -/
  | lih (cell : CellId) (g : BitVec 4) (o : BitVec 22)
  /-- CMP (R94). Cell core instruction that sets a predicate from comparing two scalar registers. -/
  | cmp (cell : CellId) (g : BitVec 4) (o : BitVec 22)
  /-- CMPI (R94). Cell core instruction that sets a predicate from comparing sA with a sign-extended immediate. -/
  | cmpi (cell : CellId) (g : BitVec 4) (o : BitVec 22)
  /-- PLOG (R95). Cell core instruction that computes a logical function of two predicates. -/
  | plog (cell : CellId) (g : BitVec 4) (o : BitVec 22)
  /-- PFROMS (R90). Cell core instruction that sets a predicate to whether sA is non-zero. -/
  | pfroms (cell : CellId) (g : BitVec 4) (o : BitVec 22)
  /-- PTOS (R90). Cell core instruction that copies a predicate into a scalar register as 0 or 1. -/
  | ptos (cell : CellId) (g : BitVec 4) (o : BitVec 22)
  /-- SEL (R95). Cell core instruction that selects one of two scalars by a predicate. -/
  | sel (cell : CellId) (g : BitVec 4) (o : BitVec 22)
  /-- LB (R96). Cell core instruction that loads a sign-extended byte. -/
  | lb (cell : CellId) (g : BitVec 4) (o : BitVec 22)
  /-- LBU (R96). Cell core instruction that loads a zero-extended byte. -/
  | lbu (cell : CellId) (g : BitVec 4) (o : BitVec 22)
  /-- LH (R96). Cell core instruction that loads a sign-extended 16-bit value. -/
  | lh (cell : CellId) (g : BitVec 4) (o : BitVec 22)
  /-- LHU (R96). Cell core instruction that loads a zero-extended 16-bit value. -/
  | lhu (cell : CellId) (g : BitVec 4) (o : BitVec 22)
  /-- LW (R96). Cell core instruction that loads a 32-bit word. -/
  | lw (cell : CellId) (g : BitVec 4) (o : BitVec 22)
  /-- SB (R96). Cell core instruction that stores the low byte of sD. -/
  | sb (cell : CellId) (g : BitVec 4) (o : BitVec 22)
  /-- SH (R96). Cell core instruction that stores the low 16 bits of sD. -/
  | sh (cell : CellId) (g : BitVec 4) (o : BitVec 22)
  /-- SW (R96). Cell core instruction that stores sD as a 32-bit word. -/
  | sw (cell : CellId) (g : BitVec 4) (o : BitVec 22)
  /-- LDA (R97). Cell core instruction that loads an 8-byte word into the address of an a register. -/
  | lda (cell : CellId) (g : BitVec 4) (o : BitVec 22)
  /-- STA (R97). Cell core instruction that stores the address of an a register as 8 bytes. -/
  | sta (cell : CellId) (g : BitVec 4) (o : BitVec 22)
  /-- TLD (R100). Cell core instruction that loads 16 bytes into a tensor descriptor register. -/
  | tld (cell : CellId) (g : BitVec 4) (o : BitVec 22)
  /-- TST (R100). Cell core instruction that stores a tensor descriptor register as 16 bytes. -/
  | tst (cell : CellId) (g : BitVec 4) (o : BitVec 22)
  /-- AADD (R99). Cell core instruction that adds a sign-extended scalar to an address register. -/
  | aadd (cell : CellId) (g : BitVec 4) (o : BitVec 22)
  /-- AADDI (R99). Cell core instruction that adds a sign-extended immediate to an address register. -/
  | aaddi (cell : CellId) (g : BitVec 4) (o : BitVec 22)
  /-- AFROM (R99). Cell core instruction that builds a 40-bit address from two scalar registers. -/
  | afrom (cell : CellId) (g : BitVec 4) (o : BitVec 22)
  /-- ATO (R90). Cell core instruction that copies part of an address register into a scalar. -/
  | ato (cell : CellId) (g : BitVec 4) (o : BitVec 22)
  /-- ASTR (R99). Cell core instruction that sets the stride of an address register from a scalar. -/
  | astr (cell : CellId) (g : BitVec 4) (o : BitVec 22)
  /-- ASTRI (R99). Cell core instruction that sets the stride of an address register from an immediate. -/
  | astri (cell : CellId) (g : BitVec 4) (o : BitVec 22)
  /-- AMOV (R99). Cell core instruction that copies address and stride between address registers. -/
  | amov (cell : CellId) (g : BitVec 4) (o : BitVec 22)
  /-- TOFS (R101). Cell core instruction that sets a descriptor's OFFSET from an address register. -/
  | tofs (cell : CellId) (g : BitVec 4) (o : BitVec 22)
  /-- TADV (R101). Cell core instruction that advances a descriptor's OFFSET by a scalar. -/
  | tadv (cell : CellId) (g : BitVec 4) (o : BitVec 22)
  /-- TGET (R101). Cell core instruction that reads a descriptor field into a scalar. -/
  | tget (cell : CellId) (g : BitVec 4) (o : BitVec 22)
  /-- TSET (R101). Cell core instruction that writes a descriptor field from a scalar. -/
  | tset (cell : CellId) (g : BitVec 4) (o : BitVec 22)
  /-- LCSET (R90). Cell core instruction that sets a loop count register from a scalar. -/
  | lcset (cell : CellId) (g : BitVec 4) (o : BitVec 22)
  /-- LCI (R90). Cell core instruction that sets a loop count register from an immediate. -/
  | lci (cell : CellId) (g : BitVec 4) (o : BitVec 22)
  /-- LOOP (R104). Cell core instruction that enters or skips a hardware loop over the next LEN instructions. -/
  | loop (cell : CellId) (g : BitVec 4) (o : BitVec 22)
  /-- LSET (R106). Cell core instruction that writes the hidden counter of an active loop. -/
  | lset (cell : CellId) (g : BitVec 4) (o : BitVec 22)
  /-- LBRK (R106). Cell core instruction that ends an active loop after its current iteration. -/
  | lbrk (cell : CellId) (g : BitVec 4) (o : BitVec 22)
  /-- LGET (R106). Cell core instruction that reads the hidden counter of an active loop. -/
  | lget (cell : CellId) (g : BitVec 4) (o : BitVec 22)
  /-- BR (R102). Cell core instruction that branches unconditionally, popping loops it leaves. -/
  | br (cell : CellId) (g : BitVec 4) (o : BitVec 22)
  /-- CALL (R102). Cell core instruction that branches and writes the return address to s31. -/
  | call (cell : CellId) (g : BitVec 4) (o : BitVec 22)
  /-- JR (R102). Cell core instruction that jumps to the address in a scalar register. -/
  | jr (cell : CellId) (g : BitVec 4) (o : BitVec 22)
  /-- BZ (R103). Cell core instruction that branches when a scalar is zero. -/
  | bz (cell : CellId) (g : BitVec 4) (o : BitVec 22)
  /-- BNZ (R103). Cell core instruction that branches when a scalar is non-zero. -/
  | bnz (cell : CellId) (g : BitVec 4) (o : BitVec 22)
  /-- PUSH (R109). Cell core instruction that appends one to sixteen 128-bit commands to an engine queue, waiting while it is full. -/
  | push (cell : CellId) (g : BitVec 4) (o : BitVec 22)
  /-- SIG (R114). Cell core instruction that adds N + 1 to a semaphore. -/
  | sig (cell : CellId) (g : BitVec 4) (o : BitVec 22)
  /-- WAITS (R114). Cell core instruction that waits until a semaphore holds at least N and subtracts N. -/
  | waits (cell : CellId) (g : BitVec 4) (o : BitVec 22)
  /-- WAITSR (R114). Cell core instruction that waits on a semaphore for a count taken from a scalar register. -/
  | waitsr (cell : CellId) (g : BitVec 4) (o : BitVec 22)
  /-- SEMRD (R114). Cell core instruction that reads a semaphore count. -/
  | semrd (cell : CellId) (g : BitVec 4) (o : BitVec 22)
  /-- ENQ (R115). Cell core instruction that hands a device-made task entry to the dispatcher and waits for the answer. -/
  | enq (cell : CellId) (g : BitVec 4) (o : BitVec 22)
  /-- MFS (R119). Cell core instruction that reads a special value such as cell ID or task ID. -/
  | mfs (cell : CellId) (g : BitVec 4) (o : BitVec 22)
  /-- RDLT (R120). Cell core instruction that samples line time into a register pair. -/
  | rdlt (cell : CellId) (g : BitVec 4) (o : BitVec 22)
  /-- SWB (R70). Cell core instruction that switches the active instruction bank, waiting for a load in progress. -/
  | swb (cell : CellId) (g : BitVec 4) (o : BitVec 22)
  /-- HALT (R118). Cell core instruction that stops fetch, releases a held load and places the cell in HALTED. -/
  | halt (cell : CellId) (g : BitVec 4) (o : BitVec 22)
  /-- MX_SYNC (R243). q.mx command that only waits and signals. -/
  | mxSync (cell : CellId)
  /-- MMA (R222). Matrix command that multiplies a stream window into an accumulator bank. -/
  | mma (cell : CellId)
  /-- VX_SYNC (R243). q.vx command that only waits and signals. -/
  | vxSync (cell : CellId)
  /-- VBIN (R225). Vector command that computes an element-wise binary operation. -/
  | vbin (cell : CellId)
  /-- VUN (R226). Vector command that computes an element-wise unary operation or conversion. -/
  | vun (cell : CellId)
  /-- VFMA (R227). Vector command that computes a fused multiply-add into the destination. -/
  | vfma (cell : CellId)
  /-- VRED (R228). Vector command that reduces each row of a tensor. -/
  | vred (cell : CellId)
  /-- VRSC (R229). Vector command that reduces a whole tensor to one value, optionally delivered to a register. -/
  | vrsc (cell : CellId)
  /-- MS_SYNC (R251). q.ms command that only waits and signals. -/
  | msSync (cell : CellId)
  /-- RUNWB (R232). Marshalling command that starts a waybill in a free context. -/
  | runwb (cell : CellId)
  /-- LK_SYNC (R243). q.lk command that only waits and signals. -/
  | lkSync (cell : CellId)
  /-- LREAD (R234). Link-port command that copies a tensor named by handle into the cell store. -/
  | lread (cell : CellId)
  /-- LWRITE (R234). Link-port command that copies a cell-store tensor into a tensor named by handle. -/
  | lwrite (cell : CellId)
  /-- LCELL (R235). Link-port command that copies a cell-store tensor into another cell's store. -/
  | lcell (cell : CellId)
  /-- LATOM (R236). Link-port command that applies a memory-side atomic operation to a tensor named by handle. -/
  | latom (cell : CellId)
  /-- LCOLL (R237). Link-port command that runs a collective on a cell-store tensor. -/
  | lcoll (cell : CellId)
  /-- COMMAND_WAIT_SATISFIED (R219). A head command waiting on its semaphore starts once the count suffices and subtracts WCNT. -/
  | commandWaitSatisfied (cell : CellId) (queue : BitVec 2)
  /-- COMMAND_COMPLETE (R243). An engine command completes when its writes are visible and signals its semaphore. -/
  | commandComplete (cell : CellId) (queue : BitVec 2)
  /-- MMA_CHECK_BEAT (R151). At the check beat the checker compares checksums and the command completes, retries or fails. -/
  | mmaCheckBeat (cell : CellId) (upsets : List Upset)
  /-- MMA_RETRY_START (R152). Two beats after a failed check the array re-reads the failed command's stream row 0. -/
  | mmaRetryStart (cell : CellId)
  /-- PANEL_FILL_TAKEN (R139). A paced command waiting on its fill semaphore reads the next panel once the semaphore holds at least 1. -/
  | panelFillTaken (cell : CellId)
  /-- COLLECTIVE_PART_HANDOFF (R242). A fused compute part hands its result region to the link port once a hand-off place is free. -/
  | collectivePartHandoff (cell : CellId)
  /-- COLLECTIVE_PART_START (R242). A handed-off collective part starts on the link port and samples its group version. -/
  | collectivePartStart (cell : CellId)
  /-- COLLECTIVE_PART_COMPLETE (R241). A collective part completes, writes its result and signals CSEM. -/
  | collectivePartComplete (cell : CellId)
  /-- TRANSFER_ACK_TIMEOUT (R247). A transfer not acknowledged within 1,000,000 ns ends its command with PATH. -/
  | transferAckTimeout (cell : CellId) (queue : BitVec 3) (index landed : Nat)
  /-- DIE_LINK_FAILURE (R33). A failed die-to-die link moves traffic to the other neighbour and ends in-flight transfers with PATH. -/
  | dieLinkFailure (link : DieLink)
  /-- BALLAST_GAP_START (R158). When the array has no step, ballast holds its duty for the gap. -/
  | ballastGapStart (cell : CellId) (duty beats : Nat)
  /-- BALLAST_HOLD_END (R158). After HOLD the array's ballast duty begins to ramp down. -/
  | ballastHoldEnd (cell : CellId) (beats : Nat)
  /-- BALLAST_RAMP_END (R158). At the end of RAMP the array's ballast duty reaches zero. -/
  | ballastRampEnd (cell : CellId) (beats : Nat)
  /-- IBANK_LOAD_ISSUE (R68). The signal box issues an image load to a cell's inactive bank. -/
  | ibankLoadIssue (cell : CellId) (task : BitVec 32) (image : List Byte)
  /-- IBANK_FIRST_WRITE (R69). A load's first write reaches the bank and either begins the load or is held off. -/
  | ibankFirstWrite (cell : CellId)
  /-- IBANK_LOAD_END (R68). A load's last write completes and the signal box sets the bank's VALID. -/
  | ibankLoadEnd (cell : CellId)
  /-- IBANK_HOLD_TIMEOUT (R69). A held load unreleased after 100,000 ns is aborted with CELL_IBANK_BUSY. -/
  | ibankHoldTimeout (cell : CellId)
  /-- CELL_TASK_START (R72). The signal box starts a task on a cell by naming the bank to run. -/
  | cellTaskStart (cell : CellId) (bank : Bool)
  /-- CELL_HALT_DRAINED (R74). A HALTED cell enters IDLE once every queue and engine is empty. -/
  | cellHaltDrained (cell : CellId)
  /-- CELL_FAULT_HANDLED (R75). After the dispatcher deals with a fault the signal box clears the cell and returns it to IDLE. -/
  | cellFaultHandled (cell : CellId)
  /-- CELL_RETIRE (R79). A cell with three suspect events enters RETIRED once its task ends, and a spare is chosen. -/
  | cellRetire (cell : CellId) (flashOk : Bool)
  /-- SPARE_ADMITTED (R79). A spare's store clear completes and it enters IDLE in the active set. -/
  | spareAdmitted (cell : CellId)
  /-- WB_END (R263). Waybill instruction that stops fetch and ends the waybill once deferred signals take effect. -/
  | wbEnd (cell : CellId) (ctx : BitVec 2) (w : DWord)
  /-- WB_NOP (R258). Waybill instruction that does nothing. -/
  | wbNop (cell : CellId) (ctx : BitVec 2) (w : DWord)
  /-- WB_SETV (R258). Waybill instruction that sets a v register to an immediate. -/
  | wbSetv (cell : CellId) (ctx : BitVec 2) (w : DWord)
  /-- WB_ADDV (R258). Waybill instruction that adds an immediate to a v register. -/
  | wbAddv (cell : CellId) (ctx : BitVec 2) (w : DWord)
  /-- WB_ADDVV (R258). Waybill instruction that adds two v registers. -/
  | wbAddvv (cell : CellId) (ctx : BitVec 2) (w : DWord)
  /-- WB_GETD (R258). Waybill instruction that reads a field of a slot descriptor. -/
  | wbGetd (cell : CellId) (ctx : BitVec 2) (w : DWord)
  /-- WB_SHAPE (R258). Waybill instruction that sets a move shape. -/
  | wbShape (cell : CellId) (ctx : BitVec 2) (w : DWord)
  /-- WB_SETK (R258). Waybill instruction that sets a loop count register. -/
  | wbSetk (cell : CellId) (ctx : BitVec 2) (w : DWord)
  /-- WB_LOOP (R260). Waybill instruction that enters or skips a counted loop. -/
  | wbLoop (cell : CellId) (ctx : BitVec 2) (w : DWord)
  /-- WB_WAIT (R259). Waybill instruction that waits on a cell semaphore. -/
  | wbWait (cell : CellId) (ctx : BitVec 2) (w : DWord)
  /-- WB_WAIT_SATISFIED (R259). A waiting waybill context proceeds once its semaphore holds enough. -/
  | wbWaitSatisfied (cell : CellId) (ctx : BitVec 2)
  /-- WB_SIGNAL (R262). Waybill instruction that queues a deferred semaphore add. -/
  | wbSignal (cell : CellId) (ctx : BitVec 2) (w : DWord)
  /-- WB_SIGNAL_EFFECT (R262). A deferred SIGNAL takes effect once the context's earlier writes are visible. -/
  | wbSignalEffect (cell : CellId) (ctx : BitVec 2)
  /-- WB_FENCE (R262). Waybill instruction that holds the context until its earlier writes are visible. -/
  | wbFence (cell : CellId) (ctx : BitVec 2) (w : DWord)
  /-- WB_FENCE_RELEASE (R262). A fenced context resumes once its earlier writes are visible. -/
  | wbFenceRelease (cell : CellId) (ctx : BitVec 2)
  /-- WB_SETRING (R261). Waybill instruction that sets or clears the destination ring. -/
  | wbSetring (cell : CellId) (ctx : BitVec 2) (w : DWord)
  /-- WB_SETC (R258). Waybill instruction that sets the remote cell. -/
  | wbSetc (cell : CellId) (ctx : BitVec 2) (w : DWord)
  /-- WB_MOVE (R264). Waybill instruction that moves rows with an optional skew or transpose. -/
  | wbMove (cell : CellId) (ctx : BitVec 2) (w : DWord)
  /-- WB_SEGMENT_LOST (R272). A lost source segment ends the waybill with PATH or is written poisoned under PM. -/
  | wbSegmentLost (cell : CellId) (ctx : BitVec 2) (index : Nat) (cause : Bool)
  /-- HBM_ACCESS (R297). A pseudo-channel controller carries out a granted access to a sector. -/
  | hbmAccess (sector : Nat) (op : HbmOp) (errs : List Nat)
  /-- ATOMIC_UPDATE (R295). The controller reads a sector, applies an atomic element update and writes it back. -/
  | atomicUpdate (dpa : Nat) (fmt : BitVec 4) (op : BitVec 3) (value : Nat) (poison : Bool) (errs : List Nat)
  /-- HOST_MEM_READ (R306). A host CXL.mem read of HBM is served, with poison or range handling. -/
  | hostMemRead (offset : Nat) (cache own : Bool) (errs0 errs1 : List Nat)
  /-- HOST_MEM_WRITE (R304). A host CXL.mem write to HBM is applied or discarded beyond range. -/
  | hostMemWrite (offset : Nat) (data : List Byte) (poison keep : Bool) (errs : List Nat)
  /-- BISNP_RESPONSE (R305). The host's response to a back-invalidate snoop lets the waiting device access proceed. -/
  | bisnpResponse (line : Nat) (data : Option (List Byte)) (poison : Bool)
  /-- SCRUB_READ (R293). Patrol scrub reads a sector, correcting or poisoning it. -/
  | scrubRead (stack : BitVec 4) (sector : Nat) (reserved : Bool) (errs : List Nat)
  /-- LANE_REPAIR_START (R289). A lane reaching THRESH corrected errors pauses its pseudo-channel for live repair. -/
  | laneRepairStart (pch : BitVec 10) (lane : Nat)
  /-- LANE_REPAIR_END (R289). The spare lane is trained and the pseudo-channel resumes. -/
  | laneRepairEnd (pch : BitVec 10)
  /-- MEM_SCOPE_COMMIT (R282). Write that makes the shadow scope table active and increments MEM_SCOPE_VER. -/
  | memScopeCommit (value : BitVec 32)
  /-- TIER_MOVE (R303). The copy engine moves a tensor between tiers at a task boundary. -/
  | tierMove (handle : BitVec 32) (dest : Spot)
  /-- TIER_RECLAIM (R301). A lender reclaims tier-2 space and the borrower moves tensors out. -/
  | tierReclaim (module : BitVec 15)
  /-- TIER_LOST (R301). Failure of a lender or port marks a tier-2 or tier-3 tensor lost. -/
  | tierLost (module : BitVec 15) (handle : BitVec 32)
  /-- ARBITER_DECIDE (R314). At each slot edge an arbiter grants the next slot to an owner or background winner. -/
  | arbiterDecide (block : BitVec 3) (requests : List (BitVec 10 × BitVec 4 × BitVec 5 × BitVec 16))
  /-- TT_COMMIT (R321). Write that requests the switch of shadow timetables at the next slot 0. -/
  | ttCommit (block : BitVec 3) (value : BitVec 32)
  /-- HIF_SQ_DB (R365). Doorbell write that sets a queue's tail and appends an entry to the doorbell FIFO. -/
  | hifSqDb (queue : BitVec 6) (index : BitVec 16)
  /-- DISPATCHER_WAKE (R351). The dispatcher wakes, fetches entries, drains doorbells and rereads tails before idling. -/
  | dispatcherWake
  /-- ENTRY_ARRIVE (R330). A fetched task entry arrives and enters the ready list with a task ID. -/
  | entryArrive
  /-- TASK_PLACE (R333). When a ready task's start conditions hold the placement service chooses its consist. -/
  | taskPlace
  /-- SIGNAL_BOX_TASK (R337). A signal box receives a task and loads image, arguments, descriptors and seed into its members. -/
  | signalBoxTask (task : BitVec 32) (die : BitVec 3) (cluster : BitVec 4)
  /-- TASK_MEMBERS_START (R337). Once loading ends the signal box starts its members, or the task ends with IMAGE. -/
  | taskMembersStart (task : BitVec 32) (die : BitVec 3) (cluster : BitVec 4)
  /-- FAULT_REPORT (R341). The dispatcher receives a member fault report and ends the task. -/
  | faultReport (cell : CellId)
  /-- MEMBER_STOP (R341). A signal box stops a running member and returns it to IDLE. -/
  | memberStop (cell : CellId)
  /-- TASK_END (R340). A task's consist ends and the task ends with its status. -/
  | taskEnd (task : BitVec 32)
  /-- COMPLETION_RECORD_WRITE (R372). Once the task's writes are visible the dispatcher writes its completion record or holds it. -/
  | completionRecordWrite (queue : BitVec 6)
  /-- ENQ_REQUEST (R346). The dispatcher answers an ENQ by accepting or refusing it. -/
  | enqRequest (cell : CellId)
  /-- ENQ_ANSWER (R116). The signal box observes the dispatcher's ENQ answer and completes the ENQ. -/
  | enqAnswer (cell : CellId)
  /-- ENQ_TIMEOUT (R116). An ENQ unanswered after 10,000 ns completes with reason 4. -/
  | enqTimeout (cell : CellId)
  /-- PMAP_COMMIT (R349). The placement service commits the shadow placement map. -/
  | pmapCommit
  /-- HIF_CQ_HEAD (R372). Write of a completion head that frees room and wakes the dispatcher to drain held records. -/
  | hifCqHead (queue : BitVec 6) (index : BitVec 16)
  /-- HIF_EV_HEAD (R375). Write of the event ring head that frees room for event records. -/
  | hifEvHead (index : BitVec 16)
  /-- HIF_LEASE (R381). Write of the lease number that renews the lease or sets LEASE_LATE. -/
  | hifLease (number : BitVec 32)
  /-- LEASE_EXPIRY (R382). The lease expires 2 s after the last renewal and the device becomes DETACHED. -/
  | leaseExpiry
  /-- FE_ACCESS (R358). A firmware-emulated register access is served by dispatcher firmware. -/
  | feAccess (access : Option (BitVec 21 × Option (BitVec 32)))
  /-- FE_TIMEOUT (R358). An FE access unserved after 40,000 ns is completed by the port. -/
  | feTimeout
  /-- ATTACH (R378). Mailbox message that attaches a driver warm or with reset and starts the lease. -/
  | attach (lease : BitVec 32)
  /-- DETACH (R382). Mailbox message that makes the device DETACHED. -/
  | detach
  /-- QUEUE_CREATE (R363). Mailbox message that creates a submission and completion queue pair. -/
  | queueCreate
  /-- QUEUE_DELETE (R370). Mailbox message that deletes a queue, stopping its tasks and discarding records. -/
  | queueDelete
  /-- QUEUE_REBIND (R370). Mailbox message that replaces a halted queue's bases and sizes. -/
  | queueRebind
  /-- RESUME (R374). Mailbox message that sets a halted queue ACTIVE and replays held records. -/
  | resume
  /-- TASK_ABORT (R370). Mailbox message that ends a task with ABORTED. -/
  | taskAbort
  /-- TENSOR_CREATE (R370). Mailbox message that creates a tensor and returns its handle. -/
  | tensorCreate (handle : BitVec 32) (scope : BitVec 2) (place : Option Spot)
  /-- TENSOR_FREE (R369). Mailbox message that frees a tensor. -/
  | tensorFree
  /-- TENSOR_PIN (R303). Mailbox message that pins a tensor and returns its address. -/
  | tensorPin (place : Option Spot)
  /-- TENSOR_UNPIN (R303). Mailbox message that unpins a tensor. -/
  | tensorUnpin
  /-- TENSOR_QUERY (R369). Mailbox message that returns a tensor's tier, scope and size. -/
  | tensorQuery
  /-- HOST_GRANT (R302). Mailbox message that grants host memory for tier 3. -/
  | hostGrant (id : BitVec 32)
  /-- HOST_REVOKE (R369). Mailbox message that revokes a host memory grant. -/
  | hostRevoke (moves : List (BitVec 32 × Spot))
  /-- CONFIG_SET (R369). Mailbox message that writes DSP_CFG. -/
  | configSet
  /-- EVENT_RING_SET (R375). Mailbox message that configures the host event ring. -/
  | eventRingSet
  /-- MB_UNKNOWN_OPC (R370). A mailbox request with a reserved OPC is answered UNKNOWN. -/
  | mbUnknownOpc
  /-- FUNCTION_LEVEL_RESET (R378). A Function Level Reset resets the mailbox, detaches and discards host-interface state. -/
  | functionLevelReset
  /-- CPL_WRITE_FAILED (R374). A record write answered GO-Err or unanswered in 1 ms puts the queue in HALTED_CPL. -/
  | cplWriteFailed (queue : BitVec 6) (noAnswer : Bool)
  /-- FETCH_FAILED (R374). A failed entry fetch puts the queue in HALTED_FETCH. -/
  | fetchFailed (noAnswer : Bool)
  /-- EVENT_WRITE_FAILED (R375). A failed event ring write drops the record and counts it. -/
  | eventWriteFailed (noAnswer : Bool)
  /-- MSIX_COALESCE_TIMEOUT (R376). A queue's coalesce time elapses and its vector is sent. -/
  | msixCoalesceTimeout (queue : BitVec 6)
  /-- CXL_LINK_CHANGE (R355). The CXL link goes up or down or changes width or rate. -/
  | cxlLinkChange (up : Bool) (width rate : Nat)
  /-- PERST_ASSERT (R550). PERST# low takes the CXL link down. -/
  | perstAssert
  /-- PERST_RELEASE (R550). PERST# release lets the host port train. -/
  | perstRelease
  /-- FRAME_RECEIVE (R388). A Morgo frame is received, corrected or discarded with NAK. `flit` is the flit with its poison
  mask, `c0` and `c1` the lanes of the symbols in error in its two codewords. -/
  | frameReceive (port : BitVec 3) (valid vc : Bool) (seq : BitVec 12) (flit : List Byte × BitVec 32) (c0 c1 : List (BitVec 4))
  /-- NAK (R388). A NAK makes the sender replay from the named SEQ. -/
  | nak (port : BitVec 3) (seq : BitVec 12)
  /-- ACK (R388). An ACK releases acknowledged frames from the replay buffer. -/
  | ack (port : BitVec 3) (seq : BitVec 12)
  /-- CREDIT (R391). A CREDIT message returns flit credits to the sender. -/
  | credit (port : BitVec 3) (vc : Bool) (count : BitVec 10)
  /-- LANE_FAILING (R392). A lane exceeding its error threshold or losing lock makes the receiver request a switch. -/
  | laneFailing (port : BitVec 3) (lane : BitVec 4) (lost : Bool) (seq : BitVec 12)
  /-- LANE_SWITCH (R392). A LANE_SWITCH message schedules a lane move to a spare at a frame SEQ. -/
  | laneSwitch (port : BitVec 3) (lane : BitVec 4) (seq : BitVec 12)
  /-- LANE_SWITCH_APPLY (R392). At the named frame both ends carry the lane on the spare. -/
  | laneSwitchApply (port : BitVec 3) (transmit : Bool)
  /-- LANE_ACK (R392). A LANE_ACK confirms a lane switch. -/
  | laneAck (port : BitVec 3) (lane : BitVec 4)
  /-- HEARTBEAT_SEND (R395). Every 100,000 ns an UP port sends HEARTBEAT while the watchdog is fed. -/
  | heartbeatSend (port : BitVec 3)
  /-- HEARTBEAT (R395). A received HEARTBEAT refreshes the neighbour's liveness. -/
  | heartbeat (port : BitVec 3) (hold : BitVec 4) (dist : Option (BitVec 6))
  /-- HEARTBEAT_TIMEOUT (R396). No HEARTBEAT for 800,000 ns takes the port DOWN. -/
  | heartbeatTimeout (port : BitVec 3)
  /-- FRAME_LOCK_LOSS (R396). Loss of frame lock for 10,000 ns takes the port DOWN. -/
  | frameLockLoss (port : BitVec 3)
  /-- LIVENESS_PROBE (R395). Every 10,000 ns the link layer sends a liveness probe through the I/O die. -/
  | livenessProbe
  /-- PROBE_RETURN (R395). A returned probe feeds the liveness watchdog. -/
  | probeReturn
  /-- WATCHDOG_EXPIRY (R395). No probe for 100,000 ns stops HEARTBEAT on every port. -/
  | watchdogExpiry
  /-- LANE_TRAINED (R398). A port finishes lane training and level negotiation and sends DISCOVER. -/
  | laneTrained (port : BitVec 3) (levels : BitVec 4) (asym : Int)
  /-- DISCOVER (R398). A received DISCOVER is compared with the plan and answered ACCEPT or REJECT. -/
  | discover (port : BitVec 3) (id : BitVec 15) (peer : BitVec 3) (levels : BitVec 4)
  /-- ACCEPT (R398). A received ACCEPT brings the port UP when both ends accept. -/
  | accept (port : BitVec 3)
  /-- REJECT (R398). A received REJECT puts the port in QUARANTINED. -/
  | reject (port : BitVec 3)
  /-- TRAINING_TIMEOUT (R398). No partner 100,000,000 ns after training began puts the port in ABSENT or EDGE. -/
  | trainingTimeout (port : BitVec 3)
  /-- RETRAIN_ATTEMPT (R399). An ABSENT or EDGE port tries to train every 10,000,000 ns. -/
  | retrainAttempt (port : BitVec 3)
  /-- PEER_PORTS (R404). A PEER_PORTS message reports a neighbour's port states. -/
  | peerPorts (port : BitVec 3) (states : List (BitVec 4))
  /-- PACKET_FORWARD (R405). An arriving packet is delivered, forwarded, detoured or dropped. The row names the packet by the
  fields of its header. -/
  | packetForward (port : BitVec 3) (vc : Bool) (dst src : BitVec 16) (cls : BitVec 8) (rtv det : Bool) (hops : BitVec 8)
      (len : BitVec 16)
  /-- LNK_PLAN_COMMIT (R403). Write that commits the expected-adjacency plan and re-evaluates ports. -/
  | lnkPlanCommit (value : BitVec 32)
  /-- LNK_RT_COMMIT (R406). Write that makes the written route-table copy active for injection. -/
  | lnkRtCommit (value : BitVec 32)
  /-- LT_SYNC_SEND (R411). Every 16,000 ns a module sends LT_SYNC to its parent. -/
  | ltSyncSend
  /-- LT_SYNC_REQUEST (R411). A parent receives LT_SYNC and answers with its timestamps. -/
  | ltSyncRequest (port : BitVec 3)
  /-- LT_SYNC_ANSWER (R411). The answer yields an offset that adjusts the counter rate or steps it forward. -/
  | ltSyncAnswer (t2 t3 : Nat) (settle : Bool)
  /-- LT_PARENT_LOST (R414). A lost parent port makes the module choose a new parent or enter HOLDOVER. -/
  | ltParentLost (rootLost : Bool)
  /-- LT_REALIGN (R410). Every 1,024 ns a signal box realigns its line-time copy. -/
  | ltRealign (die : BitVec 3) (cluster : BitVec 4) (dev : BitVec 6)
  /-- ETH_LINK_CHANGE (R409). An Ethernet port gains or loses its link. -/
  | ethLinkChange (eth : Bool) (speed : BitVec 2)
  /-- RDMA_REMOTE_WRITE (R409). A remote RDMA WRITE into a memory region is checked and applied. -/
  | rdmaRemoteWrite (qp : Nat) (key : BitVec 32) (addr : Nat) (data : List Byte)
  /-- RDMA_REMOTE_READ (R409). A remote RDMA READ from a memory region is checked and served. -/
  | rdmaRemoteRead (qp : Nat) (key : BitVec 32) (addr len : Nat)
  /-- ISLAND_RDMA_WRITE (R431). An island-stage contribution arrives by RDMA WRITE with immediate. -/
  | islandRdmaWrite (eth : Bool) (src : BitVec 15) (group : BitVec 12) (ver : BitVec 16) (opseq stage offset : BitVec 32) (data : List Byte) (poison : List Nat)
  /-- COL_CONTRIBUTION (R424). A local contribution arrives and its operation is admitted to an operation slot or waits. -/
  | colContribution
  /-- COL_DATA (R432). A collective DATA packet is added or stored and acknowledged, advancing the ring. -/
  | colData (src : BitVec 15) (group : BitVec 12) (ver : BitVec 16) (opseq stage offset : BitVec 32) (data : List Byte) (poison : List Nat)
  /-- COL_ACK (R432). A collective ACK acknowledges a member's contribution. -/
  | colAck (src : BitVec 15) (group : BitVec 12) (ver : BitVec 16) (opseq stage : BitVec 32)
  /-- COL_ABORT (R433). An ABORT ends the operation and is passed on. -/
  | colAbort (src : BitVec 15) (group : BitVec 12) (ver : BitVec 16) (opseq stage : BitVec 32)
  /-- COL_OP_TIMEOUT (R433). An operation waiting COL_CFG.TIMEOUT for a contribution is ended. -/
  | colOpTimeout (group : BitVec 12) (opseq : BitVec 32) (slot : BitVec 11)
  /-- COL_GT_COMMIT (R423). Write that checks and commits the shadow group table. -/
  | colGtCommit (value : BitVec 32)
  /-- HOLD (R445). A received HOLD is forwarded and, for the module's job, stops its tasks and collectives. -/
  | hold (port : BitVec 3) (job : BitVec 16) (origin : BitVec 15) (oseq : BitVec 8) (cause : BitVec 4) (failed : BitVec 15) (fport : BitVec 8) (lt : BitVec 64)
  /-- RELEASE (R446). A RELEASE returns the module to RUN and restarts tasks. -/
  | release (port : BitVec 3) (job : BitVec 16) (origin : BitVec 15) (oseq round : BitVec 8) (epoch : BitVec 32) (lt : BitVec 64)
  /-- HOLD_REQUEST (R441). The rack manager requests a planned hold over the side-band. -/
  | holdRequest (failed : BitVec 15)
  /-- OWN_FAULT_HOLD (R442). Firmware finding an unsurvivable fault originates a hold of cause 1. -/
  | ownFaultHold
  /-- HELD_REACHED (R445). Once stopped tasks' writes are visible the module enters HELD and sends HELD_REPORT. -/
  | heldReached
  /-- HELD_REPORT (R455). The coordinator collects a HELD_REPORT. -/
  | heldReport (src : BitVec 15) (round : BitVec 8) (job : BitVec 16) (epoch : BitVec 64) (heard : List (BitVec 15))
  /-- REPORT_WAIT_TIMEOUT (R455). Positions unreported 50,000,000 ns after the first report are deemed failed. -/
  | reportWaitTimeout
  /-- BACKUP_TAKEOVER (R454). The backup with no PLAN within 100,000,000 ns takes the coordinator's place. -/
  | backupTakeover
  /-- PLAN (R456). A PLAN makes a module write substitution words and send READY. -/
  | plan (src : BitVec 15) (round : BitVec 8) (job : BitVec 16) (epoch : BitVec 64) (pairs drops : List (BitVec 15 × BitVec 15))
  /-- READY (R456). The coordinator collects a READY. -/
  | ready (src : BitVec 15) (round : BitVec 8) (job : BitVec 16)
  /-- REBUILD_GO (R456). REBUILD_GO puts a module into REBUILD and starts the rebuild chain. -/
  | rebuildGo (round : BitVec 8) (job : BitVec 16) (position spare : BitVec 15)
  /-- REBUILT (R456). The coordinator receives REBUILT from a spare. -/
  | rebuilt (src : BitVec 15) (round : BitVec 8) (job : BitVec 16)
  /-- REC_COMMIT (R456). A recovery COMMIT commits group tables, headers and saved timetables. -/
  | recCommit (round : BitVec 8) (job : BitVec 16)
  /-- STOP (R458). A STOP puts every module of the job in STUCK. -/
  | stop (round : BitVec 8) (job : BitVec 16) (reason : BitVec 8)
  /-- WRITTEN_UPDATE (R451). A write of the WRITTEN header word starts the parity refresh of its epoch. -/
  | writtenUpdate
  /-- REFRESH (R451). A relay REFRESH chunk is XORed with the local copy and passed on or written as parity. -/
  | refresh (src : BitVec 15) (slice stage : BitVec 4) (epoch offset : BitVec 32) (fmt : BitVec 8) (crcs : List (BitVec 32)) (data : List Byte) (poison : List Nat)
  /-- PARITY_COMMIT (R452). A relay COMMIT sets COMMITTED and launches the job-epoch reduction. -/
  | parityCommit (epoch : BitVec 32) (fmt : BitVec 8)
  /-- JOB_EPOCH_REDUCED (R452). The epoch-group reduction completes and firmware updates JOB. -/
  | jobEpochReduced
  /-- REBUILD (R459). A relay REBUILD chunk is XORed, passed on or written by the spare. -/
  | rebuild (src : BitVec 15) (slice stage : BitVec 4) (offset : BitVec 32) (fmt : BitVec 8) (check : BitVec 32) (data : List Byte) (poison : List Nat)
  /-- RELAY_ACK (R453). A relay ACK acknowledges relay chunks. -/
  | relayAck (rebuild : Bool) (slice : BitVec 4)
  /-- RELAY_ABORT (R453). A relay ABORT ends a relay operation. -/
  | relayAbort (rebuild : Bool) (slice : BitVec 4)
  /-- AUX_12V_PRESENT (R468). The 12 V input reaches 10.5 V and the always-on domain runs. -/
  | aux12vPresent (slot : BitVec 3)
  /-- AUX_12V_ABSENT (R468). The 12 V input stays below 9.8 V for 10 µs and the module is unpowered. -/
  | aux12vAbsent
  /-- MAIN_DWELL_ELAPSED (R468). After 100 ms in band the inrush switch charges the bulk. -/
  | mainDwellElapsed
  /-- INRUSH_CHARGED (R471). The bulk is charged and the main power stage starts a cold start. -/
  | inrushCharged (flash : List (BitVec 4)) (found : Training)
  /-- OVERVOLTAGE (R474). 48 V above 59.0 V for 1 µs opens the inrush switch. -/
  | overvoltage (volt : BitVec 16)
  /-- INPUT_WARN (R475). 48 V falling past 42.0 V limits duty, rails and HBM. -/
  | inputWarn (volt : BitVec 16)
  /-- INPUT_WARN_CLEAR (R475). 48 V at or above 43.0 V for 1 ms lifts the input warning. -/
  | inputWarnClear (low : BitVec 16)
  /-- INPUT_RESET (R476). 48 V below 38.0 V for 1 µs brakes and switches off the module. -/
  | inputReset (low : BitVec 16)
  /-- RAIL_WARN (R475). A core rail falling past 0.46 V limits its die's arrays. -/
  | railWarn (die : BitVec 3) (rail : BitVec 10)
  /-- RAIL_WARN_CLEAR (R475). A rail at or above 0.48 V for 100 µs lifts its warning. -/
  | railWarnClear (die : BitVec 3) (low : BitVec 10)
  /-- RAIL_RESET (R476). A core rail below 0.42 V for 200 ns brakes and switches off the module. -/
  | railReset (die : BitVec 3) (low : BitVec 10)
  /-- RAIL_RESET_RESTART (R476). 1 s after a rail reset outside a start a cold start begins. -/
  | railResetRestart (flash : List (BitVec 4))
  /-- THERMAL_THROTTLE (R478). A die at 95 °C has its rail lowered. -/
  | thermalThrottle (die : BitVec 4) (temp : BitVec 8)
  /-- THERMAL_THROTTLE_END (R478). A die below 93 °C ends its throttle. -/
  | thermalThrottleEnd (die : BitVec 4) (temp : BitVec 8)
  /-- THERMAL_WARN (R478). A die at 100 °C is limited to 25 % duty. -/
  | thermalWarn (die : BitVec 4) (temp : BitVec 8)
  /-- THERMAL_WARN_CLEAR (R478). A die below 97 °C clears its thermal warning. -/
  | thermalWarnClear (die : BitVec 4) (temp high : BitVec 8)
  /-- THERMAL_TRIP_WARNING (R478). 100 °C held for 100 ms sends a thermal-trip warning that raises a hold. -/
  | thermalTripWarning (die : BitVec 4)
  /-- THERMAL_TRIP (R478). A die at 105 °C brakes and switches off the module. -/
  | thermalTrip (die : BitVec 4) (temp : BitVec 8)
  /-- POWER_GRANT (R481). A rack grant message is applied or ignored by sequence number. -/
  | powerGrant (watts seq life : BitVec 16)
  /-- GRANT_EXPIRY (R480). A grant's lifetime runs out and the fallback applies. -/
  | grantExpiry
  /-- CONTROL_PERIOD (R483). Every 100 µs the cap controller sets rails, duty and HBM limits. -/
  | controlPeriod (rails : List (BitVec 10)) (duty hbm : List (BitVec 7)) (temps : List (BitVec 8)) (volt : BitVec 16) (watts : BitVec 12)
  /-- CAP_TABLE_COMMIT (R485). Every 10 ms the shadow cap table becomes active. -/
  | capTableCommit
  /-- ESTIMATE_UNTRUSTED (R487). Estimate diverging for over 2 ms switches to measurement-only control. -/
  | estimateUntrusted (estimate measured : BitVec 16) (phases : List (BitVec 16))
  /-- ESTIMATE_TRUSTED (R487). Agreement for 20 ms makes the estimator trusted again. -/
  | estimateTrusted (estimate measured : BitVec 16)
  /-- HW_LIMIT (R488). Input power above 1.08 times the cap sets a 50 % duty limit. -/
  | hwLimit (average : BitVec 16)
  /-- START_REQUEST (R507). A side-band start request starts or queues a cold, warm or reload start. -/
  | startRequest (kind : BitVec 2) (clear staged : Bool) (flash : List (BitVec 4)) (found : Training)
  /-- START_COMPLETE (R511). Every core reports ready and the start completes. -/
  | startComplete (flash : List (BitVec 4))
  /-- START_FAILED (R511). A start fails, the count rises and the main stage switches off. -/
  | startFailed (reason step : BitVec 5) (stack : BitVec 4) (channel : BitVec 5) (lane : BitVec 8) (flash : List (BitVec 4))
  /-- START_TIMEOUT (R511). A start incomplete after 120 s fails. -/
  | startTimeout (flash : List (BitVec 4))
  /-- CORE_READY_TIMEOUT (R511). A core image not ready 5 s after load fails the start. -/
  | coreReadyTimeout (flash : List (BitVec 4))
  /-- FAILED_START_RETRY (R507). 10 s after a failed start outside depot mode a cold start begins. -/
  | failedStartRetry (flash : List (BitVec 4))
  /-- BUNDLE_FETCH_DONE (R502). A bundle fetch completes or fails and the bundle is verified. -/
  | bundleFetchDone (bundle : Option Bundle) (found : Training)
  /-- BUNDLE_PUSH (R502). A PLDM push places a bundle into STAGED. -/
  | bundlePush (bundle : Bundle)
  /-- ACTIVATE_FIRMWARE (R513). PLDM ActivateFirmware requests a live update. -/
  | activateFirmware
  /-- ACTIVATION_BEGIN (R513). A deferred activation begins once its conditions hold. -/
  | activationBegin
  /-- ACTIVATION_CANCEL (R513). An activation not begun within 60 s is cancelled. -/
  | activationCancel
  /-- COMPONENT_HANDOVER (R514). A component reaches its boundary and hands over to its new image. -/
  | componentHandover (recordOk : Bool)
  /-- HANDOVER_RESUME_TIMEOUT (R515). A new image not resumed within 2 s reverts the update. -/
  | handoverResumeTimeout
  /-- PROTECTION_FAULT (R497). A core accessing outside its windows halts. -/
  | protectionFault (core : BitVec 2) (cluster : BitVec 7) (addr : BitVec 64)
  /-- CORE_RELOAD (R498). The security core reloads a halted core's image. -/
  | coreReload (core : BitVec 2) (cluster : BitVec 7)
  /-- SECURITY_CORE_RESTART (R498). The always-on logic restarts a halted security core. -/
  | securityCoreRestart
  /-- GET_VERSION (R517). SPDM request for supported versions. -/
  | getVersion
  /-- GET_CAPABILITIES (R517). SPDM request for capabilities. -/
  | getCapabilities
  /-- NEGOTIATE_ALGORITHMS (R517). SPDM request to negotiate algorithms. -/
  | negotiateAlgorithms
  /-- GET_DIGESTS (R517). SPDM request for certificate digests. -/
  | getDigests
  /-- GET_CERTIFICATE (R517). SPDM request for a certificate chain. -/
  | getCertificate (slot : BitVec 8) (offset length : BitVec 16)
  /-- CHALLENGE (R517). SPDM challenge signed with the identity key. -/
  | challenge (slot : BitVec 8) (nonce : List Byte)
  /-- GET_MEASUREMENTS (R517). SPDM request for signed measurements. -/
  | getMeasurements (index : BitVec 8) (nonce : List Byte)
  /-- WINDOW_READ (R521). Side-band message that reads register window words. -/
  | windowRead (offset : BitVec 32) (count : BitVec 8)
  /-- WINDOW_WRITE (R521). Side-band message that writes one register window word. -/
  | windowWrite (offset : BitVec 32) (value : BitVec 32)
  /-- SCAN_READ (R534). Side-band message that reads frozen scan state. -/
  | scanRead (space : BitVec 8) (cell : BitVec 16) (offset : BitVec 32) (length : BitVec 16)
  /-- SIDEBAND_BRAKE (R529). Side-band request that applies the emergency brake. -/
  | sidebandBrake
  /-- DBG_BRAKE (R529). Write of 0xB8A4 that applies the emergency brake. -/
  | dbgBrake (value : BitVec 32)
  /-- EXTEST (R534). JTAG instruction selecting boundary scan. -/
  | extest
  /-- SAMPLE_PRELOAD (R534). JTAG instruction sampling the boundary scan. -/
  | samplePreload
  /-- JTAG_BRAKE (R534). JTAG instruction whose Update-DR with 1 applies the brake. -/
  | jtagBrake (bit : Bool)
  /-- SCANADDR (R534). JTAG instruction setting the scan address. -/
  | scanaddr (value : BitVec 64)
  /-- SCANDATA (R534). JTAG instruction capturing a scan word and advancing the offset. -/
  | scandata
  /-- DBGSTAT (R534). JTAG instruction reading brake and scan state. -/
  | dbgstat
  /-- BYPASS (R534). JTAG bypass instruction. -/
  | bypass (code : BitVec 8)
  /-- TRACE_ENTRY (R524). An enabled trace entry enters the staging queue or is dropped. -/
  | traceEntry (die : BitVec 3) (cluster : BitVec 4) (code : BitVec 16) (sev : BitVec 2) (cell : Option (BitVec 4)) (payload : List Byte)
  /-- TRACE_WRITE (R525). A staged entry is written into the trace buffer. -/
  | traceWrite (die : BitVec 3) (cluster : BitVec 4)
  /-- TRACE_ARM (R540). Write of ARM restarting the trace. -/
  | traceArm (die : BitVec 3) (cluster : BitVec 4)
  /-- TRACE_STOP (R540). Write of STOP stopping the trace. -/
  | traceStop (die : BitVec 3) (cluster : BitVec 4)
  /-- TRACE_SW_TRIGGER (R527). Write of TRIGGER as a software trigger. -/
  | traceSwTrigger (die : BitVec 3) (cluster : BitVec 4)
  /-- TRACE_TRIGGER (R527). A NaN latch, fault, event match or brake triggers a window trace. -/
  | traceTrigger (die : BitVec 3) (cluster : BitVec 4) (source : BitVec 2) (cell : BitVec 4) (code : BitVec 16)
  /-- GLOBAL_TRIGGER (R527). A forwarded global trigger reaches an armed cluster. -/
  | globalTrigger (die : BitVec 3) (cluster : BitVec 4) (fromDie : BitVec 3) (fromCluster : BitVec 4) (lt : BitVec 64)
  /-- HANG_WATCH_TIMEOUT (R536). A consist without progress for TIME ms starts a graph build. -/
  | hangWatchTimeout (task : BitVec 32)
  /-- DBG_HANG_BUILD (R536). Write of BUILD requesting a wait-for graph. -/
  | dbgHangBuild (value : BitVec 32)
  /-- HANG_SNAPSHOT_CONFIRM (R537). The second snapshot confirms waits and replaces the graph image. -/
  | hangSnapshotConfirm
  /-- LATCHING_LO_READ (R521). Read of a LO half that latches the HI half. -/
  | latchingLoRead (side : Bool) (offset : BitVec 21)
  /-- RC_READ (R18). Read of an RC register that clears it. -/
  | rcRead (side : Bool) (offset : BitVec 21)
  /-- TRACE_PORT_READ (R541). Read of DBG_TRACE_DATA that latches an entry or advances INDEX. -/
  | tracePortRead (side : Bool) (offset : BitVec 21)
  /-- REGISTER_WRITE (R18). Write to a register with no row of its own, taking effect per its access code. -/
  | registerWrite (writer : Writer) (offset : BitVec 21) (value : BitVec 32)
  /-- TRIP_COOLDOWN (R479). After a thermal trip, every die falling below 70 °C lets a held start request begin its cold start. -/
  | tripCooldown (temps : List (BitVec 8)) (flash : List (BitVec 4)) (found : Training)
  /-- SUSPECT_WINDOW_EXPIRY (R78). A suspect event older than 24 hours leaves the window and CELL_SUSPECT.WINDOW falls. -/
  | suspectWindowExpiry (cell : CellId)
  /-- IEEE_1588_SYNC (R415). An IEEE 1588 timing exchange on an Ethernet port adjusts an island root's line time toward the named time source. -/
  | ieee1588Sync (eth : Bool) (offset8 : Int)
  /-- ROOT_LINE_TIME_SET (R412). The rack manager sets the root module's line-time counter through the side-band. -/
  | rootLineTimeSet (value : BitVec 64)
  /-- CONGESTION_NOTIFICATION (R408). A received congestion notification packet reduces the sending rate of the RDMA engine. -/
  | congestionNotification (qp : Nat)
  /-- PRIORITY_FLOW_CONTROL (R408). A received IEEE 802.1Qbb pause frame pauses or resumes transmission on a priority of an Ethernet port. -/
  | priorityFlowControl (eth : Bool) (priority : BitVec 3) (pause : Bool)
  /-- RDMA_WORK_COMPLETION (R409). Locally posted RDMA work of the reduction engine, copy engine or firmware completes by acknowledgement or read response. -/
  | rdmaWorkCompletion (work : Option Nat) (ok : Bool) (dst : Nat) (data : List Byte)
  /-- QUEUE_PAIR_SETUP (R409). The job's control software sets up a RoCEv2 queue pair or memory region through the side-band. -/
  | queuePairSetup (region : Bool) (num base len : Nat) (key : BitVec 32) (eth : Bool) (peer : BitVec 24)
  /-- BUNDLE_FETCH_RETRY (R502). 2 s after a failed fetch try the boot ROM tries the bundle fetch again. -/
  | bundleFetchRetry
  /-- MODULE_ID_ASSIGN (R25). The rack manager assigns the module its module ID from its position. -/
  | moduleIdAssign (id : BitVec 15)
  /-- JTAG_TRST (R548). Assertion of JTAG_TRST# holds the TAP in reset. -/
  | jtagTrst (low : Bool)
  /-- RECORD_WRITE_COMPLETED (R376). The host answers a completion or event record write, letting the covered MSI-X vector be sent. -/
  | recordWriteCompleted (queue : BitVec 7)
  deriving DecidableEq, Repr

end Sys2Proof
end

