-- ==== Sys2Proof/Decode.lean ====
section
/-!
DEFINITION. The command a word spells. The table of this hardware gives no row any bits: a command is an access, a message
or an event, and its operands are those of `Instr`. The two instruction words the spec gives encodings, of the cell core
(R88 to R90) and of the marshalling engine (R258), are decoded to their commands here.
-/

namespace Sys2Proof

/-- No row of the table gives bits, so no word spells a command. -/
def decodeTableWord (_nbits _w : Nat) : Option Instr := none

/-- The instruction a cell's core reads from a 32-bit word (R88, R90): OP in bits 31 to 26, the guard in bits 25 to 22,
the operands below; none for a reserved opcode. -/
def decodeCore (cell : CellId) (w : BitVec 32) : Option Instr :=
  let g : BitVec 4 := w.extractLsb' 22 4
  let o : BitVec 22 := w.extractLsb' 0 22
  match (w.extractLsb' 26 6).toNat with
  | 0x00 => some (.nop cell g o)
  | 0x01 => some (.alu cell g o)
  | 0x02 => some (.addi cell g o)
  | 0x03 => some (.andi cell g o)
  | 0x04 => some (.ori cell g o)
  | 0x05 => some (.xori cell g o)
  | 0x06 => some (.slli cell g o)
  | 0x07 => some (.srli cell g o)
  | 0x08 => some (.srai cell g o)
  | 0x09 => some (.li cell g o)
  | 0x0A => some (.lih cell g o)
  | 0x0B => some (.cmp cell g o)
  | 0x0C => some (.cmpi cell g o)
  | 0x0D => some (.plog cell g o)
  | 0x0E => some (.pfroms cell g o)
  | 0x0F => some (.ptos cell g o)
  | 0x10 => some (.sel cell g o)
  | 0x11 => some (.lb cell g o)
  | 0x12 => some (.lbu cell g o)
  | 0x13 => some (.lh cell g o)
  | 0x14 => some (.lhu cell g o)
  | 0x15 => some (.lw cell g o)
  | 0x16 => some (.sb cell g o)
  | 0x17 => some (.sh cell g o)
  | 0x18 => some (.sw cell g o)
  | 0x19 => some (.lda cell g o)
  | 0x1A => some (.sta cell g o)
  | 0x1B => some (.tld cell g o)
  | 0x1C => some (.tst cell g o)
  | 0x1D => some (.aadd cell g o)
  | 0x1E => some (.aaddi cell g o)
  | 0x1F => some (.afrom cell g o)
  | 0x20 => some (.ato cell g o)
  | 0x21 => some (.astr cell g o)
  | 0x22 => some (.astri cell g o)
  | 0x23 => some (.amov cell g o)
  | 0x24 => some (.tofs cell g o)
  | 0x25 => some (.tadv cell g o)
  | 0x26 => some (.tget cell g o)
  | 0x27 => some (.tset cell g o)
  | 0x28 => some (.lcset cell g o)
  | 0x29 => some (.lci cell g o)
  | 0x2A => some (.loop cell g o)
  | 0x2B => some (.lset cell g o)
  | 0x2C => some (.lbrk cell g o)
  | 0x2D => some (.lget cell g o)
  | 0x2E => some (.br cell g o)
  | 0x2F => some (.call cell g o)
  | 0x30 => some (.jr cell g o)
  | 0x31 => some (.bz cell g o)
  | 0x32 => some (.bnz cell g o)
  | 0x33 => some (.push cell g o)
  | 0x34 => some (.sig cell g o)
  | 0x35 => some (.waits cell g o)
  | 0x36 => some (.waitsr cell g o)
  | 0x37 => some (.semrd cell g o)
  | 0x38 => some (.enq cell g o)
  | 0x39 => some (.mfs cell g o)
  | 0x3A => some (.rdlt cell g o)
  | 0x3B => some (.swb cell g o)
  | 0x3C => some (.halt cell g o)
  | _ => none

/-- The instruction a context of the marshalling engine reads from a 64-bit word (R258): the opcode in bits 63 to 58; none
for a reserved one. -/
def decodeWaybill (cell : CellId) (ctx : BitVec 2) (w : BitVec 64) : Option Instr :=
  match (w.extractLsb' 58 6).toNat with
  | 0x00 => some (.wbEnd cell ctx w)
  | 0x01 => some (.wbNop cell ctx w)
  | 0x02 => some (.wbSetv cell ctx w)
  | 0x03 => some (.wbAddv cell ctx w)
  | 0x04 => some (.wbAddvv cell ctx w)
  | 0x05 => some (.wbGetd cell ctx w)
  | 0x06 => some (.wbShape cell ctx w)
  | 0x07 => some (.wbSetk cell ctx w)
  | 0x08 => some (.wbLoop cell ctx w)
  | 0x09 => some (.wbWait cell ctx w)
  | 0x0A => some (.wbSignal cell ctx w)
  | 0x0B => some (.wbFence cell ctx w)
  | 0x0C => some (.wbSetring cell ctx w)
  | 0x0D => some (.wbSetc cell ctx w)
  | 0x10 => some (.wbMove cell ctx w)
  | _ => none

end Sys2Proof
end

