-- ==== Sys2Proof/Config.lean ====
section
/-!
DEFINITION. The values the specification leaves open: constants without a body, so that no proof can use a value of
them. Each is applied to the data it may depend on, or to the counter `State.free`, which a step reads and advances.
-/

namespace Sys2Proof.Config

/-- A value the specification does not state (UNSPECIFIED data, a firmware choice, a nonce), drawn once per use:
log entry 3. -/
opaque freeNat : Nat → Nat

/-- One draw of the keyed mixing function G of R199, from the parts of its key (task seed, physical cell, stream,
command sequence number, attempt), the position and the counter: log entry 4. -/
opaque draw (seed : BitVec 64) (cell : BitVec 11) (stream : Nat) (seq : BitVec 32) (attempt : Nat)
  (position counter : Nat) : BitVec 24

/-- The FP32 result of an approximated vector function (R226, FN 0x05 to 0x09) on a finite non-special input:
log entry 5. -/
opaque approx (fn : BitVec 6) (x : BitVec 32) : BitVec 32

/-- What a byte of host memory holds before anything in this model has written it: log entry 6. -/
opaque hostByte : Nat → BitVec 8

/-- The bits a signature, a hash or a certificate of the security core holds (R516 to R519): log entry 7. -/
opaque signByte : Nat → Nat → BitVec 8

/-- The bytes of HBM that a module offers to lend to another one (R301); 0 to a module of another job: log entry 130. -/
opaque lendQuota (lender borrower : Nat) : Nat

/-- The bytes of HBM that an undefined outcome changes, and to what (R6): log entry 16. -/
opaque wildHbm : Nat → List (Nat × BitVec 8)

/-- The 32-byte sectors of HBM whose poison mark an undefined outcome changes (R6): log entry 16. -/
opaque wildMarks : Nat → List Nat

/-- The bytes of cell stores that an undefined outcome changes, and to what (R6): cell, address, byte; log entry 16. -/
opaque wildStores : Nat → List (BitVec 11 × Nat × BitVec 8)

/-- What each millivolt of a rail below 0.50 V adds to the beat rate, by temperature (R44): log entry 133. -/
opaque sagStep (temp rail : Nat) : Nat

end Sys2Proof.Config
end

