-- ==== Sys2Proof/Machine/Mem.lean ====
section
/-!
DEFINITION. Memories as sorted lists of (address, byte) pairs, sparse maps, register files and byte packing: the plain
data operations every other file of the machine uses.
-/

namespace Sys2Proof.Machine

/-! ### Memories (canonical form: addresses strictly rising, no entry equal to the default byte) -/

/-- A memory: the bytes that differ from what an unlisted address reads as. -/
abbrev Mem := List Host.Cell

/-- Read one byte; `d` is what an unlisted address reads as. -/
def Mem.get (d : Byte) : Mem → Nat → Byte
  | [], _ => d
  | (a, b) :: rest, k => if a = k then b else Mem.get d rest k

/-- Write one byte, keeping the canonical form: writing the default removes the entry. -/
def Mem.put (d : Byte) : Mem → Nat → Byte → Mem
  | [], k, v => if v = d then [] else [(k, v)]
  | (a, b) :: rest, k, v =>
    if k < a ∧ v ≠ d then (k, v) :: (a, b) :: rest
    else if k = a then (if v = d then Mem.put d rest k v else (k, v) :: rest)
    else (a, b) :: Mem.put d rest k v

/-- The canonical form, above a lower bound on the addresses. -/
def Mem.wfFrom (d : Byte) : Nat → Mem → Bool
  | _, [] => true
  | lo, (a, b) :: rest => decide (lo ≤ a) && decide (b ≠ d) && Mem.wfFrom d (a + 1) rest

/-- The canonical form: addresses strictly rising and no entry equal to the default. -/
def Mem.wf (d : Byte) (m : Mem) : Bool := Mem.wfFrom d 0 m

/-- Read `n` bytes from `a` upward, lowest address first. -/
def Mem.read (d : Byte) (m : Mem) (a : Nat) : Nat → List Byte
  | 0 => []
  | n + 1 => m.get d a :: Mem.read d m (a + 1) n

/-- Write a list of bytes from `a` upward, lowest address first. -/
def Mem.write (d : Byte) (m : Mem) (a : Nat) : List Byte → Mem
  | [] => m
  | b :: bs => Mem.write d (m.put d a b) (a + 1) bs

/-! ### Byte packing (R13, little-endian) -/

/-- The number a list of bytes spells, lowest byte first. -/
def leNat : List Byte → Nat
  | [] => 0
  | b :: bs => b.toNat + 256 * leNat bs

/-- The `n` bytes of a number, lowest byte first. -/
def leBytes : Nat → Nat → List Byte
  | 0, _ => []
  | n + 1, v => BitVec.ofNat 8 v :: leBytes n (v / 256)

/-- Read an `n`-byte little-endian number at `a`. -/
def Mem.readNat (d : Byte) (m : Mem) (a n : Nat) : Nat := leNat (m.read d a n)

/-- Write an `n`-byte little-endian number at `a`. -/
def Mem.writeNat (d : Byte) (m : Mem) (a n v : Nat) : Mem := m.write d a (leBytes n v)

/-- Bits `hi` down to `lo` of a number. -/
def bitsOf (v hi lo : Nat) : Nat := (v / 2 ^ lo) % 2 ^ (hi + 1 - lo)

/-! ### Sparse maps: sorted lists of (key, value), a default for unlisted keys -/

/-- A sparse map from numbers. -/
abbrev Sparse (α : Type) := List (Nat × α)

/-- The value at a key; `d` for an unlisted key. -/
def Sparse.at {α : Type} (d : α) : Sparse α → Nat → α
  | [], _ => d
  | (a, v) :: rest, k => if a = k then v else Sparse.at d rest k

/-- The value at a key, if listed. -/
def Sparse.find {α : Type} : Sparse α → Nat → Option α
  | [], _ => none
  | (a, v) :: rest, k => if a = k then some v else Sparse.find rest k

/-- Set the value at a key, keeping the keys strictly rising. -/
def Sparse.put {α : Type} : Sparse α → Nat → α → Sparse α
  | [], k, v => [(k, v)]
  | (a, w) :: rest, k, v =>
    if k < a then (k, v) :: (a, w) :: rest
    else if k = a then (k, v) :: rest
    else (a, w) :: Sparse.put rest k v

/-- Remove a key. -/
def Sparse.erase {α : Type} : Sparse α → Nat → Sparse α
  | [], _ => []
  | (a, w) :: rest, k => if a = k then rest else (a, w) :: Sparse.erase rest k

/-! ### Sets of numbers as strictly rising lists -/

/-- Put a number into a set. -/
def setIns : List Nat → Nat → List Nat
  | [], k => [k]
  | a :: rest, k => if k < a then k :: a :: rest else if k = a then a :: rest else a :: setIns rest k

/-- Take a number out of a set. -/
def setDel (l : List Nat) (k : Nat) : List Nat := l.filter (fun a => a ≠ k)

/-! ### Register files -/

/-- Read register `i` of a file of 2^n registers. -/
def rget {α : Type} {n : Nat} (v : Vector α (2 ^ n)) (i : BitVec n) : α := v[i.toNat]'i.isLt

/-- Write register `i` of a file of 2^n registers. -/
def rset {α : Type} {n : Nat} (v : Vector α (2 ^ n)) (i : BitVec n) (x : α) : Vector α (2 ^ n) :=
  v.set i.toNat x i.isLt

/-- Replace element `i` of a list, leaving a list that is too short as it is. -/
def lset {α : Type} : List α → Nat → α → List α
  | [], _, _ => []
  | _ :: rest, 0, x => x :: rest
  | a :: rest, i + 1, x => a :: lset rest i x

/-- Apply a function to element `i` of a list. -/
def lmod {α : Type} : List α → Nat → (α → α) → List α
  | [], _, _ => []
  | a :: rest, 0, f => f a :: rest
  | a :: rest, i + 1, f => a :: lmod rest i f

/-- A saturating increment of a counter of `n` bits. -/
def satInc {n : Nat} (x : BitVec n) : BitVec n := if x = BitVec.allOnes n then x else x + 1

/-- Iterate a function. -/
def iter {α : Type} (f : α → α) : Nat → α → α
  | 0, x => x
  | n + 1, x => iter f n (f x)

/-- Iterate a function until it answers none. -/
def iterWhile {α : Type} (f : α → Option α) : Nat → α → α
  | 0, x => x
  | n + 1, x => match f x with
    | none => x
    | some y => iterWhile f n y

end Sys2Proof.Machine
end

