-- ==== Sys2Proof/Machine/Num.lean ====
section
/-!
DEFINITION. Numbers and formats: the layouts of R163 to R167, exact arithmetic on dyadic numbers, the rounding modes of
R174 and R197, the conversions of R175, and the orders of R210. Every operation computes exactly and narrows once.
-/

namespace Sys2Proof.Machine

/-- A floating-point value: NaN, a signed infinity, or (-1)^neg * m * 2^e exactly. -/
inductive Num where
  | nan
  | inf (neg : Bool)
  | fin (neg : Bool) (m : Nat) (e : Int)
  deriving DecidableEq, Repr

/-- How a NaN came to the NaN trap (R179, CELL_NAN_STATUS.KIND of R186). -/
inductive NanKind where
  | observed
  | created
  | scale
  deriving DecidableEq, Repr

/-- CELL_NAN_STATUS.KIND (R186). -/
def NanKind.code : NanKind → Nat
  | .observed => 0
  | .created => 1
  | .scale => 2

/-- The rounding modes of R174. -/
inductive RMode where
  | rne
  | rtz
  | sr
  deriving DecidableEq, Repr

/-- How a format uses its top exponent code (R165). -/
inductive FKind where
  | ieee
  | e4m3
  | e2m1
  deriving DecidableEq, Repr

/-- A floating-point layout of R165. -/
structure FFmt where
  ebits : Nat
  mbits : Nat
  bias : Nat
  kind : FKind
  deriving DecidableEq, Repr

def fp32 : FFmt := ⟨8, 23, 127, .ieee⟩
def bf16 : FFmt := ⟨8, 7, 127, .ieee⟩
def fp16 : FFmt := ⟨5, 10, 15, .ieee⟩
def e8m13 : FFmt := ⟨8, 13, 127, .ieee⟩
def e4m3 : FFmt := ⟨4, 3, 7, .e4m3⟩
def e5m2 : FFmt := ⟨5, 2, 15, .ieee⟩
def e2m1 : FFmt := ⟨2, 1, 1, .e2m1⟩

/-- The exponent of the smallest subnormal: every finite value is a multiple of 2 to this power. -/
def FFmt.umin (f : FFmt) : Int := 1 - (f.bias : Int) - (f.mbits : Int)

/-- The significand of the largest finite value, and its exponent (R165). -/
def FFmt.largest (f : FFmt) : Nat × Int :=
  match f.kind with
  | .ieee => (2 ^ (f.mbits + 1) - 1, (2 ^ f.ebits - 2 : Int) - f.bias - f.mbits)
  | .e4m3 => (14, 5)
  | .e2m1 => (3, 1)

/-- The exponent emax of the largest binade: 8 for E4M3, 15 for E5M2, 2 for E2M1 (R176). -/
def FFmt.emax (f : FFmt) : Int := f.largest.2 + f.mbits

/-- The value of an encoding (R165, R167). -/
def FFmt.decode (f : FFmt) (x : Nat) : Num :=
  let neg := x / 2 ^ (f.ebits + f.mbits) % 2 = 1
  let e := x / 2 ^ f.mbits % 2 ^ f.ebits
  let m := x % 2 ^ f.mbits
  let plain : Num :=
    if e = 0 then .fin neg m f.umin else .fin neg (2 ^ f.mbits + m) (f.umin + (e : Int) - 1)
  match f.kind with
  | .ieee => if e = 2 ^ f.ebits - 1 then (if m = 0 then .inf neg else .nan) else plain
  | .e4m3 => if e = 15 ∧ m = 7 then .nan else plain
  | .e2m1 => plain

/-- The sign bit in place. -/
def FFmt.signBit (f : FFmt) (neg : Bool) : Nat := if neg then 2 ^ (f.ebits + f.mbits) else 0

/-- The NaN the device creates in a format (R167); E2M1 has none and reads 0. -/
def FFmt.nanBits (f : FFmt) : Nat :=
  match f.kind with
  | .ieee => (2 ^ f.ebits - 1) * 2 ^ f.mbits + 2 ^ (f.mbits - 1)
  | .e4m3 => 0x7F
  | .e2m1 => 0

/-- The encoding of an infinity in an IEEE-like format. -/
def FFmt.infBits (f : FFmt) (neg : Bool) : Nat := f.signBit neg + (2 ^ f.ebits - 1) * 2 ^ f.mbits

/-- The encoding of the largest finite value. -/
def FFmt.maxBits (f : FFmt) (neg : Bool) : Nat :=
  match f.kind with
  | .ieee => f.signBit neg + (2 ^ f.ebits - 1) * 2 ^ f.mbits - 1
  | .e4m3 => f.signBit neg + 0x7E
  | .e2m1 => f.signBit neg + 0x7

/-- Round m * 2^e to a multiple of 2^u: the multiple, and whether anything was rounded away. In SR mode `d` is the
draw of `r` bits (R197). -/
def roundAt (mode : RMode) (r d : Nat) (m : Nat) (e u : Int) : Nat × Bool :=
  if u ≤ e then (m * 2 ^ (e - u).toNat, false)
  else
    let k := (u - e).toNat
    let q := m / 2 ^ k
    let rem := m % 2 ^ k
    if rem = 0 then (q, false)
    else match mode with
      | .rtz => (q, true)
      | .rne => (if 2 ^ k < 2 * rem ∨ (2 * rem = 2 ^ k ∧ q % 2 = 1) then q + 1 else q, true)
      | .sr => (if d < rem * 2 ^ r / 2 ^ k then q + 1 else q, true)

/-- The rounding unit of a format at the magnitude m * 2^e (m not 0), subnormal spacing included (R168). -/
def FFmt.unit (f : FFmt) (m : Nat) (e : Int) : Int := max ((Nat.log2 m : Int) + e - f.mbits) f.umin

/-- What a rounding to a format gave. -/
structure Rounded where
  bits : Nat
  nan : Option NanKind
  drew : Bool
  past : Bool
  deriving DecidableEq, Repr

/-- Whether q * 2^u exceeds the largest finite value of a format. -/
def FFmt.exceeds (f : FFmt) (q : Nat) (u : Int) : Bool :=
  let (lm, le) := f.largest
  if le ≤ u then decide (lm < q * 2 ^ (u - le).toNat) else decide (lm * 2 ^ (le - u).toNat < q)

/-- What lies beyond the largest finite value of a format becomes (R175). -/
def FFmt.beyond (f : FFmt) (mode : RMode) (sat : Bool) (neg drew : Bool) : Rounded :=
  let big := sat || mode == .rtz || f.kind == .e2m1
  match f.kind with
  | .ieee => ⟨if big then f.maxBits neg else f.infBits neg, none, drew, true⟩
  | .e4m3 => if big then ⟨f.maxBits neg, none, drew, true⟩ else ⟨f.nanBits, some .created, drew, true⟩
  | .e2m1 => ⟨f.maxBits neg, none, drew, true⟩

/-- The exponent of the gap between the largest finite value and 2^(emax + 1): 64 for E4M3, the last spacing elsewhere
(R198). -/
def FFmt.gap (f : FFmt) : Int := if f.kind = .e4m3 then 6 else f.largest.2

/-- A finite magnitude and sign rounded into a format, with `sat` for what lies beyond the largest (R175, R198). Under SR
a magnitude between the largest and 2^(emax + 1) goes to one of the two, and a larger one takes no draw. -/
def FFmt.roundFin (f : FFmt) (mode : RMode) (sat : Bool) (r d : Nat) (neg : Bool) (m : Nat) (e : Int) : Rounded :=
  if m = 0 then ⟨f.signBit neg, none, false, false⟩
  else if mode = .sr ∧ f.exceeds m e then
    if f.emax < (Nat.log2 m : Int) + e then f.beyond mode sat neg false
    else
      let (q, drew) := roundAt mode r d m e f.gap
      if f.exceeds q f.gap then f.beyond mode sat neg drew else ⟨f.maxBits neg, none, drew, false⟩
  else
    let u := f.unit m e
    let (q, drew) := roundAt mode r d m e u
    if f.exceeds q u then f.beyond mode sat neg drew
    else ⟨f.signBit neg + (u - f.umin).toNat * 2 ^ f.mbits + q, none, drew, false⟩

/-- A number written in a floating-point format (the conversion table of R175). -/
def FFmt.round (f : FFmt) (mode : RMode) (sat : Bool) (r d : Nat) : Num → Rounded
  | .nan => ⟨f.nanBits, some .observed, false, false⟩
  | .inf neg =>
    match f.kind with
    | .ieee => ⟨if sat then f.maxBits neg else f.infBits neg, none, false, true⟩
    | .e4m3 => if sat then ⟨f.maxBits neg, none, false, true⟩ else ⟨f.nanBits, some .created, false, true⟩
    | .e2m1 => ⟨f.maxBits neg, none, false, true⟩
  | .fin neg m e => f.roundFin mode sat r d neg m e

/-- A number written as a two's complement integer of `n` bits: saturated, NaN gives 0 and is observed (R175). -/
def roundInt (n : Nat) (mode : RMode) (r d : Nat) : Num → Int × Option NanKind × Bool
  | .nan => (0, some .observed, false)
  | .inf neg => (if neg then -(2 ^ (n - 1) : Int) else 2 ^ (n - 1) - 1, none, false)
  | .fin neg m e =>
    let (q, drew) := roundAt mode r d m e 0
    let v : Int := if neg then -(q : Int) else q
    (max (-(2 ^ (n - 1) : Int)) (min (2 ^ (n - 1) - 1) v), none, drew)

/-- The exact sum (R168, R198 for the sign of an exact zero). -/
def Num.add : Num → Num → Num
  | .nan, _ => .nan
  | _, .nan => .nan
  | .inf a, .inf b => if a = b then .inf a else .nan
  | .inf a, .fin _ _ _ => .inf a
  | .fin _ _ _, .inf b => .inf b
  | .fin n1 m1 e1, .fin n2 m2 e2 =>
    let e := min e1 e2
    let i1 : Int := (m1 * 2 ^ (e1 - e).toNat : Nat)
    let i2 : Int := (m2 * 2 ^ (e2 - e).toNat : Nat)
    let v := (if n1 then -i1 else i1) + (if n2 then -i2 else i2)
    if v = 0 then .fin (m1 == 0 && m2 == 0 && n1 && n2) 0 e
    else .fin (decide (v < 0)) v.natAbs e

/-- The negated number. -/
def Num.neg : Num → Num
  | .nan => .nan
  | .inf a => .inf (!a)
  | .fin n m e => .fin (!n) m e

/-- The absolute value. -/
def Num.abs : Num → Num
  | .nan => .nan
  | .inf _ => .inf false
  | .fin _ m e => .fin false m e

/-- The exact product (R172). -/
def Num.mul : Num → Num → Num
  | .nan, _ => .nan
  | _, .nan => .nan
  | .inf a, .inf b => .inf (a != b)
  | .inf a, .fin b m _ => if m = 0 then .nan else .inf (a != b)
  | .fin a m _, .inf b => if m = 0 then .nan else .inf (a != b)
  | .fin n1 m1 e1, .fin n2 m2 e2 => .fin (n1 != n2) (m1 * m2) (e1 + e2)

/-- The product with a power of two. -/
def Num.scale (k : Int) : Num → Num
  | .fin n m e => .fin n m (e + k)
  | x => x

/-- The quotient, carried to 64 bits below its leading bit with the rest folded into one last bit (R178, R225). -/
def Num.div : Num → Num → Num
  | .nan, _ => .nan
  | _, .nan => .nan
  | .inf _, .inf _ => .nan
  | .inf a, .fin b _ _ => .inf (a != b)
  | .fin a _ _, .inf b => .fin (a != b) 0 0
  | .fin n1 m1 e1, .fin n2 m2 e2 =>
    if m2 = 0 then (if m1 = 0 then .nan else .inf (n1 != n2))
    else
      let k := 64 + Nat.log2 m2
      let q := m1 * 2 ^ k / m2
      let s := if m1 * 2 ^ k % m2 = 0 then 0 else 1
      .fin (n1 != n2) (2 * q + s) (e1 - e2 - k - 1)

/-- The integer square root, by the digits of base four; `fuel` bounds their number. -/
def isqrt : Nat → Nat → Nat
  | 0, _ => 0
  | fuel + 1, n =>
    if n = 0 then 0
    else
      let s := 2 * isqrt fuel (n / 4)
      if (s + 1) * (s + 1) ≤ n then s + 1 else s

/-- The square root, carried to at least 60 bits with the rest folded into one last bit (R226). -/
def Num.sqrt : Num → Num
  | .nan => .nan
  | .inf neg => if neg then .nan else .inf false
  | .fin neg m e =>
    if m = 0 then .fin neg 0 0
    else if neg then .nan
    else
      let k : Nat := 120 + (if (e % 2) = 0 then 0 else 1)
      let n := m * 2 ^ k
      let q := isqrt (Nat.log2 n + 1) n
      let s := if q * q = n then 0 else 1
      .fin false (2 * q + s) ((e - k) / 2 - 1)

/-- A finite number as an integer multiple of 2^u, exact when u is not above its exponent. -/
def alignInt (neg : Bool) (m : Nat) (e u : Int) : Int :=
  let v : Int := (m * 2 ^ (e - u).toNat : Nat)
  if neg then -v else v

/-- Numerical less-than; false with a NaN. -/
def Num.lt : Num → Num → Bool
  | .nan, _ => false
  | _, .nan => false
  | .inf a, .inf b => a && !b
  | .inf a, .fin _ _ _ => a
  | .fin _ _ _, .inf b => !b
  | .fin n1 m1 e1, .fin n2 m2 e2 =>
    let u := min e1 e2
    decide (alignInt n1 m1 e1 u < alignInt n2 m2 e2 u)

/-- Numerical equality; +0 equals -0, a NaN equals nothing. -/
def Num.eq : Num → Num → Bool
  | .nan, _ => false
  | _, .nan => false
  | a, b => !(Num.lt a b) && !(Num.lt b a)

/-- Whether the value is a zero. -/
def Num.isZero : Num → Bool
  | .fin _ m _ => m == 0
  | _ => false

def Num.isNan : Num → Bool
  | .nan => true
  | _ => false

def Num.isInf : Num → Bool
  | .inf _ => true
  | _ => false

def Num.isNeg : Num → Bool
  | .fin n _ _ => n
  | .inf n => n
  | .nan => false

/-- Strictly better in the order of R210: `up` for a maximum, otherwise a minimum. -/
def Num.better (up : Bool) (a b : Num) : Bool :=
  if b.isNan then false
  else if a.isNan then true
  else if a.isZero && b.isZero then (if up then !a.isNeg && b.isNeg else a.isNeg && !b.isNeg)
  else if up then Num.lt b a else Num.lt a b

/-- The number a 32-bit FP32 pattern encodes. -/
def Num.ofFp32 (x : BitVec 32) : Num := fp32.decode x.toNat

/-- The number an integer is. -/
def Num.ofInt (v : Int) : Num := .fin (decide (v < 0)) v.natAbs 0

/-- FP32 rounding without saturation. -/
def toFp32 (mode : RMode) (d : Nat) (x : Num) : BitVec 32 := BitVec.ofNat 32 (fp32.round mode false 24 d x).bits

/-- An FP32 addition in RNE. -/
def fp32Add (a b : BitVec 32) : BitVec 32 := toFp32 .rne 0 ((Num.ofFp32 a).add (Num.ofFp32 b))

/-! ### Element formats (R163) -/

/-- The element codes of R163. -/
inductive EFmt where
  | fp32 | bf16 | fp16 | e4m3 | e5m2 | e4m3b | e5m2b | e2m1b | int8 | int4 | int32 | int64 | e8m0
  deriving DecidableEq, Repr

/-- The format a code names; none for the reserved codes 0xD to 0xF. -/
def EFmt.ofCode (c : Nat) : Option EFmt :=
  match c with
  | 0 => some .fp32 | 1 => some .bf16 | 2 => some .fp16 | 3 => some .e4m3 | 4 => some .e5m2
  | 5 => some .e4m3b | 6 => some .e5m2b | 7 => some .e2m1b | 8 => some .int8 | 9 => some .int4
  | 10 => some .int32 | 11 => some .int64 | 12 => some .e8m0 | _ => none

/-- Width of an element in bits. -/
def EFmt.width : EFmt → Nat
  | .fp32 | .int32 => 32
  | .bf16 | .fp16 => 16
  | .e4m3 | .e5m2 | .e4m3b | .e5m2b | .int8 | .e8m0 => 8
  | .e2m1b | .int4 => 4
  | .int64 => 64

/-- Whether the format is block-scaled (R170). -/
def EFmt.scaled : EFmt → Bool
  | .e4m3b | .e5m2b | .e2m1b => true
  | _ => false

/-- The floating-point layout of a format, none for integers and E8M0. -/
def EFmt.ffmt : EFmt → Option FFmt
  | .fp32 => some Machine.fp32
  | .bf16 => some Machine.bf16
  | .fp16 => some Machine.fp16
  | .e4m3 | .e4m3b => some Machine.e4m3
  | .e5m2 | .e5m2b => some Machine.e5m2
  | .e2m1b => some Machine.e2m1
  | _ => none

/-- The signed value of an integer of `n` bits. -/
def signedOf (n v : Nat) : Int := if 2 ^ (n - 1) ≤ v % 2 ^ n then (v % 2 ^ n : Int) - 2 ^ n else (v % 2 ^ n : Int)

/-- The bits of an integer in `n`-bit two's complement. -/
def unsignedOf (n : Nat) (v : Int) : Nat := (v % 2 ^ n).toNat

/-- Bytes of a row of `cols` elements (R169). -/
def EFmt.rowBytes (f : EFmt) (cols : Nat) : Nat := (f.width * cols + 7) / 8

/-- The E4M3 byte of an E2M1 code (the table of R171). -/
def e2m1ToE4m3 (c : Nat) : Nat :=
  let t := match c % 8 with
    | 0 => 0x00 | 1 => 0x30 | 2 => 0x38 | 3 => 0x3C | 4 => 0x40 | 5 => 0x44 | 6 => 0x48 | _ => 0x4C
  if 8 ≤ c % 16 then t + 0x80 else t

/-- A maximum or minimum of two FP32 numbers without index (R212). -/
def Num.pick (up : Bool) (a b : Num) : Num := if a.isNan || b.isNan then .nan else if Num.better up b a then b else a

end Sys2Proof.Machine
end

