-- ==== Sys2Proof/Machine/CellState.lean ====
section
/-!
DEFINITION. The state of one cell: its core, its instruction banks, its stores, its four engines and its control block
(chapters "The cell" to "Marshalling engine and waybills", R53 to R276, and R523).
-/

namespace Sys2Proof.Machine

/-- The states of a cell (R73). -/
inductive CState where
  | disabled | retired | spare | idle | running | halted | faulted | stopped
  deriving DecidableEq, Repr

/-- The state code of R73, shown in CELL_STATUS.STATE. -/
def CState.code : CState → Nat
  | .disabled => 0 | .retired => 1 | .spare => 2 | .idle => 3
  | .running => 4 | .halted => 5 | .faulted => 6 | .stopped => 7

/-- An entry of a loop stack (R81, R104, R254): start, end and hidden counter. -/
structure LoopEntry where
  /-- R104. Address of the first body instruction. Reset: stack empty. -/
  start : Nat
  /-- R104. Address of the last body instruction. Reset: stack empty. -/
  stop : Nat
  /-- R104. Hidden counter: iterations remaining after the current one. Reset: stack empty. -/
  hc : BitVec 32
  deriving DecidableEq, Repr

/-- An address register of the cell core (R81, R99). -/
structure AReg where
  /-- R81. 40-bit byte address. Reset: 0. -/
  addr : BitVec 40
  /-- R81. Signed 32-bit stride. Reset: 0. -/
  stride : BitVec 32
  deriving DecidableEq, Repr

/-- What the cell core waits on (CELL_WAIT of R523); kind 0 when it does not wait. -/
structure CoreWait where
  /-- R523. CELL_WAIT.KIND. Reset: 0. -/
  kind : BitVec 4
  /-- R523. CELL_WAIT.TARGET. Reset: 0. -/
  target : BitVec 8
  /-- R523. Line time [ns] at which the wait began. Reset: 0. -/
  since : Nat
  deriving DecidableEq, Repr

/-- The dispatcher's answer to an ENQ (R115). -/
structure EnqAnswer where
  ok : Bool
  value : BitVec 32
  deriving DecidableEq, Repr

/-- An ENQ that waits for its answer (R115, R116). -/
structure EnqWait where
  /-- R116. Line time [ns] of the issue. Reset: no ENQ waits. -/
  issued : Nat
  /-- R115. The 64 bytes of the entry. Reset: no ENQ waits. -/
  entry : List Byte
  /-- R115. Destination predicate. Reset: no ENQ waits. -/
  pd : BitVec 3
  /-- R115. Destination scalar register. Reset: no ENQ waits. -/
  sd : BitVec 5
  /-- R116. The answer, once the dispatcher has given it. Reset: no ENQ waits. -/
  answer : Option EnqAnswer
  deriving DecidableEq, Repr

/-- The cell core's registers (R81), its claims and poison marks (R111, R113), its wait and its ENQ. -/
structure CoreState where
  /-- R81. s0 to s31, 32 bits each. Reset: 0 (DESIGN CHOICE 2). -/
  s : Vector Word (2 ^ 5)
  /-- R81. a0 to a15, 40-bit address and 32-bit stride. Reset: 0 (DESIGN CHOICE 2). -/
  a : Vector AReg (2 ^ 4)
  /-- R81. lc0 to lc3, 32 bits each. Reset: 0 (DESIGN CHOICE 2). -/
  lc : Vector Word (2 ^ 2)
  /-- R81, R82. p0 to p7; p0 reads 1 whatever is stored. Reset: 0 (DESIGN CHOICE 2). -/
  p : BitVec 8
  /-- R81, R100. t0 to t15, 128 bits each. Reset: 0 (DESIGN CHOICE 2). -/
  t : Vector QWord (2 ^ 4)
  /-- R81. Loop stack of at most four entries, innermost first. Reset: empty. -/
  loops : List LoopEntry
  /-- R81. Byte offset of the executing instruction in the active bank, 16 bits. Reset: 0 (DESIGN CHOICE 2). -/
  pc : BitVec 16
  /-- R111. Bit n: sn is claimed. Reset: 0. -/
  sClaim : BitVec 32
  /-- R111. Bit n: pn is claimed. Reset: 0. -/
  pClaim : BitVec 8
  /-- R113. Bit n: sn carries a poison mark. Reset: 0. -/
  sMark : BitVec 32
  /-- R113. Bit n: pn carries a poison mark. Reset: 0. -/
  pMark : BitVec 8
  /-- R109, R123. Repeats the executing PUSH has appended. Reset: 0. -/
  pushed : BitVec 5
  /-- R523. What the core waits on. Reset: none. -/
  wait : CoreWait
  /-- R538. Count the last WAITS or WAITSR that waited needs, 16 bits. Reset: 0. -/
  need : BitVec 16
  /-- R115. The ENQ that waits. Reset: none. -/
  enq : Option EnqWait
  /-- R109, R114, R118, R121. The word of the instruction that waits: no other one executes before it. Reset: none. -/
  held : Option Word
  deriving DecidableEq, Repr

/-- How far a load of an instruction bank has come (R68, R69). -/
inductive LoadPhase where
  | issued
  | held
  | writing
  deriving DecidableEq, Repr

/-- A load of a cell image (R68, R69). -/
structure Load where
  /-- R69. The bank addressed: false IB0, true IB1. Reset: no load. -/
  bank : Bool
  /-- R68. The image. Reset: no load. -/
  image : List Byte
  /-- R69. Issued, held off, or writing. Reset: no load. -/
  phase : LoadPhase
  /-- R69. Line time [ns] of the arrival of the first held write. Reset: no load. -/
  t0 : Nat
  /-- R69. The task whose image it is. Reset: no load. -/
  task : BitVec 32
  deriving DecidableEq, Repr

/-- The two instruction banks (R68 to R72). -/
structure BankState where
  /-- R68. IB0, 64 KiB; an unlisted byte reads 0xFF (DEDUCED 8). Reset: erased. -/
  ib0 : Mem
  /-- R68. IB1, 64 KiB; an unlisted byte reads 0xFF (DEDUCED 8). Reset: erased. -/
  ib1 : Mem
  /-- R122. Words of IB0 that hold an uncorrectable error. Reset: none. -/
  ue0 : List Nat
  /-- R122. Words of IB1 that hold an uncorrectable error. Reset: none. -/
  ue1 : List Nat
  /-- R68. VALID of IB0. Reset: 0. -/
  valid0 : Bool
  /-- R68. VALID of IB1. Reset: 0. -/
  valid1 : Bool
  /-- R72. The active bank: false IB0, true IB1. Reset: IB0. -/
  active : Bool
  /-- R68. The load in hand. Reset: none. -/
  load : Option Load
  /-- R339. The task whose image was loaded last and has not been started. Reset: none. -/
  pre : Option (BitVec 32)
  deriving DecidableEq, Repr

/-- The cell store (R53 to R59) and its marks, by 8-byte lane (lane n is bytes 8n to 8n + 7). -/
structure StoreState where
  /-- R53. 3 MiB; an unlisted byte reads 0 (R59). Reset: cleared. -/
  mem : Mem
  /-- R58, R187. Poisoned lanes. Reset: none. -/
  poison : List Nat
  /-- R58. Lanes that hold an uncorrectable error not read yet. Reset: none. -/
  ue : List Nat
  /-- R58. Lanes that hold a correctable error. Reset: none. -/
  ce : List Nat
  deriving DecidableEq, Repr

/-- The data memory (R84), with its errors by 32-bit word. -/
structure DmemState where
  /-- R84. 64 KiB; an unlisted byte reads 0. Reset: cleared. -/
  mem : Mem
  /-- R84. Words that hold an uncorrectable error. Reset: none. -/
  ue : List Nat
  /-- R84. Words that hold a correctable error. Reset: none. -/
  ce : List Nat
  deriving DecidableEq, Repr

/-- What a matrix command had done when it was abandoned (R152, R181, R184, R205). -/
structure Past where
  /-- R205. It has counted in LONGCMDS. -/
  long : Bool
  /-- R181. It has latched the NaN trap or counted in LATER. -/
  nan : Bool
  /-- R184. It has latched the NaN trap in TRAP mode. -/
  trap : Bool
  deriving DecidableEq, Repr

/-- A command that has done nothing. -/
def Past.none : Past := ⟨false, false, false⟩

/-- A command in a queue slot: its words and the descriptors PUSH copied (R110, R220, R221). -/
structure QCmd where
  /-- R217. The 128 bits of the command. Reset: queue empty. -/
  word : QWord
  /-- R110. Descriptor of the first field and its companion. Reset: queue empty. -/
  d0 : QWord
  e0 : QWord
  /-- R110. Descriptor of the second field and its companion. Reset: queue empty. -/
  d1 : QWord
  e1 : QWord
  /-- R110. Descriptor of the third field and its companion. Reset: queue empty. -/
  d2 : QWord
  e2 : QWord
  /-- R221. Command sequence number, 32 bits. Reset: queue empty. -/
  seq : BitVec 32
  /-- R152. The command was abandoned after its wait and runs again. Reset: queue empty. -/
  rerun : Bool
  /-- R152. What it had done by then. Reset: queue empty. -/
  past : Past
  deriving DecidableEq, Repr

/-- An end of a transfer: a cell's store, an HBM address, borrowed HBM of a neighbour, or host memory (R299). -/
inductive Place where
  | store (cell : Nat) (addr : Nat)
  | dev (dpa : Nat)
  | lender (key : Nat)
  | host (addr : Nat)
  deriving DecidableEq, Repr

/-- One run of a transfer on its way (R234, R264): where it comes from, where it goes, its data and a poison bit for each byte. -/
structure Piece where
  src : Place
  dst : Place
  data : List (Byte × Bool)
  /-- R272. PM of the move: a lost segment is marked poisoned. -/
  pm : Bool
  /-- R272. The source segment it belongs to. -/
  seg : Nat
  /-- R265, R267. The write it belongs to: the pieces of one destination row of one move or copy are written together. -/
  grp : Nat
  /-- R275. Cell-store address of the MOVE that issued it; 0 for a copy. -/
  iaddr : Nat
  /-- R272. Line time [ns] of its issue. -/
  since : Nat
  /-- R257. It leaves the transform unit. -/
  xf : Bool
  deriving DecidableEq, Repr

/-- An element update on its way to a memory-side adder (R236, R295). -/
structure AtomPiece where
  dst : Place
  fmt : EFmt
  op : BitVec 3
  value : Nat
  poison : Bool
  deriving DecidableEq, Repr

/-- A result a q.vx command delivers to the cell core (R111, R229). -/
structure Delivery where
  toP : Bool
  reg : BitVec 5
  value : BitVec 32
  poison : Bool
  deriving DecidableEq, Repr

/-- A command an engine has started and not completed (R62). -/
structure RunCmd where
  /-- R62. The command. Reset: none in progress. -/
  cmd : QCmd
  /-- R243. Line time [ns] of the start. Reset: none in progress. -/
  start : Nat
  /-- R246. Status flags so far, in the bit order of CELL_CMD_FLAGS. Reset: none in progress. -/
  flags : BitVec 7
  /-- R234, R238. Rows on their way. Reset: none in progress. -/
  pieces : List Piece
  /-- R236. Element updates on their way. Reset: none in progress. -/
  atoms : List AtomPiece
  /-- R229. The result to deliver. Reset: none in progress. -/
  deliver : Option Delivery
  /-- R241. The collective part to hand off on completion. Reset: none in progress. -/
  fuse : Bool
  /-- R251. The waybill context of a RUNWB. Reset: none in progress. -/
  ctx : Option (BitVec 2)
  /-- R263. The waybill of the RUNWB has ended and its context is free. Reset: none in progress. -/
  ended : Bool
  /-- R237. The collective of an LCOLL still runs. Reset: none in progress. -/
  col : Bool
  deriving DecidableEq, Repr

/-- One engine queue and what its engine has in progress (R60, R62), oldest first. -/
structure EngQueue where
  /-- R60. Commands waiting; depth 16, q.ms 32. Reset: empty. -/
  q : List QCmd
  /-- R62. Commands started and not completed. Reset: none. -/
  run : List RunCmd
  deriving DecidableEq, Repr

/-- A collective part of a fused command, handed off to the link port (R241, R242). -/
structure ColPart where
  /-- R221. SEQ of the compute command. Reset: none. -/
  seq : BitVec 32
  /-- R240. The collective field. Reset: none. -/
  cf : BitVec 32
  /-- R241. Descriptor of the result region. Reset: none. -/
  desc : QWord
  /-- R249. Opcode of the compute command. Reset: none. -/
  opc : BitVec 6
  /-- R241. Group version sampled at the start. Reset: none. -/
  version : Nat
  /-- R241. A later compute part has written into its region, so its results are undefined. Reset: none. -/
  spoiled : Bool
  deriving DecidableEq, Repr

/-- One site of the array: for each bank its value and magnitude accumulators, in scan-out form (R125, R532). -/
structure Site where
  /-- R125. Value accumulator: E8M13, FP32, INT32 or 64-bit bits. Reset: 0 (DESIGN CHOICE 2). -/
  val : BitVec 64
  /-- R125. Magnitude accumulator, FP32 bits. Reset: 0 (DESIGN CHOICE 2). -/
  mag : BitVec 32
  /-- R188. Poison mark. Reset: 0. -/
  poison : Bool
  deriving DecidableEq, Repr

/-- One accumulator bank, its 65 rows of 65 sites (R124, R125); an unlisted site is zero. -/
abbrev MxBank := Sparse Site

/-- A stream row the array holds while its operands move (R127, R130, R135). -/
structure MxRow where
  /-- R135. The command and step its B part belongs to: SEQ and step number. -/
  owner : Option (BitVec 32 × Nat)
  /-- R129. A part, 128 bytes, lowest first. -/
  aPart : List Byte
  /-- R129. B part, 128 bytes. -/
  bPart : List Byte
  /-- R188. Poison of the 16 A lanes. -/
  aPois : List Bool
  /-- R188. Poison of the 16 B lanes. -/
  bPois : List Bool
  /-- R142. The scale entry in effect, 128 bytes. -/
  entry : List Byte
  /-- R188. Poison of the 16 lanes of the scale entry. -/
  ePois : List Bool
  deriving DecidableEq, Repr

/-- The first NaN of a matrix command: KIND, row, column and step (R182). -/
structure MxNan where
  kind : NanKind
  row : Nat
  col : Nat
  step : Nat
  deriving DecidableEq, Repr

/-- A matrix command in the array (R126 to R155). -/
structure MxCmd where
  /-- R222. The command. -/
  cmd : QCmd
  /-- R134. Its bank. -/
  bank : Bool
  /-- R152. Attempt number: 0 or 1. -/
  attempt : Nat
  /-- R135. Window row of its step 0. -/
  base : Nat
  /-- R139. Absolute ring position of its step 0, for a paced command. -/
  ringBase : Nat
  /-- R126. Rows read so far, its own S rows and its tail rows together. -/
  rows : Nat
  /-- R135. LINK = 1 and the next command not known yet. -/
  tailOpen : Bool
  /-- R130. The run ends with this command: it reads its 63 tail rows itself. -/
  tailOwn : Bool
  /-- R243. Line time [ns] of the start. -/
  start : Nat
  /-- R147, R150. CL_MX_CONFIG as sampled at row 0. -/
  config : BitVec 32
  /-- R246. Flags gathered so far. -/
  flags : BitVec 7
  /-- R182. First NaN of the command. -/
  nan : Option MxNan
  /-- R184. The command latched the NaN trap in TRAP mode. -/
  trap : Bool
  /-- R242. Its check has passed and its hand-off waits for a place. -/
  checked : Bool
  /-- R137. Its tile, drained from a bank that a later command has taken over before its check beat. -/
  tile : Option MxBank
  deriving DecidableEq, Repr

/-- A paced window read as a ring for the whole task (R139). -/
structure Ring where
  /-- R139. OFFSET of the window. -/
  offset : Nat
  /-- R139. W rows. -/
  rows : Nat
  /-- R139. Absolute read position; the ring row is this modulo W. -/
  pos : Nat
  /-- R139. Panels whose fill has been consumed. -/
  taken : Nat
  /-- R140. Panels released. -/
  released : Nat
  deriving DecidableEq, Repr

/-- Ballast of one array (R157, R158). -/
inductive Gap where
  | none
  | hold
  | ramp
  deriving DecidableEq, Repr

/-- The matrix array (R124 to R162). -/
structure MxState where
  /-- R125. Accumulator bank 0. Reset: 0 (DESIGN CHOICE 2). -/
  bank0 : MxBank
  /-- R125. Accumulator bank 1. Reset: 0 (DESIGN CHOICE 2). -/
  bank1 : MxBank
  /-- R127. The last 64 stream rows read, newest first. Reset: none. -/
  hist : List MxRow
  /-- R126. Commands in the array, oldest first. Reset: none. -/
  cmds : List MxCmd
  /-- R134. Bank the next command uses. Reset: 0. -/
  nextBank : Bool
  /-- R135. SEQ and LINK of the last command started, for the chain check. Reset: none. -/
  prev : Option MxCmd
  /-- R139. Paced windows of the task. Reset: none. -/
  rings : List Ring
  /-- R152. A retry waits to re-read its row 0. Reset: no. -/
  retry : Bool
  /-- R158. Phase of the gap. Reset: no gap. -/
  gap : Gap
  /-- R158. Line time [ns] at which the phase began. Reset: 0. -/
  gapSince : Nat
  /-- R158. Duty of the last window before the gap [per cent]. Reset: 0. -/
  gapDuty : Nat
  /-- R158, R161. CL_MX_BALLAST_CFG as sampled at the start of the gap. Reset: 0. -/
  gapCfg : BitVec 32
  deriving DecidableEq, Repr

/-- A shape of a waybill context (R254). -/
structure Shape where
  nr : Nat
  len : Nat
  ss : BitVec 32
  ds : BitVec 32
  deriving DecidableEq, Repr

/-- A deferred SIGNAL (R262) and the number of pieces issued before it. -/
structure DeferredSig where
  sem : BitVec 5
  add : Nat
  deriving DecidableEq, Repr

/-- A waybill context (R252 to R254). -/
structure WbCtx where
  /-- R251. The context runs a waybill. Reset: 0. -/
  busy : Bool
  /-- R251. SEQ of the RUNWB. Reset: 0. -/
  seq : BitVec 32
  /-- R252. Cell-store address of the next instruction. Reset: 0. -/
  pc : Nat
  /-- R254. v0 to v7, 40 bits each. Reset: 0. -/
  v : Vector (BitVec 40) (2 ^ 3)
  /-- R254. k0 to k3, 32 bits each. Reset: 0. -/
  k : Vector Word (2 ^ 2)
  /-- R254. h0 to h3. Reset: unset. -/
  h : Vector (Option Shape) (2 ^ 2)
  /-- R254. Slots A, B, C: element descriptor and companion. Reset: 0. -/
  slots : Vector (QWord × QWord) 3
  /-- R254. Ring base, 22 bits. Reset: 0. -/
  ringBase : Nat
  /-- R254. Ring length W, 14 bits; 0 off. Reset: 0. -/
  ringW : Nat
  /-- R254. Remote cell, 11 bits. Reset: 0x7FF. -/
  remote : BitVec 11
  /-- R254. Loop stack of at most four entries. Reset: empty. -/
  loops : List LoopEntry
  /-- R259. The WAIT the context waits in: semaphore and count. Reset: none. -/
  waitOn : Option (BitVec 5 × Nat)
  /-- R262. The context waits in FENCE. Reset: 0. -/
  fence : Bool
  /-- R262. Writes issued and not yet visible, and deferred SIGNALs between them, in program order. Reset: none. -/
  out : List (Piece ⊕ DeferredSig)
  /-- R263. END has been executed. Reset: 0. -/
  ended : Bool
  /-- R272. The first marked segment of this RUNWB has raised its event. Reset: 0. -/
  marked : Bool
  /-- R272. Source segments issued, to number them. Reset: 0. -/
  segs : Nat
  /-- R253. The 32-byte words of the last 64 instructions fetched, newest first. Reset: none. -/
  buf : List Nat
  deriving DecidableEq, Repr

/-- The NaN latch (R181, R186). -/
structure NanRegs where
  /-- R186. CELL_NAN_STATUS, 32 bits. Reset: 0x0000_0000. -/
  status : BitVec 32
  /-- R186. CELL_NAN_SEQ, 32 bits. Reset: 0x0000_0000. -/
  seq : BitVec 32
  /-- R186. CELL_NAN_ELEM, 32 bits. Reset: 0x0000_0000. -/
  elem : BitVec 32
  /-- R186. CELL_NAN_STEP, 32 bits. Reset: 0x0000_0000. -/
  step : BitVec 32
  /-- R186. CELL_NAN_LT_LO and HI, 64 bits. Reset: 0. -/
  lt : BitVec 64
  deriving DecidableEq, Repr

/-- The registers of the cell control block that commands write (R202, R249, R275). -/
structure CmdRegs where
  /-- R202. CELL_SR_SEED_LO and HI, 64 bits. Reset: 0. -/
  seed : BitVec 64
  /-- R202. CELL_NUM_FLAGS, 32 bits. Reset: 0x0000_0000. -/
  numFlags : BitVec 32
  /-- R249. CELL_CMD_SEQ, 32 bits. Reset: 0x0000_0000. -/
  cmdSeq : BitVec 32
  /-- R249. CELL_CMD_FLAGS, 32 bits. Reset: 0x0000_0000. -/
  cmdFlags : BitVec 32
  /-- R249. CELL_FAULT_CMD, 32 bits. Reset: 0x0000_0000. -/
  faultCmd : BitVec 32
  /-- R249. CELL_FAULT_SEQ, 32 bits. Reset: 0x0000_0000. -/
  faultSeq : BitVec 32
  /-- R275. CELL_WB_FAULT, 32 bits. Reset: 0x0000_0000. -/
  wbFault : BitVec 32
  /-- R275. CELL_WB_MARKED, 32 bits. Reset: 0x0000_0000. -/
  wbMarked : BitVec 32
  /-- R191. The task has raised NUM_POISON_CONSUMED on this cell. Reset: 0. -/
  poisonSeen : Bool
  /-- R205. The task has raised NUM_LONGSUM on this cell. Reset: 0. -/
  longSeen : Bool
  deriving DecidableEq, Repr

/-- What the cell knows of its task (R119). -/
structure CellTask where
  /-- R119. Task ID, 32 bits. Reset: 0. -/
  id : BitVec 32
  /-- R119. Member index. Reset: 0. -/
  member : Nat
  /-- R119. Consist size. Reset: 0. -/
  size : Nat
  /-- R119. Phase tag, 16 bits. Reset: 0. -/
  phase : BitVec 16
  deriving DecidableEq, Repr

/-- Counters of the cell control block (R76, R161, R523). -/
structure CellCtr where
  /-- R523. CELL_UTIL_MX, 64 bits. Reset: 0. -/
  utilMx : BitVec 64
  /-- R523. CELL_UTIL_MX_HI as latched, 32 bits. Reset: 0x0000_0000. -/
  utilMxHi : BitVec 32
  /-- R523. CELL_UTIL_VX, 64 bits. Reset: 0. -/
  utilVx : BitVec 64
  /-- R523. CELL_UTIL_VX_HI as latched, 32 bits. Reset: 0x0000_0000. -/
  utilVxHi : BitVec 32
  /-- R523. CELL_CE.STORE, 16 bits. Reset: 0. -/
  ceStore : BitVec 16
  /-- R523. CELL_CE.DMEM, 16 bits. Reset: 0. -/
  ceDmem : BitVec 16
  /-- R161. CL_MX_STATUS LOC, ROW and COL of the last mismatch (bits 31 to 12). Reset: 0x0FFF_F000. -/
  mxLoc : BitVec 32
  /-- R161. CL_MX_CHECKS, 32 bits. Reset: 0x0000_0000. -/
  mxChecks : BitVec 32
  /-- R160. Ballast beats, 64 bits. Reset: 0. -/
  ballast : BitVec 64
  /-- R161. CL_MX_BALLAST_HI as latched, 32 bits. Reset: 0x0000_0000. -/
  ballastHi : BitVec 32
  /-- R76. CELL_SUSPECT.TOTAL, 8 bits. Reset: 0x00. -/
  suspTotal : BitVec 8
  /-- R78. Line times of the suspect events in the window, newest first; CELL_SUSPECT.WINDOW counts them. Reset: none. -/
  suspects : List Nat
  /-- R537. The model's own: commands this cell has completed. Reset: 0. -/
  cmds : Nat
  /-- R536. Line time [ns] of the last completed command, waybill instruction or core instruction, or of the task's start. Reset: 0. -/
  moved : Nat
  deriving DecidableEq, Repr

/-- One cell (R53 to R276, R523). -/
structure CellState where
  /-- R73. State of the cell. Reset: IDLE for the first 140 cells of a die, SPARE for the others (DESIGN CHOICE 1). -/
  st : CState
  /-- R76. CELL_STATUS.FAULT, 8 bits. Reset: 0x00. -/
  fault : BitVec 8
  /-- R75. The fault waits to be reported to the dispatcher. Reset: 0. -/
  report : Bool
  /-- R122. Code of the exception that faulted the cell, as the signal box reports it; 0 for another fault. Reset: 0x00. -/
  exc : BitVec 8
  /-- R41, R73. It was a spare when the brake stopped it. Reset: 0. -/
  wasSpare : Bool
  /-- R79. The third suspect event has come: the cell retires once its task has ended. Reset: 0. -/
  retiring : Bool
  /-- R79. The third suspect event came with a fault of the cell, which it leaves to RETIRED. Reset: 0. -/
  retireFault : Bool
  /-- R64. Grants of a semaphore while another waiter could have been satisfied: semaphore, that waiter, the waiter
  granted (0 the core, 1 to 4 the head of q.mx to q.lk, 5 to 8 context 0 to 3). Reset: none. -/
  turns : List (BitVec 5 × Nat × Nat)
  /-- R81. The cell core. Reset: see its lines. -/
  core : CoreState
  /-- R68. The instruction banks. Reset: see its lines. -/
  banks : BankState
  /-- R63. sem0 to sem31, 16 bits each. Reset: 0. -/
  sems : Vector (BitVec 16) (2 ^ 5)
  /-- R53. The cell store. Reset: see its lines. -/
  store : StoreState
  /-- R84. The data memory. Reset: see its lines. -/
  dmem : DmemState
  /-- R60. q.mx. Reset: empty. -/
  qmx : EngQueue
  /-- R60. q.vx. Reset: empty. -/
  qvx : EngQueue
  /-- R60. q.ms. Reset: empty. -/
  qms : EngQueue
  /-- R60. q.lk. Reset: empty. -/
  qlk : EngQueue
  /-- R124. The matrix array. Reset: see its lines. -/
  mx : MxState
  /-- R251. The four waybill contexts. Reset: idle. -/
  wb : Vector WbCtx (2 ^ 2)
  /-- R242. Collective parts handed off and not started, at most four. Reset: none. -/
  handed : List ColPart
  /-- R242. Collective parts in progress, at most four. Reset: none. -/
  parts : List ColPart
  /-- R186. The NaN latch. Reset: see its lines. -/
  nan : NanRegs
  /-- R249. Command and task registers. Reset: see its lines. -/
  regs : CmdRegs
  /-- R119. The task. Reset: see its lines. -/
  task : CellTask
  /-- R523. Counters. Reset: see its lines. -/
  ctr : CellCtr
  deriving DecidableEq, Repr

/-! ### Initial values -/

def CoreState.zero : CoreState where
  s := Vector.replicate _ 0
  a := Vector.replicate _ ⟨0, 0⟩
  lc := Vector.replicate _ 0
  p := 0
  t := Vector.replicate _ 0
  loops := []
  pc := 0
  sClaim := 0
  pClaim := 0
  sMark := 0
  pMark := 0
  pushed := 0
  wait := ⟨0, 0, 0⟩
  need := 0
  enq := none
  held := none

def BankState.empty : BankState := ⟨[], [], [], [], false, false, false, none, none⟩

def StoreState.empty : StoreState := ⟨[], [], [], []⟩

def DmemState.empty : DmemState := ⟨[], [], []⟩

def EngQueue.empty : EngQueue := ⟨[], []⟩

def MxState.empty : MxState where
  bank0 := []
  bank1 := []
  hist := []
  cmds := []
  nextBank := false
  prev := none
  rings := []
  retry := false
  gap := .none
  gapSince := 0
  gapDuty := 0
  gapCfg := 0

def WbCtx.idle : WbCtx where
  busy := false
  seq := 0
  pc := 0
  v := Vector.replicate _ 0
  k := Vector.replicate _ 0
  h := Vector.replicate _ none
  slots := Vector.replicate _ (0, 0)
  ringBase := 0
  ringW := 0
  remote := 0x7FF
  loops := []
  waitOn := none
  fence := false
  out := []
  ended := false
  marked := false
  segs := 0
  buf := []

def NanRegs.zero : NanRegs := ⟨0, 0, 0, 0, 0⟩

def CmdRegs.zero : CmdRegs := ⟨0, 0, 0, 0, 0, 0, 0, 0, false, false⟩

def CellCtr.zero : CellCtr := ⟨0, 0, 0, 0, 0, 0, 0x0FFFF000, 0, 0, 0, 0, [], 0, 0⟩

/-- A cell just cleared, in a given state. -/
def CellState.fresh (st : CState) : CellState where
  st := st
  fault := 0
  report := false
  exc := 0
  wasSpare := false
  retiring := false
  retireFault := false
  turns := []
  core := CoreState.zero
  banks := BankState.empty
  sems := Vector.replicate _ 0
  store := StoreState.empty
  dmem := DmemState.empty
  qmx := EngQueue.empty
  qvx := EngQueue.empty
  qms := EngQueue.empty
  qlk := EngQueue.empty
  mx := MxState.empty
  wb := Vector.replicate _ WbCtx.idle
  handed := []
  parts := []
  nan := NanRegs.zero
  regs := CmdRegs.zero
  task := ⟨0, 0, 0, 0⟩
  ctr := CellCtr.zero

end Sys2Proof.Machine
end

