-- ==== Sys2Proof/Machine/Operands.lean ====
section
/-!
DEFINITION. Every operand form the specification gives: the operand fields of a cell core instruction (R90), the fields
of a tensor descriptor (R100), of an engine command (R217 to R240) and of a waybill instruction (R258, R264).
-/

namespace Sys2Proof.Machine

/-! ### Cell core operand fields (R90): the low 22 bits of the instruction -/

/-- Bits 21 to 17: an s register. -/
def fD (o : BitVec 22) : BitVec 5 := o.extractLsb' 17 5
/-- Bits 16 to 12: an s register. -/
def fA (o : BitVec 22) : BitVec 5 := o.extractLsb' 12 5
/-- Bits 11 to 7: an s register. -/
def fB (o : BitVec 22) : BitVec 5 := o.extractLsb' 7 5
/-- Bits 21 to 19: a p register. -/
def fPD (o : BitVec 22) : BitVec 3 := o.extractLsb' 19 3
/-- Bits 18 to 14: an s register. -/
def fA18 (o : BitVec 22) : BitVec 5 := o.extractLsb' 14 5
/-- Bits 13 to 9: an s register. -/
def fB13 (o : BitVec 22) : BitVec 5 := o.extractLsb' 9 5
/-- Bits 17 to 13: an s register. -/
def fB17 (o : BitVec 22) : BitVec 5 := o.extractLsb' 13 5
/-- Bits 12 to 8: an s register. -/
def fHi (o : BitVec 22) : BitVec 5 := o.extractLsb' 8 5
/-- Bits 21 to 18: an a or t register. -/
def fAD (o : BitVec 22) : BitVec 4 := o.extractLsb' 18 4
/-- Bits 17 to 14: an a register. -/
def fAS (o : BitVec 22) : BitVec 4 := o.extractLsb' 14 4
/-- Bits 16 to 13: an a or t register (BASE, AS of ATO, TS of TGET). -/
def fBase (o : BitVec 22) : BitVec 4 := o.extractLsb' 13 4
/-- Bits 12 to 11: MODE of a memory instruction. -/
def fMode (o : BitVec 22) : BitVec 2 := o.extractLsb' 11 2
/-- Bits 10 to 0: the signed immediate of a memory instruction or of CMPI. -/
def fImm11 (o : BitVec 22) : BitVec 11 := o.extractLsb' 0 11
/-- Bits 11 to 0. -/
def fImm12 (o : BitVec 22) : BitVec 12 := o.extractLsb' 0 12
/-- Bits 12 to 10: FIELD of TGET and TSET, FUNC of PLOG. -/
def fField (o : BitVec 22) : BitVec 3 := o.extractLsb' 10 3
/-- Bits 21 to 20: LC, LVL or Q. -/
def fTop2 (o : BitVec 22) : BitVec 2 := o.extractLsb' 20 2
/-- Bits 19 to 15: the s register of LCSET and LSET. -/
def fB19 (o : BitVec 22) : BitVec 5 := o.extractLsb' 15 5
/-- Bits 13 to 0: LEN of LOOP, IMM14 of AADDI. -/
def fLen (o : BitVec 22) : BitVec 14 := o.extractLsb' 0 14

/-- The bit of register n in a mask of 32 registers. -/
def bit5 (i : BitVec 5) : BitVec 32 := 1#32 <<< i.toNat

/-- The bit of predicate n in a mask of eight. -/
def bit3 (i : BitVec 3) : BitVec 8 := 1#8 <<< i.toNat

/-! ### Tensor descriptors (R100) -/

/-- HANDLE. -/
def dHandle (t : QWord) : BitVec 32 := t.extractLsb' 96 32
/-- OFFSET. -/
def dOffset (t : QWord) : BitVec 40 := t.extractLsb' 56 40
/-- LDIM. -/
def dLdim (t : QWord) : BitVec 24 := t.extractLsb' 32 24
/-- FMT. -/
def dFmt (t : QWord) : BitVec 4 := t.extractLsb' 28 4
/-- ROWS. -/
def dRows (t : QWord) : BitVec 14 := t.extractLsb' 14 14
/-- COLS. -/
def dCols (t : QWord) : BitVec 14 := t.extractLsb' 0 14

/-- A descriptor from its fields. -/
def mkDesc (h : BitVec 32) (off : BitVec 40) (ldim : BitVec 24) (fmt : BitVec 4) (rows cols : BitVec 14) : QWord :=
  h ++ off ++ ldim ++ fmt ++ rows ++ cols

/-- The descriptor with another OFFSET (TOFS, TADV). -/
def dSetOffset (t : QWord) (off : BitVec 40) : QWord :=
  mkDesc (dHandle t) off (dLdim t) (dFmt t) (dRows t) (dCols t)

/-- The field FIELD selects, zero-extended (R101). -/
def dGet (t : QWord) (f : BitVec 3) : BitVec 32 :=
  match f with
  | 0 => dHandle t
  | 1 => (dOffset t).setWidth 32
  | 2 => ((dOffset t).extractLsb' 32 8).setWidth 32
  | 3 => (dLdim t).setWidth 32
  | 4 => (dFmt t).setWidth 32
  | 5 => (dRows t).setWidth 32
  | _ => (dCols t).setWidth 32

/-- The descriptor with the field FIELD selects replaced by the low bits of a scalar (R101). -/
def dSet (t : QWord) (f : BitVec 3) (b : BitVec 32) : QWord :=
  match f with
  | 0 => mkDesc b (dOffset t) (dLdim t) (dFmt t) (dRows t) (dCols t)
  | 1 => dSetOffset t ((dOffset t).extractLsb' 32 8 ++ b)
  | 2 => dSetOffset t (b.setWidth 8 ++ (dOffset t).setWidth 32)
  | 3 => mkDesc (dHandle t) (dOffset t) (b.setWidth 24) (dFmt t) (dRows t) (dCols t)
  | 4 => mkDesc (dHandle t) (dOffset t) (dLdim t) (b.setWidth 4) (dRows t) (dCols t)
  | 5 => mkDesc (dHandle t) (dOffset t) (dLdim t) (dFmt t) (b.setWidth 14) (dCols t)
  | _ => mkDesc (dHandle t) (dOffset t) (dLdim t) (dFmt t) (dRows t) (b.setWidth 14)

/-! ### Engine commands (R217) -/

/-- OPC. -/
def cOpc (w : QWord) : BitVec 6 := w.extractLsb' 26 6
/-- WSEM. -/
def cWsem (w : QWord) : BitVec 5 := w.extractLsb' 21 5
/-- WCNT. -/
def cWcnt (w : QWord) : BitVec 8 := w.extractLsb' 13 8
/-- SSEM. -/
def cSsem (w : QWord) : BitVec 5 := w.extractLsb' 8 5
/-- SEN. -/
def cSen (w : QWord) : Bool := w.getLsbD 7
/-- CF (R240). -/
def cCf (w : QWord) : BitVec 32 := w.extractLsb' 96 32
/-- FUSE (bit 2 of MMA and of the vector commands). -/
def cFuse (w : QWord) : Bool := w.getLsbD 2

/-! MMA (R222) -/
def mPace (w : QWord) : Bool := w.getLsbD 3
def mChain (w : QWord) : Bool := w.getLsbD 4
def mLink (w : QWord) : Bool := w.getLsbD 5
def mAcc (w : QWord) : Bool := w.getLsbD 6
def mFsem (w : QWord) : BitVec 5 := w.extractLsb' 79 5
def mRsem (w : QWord) : BitVec 5 := w.extractLsb' 74 5
def mPlen (w : QWord) : BitVec 8 := w.extractLsb' 66 8
/-- K, from 1 to 2^32. -/
def mK (w : QWord) : Nat := (w.extractLsb' 32 32).toNat + 1

/-! Vector commands (R224) -/
def vFn (w : QWord) : BitVec 6 := w.extractLsb' 78 6
def vDel (w : QWord) : Bool := w.getLsbD 77
def vDkind (w : QWord) : Bool := w.getLsbD 76
def vDreg (w : QWord) : BitVec 5 := w.extractLsb' 71 5
def vWrd (w : QWord) : Bool := w.getLsbD 70
def vImm (w : QWord) : BitVec 32 := w.extractLsb' 32 32
def vRm (w : QWord) : BitVec 2 := w.extractLsb' 5 2
def vSat (w : QWord) : Bool := w.getLsbD 4
def vCt (w : QWord) : Bool := w.getLsbD 3
def vBimm (w : QWord) : Bool := w.getLsbD 1

/-! RUNWB (R232) and link-port commands (R233) -/
def wWba (w : QWord) : BitVec 19 := w.extractLsb' 97 19
def wParam1 (w : QWord) : BitVec 32 := w.extractLsb' 64 32
def wParam0 (w : QWord) : BitVec 32 := w.extractLsb' 32 32
def lCid (w : QWord) : BitVec 11 := w.extractLsb' 32 11
def lAop (w : QWord) : BitVec 3 := w.extractLsb' 4 3

/-! The collective field (R240), as the 32 bits of CF -/
def cfCop (cf : BitVec 32) : BitVec 3 := cf.extractLsb' 29 3
def cfCfn (cf : BitVec 32) : BitVec 3 := cf.extractLsb' 26 3
def cfGroup (cf : BitVec 32) : BitVec 12 := cf.extractLsb' 14 12
def cfCsem (cf : BitVec 32) : BitVec 5 := cf.extractLsb' 9 5

/-- The reserved bits of a command of a listed opcode, by queue (R15, R217, R222, R224, R232, R233, R240): those of its
own table, and every bit no field of it names. -/
def reservedMask (q : BitVec 2) (w : QWord) : QWord :=
  let bits (hi lo : Nat) : QWord := BitVec.ofNat 128 (2 ^ (hi + 1) - 2 ^ lo)
  let cf : QWord := if cFuse w then bits 104 96 else 0
  let sync := bits 127 32 ||| bits 6 0
  match q, (cOpc w).toNat with
  | 0, 1 => bits 65 64 ||| bits 1 0 ||| cf
  | 1, 1 | 1, 2 | 1, 3 => bits 69 64 ||| bits 0 0 ||| cf
  | 1, 4 | 1, 5 => bits 69 64 ||| bits 0 0
  | 2, 1 => bits 96 96 ||| bits 6 0
  | 3, 1 | 3, 2 => bits 127 96 ||| bits 87 32 ||| bits 6 0
  | 3, 3 => bits 127 96 ||| bits 87 43 ||| bits 6 0
  | 3, 4 => bits 127 96 ||| bits 87 32 ||| bits 3 0
  | 3, 5 => bits 104 96 ||| bits 87 32 ||| bits 6 0
  | _, 0 => sync
  | _, _ => 0

/-- The rounding mode a code names; 0b11 is reserved. -/
def rmOf (b : BitVec 2) : RMode := match b with | 0 => .rne | 1 => .rtz | _ => .sr

/-- The descriptor register numbers a command names in its first, second and third field (R249), by queue. -/
def descRegs (q : BitVec 2) (w : QWord) : BitVec 4 × BitVec 4 × BitVec 4 :=
  if q = 2 then (w.extractLsb' 124 4, w.extractLsb' 120 4, w.extractLsb' 116 4)
  else (w.extractLsb' 92 4, w.extractLsb' 88 4, w.extractLsb' 84 4)

/-- The register a command claims when pushed (R111, R229): none for p0 and for a DREG that names no register. -/
def claimOf (q : BitVec 2) (w : QWord) : Option (Bool × BitVec 5) :=
  if q = 1 ∧ cOpc w = 5 ∧ vDel w then
    if vDkind w then
      (if vDreg w = 0 ∨ 8 ≤ (vDreg w).toNat then none else some (true, vDreg w))
    else some (false, vDreg w)
  else none

/-! ### Waybill instructions (R258, R264): a 64-bit word as a number -/

def wbOp (w : Nat) : Nat := bitsOf w 63 58
def wbD (w : Nat) : BitVec 3 := BitVec.ofNat 3 (bitsOf w 57 55)
def wbA (w : Nat) : BitVec 3 := BitVec.ofNat 3 (bitsOf w 54 52)
def wbB (w : Nat) : BitVec 3 := BitVec.ofNat 3 (bitsOf w 51 49)
def wbN (w : Nat) : BitVec 2 := BitVec.ofNat 2 (bitsOf w 57 56)

end Sys2Proof.Machine
end

