-- ==== Sys2Proof/Machine/CoreBody.lean ====
section
/-!
DEFINITION. The cell core's instructions on one cell (R81 to R123): what each reads, writes and claims, what makes its
word illegal, and its effect. `Machine/Ops.lean` runs a body with the checks every instruction shares.
-/

namespace Sys2Proof.Machine

/-- What an instruction sees of the module: its cell, the sample of line time (R120) and the time of a wait. -/
structure CoreEnv where
  id : CellId
  lt : BitVec 64
  ns : Nat

/-- Where fetch goes after an instruction. -/
inductive Flow where
  /-- To the next instruction, after the end check of R105. -/
  | seq
  /-- Past the body of a skipped LOOP, after the end check of R105. -/
  | skip (dest : Nat)
  /-- A taken branch: no end check; `pops` when it leaves loops (R107). -/
  | jump (dest : Nat) (pops : Bool)
  /-- The body itself has set the PC (SWB, HALT, ENQ). -/
  | stay

/-- What a body answers. -/
inductive CoreResult where
  | done (c : CellState) (f : Flow)
  | exc (code : BitVec 8)
  | hold (c : CellState) (kind : BitVec 4) (target : BitVec 8)
  | semOver (c : CellState) (sem : BitVec 5)
  | badBank (c : CellState)

/-- An instruction of the cell core. -/
structure CoreOp where
  /-- R90. The opcode. -/
  op : BitVec 6
  /-- R89. The operand bits are legal. -/
  legal : BitVec 22 → Bool
  /-- s registers read. -/
  rs : BitVec 22 → BitVec 32 := fun _ => 0
  /-- s registers written. -/
  ws : BitVec 22 → BitVec 32 := fun _ => 0
  /-- p registers read, the guard apart. -/
  rp : BitVec 22 → BitVec 8 := fun _ => 0
  /-- p registers written. -/
  wp : BitVec 22 → BitVec 8 := fun _ => 0
  /-- Cell-store lanes and data-memory words the instruction reads. -/
  touch : BitVec 22 → CellState → List Nat × List Nat := fun _ _ => ([], [])
  /-- Where a guarded-off instruction goes (R88, R104). -/
  off : BitVec 22 → CellState → Flow := fun _ _ => .seq
  /-- The effect. -/
  body : CoreEnv → BitVec 22 → CellState → CoreResult

/-- The 32-bit word of an instruction (R88, R90): opcode, guard, operands. -/
def CoreOp.word (op : CoreOp) (g : BitVec 4) (o : BitVec 22) : Word := op.op ++ g ++ o

/-! ### Registers -/

/-- Read an s register. -/
def CellState.sReg (c : CellState) (i : BitVec 5) : Word := rget c.core.s i

/-- Write an s register. -/
def CellState.setS (c : CellState) (i : BitVec 5) (x : Word) : CellState :=
  { c with core := { c.core with s := rset c.core.s i x } }

/-- Read an a register. -/
def CellState.aReg (c : CellState) (i : BitVec 4) : AReg := rget c.core.a i

/-- Write an a register. -/
def CellState.setA (c : CellState) (i : BitVec 4) (x : AReg) : CellState :=
  { c with core := { c.core with a := rset c.core.a i x } }

/-- Write the address of an a register. -/
def CellState.setAddr (c : CellState) (i : BitVec 4) (x : BitVec 40) : CellState :=
  c.setA i ⟨x, (c.aReg i).stride⟩

/-- Read a t register. -/
def CellState.tReg (c : CellState) (i : BitVec 4) : QWord := rget c.core.t i

/-- Write a t register. -/
def CellState.setT (c : CellState) (i : BitVec 4) (x : QWord) : CellState :=
  { c with core := { c.core with t := rset c.core.t i x } }

/-- Read an lc register. -/
def CellState.lcReg (c : CellState) (i : BitVec 2) : Word := rget c.core.lc i

/-- Write an lc register. -/
def CellState.setLc (c : CellState) (i : BitVec 2) (x : Word) : CellState :=
  { c with core := { c.core with lc := rset c.core.lc i x } }

/-- Read a predicate; p0 reads 1 (R82). -/
def CellState.pReg (c : CellState) (i : BitVec 3) : Bool := i == 0 || c.core.p.getLsbD i.toNat

/-- Write a predicate; a write of p0 is discarded (R82). -/
def CellState.setP (c : CellState) (i : BitVec 3) (x : Bool) : CellState :=
  if i = 0 then c
  else { c with core := { c.core with p := (c.core.p &&& ~~~(bit3 i)) ||| (if x then bit3 i else 0) } }

/-- Read a semaphore. -/
def CellState.sem (c : CellState) (i : BitVec 5) : BitVec 16 := rget c.sems i

/-- Write a semaphore. -/
def CellState.setSem (c : CellState) (i : BitVec 5) (x : BitVec 16) : CellState := { c with sems := rset c.sems i x }

/-- What waits for a semaphore in a cell with the count it needs (R63, R64): the core (0), the heads of the four queues
(1 to 4), the four waybill contexts (5 to 8). -/
def CellState.waiters (c : CellState) (i : BitVec 5) : List (Nat × Nat) :=
  let head (k : Nat) (e : EngQueue) : List (Nat × Nat) :=
    match e.q with
    | h :: _ => if ¬ h.rerun ∧ cWsem h.word = i ∧ cWcnt h.word ≠ 0 then [(k, (cWcnt h.word).toNat)] else []
    | [] => []
  let ctx (k : BitVec 2) : List (Nat × Nat) :=
    match (rget c.wb k).waitOn with
    | some (m, n) => if m = i then [(5 + k.toNat, n)] else []
    | none => []
  (if c.core.wait.kind = 2 ∧ c.core.wait.target = i.setWidth 8 then [(0, c.core.need.toNat)] else []) ++
    head 1 c.qmx ++ head 2 c.qvx ++ head 3 c.qms ++ head 4 c.qlk ++ ctx 0 ++ ctx 1 ++ ctx 2 ++ ctx 3

/-- The other waiters of a semaphore that the present count satisfies. -/
def CellState.rivals (c : CellState) (i : BitVec 5) (w : Nat) : List (Nat × Nat) :=
  (c.waiters i).filter fun x => x.1 != w && decide (x.2 ≤ (c.sem i).toNat)

/-- The count does not satisfy a waiter that needs `n` and its rivals together (R64). -/
def CellState.scarce (c : CellState) (i : BitVec 5) (w n : Nat) : Bool :=
  decide ((c.sem i).toNat < n + ((c.rivals i w).map Prod.snd).sum)

/-- A waiter that needs `n` may be granted (R63, R64): the count suffices, and no rival that waited at its last grant has
been left behind. -/
def CellState.mayTake (c : CellState) (i : BitVec 5) (w n : Nat) : Bool :=
  decide (n ≤ (c.sem i).toNat) &&
    (n == 0 || !(c.scarce i w n && (c.rivals i w).any fun x => c.turns.contains (i, x.1, w)))

/-- A waiter is granted (R63, R64): the count falls, and a grant that left rivals waiting is remembered until they are
granted. -/
def CellState.take (c : CellState) (i : BitVec 5) (w n : Nat) : CellState :=
  let left := if c.scarce i w n then (c.rivals i w).map fun x => (i, x.1, w) else []
  { c.setSem i (c.sem i - BitVec.ofNat 16 n) with
    turns := if n = 0 then c.turns else (c.turns.filter fun x => !(x.1 == i && x.2.1 == w)) ++ left }

/-- Add to a semaphore (R63, R65): the cell with the count added, held at 0xFFFF, and whether it would have gone
above. -/
def CellState.addSem (c : CellState) (i : BitVec 5) (n : Nat) : CellState × Bool :=
  if 0xFFFF < (c.sem i).toNat + n then (c.setSem i 0xFFFF, true)
  else (c.setSem i (c.sem i + BitVec.ofNat 16 n), false)

/-- Write the loop stack. -/
def CellState.setLoops (c : CellState) (l : List LoopEntry) : CellState :=
  { c with core := { c.core with loops := l } }

/-- Write the PC. -/
def CellState.setPc (c : CellState) (pc : BitVec 16) : CellState := { c with core := { c.core with pc := pc } }

/-- Write what the core waits on and the instruction it waits in. -/
def CellState.setWait (c : CellState) (w : CoreWait) (held : Option Word) : CellState :=
  { c with core := { c.core with wait := w, held := held } }

/-! ### Scalar arithmetic (R91, R92) -/

/-- Count of leading zeros of a 32-bit value. -/
def clz32 (x : Word) : Nat := if x = 0 then 32 else 31 - Nat.log2 x.toNat

/-- Count of trailing zeros of a 32-bit value. -/
def ctz32 (x : Word) : Nat := if x = 0 then 32 else Nat.log2 (x &&& (0 - x)).toNat

/-- Count of set bits among the low n bits. -/
def popc : Nat → Nat → Nat
  | 0, _ => 0
  | n + 1, x => x % 2 + popc n (x / 2)

/-- The functions of R91. -/
def aluFn (f : BitVec 7) (a b : Word) : Word :=
  match f with
  | 0x00 => a + b
  | 0x01 => a - b
  | 0x02 => a &&& b
  | 0x03 => a ||| b
  | 0x04 => a ^^^ b
  | 0x05 => a <<< (b.toNat % 32)
  | 0x06 => a >>> (b.toNat % 32)
  | 0x07 => a.sshiftRight (b.toNat % 32)
  | 0x08 => a * b
  | 0x09 => BitVec.ofInt 32 (a.toInt * b.toInt / 2 ^ 32)
  | 0x0A => BitVec.ofNat 32 (a.toNat * b.toNat / 2 ^ 32)
  | 0x0B => if b = 0 then 0xFFFFFFFF else a.udiv b
  | 0x0C => if b = 0 then a else a.umod b
  | 0x0D => if b = 0 then 0xFFFFFFFF else BitVec.ofInt 32 (a.toInt.tdiv b.toInt)
  | 0x0E => if b = 0 then a else BitVec.ofInt 32 (a.toInt.tmod b.toInt)
  | 0x0F => if a.toInt ≤ b.toInt then a else b
  | 0x10 => if b.toInt ≤ a.toInt then a else b
  | 0x11 => if a.toNat ≤ b.toNat then a else b
  | 0x12 => if b.toNat ≤ a.toNat then a else b
  | 0x13 => BitVec.ofNat 32 (clz32 a)
  | 0x14 => BitVec.ofNat 32 (ctz32 a)
  | _ => BitVec.ofNat 32 (popc 32 a.toNat)

/-- The conditions of R94. -/
def condFn (f : BitVec 3) (a b : Word) : Bool :=
  match f with
  | 0 => a == b
  | 1 => a != b
  | 2 => decide (a.toInt < b.toInt)
  | 3 => decide (b.toInt ≤ a.toInt)
  | 4 => decide (a.toNat < b.toNat)
  | _ => decide (b.toNat ≤ a.toNat)

/-- The functions of R95. -/
def plogFn (f : BitVec 3) (a b : Bool) : Bool :=
  match f with
  | 0 => a && b
  | 1 => a || b
  | 2 => a != b
  | 3 => a && !b
  | 4 => a || !b
  | _ => !a

/-- NOP. -/
def opNop : CoreOp where
  op := 0x00
  legal o := o == 0
  body _ _ c := .done c .seq

/-- ALU (R91): FUNC 0x16 to 0x7F are reserved, and B must be 0 for CLZ, CTZ and POPC. -/
def opAlu : CoreOp where
  op := 0x01
  legal o :=
    let f := (o.extractLsb' 0 7 : BitVec 7).toNat
    decide (f ≤ 0x15) && (decide (f < 0x13) || fB o == 0)
  rs o := bit5 (fA o) ||| (if (o.extractLsb' 0 7 : BitVec 7).toNat < 0x13 then bit5 (fB o) else 0)
  ws o := bit5 (fD o)
  body _ o c := .done (c.setS (fD o) (aluFn (o.extractLsb' 0 7) (c.sReg (fA o)) (c.sReg (fB o)))) .seq

/-- The shape ADDI, ANDI, ORI and XORI share: sD from sA and the 12-bit immediate. -/
def immOp (op : BitVec 6) (f : Word → BitVec 12 → Word) : CoreOp where
  op := op
  legal _ := true
  rs o := bit5 (fA o)
  ws o := bit5 (fD o)
  body _ o c := .done (c.setS (fD o) (f (c.sReg (fA o)) (fImm12 o))) .seq

def opAddi : CoreOp := immOp 0x02 fun a i => a + i.signExtend 32
def opAndi : CoreOp := immOp 0x03 fun a i => a &&& i.setWidth 32
def opOri : CoreOp := immOp 0x04 fun a i => a ||| i.setWidth 32
def opXori : CoreOp := immOp 0x05 fun a i => a ^^^ i.setWidth 32

/-- The shape SLLI, SRLI and SRAI share: bits 11 to 5 are 0. -/
def shiftOp (op : BitVec 6) (f : Word → Nat → Word) : CoreOp where
  op := op
  legal o := (o.extractLsb' 5 7 : BitVec 7) == 0
  rs o := bit5 (fA o)
  ws o := bit5 (fD o)
  body _ o c := .done (c.setS (fD o) (f (c.sReg (fA o)) (o.extractLsb' 0 5 : BitVec 5).toNat)) .seq

def opSlli : CoreOp := shiftOp 0x06 fun a n => a <<< n
def opSrli : CoreOp := shiftOp 0x07 fun a n => a >>> n
def opSrai : CoreOp := shiftOp 0x08 fun a n => a.sshiftRight n

/-- LI (R93). -/
def opLi : CoreOp where
  op := 0x09
  legal o := !o.getLsbD 16
  ws o := bit5 (fD o)
  body _ o c := .done (c.setS (fD o) ((o.extractLsb' 0 16 : BitVec 16).signExtend 32)) .seq

/-- LIH (R93): it keeps the lower half of sD, so it reads sD (DEDUCED 9). -/
def opLih : CoreOp where
  op := 0x0A
  legal o := !o.getLsbD 16
  rs o := bit5 (fD o)
  ws o := bit5 (fD o)
  body _ o c := .done (c.setS (fD o) ((o.extractLsb' 0 16 : BitVec 16) ++ (c.sReg (fD o)).setWidth 16)) .seq

/-- CMP (R94). -/
def opCmp : CoreOp where
  op := 0x0B
  legal o := (o.extractLsb' 0 6 : BitVec 6) == 0 && decide ((o.extractLsb' 6 3 : BitVec 3).toNat < 6)
  rs o := bit5 (fA18 o) ||| bit5 (fB13 o)
  wp o := bit3 (fPD o)
  body _ o c := .done (c.setP (fPD o) (condFn (o.extractLsb' 6 3) (c.sReg (fA18 o)) (c.sReg (fB13 o)))) .seq

/-- CMPI (R94): the immediate is sign-extended for every condition. -/
def opCmpi : CoreOp where
  op := 0x0C
  legal o := decide ((o.extractLsb' 11 3 : BitVec 3).toNat < 6)
  rs o := bit5 (fA18 o)
  wp o := bit3 (fPD o)
  body _ o c :=
    .done (c.setP (fPD o) (condFn (o.extractLsb' 11 3) (c.sReg (fA18 o)) ((fImm11 o).signExtend 32))) .seq

/-- PLOG (R95): for NOT, PB must be 0. -/
def opPlog : CoreOp where
  op := 0x0D
  legal o :=
    let f := (fField o).toNat
    (o.extractLsb' 0 10 : BitVec 10) == 0 && decide (f < 6) &&
      (decide (f < 5) || (o.extractLsb' 13 3 : BitVec 3) == 0)
  rp o := bit3 (o.extractLsb' 16 3) ||| (if (fField o).toNat < 5 then bit3 (o.extractLsb' 13 3) else 0)
  wp o := bit3 (fPD o)
  body _ o c :=
    .done (c.setP (fPD o) (plogFn (fField o) (c.pReg (o.extractLsb' 16 3)) (c.pReg (o.extractLsb' 13 3)))) .seq

/-- PFROMS. -/
def opPfroms : CoreOp where
  op := 0x0E
  legal o := (o.extractLsb' 0 14 : BitVec 14) == 0
  rs o := bit5 (fA18 o)
  wp o := bit3 (fPD o)
  body _ o c := .done (c.setP (fPD o) (c.sReg (fA18 o) != 0)) .seq

/-- PTOS. -/
def opPtos : CoreOp where
  op := 0x0F
  legal o := (o.extractLsb' 0 14 : BitVec 14) == 0
  rp o := bit3 (o.extractLsb' 14 3)
  ws o := bit5 (fD o)
  body _ o c := .done (c.setS (fD o) (if c.pReg (o.extractLsb' 14 3) then 1 else 0)) .seq

/-- SEL (R95). -/
def opSel : CoreOp where
  op := 0x10
  legal o := (o.extractLsb' 0 4 : BitVec 4) == 0
  rs o := bit5 (fA o) ||| bit5 (fB o)
  rp o := bit3 (o.extractLsb' 4 3)
  ws o := bit5 (fD o)
  body _ o c := .done (c.setS (fD o) (if c.pReg (o.extractLsb' 4 3) then c.sReg (fA o) else c.sReg (fB o))) .seq

/-! ### Memory (R85, R86, R96 to R98) -/

/-- Where a 40-bit address leads (R85). -/
inductive Target where
  | dmem (off : Nat)
  | store (off : Nat)
  | bad (code : BitVec 8)
  deriving DecidableEq, Repr

/-- The address map of R85: exception 4 for the invalid cell-store range, exception 3 outside every window. -/
def addrTarget (a : BitVec 40) : Target :=
  let n := a.toNat
  if n < 0x10000 then .dmem n
  else if 0x1000000 ≤ n ∧ n < 0x1300000 then .store (n - 0x1000000)
  else if 0x1300000 ≤ n ∧ n < 0x1400000 then .bad 4
  else .bad 3

/-- The target of an access of a size: range first, then alignment (R122). -/
def accessTarget (a : BitVec 40) (size : Nat) : Target :=
  match addrTarget a with
  | .bad e => .bad e
  | t => if a.toNat % size = 0 then t else .bad 5

/-- The address a memory instruction forms and the base register afterwards (R96). -/
def memAddr (c : CellState) (o : BitVec 22) (size : Nat) : BitVec 40 × BitVec 40 :=
  let b := c.aReg (fBase o)
  let inc : BitVec 40 := BitVec.ofNat 40 size * (fImm11 o).signExtend 40
  match fMode o with
  | 0 => (b.addr + inc, b.addr)
  | 1 => (b.addr, b.addr + b.stride.signExtend 40)
  | _ => (b.addr, b.addr + inc)

/-- The 8-byte lanes an access of n bytes at a touches. -/
def lanesOf (a n : Nat) : List Nat := (List.range ((a + n - 1) / 8 + 1 - a / 8)).map (· + a / 8)

/-- The 4-byte words an access of n bytes at a touches. -/
def wordsOf (a n : Nat) : List Nat := (List.range ((a + n - 1) / 4 + 1 - a / 4)).map (· + a / 4)

/-- Write bytes of the cell store, no poison: whole lanes lose their marks, partial ones keep them (R190). -/
def StoreState.writeClean (m : StoreState) (a : Nat) (bs : List Byte) : StoreState :=
  let whole := (lanesOf a bs.length).filter fun l => a ≤ 8 * l ∧ 8 * l + 8 ≤ a + bs.length
  { mem := m.mem.write 0 a bs
    poison := m.poison.filter fun l => !whole.contains l
    ue := m.ue.filter fun l => !whole.contains l
    ce := m.ce.filter fun l => !whole.contains l }

/-- A load of a size at a target: its number, or the exception (R84, R98). -/
def coreLoad (c : CellState) (a : BitVec 40) (size : Nat) : Nat ⊕ BitVec 8 :=
  match accessTarget a size with
  | .bad e => .inr e
  | .dmem off =>
    if (wordsOf off size).any fun w => c.dmem.ue.contains w then .inr 0x0A else .inl (c.dmem.mem.readNat 0 off size)
  | .store off =>
    if (lanesOf off size).any fun l => c.store.poison.contains l || c.store.ue.contains l then .inr 0x09
    else .inl (c.store.mem.readNat 0 off size)

/-- What a load reads, for the error checks of the memories. -/
def loadTouch (a : BitVec 40) (size : Nat) : List Nat × List Nat :=
  match accessTarget a size with
  | .bad _ => ([], [])
  | .dmem off => ([], wordsOf off size)
  | .store off => (lanesOf off size, [])

/-- What a store of 1 or 2 bytes reads of the data memory (R84). -/
def storeTouch (a : BitVec 40) (size : Nat) : List Nat × List Nat :=
  match accessTarget a size with
  | .dmem off => if size < 4 then ([], wordsOf off size) else ([], [])
  | _ => ([], [])

/-- A store of the low bytes of a number (R84, R86, R190). -/
def coreStore (c : CellState) (a : BitVec 40) (size v : Nat) : CellState ⊕ BitVec 8 :=
  match accessTarget a size with
  | .bad e => .inr e
  | .dmem off =>
    if size < 4 ∧ (wordsOf off size).any (fun w => c.dmem.ue.contains w) then .inr 0x0A
    else
      let fix : List Nat → List Nat := fun l => if size < 4 then l else l.filter fun w => !(wordsOf off size).contains w
      .inl { c with dmem := ⟨c.dmem.mem.writeNat 0 off size v, fix c.dmem.ue, fix c.dmem.ce⟩ }
  | .store off => .inl { c with store := c.store.writeClean off (leBytes size v) }

/-- MODE 0b11 is reserved (R96). -/
def memLegal (o : BitVec 22) : Bool := fMode o != 3

/-- The shape the scalar loads share. -/
def loadOp (op : BitVec 6) (size : Nat) (ext : Nat → Word) : CoreOp where
  op := op
  legal := memLegal
  ws o := bit5 (fD o)
  touch o c := loadTouch (memAddr c o size).1 size
  body _ o c :=
    let m := memAddr c o size
    match coreLoad c m.1 size with
    | .inr e => .exc e
    | .inl v => .done ((c.setAddr (fBase o) m.2).setS (fD o) (ext v)) .seq

def opLb : CoreOp := loadOp 0x11 1 fun v => (BitVec.ofNat 8 v).signExtend 32
def opLbu : CoreOp := loadOp 0x12 1 fun v => BitVec.ofNat 32 v
def opLh : CoreOp := loadOp 0x13 2 fun v => (BitVec.ofNat 16 v).signExtend 32
def opLhu : CoreOp := loadOp 0x14 2 fun v => BitVec.ofNat 32 v
def opLw : CoreOp := loadOp 0x15 4 fun v => BitVec.ofNat 32 v

/-- The shape the scalar stores share; D is the source. -/
def storeOp (op : BitVec 6) (size : Nat) : CoreOp where
  op := op
  legal := memLegal
  rs o := bit5 (fD o)
  touch o c := storeTouch (memAddr c o size).1 size
  body _ o c :=
    let m := memAddr c o size
    match coreStore c m.1 size (c.sReg (fD o)).toNat with
    | .inr e => .exc e
    | .inl c' => .done (c'.setAddr (fBase o) m.2) .seq

def opSb : CoreOp := storeOp 0x16 1
def opSh : CoreOp := storeOp 0x17 2
def opSw : CoreOp := storeOp 0x18 4

/-- LDA (R97): the loaded value wins over the increment of the same register. -/
def opLda : CoreOp where
  op := 0x19
  legal o := memLegal o && !o.getLsbD 17
  touch o c := loadTouch (memAddr c o 8).1 8
  body _ o c :=
    let m := memAddr c o 8
    match coreLoad c m.1 8 with
    | .inr e => .exc e
    | .inl v => .done ((c.setAddr (fBase o) m.2).setAddr (fAD o) (BitVec.ofNat 40 v)) .seq

/-- STA (R97): the address as 8 bytes, the stride not moved. -/
def opSta : CoreOp where
  op := 0x1A
  legal o := memLegal o && !o.getLsbD 17
  body _ o c :=
    let m := memAddr c o 8
    match coreStore c m.1 8 (c.aReg (fAD o)).addr.toNat with
    | .inr e => .exc e
    | .inl c' => .done (c'.setAddr (fBase o) m.2) .seq

/-- TLD (R100). -/
def opTld : CoreOp where
  op := 0x1B
  legal o := memLegal o && !o.getLsbD 17
  touch o c := loadTouch (memAddr c o 16).1 16
  body _ o c :=
    let m := memAddr c o 16
    match coreLoad c m.1 16 with
    | .inr e => .exc e
    | .inl v => .done ((c.setAddr (fBase o) m.2).setT (fAD o) (BitVec.ofNat 128 v)) .seq

/-- TST (R100). -/
def opTst : CoreOp where
  op := 0x1C
  legal o := memLegal o && !o.getLsbD 17
  body _ o c :=
    let m := memAddr c o 16
    match coreStore c m.1 16 (c.tReg (fAD o)).toNat with
    | .inr e => .exc e
    | .inl c' => .done (c'.setAddr (fBase o) m.2) .seq

/-! ### Address registers (R99) and descriptors (R101) -/

def opAadd : CoreOp where
  op := 0x1D
  legal o := (o.extractLsb' 0 9 : BitVec 9) == 0
  rs o := bit5 (fB13 o)
  body _ o c := .done (c.setAddr (fAD o) ((c.aReg (fAS o)).addr + (c.sReg (fB13 o)).signExtend 40)) .seq

def opAaddi : CoreOp where
  op := 0x1E
  legal _ := true
  body _ o c := .done (c.setAddr (fAD o) ((c.aReg (fAS o)).addr + (fLen o).signExtend 40)) .seq

def opAfrom : CoreOp where
  op := 0x1F
  legal o := (o.extractLsb' 0 8 : BitVec 8) == 0
  rs o := bit5 (fB17 o) ||| bit5 (fHi o)
  body _ o c := .done (c.setAddr (fAD o) ((c.sReg (fHi o)).setWidth 8 ++ c.sReg (fB17 o))) .seq

def opAto : CoreOp where
  op := 0x20
  legal o := (o.extractLsb' 0 12 : BitVec 12) == 0
  ws o := bit5 (fD o)
  body _ o c :=
    let a := (c.aReg (fBase o)).addr
    .done (c.setS (fD o) (if o.getLsbD 12 then (a.extractLsb' 32 8 : BitVec 8).setWidth 32 else a.setWidth 32)) .seq

def opAstr : CoreOp where
  op := 0x21
  legal o := (o.extractLsb' 0 13 : BitVec 13) == 0
  rs o := bit5 (fB17 o)
  body _ o c := .done (c.setA (fAD o) ⟨(c.aReg (fAD o)).addr, c.sReg (fB17 o)⟩) .seq

def opAstri : CoreOp where
  op := 0x22
  legal _ := true
  body _ o c := .done (c.setA (fAD o) ⟨(c.aReg (fAD o)).addr, (o.extractLsb' 0 18 : BitVec 18).signExtend 32⟩) .seq

def opAmov : CoreOp where
  op := 0x23
  legal o := (o.extractLsb' 0 14 : BitVec 14) == 0
  body _ o c := .done (c.setA (fAD o) (c.aReg (fAS o))) .seq

def opTofs : CoreOp where
  op := 0x24
  legal o := (o.extractLsb' 0 14 : BitVec 14) == 0
  body _ o c := .done (c.setT (fAD o) (dSetOffset (c.tReg (fAD o)) (c.aReg (fAS o)).addr)) .seq

def opTadv : CoreOp where
  op := 0x25
  legal o := (o.extractLsb' 0 13 : BitVec 13) == 0
  rs o := bit5 (fB17 o)
  body _ o c :=
    let t := c.tReg (fAD o)
    .done (c.setT (fAD o) (dSetOffset t (dOffset t + (c.sReg (fB17 o)).signExtend 40))) .seq

def opTget : CoreOp where
  op := 0x26
  legal o := (o.extractLsb' 0 10 : BitVec 10) == 0 && fField o != 7
  ws o := bit5 (fD o)
  body _ o c := .done (c.setS (fD o) (dGet (c.tReg (fBase o)) (fField o))) .seq

def opTset : CoreOp where
  op := 0x27
  legal o := (o.extractLsb' 0 10 : BitVec 10) == 0 && fField o != 7
  rs o := bit5 (fB17 o)
  body _ o c := .done (c.setT (fAD o) (dSet (c.tReg (fAD o)) (fField o) (c.sReg (fB17 o)))) .seq

/-! ### Loops (R104 to R108) -/

def opLcset : CoreOp where
  op := 0x28
  legal o := (o.extractLsb' 0 15 : BitVec 15) == 0
  rs o := bit5 (fB19 o)
  body _ o c := .done (c.setLc (fTop2 o) (c.sReg (fB19 o))) .seq

def opLci : CoreOp where
  op := 0x29
  legal _ := true
  body _ o c := .done (c.setLc (fTop2 o) ((o.extractLsb' 0 20 : BitVec 20).setWidth 32)) .seq

/-- The byte offset a skipped LOOP continues at (R104). -/
def loopSkipTo (o : BitVec 22) (c : CellState) : Nat := c.core.pc.toNat + 4 * ((fLen o).toNat + 1)

/-- The byte offset of the last body instruction of a LOOP (R104). -/
def loopEnd (o : BitVec 22) (c : CellState) : Nat := c.core.pc.toNat + 4 * (fLen o).toNat

/-- The body of a LOOP would end beyond the end of a body that encloses the LOOP (R107, R108). -/
def passesBody (o : BitVec 22) (c : CellState) : Bool :=
  c.core.loops.any fun e =>
    decide (e.start ≤ c.core.pc.toNat ∧ c.core.pc.toNat ≤ e.stop ∧ e.stop < loopEnd o c)

/-- LOOP (R104, R108): LEN 0 is ILLEGAL; depth before bounds, both only when it would push. -/
def opLoop : CoreOp where
  op := 0x2A
  legal o := (o.extractLsb' 14 6 : BitVec 6) == 0 && fLen o != 0
  off o c := .skip (loopSkipTo o c)
  body _ o c :=
    let n := c.lcReg (fTop2 o)
    if n = 0 then .done c (.skip (loopSkipTo o c))
    else if 4 ≤ c.core.loops.length then .exc 0x06
    else if 0xFFFC < loopEnd o c ∨ passesBody o c = true then .exc 0x07
    else .done (c.setLoops (⟨c.core.pc.toNat + 4, loopEnd o c, n - 1⟩ :: c.core.loops)) .seq

/-- Replace the hidden counter at a level (R106). -/
def setHc (l : List LoopEntry) (lvl : Nat) (n : Word) : List LoopEntry := lmod l lvl fun e => { e with hc := n }

def opLset : CoreOp where
  op := 0x2B
  legal o := (o.extractLsb' 0 15 : BitVec 15) == 0
  rs o := bit5 (fB19 o)
  body _ o c :=
    if (fTop2 o).toNat < c.core.loops.length then
      .done (c.setLoops (setHc c.core.loops (fTop2 o).toNat (c.sReg (fB19 o)))) .seq
    else .exc 0x08

def opLbrk : CoreOp where
  op := 0x2C
  legal o := (o.extractLsb' 0 20 : BitVec 20) == 0
  body _ o c :=
    if (fTop2 o).toNat < c.core.loops.length then .done (c.setLoops (setHc c.core.loops (fTop2 o).toNat 0)) .seq
    else .exc 0x08

def opLget : CoreOp where
  op := 0x2D
  legal o := (o.extractLsb' 0 15 : BitVec 15) == 0
  ws o := bit5 (fD o)
  body _ o c :=
    match c.core.loops[(o.extractLsb' 15 2 : BitVec 2).toNat]? with
    | some e => .done (c.setS (fD o) e.hc) .seq
    | none => .exc 0x08

/-! ### Branches (R102, R103) -/

/-- A taken branch by a signed count of instructions: FETCH_RANGE outside the bank (R102). -/
def branchTo (c : CellState) (off : Int) (pops : Bool) : CoreResult :=
  let t : Int := c.core.pc.toNat + 4 * off
  if t < 0 ∨ 0xFFFC < t then .exc 0x02 else .done c (.jump t.toNat pops)

def opBr : CoreOp where
  op := 0x2E
  legal _ := true
  body _ o c := branchTo c o.toInt true

/-- CALL (R102): the link goes to s31 only when the branch is taken in range; it pops no loop (R107). -/
def opCall : CoreOp where
  op := 0x2F
  legal _ := true
  ws _ := bit5 31
  body _ o c :=
    match branchTo c o.toInt false with
    | .done c' f => .done (c'.setS 31 (BitVec.ofNat 32 (c.core.pc.toNat + 4))) f
    | r => r

/-- JR (R102). -/
def opJr : CoreOp where
  op := 0x30
  legal o := (o.extractLsb' 0 17 : BitVec 17) == 0
  rs o := bit5 (fD o)
  body _ o c :=
    let t := (c.sReg (fD o)).toNat
    if 0xFFFC < t ∨ t % 4 ≠ 0 then .exc 0x02 else .done c (.jump t true)

def opBz : CoreOp where
  op := 0x31
  legal _ := true
  rs o := bit5 (fD o)
  body _ o c :=
    if c.sReg (fD o) = 0 then branchTo c (o.extractLsb' 0 17 : BitVec 17).toInt true else .done c .seq

def opBnz : CoreOp where
  op := 0x32
  legal _ := true
  rs o := bit5 (fD o)
  body _ o c :=
    if c.sReg (fD o) ≠ 0 then branchTo c (o.extractLsb' 0 17 : BitVec 17).toInt true else .done c .seq

/-! ### PUSH (R109 to R112) -/

/-- A queue by its code in Q. -/
def CellState.queue (c : CellState) (q : BitVec 2) : EngQueue :=
  match q with
  | 0 => c.qmx
  | 1 => c.qvx
  | 2 => c.qms
  | _ => c.qlk

/-- Replace a queue by its code. -/
def CellState.setQueue (c : CellState) (q : BitVec 2) (e : EngQueue) : CellState :=
  match q with
  | 0 => { c with qmx := e }
  | 1 => { c with qvx := e }
  | 2 => { c with qms := e }
  | _ => { c with qlk := e }

/-- The depth of a queue (R60). -/
def queueDepth (q : BitVec 2) : Nat := if q = 2 then 32 else 16

/-- Replace word w of a command. -/
def setWord (cmd : QWord) (w : BitVec 2) (x : Word) : QWord :=
  let sh := 32 * w.toNat
  (cmd &&& ~~~((0xFFFFFFFF : QWord) <<< sh)) ||| (x.setWidth 128 <<< sh)

/-- The command PUSH forms from s(4G) to s(4G + 3), patched with an address (R109). -/
def pushWord (c : CellState) (o : BitVec 22) : QWord :=
  let g : BitVec 3 := o.extractLsb' 17 3
  let r (i : BitVec 2) : Word := c.sReg (g ++ i)
  let cmd := r 3 ++ r 2 ++ r 1 ++ r 0
  if o.getLsbD 16 then setWord cmd (o.extractLsb' 14 2) ((c.aReg (o.extractLsb' 10 4)).addr.setWidth 32) else cmd

/-- The queue slot PUSH fills: the command with the descriptors it names and their companions (R110, R220). -/
def pushSlot (c : CellState) (q : BitVec 2) (w : QWord) : QCmd :=
  let (r0, r1, r2) := descRegs q w
  { word := w, d0 := c.tReg r0, e0 := c.tReg (r0 + 1), d1 := c.tReg r1, e1 := c.tReg (r1 + 1),
    d2 := c.tReg r2, e2 := c.tReg (r2 + 1), seq := c.regs.cmdSeq + 1, rerun := false, past := Past.none }

/-- Claim a register (R111). -/
def CellState.claim (c : CellState) : Option (Bool × BitVec 5) → CellState
  | none => c
  | some (true, r) => { c with core := { c.core with pClaim := c.core.pClaim ||| bit3 (r.setWidth 3) } }
  | some (false, r) => { c with core := { c.core with sClaim := c.core.sClaim ||| bit5 r } }

/-- Whether a register is claimed. -/
def CellState.claimed (c : CellState) : Option (Bool × BitVec 5) → Bool
  | none => false
  | some (true, r) => c.core.pClaim &&& bit3 (r.setWidth 3) != 0
  | some (false, r) => c.core.sClaim &&& bit5 r != 0

/-- The CELL_WAIT target of a register (R523): s n as n, p n as 32 + n. -/
def claimTarget : Option (Bool × BitVec 5) → BitVec 8
  | none => 0
  | some (true, r) => 32 + r.setWidth 8
  | some (false, r) => r.setWidth 8

/-- Append one command, with its descriptors, its SEQ and its claim (R109 to R111, R221). -/
def pushOne (c : CellState) (o : BitVec 22) : CellState :=
  let q := fTop2 o
  let w := pushWord c o
  let slot := pushSlot c q w
  let e := c.queue q
  let c1 := (c.setQueue q { e with q := e.q ++ [slot] }).claim (claimOf q w)
  let c2 : CellState := { c1 with regs := { c1.regs with cmdSeq := slot.seq } }
  if o.getLsbD 16 then
    let ap : BitVec 4 := o.extractLsb' 10 4
    c2.setAddr ap ((c2.aReg ap).addr + (c2.aReg ap).stride.signExtend 40)
  else c2

/-- The repeats of a PUSH that are left: each waits for a free slot (R61) and for an earlier claim to end (R112), and
is appended whole. -/
def pushRun (o : BitVec 22) : Nat → CellState → CoreResult
  | 0, c => .done { c with core := { c.core with pushed := 0 } } .seq
  | n + 1, c =>
    let q := fTop2 o
    let cl := claimOf q (pushWord c o)
    if c.claimed cl then .hold c 3 (claimTarget cl)
    else if queueDepth q ≤ (c.queue q).q.length then .hold c 1 (q.setWidth 8)
    else
      let c' := pushOne c o
      pushRun o n { c' with core := { c'.core with pushed := c'.core.pushed + 1 } }

/-- PUSH (R109): with PATCH 0, W and AP are 0; bits 5 to 0 are 0. -/
def opPush : CoreOp where
  op := 0x33
  legal o := (o.extractLsb' 0 6 : BitVec 6) == 0 && (o.getLsbD 16 || (o.extractLsb' 10 6 : BitVec 6) == 0)
  rs o := 0xF#32 <<< (4 * (o.extractLsb' 17 3 : BitVec 3).toNat)
  body _ o c := pushRun o ((o.extractLsb' 6 4 : BitVec 4).toNat + 1 - c.core.pushed.toNat) c

/-! ### Semaphores (R114) -/

def opSig : CoreOp where
  op := 0x34
  legal o := (o.extractLsb' 0 9 : BitVec 9) == 0
  body _ o c :=
    match c.addSem (fD o) ((o.extractLsb' 9 8 : BitVec 8).toNat + 1) with
    | (c', false) => .done c' .seq
    | (c', true) => .semOver c' (fD o)

/-- WAITS and WAITSR (R63, R64, R114): hold until the count suffices, then subtract. -/
def waitSem (c : CellState) (sem : BitVec 5) (n : BitVec 16) : CoreResult :=
  if c.mayTake sem 0 n.toNat then .done (c.take sem 0 n.toNat) .seq
  else .hold { c with core := { c.core with need := n } } 2 (sem.setWidth 8)

def opWaits : CoreOp where
  op := 0x35
  legal o := !o.getLsbD 16
  body _ o c := waitSem c (fD o) (o.extractLsb' 0 16)

def opWaitsr : CoreOp where
  op := 0x36
  legal o := (o.extractLsb' 0 12 : BitVec 12) == 0
  rs o := bit5 (fA o)
  body _ o c := waitSem c (fD o) ((c.sReg (fA o)).setWidth 16)

def opSemrd : CoreOp where
  op := 0x37
  legal o := (o.extractLsb' 0 12 : BitVec 12) == 0
  ws o := bit5 (fD o)
  body _ o c := .done (c.setS (fD o) ((c.sem (fA o)).setWidth 32)) .seq

/-! ### ENQ (R115, R116) -/

/-- ENQ: the entry must lie in data memory (ADDR_RANGE) at a multiple of 64 (MISALIGNED). It hands the 64 bytes over
and waits; ENQ_ANSWER and ENQ_TIMEOUT complete it. -/
def opEnq : CoreOp where
  op := 0x38
  legal o := (o.extractLsb' 0 10 : BitVec 10) == 0
  ws o := bit5 (fA18 o)
  wp o := bit3 (fPD o)
  touch o c :=
    match c.core.enq, addrTarget (c.aReg (o.extractLsb' 10 4)).addr with
    | none, .dmem off => if off % 64 = 0 then ([], wordsOf off 64) else ([], [])
    | _, _ => ([], [])
  body env o c :=
    match c.core.enq with
    | some _ => .hold c 4 0
    | none =>
      match addrTarget (c.aReg (o.extractLsb' 10 4)).addr with
      | .dmem off =>
        if off % 64 ≠ 0 then .exc 0x05
        else if (wordsOf off 64).any fun w => c.dmem.ue.contains w then .exc 0x0A
        else
          let e : EnqWait := ⟨env.ns, c.dmem.mem.read 0 off 64, fPD o, fA18 o, none⟩
          .hold { c with core := { c.core with enq := some e } } 4 0
      | _ => .exc 0x03

/-! ### Special values, line time, bank switch, halt (R118 to R120) -/

/-- CELL_QLEVEL (R76). -/
def CellState.qlevel (c : CellState) : BitVec 32 :=
  BitVec.ofNat 32 (c.qms.q.length * 2 ^ 24 + c.qlk.q.length * 2 ^ 16 + c.qvx.q.length * 2 ^ 8 + c.qmx.q.length)

/-- The special values of R119. -/
def mfsValue (env : CoreEnv) (c : CellState) (idx : BitVec 8) : Word :=
  match idx with
  | 0 => env.id.setWidth 32
  | 1 => c.task.id
  | 2 => BitVec.ofNat 32 c.task.member
  | 3 => BitVec.ofNat 32 c.task.size
  | 4 => c.task.phase.setWidth 32
  | 5 => if c.banks.active then 1 else 0
  | _ => c.qlevel

def opMfs : CoreOp where
  op := 0x39
  legal o := (o.extractLsb' 8 9 : BitVec 9) == 0 && decide ((o.extractLsb' 0 8 : BitVec 8).toNat < 7)
  ws o := bit5 (fD o)
  body env o c := .done (c.setS (fD o) (mfsValue env c (o.extractLsb' 0 8))) .seq

/-- RDLT (R120): D must be even. -/
def opRdlt : CoreOp where
  op := 0x3A
  legal o := (o.extractLsb' 0 17 : BitVec 17) == 0 && !o.getLsbD 17
  ws o := bit5 (fD o) ||| bit5 (fD o + 1)
  body env o c := .done ((c.setS (fD o) (env.lt.setWidth 32)).setS (fD o + 1) (env.lt.extractLsb' 32 32)) .seq

/-- VALID of the inactive bank. -/
def BankState.validInactive (b : BankState) : Bool := if b.active then b.valid0 else b.valid1

/-- Begin the writes of a held load: the bank's VALID clears (R68, R69). -/
def BankState.beginLoad (b : BankState) : BankState :=
  match b.load with
  | some l =>
    let b' : BankState := { b with load := some { l with phase := .writing } }
    if l.bank then { b' with valid1 := false } else { b' with valid0 := false }
  | none => b

/-- Release a held load when the core leaves its bank or stops (R69): a release after 100,000 ns has no effect. -/
def BankState.release (b : BankState) (ns : Nat) : BankState :=
  match b.load with
  | some l => if l.phase = .held ∧ ns ≤ l.t0 + 100000 then b.beginLoad else b
  | none => b

/-- Whether a load writes the inactive bank at present. -/
def BankState.loadingInactive (b : BankState) : Bool :=
  match b.load with
  | some l => l.phase == .writing && l.bank != b.active
  | none => false

/-- SWB (R70, R118): wait for a load into the inactive bank, then switch; the loop stack empties and fetch goes on at
offset 0. A held load of the bank left behind then proceeds (R69). -/
def opSwb : CoreOp where
  op := 0x3B
  legal o := o == 0
  body env _ c :=
    if c.banks.loadingInactive then .hold c 5 0
    else if c.banks.validInactive then
      let b : BankState := { c.banks with active := !c.banks.active }
      .done (({ c with banks := b.release env.ns }.setLoops []).setPc 0) .stay
    else .badBank c

/-- HALT (R118): stop fetch, release a held load, enter HALTED. -/
def opHalt : CoreOp where
  op := 0x3C
  legal o := o == 0
  body env _ c := .done { c with st := .halted, banks := c.banks.release env.ns } .stay

end Sys2Proof.Machine
end

