-- ==== Sys2Proof/Machine/BoxState.lean ====
section
/-!
DEFINITION. Events (R27, R80) and the state of a signal box: array registers (R161), its line-time copy (R410) and its
trace (R524 to R528, R540).
-/

namespace Sys2Proof.Machine

/-- The severity an event carries (R80, R375). -/
inductive Severity where
  | info | warning | error
  deriving DecidableEq, Repr

/-- The severity code of an event record: 0 Info, 1 Warning, 2 Error. -/
def Severity.code : Severity → Nat
  | .info => 0 | .warning => 1 | .error => 2

/-- An event as raised (R27, R80): code, severity, line time [ns] and payload bytes. -/
structure Event where
  code : BitVec 16
  sev : Severity
  lt : Nat
  payload : List Byte
  deriving DecidableEq, Repr

/-- Something the module answers or sends: a source, a code within it and numbers (log entry 12). -/
structure Reply where
  port : Nat
  code : Nat
  nums : List Nat
  data : List Byte
  deriving DecidableEq, Repr

/-- One trace entry (R524): code, severity, SEQ, line time and payload. -/
structure TraceEntry where
  code : BitVec 16
  sev : BitVec 8
  seq : BitVec 16
  lt : BitVec 64
  payload : List Byte
  deriving DecidableEq, Repr

/-- The trace of one cluster (R524 to R528, R540). -/
structure TraceState where
  /-- R540. CL_TRACE_CFG, 32 bits. Reset: 0x0000_0000. -/
  cfg : BitVec 32
  /-- R540. CL_TRACE_CFG as the last ARM took it, 32 bits. Reset: 0. -/
  run : BitVec 32
  /-- R540. CL_TRACE_CELLS, 32 bits. Reset: 0x0000_FFFF. -/
  cells : BitVec 32
  /-- R540. CL_TRACE_TRIG, 32 bits. Reset: 0x0000_0000. -/
  trig : BitVec 32
  /-- R540. CL_TRACE_STATUS armed and triggered bits. Reset: 0. -/
  armed : Bool
  triggered : Bool
  stopped : Bool
  /-- R540. STOP has been written: the trace stops once its staging queue is written. Reset: 0. -/
  stopping : Bool
  /-- R542. DBG_TRACE_OVERFLOW has been raised since ARM. Reset: 0. -/
  ovfRaised : Bool
  /-- R525. Staging queue of at most 64 entries. Reset: empty. -/
  staging : List TraceEntry
  /-- R525. Drops not yet covered by an OVERFLOW record: count, line times of the first and last. Reset: none. -/
  pendDrops : Nat
  pendFirst : BitVec 64
  pendLast : BitVec 64
  /-- R526. Entries in the SRAM and overflow region by slot. Reset: empty. -/
  slots : Sparse TraceEntry
  /-- R526. Next write slot. Reset: 0. -/
  wr : Nat
  /-- R526. Slots written since ARM. Reset: 0. -/
  used : Nat
  /-- R527. Slots of the post share that are left; none before the trigger. Reset: none. -/
  post : Option Nat
  /-- R526. Slot of the held OVERFLOW record, with its count and line times. Reset: none. -/
  held : Option (Nat × Nat × BitVec 64 × BitVec 64)
  /-- R524. SEQ of the next entry. Reset: 0. -/
  seq : BitVec 16
  /-- R540. CL_TRACE_DROPPED, 32 bits. Reset: 0x0000_0000. -/
  dropped : BitVec 32
  /-- R540. CL_TRACE_OVWR, 32 bits. Reset: 0x0000_0000. -/
  ovwr : BitVec 32
  deriving DecidableEq, Repr

/-- A signal box (R161, R410, R524). -/
structure BoxState where
  /-- R161. CL_MX_CONFIG, 32 bits. Reset: 0x0000_0331. -/
  mxConfig : BitVec 32
  /-- R161. CL_MX_BALLAST_CFG, 32 bits. Reset: 0x0010_2801. -/
  ballastCfg : BitVec 32
  /-- R410. Deviation of the line-time copy [1/8 ns]. Reset: 0. -/
  ltDev : Int
  /-- R524. The trace. Reset: see its lines. -/
  trace : TraceState
  deriving DecidableEq, Repr

def TraceState.init : TraceState where
  cfg := 0
  run := 0
  cells := 0x0000FFFF
  trig := 0
  armed := false
  triggered := false
  stopped := false
  stopping := false
  ovfRaised := false
  staging := []
  pendDrops := 0
  pendFirst := 0
  pendLast := 0
  slots := []
  wr := 0
  used := 0
  post := none
  held := none
  seq := 0
  dropped := 0
  ovwr := 0

def BoxState.init : BoxState := ⟨0x00000331, 0x00102801, 0, TraceState.init⟩

end Sys2Proof.Machine
end

