-- ==== Sys2Proof/Machine/MemState.lean ====
section
/-!
DEFINITION. The state of the memory system (R277 to R309) and of dispatch and placement (R325 to R354).
-/

namespace Sys2Proof.Machine

/-- Where a tensor lives (R299): tier 0 a cell store, tier 1 extents of HBM, tier 2 a lender's HBM, tier 3 host memory. -/
inductive TLoc where
  | store (cell : Nat) (addr : Nat)
  | hbm (extents : List (Nat × Nat))
  | lender (module : Nat) (addr : Nat)
  | host (addr : Nat)
  deriving DecidableEq, Repr

/-- The tier of a place (R299). -/
def TLoc.tier : TLoc → Nat
  | .store _ _ => 0
  | .hbm _ => 1
  | .lender _ _ => 2
  | .host _ => 3

/-- An entry of the placement map (R283, R349). -/
structure Tensor where
  /-- R349. Handle, 32 bits. Reset: no tensors. -/
  handle : Nat
  /-- R299. Tier and address. Reset: no tensors. -/
  loc : TLoc
  /-- R370. Size in bytes. Reset: no tensors. -/
  size : Nat
  /-- R281. Scope code: 0 package, 1 die, 2 stack. Reset: no tensors. -/
  scope : Nat
  /-- R303. Preferred tier. Reset: no tensors. -/
  prefer : Nat
  /-- R303. Pinned by the host. Reset: no tensors. -/
  pinned : Bool
  /-- R301. Lost with its lender, port or host memory. Reset: no tensors. -/
  lost : Bool
  /-- R298. An LATOM has targeted it. Reset: no tensors. -/
  atomic : Bool
  /-- R303. Line time [ns] at which a task last used it. Reset: no tensors. -/
  used : Nat
  deriving DecidableEq, Repr

/-- Training, repair and error counts of one stack (R287 to R291, R308). -/
structure StackState where
  /-- R308. MEM_STK_STATUS.TRAINED. Reset: 1. -/
  trained : Bool
  /-- R308. MEM_STK_STATUS.SPARES, 8 bits. Reset: 96 (DESIGN CHOICE 1). -/
  spares : BitVec 8
  /-- R308. MEM_STK_STATUS.REP_START, 8 bits. Reset: 0 (DESIGN CHOICE 1). -/
  repStart : BitVec 8
  /-- R308. MEM_STK_STATUS.REP_LIVE, 8 bits. Reset: 0x00. -/
  repLive : BitVec 8
  /-- R308. MEM_STK_CE, 32 bits. Reset: 0x0000_0000. -/
  ce : BitVec 32
  /-- R308. MEM_STK_UE.COUNT, 16 bits. Reset: 0x0000. -/
  ue : BitVec 16
  deriving DecidableEq, Repr

/-- A back-invalidate snoop the host has not answered (R305). -/
structure SnoopWait where
  /-- R305. Line number (DPA div 64). Reset: none. -/
  line : Nat
  /-- R305. A write waits (BISnpInv), otherwise a read (BISnpData). Reset: none. -/
  write : Bool
  deriving DecidableEq, Repr

/-- A request to the memory (R290, R295, R304): a read or a write of a sector, an atomic update, or an access of the host,
each with the lanes in error of the sectors it reads. -/
inductive MemReq where
  | read (sector : Nat) (errs : List Nat)
  | write (sector off : Nat) (bytes : List Byte) (poison : Bool) (errs : List Nat)
  | atom (dpa : Nat) (fmt : EFmt) (op : BitVec 3) (value : Nat) (poison : Bool) (errs : List Nat)
  | hostRead (offset : Nat) (cache own : Bool) (errs0 errs1 : List Nat)
  | hostWrite (offset : Nat) (data : List Byte) (poison keep : Bool) (errs : List Nat)
  deriving DecidableEq, Repr

/-- The memory system (R277 to R309). -/
structure MemState where
  /-- R280. HBM by DPA, 1,152,000,000,000 bytes; an unlisted byte reads 0 (R294). Reset: cleared. -/
  hbm : Mem
  /-- R291. Poisoned 32-byte sectors (DPA div 32). Reset: none. -/
  poison : List Nat
  /-- R308. MEM_SCOPE_VER, 32 bits. Reset: 0x0000_0000. -/
  scopeVer : BitVec 32
  /-- R308. MEM_SCOPE_ACT, 16 words of 32 bits. Reset: 0x0000_0000. -/
  scopeAct : Vector Word (2 ^ 4)
  /-- R308. MEM_SCOPE_SHD, 16 words of 32 bits. Reset: 0x0000_0000. -/
  scopeShd : Vector Word (2 ^ 4)
  /-- R308. MEM_SCRUB_CFG, 32 bits. Reset: 0x0000_1801. -/
  scrubCfg : BitVec 32
  /-- R308. MEM_REPAIR_CFG, 32 bits. Reset: 0x0000_1001. -/
  repairCfg : BitVec 32
  /-- R308. The sixteen stacks. Reset: see its lines. -/
  stks : Vector StackState (2 ^ 4)
  /-- R289. Line times of the corrected errors of a lane in the last 1,000,000 ns, by (pseudo-channel x 64 + lane). Reset: none. -/
  laneErr : Sparse (List Nat)
  /-- R277. Pseudo-channels (0 to 1,023) whose spare lane is in use. Reset: none (DESIGN CHOICE 1). -/
  spareUsed : List Nat
  /-- R277, R287. Channels (0 to 511) whose spare command and address lane is in use. Reset: none (DESIGN CHOICE 1). -/
  cmdUsed : List Nat
  /-- R279, R287, R288. The trained parameters saved for a channel (0 to 511): the number of the start that trained it; an
  unlisted one was trained at the last cold start. Reset: none listed. -/
  params : Sparse Nat
  /-- R279, R293. Poisoned sectors of the device-reserved area, by stack x 165,871,616 + sector. Reset: none. -/
  resPoison : List Nat
  /-- R289. Pseudo-channels paused for a live repair, with the lane under repair. Reset: none. -/
  paused : Sparse Nat
  /-- R289. Lanes (pseudo-channel x 64 + lane) that have raised MEM_LANE_NO_SPARE. Reset: none. -/
  noSpare : List Nat
  /-- R305. Lines the host caches, oldest first, with whether it holds them modified. Reset: none. -/
  snoop : List (Nat × Bool)
  /-- R305. Device accesses that wait for a snoop response. Reset: none. -/
  snoopWait : List SnoopWait
  /-- R301. HBM bytes borrowed from neighbouring modules (module x 2^41 + address). Reset: none. -/
  lent : Mem
  /-- R187. Poisoned 32-byte sectors of borrowed HBM, by number. Reset: none. -/
  lentPoison : List Nat
  /-- R187. Poisoned 32-byte sectors of host memory, by number (DEDUCED 23). Reset: none. -/
  hostPoison : List Nat
  /-- R289, R305. Requests that wait for their pseudo-channel, for a snoop, or behind one for the same sector, oldest
  first. Reset: none. -/
  queued : List MemReq
  /-- R301. Modules that reclaim what this module borrows from them. Reset: none. -/
  reclaim : List Nat
  /-- R349. Active placement map. Reset: no tensors. -/
  tensors : List Tensor
  /-- R349. Shadow placement map. Reset: no tensors. -/
  shadow : List Tensor
  /-- R349. The map of the previous version. Reset: no tensors. -/
  previous : List Tensor
  /-- R302. Host memory granted for tier 3: base and length by grant number. Reset: none. -/
  grants : Sparse (Nat × Nat)
  /-- R355. Host memory bytes this model has seen written, by host address. Reset: none. -/
  host : Sparse Byte
  deriving DecidableEq, Repr

def StackState.init : StackState := ⟨true, 96, 0, 0, 0, 0⟩

def MemState.init : MemState where
  hbm := []
  poison := []
  scopeVer := 0
  scopeAct := Vector.replicate _ 0
  scopeShd := Vector.replicate _ 0
  scrubCfg := 0x00001801
  repairCfg := 0x00001001
  stks := Vector.replicate _ StackState.init
  laneErr := []
  spareUsed := []
  cmdUsed := []
  params := []
  resPoison := []
  paused := []
  noSpare := []
  snoop := []
  snoopWait := []
  lent := []
  lentPoison := []
  hostPoison := []
  queued := []
  reclaim := []
  tensors := []
  shadow := []
  previous := []
  grants := []
  host := []

/-! ### Dispatch (R325 to R354) -/

/-- A task entry (R328, R329). -/
structure TaskEntry where
  ctrl : BitVec 32
  size : BitVec 16
  phase : BitVec 16
  tag : BitVec 64
  seed : BitVec 64
  image : BitVec 32
  imglen : BitVec 16
  stlim : BitVec 16
  arg : BitVec 32
  arglen : BitVec 16
  ndesc : BitVec 8
  credits : BitVec 8
  desc : BitVec 32
  plist : BitVec 32
  report : BitVec 32
  after : BitVec 32
  rsvd : BitVec 64
  deriving DecidableEq, Repr

/-- A completion record (R371), but for SQHEAD, HELD and PHASE, which its write supplies. -/
structure CplRec where
  tag : BitVec 64
  task : BitVec 32
  status : Nat
  flags : BitVec 7
  lt : Nat
  cell : CellId
  src : Bool
  attempt : Nat
  deriving DecidableEq, Repr

/-- How far a task has come (R326, R337, R340, R344). -/
inductive Stage where
  | dmq
  | ready
  | placed
  | running
  | ending
  | ended
  deriving DecidableEq, Repr

/-- A task the dispatcher holds (R325 to R350). -/
structure Task where
  /-- R330. Task ID, 32 bits. Reset: no tasks. -/
  id : Nat
  /-- R328. The entry. Reset: no tasks. -/
  entry : TaskEntry
  /-- R327. Source: submission queue 0 to 63, or 64 for the device-made queue. Reset: no tasks. -/
  source : Nat
  /-- R331. The task that made it, 0 for a host task. Reset: no tasks. -/
  parent : Nat
  /-- R347. The host task of its tree. Reset: no tasks. -/
  root : Nat
  /-- R340. Stage. Reset: no tasks. -/
  stage : Stage
  /-- R333. Cells of the consist in member order. Reset: no tasks. -/
  cells : List CellId
  /-- R337. Members whose signal box has loaded them. Reset: no tasks. -/
  loaded : List CellId
  /-- R344. Members that have started in the present attempt. Reset: no tasks. -/
  ran : List CellId
  /-- R340. Members that have not entered IDLE yet. Reset: no tasks. -/
  left : List CellId
  /-- R343. Re-runs made. Reset: no tasks. -/
  attempt : Nat
  /-- R343. Cells the consist must not contain. Reset: no tasks. -/
  excluded : List CellId
  /-- R349. Placement map version sampled. Reset: no tasks. -/
  version : Nat
  /-- R200. Seed in use, 64 bits. Reset: no tasks. -/
  seed : BitVec 64
  /-- R342. Status once an end is under way, 8 bits. Reset: no tasks. -/
  status : Nat
  /-- R344. OR of the flags of R246 over its consists. Reset: no tasks. -/
  flags : BitVec 7
  /-- R347. Credits the tree has left (host task). Reset: no tasks. -/
  credits : Nat
  /-- R344. A descendant ended with a status other than OK (host task). Reset: no tasks. -/
  descFail : Bool
  /-- R343. An ENQ of the task was accepted. Reset: no tasks. -/
  enqed : Bool
  /-- R343. An LATOM, LCOLL or collective part of the task has started. Reset: no tasks. -/
  colled : Bool
  /-- R343. The failure of the present attempt permits a re-run, with the suspect cell. Reset: no tasks. -/
  suspect : Option CellId
  /-- R372. Line times of the start and the end [ns]. Reset: no tasks. -/
  startLt : Nat
  endLt : Nat
  /-- R354. Cell ID of the fault taken, or 0x7FF, and SEQ of the faulting command. Reset: no tasks. -/
  faultCell : CellId
  faultSeq : BitVec 32
  /-- R332, R343. Its place in the ready list: lower is examined earlier. Reset: no tasks. -/
  rank : Int
  /-- R303. Handles of its descriptor list. Reset: no tasks. -/
  named : List Nat
  /-- R370. It ends without a record and without an event. Reset: no tasks. -/
  mute : Bool
  deriving DecidableEq, Repr

/-- The dispatcher and placement service (R325 to R354). -/
structure DspState where
  /-- R326. Tasks held, in the order they entered. Reset: none. -/
  tasks : List Task
  /-- R327. Source that took the last turn. Reset: 64 (DESIGN CHOICE 2). -/
  turn : Nat
  /-- R353. DSP_STATUS.IDLE. Reset: 0. -/
  idle : Bool
  /-- R353. DSP_CFG, 32 bits. Reset: 0x0400_0101. -/
  cfg : BitVec 32
  /-- R353. DSP_PMAP_VER, 32 bits. Reset: 0x0000_0000. -/
  pmapVer : BitVec 32
  /-- R353. DSP_ENQ_REFUSED, 32 bits. Reset: 0x0000_0000. -/
  enqRefused : BitVec 32
  /-- R353. DSP_LAST_TASK, 32 bits. Reset: 0x0000_0000. -/
  lastTask : BitVec 32
  /-- R353. DSP_WAKE_MAX, 32 bits. Reset: 0x0000_0000. -/
  wakeMax : BitVec 32
  /-- R332. The model's count of places given in the ready list. Reset: 0. -/
  ranks : Nat
  /-- R372. Completion records of ended trees and tasks that are not written or held yet, with their queue. Reset: none. -/
  recs : List (Nat × CplRec)
  deriving DecidableEq, Repr

def DspState.init : DspState := ⟨[], 64, false, 0x04000101, 0, 0, 0, 0, 0, []⟩

end Sys2Proof.Machine
end

