-- ==== Sys2Proof/Machine/NetState.lean ====
section
/-!
DEFINITION. The state of the timetable arbiters (R310 to R323), the Morgo and Ethernet ports, the mesh and line time
(R386 to R417), the collectives (R418 to R438) and recovery (R439 to R466).
-/

namespace Sys2Proof.Machine

/-! ### Arbiters -/

/-- One copy of a timetable, its quotas and its background mask (R312, R322). -/
structure Timetable where
  /-- R322. TT_ACT or TT_SHD, 16 words of 32 bits. Reset: R323. -/
  slots : Vector Word (2 ^ 4)
  /-- R322. TT_TOK_ACT or TT_TOK_SHD, 4 words of 32 bits. Reset: R323. -/
  tok : Vector Word (2 ^ 2)
  /-- R322. TT_BG_ACT or TT_BG_SHD, 16 bits. Reset: R323. -/
  bg : BitVec 16
  deriving DecidableEq, Repr

/-- A request in a requester's queue (R311): the requester and, at an HBM pseudo-channel, the bank and the row it needs. -/
structure ArbReq where
  who : BitVec 4
  bank : BitVec 5
  row : BitVec 16
  deriving DecidableEq, Repr

/-- One arbiter (R314): tokens left in the window by requester, lastbg, and the grant not carried out yet. -/
structure Arb where
  /-- R314. Tokens used in the present window by requester. Reset: none. -/
  used : Sparse Nat
  /-- R314. lastbg, 4 bits. Reset: 0xF. -/
  lastbg : BitVec 4
  /-- R319. The grant of the next slot: requester. Reset: none. -/
  grant : Option (BitVec 4)
  /-- R311. The requesters' queues, in the order in which requests were registered. Reset: empty. -/
  queue : List ArbReq
  /-- R284, R313. By bank, its open row and the slot of its activation. Reset: none. -/
  rows : Sparse (BitVec 16 × Nat)
  /-- R284. Slots of the activations of the last 12 ns. Reset: none. -/
  acts : List Nat
  deriving DecidableEq, Repr

/-- A block of arbiters that share a clock and tables (R310, R322). -/
structure ArbBlock where
  /-- R322. TT_VER, 32 bits. Reset: 0x0000_0000. -/
  ver : BitVec 32
  /-- R322. TT_STATUS.PENDING. Reset: 0. -/
  pending : Bool
  /-- R322. TT_STATUS.SLOT, 6 bits. Reset: 0x00. -/
  slot : BitVec 6
  /-- R310. The model's own count of the slots begun. Reset: 0. -/
  count : Nat
  /-- R321. Active copies. Reset: R323. -/
  act : Timetable
  /-- R321. Shadow copies. Reset: R323. -/
  shd : Timetable
  /-- R314. The arbiters by number; an unlisted one is as at reset. Reset: none listed. -/
  arbs : Sparse Arb
  deriving DecidableEq, Repr

def Arb.init : Arb := ⟨[], 0xF, none, [], [], []⟩

/-- The HBM defaults (R323). -/
def Timetable.hbm : Timetable where
  slots := #v[0x1B, 0, 0x18, 0, 0x19, 0, 0x18, 0, 0x1B, 0, 0x18, 0, 0x19, 0, 0x18, 0]
  tok := #v[0x40404040, 0x40404040, 0x40404040, 0x00000840]
  bg := 0x3000

/-- The Morgo egress defaults (R323). -/
def Timetable.morgo : Timetable where
  slots := #v[0x10001014, 0x10001000, 0x10001000, 0x10001000, 0x10001000, 0x10001000, 0x10001000, 0x10001000,
    0x10001000, 0x10001000, 0x10001000, 0x10001000, 0x10001000, 0x10001000, 0x10001000, 0x10001000]
  tok := #v[0x40104040, 0x00000004, 0, 0]
  bg := 0

/-- The reduction-engine defaults (R323). -/
def Timetable.col : Timetable where
  slots := Vector.replicate _ 0
  tok := #v[0x40404040, 0x40404040, 0, 0]
  bg := 0

def ArbBlock.init (t : Timetable) : ArbBlock := ⟨0, false, 0, 0, t, t, []⟩

/-! ### Ports -/

/-- A data frame kept for replay or buffered (R387, R388): virtual channel, SEQ, poison mask and the flit's 256 bytes. -/
structure Flit where
  vc : Bool
  seq : BitVec 12
  pmask : BitVec 32
  data : List Byte
  deriving DecidableEq, Repr

/-- A lane switch agreed and not applied yet (R392): the active lane and the frame SEQ. -/
structure LaneMove where
  lane : BitVec 4
  seq : BitVec 12
  deriving DecidableEq, Repr

/-- A Morgo port (R386 to R400, R416). -/
structure LnkPort where
  /-- R416. LNK_PORT_STATUS.STATE, 4 bits. Reset: 0x0. -/
  state : BitVec 4
  /-- R416. LNK_PORT_STATUS.LEVEL, 4 bits. Reset: 0x0. -/
  level : BitVec 4
  /-- R416. LNK_PORT_STATUS.REASON, 4 bits. Reset: 0x0. -/
  reason : BitVec 4
  /-- R416. LNK_PORT_STATUS.SPARES_TX, 2 bits. Reset: 0. -/
  sparesTx : BitVec 2
  /-- R416. LNK_PORT_STATUS.SPARES_RX, 2 bits. Reset: 0. -/
  sparesRx : BitVec 2
  /-- R416. LNK_PORT_STATUS.LANEMAP, receive direction, 16 bits. Reset: 0x0000. -/
  laneMap : BitVec 16
  /-- R392. Active lanes on a spare in the transmit direction, 16 bits. Reset: 0x0000. -/
  laneMapTx : BitVec 16
  /-- R416. LNK_PORT_ERR.DROP, 8 bits. Reset: 0x00. -/
  drop : BitVec 8
  /-- R416. LNK_PORT_ERR.REPLAY, 8 bits. Reset: 0x00. -/
  replay : BitVec 8
  /-- R416. LNK_PORT_ERR.CORR, 16 bits. Reset: 0x0000. -/
  corr : BitVec 16
  /-- R416. LNK_PLAN_ACT, 32 bits. Reset: 0x0000_0000 (DESIGN CHOICE 1). -/
  planAct : BitVec 32
  /-- R416. LNK_PLAN_SHD, 32 bits. Reset: 0x0000_0000 (DESIGN CHOICE 1). -/
  planShd : BitVec 32
  /-- R416. LNK_PORT_PEER, 32 bits. Reset: 0x0000_0000. -/
  peer : BitVec 32
  /-- R416. LNK_PORT_CFG, 32 bits. Reset: 0x0000_0040. -/
  cfg : BitVec 32
  /-- R388. SEQ expected next, 12 bits. Reset: 0. -/
  rxSeq : BitVec 12
  /-- R388. SEQ of the next data frame sent, 12 bits. Reset: 0. -/
  txSeq : BitVec 12
  /-- R388. Replay buffer of at most 1,024 frames, oldest first. Reset: empty. -/
  buf : List Flit
  /-- R388. Times in a row the oldest frame has been replayed. Reset: 0. -/
  replays : Nat
  /-- R391. Flits received and not forwarded, on VC0 and VC1, at most 512 each. Reset: none. -/
  rx0 : List Flit
  rx1 : List Flit
  /-- R391. Credits held for VC0 and VC1. Reset: 512 each (DEDUCED 20). -/
  cr0 : Nat
  cr1 : Nat
  /-- R392. Line times [ns] of the corrected symbols of a lane in the last 1,000,000 ns. Reset: none. -/
  laneErr : Sparse (List Nat)
  /-- R393. Receive lanes without lock (0 to 15) that are in service. Reset: none. -/
  noLock : List Nat
  /-- R393. Lanes of the receive direction that have lost lock since training. Reset: 0. -/
  lostLock : Nat
  /-- R392. Lane moves of the receive direction in progress. Reset: none. -/
  movesRx : List LaneMove
  /-- R392. Lane moves of the transmit direction in progress. Reset: none. -/
  movesTx : List LaneMove
  /-- R395. Line time [ns] of the last HEARTBEAT received. Reset: 0. -/
  hbAt : Nat
  /-- R395. Line time [ns] of the last HEARTBEAT sent. Reset: 0. -/
  hbSent : Nat
  /-- R395. Hold state in the last HEARTBEAT. Reset: 0. -/
  peerHold : BitVec 4
  /-- R411. Distance to the root the neighbour advertises. Reset: none. -/
  peerDist : Option Nat
  /-- R404. Port states the neighbour reported (PEER_PORTS). Reset: none. -/
  peerPorts : List (BitVec 4)
  /-- R398. A partner has trained. Reset: 0. -/
  trained : Bool
  /-- R398. This end has answered ACCEPT. Reset: 0. -/
  accepted : Bool
  /-- R398. The other end has answered ACCEPT. Reset: 0. -/
  peerAccepted : Bool
  /-- R398. Line time [ns] at which training began. Reset: 0. -/
  trainAt : Nat
  /-- R407. Line time [ns] of the last LNK_TRANSIT_DROP. Reset: none. -/
  dropEvt : Option Nat
  deriving DecidableEq, Repr

/-- A RoCEv2 queue pair (R409). -/
structure QueuePair where
  port : Bool
  peer : Nat
  /-- R529. It is in the error state. -/
  failed : Bool
  deriving DecidableEq, Repr

/-- A memory region of the RDMA engine (R409). -/
structure MemRegion where
  base : Nat
  len : Nat
  key : BitVec 32
  deriving DecidableEq, Repr

/-- RDMA work the reduction engine has posted (R409, R431): identifier, queue pair, and the operation it serves. -/
structure RdmaWork where
  id : Nat
  qp : Nat
  group : Nat
  n : Nat
  slot : Nat
  deriving DecidableEq, Repr

/-- Ports, mesh, Ethernet and line time (R386 to R417). -/
structure LnkState where
  /-- R386. Ports LNK0 to LNK5; entries 6 and 7 name no port. Reset: see its lines. -/
  ports : Vector LnkPort (2 ^ 3)
  /-- R416. LNK_PLAN_VER.VER, 30 bits. Reset: 0. -/
  planVer : BitVec 30
  /-- R416. LNK_PLAN_VER.PENDING. Reset: 0. -/
  planPending : Bool
  /-- R416. LNK_RT_VER.VER, 30 bits. Reset: 0. -/
  rtVer : BitVec 30
  /-- R416. LNK_RT_VER.COPY. Reset: 0. -/
  rtCopy : Bool
  /-- R416. LNK_RT_INDEX.BLOCK, 10 bits. Reset: 0x000. -/
  rtIndex : BitVec 10
  /-- R404. Module ID for which both copies were filled in dimension order. Reset: 0x0000 (DESIGN CHOICE 1). -/
  rtBase : BitVec 15
  /-- R406. Copy 0, written blocks of eight entries; an unlisted block is as filled in dimension order. Reset: none. -/
  rt0 : Sparse Word
  /-- R406. Copy 1, as copy 0. Reset: none. -/
  rt1 : Sparse Word
  /-- R416. LNK_LT_STATUS.STATE, 4 bits. Reset: 0x0. -/
  ltState : BitVec 4
  /-- R416. LNK_LT_STATUS.PARENT, 3 bits. Reset: 0. -/
  ltParent : BitVec 3
  /-- R416. LNK_LT_STATUS.DIST, 6 bits. Reset: 0x00. -/
  ltDist : BitVec 6
  /-- R416. LNK_LT_STATUS.OFFSET [1/8 ns], 16 bits. Reset: 0x0000. -/
  ltOffset : BitVec 16
  /-- R416. LNK_LT_ROOT, 32 bits. Reset: 0x7FFF_7FFF. -/
  ltRoot : BitVec 32
  /-- R411. Rate correction [ppm], signed. Reset: 0. -/
  ltRate : Int
  /-- R411. Line time the rate correction has added and not applied yet [1e-6 of 1/8 ns]. Reset: 0. -/
  ltFrac : Nat
  /-- R411. t1 of the LT_SYNC sent and not answered [1/8 ns]. Reset: none. -/
  ltSent : Option Nat
  /-- R411. Lane delay difference by port [1/8 ns], signed. Reset: 0. -/
  ltAsym : Sparse Int
  /-- R395. Line time [ns] at which the last probe returned. Reset: 0. -/
  wdFed : Nat
  /-- R395. Probes sent and not returned. Reset: 0. -/
  probes : Nat
  /-- R395. The watchdog has expired. Reset: 0. -/
  wdExpired : Bool
  /-- R416. LNK_ETH_STATUS.REFUSED, 8 bits. Reset: 0x00. -/
  ethRefused : BitVec 8
  /-- R416. LNK_ETH_STATUS.SPEED0, 2 bits. Reset: 0. -/
  speed0 : BitVec 2
  /-- R416. LNK_ETH_STATUS.SPEED1, 2 bits. Reset: 0. -/
  speed1 : BitVec 2
  /-- R408. Priorities paused on ETH0, 8 bits. Reset: 0x00. -/
  pause0 : BitVec 8
  /-- R408. Priorities paused on ETH1, 8 bits. Reset: 0x00. -/
  pause1 : BitVec 8
  /-- R408. Rate reductions in force by queue pair. Reset: none. -/
  cnp : Sparse Nat
  /-- R409. Queue pairs by number. Reset: none. -/
  qps : Sparse QueuePair
  /-- R409. Memory regions by number. Reset: none. -/
  regions : Sparse MemRegion
  /-- R409. RDMA work posted and not completed. Reset: none. -/
  work : List RdmaWork
  /-- R444. Keys (ORIGIN, OSEQ) of the last 256 HOLD messages, newest first. Reset: none. -/
  holdKeys : List (Nat × Nat)
  deriving DecidableEq, Repr

def LnkPort.init : LnkPort where
  state := 0
  level := 0
  reason := 0
  sparesTx := 0
  sparesRx := 0
  laneMap := 0
  laneMapTx := 0
  drop := 0
  replay := 0
  corr := 0
  planAct := 0
  planShd := 0
  peer := 0
  cfg := 0x40
  rxSeq := 0
  txSeq := 0
  buf := []
  replays := 0
  rx0 := []
  rx1 := []
  cr0 := 512
  cr1 := 512
  laneErr := []
  noLock := []
  lostLock := 0
  movesRx := []
  movesTx := []
  hbAt := 0
  hbSent := 0
  peerHold := 0
  peerDist := none
  peerPorts := []
  trained := false
  accepted := false
  peerAccepted := false
  trainAt := 0
  dropEvt := none

def LnkState.init : LnkState where
  ports := Vector.replicate _ LnkPort.init
  planVer := 0
  planPending := false
  rtVer := 0
  rtCopy := false
  rtIndex := 0
  rtBase := 0
  rt0 := []
  rt1 := []
  ltState := 0
  ltParent := 0
  ltDist := 0
  ltOffset := 0
  ltRoot := 0x7FFF7FFF
  ltRate := 0
  ltFrac := 0
  ltSent := none
  ltAsym := []
  wdFed := 0
  probes := 0
  wdExpired := false
  ethRefused := 0
  speed0 := 0
  speed1 := 0
  pause0 := 0
  pause1 := 0
  cnp := []
  qps := []
  regions := []
  work := []
  holdKeys := []

/-! ### Collectives -/

/-- A group-table entry (R421): header words 0 to 15, member word i at 16 + i; an unlisted word is 0. -/
abbrev GEntry := Sparse Word

/-- Where a local contribution comes from (R424, R452): a fused part or an LCOLL of a cell, or firmware's job-epoch
reduction. -/
inductive Origin where
  | part (cell : CellId)
  | lcoll (cell : CellId)
  | epoch
  deriving DecidableEq, Repr

/-- A local contribution to an operation (R424). -/
structure Contribution where
  origin : Origin
  /-- SEQ of its command. -/
  seq : BitVec 32
  /-- COP and CFN. -/
  cop : Nat
  cfn : Nat
  group : Nat
  /-- Descriptors of its source and of its result, with their companions. -/
  src : QWord
  srcE : QWord
  dst : QWord
  dstE : QWord
  slot : Nat
  /-- R241. Its region has been overwritten, so the results of its collective are undefined. -/
  wild : Bool
  deriving DecidableEq, Repr

/-- An operation in a slot of the reduction buffer (R424, R427). -/
structure ColOp where
  /-- R421. Group. Reset: none. -/
  group : Nat
  /-- R424. The entry sampled at admission. Reset: none. -/
  entry : GEntry
  /-- R424. Slot in LANE mode, 0 in COMBINE mode. Reset: none. -/
  slot : Nat
  /-- R424. n. Reset: none. -/
  n : Nat
  /-- R425. COP, CFN and element format code. Reset: none. -/
  cop : Nat
  cfn : Nat
  fmt : Nat
  /-- R425. Rows of a contribution and bytes of a row. Reset: none. -/
  rows : Nat
  rowBytes : Nat
  /-- R433. Local parts that have not completed. Reset: none. -/
  parts : List Contribution
  /-- R419. Slots that have contributed. Reset: none. -/
  arrived : Nat
  /-- R427. The data in the slot, with its poison by byte. Reset: none. -/
  data : List (Byte × Bool)
  /-- R430. Bytes received, by ((phase x 4 + stage) x 8192 + ring step). Reset: none. -/
  got : Sparse Nat
  /-- R430. Stage of the schedule in progress. Reset: none. -/
  pos : Nat
  /-- R430. Ring steps sent in it. Reset: none. -/
  sent : Nat
  /-- R430. Stages whose scatter has been sent (BROADCAST). Reset: none. -/
  cast : List Nat
  /-- R432. DATA packets sent and not acknowledged. Reset: none. -/
  unacked : Nat
  /-- R433. Line time [ns] since which it waits for a contribution. Reset: none. -/
  since : Nat
  deriving DecidableEq, Repr

/-- The header of a collective packet (R432). -/
structure ColHdr where
  src : Nat
  group : Nat
  ver : Nat
  n : Nat
  gather : Bool
  code : Nat
  step : Nat
  slot : Nat
  deriving DecidableEq, Repr

/-- A DATA packet that has arrived (R432): its header, OFFSET, and bytes with their poison. -/
structure EarlyData where
  hdr : ColHdr
  offset : Nat
  bytes : List (Byte × Bool)
  deriving DecidableEq, Repr

/-- Collectives (R418 to R438). -/
structure ColState where
  /-- R437. COL_CFG, 32 bits. Reset: 0x0005_07D0. -/
  cfg : BitVec 32
  /-- R437. COL_GT_VER, 32 bits. Reset: 0x0000_0000. -/
  gtVer : BitVec 32
  /-- R437. COL_GT_ADDR, 32 bits. Reset: 0x0000_0000. -/
  gtAddr : BitVec 32
  /-- R437. COL_ERR.LOCAL, TIMEOUT, VERSION and PATH, 8 bits each. Reset: 0x00. -/
  errLocal : BitVec 8
  errTimeout : BitVec 8
  errVersion : BitVec 8
  errPath : BitVec 8
  /-- R423. Active group table; an unlisted entry has mode 0. Reset: none. -/
  active : Sparse GEntry
  /-- R423. Shadow group table. Reset: none. -/
  shadow : Sparse GEntry
  /-- R424. Collectives a slot has issued, by group x 1,024 + slot. Reset: none. -/
  issued : Sparse Nat
  /-- R424. Operations admitted or ended, by group, in the order (n, slot). Reset: none. -/
  turn : Sparse Nat
  /-- R433. Operations ended before their admission: group and place in the order. Reset: none. -/
  dead : List (Nat × Nat)
  /-- R424. Contributions that travel to the engine, oldest first. Reset: none. -/
  coming : List Contribution
  /-- R424. Contributions that wait for admission with their n, in order of arrival. Reset: none. -/
  waiting : List (Contribution × Nat)
  /-- R427. Operations admitted, at most 32. Reset: none. -/
  ops : List ColOp
  /-- R424, R432. DATA packets that wait at the engine's input for their operation's admission, oldest first. Reset: none. -/
  early : List EarlyData
  deriving DecidableEq, Repr

def ColState.init : ColState where
  cfg := 0x000507D0
  gtVer := 0
  gtAddr := 0
  errLocal := 0
  errTimeout := 0
  errVersion := 0
  errPath := 0
  active := []
  shadow := []
  issued := []
  turn := []
  dead := []
  coming := []
  waiting := []
  ops := []
  early := []

/-! ### Recovery -/

/-- A relay operation in progress at this module (R451, R459). -/
structure RelayOp where
  /-- R453. True for REBUILD, false for REFRESH. Reset: none. -/
  rebuild : Bool
  /-- R453. Slice. Reset: none. -/
  slice : Nat
  /-- R453. Epoch, bits [31:0]. Reset: none. -/
  epoch : BitVec 32
  /-- R451. Chunks of the slice this stage has sent or written. Reset: none. -/
  chunk : Nat
  /-- R453. Packets sent and not acknowledged. Reset: none. -/
  unacked : Nat
  deriving DecidableEq, Repr

/-- A REFRESH chunk that has arrived (R451, R453): slice and stage, epoch, chunk of the slice, format level, CRCs, the data
with its poison, and the sender. -/
structure RelayChunk where
  slice : Nat
  stage : Nat
  epoch : BitVec 32
  chunkOff : Nat
  fmt : Nat
  crcs : List Nat
  data : List (Byte × Bool)
  src : Nat
  deriving DecidableEq, Repr

/-- Recovery (R439 to R466). -/
structure RecState where
  /-- R465. COL_JOB, 32 bits. Reset: 0x0000_0000. -/
  job : BitVec 32
  /-- R465. COL_COORD, 32 bits. Reset: 0x7FFF_7FFF. -/
  coord : BitVec 32
  /-- R465. COL_PAR_CFG, 32 bits. Reset: 0x0000_0000. -/
  parCfg : BitVec 32
  /-- R465. COL_PAR_BASE_LO, 32 bits. Reset: 0x0000_0000. -/
  parLo : BitVec 32
  /-- R465. COL_PAR_BASE_HI, 32 bits. Reset: 0x0000_0000. -/
  parHi : BitVec 32
  /-- R465. COL_PAR_SIZE, 32 bits. Reset: 0x0000_0000. -/
  parSize : BitVec 32
  /-- R465. COL_REC_STATUS.STATE, 4 bits. Reset: 0x0. -/
  state : BitVec 4
  /-- R465. COL_REC_STATUS.CAUSE, 4 bits. Reset: 0x0. -/
  cause : BitVec 4
  /-- R465. COL_REC_STATUS.ROUND, 8 bits. Reset: 0x00. -/
  round : BitVec 8
  /-- R465. COL_REC_STATUS.FAILED, 15 bits. Reset: 0x7FFF. -/
  failed : BitVec 15
  /-- R465. COL_REC_LAST.MS, 16 bits. Reset: 0x0000. -/
  lastMs : BitVec 16
  /-- R465. COL_REC_LAST.COUNT, 16 bits. Reset: 0x0000. -/
  count : BitVec 16
  /-- R465. COL_SPARE_ADDR, 8 bits. Reset: 0x00. -/
  spareAddr : BitVec 8
  /-- R465. COL_SPARE_DATA, 256 entries of 32 bits. Reset: 0x0000_0000. -/
  spares : Sparse Word
  /-- R443. OSEQ of the next HOLD or RELEASE this module originates, 8 bits. Reset: 0. -/
  oseq : BitVec 8
  /-- R465. Line time [ns] of the detection of the round. Reset: 0. -/
  detectLt : Nat
  /-- R454. Line time [ns] of this module's own HELD. Reset: 0. -/
  heldLt : Nat
  /-- R447. Failed module IDs of the holds received in the round. Reset: none. -/
  heard : List Nat
  /-- R455. HELD_REPORTs collected: module, COMMITTED. Reset: none. -/
  reports : List (Nat × Nat)
  /-- R455. Line time [ns] of the first report. Reset: none. -/
  firstReport : Option Nat
  /-- R456. Failed set of the present round at the coordinator. Reset: none. -/
  failedSet : List Nat
  /-- R456. Pairs of the latest PLAN: failed position and spare. Reset: none. -/
  pairs : List (Nat × Nat)
  /-- R456. Drop points of the rebuilds of the latest PLAN: spare and module. Reset: none. -/
  drops : List (Nat × Nat)
  /-- R456. J of the latest PLAN. Reset: 0. -/
  epoch : Nat
  /-- R456. READY collected. Reset: none. -/
  readys : List Nat
  /-- R456. Spares whose REBUILT has not come. Reset: none. -/
  rebuilding : List Nat
  /-- R454. This module coordinates the round (it has sent its PLAN). Reset: 0. -/
  planned : Bool
  /-- R454. This module has taken the coordinator's place. Reset: 0. -/
  acting : Bool
  /-- R464. Holds for the job that wait for firmware: cause, failed module ID, detection. Reset: none. -/
  deferred : List (Nat × Nat × Nat)
  /-- R456. The rebuild in progress: failed position and spare. Reset: none. -/
  current : Option (Nat × Nat)
  /-- R463. The RELEASE waits for new route tables. Reset: 0. -/
  releaseDue : Bool
  /-- R459. Line time [ns] at which this module's rebuild began. Reset: 0. -/
  rebuildAt : Nat
  /-- R442. This module raised cause 1 and takes no part. Reset: 0. -/
  selfFailed : Bool
  /-- R445. Saved timetables of the six Morgo egress arbiters. Reset: none. -/
  saved : Option (List Timetable)
  /-- R451. Relay operations in progress. Reset: none. -/
  relays : List RelayOp
  /-- R451. REFRESH chunks that wait until this module's own WRITTEN reaches their epoch. Reset: none. -/
  early : List RelayChunk
  /-- R453. Holder: slices of the present refresh written whole. Reset: none. -/
  slicesDone : List Nat
  /-- R453. CRCs of the members' chunks on a level-2 holder, by member x 2^32 + chunk. Reset: none. -/
  crcs : Sparse Word
  deriving DecidableEq, Repr

def RecState.init : RecState where
  job := 0
  coord := 0x7FFF7FFF
  parCfg := 0
  parLo := 0
  parHi := 0
  parSize := 0
  state := 0
  cause := 0
  round := 0
  failed := 0x7FFF
  lastMs := 0
  count := 0
  spareAddr := 0
  spares := []
  oseq := 0
  detectLt := 0
  heldLt := 0
  heard := []
  reports := []
  firstReport := none
  failedSet := []
  pairs := []
  drops := []
  epoch := 0
  readys := []
  rebuilding := []
  planned := false
  acting := false
  deferred := []
  current := none
  releaseDue := false
  rebuildAt := 0
  selfFailed := false
  saved := none
  relays := []
  early := []
  slicesDone := []
  crcs := []

end Sys2Proof.Machine
end

