-- ==== Sys2Proof/Machine/SysState.lean ====
section
/-!
DEFINITION. The state of the cell pool (R38 to R51, R79), the host interface (R355 to R385), power (R467 to R495),
firmware and starts (R496 to R519), and observation (R520 to R542), with the module's pins (R548 to R552).
-/

namespace Sys2Proof.Machine

/-! ### Cell pool and capability table -/

/-- The cell pool and the capability table (R38 to R51). -/
structure PoolState where
  /-- R48. HIF_CAP_GEN, 32 bits. Reset: 0x0000_0000. -/
  gen : BitVec 32
  /-- R48. HIF_CAP_PART, 32 bits. Reset: 0x0131_2200, a KV8-M1 (DESIGN CHOICE 1). -/
  part : BitVec 32
  /-- R38. Grade: active cells certified. Reset: 1,120 (DESIGN CHOICE 1). -/
  grade : Nat
  /-- R48. HIF_CAP_LEVELS as the table last changed, 32 bits. Reset: 0x3232_2100. -/
  levels : BitVec 32
  /-- R79. Retired-cell list of module flash, newest first. Reset: none (DESIGN CHOICE 1). -/
  flashRetired : List CellId
  /-- R78. Suspect events of module flash: cell, cause, line time [ns], newest first. Reset: none (DESIGN CHOICE 1). -/
  suspectLog : List (CellId × Nat × Nat)
  /-- R79. Retired cells whose spare has been chosen and is not admitted yet, with that spare. Reset: none. -/
  joining : List (CellId × CellId)
  /-- R52. The copy of the capability table as last refreshed, 128 words; empty before a start of the power-on has
  completed. Reset: empty. -/
  copy : List Word
  /-- R517. HIF_CAP_PART, HIF_CAP_CELLS and HIF_CAP_POOL at the last start. Reset: none. -/
  measured : List Word
  deriving DecidableEq, Repr

def PoolState.init : PoolState := ⟨0, 0x01312200, 1120, 0x32322100, [], [], [], [], []⟩

/-! ### Host interface -/

/-- The states of a queue (R362). -/
inductive QState where
  | disabled | active | haltedCpl | haltedFetch | deleting
  deriving DecidableEq, Repr

/-- HIF_Q_STATE.STATE. -/
def QState.code : QState → Nat
  | .disabled => 0 | .active => 1 | .haltedCpl => 2 | .haltedFetch => 3 | .deleting => 4

/-- A queue pair (R361 to R376). -/
structure HostQueue where
  /-- R362. HIF_Q_STATE.STATE. Reset: DISABLED. -/
  state : QState
  /-- R362. HIF_Q_STATE.REASON, 3 bits. Reset: 0. -/
  reason : BitVec 3
  /-- R362. HIF_Q_STATE.VECTOR, 6 bits. Reset: 0. -/
  vector : BitVec 6
  /-- R369. Coalesce count. Reset: 0. -/
  count : Nat
  /-- R369. Coalesce time [us]. Reset: 0. -/
  time : Nat
  /-- R363. Submission ring: base and slots. Reset: 0. -/
  sqBase : Nat
  sqSlots : Nat
  /-- R363. Completion ring: base and slots. Reset: 0. -/
  cqBase : Nat
  cqSlots : Nat
  /-- R365. Hardware tail register, 16 bits. Reset: 0. -/
  tail : BitVec 16
  /-- R351. Tail as the dispatcher last read it, 16 bits. Reset: 0. -/
  seen : BitVec 16
  /-- R362. HIF_Q_PTRS.SQHEAD, 16 bits. Reset: 0x0000. -/
  sqHead : BitVec 16
  /-- R362. HIF_Q_PTRS.CQTAIL, 16 bits. Reset: 0x0000. -/
  cqTail : BitVec 16
  /-- R361. HIF_CQ_HEAD, 16 bits. Reset: 0x0000. -/
  cqHead : BitVec 16
  /-- R371. PHASE. Reset: 0. -/
  phase : Bool
  /-- R372. Overflow ring of at most 4,096 records, oldest first. Reset: empty. -/
  ring : List CplRec
  /-- R373. Records that wait outside the overflow ring, oldest first. Reset: none. -/
  waiting : List CplRec
  /-- R373. HIF_RING_FULL has been raised in this halt or full period. Reset: 0. -/
  fullRaised : Bool
  /-- R374. Records of the last RESUME still to be replayed, and their number. Reset: none. -/
  replay : Nat
  replayed : Nat
  /-- R376. Records written and answered since the vector was last sent. Reset: 0. -/
  since : Nat
  /-- R376. Line time [ns] of the first of them. Reset: 0. -/
  firstAt : Nat
  /-- R352. Line time [ns] of the capture of a doorbell whose entry has not been fetched. Reset: none. -/
  bellAt : Option Nat
  deriving DecidableEq, Repr

/-- A record write the host has not answered (R371, R374, R375): queue 0 to 63, or 64 for the event ring. -/
structure RecWrite where
  queue : Nat
  addr : Nat
  data : List Byte
  /-- Line time [ns] of its issue. -/
  issued : Nat
  /-- The completion record it carries, and whether it came from the overflow ring. -/
  rcd : Option CplRec
  held : Bool
  /-- For the event ring: its event code, and its drop count and first line time when it is HIF_EVT_DROPPED. -/
  code : Nat
  drops : Nat
  dropLt : Nat
  deriving DecidableEq, Repr

/-- A firmware-emulated access that waits (R358): offset, the value of a write, and its arrival [ns]. -/
structure FeAccess where
  offset : Nat
  write : Option (BitVec 32)
  at' : Nat
  deriving DecidableEq, Repr

/-- An entry fetch on its way (R364): source 0 to 63, its issue [ns], and whether its queue has stayed ACTIVE (R367). -/
structure Fetch where
  source : Nat
  issued : Nat
  live : Bool
  deriving DecidableEq, Repr

/-- The host interface (R355 to R385). -/
structure HifState where
  /-- R361. HIF_HWSTAT.FW_UP. Reset: 0. -/
  fwUp : Bool
  /-- R361. HIF_HWSTAT.DEPOT_EXIT. Reset: 0. -/
  depotExit : Bool
  /-- R361. HIF_HWSTAT.ATTACHED. Reset: 0. -/
  attached : Bool
  /-- R361. HIF_HWSTAT.DETACHED. Reset: 0. -/
  detached : Bool
  /-- R361. HIF_HWSTAT.LEASE. Reset: 0. -/
  lease : Bool
  /-- R361. HIF_HWSTAT.START, 3 bits. Reset: 0b001. -/
  start : BitVec 3
  /-- R378. Number of the last lease, 32 bits. Reset: 0. -/
  leaseNo : BitVec 32
  /-- R381. Line time [ns] of the last accepted renewal. Reset: 0. -/
  leaseAt : Nat
  /-- R382. The lease has expired and the detachment has not been carried out. Reset: 0. -/
  expired : Bool
  /-- R361. HIF_HWERR, 3 bits. Reset: 0. -/
  hwerr : BitVec 3
  /-- R361. HIF_LT_HI as latched, 32 bits. Reset: 0x0000_0000. -/
  ltHi : BitVec 32
  /-- R366. Doorbell FIFO of at most 256 entries: queue, INDEX, line time [ns]. Reset: empty. -/
  fifo : List (Nat × BitVec 16 × Nat)
  /-- R366. Overflow map, 64 bits. Reset: 0. -/
  ovf : BitVec 64
  /-- R361. HIF_EV_HEAD, 16 bits. Reset: 0x0000. -/
  evHead : BitVec 16
  /-- R363. The 64 queue pairs. Reset: DISABLED. -/
  queues : Vector HostQueue (2 ^ 6)
  /-- R368. HIF_MB_CTRL.DONE. Reset: 0. -/
  mbDone : Bool
  /-- R368. HIF_MB_CTRL.BUSY. Reset: 0. -/
  mbBusy : Bool
  /-- R368. Request buffer, 256 B; an unlisted byte reads 0. Reset: 0. -/
  mbReq : Mem
  /-- R368. Answer buffer, 256 B; an unlisted byte reads 0. Reset: 0. -/
  mbAns : Mem
  /-- R362. HIF_KHI.IN_USE, 8 bits. Reset: 0x00. -/
  khiInUse : BitVec 8
  /-- R362. HIF_KHI.CUR and PREV, 8 bits each. Reset: 0x02 and 0x01. -/
  khiCur : BitVec 8
  khiPrev : BitVec 8
  /-- R362. HIF_FEAT_DEV, 32 bits. Reset: 0x0000_01FF. -/
  featDev : BitVec 32
  /-- R362. HIF_FEAT_ON, 32 bits. Reset: 0x0000_0000. -/
  featOn : BitVec 32
  /-- R362. HIF_DEV_CAUSE, 5 bits. Reset: 0. -/
  cause : BitVec 5
  /-- R356. MSI-X table, 256 words; an unlisted vector-control word reads 1, another 0 (PRESUMED 21). Reset: none listed. -/
  msix : Sparse Word
  /-- R356. MSI-X pending bits, 64 bits. Reset: 0 (PRESUMED 21). -/
  pba : BitVec 64
  /-- R375. Event ring: base (0 off), slots, lowest severity. Reset: off. -/
  evBase : Nat
  evSlots : Nat
  evSev : Nat
  /-- R375. Slot the next record takes, 16 bits. Reset: 0. -/
  evTail : BitVec 16
  /-- R375. PHASE of the event ring. Reset: 0. -/
  evPhase : Bool
  /-- R375. SEQ of the event ring, 16 bits. Reset: 0. -/
  evSeq : BitVec 16
  /-- R375. Events that wait for the ring, oldest first, with the SEQ-free record each will be. Reset: none. -/
  evQueue : List Event
  /-- R382. Events held for the ring while DETACHED, oldest first. Reset: none. -/
  evHeld : List Event
  /-- R375. Events dropped and not yet reported: count and line time of the first [ns]. Reset: none. -/
  evDrops : Nat
  evDropLt : Nat
  /-- R374. Record writes not answered, oldest first. Reset: none. -/
  writes : List RecWrite
  /-- R358. FE accesses that wait. Reset: none. -/
  fe : List FeAccess
  /-- R364. Entry fetches on their way. Reset: none. -/
  fetches : List Fetch
  /-- R355. The CXL link is up; lanes (16, 8, 4); rate [GT/s]. Reset: up at 16 lanes and 64 GT/s (DESIGN CHOICE 1). -/
  linkUp : Bool
  width : Nat
  rate : Nat
  /-- R550. PERST# is low. Reset: 0 (DESIGN CHOICE 1). -/
  perst : Bool
  deriving DecidableEq, Repr

def HostQueue.init : HostQueue where
  state := .disabled
  reason := 0
  vector := 0
  count := 0
  time := 0
  sqBase := 0
  sqSlots := 0
  cqBase := 0
  cqSlots := 0
  tail := 0
  seen := 0
  sqHead := 0
  cqTail := 0
  cqHead := 0
  phase := false
  ring := []
  waiting := []
  fullRaised := false
  replay := 0
  replayed := 0
  since := 0
  firstAt := 0
  bellAt := none

def HifState.init : HifState where
  fwUp := false
  depotExit := false
  attached := false
  detached := false
  lease := false
  start := 1
  leaseNo := 0
  leaseAt := 0
  expired := false
  hwerr := 0
  ltHi := 0
  fifo := []
  ovf := 0
  evHead := 0
  queues := Vector.replicate _ HostQueue.init
  mbDone := false
  mbBusy := false
  mbReq := []
  mbAns := []
  khiInUse := 0
  khiCur := 2
  khiPrev := 1
  featDev := 0x1FF
  featOn := 0
  cause := 0
  msix := []
  pba := 0
  evBase := 0
  evSlots := 0
  evSev := 0
  evTail := 0
  evPhase := false
  evSeq := 0
  evQueue := []
  evHeld := []
  evDrops := 0
  evDropLt := 0
  writes := []
  fe := []
  fetches := []
  linkUp := true
  width := 16
  rate := 64
  perst := false

/-! ### Power -/

/-- A compute die, or the I/O die as number 8, as the power core sees it (R475 to R478, R494). -/
structure DiePower where
  /-- R494. PWR_DIE_STATUS.TEMP [degrees C], 8 bits. Reset: 60 (DESIGN CHOICE 1). -/
  temp : BitVec 8
  /-- R494. PWR_DIE_STATUS.RAIL [mV], 10 bits. Reset: 650 (DESIGN CHOICE 1). -/
  rail : BitVec 10
  /-- R483. Duty limit the controller set [per cent], 7 bits. Reset: 100 (DESIGN CHOICE 1). -/
  duty : BitVec 7
  /-- R483. HBM burst limit the controller set [per cent], 7 bits. Reset: 100 (DESIGN CHOICE 1). -/
  hbm : BitVec 7
  /-- R475. Rail warning in force. Reset: 0. -/
  railWarn : Bool
  /-- R478. Thermal warning in force. Reset: 0. -/
  thermWarn : Bool
  /-- R478. Thermal throttle in force. Reset: 0. -/
  throttle : Bool
  /-- R488. The hardware limiter limits this die. Reset: 0. -/
  hwLimit : Bool
  /-- R475. Line time [ns] at which the rail warning began, and the lowest rail seen [mV]. Reset: 0. -/
  railAt : Nat
  railLow : Nat
  /-- R478. Line time [ns] at which the thermal warning began, and the highest temperature seen. Reset: 0. -/
  thermAt : Nat
  thermHigh : Nat
  /-- R478. The thermal-trip warning of this episode has been sent. Reset: 0. -/
  tripWarned : Bool
  deriving DecidableEq, Repr

/-- An entry of the cap table (R484): its learned values are free values (log entry 3). -/
structure PhaseEntry where
  tag : BitVec 16
  activity : Nat
  correction : Nat
  next : BitVec 16
  duration : Nat
  deriving DecidableEq, Repr

/-- The rack grant (R481). -/
structure Grant where
  watts : BitVec 12
  seq : BitVec 16
  /-- Line time [ns] at which its lifetime runs out; none for unlimited. -/
  ends : Option Nat
  /-- Lifetime [s] of the message. -/
  life : Nat
  deriving DecidableEq, Repr

/-- The inrush switch (R471, R474). -/
inductive Inrush where
  | opened
  | charging
  | closed
  deriving DecidableEq, Repr

/-- Why the module is in reset with its main power stage off (R476, R478, R511). -/
inductive OffCause where
  | none
  | input
  | rail
  | trip
  | failed
  deriving DecidableEq, Repr

/-- Power, supply and stored energy (R467 to R495). -/
structure PwrState where
  /-- R468. The 12 V input is present. Reset: 1. -/
  aux : Bool
  /-- R468. The main power stage is on. Reset: 1. -/
  main : Bool
  /-- R471. The inrush switch. Reset: closed. -/
  inrush : Inrush
  /-- R468. Line time [ns] since which the 48 V input lies in band without interruption. Reset: 0. -/
  bandFrom : Nat
  /-- R476. Why the main stage is off. Reset: none. -/
  off : OffCause
  /-- R476. Line time [ns] at which it went off. Reset: 0. -/
  offAt : Nat
  /-- R492. A reset of R476 or a thermal trip holds EMERG until the next start completes. Reset: 0. -/
  resetEmerg : Bool
  /-- R513. Line time [ns] at which EMERG last became 0. Reset: 0. -/
  calmFrom : Int
  /-- R475. PWR_STATUS.IN_WARN. Reset: 0. -/
  inWarn : Bool
  /-- R475. Line time [ns] at which it began, and the lowest voltage seen [10 mV]. Reset: 0. -/
  inAt : Nat
  inLow : Nat
  /-- R487. PWR_STATUS.UNTRUSTED. Reset: 0. -/
  untrusted : Bool
  /-- R487. Line time [ns] at which it began. Reset: 0. -/
  untrustedAt : Nat
  /-- R487. Phases whose entries were cleared then. Reset: none. -/
  cleared : List (BitVec 16)
  /-- R488. PWR_STATUS.HWLIMIT. Reset: 0. -/
  hwLimit : Bool
  /-- R480. PWR_STATUS.FALLBACK: a grant has expired. Reset: 0. -/
  fallbackOn : Bool
  /-- R494. PWR_STATUS.PC_UP. Reset: 1. -/
  pcUp : Bool
  /-- R494. PWR_CAP_LOCAL.WATTS as written, 12 bits. Reset: 0x708. -/
  capLocal : BitVec 12
  /-- R494. PWR_FALLBACK.WATTS as written, 12 bits. Reset: 0x4B0. -/
  fallback : BitVec 12
  /-- R494. PWR_CAP_EFF.WATTS, 12 bits. Reset: 0x708. -/
  capEff : BitVec 12
  /-- R494. PWR_CAP_EFF.SOURCE, 2 bits. Reset: 0b00. -/
  effSource : BitVec 2
  /-- R481. The grant applied last. Reset: none. -/
  grant : Option Grant
  /-- R494. PWR_INPUT.VOLT [10 mV], 16 bits. Reset: 4,800 (DESIGN CHOICE 1). -/
  volt : BitVec 16
  /-- R494. PWR_INPUT.WATTS, 12 bits. Reset: 180 (DESIGN CHOICE 1). -/
  watts : BitVec 12
  /-- R493. Energy [mJ], 64 bits. Reset: 0 (DESIGN CHOICE 1). -/
  energy : BitVec 64
  /-- R493. Energy taken in below one millijoule [nJ]. Reset: 0. -/
  energyFrac : Nat
  /-- R494. PWR_ENERGY_HI as latched, 32 bits. Reset: 0. -/
  energyHi : BitVec 32
  /-- R491. Ballast energy since the start, in beats x 74 x (rail in mV)^2. Reset: 0. -/
  ballast : Nat
  /-- R491. Ballast beats of each die when they were last summed. Reset: 0. -/
  ballastSeen : Sparse Nat
  /-- R489. The rails of dies 0 to 7 and the input voltage for which RAMP was last computed. Reset: none. -/
  rampFor : List Nat
  /-- R494. PWR_BALLAST_HI as latched, 32 bits. Reset: 0. -/
  ballastHi : BitVec 32
  /-- R494. PWR_THROTTLE [ms], 32 bits. Reset: 0x0000_0000. -/
  throttleMs : BitVec 32
  /-- R494. Line time [ns] counted into PWR_THROTTLE below one millisecond. Reset: 0. -/
  throttleNs : Nat
  /-- R485. PWR_CAP_VER, 32 bits. Reset: 0x0000_0000. -/
  capVer : BitVec 32
  /-- R485. Active cap table, most recently used first. Reset: empty. -/
  table : List PhaseEntry
  /-- R485. Shadow cap table. Reset: empty. -/
  shadow : List PhaseEntry
  /-- R485. Line time [ns] of the last commit. Reset: 0. -/
  tableAt : Nat
  /-- R483. Line time [ns] of the last control period. Reset: 0. -/
  periodAt : Nat
  /-- R475. Dies 0 to 7 and, as number 8, the I/O die; 9 to 15 name none. Reset: see its lines. -/
  dies : Vector DiePower (2 ^ 4)
  /-- R506. Reset records of module flash: cause (0 input, 1 rail, 2 trip, 3 overvoltage), lowest voltage, line time [ns]. Reset: none. -/
  resets : List (Nat × Nat × Nat)
  deriving DecidableEq, Repr

def DiePower.init : DiePower where
  temp := 60
  rail := 650
  duty := 100
  hbm := 100
  railWarn := false
  thermWarn := false
  throttle := false
  hwLimit := false
  railAt := 0
  railLow := 0
  thermAt := 0
  thermHigh := 0
  tripWarned := false

def PwrState.init : PwrState where
  aux := true
  main := true
  inrush := .closed
  bandFrom := 0
  off := .none
  offAt := 0
  resetEmerg := false
  calmFrom := 0
  inWarn := false
  inAt := 0
  inLow := 0
  untrusted := false
  untrustedAt := 0
  cleared := []
  hwLimit := false
  fallbackOn := false
  pcUp := true
  capLocal := 0x708
  fallback := 0x4B0
  capEff := 0x708
  effSource := 0
  grant := none
  volt := 4800
  watts := 180
  energy := 0
  energyFrac := 0
  energyHi := 0
  ballast := 0
  ballastSeen := []
  rampFor := []
  ballastHi := 0
  throttleMs := 0
  throttleNs := 0
  capVer := 0
  table := []
  shadow := []
  tableAt := 0
  periodAt := 0
  dies := Vector.replicate _ DiePower.init
  resets := []

/-! ### Firmware -/

/-- The kinds of start (R508). -/
inductive StartKind where
  | cold | warm | reload
  deriving DecidableEq, Repr

/-- HIF_HWSTAT.START and FW_STATUS.START. -/
def StartKind.code : StartKind → Nat
  | .cold => 1 | .warm => 2 | .reload => 3

/-- A start request (R507, R509): kind, with HBM clear, naming STAGED. -/
structure StartReq where
  kind : StartKind
  clear : Bool
  staged : Bool
  /-- It came over the side-band. -/
  side : Bool
  deriving DecidableEq, Repr

/-- A start in progress (R508, R511). -/
structure StartRun where
  req : StartReq
  /-- Line time [ns] of its beginning; negative once a cold start has set line time back to 0. -/
  began : Int
  /-- R518. FW_STATUS.STAGE: step of R508. -/
  step : Nat
  /-- R502. Fetch tries made. -/
  tries : Nat
  /-- R502. The last try has failed and the next waits; its line time [ns]. -/
  failedAt : Option Nat
  /-- R511. Line time [ns] at which images were loaded. -/
  loadedAt : Option Nat
  /-- R503. The bundle of STAGED it starts from. -/
  bundle : Option Bundle
  deriving DecidableEq, Repr

/-- An activation of STAGED (R513). -/
structure Activation where
  /-- R513. Line time [ns] of the request. -/
  asked : Int
  /-- R513. FW_UPDATE_DEFERRED has been raised, with its cause. -/
  deferred : Option Nat
  /-- R513. It has begun, at this line time [ns]. -/
  began : Option Nat
  /-- R514. Components handed over: 1 power, 2 dispatcher, 3 cluster, 4 security. -/
  doneTo : Nat
  /-- R515. The component in handover, with the line time [ns] at which its new image was loaded. -/
  inHand : Option Nat
  /-- R519. Handover time of the dispatcher core [ns]. -/
  dspNs : Nat
  deriving DecidableEq, Repr

/-- Firmware, start-up and update (R496 to R519). -/
structure FwState where
  /-- R508. The start in progress. Reset: the cold start, in its last step (DESIGN CHOICE 1). -/
  run : Option StartRun
  /-- R507. Start requests that wait. Reset: none. -/
  waiting : List StartReq
  /-- R518. FW_STATUS.START, 3 bits. Reset: 0b001 (DESIGN CHOICE 1). -/
  start : BitVec 3
  /-- R518. FW_STATUS.DEPOT. Reset: 0 (DESIGN CHOICE 1). -/
  depot : Bool
  /-- R518. FW_STATUS.FAILS, 2 bits. Reset: 0 (DESIGN CHOICE 1). -/
  fails : BitVec 2
  /-- R518. FW_STATUS.STAGE, 5 bits. Reset: 14, the last step (DESIGN CHOICE 1). -/
  stage : BitVec 5
  /-- R518. FW_STATUS.LASTFAIL, 5 bits. Reset: 0 (DESIGN CHOICE 1). -/
  lastFail : BitVec 5
  /-- R518. FW_STATUS.MINKEY, 4 bits. Reset: 0 (DESIGN CHOICE 1). -/
  minKey : BitVec 4
  /-- R518. FW_FLOOR, 32 bits. Reset: 0 (DESIGN CHOICE 1). -/
  floor : BitVec 32
  /-- R501. ACTIVE. Reset: a bundle of SVN 0 (DESIGN CHOICE 1). -/
  active : Bundle
  /-- R501. ACTIVE is marked unusable. Reset: 0. -/
  activeBad : Bool
  /-- R501. STAGED. Reset: empty. -/
  staged : Option Bundle
  /-- R515. STAGED is marked unusable. Reset: 0. -/
  stagedBad : Bool
  /-- R513. Handover format of the running images, 8 bits. Reset: 0 (DESIGN CHOICE 1). -/
  format : BitVec 8
  /-- R518. FW_UPDATE, STATE, COMP and REASON. Reset: 0. -/
  updState : BitVec 4
  updComp : BitVec 4
  updReason : BitVec 8
  /-- R518. FW_UPDATE.DEFER_S, 16 bits. Reset: 0x0000. -/
  deferS : BitVec 16
  /-- R518. FW_LAST_START.MS, 16 bits. Reset: 0x0000. -/
  lastMs : BitVec 16
  /-- R518. FW_LAST_START.COUNT, 16 bits. Reset: 1, the power-on's cold start (DEDUCED 1). -/
  starts : BitVec 16
  /-- R513. The activation asked for. Reset: none. -/
  act : Option Activation
  /-- R498. Halted cores: power, dispatcher, security. Reset: 0. -/
  haltPower : Bool
  haltDisp : Bool
  haltSec : Bool
  /-- R498. Halted cluster control cores, by 9 x die + cluster. Reset: none. -/
  haltBox : List Nat
  /-- R498. Line times [ns] of the halts of the power core. Reset: none. -/
  powerHalts : List Nat
  /-- R549. SLOT_ID as sampled when the always-on domain came up, 3 bits. Reset: 0 (DESIGN CHOICE 1). -/
  slotId : BitVec 3
  /-- R511. Line time [ns] of the last failed start whose retry is due. Reset: none. -/
  retryFrom : Option Nat
  deriving DecidableEq, Repr

def Bundle.first : Bundle := ⟨0, 0, 0, false, false, 0, 0, 2, 1, 0x32322100, 0x1FF, false, false, false, false⟩

def FwState.init : FwState where
  run := some ⟨⟨.cold, false, false, false⟩, 0, 14, 0, none, some 0, none⟩
  waiting := []
  start := 1
  depot := false
  fails := 0
  stage := 14
  lastFail := 0
  minKey := 0
  floor := 0
  active := Bundle.first
  activeBad := false
  staged := none
  stagedBad := false
  format := 0
  updState := 0
  updComp := 0
  updReason := 0
  deferS := 0
  lastMs := 0
  starts := 1
  act := none
  haltPower := false
  haltDisp := false
  haltSec := false
  haltBox := []
  powerHalts := []
  slotId := 0
  retryFrom := none

/-! ### Observation -/

/-- A node of the wait-for graph (R537, R538): cell, kind, index. -/
structure GNode where
  cell : Nat
  kind : Nat
  index : Nat
  detail : Nat
  deriving DecidableEq, Repr

/-- An observed wait of a snapshot (R537): waiter, target, and the cell's completed-command count. -/
structure SnapWait where
  from' : GNode
  target : GNode
  seq : Nat
  deriving DecidableEq, Repr

/-- Observation and stop (R520 to R542). -/
structure DbgState where
  /-- R541. DBG_BRAKE_ACT.BRAKED. Reset: 0. -/
  braked : Bool
  /-- R541. DBG_BRAKE_ACT.SOURCE, 3 bits. Reset: 0b000. -/
  source : BitVec 3
  /-- R541. DBG_BRAKE_LT, 64 bits. Reset: 0. -/
  brakeLt : BitVec 64
  /-- R541. DBG_TRACE_SEL, 32 bits. Reset: 0x0000_0000. -/
  traceSel : BitVec 32
  /-- R541. Entry the trace port has latched, 32 bytes. Reset: 0. -/
  traceEntry : List Byte
  /-- R541. Beats of die n since the cold start, in 1/17,500,000 of a beat; DBG_DIE_BEATS shows 64 bits of the beats.
  Reset: 0. -/
  beats : Vector Nat (2 ^ 3)
  /-- R541. `beats` at the start of the present window of DBG_DIE_RATE, and that line time [ns]. Reset: 0. -/
  beatMark : Vector Nat (2 ^ 3)
  beatAt : Nat
  /-- R541. DBG_DIE_BEATS_HI of die n as latched, 32 bits. Reset: 0. -/
  beatsHi : Vector Word (2 ^ 3)
  /-- R541. DBG_DIE_RATE of die n, 16 bits. Reset: 0x0000. -/
  rate : Vector (BitVec 16) (2 ^ 3)
  /-- R541. DBG_HANG_CFG, 32 bits. Reset: 0x0000_03E8. -/
  hangCfg : BitVec 32
  /-- R541. DBG_HANG_STATUS.GEN, 32 bits of generation. Reset: 0. -/
  gen : BitVec 32
  /-- R541. DBG_HANG_STATUS.CYCLES and DEAD, 8 bits each. Reset: 0x00. -/
  cycles : BitVec 8
  dead : BitVec 8
  /-- R541. DBG_EVT_COUNT.ERR, 16 bits. Reset: 0x0000. -/
  evtErr : BitVec 16
  /-- R541. DBG_EVT_COUNT.WARN, 16 bits. Reset: 0x0000. -/
  evtWarn : BitVec 16
  /-- R537. The first snapshot: line time [ns] and waits. Reset: none. -/
  snap : Option (Nat × List SnapWait)
  /-- R538. The graph image. Reset: empty. -/
  image : List Byte
  /-- R534. Instruction register of the TAP, 8 bits. Reset: 0xFF (DEDUCED 22). -/
  ir : BitVec 8
  /-- R534. The scan address: space, cell, offset. Reset: 0 (DESIGN CHOICE 22). -/
  scanSpace : BitVec 4
  scanCell : CellId
  scanOff : BitVec 32
  /-- R534. The last scan was served. Reset: 0. -/
  scanOk : Bool
  /-- R548. JTAG_TRST# is low: the TAP is held in reset. Reset: 0 (DESIGN CHOICE 1). -/
  trst : Bool
  deriving DecidableEq, Repr

def DbgState.init : DbgState where
  braked := false
  source := 0
  brakeLt := 0
  traceSel := 0
  traceEntry := []
  beats := Vector.replicate _ 0
  beatMark := Vector.replicate _ 0
  beatAt := 0
  beatsHi := Vector.replicate _ 0
  rate := Vector.replicate _ 0
  hangCfg := 0x3E8
  gen := 0
  cycles := 0
  dead := 0
  evtErr := 0
  evtWarn := 0
  snap := none
  image := []
  ir := 0xFF
  scanSpace := 0
  scanCell := 0
  scanOff := 0
  scanOk := false
  trst := false

end Sys2Proof.Machine
end

