-- ==== Sys2Proof/Machine/State.lean ====
section
/-!
DEFINITION. The state of the KV8 as plain data, the state after reset, and the two ways a step can stop.
-/

namespace Sys2Proof.Machine

/-- The KV8 (R1): everything the spec gives the module, the queue of commands that wait, and the model's own counters. -/
structure State where
  /-- The commands that wait, first in, first out. Reset: empty. -/
  pending : List Instr
  /-- The model's own counter of free values used (log entry 3). Reset: 0 (DESIGN CHOICE 3). -/
  free : Nat
  /-- R410. Line time in eighths of a nanosecond. Reset: 0. -/
  lt8 : Nat
  /-- The model's own: nanoseconds an idle step adds to line time (log entry 10). Reset: 1 (DESIGN CHOICE 10). -/
  quantum : Nat
  /-- R516. Event records sent over the side-band, newest first. Reset: none. -/
  events : List Event
  /-- The model's own: answers and messages sent, newest first (log entry 12). Reset: none. -/
  replies : List Reply
  /-- R20. Cells by cell ID; an unlisted one is as `State.cellDefault` says. Reset: none listed. -/
  cells : Sparse CellState
  /-- R161. Signal boxes by 16 x die + cluster; an unlisted one is `BoxState.init`. Reset: none listed. -/
  boxes : Sparse BoxState
  /-- R277. The memory system. Reset: see its lines. -/
  mem : MemState
  /-- R325. Dispatch and placement. Reset: see its lines. -/
  dsp : DspState
  /-- R322. HBM arbiter block. Reset: see its lines. -/
  arbHbm : ArbBlock
  /-- R322. Morgo egress arbiter blocks of ports 0 to 5; entries 6 and 7 name no port. Reset: see its lines. -/
  arbLnk : Vector ArbBlock (2 ^ 3)
  /-- R322. Reduction-engine input arbiter block. Reset: see its lines. -/
  arbCol : ArbBlock
  /-- R386. Ports, mesh and line time. Reset: see its lines. -/
  lnk : LnkState
  /-- R418. Collectives. Reset: see its lines. -/
  col : ColState
  /-- R439. Recovery. Reset: see its lines. -/
  rcv : RecState
  /-- R25. Module ID, 15 bits. Reset: 0x0000 (DESIGN CHOICE 1). -/
  modId : BitVec 15
  /-- R33. Die-to-die links that have failed. Reset: none. -/
  badLinks : List DieLink
  /-- R38. Cell pool and capability table. Reset: see its lines. -/
  pool : PoolState
  /-- R355. Host interface. Reset: see its lines. -/
  hif : HifState
  /-- R467. Power. Reset: see its lines. -/
  pwr : PwrState
  /-- R496. Firmware. Reset: see its lines. -/
  fw : FwState
  /-- R520. Observation and stop. Reset: see its lines. -/
  dbg : DbgState
  deriving DecidableEq, Repr

/-- Why a step stops with a fault. -/
inductive Fault where
  /-- Raised by a command that names a cell, stack, lane, port or address the specification says does not exist; the
  number is the rule that counts the parts (R22, R32, R277, R280, R304, R310, R355, R386, R409, R416, R478, R496). Safe:
  the device has no such part. -/
  | noSuchPart (rule : Nat)
  deriving DecidableEq, Repr

/-- Why a step is refused. -/
inductive Refusal where
  /-- Raised by `exec` alone, for a command that has no meaning yet. Safe: nothing is claimed of it. -/
  | notModelled (mnemonic : String)
  deriving DecidableEq, Repr

/-- A cell nothing has touched (R39): the first 140 cells of each die are active, the others are spares. -/
def State.cellDefault (id : Nat) : CellState :=
  if 16 * (id / 16 % 16) + id % 16 < 140 then CellState.fresh .idle else CellState.fresh .spare

/-- The machine right after reset. -/
def State.reset : State where
  pending := []
  free := 0
  lt8 := 0
  quantum := 1
  events := []
  replies := []
  cells := []
  boxes := []
  mem := MemState.init
  dsp := DspState.init
  arbHbm := ArbBlock.init Timetable.hbm
  arbLnk := Vector.replicate _ (ArbBlock.init Timetable.morgo)
  arbCol := ArbBlock.init Timetable.col
  lnk := LnkState.init
  col := ColState.init
  rcv := RecState.init
  modId := 0
  badLinks := []
  pool := PoolState.init
  hif := HifState.init
  pwr := PwrState.init
  fw := FwState.init
  dbg := DbgState.init

end Sys2Proof.Machine
end

