-- ==== Sys2Proof/Machine/Ops.lean ====
section
/-!
DEFINITION. The named operations over the whole state that the meanings share: cells and boxes, events, suspect events,
and the errors of cell memories on a read.
-/

namespace Sys2Proof.Machine

/-- The outcome of a command. -/
abbrev Out := Host.Outcome State Fault Refusal

/-! ### Time and free values -/

/-- Line time in whole nanoseconds (R410). -/
def State.ns (s : State) : Nat := s.lt8 / 8

/-- Line time runs from step 6 of a cold start until the main power stage goes off (R410, R508). -/
def State.ltRuns (s : State) : Bool :=
  s.pwr.main && match s.fw.run with
    | some r => r.req.kind != .cold || decide (6 < r.step)
    | none => true

/-- Step 11 of a cold start is past (R508, R552): HBM is trained and cleared, and the ports may train. -/
def State.portsOn (s : State) : Bool :=
  s.pwr.main && match s.fw.run with
    | some r => r.req.kind != .cold || decide (11 < r.step)
    | none => true

/-- The level of MOD_READY (R551, R552): high while the main stage is on, the last start has completed, and the module is
not in depot mode; undriven, hence low, without the 12 V input. -/
def State.modReady (s : State) : Bool :=
  s.pwr.aux && s.pwr.main && s.fw.run.isNone && s.fw.stage == 0x1F && !s.fw.depot

/-- Take the next free value (log entry 3). -/
def State.freshNat (s : State) : Nat × State := (Config.freeNat s.free, { s with free := s.free + 1 })

/-- The free byte k places after the next free value (log entry 3). -/
def State.freeByte (s : State) (k : Nat) : Byte := BitVec.ofNat 8 (Config.freeNat (s.free + k))

/-- Take n free values. -/
def State.skipFree (s : State) (n : Nat) : State := { s with free := s.free + n }

/-- What a reader outside the engines sees of bytes: the bits of a poisoned byte are unspecified (R189). -/
def State.seenBytes (s : State) (bs : List (Byte × Bool)) : List Byte × State :=
  if bs.any Prod.snd then (bs.zipIdx.map fun b => if b.1.2 then s.freeByte b.2 else b.1.1, s.skipFree bs.length)
  else (bs.map Prod.fst, s)

/-! ### Cells and signal boxes (R20, R21) -/

/-- The die of a cell. -/
def dieOf (id : CellId) : Nat := id.toNat / 256
/-- The cluster of a cell within its die. -/
def clusterOf (id : CellId) : Nat := id.toNat / 16 % 16
/-- The cell number within its cluster. -/
def cellNo (id : CellId) : Nat := id.toNat % 16
/-- The key of a cell's signal box. -/
def boxOf (id : CellId) : Nat := id.toNat / 16
/-- Whether a cell ID names a physical cell (R20, R22). -/
def cellOk (id : CellId) : Bool := decide (clusterOf id < 9)

/-- A cell the brake stops (R73, R158, R529): its state freezes and its ballast ends. -/
def CellState.stop (c : CellState) : CellState :=
  match c.st with
  | .disabled | .retired | .stopped => c
  | _ => { c with st := .stopped, wasSpare := c.st == .spare, mx := { c.mx with gap := .none } }

/-- Read a cell; one that nothing has touched is stopped with the others while the brake is in force. -/
def State.cell (s : State) (id : CellId) : CellState :=
  let d := State.cellDefault id.toNat
  s.cells.at (if s.dbg.braked then d.stop else d) id.toNat

/-- Write a cell. -/
def State.setCell (s : State) (id : CellId) (c : CellState) : State := { s with cells := s.cells.put id.toNat c }

/-- The cell makes progress at a line time (R536). -/
def CellState.stamp (c : CellState) (ns : Nat) : CellState := { c with ctr := { c.ctr with moved := ns } }

/-- Change a cell. -/
def State.modCell (s : State) (id : CellId) (f : CellState → CellState) : State := s.setCell id (f (s.cell id))

/-- Read a signal box by 16 x die + cluster. -/
def State.box (s : State) (k : Nat) : BoxState := s.boxes.at BoxState.init k

/-- Write a signal box. -/
def State.setBox (s : State) (k : Nat) (b : BoxState) : State := { s with boxes := s.boxes.put k b }

/-- Run a command on a cell that exists; a command that names no physical cell has no part to act on (R22). -/
def withCell (id : CellId) (s : State) (f : State → State) : Out :=
  if cellOk id then .next (f s) else .fault (.noSuchPart 22)

/-- Whether a cell's engines work (R73): it runs or has halted. -/
def CellState.works (c : CellState) : Bool := c.st == .running || c.st == .halted

/-- An event of a cell's engines: nothing happens in a cell that neither runs nor has halted (R73, R529). -/
def withLive (id : CellId) (s : State) (f : State → State) : Out :=
  withCell id s fun s => if (s.cell id).works then f s else s

/-- The line time a cell samples (R120, R410): the module's time with the deviation of its cluster's copy. -/
def State.cellLt (s : State) (id : CellId) : BitVec 64 :=
  BitVec.ofInt 64 (((s.lt8 : Int) + (s.box (boxOf id)).ltDev) / 8)

/-! ### Events (R27, R80) -/

/-- Pack payload fields, each a byte count and a value, from the first payload byte (R80). -/
def pay (l : List (Nat × Nat)) : List Byte := l.flatMap fun (n, v) => leBytes n v

/-- Log an event: the side-band receives every event while the 12 V input is present (R375, R468), and DBG_EVT_COUNT
counts errors and warnings (R541). -/
def State.logEvent (s : State) (e : Event) : State :=
  let d := s.dbg
  let d' := match e.sev with
    | .error => { d with evtErr := satInc d.evtErr }
    | .warning => { d with evtWarn := satInc d.evtWarn }
    | .info => d
  { s with events := e :: s.events, dbg := d' }

/-- Whether a feature is agreed (R379). -/
def HifState.feat (h : HifState) (n : Nat) : Bool := n == 0 || h.featOn.getLsbD n

/-- The event ring has no free slot (R363, R375). -/
def HifState.evFull (h : HifState) : Bool := (h.evTail.toNat + 1) % h.evSlots == h.evHead.toNat

/-- The 32 bytes of an event record (R375). -/
def eventBytes (module : BitVec 15) (e : Event) (phase : Bool) (seq : Nat) : List Byte :=
  leBytes 8 e.lt ++ leBytes 2 e.code.toNat ++ leBytes 1 e.sev.code ++ leBytes 1 (if phase then 1 else 0) ++
    leBytes 2 module.toNat ++ leBytes 2 seq ++ ((e.payload ++ List.replicate 16 0).take 16)

/-- The records the side-band has received, oldest first (R375): PHASE 0, and SEQ counts them. -/
def State.sideRecords (s : State) : List (List Byte) :=
  s.events.reverse.zipIdx.map fun e => eventBytes s.modId e.1 false e.2

/-- Issue the write of a record to the next slot of the event ring. -/
def State.writeEvent (s : State) (e : Event) (drops dropLt : Nat) : State :=
  let h := s.hif
  let w : RecWrite :=
    { queue := 64, addr := h.evBase + 32 * h.evTail.toNat, data := eventBytes s.modId e h.evPhase h.evSeq.toNat
      issued := s.ns, rcd := none, held := false, code := e.code.toNat, drops := drops, dropLt := dropLt }
  { s with hif := { h with writes := h.writes ++ [w] } }

/-- Write what waits for the event ring, one write at a time (R375): while the ring is full, events are counted and not
written; when room returns, HIF_EVT_DROPPED comes first. -/
def State.issueEvent (s : State) : State :=
  let h := s.hif
  if h.evBase = 0 ∨ h.detached ∨ ¬ h.fwUp ∨ h.writes.any (fun w => w.queue == 64) then s
  else if h.evFull then
    match h.evQueue with
    | [] => s
    | e :: _ =>
      { s with hif := { h with evDrops := h.evDrops + h.evQueue.length
                               evDropLt := if h.evDrops = 0 then e.lt else h.evDropLt
                               evQueue := [] } }
  else if 0 < h.evDrops then
    let e : Event := ⟨0x0608, .warning, s.ns, pay [(4, min 0xFFFFFFFF h.evDrops), (8, h.evDropLt)]⟩
    let s1 : State := { s with hif := { h with evDrops := 0, evDropLt := 0 } }
    (s1.logEvent e).writeEvent e h.evDrops h.evDropLt
  else
    match h.evQueue with
    | [] => s
    | e :: rest =>
      let s1 : State := { s with hif := { h with evQueue := rest } }
      s1.writeEvent e 0 0

/-- Offer an event to the host event ring (R375, R379, R382). -/
def State.offerEvent (s : State) (e : Event) : State :=
  let h := s.hif
  if h.evBase = 0 ∨ e.sev.code < h.evSev ∨ ¬ h.feat 5 ∨ (e.code.toNat / 256 = 0x0B ∧ ¬ h.feat 8) then s
  else if h.detached then { s with hif := { h with evHeld := h.evHeld ++ [e] } }
  else
    let s1 : State := { s with hif := { h with evQueue := h.evQueue ++ [e] } }
    s1.issueEvent

/-- Raise an event at the present line time, or with 0 before line time runs (R519). A module without its 12 V input
raises none (R468). -/
def State.raise (s : State) (code : Nat) (sev : Severity) (fields : List (Nat × Nat)) : State :=
  if s.pwr.aux then
    let e : Event := ⟨BitVec.ofNat 16 code, sev, if s.ltRuns then s.ns else 0, pay fields⟩
    (s.logEvent e).offerEvent e
  else s

/-- Send an answer or a message (log entry 12). -/
def State.reply (s : State) (port code : Nat) (nums : List Nat) (data : List Byte := []) : State :=
  { s with replies := ⟨port, code, nums, data⟩ :: s.replies }

/-! ### Interrupts (R376) -/

/-- Send an MSI-X vector, or mark it pending while it is masked (log entry 21); none while DETACHED or without a link. -/
def State.sendVector (s : State) (v : BitVec 6) : State :=
  let h := s.hif
  let n := v.toNat
  if h.detached ∨ ¬ h.linkUp then s
  else if (h.msix.at 1 (4 * n + 3)).getLsbD 0 then { s with hif := { h with pba := h.pba ||| (1 <<< n) } }
  else s.reply 11 n [(h.msix.at 0 (4 * n)).toNat, (h.msix.at 0 (4 * n + 1)).toNat, (h.msix.at 0 (4 * n + 2)).toNat]

/-- Vectors that are unmasked and still pending are sent once the device may send them (R376). -/
def State.sendPending (s : State) : State :=
  ((List.range 64).filter fun n => s.hif.pba.getLsbD n).foldl (fun s n =>
    if s.hif.detached ∨ ¬ s.hif.linkUp ∨ (s.hif.msix.at 1 (4 * n + 3)).getLsbD 0 then s
    else ({ s with hif := { s.hif with pba := s.hif.pba &&& ~~~((1 : BitVec 64) <<< n) } } : State).sendVector (BitVec.ofNat 6 n)) s

/-- Set a bit of HIF_DEV_CAUSE; vector 0 is sent when it goes from 0 to 1 (R376). -/
def State.setCause (s : State) (bit : Nat) : State :=
  if s.hif.cause.getLsbD bit then s
  else
    let s1 : State := { s with hif := { s.hif with cause := s.hif.cause ||| (1 <<< bit) } }
    s1.sendVector 0

/-! ### Suspect events (R77 to R79) -/

/-- The window of R78 [ns]. -/
def suspectWindow : Nat := 86400000000000

/-- Record a suspect event of a cell (R78, R79). -/
def State.suspect (s : State) (id : CellId) (cause : Nat) : State :=
  let c := s.cell id
  let recent := s.ns :: c.ctr.suspects.filter fun t => s.ns ≤ t + suspectWindow
  let c' : CellState :=
    { c with ctr := { c.ctr with suspTotal := satInc c.ctr.suspTotal, suspects := recent }
             retiring := c.retiring || decide (3 ≤ recent.length) }
  let s1 := s.setCell id c'
  let s' : State := { s1 with pool := { s1.pool with suspectLog := (id, cause, s.ns) :: s1.pool.suspectLog } }
  s'.raise 0x0106 .warning [(2, id.toNat), (1, cause), (1, min 3 recent.length)]

/-- Record a suspect event that comes with a fault of its cell (R77, R79): a third one retires the cell from FAULTED. -/
def State.suspectFault (s : State) (id : CellId) (cause : Nat) : State :=
  let old := (s.cell id).retiring
  (s.suspect id cause).modCell id fun c => if c.retiring && !old then { c with retireFault := true } else c

/-! ### Poison consumed (R191, R192) -/

/-- A command consumes poisoned input: the first of the task raises NUM_POISON_CONSUMED (R191). -/
def State.poisonConsumed (s : State) (id : CellId) (engine : Nat) (seq : BitVec 32) : State :=
  let c := s.cell id
  if c.regs.poisonSeen then s
  else
    (s.setCell id { c with regs := { c.regs with poisonSeen := true } }).raise 0x0302 .warning
      [(2, id.toNat), (1, engine), (4, seq.toNat), (4, c.task.id.toNat)]

/-! ### Faults of a cell (R75) -/

/-- What is in progress on a cell is abandoned and its queues are discarded (R75 steps 1 and 2). The instruction that
waited and the repeats of a PUSH stay visible to scan-out (R123). -/
def CellState.abandon (c : CellState) : CellState :=
  { c with
    qmx := EngQueue.empty, qvx := EngQueue.empty, qms := EngQueue.empty, qlk := EngQueue.empty
    mx := { c.mx with hist := [], cmds := [], retry := false, prev := none }
    wb := Vector.replicate _ WbCtx.idle
    handed := [], parts := []
    turns := []
    core := { c.core with enq := none, wait := ⟨0, 0, 0⟩ } }

/-- What clearing a cell does (R75 step 4): queues, semaphores, claims, poison marks and the FAULT field. -/
def CellState.clear (c : CellState) (st : CState) : CellState :=
  { c.abandon with
    st := st, fault := 0, report := false, exc := 0, sems := Vector.replicate _ 0
    retireFault := false
    core := { c.abandon.core with sClaim := 0, pClaim := 0, sMark := 0, pMark := 0, pushed := 0, held := none } }

/-- Count an ENQ refusal of reason 1 to 4 in its byte of DSP_ENQ_REFUSED (R353). -/
def countRefused (w : BitVec 32) (reason : Nat) : BitVec 32 :=
  let lo := 8 * (reason - 1)
  if bitsOf w.toNat (lo + 7) lo = 0xFF then w else w + BitVec.ofNat 32 (2 ^ lo)

/-- The dispatcher discards the request of an ENQ that was abandoned or timed out (R116): a task it accepted never starts,
its credit returns, and the request counts as reason 4. -/
def DspState.discardEnq (d : DspState) (w : EnqWait) : DspState :=
  let d1 : DspState := { d with enqRefused := countRefused d.enqRefused 4 }
  match w.answer with
  | some ⟨true, v⟩ =>
    match d.tasks.find? fun t => t.id = v.toNat with
    | none => d1
    | some t =>
      { d1 with tasks := (d.tasks.filter fun k => k.id ≠ t.id).map fun k =>
                  if k.id = t.root then { k with credits := k.credits + 1 } else k }
  | _ => d1

/-- The ENQ a cell waits in is abandoned (R116, R123). -/
def State.dropEnq (s : State) (id : CellId) : State :=
  match (s.cell id).core.enq with
  | none => s
  | some w => { s with dsp := s.dsp.discardEnq w }

/-- A cell that runs or has halted faults (R75): its work is abandoned, it enters FAULTED, and the first cause is kept
until the fault is handled. -/
def State.rawFault (s : State) (id : CellId) (cause : BitVec 8) : State :=
  let c := s.cell id
  match c.st with
  | .running | .halted => (s.dropEnq id).setCell id { c.abandon with st := .faulted, fault := cause, report := true, exc := 0 }
  | _ => s

/-! ### Errors of the cell store and the data memory on a read (R58, R84) -/

/-- One 32-byte word read with errors in some of its lanes: the event and the suspect event of R58. -/
def State.storeUe (s : State) (id : CellId) (word mask : Nat) : State :=
  (s.raise 0x0105 .error [(2, id.toNat), (4, 32 * word), (1, mask)]).suspect id 2

/-- The words of a list of lanes, each with the mask of its lanes in the list. -/
def laneWords (lanes : List Nat) : List (Nat × Nat) :=
  lanes.foldl (fun (acc : Sparse Nat) l => acc.put (l / 4) (acc.at 0 (l / 4) + 2 ^ (l % 4))) []

/-- A saturating 16-bit addition. -/
def satAdd16 (x : BitVec 16) (n : Nat) : BitVec 16 := BitVec.ofNat 16 (min 0xFFFF (x.toNat + n))

/-- Read lanes of a cell's store: correctable ones are counted, uncorrectable ones become poisoned (R58). -/
def State.touchStore (s : State) (id : CellId) (lanes : List Nat) : State :=
  let c := s.cell id
  let bad := lanes.filter fun l => c.store.ue.contains l
  let ce := (lanes.filter fun l => c.store.ce.contains l).length
  if bad = [] ∧ ce = 0 then s
  else
    let c' : CellState :=
      { c with
        store := { c.store with ue := c.store.ue.filter fun l => !bad.contains l
                                poison := bad.foldl setIns c.store.poison }
        ctr := { c.ctr with ceStore := satAdd16 c.ctr.ceStore ce } }
    (laneWords bad).foldl (fun s w => s.storeUe id w.1 w.2) (s.setCell id c')

/-- Read words of a cell's data memory: correctable ones are counted (R84). -/
def State.touchDmem (s : State) (id : CellId) (words : List Nat) : State :=
  let c := s.cell id
  let ce := (words.filter fun w => c.dmem.ce.contains w).length
  if ce = 0 then s
  else s.setCell id { c with ctr := { c.ctr with ceDmem := satAdd16 c.ctr.ceDmem ce } }

/-! ### Bytes of the cell store with their poison (R187, R190) -/

/-- Bytes of a cell's store, each with the poison of its lane. -/
def StoreState.readP (m : StoreState) (a n : Nat) : List (Byte × Bool) :=
  (List.range n).map fun i => (m.mem.get 0 (a + i), m.poison.contains ((a + i) / 8))

/-- Write one run of bytes as one access: a lane that receives a poisoned byte is poisoned, a lane written whole with
clean bytes is cleared, another keeps its mark (R190). -/
def StoreState.writeP (m : StoreState) (a : Nat) (bs : List (Byte × Bool)) : StoreState :=
  let n := bs.length
  if n = 0 then m
  else
    let ls := lanesOf a n
    let dirty := ls.filter fun l => (bs.zipIdx).any fun (b, i) => b.2 && (a + i) / 8 == l
    let clean := ls.filter fun l => a ≤ 8 * l ∧ 8 * l + 8 ≤ a + n ∧ ¬ dirty.contains l
    let whole := ls.filter fun l => a ≤ 8 * l ∧ 8 * l + 8 ≤ a + n
    { mem := m.mem.write 0 a (bs.map Prod.fst)
      poison := dirty.foldl setIns (m.poison.filter fun l => !clean.contains l)
      ue := m.ue.filter fun l => !whole.contains l
      ce := m.ce.filter fun l => !whole.contains l }

end Sys2Proof.Machine
end

