-- ==== Sys2Proof/Machine/Transfer.lean ====
section
/-!
DEFINITION. Transfers: the placement map (R283, R349), HBM by address with its poison (R280, R291, R292), the paths
between dies (R33, R34), snoops of lines the host caches (R305), atomic updates (R295), and pieces landing.
-/

namespace Sys2Proof.Machine

/-! ### The address map (R280, R281) -/

/-- XOR of the k-bit chunks of x, from bit 0 upward; `n` bounds their number. -/
def foldBits (k : Nat) : Nat → Nat → Nat
  | 0, _ => 0
  | n + 1, x => (x % 2 ^ k) ^^^ foldBits k n (x / 2 ^ k)

/-- Bytes of the device physical address space (R280). -/
def dpaSize : Nat := 1152000000000

/-- The scope code of slab group j in a table of 16 words (R308). -/
def scopeIn (t : Vector Word (2 ^ 4)) (j : Nat) : Nat :=
  ((rget t (BitVec.ofNat 4 (j / 16))).toNat / 4 ^ (j % 16)) % 4

/-- The scope of slab group j in the active table (R281). -/
def MemState.scope (m : MemState) (j : Nat) : Nat := scopeIn m.scopeAct j

/-- Where a DPA lies (R281): stack, pseudo-channel within the stack, bank, row, column. -/
structure Loc where
  stack : Nat
  u : Nat
  bank : Nat
  row : Nat
  col : Nat
  deriving DecidableEq, Repr

/-- The map of R281 for a scope code. -/
def locateIn (scope dpa : Nat) : Loc :=
  let j := dpa / 4608000000
  let r := dpa % 4608000000
  let byte := r % 256
  let q := r / 256
  let n := r / 576000000
  let q2 := (r % 576000000) / 256
  let stack := if scope = 0 then (q % 16) ^^^ foldBits 4 16 (q / 16)
    else if scope = 1 then 2 * n + ((q2 % 2) ^^^ foldBits 1 32 (q2 / 2))
    else r / 288000000
  let i := if scope = 0 then q / 16 else if scope = 1 then q2 / 2 else (r % 288000000) / 256
  let l := 1125000 * j + i
  let w := l / 64
  ⟨stack, (l % 64) ^^^ foldBits 6 12 (l / 64), ((w / 4) % 32) ^^^ ((w / 128) % 32), w / 128, 256 * (w % 4) + byte⟩

/-- Where a DPA lies under the active scope table. -/
def MemState.locate (m : MemState) (dpa : Nat) : Loc := locateIn (m.scope (dpa / 4608000000)) dpa

/-- The pseudo-channel (0 to 1,023) of a sector under the active scope table. -/
def MemState.pchOf (m : MemState) (sector : Nat) : Nat :=
  let l := m.locate (32 * sector)
  64 * l.stack + l.u

/-- The pseudo-channel of a sector is paused for a live repair (R289). -/
def MemState.pausedAt (m : MemState) (sector : Nat) : Bool := (Sparse.find m.paused (m.pchOf sector)).isSome

/-! ### HBM bytes (R291, R292) -/

/-- Read HBM bytes, each with the poison of its sector. -/
def MemState.readHbm (m : MemState) (dpa n : Nat) : List (Byte × Bool) :=
  (List.range n).map fun i => (m.hbm.get 0 (dpa + i), m.poison.contains ((dpa + i) / 32))

/-- The 32-byte sectors a run touches. -/
def sectorsOf (dpa n : Nat) : List Nat :=
  if n = 0 then [] else (List.range ((dpa + n - 1) / 32 + 1 - dpa / 32)).map (· + dpa / 32)

/-- The poisoned sectors after a write (R292): a sector that receives poison is poisoned, one written whole and clean is
cleared, another keeps its mark. -/
def markPoison (p : List Nat) (a : Nat) (bs : List (Byte × Bool)) : List Nat :=
  let n := bs.length
  let ss := sectorsOf a n
  let dirty := ss.filter fun s => (bs.zipIdx).any fun (b, i) => b.2 && (a + i) / 32 == s
  let clean := ss.filter fun s => a ≤ 32 * s ∧ 32 * s + 32 ≤ a + n ∧ ¬ dirty.contains s
  dirty.foldl setIns (p.filter fun s => !clean.contains s)

/-- Write HBM bytes (R292). -/
def MemState.writeHbm (m : MemState) (dpa : Nat) (bs : List (Byte × Bool)) : MemState :=
  { m with hbm := m.hbm.write 0 dpa (bs.map Prod.fst), poison := markPoison m.poison dpa bs }

/-- Read host memory: what this model has seen written, or an unknown byte (log entry 6). -/
def MemState.readHost (m : MemState) (a n : Nat) : List Byte :=
  (List.range n).map fun i => m.host.at (Config.hostByte (a + i)) (a + i)

/-- Write host memory. -/
def MemState.writeHost (m : MemState) (a : Nat) (bs : List (Byte × Bool)) : MemState :=
  { m with host := (bs.zipIdx).foldl (fun (h : Sparse Byte) b => h.put (a + b.2) b.1.1) m.host
           hostPoison := markPoison m.hostPoison a bs }

/-! ### Handles (R283, R349) -/

/-- The tensor a handle names in a placement map; a lost one is not known any more (R301). -/
def tensorIn (l : List Tensor) (h : Nat) : Option Tensor := l.find? fun t => t.handle = h ∧ ¬ t.lost

/-- The placement map of a version a task sampled: the active one, or the one before it. -/
def State.pmap (s : State) (version : Nat) : List Tensor :=
  if version = s.dsp.pmapVer.toNat then s.mem.tensors else s.mem.previous

/-- The map version of a task by its ID; the active one for a task the dispatcher does not hold. -/
def State.taskVersion (s : State) (task : Nat) : Nat :=
  match s.dsp.tasks.find? fun t => t.id = task with
  | some t => t.version
  | none => s.dsp.pmapVer.toNat

/-- Walk extents to an offset: runs of (DPA, length). -/
def extentRuns : List (Nat × Nat) → Nat → Nat → List (Nat × Nat)
  | [], _, _ => []
  | (a, len) :: rest, off, n =>
    if n = 0 then []
    else if len ≤ off then extentRuns rest (off - len) n
    else
      let k := min n (len - off)
      (a + off, k) :: extentRuns rest 0 (n - k)

/-- The runs that n bytes of a tensor at an offset occupy; none beyond its size (R234). -/
def Tensor.runs (t : Tensor) (off n : Nat) : Option (List (Place × Nat)) :=
  if t.size < off + n then none
  else match t.loc with
    | .store c a => some [(.store c (a + off), n)]
    | .hbm ex => some ((extentRuns ex off n).map fun r => (.dev r.1, r.2))
    | .lender k a => some [(.lender (k * 2 ^ 41 + a + off), n)]
    | .host a => some [(.host (a + off), n)]

/-- Read a run. -/
def State.readPlace (s : State) (p : Place) (n : Nat) : List (Byte × Bool) :=
  match p with
  | .store c a => (s.cell (BitVec.ofNat 11 c)).store.readP a n
  | .dev a => s.mem.readHbm a n
  | .lender k => (List.range n).map fun i => (s.mem.lent.get 0 (k + i), s.mem.lentPoison.contains ((k + i) / 32))
  | .host a => ((s.mem.readHost a n).zipIdx).map fun b => (b.1, s.mem.hostPoison.contains ((a + b.2) / 32))

/-- Write a run. -/
def State.writePlace (s : State) (p : Place) (bs : List (Byte × Bool)) : State :=
  match p with
  | .store c a => s.modCell (BitVec.ofNat 11 c) fun k => { k with store := k.store.writeP a bs }
  | .dev a => { s with mem := s.mem.writeHbm a bs }
  | .lender k => 
    { s with mem := { s.mem with lent := s.mem.lent.write 0 k (bs.map Prod.fst)
                                 lentPoison := markPoison s.mem.lentPoison k bs } }
  | .host a => { s with mem := s.mem.writeHost a bs }

/-- Check the lanes of a run for errors before it is read (R58). -/
def State.touchPlace (s : State) (p : Place) (n : Nat) : State :=
  match p with
  | .store c a => if n = 0 then s else s.touchStore (BitVec.ofNat 11 c) (lanesOf a n)
  | _ => s

/-- Read n bytes of a tensor of a placement map; none for an unknown handle or beyond its size. -/
def State.readTensor (s : State) (l : List Tensor) (h off n : Nat) : Option (List (Byte × Bool)) :=
  match tensorIn l h with
  | none => none
  | some t => (t.runs off n).map fun rs => rs.flatMap fun r => s.readPlace r.1 r.2

/-- Check the store lanes of a tensor for errors before it is read (R58). -/
def State.touchTensor (s : State) (l : List Tensor) (h off n : Nat) : State :=
  match tensorIn l h with
  | none => s
  | some t => match t.runs off n with
    | none => s
    | some rs => rs.foldl (fun s r => s.touchPlace r.1 r.2) s

/-- Cut data into the runs of its destination. -/
def cutRuns : List (Place × Nat) → List (Byte × Bool) → List (Place × List (Byte × Bool))
  | [], _ => []
  | (p, n) :: rest, bs => (p, bs.take n) :: cutRuns rest (bs.drop n)

/-- Write bytes of a tensor; none as for a read. -/
def State.writeTensor (s : State) (l : List Tensor) (h off : Nat) (bs : List (Byte × Bool)) : Option State :=
  match tensorIn l h with
  | none => none
  | some t => (t.runs off bs.length).map fun rs => (cutRuns rs bs).foldl (fun s r => s.writePlace r.1 r.2) s

/-! ### Undefined outcomes (R6) -/

/-- HBM after an undefined outcome: any contents, with any poison (R6). -/
def MemState.wild (m : MemState) (n : Nat) : MemState :=
  { m with
    hbm := (Config.wildHbm n).foldl (fun h b => if b.1 < dpaSize then h.put 0 b.1 b.2 else h) m.hbm
    poison := (Config.wildMarks n).foldl (fun p k =>
      if dpaSize ≤ 32 * k then p else if p.contains k then setDel p k else setIns p k) m.poison }

/-- A store after an undefined outcome. -/
def CellState.wildByte (c : CellState) (a : Nat) (b : Byte) : CellState :=
  if a < 0x300000 then { c with store := { c.store with mem := c.store.mem.put 0 a b } } else c

/-- An undefined outcome (R6): the contents of HBM and of the cell stores in reach are free, and nothing else changes, so
the thresholds, the brake, the side-band, the security core and the rollback floor work as before. -/
def State.undefined (s : State) (reach : CellId → Bool) : State :=
  let n := s.free
  let s1 : State := { s with free := s.free + 1, mem := s.mem.wild n }
  (Config.wildStores n).foldl (fun s x => if reach x.1 then s.modCell x.1 fun c => c.wildByte x.2.1 x.2.2 else s) s1

/-- The cells an undefined outcome of a cell's task reaches (R6): those that hold the same task. -/
def State.reachOf (s : State) (id : CellId) (k : CellId) : Bool :=
  cellOk k && (k == id || ((s.cell k).task.id == (s.cell id).task.id && (s.cell id).task.id != 0))

/-- An undefined outcome of a submitter, whose tasks may reach every store and all of HBM (R6); the brake holds (R529). -/
def State.undefinedAll (s : State) : State := if s.dbg.braked then s else s.undefined cellOk

/-- An undefined outcome where a condition holds. -/
def State.undefinedIf (s : State) (p : Bool) : State := if p then s.undefinedAll else s

/-! ### Paths (R33, R34) -/

/-- A node of the package: a compute die, or none for the I/O die. -/
abbrev Node := Option Nat

/-- The node of a place. -/
def State.nodeOf (s : State) (p : Place) : Node :=
  match p with
  | .store c _ => some (c / 256)
  | .dev a => some ((s.mem.locate a).stack / 2)
  | _ => none

/-- The ring link that leaves die n clockwise. -/
def ringLink (n : Nat) : DieLink := .ring (BitVec.ofNat 3 n)
/-- The spoke of die n. -/
def spokeLink (n : Nat) : DieLink := .spoke (BitVec.ofNat 3 n)

/-- The fixed path from one node to another; a corner die's path to or from the I/O die takes the other edge neighbour
when a link of its own path has failed (R33). -/
def routeLinks (bad : List DieLink) : Node → Node → List DieLink
  | some a, some b =>
    let d := (b + 8 - a) % 8
    if d ≤ 4 then (List.range d).map fun k => ringLink (a + k)
    else (List.range (8 - d)).map fun k => ringLink (a + 7 - k)
  | some a, none =>
    if a % 2 = 1 then [spokeLink a]
    else
      let p := [ringLink a, spokeLink (a + 1)]
      if p.any fun l => bad.contains l then [ringLink (a + 7), spokeLink (a + 7)] else p
  | none, some b =>
    if b % 2 = 1 then [spokeLink b]
    else
      let p := [spokeLink (b + 7), ringLink (b + 7)]
      if p.any fun l => bad.contains l then [spokeLink (b + 1), ringLink b] else p
  | none, none => []

/-- Whether a piece on its way crosses a link, in either direction of its handshake. -/
def State.crosses (s : State) (l : DieLink) (p : Piece) : Bool :=
  let a := s.nodeOf p.src
  let b := s.nodeOf p.dst
  (routeLinks s.badLinks a b ++ routeLinks s.badLinks b a).contains l

/-- The path between two nodes has failed: even the fixed path left to it crosses a failed link (R33). -/
def State.pathBad (s : State) (a b : Node) : Bool :=
  s.badLinks.any fun l => (routeLinks s.badLinks a b ++ routeLinks s.badLinks b a).contains l

/-! ### Snoops (R305) -/

/-- The 64-byte lines of a run of HBM. -/
def linesOf (a n : Nat) : List Nat := if n = 0 then [] else (List.range ((a + n - 1) / 64 + 1 - a / 64)).map (· + a / 64)

/-- The lines of HBM that runs reach. -/
def devLines (l : List (Place × Nat)) : List Nat :=
  l.flatMap fun r => match r.1 with | .dev a => linesOf a r.2 | _ => []

/-- Whether the host holds a line in a way that stops a device access: any copy stops a write, a modified one a read. -/
def MemState.snooped (m : MemState) (write : Bool) (line : Nat) : Bool :=
  m.snoop.any fun e => e.1 == line && (write || e.2)

/-- What an access of the device must wait for; none when it may proceed. Snoops it needs are sent (R305), and a
pseudo-channel that is paused takes no request (R289). -/
def State.needSnoops (s : State) (write : Bool) (lines : List Nat) : Option State :=
  let hit := lines.filter fun l => s.mem.snooped write l
  if hit = [] then (if lines.any fun l => s.mem.pausedAt (2 * l) then some s else none)
  else
    let fresh := hit.filter fun l => !(s.mem.snoopWait.any fun w => w.line == l && w.write == write)
    some (fresh.foldl (fun s l =>
      ({ s with mem := { s.mem with snoopWait := s.mem.snoopWait ++ [(⟨l, write⟩ : SnoopWait)] } }).reply 1
        (if write then 1 else 2) [l]) s)

/-- The HBM lines that bytes of a tensor lie in. -/
def tensorLines (l : List Tensor) (h off n : Nat) : List Nat :=
  match tensorIn l h with
  | none => []
  | some t => match t.runs off n with
    | none => []
    | some rs => devLines rs

/-! ### Atomic updates (R295, R296) -/

/-- The result of an atomic operation on the bits of two elements. -/
def atomicOp (f : EFmt) (op : BitVec 3) (old new : Nat) : Nat :=
  match f.ffmt with
  | some l =>
    let a := l.decode old
    let b := l.decode new
    let v := if op = 0 then a.add b else Num.pick (op = 1) a b
    (l.round .rne false 24 0 v).bits
  | none =>
    let a := signedOf f.width old
    let b := signedOf f.width new
    unsignedOf f.width (if op = 0 then a + b else if op = 1 then max a b else min a b)

/-- Apply one element update at its destination: a poisoned operand of either side poisons the whole sector (R296). -/
def State.applyAtom (s : State) (p : AtomPiece) : State :=
  let n := p.fmt.width / 8
  let s := s.touchPlace p.dst n
  let old := s.readPlace p.dst n
  let bad := p.poison || old.any Prod.snd
  s.writePlace p.dst ((leBytes n (atomicOp p.fmt p.op (leNat (old.map Prod.fst)) p.value)).map fun b => (b, bad))

/-- A place n bytes further on. -/
def Place.plus : Place → Nat → Place
  | .store c a, n => .store c (a + n)
  | .dev a, n => .dev (a + n)
  | .lender a, n => .lender (a + n)
  | .host a, n => .host (a + n)

/-- A write to HBM, cut at its sectors. -/
def cutSectors (a : Nat) (bs : List (Byte × Bool)) : List MemReq :=
  (sectorsOf a bs.length).map fun k =>
    let lo := max a (32 * k)
    let d := (bs.drop (lo - a)).take (min (a + bs.length) (32 * k + 32) - lo)
    .write k (lo - 32 * k) (d.map Prod.fst) (d.any Prod.snd) []

/-- Requests wait for their snoops or their pseudo-channel (R289, R305). -/
def State.keepReqs (s : State) (l : List MemReq) : State := { s with mem := { s.mem with queued := s.mem.queued ++ l } }

/-- A write of the device to HBM (R289, R305): it takes effect once the host has given up its lines. -/
def State.putHbm (s : State) (a : Nat) (bs : List (Byte × Bool)) : State :=
  match s.needSnoops true (linesOf a bs.length) with
  | none => s.writePlace (.dev a) bs
  | some s' => s'.keepReqs (cutSectors a bs)

/-- A piece lands. -/
def State.land (s : State) (p : Piece) : State :=
  match p.dst with
  | .dev a => s.putHbm a p.data
  | d => s.writePlace d p.data

/-- An element update of an LATOM reaches its destination (R295, R305). -/
def State.landAtom (s : State) (p : AtomPiece) : State :=
  match p.dst with
  | .dev a =>
    match s.needSnoops true (linesOf a (p.fmt.width / 8)) with
    | none => s.applyAtom p
    | some s' => s'.keepReqs [.atom a p.fmt p.op p.value p.poison []]
  | _ => s.applyAtom p

/-- The writes a context has issued that are not visible yet. -/
def WbCtx.pieces (x : WbCtx) : List Piece := x.out.filterMap fun o => match o with | .inl p => some p | .inr _ => none

/-- Pieces of one write that stand next to each other, joined: a lane they fill together is written whole (R190, R267). -/
def joinPieces : List Piece → List Piece
  | [] => []
  | p :: rest =>
    match joinPieces rest with
    | [] => [p]
    | q :: more =>
      if p.grp = q.grp ∧ p.iaddr = q.iaddr ∧ p.dst.plus p.data.length = q.dst then { p with data := p.data ++ q.data } :: more
      else p :: q :: more

/-- Pieces land in order. -/
def State.landAll (s : State) (l : List Piece) : State := (joinPieces l).foldl State.land s

end Sys2Proof.Machine
end

