-- ==== Sys2Proof/Machine/Route.lean ====
section
/-!
DEFINITION. Routing in the mesh (R404 to R407): route tables as filled in dimension order and as written, the detour rule,
and what this module can reach.
-/

namespace Sys2Proof.Machine

/-- Coordinates of a module ID (R25). -/
def idX (m : Nat) : Nat := m % 16
def idY (m : Nat) : Nat := m / 16 % 16
def idZ (m : Nat) : Nat := m / 256 % 32

/-- The port along an axis from one coordinate towards another, if they differ (R386). -/
def axisPort (axis a b : Nat) : Option Nat := if a = b then none else some (2 * axis + if a < b then 1 else 0)

/-- Ports towards a destination in the axes with remaining distance, in x, y, z order (R405). -/
def towardPorts (own dst : Nat) : List Nat :=
  [axisPort 0 (idX own) (idX dst), axisPort 1 (idY own) (idY dst), axisPort 2 (idZ own) (idZ dst)].filterMap id

/-- Ports of the axes with no remaining distance, in order (R405). -/
def sidePorts (own dst : Nat) : List Nat :=
  (if idX own = idX dst then [0, 1] else []) ++ (if idY own = idY dst then [2, 3] else []) ++
    (if idZ own = idZ dst then [4, 5] else [])

/-- The entry that dimension order gives (R404): 6 for this module itself. -/
def dimEntry (own dst : Nat) : Nat := (towardPorts own dst).head?.getD 6

/-- The block of eight entries that dimension order gives. -/
def dimBlock (own block : Nat) : Word :=
  BitVec.ofNat 32 ((List.range 8).foldl (fun w e => w + 16 ^ e * dimEntry own (8 * block + e)) 0)

/-- A block of a route-table copy (R406). -/
def LnkState.rtBlock (l : LnkState) (copy : Bool) (block : Nat) : Word :=
  Sparse.at (dimBlock (l.rtBase.toNat % 8192) block) (if copy then l.rt1 else l.rt0) block

/-- The entry of a destination (R404). -/
def LnkState.rtEntry (l : LnkState) (copy : Bool) (dst : Nat) : Nat :=
  let i := dst % 8192
  (l.rtBlock copy (i / 8)).toNat / 16 ^ (i % 8) % 16

/-- A port by number. -/
def LnkState.port (l : LnkState) (p : Nat) : LnkPort := rget l.ports (BitVec.ofNat 3 p)

/-- A port is UP (R399). -/
def LnkState.up (l : LnkState) (p : Nat) : Bool := decide (p < 6) && (l.port p).state == 5

/-- What routing decides about a packet (R405): deliver it, send it on a port with a VC, which is also its DET flag, or
drop it for a cause of R417. -/
inductive Hop where
  | deliver
  | send (port : Nat) (vc : Bool)
  | drop (cause : Nat)
  deriving DecidableEq, Repr

/-- A packet leaves on a port, unless it would cross a level-2 link with DET set (R401). -/
def LnkState.sendOn (l : LnkState) (p : Nat) (vc : Bool) : Hop :=
  if vc ∧ (l.port p).level = 2 then .drop 3 else .send p vc

/-- The routing of a packet at this module (R405). -/
def State.route (s : State) (dst : Nat) (copy det : Bool) : Hop :=
  let l := s.lnk
  let own := s.modId.toNat
  if dst = own then .deliver
  else if dst / 8192 ≠ own / 8192 then .drop 0
  else
    let e := l.rtEntry copy dst
    let p := e % 8
    if p = 7 ∨ p = 6 then .drop 0
    else if l.up p then l.sendOn p (det || e / 8 == 1)
    else if det then .drop 1
    else
      match ((towardPorts own dst).filter fun q => q ≠ p).find? l.up with
      | some q => l.sendOn q true
      | none =>
        match (sidePorts own dst).find? l.up with
        | some q => l.sendOn q true
        | none => .drop 0

/-- An Ethernet port has its link (R408, R416). -/
def LnkState.ethUp (l : LnkState) : Bool := l.speed0 != 0 || l.speed1 != 0

/-- A packet injected here for a destination leaves the module (R407), or, for another island, Ethernet carries it. -/
def State.reachable (s : State) (dst : Nat) : Bool :=
  if dst / 8192 ≠ s.modId.toNat / 8192 then s.lnk.ethUp
  else match s.route dst s.lnk.rtCopy false with
    | .drop _ => false
    | _ => true

/-- A place can be reached over the mesh, where a neighbour lends it (R301, R407). -/
def State.hasRoute (s : State) (p : Place) : Bool :=
  match p with
  | .lender a => s.reachable (a / 2 ^ 41)
  | _ => true

/-- A place can be reached from a node: over die-to-die links, over the mesh for a lender's HBM, and over the CXL link for
host memory (R33, R302, R407). -/
def State.reaches (s : State) (n : Node) (p : Place) : Bool :=
  !s.pathBad n (s.nodeOf p) && s.hasRoute p && match p with | .host _ => s.hif.linkUp | _ => true

/-- Bytes of a tensor can be reached from a node (R338); what no map translates fails otherwise. -/
def State.reachesTensor (s : State) (n : Node) (l : List Tensor) (h off len : Nat) : Bool :=
  match tensorIn l h with
  | none => true
  | some t => match t.runs off len with
    | none => true
    | some rs => rs.all fun r => s.reaches n r.1

end Sys2Proof.Machine
end

