-- ==== Sys2Proof/Machine/Collect.lean ====
section
/-!
DEFINITION. The reduction engine (R418 to R435): groups, ranks, rings, the admission of operations, their data and their
ends. `colSettle` ends the operations whose local parts a cell fault or a stop has abandoned (R433).
-/

namespace Sys2Proof.Machine

/-! ### Fault statuses (R247) -/

def stIllegal : Nat := 0x01
def stDesc : Nat := 0x02
def stFormat : Nat := 0x03
def stRange : Nat := 0x04
def stWindow : Nat := 0x05
def stChain : Nat := 0x06
def stNanTrap : Nat := 0x07
def stMxCheck : Nat := 0x08
def stHandle : Nat := 0x09
def stPath : Nat := 0x0A
def stRemote : Nat := 0x0B
def stGroup : Nat := 0x0C
def stHeld : Nat := 0x0D
def stWaybill : Nat := 0x0E

/-- End a command with a fault status (R247, R249, R250): CELL_FAULT_CMD and CELL_FAULT_SEQ keep the first of the task,
the event is raised, and the cell faults. -/
def State.rawCmdFault (s : State) (id : CellId) (queue opc : Nat) (seq : BitVec 32) (status slot : Nat) : State :=
  let c := s.cell id
  let first := c.regs.faultCmd = 0
  let c' : CellState :=
    if first then
      { c with regs := { c.regs with
          faultCmd := BitVec.ofNat 32 (status * 2 ^ 24 + queue * 2 ^ 16 + opc * 2 ^ 10 + slot * 2 ^ 8)
          faultSeq := seq } }
    else c
  ((s.setCell id c').raise 0x010B .error
    [(2, id.toNat), (1, queue), (1, opc), (1, status), (4, seq.toNat), (4, c.task.id.toNat)]).rawFault id 2

/-! ### Group-table entries (R418 to R422) -/

/-- Bits hi to lo of word w of an entry. -/
def GEntry.f (e : GEntry) (w hi lo : Nat) : Nat := bitsOf (Sparse.at 0 e w).toNat hi lo

/-- MODE [1:0]. -/
def GEntry.mode (e : GEntry) : Nat := e.f 1 1 0
/-- MODE [3:2]: 1 is COMBINE. -/
def GEntry.combine (e : GEntry) : Bool := e.f 1 3 2 == 1
/-- MODE [7:4]: the collective level. -/
def GEntry.level (e : GEntry) : Nat := e.f 1 7 4
/-- AXORD: the axes of stages 0 to 2, 3 for none. -/
def GEntry.axord (e : GEntry) : List Nat := [e.f 1 9 8, e.f 1 11 10, e.f 1 13 12]
/-- The named axes in order. -/
def GEntry.axes (e : GEntry) : List Nat := e.axord.filter fun a => a ≠ 3
/-- LSLOTS. -/
def GEntry.lslots (e : GEntry) : Nat := e.f 1 31 16
/-- NWORDS. -/
def GEntry.nwords (e : GEntry) : Nat := e.f 2 15 0
/-- MAXOPS. -/
def GEntry.maxops (e : GEntry) : Nat := e.f 2 23 16
/-- The islands that take part, when there are several. -/
def GEntry.islands (e : GEntry) : List Nat :=
  let l := (List.range 4).filter fun i => (e.f 2 27 24 / 2 ^ i) % 2 = 1
  if l.length < 2 then [] else l
/-- The bounds of an axis. -/
def GEntry.lo (e : GEntry) (axis : Nat) : Nat :=
  match axis with | 0 => e.f 3 7 0 | 1 => e.f 3 23 16 | _ => e.f 4 7 0
def GEntry.hi (e : GEntry) (axis : Nat) : Nat :=
  match axis with | 0 => e.f 3 15 8 | 1 => e.f 3 31 24 | _ => e.f 4 15 8
/-- ROOT_M and ROOT_S. -/
def GEntry.rootM (e : GEntry) : Nat := e.f 4 31 16
def GEntry.rootS (e : GEntry) : Nat := e.f 5 15 0
/-- Member word i. -/
def GEntry.word (e : GEntry) (i : Nat) : Nat := (Sparse.at 0 e (16 + i)).toNat

/-- The member words. -/
def GEntry.words (e : GEntry) : List Nat := (List.range e.nwords).map e.word

/-- A coordinate of a module ID (R25): axis 0 x, 1 y, 2 z. -/
def coordOf (id axis : Nat) : Nat :=
  match axis with | 0 => id % 16 | 1 => id / 16 % 16 | _ => id / 256 % 32

/-- A module ID with one coordinate replaced. -/
def withCoord (id axis v : Nat) : Nat :=
  match axis with
  | 0 => id / 16 * 16 + v
  | 1 => id / 256 * 256 + v * 16 + id % 16
  | _ => id / 8192 * 8192 + v * 256 + id % 256

/-- The module that stands at a position (R422). -/
def GEntry.standIn (e : GEntry) (pos : Nat) : Nat :=
  match e.words.find? fun w => w % 2 ^ 15 = pos with
  | some w => w / 2 ^ 15 % 2 ^ 15
  | none => pos

/-- The position a module holds in an AXES entry (R420, R422): the one it replaces, else its own; none for a module that
has been replaced. -/
def GEntry.position (e : GEntry) (mod : Nat) : Option Nat :=
  match e.words.find? fun w => w / 2 ^ 15 % 2 ^ 15 = mod with
  | some w => some (w % 2 ^ 15)
  | none => if e.words.any fun w => w % 2 ^ 15 = mod then none else some mod

/-- A ring stage of an operation (R429 to R431): its wire code, the members in ring order by offset, this module's
offset, and the module ID that stands at each offset. -/
structure RingStage where
  code : Nat
  order : List Nat
  k : Nat
  ids : List Nat
  deriving DecidableEq, Repr

/-- The order of a loop line (R429): even offsets ascending, then odd offsets descending. -/
def loopOrder (n : Nat) : List Nat :=
  (List.range n).filter (fun k => k % 2 = 0) ++ ((List.range n).filter (fun k => k % 2 = 1)).reverse

/-- Number of members of a stage. -/
def RingStage.n (r : RingStage) : Nat := r.order.length

/-- This module's place in the ring. -/
def RingStage.p (r : RingStage) : Nat := r.order.idxOf r.k

/-- The offset of the member at a ring place, modulo n. -/
def RingStage.at (r : RingStage) (p : Nat) : Nat := (r.order[p % max 1 r.n]?).getD 0

/-- The module ID of the ring successor. -/
def RingStage.next (r : RingStage) : Nat := (r.ids[r.at (r.p + 1)]?).getD 0x7FFF

/-- The stages of an entry at a module, first axis first, the island stage last; none when the module is no member
(R418 to R420, R431). -/
def GEntry.stages (e : GEntry) (mod : Nat) : Option (List RingStage) :=
  let isl : Option (List RingStage) :=
    if e.islands = [] then some []
    else if e.islands.contains (mod / 8192) then
      some [⟨3, List.range e.islands.length, e.islands.idxOf (mod / 8192),
        e.islands.map fun i => i * 8192 + mod % 8192⟩]
    else none
  match e.mode, isl with
  | 1, some island =>
    match e.position mod with
    | none => none
    | some pos =>
      if [0, 1, 2].all fun a => decide (e.lo a ≤ coordOf pos a ∧ coordOf pos a ≤ e.hi a) then
        some ((e.axes.zipIdx.map fun a =>
          let n := e.hi a.1 + 1 - e.lo a.1
          ⟨a.2, loopOrder n, coordOf pos a.1 - e.lo a.1,
            (List.range n).map fun k => e.standIn (withCoord pos a.1 (e.lo a.1 + k))⟩) ++ island)
      else none
  | 2, some island =>
    let ids := e.words.map fun w => w % 2 ^ 15
    if ids.contains mod then some (⟨0, List.range ids.length, ids.idxOf mod, ids⟩ :: island) else none
  | _, _ => none

/-- Members of a group in all, and the member number (R420): the first stage is the most significant digit. -/
def stageCount (l : List RingStage) : Nat := l.foldl (fun a r => a * r.n) 1
def memberOf (l : List RingStage) : Nat := l.foldl (fun a r => a * r.n + r.k) 0

/-- T of R420. -/
def GEntry.ranks (e : GEntry) (l : List RingStage) : Nat :=
  if e.combine then stageCount l * e.lslots else stageCount l

/-- The rank of a slot (R420). -/
def GEntry.rank (e : GEntry) (l : List RingStage) (slot : Nat) : Nat :=
  if e.combine then memberOf l * e.lslots + slot else memberOf l

/-- The digits of a member number. -/
def digitsOf : List RingStage → Nat → List Nat
  | [], _ => []
  | _ :: rest, m => (m / stageCount rest) :: digitsOf rest (m % stageCount rest)

/-- The entry of a group in the active table. -/
def State.group (s : State) (g : Nat) : GEntry := s.col.active.at [] g

/-- The stages of a group at this module. -/
def State.groupStages (s : State) (e : GEntry) : Option (List RingStage) := e.stages s.modId.toNat

/-! ### Combining contributions (R426) -/

/-- The result of an atomic or combining operation on the bits of two elements. -/
def combineBits (f : EFmt) (cfn old new : Nat) : Nat :=
  if cfn = 5 then old ^^^ new
  else if cfn = 6 then old ||| new
  else atomicOp f (BitVec.ofNat 3 cfn) old new

/-- Cut a list into n pieces of k elements. -/
def piecesOf {α : Type} (k : Nat) : Nat → List α → List (List α)
  | 0, _ => []
  | n + 1, l => l.take k :: piecesOf k n (l.drop k)

/-- Combine one element of two contributions; a poisoned side poisons the element. -/
def combineElem (f : EFmt) (cfn : Nat) (a b : List (Byte × Bool)) : List (Byte × Bool) :=
  let p := a.any Prod.snd || b.any Prod.snd
  (leBytes a.length (combineBits f cfn (leNat (a.map Prod.fst)) (leNat (b.map Prod.fst)))).map fun x => (x, p)

/-- Combine a (value, index) pair (R210, R211, R425); a NaN result has the created encoding (R167). -/
def combinePair (f : EFmt) (up : Bool) (a b : List (Byte × Bool)) : List (Byte × Bool) :=
  let val (l : List (Byte × Bool)) := leNat ((l.take 4).map Prod.fst)
  let idx (l : List (Byte × Bool)) := leNat ((l.drop 4).map Prod.fst)
  let pa := (a.take 4).any Prod.snd
  let pb := (b.take 4).any Prod.snd
  let better (x y : Nat) : Bool :=
    match f.ffmt with
    | some l => Num.better up (l.decode x) (l.decode y)
    | none => if up then decide (signedOf 32 y < signedOf 32 x) else decide (signedOf 32 x < signedOf 32 y)
  let takeB :=
    if pa && pb then decide (idx b < idx a)
    else if pa then false
    else if pb then true
    else better (val b) (val a) || (!better (val a) (val b) && decide (idx b < idx a))
  let w0 := if takeB then b else a
  let w := match f.ffmt with
    | some l => if !(pa || pb) && (l.decode (val w0)).isNan then
        (leBytes 4 l.nanBits).map (fun x => (x, false)) ++ w0.drop 4 else w0
    | none => w0
  let ip := (a.drop 4).any Prod.snd || (b.drop 4).any Prod.snd
  (w.take 4).map (fun x => (x.1, pa || pb)) ++ (w.drop 4).map (fun x => (x.1, ip))

/-- Combine two runs of contributions of equal length. -/
def combineData (fmt cfn : Nat) (a b : List (Byte × Bool)) : List (Byte × Bool) :=
  match EFmt.ofCode fmt with
  | none => a
  | some f =>
    let pair := cfn == 3 || cfn == 4
    let k := if pair then 8 else max 1 (f.width / 8)
    let n := (a.length + k - 1) / k
    ((piecesOf k n a).zip (piecesOf k n b)).flatMap fun x =>
      if pair then combinePair f (cfn == 3) x.1 x.2 else combineElem f cfn x.1 x.2

/-- Replace a run of a list. -/
def splice {α : Type} (l : List α) (at' : Nat) (m : List α) : List α := l.take at' ++ m ++ l.drop (at' + m.length)

/-! ### The data of an operation and its schedule (R425, R430) -/

/-- The granule a share may be cut at. -/
def ColOp.granule (o : ColOp) : Nat :=
  if o.cfn = 3 ∨ o.cfn = 4 then 8 else match EFmt.ofCode o.fmt with | some f => max 1 (f.width / 8) | none => 1

/-- Share i of n of a region, cut at granules. -/
def cutShare (g : Nat) (r : Nat × Nat) (n i : Nat) : Nat × Nat :=
  let cut (j : Nat) := r.1 + (r.2 - r.1) * j / n / g * g
  (if i = 0 then r.1 else cut i, if i + 1 = n then r.2 else cut (i + 1))

/-- The bytes of the operation's data. -/
def ColOp.size (o : ColOp) : Nat := o.data.length

/-- The region that stage i of the list splits. -/
def ColOp.region (o : ColOp) (st : List RingStage) (i : Nat) : Nat × Nat :=
  (st.take i).foldl (fun r x => cutShare o.granule r x.n x.k) (0, o.size)

/-- The schedule: (gather phase, index of the stage). -/
def ColOp.schedule (o : ColOp) (st : List RingStage) : List (Bool × Nat) :=
  let up := (List.range st.length).map fun i => (false, i)
  let down := (List.range st.length).reverse.map fun i => (true, i)
  match o.cop with
  | 1 | 4 => up ++ down
  | 2 => up
  | 3 => down
  | _ => []

/-- A share sent to a ring successor (R432). -/
structure ColSend where
  phase : Bool
  stage : Nat
  step : Nat
  lo : Nat
  hi : Nat
  dest : Nat
  deriving DecidableEq, Repr

/-- The share a member sends at step t of a stage: in a reduce-scatter the one of place p - t, in an all-gather the one
of place p - t + 1. -/
def ringShare (r : RingStage) (gather : Bool) (t : Nat) : Nat :=
  r.at (r.p + r.n + (if gather then 1 else 0) - t)

/-- The share that arrives at step t: what the predecessor sends. -/
def ringArrival (r : RingStage) (gather : Bool) (t : Nat) : Nat :=
  r.at (r.p + 2 * r.n + (if gather then 1 else 0) - 1 - t)

/-- The key of a step's byte count. -/
def stepKey (gather : Bool) (code t : Nat) : Nat := ((if gather then 4 else 0) + code) * 8192 + t

/-- The local contributions an operation needs. -/
def ColOp.need (o : ColOp) : Nat := if o.entry.combine then o.entry.lslots else 1

/-- Advance an operation by one send or one stage; none when it waits. -/
def ColOp.advance1 (st : List RingStage) (x : ColOp × List ColSend) : Option (ColOp × List ColSend) :=
  let o := x.1
  if o.arrived < o.need then none
  else
    match (o.schedule st)[o.pos]? with
    | none => none
    | some (g, i) =>
      match st[i]? with
      | none => none
      | some r =>
        let reg := o.region st i
        let len (k : Nat) := let c := cutShare o.granule reg r.n k; c.2 - c.1
        let ready (t : Nat) : Bool := decide (len (ringArrival r g t) ≤ o.got.at 0 (stepKey g r.code t))
        if r.n ≤ 1 then some ({ o with pos := o.pos + 1, sent := 0 }, x.2)
        else if o.sent + 1 < r.n ∧ (o.sent = 0 ∨ ready o.sent) then
          let t := o.sent + 1
          let c := cutShare o.granule reg r.n (ringShare r g t)
          some ({ o with sent := t, unacked := o.unacked + 1 }, x.2 ++ [⟨g, r.code, t, c.1, c.2, r.next⟩])
        else if o.sent + 1 = r.n ∧ ready o.sent then some ({ o with pos := o.pos + 1, sent := 0 }, x.2)
        else none

/-- Whether a BROADCAST holds the root's data: it is the root, or everything has arrived. -/
def ColOp.castReady (o : ColOp) (st : List RingStage) : Bool :=
  o.entry.rootM == memberOf st || decide (o.size ≤ (o.got.map Prod.snd).sum)

/-- The sends of a BROADCAST once its data is here: along every stage whose line this member feeds. -/
def ColOp.castSends (o : ColOp) (st : List RingStage) : List ColSend :=
  let root := digitsOf st o.entry.rootM
  (st.zipIdx).flatMap fun (r, i) =>
    if o.cast.contains i ∨ r.n ≤ 1 then []
    else if (root[i]?).getD 0 = r.k ∧ ((st.zip root).drop (i + 1)).all fun q => q.1.k == q.2 then
      [⟨true, r.code, 1, 0, o.size, r.next⟩]
    else []

/-- Advance an operation as far as it can go (R430). -/
def ColOp.advance (o : ColOp) (st : List RingStage) : ColOp × List ColSend :=
  if o.cop = 5 then
    if o.arrived < o.need ∨ o.castReady st = false then (o, [])
    else
      let l := o.castSends st
      ({ o with cast := List.range st.length, unacked := o.unacked + l.length }, l)
  else iterWhile (ColOp.advance1 st) 100000 (o, [])

/-- Whether an operation is complete at this member (R243, R427). -/
def ColOp.finished (o : ColOp) (st : List RingStage) : Bool :=
  decide (o.need ≤ o.arrived) && o.unacked == 0 &&
    (if o.cop = 5 then o.castReady st else decide ((o.schedule st).length ≤ o.pos))

/-- The STAGE word of R432. -/
def stageWord (gather : Bool) (code step slot : Nat) : Nat :=
  (if gather then 2 ^ 31 else 0) + code * 2 ^ 29 + step % 8192 * 2 ^ 16 + slot

/-- The number of the next RDMA work this module posts. -/
def LnkState.nextWork (l : LnkState) : Nat := l.work.foldl (fun m w => max m (w.id + 1)) 0

/-- Send a DATA packet (R432): answer 4, kind 1. In the island stage it is an RDMA WRITE, which this module posts (R431);
one whose destination cannot be reached is not injected (R407). -/
def State.sendData (s : State) (o : ColOp) (d : ColSend) : State :=
  let bytes := (o.data.drop d.lo).take (d.hi - d.lo)
  let lanes := (List.range ((d.hi - d.lo + 7) / 8)).filter fun l => ((bytes.drop (8 * l)).take 8).any Prod.snd
  if ¬ s.reachable d.dest then s
  else
    let (seen, s) := s.seenBytes bytes
    let s1 : State := if d.stage = 3 then
        { s with lnk := { s.lnk with work := s.lnk.work ++ [⟨s.lnk.nextWork, o.entry.f 6 23 0, o.group, o.n, o.slot⟩] } }
      else s
    s1.reply 4 1 ([o.group, o.entry.f 0 15 0, o.n, stageWord d.phase d.stage d.step o.slot, d.lo / 256, d.dest] ++ lanes)
      seen

/-- Put an operation back after it has advanced, with its sends. -/
def State.colPut (s : State) (o : ColOp) : State :=
  let same (x : ColOp) : Bool := x.group == o.group && x.n == o.n && x.slot == o.slot
  let st := (s.groupStages o.entry).getD []
  let (o', sends) := o.advance st
  let ops := if s.col.ops.any same then s.col.ops.map fun x => if same x then o' else x else s.col.ops ++ [o']
  sends.foldl (fun s d => s.sendData o' d) { s with col := { s.col with ops := ops } }

/-- The operation of a group, count and slot. -/
def ColState.find (c : ColState) (g n slot : Nat) : Option ColOp :=
  c.ops.find? fun o => o.group = g ∧ o.n = n ∧ (o.entry.combine ∨ o.slot = slot)

/-! ### Admission (R424, R427, R428) -/

/-- The place of an operation in its group's order. -/
def GEntry.place (e : GEntry) (n slot : Nat) : Nat := if e.combine then n else n * e.lslots + slot

/-- The element format of a descriptor whose code has been checked. -/
def descFmt (d : QWord) : EFmt := (EFmt.ofCode (dFmt d).toNat).getD .fp32

/-- Bytes of a row of a tensor, and of its companion's row (none when the format has no scales). -/
def elemBytes (d : QWord) : Nat := (descFmt d).rowBytes (dCols d).toNat
def scaleBytes (d : QWord) : Nat := if (descFmt d).scaled then ((dCols d).toNat + 31) / 32 else 0

/-- The cell-store runs of row r of a tensor: its elements, then its scales. -/
def rowRuns (d e : QWord) (r : Nat) : List (Nat × Nat) :=
  ((dOffset d).toNat + r * (dLdim d).toNat, elemBytes d) ::
    (if (descFmt d).scaled then [((dOffset e).toNat + r * (dLdim e).toNat, scaleBytes d)] else [])

/-- The bytes of a cell-store tensor, row by row, each row's elements before its scales. -/
def State.tensorBytes (s : State) (cell : CellId) (d e : QWord) : List (Byte × Bool) :=
  (List.range (dRows d).toNat).flatMap fun r => (rowRuns d e r).flatMap fun x => (s.cell cell).store.readP x.1 x.2

/-- Header words of the protected region (R449). -/
def State.parBase (s : State) : Nat := (s.rcv.parHi.toNat % 512) * 2 ^ 32 + s.rcv.parLo.toNat / 65536 * 65536
def State.headerWord (s : State) (off : Nat) : Nat := s.mem.hbm.readNat 0 (s.parBase + off) 8

/-- Bytes of free value (R6, R241). -/
def State.freeBytes (s : State) (n : Nat) : List (Byte × Bool) × State :=
  ((List.range n).map fun k => (s.freeByte k, false), s.skipFree n)

/-- The data of a local contribution (R428, R452). -/
def State.contribBytes (s : State) (c : Contribution) : List (Byte × Bool) :=
  match c.origin with
  | .part id | .lcoll id => s.tensorBytes id c.src c.srcE
  | .epoch => (leBytes 4 (s.headerWord 8 + 2 ^ 64 - s.headerWord 16)).map fun b => (b, false)

/-- Check the lanes a contribution reads (R58). -/
def State.contribTouch (s : State) (c : Contribution) : State :=
  match c.origin with
  | .part id | .lcoll id =>
    s.touchStore id ((List.range (dRows c.src).toNat).flatMap fun r =>
      (rowRuns c.src c.srcE r).flatMap fun x => lanesOf x.1 x.2)
  | .epoch => s

/-- Whether a slot of this module is a group's root (R425). -/
def GEntry.isRoot (e : GEntry) (st : List RingStage) (slot : Nat) : Bool :=
  e.rootM == memberOf st && (!e.combine || e.rootS == slot)

/-- Whether a contribution's TS is read: in a BROADCAST, only the root's (R425). -/
def State.contribRead (s : State) (c : Contribution) : Bool :=
  c.cop != 5 || (s.group c.group).isRoot ((s.groupStages (s.group c.group)).getD []) c.slot

/-- A local contribution enters its operation's data. -/
def ColOp.enter (o : ColOp) (st : List RingStage) (c : Contribution) (bytes : List (Byte × Bool)) : ColOp :=
  let data :=
    match o.cop with
    | 3 => splice o.data (o.entry.rank st c.slot * (o.rows * o.rowBytes)) bytes
    | 5 => if o.entry.isRoot st c.slot then bytes else o.data
    | _ => if o.arrived = 0 then bytes else combineData o.fmt o.cfn o.data bytes
  { o with data := data, arrived := o.arrived + 1, parts := o.parts ++ [c] }

/-- Operation slots in use: by collectives and by relay operations (R427, R451). -/
def State.slotsHeld (s : State) : Nat := s.col.ops.length + s.rcv.relays.length

/-- The data of a DATA packet enters its operation (R430): added in a reduce-scatter, stored otherwise. -/
def ColOp.take (o : ColOp) (st : List RingStage) (h : ColHdr) (offset : Nat) (bytes : List (Byte × Bool)) : ColOp :=
  let key := stepKey h.gather h.code h.step
  let keep (lo hi : Nat) : ColOp :=
    let a := max lo (256 * offset)
    let bs := bytes.take (hi - a)
    let old := (o.data.drop a).take bs.length
    let new := if h.gather ∨ o.cop = 5 then bs else combineData o.fmt o.cfn old bs
    { o with data := splice o.data a new, got := o.got.put key (o.got.at 0 key + bs.length) }
  if o.cop = 5 then keep 0 o.size
  else
    match st.zipIdx.find? fun r => r.1.code = h.code with
    | none => o
    | some (r, i) =>
      let c := cutShare o.granule (o.region st i) r.n (ringArrival r h.gather h.step)
      keep c.1 c.2

/-- A DATA packet is added or stored in its operation and acknowledged, and the ring goes on (R430, R432). -/
def State.takeData (s : State) (o : ColOp) (d : EarlyData) : State :=
  let o1 := { o.take ((s.groupStages o.entry).getD []) d.hdr d.offset d.bytes with since := s.ns }
  let h := d.hdr
  (s.reply 4 3 [h.group, h.ver, h.n, stageWord h.gather h.code h.step h.slot, d.offset, h.src]).colPut o1

/-- The event of a packet whose version does not match (R435). -/
def State.verEvent (s : State) (h : ColHdr) (mine : Nat) : State :=
  s.raise 0x0804 .warning [(2, h.group), (2, h.ver), (2, mine), (2, h.src)]

/-! ### When an operation cannot finish (R433, R434) -/

/-- Whether the part of a contribution is still in progress. -/
def State.partAlive (s : State) (c : Contribution) : Bool :=
  match c.origin with
  | .part id => (s.cell id).parts.any fun p => p.seq = c.seq
  | .lcoll id => (s.cell id).qlk.run.any fun r => r.cmd.seq = c.seq
  | .epoch => true

/-- End the local part of a contribution with a fault status. -/
def State.endPart (s : State) (c : Contribution) (status : Nat) : State :=
  if s.partAlive c then
    match c.origin with
    | .part id =>
      let opc := match (s.cell id).parts.find? fun p => p.seq = c.seq with | some p => p.opc.toNat | none => 0
      s.rawCmdFault id 5 opc c.seq status 0
    | .lcoll id => s.rawCmdFault id 3 5 c.seq status 0
    | .epoch => s
  else s

/-- Count an ended operation (R437). -/
def ColState.countEnd (c : ColState) (cause : Nat) : ColState :=
  match cause with
  | 0 | 1 => { c with errLocal := satInc c.errLocal }
  | 2 => { c with errTimeout := satInc c.errTimeout }
  | 3 => { c with errVersion := satInc c.errVersion }
  | _ => { c with errPath := satInc c.errPath }

/-- ABORT to the ring successors in every stage (R433): answer 4, kind 2. -/
def State.sendAborts (s : State) (g : Nat) (e : GEntry) (n slot : Nat) : State :=
  ((s.groupStages e).getD []).foldl (fun s r =>
    if r.n ≤ 1 ∨ ¬ s.reachable r.next then s else s.reply 4 2 [g, e.f 0 15 0, n, stageWord false r.code 0 slot, 0, r.next]) s

/-- End an operation in progress (R433): its slot is freed, ABORT goes out, and its local parts end with PATH. -/
def State.endOp (s : State) (o : ColOp) (cause source : Nat) : State :=
  let col := { s.col with ops := s.col.ops.filter fun x => ¬(x.group = o.group ∧ x.n = o.n ∧ x.slot = o.slot) }
  let s1 : State := { s with col := col.countEnd cause }
  let s2 := (s1.sendAborts o.group o.entry o.n o.slot).raise 0x0801 .error
    [(2, o.group), (4, o.n), (2, o.slot), (1, cause), (2, source)]
  o.parts.foldl (fun s c => s.endPart c stPath) s2

/-- End an operation that has not been admitted: its waiting contributions end with PATH, and its turn is passed. -/
def State.endWaiting (s : State) (g n slot cause source : Nat) : State :=
  let e := s.group g
  let mine (w : Contribution × Nat) : Bool := w.1.group == g && e.place w.2 w.1.slot == e.place n slot
  let col := { s.col with waiting := s.col.waiting.filter fun w => !mine w
                          early := s.col.early.filter fun d => !(d.hdr.group == g && e.place d.hdr.n d.hdr.slot == e.place n slot)
                          dead := s.col.dead ++ [(g, e.place n slot)] }
  let s1 : State := { s with col := col.countEnd cause }
  let s2 := (s1.sendAborts g e n slot).raise 0x0801 .error
    [(2, g), (4, n), (2, if e.combine then 0 else slot), (1, cause), (2, source)]
  (s.col.waiting.filter mine).foldl (fun s w => s.endPart w.1 stPath) s2

/-- A DATA packet that waited enters its operation, which has been admitted (R424, R432, R435). -/
def State.enterEarly (s : State) (d : EarlyData) : State :=
  match s.col.find d.hdr.group d.hdr.n d.hdr.slot with
  | none => s
  | some o =>
    if o.entry.f 0 15 0 = d.hdr.ver then s.takeData o d
    else (s.verEvent d.hdr (o.entry.f 0 15 0)).endOp o 3 s.modId.toNat

/-- The DATA packets of admitted operations leave the engine's input. -/
def State.takeEarly (s : State) : State :=
  let due (d : EarlyData) : Bool := (s.col.find d.hdr.group d.hdr.n d.hdr.slot).isSome
  (s.col.early.filter due).foldl State.enterEarly
    { s with col := { s.col with early := s.col.early.filter fun d => !due d } }

/-- Admit one waiting contribution: to its operation in progress, or with the next operation of its group. None when no
contribution can be admitted. -/
def State.admit1 (s : State) : Option State :=
  let fits (w : Contribution × Nat) : Bool :=
    let e := s.group w.1.group
    let held := (s.col.ops.filter fun o => o.group = w.1.group).length
    (s.col.find w.1.group w.2 w.1.slot).isSome ||
      (e.place w.2 w.1.slot == s.col.turn.at 0 w.1.group && decide (s.slotsHeld < 32 ∧ held < e.maxops))
  match s.col.waiting.find? fits with
  | none => none
  | some w =>
    let s0 : State := { s with col := { s.col with waiting := s.col.waiting.erase w } }
    let t := if s.contribRead w.1 then s0.contribTouch w.1 else s0
    let bytes0 := t.contribBytes w.1
    let (bytes, s1) := if w.1.wild then t.freeBytes bytes0.length else (bytes0, t)
    match s1.col.find w.1.group w.2 w.1.slot with
    | some o => some (s1.colPut ((o.enter ((s1.groupStages o.entry).getD []) w.1 bytes)))
    | none =>
      let e := s1.group w.1.group
      let st := (s1.groupStages e).getD []
      let rb := match w.1.origin with
        | .epoch => 4
        | _ => elemBytes w.1.src + scaleBytes w.1.src
      let rows := match w.1.origin with | .epoch => 1 | _ => (dRows w.1.src).toNat
      let fmt := match w.1.origin with | .epoch => 0xA | _ => (dFmt w.1.src).toNat
      let size := if w.1.cop = 3 then e.ranks st * rows * rb else rows * rb
      let o : ColOp :=
        { group := w.1.group, entry := e, slot := if e.combine then 0 else w.1.slot, n := w.2
          cop := w.1.cop, cfn := w.1.cfn, fmt := fmt, rows := rows, rowBytes := rb
          parts := [], arrived := 0, data := List.replicate size (0, false)
          got := [], pos := 0, sent := 0, cast := [], unacked := 0, since := s1.ns }
      let s2 : State := { s1 with col := { s1.col with
        turn := s1.col.turn.put w.1.group (s1.col.turn.at 0 w.1.group + 1) } }
      some (s2.colPut (o.enter st w.1 bytes)).takeEarly

/-- Step a group's turn past operations ended before their admission. -/
def ColState.skipDead (c : ColState) : Option ColState :=
  match c.dead.find? fun d => d.2 = c.turn.at 0 d.1 with
  | none => none
  | some d => some { c with dead := c.dead.erase d, turn := c.turn.put d.1 (d.2 + 1) }

/-- Admit whatever can be admitted. -/
def State.admitAll (s : State) : State :=
  iterWhile (fun s => match s.admit1 with
    | some s' => some s'
    | none => match s.col.skipDead with
      | some c => some { s with col := c }
      | none => none) (s.col.waiting.length + s.col.dead.length) s

/-- Number a contribution: the count of its group and slot (R424). -/
def ColState.number (c : ColState) (x : Contribution) : ColState × Nat :=
  let key := x.group * 1024 + x.slot
  let n := c.issued.at 0 key
  ({ c with issued := c.issued.put key (n + 1) }, n)

/-- End one operation that has lost a local part; none when there is none. -/
def State.settle1 (s : State) : Option State :=
  match s.col.ops.find? fun o => o.parts.any fun c => !s.partAlive c with
  | some o => some (s.endOp o 0 s.modId.toNat)
  | none =>
    match s.col.waiting.find? fun w => !s.partAlive w.1 with
    | some w => some (s.endWaiting w.1.group w.2 w.1.slot 0 s.modId.toNat)
    | none =>
      match s.col.coming.find? fun c => !s.partAlive c with
      | some c =>
        let (col, n) := s.col.number c
        let s1 : State := { s with col := { col with coming := col.coming.erase c } }
        some (match s1.col.find c.group n c.slot with
          | some o => s1.endOp o 0 s.modId.toNat
          | none => s1.endWaiting c.group n c.slot 0 s.modId.toNat)
      | none => none

/-- Whether any operation has lost a local part. -/
def State.colSound (s : State) : Bool :=
  s.col.ops.all (fun o => o.parts.all s.partAlive) && s.col.waiting.all (fun w => s.partAlive w.1) &&
    s.col.coming.all s.partAlive

/-- End every operation that has lost a local part, and let in what waits for a slot (R424, R433). -/
def State.colSettle (s : State) : State :=
  if s.colSound then s
  else (iterWhile State.settle1 (s.col.ops.length + s.col.waiting.length + s.col.coming.length) s).admitAll

/-! ### Results (R425) -/

/-- Write a contributor's result (R425): every row, this rank's share, or nothing. -/
def State.writeResult (s : State) (o : ColOp) (st : List RingStage) (c : Contribution) : State :=
  match c.origin with
  | .epoch => s
  | .part id | .lcoll id =>
    let fused := match c.origin with | .part _ => true | _ => false
    let rank := o.entry.rank st c.slot
    let ranks := o.entry.ranks st
    let share := o.rows / max 1 ranks
    let all := (List.range (o.size / max 1 o.rowBytes)).map fun r => (r, r)
    let rows : List (Nat × Nat) :=
      match o.cop with
      | 2 => (List.range share).map fun r => (rank * share + r, if fused then rank * share + r else r)
      | 4 => if o.entry.isRoot st c.slot then all else []
      | _ => all
    rows.foldl (fun s r =>
      let row := (o.data.drop (r.1 * o.rowBytes)).take o.rowBytes
      (((rowRuns c.dst c.dstE r.2).foldl (fun (a : State × List (Byte × Bool)) x =>
        (a.1.writePlace (.store id.toNat x.1) (a.2.take x.2), a.2.drop x.2)) (s, row)).1)) s

/-- A compute part writes into the region of a collective part in progress (R241): the results of that collective are
free values from then on. -/
def State.spoilParts (s : State) (id : CellId) (hit : ColPart → Bool) : State :=
  let c := s.cell id
  let bad := (c.handed ++ c.parts).filter hit
  if bad = [] then s
  else
    let mine (k : Contribution) : Bool := k.origin == .part id && bad.any fun p => p.seq == k.seq
    let mark (k : Contribution) : Contribution := if mine k then { k with wild := true } else k
    let sp (p : ColPart) : ColPart := if hit p then { p with spoiled := true } else p
    let s1 := s.setCell id { c with handed := c.handed.map sp, parts := c.parts.map sp }
    { s1 with col := { s1.col with
        coming := s1.col.coming.map mark
        waiting := s1.col.waiting.map fun w => (mark w.1, w.2)
        ops := s1.col.ops.map fun o => { o with parts := o.parts.map mark } } }

/-- An operation as a part completes: the result of a spoiled collective is free (R241). -/
def State.wildOp (s : State) (o : ColOp) : ColOp × State :=
  if o.parts.any fun k => k.wild then
    let r := s.freeBytes o.data.length
    ({ o with data := r.1 }, r.2)
  else (o, s)

/-- A local part completes: its result is written, and the operation frees its slot with its last part (R427). -/
def State.finishPart (s : State) (o : ColOp) (c : Contribution) : State :=
  let s1 := (s.wildOp o).2.writeResult (s.wildOp o).1 ((s.groupStages o.entry).getD []) c
  let parts := o.parts.erase c
  let same (x : ColOp) : Bool := x.group == o.group && x.n == o.n && x.slot == o.slot
  let ops := if parts = [] then s1.col.ops.filter fun x => !same x
    else s1.col.ops.map fun x => if same x then { x with parts := parts } else x
  ({ s1 with col := { s1.col with ops := ops } } : State).admitAll

/-- The finished operation that holds a contribution. -/
def State.finishedFor (s : State) (p : Contribution → Bool) : Option (ColOp × Contribution) :=
  s.col.ops.findSome? fun o =>
    if o.finished ((s.groupStages o.entry).getD []) then (o.parts.find? p).map fun c => (o, c) else none

end Sys2Proof.Machine
end

