-- ==== Sys2Proof/Machine/Fault.lean ====
section
/-!
DEFINITION. The fault of a cell (R75), cell core exceptions (R122), semaphore overflow (R65), and the frame every cell
core instruction runs in (R88, R105, R107, R122).
-/

namespace Sys2Proof.Machine

/-- Fault a cell (R75): the cell itself, then the collective operations that lose a part with it (R433). -/
def State.cellFault (s : State) (id : CellId) (cause : BitVec 8) : State := (s.rawFault id cause).colSettle

/-- The core of a cell consumes a poisoned value (R113, R191, R192), which POISON ends: the first of the task is reported
with engine 2. The core's instruction has no command sequence number, so the field is a free value (log entry 34). -/
def State.corePoison (s : State) (id : CellId) : State :=
  if (s.cell id).regs.poisonSeen then s
  else
    let r := s.freshNat
    r.2.poisonConsumed id 2 (BitVec.ofNat 32 r.1)

/-- A cell core exception (R122): the event, a suspect event of cause 3 for IBANK_UE, then the fault. -/
def State.coreException (s : State) (id : CellId) (code : BitVec 8) : State :=
  let c := s.cell id
  let s0 := if code = 0x09 then s.corePoison id else s
  let s1 := s0.raise 0x0104 .error
    [(2, id.toNat), (1, code.toNat), (1, if c.banks.active then 1 else 0), (2, c.core.pc.toNat)]
  let s2 := if code = 0x0B then s1.suspectFault id 3 else s1
  (s2.cellFault id 1).modCell id fun c => if c.st = .faulted then { c with exc := code } else c

/-- A semaphore that would pass 0xFFFF (R65): the event with the signalling queue, then the fault. -/
def State.semOverflow (s : State) (id : CellId) (sem : BitVec 5) (queue : Nat) : State :=
  (s.raise 0x0103 .error [(2, id.toNat), (1, sem.toNat), (1, queue)]).cellFault id 4

/-- Add to a semaphore of a cell for a signalling queue (R63, R65). -/
def State.signal (s : State) (id : CellId) (sem : BitVec 5) (n queue : Nat) : State :=
  match (s.cell id).addSem sem n with
  | (c, false) => s.setCell id c
  | (c, true) => (s.setCell id c).semOverflow id sem queue

/-! ### The frame of a cell core instruction (R88, R105, R107, R122) -/

/-- The end check of R105: the loop stack and the next offset after the instruction at `pc`. -/
def endCheck (pc fall : Nat) : List LoopEntry → List LoopEntry × Nat
  | [] => ([], fall)
  | e :: rest =>
    if pc = e.stop then
      (if e.hc = 0 then endCheck pc fall rest else ({ e with hc := e.hc - 1 } :: rest, e.start))
    else (e :: rest, fall)

/-- The loops a taken branch from `pc` to `dest` leaves (R107). -/
def leaveLoops (pc dest : Nat) : List LoopEntry → List LoopEntry
  | [] => []
  | e :: rest =>
    if e.start ≤ pc ∧ pc ≤ e.stop ∧ ¬(e.start ≤ dest ∧ dest ≤ e.stop) then leaveLoops pc dest rest else e :: rest

/-- Where fetch goes; FETCH_RANGE after the full effect when it would pass 0xFFFC (R87, R108). -/
def CellState.flow (c : CellState) (f : Flow) : CellState × Bool :=
  let pc := c.core.pc.toNat
  let go (fall : Nat) : CellState × Bool :=
    let (l, n) := endCheck pc fall c.core.loops
    if 0xFFFC < n then (c.setLoops l, true) else ((c.setLoops l).setPc (BitVec.ofNat 16 n), false)
  match f with
  | .seq => go (pc + 4)
  | .skip a => if 0xFFFC < a then (c, true) else go a
  | .jump a pops => ((if pops then c.setLoops (leaveLoops pc a c.core.loops) else c).setPc (BitVec.ofNat 16 a), false)
  | .stay => (c, false)

/-- Finish an instruction that took effect. -/
def State.retire (s : State) (id : CellId) (c : CellState) (f : Flow) : State :=
  match ((c.setWait ⟨0, 0, 0⟩ none).stamp s.ns).flow f with
  | (c', false) => s.setCell id c'
  | (c', true) => (s.setCell id c').coreException id 0x02

/-- The core waits in the instruction with word `word` (R121, R523); a wait that goes on keeps its beginning. -/
def State.holdCore (s : State) (id : CellId) (c : CellState) (word : Word) (kind : BitVec 4) (target : BitVec 8) : State :=
  let w := c.core.wait
  let since := if w.kind = kind ∧ w.target = target then w.since else s.ns
  s.setCell id (c.setWait ⟨kind, target, since⟩ (some word))

/-- The lowest claimed register of the two masks, as a CELL_WAIT target. -/
def firstClaim (sm : BitVec 32) (pm : BitVec 8) : BitVec 8 :=
  if sm ≠ 0 then BitVec.ofNat 8 (ctz32 sm) else BitVec.ofNat 8 (32 + ctz32 (pm.setWidth 32))

/-- Whether the word at the PC of the active bank holds an uncorrectable error (R122). -/
def CellState.fetchUe (c : CellState) : Bool :=
  (if c.banks.active then c.banks.ue1 else c.banks.ue0).contains (c.core.pc.toNat / 4)

/-- The word at the PC of the active bank has a reserved opcode (R88, R89). A bank that holds no complete image is not
fetched from (R72), and its word says nothing. -/
def CellState.fetchIllegal (c : CellState) : Bool :=
  let b := c.banks
  (if b.active then b.valid1 else b.valid0) &&
    decide (0x3D ≤ Mem.readNat 0xFF (if b.active then b.ib1 else b.ib0) c.core.pc.toNat 4 / 2 ^ 26)

/-- The guard of an instruction: GNEG is bit 3, GP bits 2 to 0 (R88). -/
def guardTrue (c : CellState) (g : BitVec 4) : Bool := c.pReg (g.setWidth 3) != g.getLsbD 3

/-- One instruction of a running cell, with the checks of R122 in their order: the word, its encoding, its guard, its
operands, then its body. -/
def coreStep (op : CoreOp) (id : CellId) (g : BitVec 4) (o : BitVec 22) (s : State) : State :=
  let c := s.cell id
  let gp : BitVec 3 := g.setWidth 3
  if c.fetchUe then s.coreException id 0x0B
  else if c.fetchIllegal || !op.legal o then s.coreException id 0x01
  else if c.core.pClaim &&& bit3 gp != 0 then s.holdCore id c (op.word g o) 3 (32 + gp.setWidth 8)
  else if c.core.pMark &&& bit3 gp != 0 then s.coreException id 0x09
  else if !guardTrue c g then s.retire id c (op.off o c)
  else
    let sm := c.core.sClaim &&& (op.rs o ||| op.ws o)
    let pm := c.core.pClaim &&& (op.rp o ||| op.wp o)
    if sm != 0 || pm != 0 then s.holdCore id c (op.word g o) 3 (firstClaim sm pm)
    else if c.core.sMark &&& op.rs o != 0 || c.core.pMark &&& op.rp o != 0 then s.coreException id 0x09
    else
      let t := op.touch o c
      let s1 := (s.touchStore id t.1).touchDmem id t.2
      let env : CoreEnv := ⟨id, s.cellLt id, s.ns⟩
      match op.body env o (s1.cell id) with
      | .done c' f =>
        s1.retire id { c' with core := { c'.core with sMark := c'.core.sMark &&& ~~~(op.ws o)
                                                      pMark := c'.core.pMark &&& ~~~(op.wp o) } } f
      | .exc e => s1.coreException id e
      | .hold c' k t => s1.holdCore id c' (op.word g o) k t
      | .semOver c' sem => ((s1.setCell id c').semOverflow id sem 4)
      | .badBank c' =>
        (((s1.setCell id c').raise 0x0102 .error
          [(2, id.toNat), (1, if c'.banks.active then 0 else 1), (4, c'.task.id.toNat)]).cellFault id 3)

/-- The core takes up again the instruction it waits in (R121). -/
def State.takeUp (s : State) (id : CellId) : State :=
  s.modCell id fun c => { c with core := { c.core with held := none } }

/-- A cell core instruction as a command: it acts on a cell that runs and waits in no other instruction (R109, R121, log
entry 11). -/
def runCore (op : CoreOp) (id : CellId) (g : BitVec 4) (o : BitVec 22) (s : State) : Out :=
  withCell id s fun s =>
    let c := s.cell id
    if c.st ≠ .running ∨ c.core.enq ≠ none then s
    else if c.core.held = none then coreStep op id g o s
    else if c.core.held = some (op.word g o) then coreStep op id g o (s.takeUp id)
    else s

end Sys2Proof.Machine
end

