-- ==== Sys2Proof/Machine/Flags.lean ====
section
/-!
DEFINITION. Status flags (R246), the NaN latch (R181 to R186), fault statuses of engine commands (R247 to R250) and the
completion of a command (R243).
-/

namespace Sys2Proof.Machine

/-! ### Flags in the bit order of CELL_CMD_FLAGS (R249) -/

def flagNan : BitVec 7 := 0x01
def flagPoison : BitVec 7 := 0x02
def flagLongsum : BitVec 7 := 0x04
def flagIwrap : BitVec 7 := 0x08
def flagCheckPartial : BitVec 7 := 0x10
def flagCheckNone : BitVec 7 := 0x20
def flagRetried : BitVec 7 := 0x40

/-! ### Faults of a command (R247, R249, R250) -/

/-- End a command with a fault status (R247), and the collective operations that lose a part with its cell. -/
def State.cmdFault (s : State) (id : CellId) (queue opc : Nat) (seq : BitVec 32) (status slot : Nat) : State :=
  (s.rawCmdFault id queue opc seq status slot).colSettle

/-! ### The NaN latch (R181 to R186) -/

/-- Whether the task runs in TRAP mode (CELL_NAN_STATUS.MODE). -/
def NanRegs.trapMode (n : NanRegs) : Bool := n.status.getLsbD 30

/-- Whether a record is latched. -/
def NanRegs.latched (n : NanRegs) : Bool := n.status.getLsbD 31

/-- A command observes or creates a NaN: the first of the task latches its record and raises NUM_NAN_LATCHED, a later
command counts in LATER (R181). -/
def State.nanLatch (s : State) (id : CellId) (engine : Nat) (kind : NanKind) (seq : BitVec 32) (row col step : Nat) :
    State :=
  let c := s.cell id
  let n := c.nan
  if n.latched then
    let later := min 0xFFFF (n.status.toNat % 2 ^ 16 + 1)
    s.setCell id { c with nan := { n with status := BitVec.ofNat 32 (n.status.toNat / 2 ^ 16 * 2 ^ 16 + later) } }
  else
    let mode := if n.trapMode then 1 else 0
    let n' : NanRegs :=
      { status := BitVec.ofNat 32 (2 ^ 31 + mode * 2 ^ 30 + kind.code * 2 ^ 28 + engine * 2 ^ 26)
        seq := seq
        elem := BitVec.ofNat 32 (row % 2 ^ 16 * 2 ^ 16 + col % 2 ^ 16)
        step := BitVec.ofNat 32 step
        lt := BitVec.ofNat 64 s.ns }
    (s.setCell id { c with nan := n' }).raise 0x0301 (if n.trapMode then .error else .warning)
      [(2, id.toNat), (1, engine), (1, kind.code), (4, seq.toNat), (4, c.task.id.toNat), (2, row), (2, col)]

/-- The NaN an operation observes among its inputs, the first one that has one. -/
def firstNan (a b : Option NanKind) : Option NanKind := match a with | some k => some k | none => b

/-! ### Completion (R111, R243, R246) -/

/-- Deliver a result to its register, with its poison mark, and end the claim (R111, R113). -/
def CellState.deliver (c : CellState) (d : Delivery) : CellState :=
  if d.toP then
    let m := bit3 (d.reg.setWidth 3)
    let c1 := c.setP (d.reg.setWidth 3) (d.value != 0)
    { c1 with core := { c1.core with pClaim := c1.core.pClaim &&& ~~~m
                                     pMark := if d.poison then c1.core.pMark ||| m else c1.core.pMark &&& ~~~m } }
  else
    let m := bit5 d.reg
    let c1 := c.setS d.reg d.value
    { c1 with core := { c1.core with sClaim := c1.core.sClaim &&& ~~~m
                                     sMark := if d.poison then c1.core.sMark ||| m else c1.core.sMark &&& ~~~m } }

/-- Add a command's flags to CELL_CMD_FLAGS (R246). -/
def CellState.addFlags (c : CellState) (f : BitVec 7) : CellState :=
  { c with regs := { c.regs with cmdFlags := c.regs.cmdFlags ||| f.setWidth 32 } }

/-- A command completes: its flags, its delivery, then its signal (R111, R243). -/
def State.completeCmd (s : State) (id : CellId) (queue : Nat) (word : QWord) (flags : BitVec 7)
    (del : Option Delivery) : State :=
  let c0 := ((s.cell id).addFlags flags).stamp s.ns
  let c : CellState := { c0 with ctr := { c0.ctr with cmds := c0.ctr.cmds + 1 } }
  let c1 := match del with
    | none => c
    | some d => c.deliver d
  let s1 := s.setCell id c1
  if cSen word then s1.signal id (cSsem word) 1 queue else s1

end Sys2Proof.Machine
end

