-- ==== Sys2Proof/Machine/Matrix.lean ====
section
/-!
DEFINITION. The matrix array (R124 to R160, R171 to R173, R193 to R205): stream rows, products, accumulators, checksums,
the check, chains, panel pacing and the retry.
-/

namespace Sys2Proof.Machine

/-! ### Stream formats (R129, R164, R171) -/

/-- A stream code of R164: the stored form of each part, the format in the array, and block scaling. -/
structure StreamFmt where
  a : EFmt
  b : EFmt
  f : EFmt
  scaled : Bool
  deriving DecidableEq, Repr

/-- The stream codes; none for 0xC to 0xF. -/
def StreamFmt.ofCode (c : Nat) : Option StreamFmt :=
  match c with
  | 0 => some ⟨.bf16, .bf16, .bf16, false⟩
  | 1 => some ⟨.e4m3, .e4m3, .e4m3, false⟩
  | 2 => some ⟨.e5m2, .e5m2, .e5m2, false⟩
  | 3 => some ⟨.int8, .int8, .int8, false⟩
  | 4 => some ⟨.e4m3, .e4m3, .e4m3, true⟩
  | 5 => some ⟨.e5m2, .e5m2, .e5m2, true⟩
  | 6 => some ⟨.e2m1b, .e4m3, .e4m3, true⟩
  | 7 => some ⟨.e4m3, .e2m1b, .e4m3, true⟩
  | 8 => some ⟨.e2m1b, .e2m1b, .e4m3, true⟩
  | 9 => some ⟨.int4, .int8, .int8, false⟩
  | 10 => some ⟨.int8, .int4, .int8, false⟩
  | 11 => some ⟨.int4, .int4, .int8, false⟩
  | _ => none

/-- The stream format of a command; the BF16 one stands where the code is reserved (such a command never starts). -/
def sfmt (q : QCmd) : StreamFmt := (StreamFmt.ofCode (dFmt q.d0).toNat).getD ⟨.bf16, .bf16, .bf16, false⟩

/-- Products per step: two for 8-bit operands (R126). -/
def slotsOf (q : QCmd) : Nat := if (sfmt q).f = .bf16 then 1 else 2

/-- Steps S of a command (R126). -/
def stepsOf (q : QCmd) : Nat := (mK q.word + slotsOf q - 1) / slotsOf q

/-- Rows a command takes from its row 0 to its last tail row (R130). -/
def spanOf (q : QCmd) : Nat := stepsOf q + 63

/-- Whether the command accumulates in INT32 (R193). -/
def isInt (q : QCmd) : Bool := (sfmt q).f == .int8

/-- Whether the command is of the narrow class (R194). -/
def isNarrow (q : QCmd) : Bool := !isInt q && !mAcc q.word

/-- The byte of a part that holds the operand of position x and slot p (R129). -/
def operandByte (st : EFmt) (x p : Nat) : Nat := if st.width = 4 then x else if st.width = 16 then 2 * x else 2 * x + p

/-- The bits of an operand as the array takes it, expanded from 4 bits (R129, R171). -/
def operandBits (st : EFmt) (part : List Byte) (x p : Nat) : Nat :=
  let byte (k : Nat) : Nat := ((part[k]?).getD 0).toNat
  let k := operandByte st x p
  if st.width = 16 then byte k + 256 * byte (k + 1)
  else if st.width = 4 then
    let c := byte k / 16 ^ p % 16
    if st = .int4 then unsignedOf 8 (signedOf 4 c) else e2m1ToE4m3 c
  else byte k

/-- Whether the operand lies in a poisoned lane (R188). -/
def operandPoison (st : EFmt) (lanes : List Bool) (x p : Nat) : Bool := (lanes[operandByte st x p / 8]?).getD false

/-! ### Products (R172) -/

/-- An operand of the array: its value, integer or number, its scale, and its poison. -/
structure Operand where
  num : Num
  int : Int
  scale : Nat
  poison : Bool
  deriving DecidableEq, Repr

/-- The operand of position x, slot p of a part, with scale byte number x of an entry half. -/
def mkOperand (f : StreamFmt) (st : EFmt) (part : List Byte) (lanes : List Bool) (entry : List Byte)
    (elanes : List Bool) (half x p : Nat) : Operand :=
  let b := operandBits st part x p
  let sc := if f.scaled then ((entry[64 * half + x]?).getD 0).toNat else 127
  let scP := f.scaled && (elanes[(64 * half + x) / 8]?).getD false
  { num := match f.f.ffmt with | some l => l.decode b | none => .ofInt (signedOf 8 b)
    int := signedOf 8 b
    scale := sc
    poison := operandPoison st lanes x p || scP }

/-- The value of an operand with its block scale (R144): NaN for a scale of 0xFF. -/
def Operand.value (o : Operand) : Num := if o.scale = 0xFF then .nan else o.num.scale ((o.scale : Int) - 127)

/-- The exact scaled product, with the NaN it observes or creates (R172, R179). -/
def product (a b : Operand) : Num × Option NanKind :=
  if a.scale = 0xFF ∨ b.scale = 0xFF then
    (.nan, if a.num.isNan || b.num.isNan then some .observed else some .scale)
  else
    let v := (a.num.mul b.num).scale ((a.scale : Int) + b.scale - 254)
    (v, if a.num.isNan || b.num.isNan then some .observed else if v.isNan then some .created else none)

/-- A product whose magnitude exceeds the accumulator's largest finite value enters as an infinity (R172). -/
def enterNum (f : FFmt) : Num → Num
  | .fin n m e => if f.exceeds m e then .inf n else .fin n m e
  | v => v

/-! ### Accumulators (R125, R127, R195 to R199) -/

/-- What a site draws from (R199). -/
structure MxKey where
  seed : BitVec 64
  cell : CellId
  seq : BitVec 32
  attempt : Nat
  deriving DecidableEq, Repr

/-- A draw of a stream of the array at a site for product k. -/
def MxKey.draw (x : MxKey) (stream pos k bits : Nat) : Nat :=
  (Config.draw x.seed x.cell stream x.seq x.attempt pos k).toNat % 2 ^ bits

/-- The format of a working accumulator (R125). -/
def accFmt (narrow : Bool) : FFmt := if narrow then e8m13 else fp32

/-- What entering products into a working accumulator gave. -/
structure AccOut where
  site : Site
  nan : Option NanKind
  wrapped : Bool

/-- Enter the products of one step into a floating-point working accumulator, in ascending product index, rounding each
by R197; step 0 starts from an exact zero (R127, R195). -/
def workFloat (x : MxKey) (narrow : Bool) (pos s slots : Nat) (old : Site) (ps : List (Operand × Operand)) : AccOut :=
  let f := accFmt narrow
  let r := if narrow then 14 else 24
  let start : Num := if s = 0 then .fin false 0 0 else f.decode old.val.toNat
  let pois0 := s ≠ 0 ∧ old.poison = true
  let step (acc : Num × Bool × Option NanKind) (p : (Operand × Operand) × Nat) : Num × Bool × Option NanKind :=
    let (v, pois, nan) := acc
    let k := s * slots + p.2
    let (pr, kind) := product p.1.1 p.1.2
    let pois' := pois || p.1.1.poison || p.1.2.poison
    let sum := v.add (enterNum f pr)
    let d := x.draw 0 pos (if narrow then k % 4096 else k) r
    let v' := f.decode (f.round .sr false r d sum).bits
    let here : Option NanKind := if pois' then none else match kind with
      | some kd => some kd
      | none => if sum.isNan && !v.isNan then some .created else none
    (v', pois', firstNan nan here)
  let (v, pois, nan) := (ps.zipIdx).foldl step (start, pois0, none)
  ⟨⟨BitVec.ofNat 64 (f.round .rtz false 0 0 v).bits, 0, pois⟩, nan, false⟩

/-- Enter the products of one step into an INT32 working accumulator, noting a partial sum that leaves the range; the bits
of a poisoned operand say nothing (R189). -/
def workInt (s : Nat) (old : Site) (ps : List (Operand × Operand)) : AccOut :=
  let start : Int := if s = 0 then 0 else signedOf 32 old.val.toNat
  let pois0 := s ≠ 0 ∧ old.poison = true
  let (v, pois, w) := ps.foldl (fun (acc : Int × Bool × Bool) p =>
    let t := acc.1 + p.1.int * p.2.int
    let bad := acc.2.1 || p.1.poison || p.2.poison
    (signedOf 32 (unsignedOf 32 t), bad,
      acc.2.2 || (!bad && decide (t < -2147483648 ∨ 2147483647 < t)))) (start, decide pois0, false)
  ⟨⟨BitVec.ofNat 64 (unsignedOf 32 v), 0, pois⟩, none, w⟩

/-- A sum of operands as the checksum encoder forms it: value and magnitude, in FP32 RNE, or exactly for integers
(R144). -/
structure CheckSum where
  num : Num
  mag : Num
  int : Int
  poison : Bool

/-- Sum 64 operands in ascending order (DEDUCED 14). -/
def encodeSum (os : List Operand) : CheckSum :=
  let add (acc v : Num) : Num := fp32.decode (fp32.round .rne false 24 0 (acc.add v)).bits
  os.foldl (fun c o => ⟨add c.num o.value, add c.mag o.value.abs, c.int + o.int, c.poison || o.poison⟩)
    ⟨.fin false 0 0, .fin false 0 0, 0, false⟩

/-- Enter one step into a checksum site: the value by stochastic rounding on stream 1, the magnitude by RNE, or a
64-bit integer (R145). -/
def checkSite (x : MxKey) (int : Bool) (pos s slots : Nat) (old : Site) (ps : List (CheckSum × CheckSum)) : Site :=
  let pois := (decide (s ≠ 0) && old.poison) || ps.any fun p => p.1.poison || p.2.poison
  if int then
    let start : Int := if s = 0 then 0 else signedOf 64 old.val.toNat
    let v := ps.foldl (fun (acc : Int) p => acc + p.1.int * p.2.int) start
    ⟨BitVec.ofNat 64 (unsignedOf 64 v), 0, pois⟩
  else
    let z : Num := .fin false 0 0
    let start : Num × Num := if s = 0 then (z, z) else (fp32.decode old.val.toNat, fp32.decode old.mag.toNat)
    let (v, m) := (ps.zipIdx).foldl (fun (acc : Num × Num) (p : (CheckSum × CheckSum) × Nat) =>
      let d := x.draw 1 pos (s * slots + p.2) 24
      let v := fp32.decode (fp32.round .sr false 24 d (acc.1.add (enterNum fp32 (p.1.1.num.mul p.1.2.num)))).bits
      let m := fp32.decode (fp32.round .rne false 24 0 (acc.2.add (p.1.1.mag.mul p.1.2.mag))).bits
      (v, m)) start
    ⟨BitVec.ofNat 64 (fp32.round .rtz false 0 0 v).bits, BitVec.ofNat 32 (fp32.round .rtz false 0 0 m).bits, pois⟩

/-- A single operand as a checksum factor. -/
def Operand.asSum (o : Operand) : CheckSum := ⟨o.value, o.value.abs, o.int, o.poison⟩

/-! ### Banks -/

/-- Read a site of a bank. -/
def MxBank.site (b : MxBank) (i j : Nat) : Site := Sparse.at ⟨0, 0, false⟩ b (65 * i + j)

/-- Read a bank. -/
def MxState.bank (m : MxState) (k : Bool) : MxBank := if k then m.bank1 else m.bank0

/-- Write a bank. -/
def MxState.setBank (m : MxState) (k : Bool) (b : MxBank) : MxState := if k then { m with bank1 := b } else { m with bank0 := b }

/-- The command of the array with a SEQ. -/
def MxState.cmdOf (m : MxState) (seq : BitVec 32) : Option MxCmd := m.cmds.find? fun c => c.cmd.seq = seq

/-- Change the command of the array with a SEQ. -/
def MxState.modCmd (m : MxState) (seq : BitVec 32) (f : MxCmd → MxCmd) : MxState :=
  { m with cmds := m.cmds.map fun c => if c.cmd.seq = seq then f c else c }

/-! ### One stream row (R127, R135) -/

/-- The A operands of a row position, one for each product slot. -/
def rowA (q : QCmd) (row owner : MxRow) (i : Nat) : List Operand :=
  (List.range (slotsOf q)).map fun p => mkOperand (sfmt q) (sfmt q).a row.aPart row.aPois owner.entry owner.ePois 0 i p

/-- The B operands of a column of a step, one for each product slot. -/
def rowB (q : QCmd) (owner : MxRow) (j : Nat) : List Operand :=
  (List.range (slotsOf q)).map fun p => mkOperand (sfmt q) (sfmt q).b owner.bPart owner.bPois owner.entry owner.ePois 1 j p

/-- The output range M x N of a command (R133). -/
def outRows (q : QCmd) : Nat := (dRows q.d1).toNat
def outCols (q : QCmd) : Nat := (dCols q.d1).toNat

/-- What one row of the array did for its command. -/
structure RowOut where
  bank : MxBank
  nan : Option (NanKind × Nat)
  wrapped : Bool
  poison : Bool

/-- Row i of the array performs step s of a command: 64 working sites and the checksum column (R127, R145). -/
def arrayRow (x : MxKey) (q : QCmd) (new owner : MxRow) (i s : Nat) (bank : MxBank) : RowOut :=
  let as := rowA q new owner i
  let slots := slotsOf q
  let (b1, nan, w, p) := (List.range 64).foldl (fun (acc : MxBank × Option (NanKind × Nat) × Bool × Bool) j =>
    let ps := as.zip (rowB q owner j)
    let o := if isInt q then workInt s (acc.1.site i j) ps
      else workFloat x (isNarrow q) (65 * i + j) s slots (acc.1.site i j) ps
    let inside := i < outRows q ∧ j < outCols q
    (Sparse.put acc.1 (65 * i + j) o.site,
      (match acc.2.1 with
        | some n => some n
        | none => if inside then o.nan.map fun k => (k, j) else none),
      acc.2.2.1 || (decide inside && o.wrapped), acc.2.2.2 || o.site.poison)) (bank, none, false, false)
  let bs := (List.range slots).map fun p =>
    encodeSum ((List.range 64).map fun j =>
      mkOperand (sfmt q) (sfmt q).b owner.bPart owner.bPois owner.entry owner.ePois 1 j p)
  let col := checkSite x (isInt q) (65 * i + 64) s slots (b1.site i 64) ((as.map Operand.asSum).zip bs)
  ⟨Sparse.put b1 (65 * i + 64) col, nan, w, p⟩

/-- The checksum row and the corner perform step s of a command, its A operands collected from the 64 rows that carry
them (R144, R145). `hist` has the newest row first; its 64th row holds the step's B part. -/
def checksumRow (x : MxKey) (q : QCmd) (hist : List MxRow) (owner : MxRow) (s : Nat) (bank : MxBank) : MxBank :=
  let slots := slotsOf q
  let asum := (List.range slots).map fun p =>
    encodeSum ((List.range 64).map fun i =>
      let row := (hist[63 - i]?).getD owner
      mkOperand (sfmt q) (sfmt q).a row.aPart row.aPois owner.entry owner.ePois 0 i p)
  let bsum := (List.range slots).map fun p =>
    encodeSum ((List.range 64).map fun j =>
      mkOperand (sfmt q) (sfmt q).b owner.bPart owner.bPois owner.entry owner.ePois 1 j p)
  let b1 := (List.range 64).foldl (fun (b : MxBank) j =>
    let bs := (rowB q owner j).map Operand.asSum
    Sparse.put b (65 * 64 + j) (checkSite x (isInt q) (65 * 64 + j) s slots (b.site 64 j) (asum.zip bs))) bank
  Sparse.put b1 (65 * 64 + 64) (checkSite x (isInt q) (65 * 64 + 64) s slots (b1.site 64 64) (asum.zip bsum))

/-- The key of a command on a cell. -/
def mxKey (c : CellState) (id : CellId) (m : MxCmd) : MxKey := ⟨c.regs.seed, id, m.cmd.seq, m.attempt⟩

/-- Row i of the array works on the command that owns it after a new row was read; `only` restricts it to one
command. -/
def workRow (id : CellId) (only : Option (BitVec 32)) (hist : List MxRow) (s : State) (i : Nat) : State :=
  match hist[0]?, hist[i]? with
  | some new, some own =>
    match own.owner with
    | none => s
    | some (seq, step) =>
      if only.isSome ∧ only ≠ some seq then s
      else
        let c := s.cell id
        match c.mx.cmdOf seq with
        | none => s
        | some m =>
          let o := arrayRow (mxKey c id m) m.cmd new own i step (c.mx.bank m.bank)
          let mx := (c.mx.setBank m.bank o.bank).modCmd seq fun m =>
            { m with flags := m.flags ||| (if o.wrapped then flagIwrap else 0) ||| (if o.poison then flagPoison else 0) }
          let s1 := s.setCell id { c with mx := mx }
          let s2 := if o.poison then s1.poisonConsumed id 0 seq else s1
          match o.nan, m.nan with
          | some (k, j), none =>
            let latches := !c.nan.latched && !m.cmd.past.nan
            let s3 := if m.cmd.past.nan then s2 else s2.nanLatch id 0 k seq i j step
            s3.modCell id fun c => { c with mx := c.mx.modCmd seq fun m =>
              { m with nan := some ⟨k, i, j, step⟩, flags := m.flags ||| (if c.nan.trapMode then 0 else flagNan)
                       trap := m.trap || (latches && c.nan.trapMode) } }
          | _, _ => s2
  | _, _ => s

/-- A beat in which a row was read: every row of the array that owns a step performs it, then the checksum row. -/
def arrayBeat (id : CellId) (only : Option (BitVec 32)) (hist : List MxRow) (s : State) : State :=
  let s1 := (List.range 64).foldl (workRow id only hist) s
  match hist[63]? with
  | none => s1
  | some own =>
    match own.owner with
    | none => s1
    | some (seq, step) =>
      if only.isSome ∧ only ≠ some seq then s1
      else
        let c := s1.cell id
        match c.mx.cmdOf seq with
        | none => s1
        | some m =>
          let b := checksumRow (mxKey c id m) m.cmd hist own step (c.mx.bank m.bank)
          s1.setCell id { c with mx := c.mx.setBank m.bank b }

/-! ### Reading the stream (R129, R130, R138, R139, R142) -/

/-- Bytes of a part the port reads (R129). -/
def partBytes (st : EFmt) : Nat := if st.width = 4 then 64 else 128

/-- Split 128 bytes of a part with the poison of their 16 lanes. -/
def partOf (m : StoreState) (a : Nat) : List Byte × List Bool :=
  (m.mem.read 0 a 128, (List.range 16).map fun l => m.poison.contains (a / 8 + l))

/-- P rows per panel (R222). -/
def panelOf (w : QWord) : Nat := 16 * (mPlen w).toNat

/-- The ring of a paced command (R139). -/
def MxState.ring (m : MxState) (q : QCmd) : Ring :=
  (m.rings.find? fun r => r.offset = (dOffset q.d0).toNat ∧ r.rows = (dRows q.d0).toNat).getD
    ⟨(dOffset q.d0).toNat, (dRows q.d0).toNat, 0, 0, 0⟩

/-- Write a ring. -/
def MxState.setRing (m : MxState) (r : Ring) : MxState :=
  { m with rings := r :: m.rings.filter fun x => ¬(x.offset = r.offset ∧ x.rows = r.rows) }

/-- The store address of window row `n` of a command: in order, or around the ring of a paced one. -/
def rowAddr (q : QCmd) (n : Nat) : Nat :=
  (dOffset q.d0).toNat + 256 * (if mPace q.word then n % max 1 (dRows q.d0).toNat else n)

/-- Whether the panel of absolute ring row `n` has been filled, taking one from the fill semaphore where it has not been
yet (R139). None: the array waits. -/
def takePanel (c : CellState) (q : QCmd) (n : Nat) : Option CellState :=
  let r := c.mx.ring q
  if n < r.taken * panelOf q.word then some c
  else
    let f := mFsem q.word
    if c.sem f = 0 then none
    else
      let c' := c.setSem f (c.sem f - 1)
      some { c' with mx := c.mx.setRing { r with taken := r.taken + 1 } }

/-- The absolute window row of a command's own row r. -/
def absRow (m : MxCmd) (r : Nat) : Nat := if mPace m.cmd.word then m.ringBase + r else m.base + r

/-- Whether a command is held: it reads at most half its window (R140). -/
def isHeld (q : QCmd) : Bool := decide (2 * spanOf q ≤ (dRows q.d0).toNat)

/-- Panels of a ring that may be released: read to their last row, and not read by a held command that has not passed
its check (R140). -/
def releasable (m : MxState) (q : QCmd) (r : Ring) : Bool :=
  let p := panelOf q.word
  let last := (r.released + 1) * p
  decide (0 < p) && decide (last ≤ r.pos) &&
    m.cmds.all fun c => !(mPace c.cmd.word && (dOffset c.cmd.d0).toNat == r.offset && isHeld c.cmd && !c.checked &&
      decide (c.ringBase < last) && decide (r.released * p < c.ringBase + spanOf c.cmd))

/-- Release the panels of a paced command's ring that are due, in ring order, each adding 1 to the free semaphore. -/
def releasePanels (id : CellId) (q : QCmd) : Nat → State → State
  | 0, s => s
  | n + 1, s =>
    let c := s.cell id
    let r := c.mx.ring q
    if mPace q.word && releasable c.mx q r then
      releasePanels id q n
        ((s.setCell id { c with mx := c.mx.setRing { r with released := r.released + 1 } }).signal id (mRsem q.word) 1 0)
    else s

/-- The array has a stream row to read: one of the newest command's own rows, or of its tail where the run ends with it. -/
def CellState.rowLeft (c : CellState) : Bool :=
  match c.mx.cmds.getLast? with
  | none => false
  | some m => decide (m.rows < stepsOf m.cmd) || (m.tailOwn && decide (m.rows < spanOf m.cmd))

/-- What a command does as it reads its row 0 (R147, R150, R161, R205, R216): it samples CL_MX_CONFIG, and a narrow command
of more than 4,096 products is counted and reported. A retry, and a command that has counted before, do neither (log entry
125). -/
def State.rowZero (s : State) (id : CellId) : State :=
  let c := s.cell id
  match c.mx.cmds.getLast? with
  | none => s
  | some m =>
    if m.rows ≠ 0 ∨ m.attempt ≠ 0 then s
    else
      let q := m.cmd
      let long := isNarrow q && decide (4096 < mK q.word)
      let count := long && !q.past.long
      let n := min 0xFFFF (c.regs.numFlags.toNat % 2 ^ 16 + 1)
      let regs := if count then { c.regs with numFlags := BitVec.ofNat 32 (2 ^ 31 + n), longSeen := true } else c.regs
      let s1 := s.setCell id { c with
        regs := regs
        mx := c.mx.modCmd q.seq fun m =>
          { m with config := (s.box (boxOf id)).mxConfig, flags := m.flags ||| (if long then flagLongsum else 0)
                   cmd := { m.cmd with past := { m.cmd.past with long := long } } } }
      if count && !c.regs.longSeen then
        s1.raise 0x0303 .info [(2, id.toNat), (4, q.seq.toNat), (4, c.task.id.toNat)] else s1

/-- Read one stream row of the newest command: its own rows, then its tail rows where the run ends with it. None when it
has none to read or waits for a panel. A step ends a gap (R158). -/
def readRow (id : CellId) (s : State) : Option State :=
  let c := s.cell id
  match c.mx.cmds.getLast? with
  | none => none
  | some m =>
    let q := m.cmd
    let steps := stepsOf q
    let own := m.rows < steps
    if ¬ own ∧ ¬(m.tailOwn = true ∧ m.rows < spanOf q) then none
    else
      match (if mPace q.word then takePanel c q (absRow m m.rows) else some c) with
      | none => none
      | some c1 =>
        let a := rowAddr q (absRow m m.rows)
        let ea := (dOffset q.d2).toNat + 128 * (m.rows / 16)
        let fresh : Bool := (sfmt q).scaled && own && m.rows % 16 == 0
        let touched := lanesOf a (partBytes (sfmt q).a) ++ (if own then lanesOf (a + 128) (partBytes (sfmt q).b) else []) ++ (if fresh then lanesOf ea 128 else [])
        let s1 := ((s.setCell id c1).rowZero id).touchStore id touched
        let c2 := s1.cell id
        let (ap, apo) := partOf c2.store a
        let (bp, bpo) := partOf c2.store (a + 128)
        let old := c2.mx.hist[0]?
        let (ent, epo) := if fresh then partOf c2.store ea
          else match old with | some r => (r.entry, r.ePois) | none => ([], [])
        let row : MxRow := ⟨if own then some (q.seq, m.rows) else none, ap, bp, apo, bpo, ent, epo⟩
        let hist := (row :: c2.mx.hist).take 64
        let mx1 : MxState := { c2.mx with
          hist := hist, gap := Gap.none
          cmds := c2.mx.cmds.map fun k => if k.rows < spanOf k.cmd then { k with rows := k.rows + 1 } else k }
        let mx2 := if mPace q.word then mx1.setRing { mx1.ring q with pos := (mx1.ring q).pos + 1 } else mx1
        let s2 := s1.setCell id { c2 with mx := mx2, ctr := { c2.ctr with utilMx := c2.ctr.utilMx + 1 } }
        let s3 := arrayBeat id none hist s2
        some (releasePanels id q 1 s3)

/-- Read rows until the newest command has none to read or waits. -/
def streamOn (id : CellId) (s : State) : State :=
  match (s.cell id).mx.cmds.getLast? with
  | none => s
  | some m => iterWhile (readRow id) (spanOf m.cmd - m.rows) s

/-! ### Starting (R134 to R138, R205, R219, R223) -/

/-- Whether two commands name the same stream window, format and pacing (R135, R223). -/
def sameStream (a b : QCmd) : Bool :=
  dOffset a.d0 == dOffset b.d0 && dRows a.d0 == dRows b.d0 && dFmt a.d0 == dFmt b.d0 &&
    mPace a.word == mPace b.word && mFsem a.word == mFsem b.word && mRsem a.word == mRsem b.word &&
    mPlen a.word == mPlen b.word

/-- Whether a command continues the chain of its predecessor (R135, R136). -/
def chains (prev : Option MxCmd) (q : QCmd) : Bool :=
  match prev with
  | some p => mLink p.cmd.word && mChain q.word && sameStream p.cmd q
  | none => false

/-- The window row of a command's step 0: where its predecessor's step S would be, or row 0 (R135). -/
def baseOf (prev : Option MxCmd) (q : QCmd) : Nat :=
  match prev with
  | some p => if chains prev q then p.base + stepsOf p.cmd else 0
  | none => 0

/-- The descriptor and window checks of MMA (R133, R138, R142, R223), the chain and the format of a fused function. A run
always goes on to the tail rows of each of its commands, so they count with its rows (R135, R138). -/
def mmaCheck (prev : Option MxCmd) (q : QCmd) : Option (Nat × Nat) :=
  let w := q.word
  let (ts, out, sc) := (q.d0, q.d1, q.d2)
  let off := (dOffset ts).toNat
  let rows := (dRows ts).toNat
  let linked := match prev with | some p => mLink p.cmd.word | none => false
  if StreamFmt.ofCode (dFmt ts).toNat = none then some (stFormat, 0)
  else if dHandle ts ≠ 0 ∨ off % 256 ≠ 0 ∨ dLdim ts ≠ 256 ∨ rows = 0 then some (stDesc, 0)
  else if mPace w ∧ (mPlen w = 0 ∨ rows % panelOf w ≠ 0) then some (stDesc, 0)
  else if (linked || mChain w) ∧ ¬ chains prev q then some (stChain, 0)
  else if EFmt.ofCode (dFmt out).toNat = none then some (stFormat, 1)
  else if dHandle out ≠ 0 ∨ (dOffset out).toNat % 32 ≠ 0 ∨ (dLdim out).toNat % 32 ≠ 0 ∨ outRows q = 0 ∨ 64 < outRows q ∨
      outCols q = 0 ∨ 64 < outCols q then some (stDesc, 1)
  else if (if isInt q then dFmt out ≠ 0xA else dFmt out ≠ 0x0 ∧ dFmt out ≠ 0x1) then some (stFormat, 1)
  else if cFuse w ∧ ((cfCfn (cCf w)).toNat = 5 ∨ (cfCfn (cCf w)).toNat = 6) ∧ dFmt out ≠ 0xA then some (stFormat, 1)
  else if (sfmt q).scaled ∧ (dHandle sc ≠ 0 ∨ (dOffset sc).toNat % 128 ≠ 0 ∨ dLdim sc ≠ 128 ∨ dFmt sc ≠ 0xC) then
    some (stDesc, 2)
  else if (sfmt q).scaled ∧ (dRows sc).toNat < (stepsOf q + 15) / 16 then some (stWindow, 0)
  else if ¬ mPace w ∧ rows < baseOf prev q + spanOf q then some (stWindow, 0)
  else if 0x300000 < off + 256 * (if mPace w then rows else baseOf prev q + spanOf q) then some (stRange, 0)
  else if 0x300000 < (dOffset out).toNat + (outRows q - 1) * (dLdim out).toNat + (if dFmt out = 0x1 then 2 else 4) * outCols q then
    some (stRange, 0)
  else if (sfmt q).scaled ∧ 0x300000 < (dOffset sc).toNat + 128 * ((stepsOf q + 15) / 16) then some (stRange, 0)
  else none

/-- The code check of MMA (R219 step 1, R240). -/
def mmaCode (w : QWord) : Bool :=
  let cf := cCf w
  !cFuse w || (((cfCop cf).toNat == 1 || (cfCop cf).toNat == 2 || (cfCop cf).toNat == 4) &&
    ((cfCfn cf).toNat < 3 || (cfCfn cf).toNat == 5 || (cfCfn cf).toNat == 6))

/-- The newest command of the array reads its tail rows itself, because no command of its chain follows (R136). -/
def closeTail (id : CellId) (s : State) : State :=
  let c := s.cell id
  match c.mx.cmds.getLast? with
  | none => s
  | some m =>
    if ¬ m.tailOpen then s
    else
      streamOn id (s.setCell id { c with mx := c.mx.modCmd m.cmd.seq fun m =>
        { m with tailOpen := false, tailOwn := true } })

/-- Take the fills of the panels up to absolute ring row `n`, as far as the semaphore reaches (R139). -/
def takePanels (q : QCmd) (n : Nat) (c : CellState) : CellState :=
  iterWhile (fun c =>
    let k := (c.mx.ring q).taken * panelOf q.word
    if n ≤ k then none else takePanel c q k) (n / max 1 (panelOf q.word) + 1) c

/-- A command two places ahead of a chained one finishes from the rows that would have been merged, when the command
between them is shorter than its tail (R137; DEDUCED 15). Rows of a paced window wait for their fills (R139). -/
def finishOldest (id : CellId) (s : State) : State :=
  match (s.cell id).mx.cmds with
  | m :: rest@(_ :: _) =>
    let gap := spanOf m.cmd - m.rows
    let reach := match rest.getLast? with | some l => absRow l l.rows | none => 0
    let c := if mPace m.cmd.word ∧ gap ≠ 0 then takePanels m.cmd (reach + gap) (s.cell id) else s.cell id
    let free := !mPace m.cmd.word || decide (reach + gap ≤ (c.mx.ring m.cmd).taken * panelOf m.cmd.word)
    let s0 := s.setCell id c
    if gap = 0 then s
    else if ¬ free then s0
    else
      let go (acc : State × List MxRow) (k : Nat) : State × List MxRow :=
        let a := rowAddr m.cmd (reach + k)
        let s1 := acc.1.touchStore id (lanesOf a 128)
        let (ap, apo) := partOf (s1.cell id).store a
        let h := ((⟨none, ap, [], apo, [], [], []⟩ : MxRow) :: acc.2).take 64
        (arrayBeat id (some m.cmd.seq) h s1, h)
      let s2 := ((List.range gap).foldl go (s0, c.mx.hist)).1
      s2.modCell id fun c => { c with mx := { c.mx.modCmd m.cmd.seq (fun m => { m with rows := spanOf m.cmd }) with
        hist := c.mx.hist.map fun r => match r.owner with
          | some (q, _) => if q = m.cmd.seq then { r with owner := none } else r
          | none => r } }
  | _ => s

/-- The command before carried LINK, so the next one must continue its chain (R135, R136). -/
def MxState.linked (m : MxState) : Bool := match m.prev with | some p => mLink p.cmd.word | none => false

/-- Whether the array can take another command (R134 to R137): a chained one once the command two before it has left the
bank; one that breaks its chain once the command before it has completed; another one once the rows before it are read,
unless a command that waits for a hand-off place holds the bank (R242). -/
def arrayFree (c : CellState) (q : QCmd) : Bool :=
  !c.mx.retry &&
    match c.mx.cmds.getLast? with
    | none => true
    | some m =>
      if chains c.mx.prev q then decide (c.mx.cmds.length < 2 ∧ stepsOf m.cmd ≤ m.rows)
      else !c.mx.linked && decide (c.mx.cmds.length < 3 ∧ spanOf m.cmd ≤ m.rows) &&
        !(c.mx.cmds.any fun k => k.bank == c.mx.nextBank && k.checked)

/-- The tile of a bank that a command takes over from one that still waits for its check beat (R137). -/
def MxState.keepTile (m : MxState) (b : Bool) : MxState :=
  { m with cmds := m.cmds.map fun k => if k.bank = b ∧ k.tile = none then { k with tile := some (m.bank b) } else k }

/-- Where the next command of q.mx is known and does not continue the chain, the tail is read (R136). -/
def settleTail (id : CellId) (s : State) : State :=
  let c := s.cell id
  match c.qmx.q with
  | [] => s
  | n :: _ => if cOpc n.word = 1 ∧ chains c.mx.prev n then s else closeTail id s

/-- Start an MMA whose wait has been taken. -/
def startMma (id : CellId) (q : QCmd) (s : State) : State :=
  let c := s.cell id
  match mmaCheck c.mx.prev q with
  | some (st, slot) => s.cmdFault id 0 1 q.seq st (if st = stDesc ∨ st = stFormat then slot else 0)
  | none =>
    let m : MxCmd :=
      { cmd := q, bank := c.mx.nextBank, attempt := 0, base := baseOf c.mx.prev q
        ringBase := (c.mx.ring q).pos, rows := 0, tailOpen := mLink q.word, tailOwn := !mLink q.word, start := s.ns
        config := 0, flags := 0, nan := none, trap := q.past.trap, checked := false, tile := none }
    let k := c.mx.keepTile c.mx.nextBank
    let mx := { k with cmds := k.cmds ++ [m], nextBank := !k.nextBank, prev := some m
                       hist := if chains c.mx.prev q then k.hist else [] }
    settleTail id (streamOn id (s.setCell id { c with
      mx := mx
      qmx := { c.qmx with run := c.qmx.run ++ [⟨q, s.ns, 0, [], [], none, cFuse q.word, none, false, false⟩] } }))

/-! ### The check (R146 to R150) -/

/-- g of R147: guard values 9 to 15 act as 8. -/
def guardOf (config : BitVec 32) (narrow : Bool) : Nat :=
  min 8 (if narrow then config.toNat / 16 % 16 else config.toNat / 256 % 16)

/-- Smallest n with k at most 2^n. -/
def clog2 (k : Nat) : Nat := if k ≤ 1 then 0 else Nat.log2 (k - 1) + 1

/-- sigma of R147. -/
def sigmaOf (narrow : Bool) (k g : Nat) : Nat :=
  min 16 ((if narrow then 13 else 23) - ((clog2 k + 1) / 2) - g)

/-- Whether two FP32 numbers differ by more than m * 2^(-sigma) (R146, R147), compared exactly. -/
def tooFar (a b m : Num) (sigma : Nat) : Bool := Num.lt (m.abs.scale (-(sigma : Int))) ((a.add b.neg).abs)

/-- Whether a number is a NaN or an infinity. -/
def unsound (v : Num) : Bool := v.isNan || v.isInf

/-- Sum in FP32 RNE, ascending. -/
def sumF32 (l : List Num) : Num :=
  l.foldl (fun acc v => fp32.decode (fp32.round .rne false 24 0 (acc.add v)).bits) (.fin false 0 0)

/-- The outcome of one comparison: none when it is excluded, otherwise whether it failed. -/
abbrev Cmp := Option Bool

/-- The value of a working accumulator. -/
def siteNum (q : QCmd) (st : Site) : Num := (accFmt (isNarrow q)).decode st.val.toNat

/-- One line of the check: 64 working sites against their checksum site (R146, R148). -/
def checkLine (q : QCmd) (sigma : Nat) (work : List Site) (chk : Site) : Cmp :=
  if chk.poison || work.any fun w => w.poison then none
  else if isInt q then
    some (decide ((work.foldl (fun (a : Int) w => a + signedOf 32 w.val.toNat) 0 - signedOf 64 chk.val.toNat) % 2 ^ 32 ≠ 0))
  else
    let vs := work.map (siteNum q)
    let sum := sumF32 vs
    let r := fp32.decode chk.val.toNat
    let m := fp32.decode chk.mag.toNat
    if unsound sum || unsound r || unsound m || vs.any unsound then none else some (tooFar sum r m sigma)

/-- A corner check: 64 checksum sites of one line against the corner. -/
def checkCorner (q : QCmd) (sigma : Nat) (line : List Site) (corner : Site) (excluded : Bool) : Cmp :=
  if excluded || corner.poison then none
  else if isInt q then
    some (decide ((line.foldl (fun (a : Int) w => a + signedOf 64 w.val.toNat) 0 - signedOf 64 corner.val.toNat) % 2 ^ 32 ≠ 0))
  else
    let z := fp32.decode corner.val.toNat
    let w := fp32.decode corner.mag.toNat
    if unsound z || unsound w then none
    else some (tooFar (sumF32 (line.map fun s => fp32.decode s.val.toNat)) z w sigma)

/-- The check of a command (R146 to R149): its location kind (0 when it passes), row, column and flags. -/
structure CheckOut where
  kind : Nat
  row : Nat
  col : Nat
  flags : BitVec 7
  deriving DecidableEq, Repr

/-- Compare every column, row and corner and classify the result. -/
def checkTile (q : QCmd) (config : BitVec 32) (b : MxBank) : CheckOut :=
  if config.getLsbD 0 = false then ⟨0, 0xFF, 0xFF, flagCheckNone⟩
  else
    let sigma := sigmaOf (isNarrow q) (mK q.word) (guardOf config (isNarrow q))
    let ix := List.range 64
    let cols : List Cmp := ix.map fun j => checkLine q sigma (ix.map fun i => b.site i j) (b.site 64 j)
    let rows : List Cmp := ix.map fun i => checkLine q sigma (ix.map fun j => b.site i j) (b.site i 64)
    let c1 := checkCorner q sigma (ix.map fun j => b.site 64 j) (b.site 64 64) (cols.any fun c => c.isNone)
    let c2 := checkCorner q sigma (ix.map fun i => b.site i 64) (b.site 64 64) (rows.any fun c => c.isNone)
    let bad (l : List Cmp) : List Nat := (l.zipIdx.filter fun p => p.1 == some true).map Prod.snd
    let br := bad rows
    let bc := bad cols
    let corner := c1 == some true || c2 == some true
    let none1 := rows.all fun c => c.isNone
    let none2 := cols.all fun c => c.isNone
    let part := rows.any (fun c => c.isNone) || cols.any (fun c => c.isNone) || c1.isNone || c2.isNone
    let flags := if none1 && none2 then flagCheckNone else if part then flagCheckPartial else 0
    let kind :=
      if corner then 5
      else if br = [] ∧ bc = [] then 0
      else if br.length = 1 ∧ bc.length = 1 then 1
      else if bc = [] then 2
      else if br = [] then 3
      else 4
    ⟨kind, br.head?.getD 0xFF, bc.head?.getD 0xFF, flags⟩

/-- The bits an accumulator drains to (R173). -/
def drainBits (q : QCmd) (st : Site) : Nat :=
  if isInt q then st.val.toNat % 2 ^ 32
  else
    let f := if dFmt q.d1 = 0x1 then bf16 else fp32
    (f.round .rne false 24 0 (siteNum q st)).bits

/-- Drain a tile into the cell store, row by row (R133, R173, R188). -/
def drainTile (q : QCmd) (b : MxBank) (m : StoreState) : StoreState :=
  let sz := if dFmt q.d1 = 0x1 then 2 else 4
  (List.range (outRows q)).foldl (fun m i =>
    let bytes := (List.range (outCols q)).flatMap fun j =>
      (leBytes sz (drainBits q (b.site i j))).map fun x => (x, (b.site i j).poison)
    m.writeP ((dOffset q.d1).toNat + i * (dLdim q.d1).toNat) bytes) m

/-- Add 1 to a field of CL_MX_CHECKS, saturating (R161): bits lo upward, n bits wide. -/
def bumpChecks (r : BitVec 32) (lo n : Nat) : BitVec 32 :=
  let v := bitsOf r.toNat (lo + n - 1) lo
  if v = 2 ^ n - 1 then r else r + BitVec.ofNat 32 (2 ^ lo)

/-- Report a mismatch (R149, R151): the event, CL_MX_STATUS and, for a first attempt, the count. -/
def State.mxMismatch (s : State) (id : CellId) (m : MxCmd) (o : CheckOut) : State :=
  (s.modCell id fun c => { c with ctr := { c.ctr with
      mxLoc := BitVec.ofNat 32 (o.kind * 2 ^ 28 + o.row * 2 ^ 20 + o.col * 2 ^ 12)
      mxChecks := if m.attempt = 0 then bumpChecks c.ctr.mxChecks 0 16 else c.ctr.mxChecks } }).raise 0x0201 .warning
    [(2, id.toNat), (4, m.cmd.seq.toNat), (1, m.attempt), (1, o.kind), (1, o.row), (1, o.col)]

/-- End a matrix command whose check failed for good (R153, R154). -/
def State.mxFailed (s : State) (id : CellId) (m : MxCmd) (o : CheckOut) (streamed : Bool) : State :=
  let task := (s.cell id).task.id.toNat
  let s1 := s.modCell id fun c => { c with ctr := { c.ctr with mxChecks := bumpChecks c.ctr.mxChecks 24 8 } }
  let s2 := if streamed then s1.raise 0x0204 .error [(2, id.toNat), (4, m.cmd.seq.toNat), (4, task), (1, o.kind)]
    else s1.raise 0x0203 .error [(2, id.toNat), (4, m.cmd.seq.toNat), (4, task), (1, o.kind), (1, o.row), (1, o.col)]
  (s2.suspect id 1).cmdFault id 0 1 m.cmd.seq stMxCheck 0

/-- The rows of two tensors of a cell store meet. -/
def rowsMeet (d e : QWord) : Bool :=
  (List.range (dRows d).toNat).any fun r => (List.range (dRows e).toNat).any fun k =>
    let a := (dOffset d).toNat + r * (dLdim d).toNat
    let b := (dOffset e).toNat + k * (dLdim e).toNat
    decide (a < b + elemBytes e ∧ b < a + elemBytes d)

/-- Hand a compute part's result region to the link port (R241, R242). -/
def CellState.handOff (c : CellState) (q : QCmd) (desc : QWord) : CellState :=
  { c with handed := c.handed ++ [⟨q.seq, cCf q.word, desc, cOpc q.word, 0, false⟩] }

/-- The check of a matrix command has passed (R153): a retry that passed is counted and reported at its check beat. -/
def State.mxPassed (s : State) (id : CellId) (m : MxCmd) : State :=
  if m.attempt = 1 then
    (s.modCell id fun c => { c with ctr := { c.ctr with mxChecks := bumpChecks c.ctr.mxChecks 16 8 } }).raise 0x0202 .info
      [(2, id.toNat), (4, m.cmd.seq.toNat)]
  else s

/-- A matrix command completes: it leaves the array, its panels are released, it hands off and signals (R132, R153). -/
def State.mxComplete (s : State) (id : CellId) (m : MxCmd) : State :=
  let c := s.cell id
  let c1 : CellState :=
    { c with
      mx := { c.mx with cmds := c.mx.cmds.filter fun k => k.cmd.seq ≠ m.cmd.seq }
      qmx := { c.qmx with run := c.qmx.run.filter fun k => k.cmd.seq ≠ m.cmd.seq } }
  let c2 := if cFuse m.cmd.word then c1.handOff m.cmd m.cmd.d1 else c1
  let flags := m.flags ||| (if m.attempt = 1 then flagRetried else 0)
  releasePanels id m.cmd (dRows m.cmd.d0).toNat ((s.setCell id c2).completeCmd id 0 m.cmd.word flags none)

/-- Put a paced command's ring back to its step 0 (R152). -/
def MxState.rewind (x : MxState) (m : MxCmd) : MxState :=
  if mPace m.cmd.word then x.setRing { x.ring m.cmd with pos := m.ringBase } else x

/-- An abandoned command as it will run again (R152), with what it has done. -/
def CellState.again (c : CellState) (r : RunCmd) : QCmd :=
  match c.mx.cmdOf r.cmd.seq with
  | some k => { k.cmd with rerun := true, past := { k.cmd.past with nan := k.cmd.past.nan || k.nan.isSome, trap := k.trap } }
  | none => { r.cmd with rerun := true }

/-- Abandon every command of q.mx that started after the oldest, clear their banks and put them back to run again, and
ready the oldest for its retry (R152). -/
def CellState.mxRetry (c : CellState) (m : MxCmd) : CellState :=
  let m' : MxCmd := { m with attempt := 1, rows := 0, tailOpen := mLink m.cmd.word, tailOwn := !mLink m.cmd.word
                             flags := m.flags &&& (flagLongsum ||| flagNan), tile := none }
  let clean := (c.mx.cmds.drop 1).foldl (fun (x : MxState) k => x.setBank k.bank []) c.mx
  let mx := (c.mx.cmds.reverse).foldl MxState.rewind clean
  { c with
    mx := { mx with cmds := [m'], hist := [], nextBank := !m.bank, prev := some m', retry := true }
    qmx := { q := (c.qmx.run.drop 1).map c.again ++ c.qmx.q, run := c.qmx.run.take 1 } }

/-- Apply the environment's upsets to a bank. -/
def upsetBank (b : MxBank) (us : List Upset) : MxBank :=
  us.foldl (fun b u => if u.row ≤ 64 ∧ u.col ≤ 64 then Sparse.put b (65 * u.row + u.col) { b.site u.row u.col with val := u.value }
    else b) b

/-- The check beat of the oldest command of the array (R131, R146 to R155, R184): its tile is drained and compared, and
it completes, is retried, or ends with a fault. -/
def checkBeat (id : CellId) (us : List Upset) (s : State) : State :=
  let c := s.cell id
  match c.mx.cmds, c.qmx.run with
  | m :: _, r :: _ =>
    if m.rows < spanOf m.cmd ∨ m.checked ∨ r.cmd.seq ≠ m.cmd.seq ∨ c.mx.retry then s
    else
      let bank := upsetBank (m.tile.getD (c.mx.bank m.bank)) us
      let o := checkTile m.cmd m.config bank
      let m1 := { m with flags := m.flags ||| o.flags, tile := m.tile.map fun _ => bank }
      let mx := if m.tile.isSome then c.mx else c.mx.setBank m.bank bank
      let s0 := s.setCell id { c with store := drainTile m.cmd bank c.store, mx := mx.modCmd m.cmd.seq fun _ => m1 }
      let s1 := if cFuse m.cmd.word then s0.spoilParts id fun p => rowsMeet m.cmd.d1 p.desc else s0
      let s2 := if o.kind = 0 then s1 else s1.mxMismatch id m o
      if m.trap then s2.cmdFault id 0 1 m.cmd.seq stNanTrap 0
      else if o.kind = 0 then
        let s3 := s2.mxPassed id m1
        if cFuse m.cmd.word ∧ 4 ≤ c.handed.length then
          releasePanels id m.cmd (dRows m.cmd.d0).toNat
            (s3.modCell id fun c => { c with mx := c.mx.modCmd m.cmd.seq fun k => { k with checked := true } })
        else s3.mxComplete id m1
      else if mPace m.cmd.word ∧ ¬ isHeld m.cmd then s2.mxFailed id m o true
      else if m.attempt = 1 then s2.mxFailed id m o false
      else s2.modCell id fun c => c.mxRetry m
  | _, _ => s

/-- The retry re-reads the failed command's row 0 (R152). -/
def retryStart (id : CellId) (s : State) : State :=
  let c := s.cell id
  if c.mx.retry then settleTail id (streamOn id (s.setCell id { c with mx := { c.mx with retry := false } })) else s

/-- The array takes the next panel and reads on (R139); a command that a chained one waits for takes the panels of its
tail (R137). -/
def panelTaken (id : CellId) (s : State) : State :=
  if (s.cell id).mx.retry then s
  else
    let s1 := settleTail id (streamOn id s)
    let c := s1.cell id
    match c.qmx.q with
    | n :: _ => if cOpc n.word = 1 ∧ chains c.mx.prev n ∧ 2 ≤ c.mx.cmds.length then finishOldest id s1 else s1
    | [] => s1

end Sys2Proof.Machine
end

