-- ==== Sys2Proof/Machine/Approx.lean ====
section
/-!
DEFINITION. The approximated vector functions (R226, FN 0x05 to 0x09): each exact value to more than a hundred bits, and
the FP32 results the stated accuracy admits, among which the device's is free.
-/

namespace Sys2Proof.Machine

/-- One in the fixed-point numbers of this file: 192 bits below the point. -/
def fxOne : Nat := 2 ^ 192

/-- Terms of the series of atanh z = z + z^3 / 3 + z^5 / 5 + ..., in fixed point: the sum, the power and its index. -/
def atanhSum (z : Nat) : Nat :=
  (iter (fun (a : Nat × Nat × Nat) => (a.1 + a.2.1 / (2 * a.2.2 + 1), a.2.1 * z / fxOne * z / fxOne, a.2.2 + 1)) 70
    (0, z, 0)).1

/-- The natural logarithm of 2 in fixed point: 2 atanh (1/3). -/
def fxLn2 : Nat := 2 * atanhSum (fxOne / 3)

/-- The exponential of r / 2^192, for r from 0 below ln 2, in fixed point. -/
def expSum (r : Nat) : Nat :=
  (iter (fun (a : Nat × Nat × Nat) => (a.1 + a.2.1, a.2.1 * r / fxOne / (a.2.2 + 1), a.2.2 + 1)) 60 (0, fxOne, 0)).1

/-- A finite number in fixed point, rounded down. -/
def fxOf (neg : Bool) (m : Nat) (e : Int) : Int :=
  let v : Int := if neg then -(m : Int) else m
  if 0 ≤ e + 192 then v * 2 ^ (e + 192).toNat else v / 2 ^ (-(e + 192)).toNat

/-- The exponential; beyond 200 it counts as 2^288, and below -200 as 2^-288. -/
def Num.exp : Num → Num
  | .nan => .nan
  | .inf neg => if neg then .fin false 0 0 else .inf false
  | .fin neg m e =>
    let x := fxOf neg m e
    if 200 * (fxOne : Int) ≤ x then .fin false 1 288
    else if x ≤ -200 * (fxOne : Int) then .fin false 1 (-288)
    else
      let k := x / fxLn2
      .fin false (expSum (x - k * fxLn2).toNat) (k - 192)

/-- The natural logarithm of m * 2^e, m not 0. -/
def Num.ln (m : Nat) (e : Int) : Num :=
  let k := Nat.log2 m
  let z := (m - 2 ^ k) * fxOne / (m + 2 ^ k)
  let v : Int := 2 * (atanhSum z : Int) + ((k : Int) + e) * fxLn2
  .fin (decide (v < 0)) v.natAbs (-192)

/-- The exact value of an approximated function on a finite input that has no special value (R226). -/
def approxExact (fn : Nat) (v : Num) : Num :=
  match fn, v with
  | 0x05, v => (Num.ofInt 1).div v.sqrt
  | 0x06, v => v.exp
  | 0x07, .fin _ m e => Num.ln m e
  | 0x08, .fin neg m e =>
    if m = 0 then .fin neg 0 0
    else
      let y := (if Num.lt (.fin false 64 0) (.fin false m e) then .fin false 64 0 else .fin false m e : Num)
      let a := (y.scale 1).exp
      let t := (a.add (Num.ofInt (-1))).div (a.add (Num.ofInt 1))
      if neg then t.neg else t
  | _, v => (Num.ofInt 1).div ((Num.ofInt 1).add v.neg.exp)

/-- The accuracy of R226: 1 ulp for RSQRT, 2 ulp for the others, and 2^-23 for LOG of an input from 0.5 to 2. -/
def approxBound (fn : Nat) (v exact : Num) : Num :=
  match exact with
  | .fin _ m e =>
    if fn = 0x07 ∧ ¬ Num.lt v (.fin false 1 (-1)) ∧ ¬ Num.lt (.fin false 1 1) v then .fin false 1 (-23)
    else .fin false (if fn = 0x05 then 1 else 2) (if m = 0 then fp32.umin else fp32.unit m e)
  | x => x

/-- Whether a result keeps the stated accuracy (R226): an exact value from 2^128 upward overflows to an infinity. -/
def approxOk (fn : Nat) (v y : Num) : Bool :=
  let x := approxExact fn v
  if Num.lt x (.fin false 1 128) then
    !y.isNan && !y.isInf && !Num.lt (approxBound fn v x) (y.add x.neg).abs
  else y == .inf false

/-- The FP32 result of an approximated function on a finite input that has no special value (R226): the device's own,
which is free within the stated accuracy (log entry 5), and one that keeps it in every case. -/
def approxNum (fn : Nat) (v : Num) : Num :=
  let y := Num.ofFp32 (Config.approx (BitVec.ofNat 6 fn) (BitVec.ofNat 32 (fp32.round .rne false 24 0 v).bits))
  if approxOk fn v y then y else fp32.decode (fp32.round .rne false 24 0 (approxExact fn v)).bits

end Sys2Proof.Machine
end

