-- ==== Sys2Proof/Machine/Vector.lean ====
section
/-!
DEFINITION. The vector engine (R176 to R178, R208 to R212, R224 to R230): tensors in the cell store, element values,
the functions, the reductions, and a whole command from its checks to its writes.
-/

namespace Sys2Proof.Machine

/-! ### A tensor in the cell store (R100, R169, R170) -/

/-- A descriptor in plain numbers, with its companion scale tensor. -/
structure TView where
  off : Nat
  ldim : Nat
  fmt : EFmt
  rows : Nat
  cols : Nat
  soff : Nat
  sldim : Nat
  deriving DecidableEq, Repr

/-- The first and last byte a tensor's rows reach, as a bound one past the end. -/
def TView.top (t : TView) : Nat := t.off + (t.rows - 1) * t.ldim + t.fmt.rowBytes t.cols

/-- One past the last byte of the companion scale tensor. -/
def TView.stop (t : TView) : Nat := t.soff + (t.rows - 1) * t.sldim + (t.cols + 31) / 32

/-- Whether every byte of a tensor, and of its companion, lies in the cell store (R53). -/
def TView.inStore (t : TView) : Bool := decide (t.top ≤ 0x300000) && (!t.fmt.scaled || decide (t.stop ≤ 0x300000))

/-- A descriptor's view, or the fault status that its own rules give: a reserved format FORMAT, then HANDLE, alignment,
LDIM, shape and pairing DESC, then what the engine cannot read or write FORMAT (R163, R220, R224). -/
def vectorView (d e : QWord) (odd : Bool) : TView ⊕ Nat :=
  match EFmt.ofCode (dFmt d).toNat with
  | none => .inr stFormat
  | some f =>
    let rows := (dRows d).toNat
    let cols := (dCols d).toNat
    let off := (dOffset d).toNat
    let sz := max 1 (f.width / 8)
    if dHandle d ≠ 0 ∨ off % sz ≠ 0 ∨ (dLdim d).toNat < f.rowBytes cols ∨ rows = 0 ∨ cols = 0 ∨ (f.scaled ∧ odd) then
      .inr stDesc
    else if f.scaled ∧ (dHandle e ≠ 0 ∨ dFmt e ≠ 0xC ∨ (dRows e).toNat ≠ rows ∨ (dCols e).toNat ≠ (cols + 31) / 32 ∨
        (dLdim e).toNat < (cols + 31) / 32) then .inr stDesc
    else if f = .int64 ∨ f = .e8m0 then .inr stFormat
    else
      let t : TView := ⟨off, (dLdim d).toNat, f, rows, cols, (dOffset e).toNat, (dLdim e).toNat⟩
      if t.inStore then .inl t else .inr stRange

/-- The lanes a tensor occupies, for the error checks of a read (R58). -/
def TView.lanes (t : TView) : List Nat :=
  (List.range t.rows).flatMap fun r =>
    lanesOf (t.off + r * t.ldim) (t.fmt.rowBytes t.cols) ++
      (if t.fmt.scaled then lanesOf (t.soff + r * t.sldim) ((t.cols + 31) / 32) else [])

/-- The bits of element (r, k) and its poison. -/
def TView.bits (t : TView) (m : StoreState) (r k : Nat) : Nat × Bool :=
  let w := t.fmt.width
  if w = 4 then
    let b := m.readP (t.off + r * t.ldim + k / 2) 1
    (leNat (b.map Prod.fst) / 16 ^ (k % 2) % 16, b.any Prod.snd)
  else
    let b := m.readP (t.off + r * t.ldim + k * (w / 8)) (w / 8)
    (leNat (b.map Prod.fst), b.any Prod.snd)

/-- The scale byte of element (r, k) and its poison. -/
def TView.scaleOf (t : TView) (m : StoreState) (r k : Nat) : Nat × Bool :=
  let b := m.readP (t.soff + r * t.sldim + k / 32) 1
  (leNat (b.map Prod.fst), b.any Prod.snd)

/-- The row-major position of the first element of a tensor that is poisoned itself or by its scale (R188). -/
def TView.poisonAt (t : TView) (m : StoreState) : Option Nat :=
  if m.poison = [] then none
  else (List.range (t.rows * t.cols)).find? fun i =>
    (t.bits m (i / t.cols) (i % t.cols)).2 || (t.fmt.scaled && (t.scaleOf m (i / t.cols) (i % t.cols)).2)

/-- The runs of bytes of a tensor and of its companion. -/
def TView.runs (t : TView) : List (Nat × Nat) :=
  (List.range t.rows).map (fun r => (t.off + r * t.ldim, t.fmt.rowBytes t.cols)) ++
    (if t.fmt.scaled then (List.range t.rows).map fun r => (t.soff + r * t.sldim, (t.cols + 31) / 32) else [])

/-- Whether a destination overlaps a source in another way than as the same region (R230). -/
def TView.overlaps (src dst : TView) : Bool :=
  !(src.fmt == dst.fmt && src.rows == dst.rows && src.cols == dst.cols && src.runs == dst.runs) &&
    src.runs.any fun a => dst.runs.any fun b => decide (a.1 < b.1 + b.2 ∧ b.1 < a.1 + a.2)

/-! ### Element values -/

/-- An element on a lane: its number under CT 0, its integer under CT 1, its poison, and a NaN it brought. -/
structure Elem where
  num : Num
  int : Int
  poison : Bool
  nan : Option NanKind
  deriving DecidableEq, Repr

/-- What a vector command draws from (R199): its key and the rounding count of each lane. -/
structure VCtx where
  seed : BitVec 64
  cell : CellId
  seq : BitVec 32
  mode : RMode
  counts : Sparse Nat
  deriving DecidableEq, Repr

/-- The draw a lane would take next. -/
def VCtx.drawOf (x : VCtx) (lane : Nat) : Nat :=
  (Config.draw x.seed x.cell 2 x.seq 0 lane (x.counts.at 0 lane)).toNat

/-- Count a draw taken. -/
def VCtx.took (x : VCtx) (lane : Nat) (drew : Bool) : VCtx :=
  if drew && x.mode == .sr then { x with counts := x.counts.put lane (x.counts.at 0 lane + 1) } else x

/-- Round a number to FP32 on a lane (R178), without saturation. -/
def VCtx.toF32 (x : VCtx) (lane : Nat) (n : Num) : Num × VCtx :=
  let r := fp32.round x.mode false 24 (x.drawOf lane) n
  (fp32.decode r.bits, x.took lane r.drew)

/-- Wrap an integer to 32 bits (R178). -/
def wrap32 (v : Int) : Int := signedOf 32 (unsignedOf 32 v)

/-- Read an element as the compute type asks (R177, R224). -/
def readElem (x : VCtx) (ct : Bool) (t : TView) (m : StoreState) (r k lane : Nat) : Elem × VCtx :=
  let (b, p) := t.bits m r k
  match t.fmt.ffmt with
  | some f =>
    let (sb, sp) := if t.fmt.scaled then t.scaleOf m r k else (127, false)
    let raw := f.decode b
    let v : Num :=
      if !t.fmt.scaled then raw
      else if sb = 0xFF then .nan
      else fp32.decode (fp32.round .rne false 24 0 (raw.scale ((sb : Int) - 127))).bits
    let kind : Option NanKind :=
      if p || sp then none
      else if t.fmt.scaled && sb == 0xFF then some .scale
      else if v.isNan then some .observed else none
    if ct then
      let (i, _, drew) := roundInt 32 x.mode 24 (x.drawOf lane) v
      (⟨v, i, p || sp, kind⟩, x.took lane drew)
    else (⟨v, 0, p || sp, kind⟩, x)
  | none =>
    let i := signedOf t.fmt.width b
    if ct then (⟨.ofInt i, i, p, none⟩, x)
    else
      let (v, x') := x.toF32 lane (.ofInt i)
      (⟨v, i, p, none⟩, x')

/-! ### Functions (R225, R226, R227) -/

/-- Mark a created NaN: a NaN result of inputs that hold none (R179). -/
def created (inputs : Option NanKind) (v : Num) : Option NanKind :=
  match inputs with
  | some k => some k
  | none => if v.isNan then some .created else none

/-- The binary functions of R225 under CT 0, exact before rounding; the comparisons give 0 or 1. -/
def binNum (fn : Nat) (a b : Num) : Num :=
  match fn with
  | 0x00 => a.add b
  | 0x01 => a.add b.neg
  | 0x02 => a.mul b
  | 0x03 => a.div b
  | 0x04 => Num.pick false a b
  | 0x05 => Num.pick true a b
  | 0x06 => if Num.lt a b then .ofInt 1 else .ofInt 0
  | _ => if Num.eq a b then .ofInt 1 else .ofInt 0

/-- The binary functions of R225 under CT 1. -/
def binInt (fn : Nat) (a b : Int) : Int :=
  match fn with
  | 0x00 => wrap32 (a + b)
  | 0x01 => wrap32 (a - b)
  | 0x02 => wrap32 (a * b)
  | 0x03 => if b = 0 then -1 else wrap32 (a.tdiv b)
  | 0x04 => min a b
  | 0x05 => max a b
  | 0x06 => if a < b then 1 else 0
  | 0x07 => if a = b then 1 else 0
  | 0x08 => signedOf 32 (unsignedOf 32 a &&& unsignedOf 32 b)
  | 0x09 => signedOf 32 (unsignedOf 32 a ||| unsignedOf 32 b)
  | _ => signedOf 32 (unsignedOf 32 a ^^^ unsignedOf 32 b)

/-- The unary functions of R226 under CT 0, with their special values. -/
def unNum (fn : Nat) (v : Num) : Num :=
  match fn, v with
  | 0x00, v => v
  | 0x01, v => v.abs
  | 0x02, v => v.neg
  | 0x03, v => v.sqrt
  | 0x04, v => (Num.ofInt 1).div v
  | _, .nan => .nan
  | 0x05, .inf n => if n then .nan else .fin false 0 0
  | 0x05, .fin n m e => if m = 0 then .inf n else if n then .nan else approxNum 5 (.fin n m e)
  | 0x06, .inf n => if n then .fin false 0 0 else .inf false
  | 0x06, v => approxNum 6 v
  | 0x07, .inf n => if n then .nan else .inf false
  | 0x07, .fin n m e => if m = 0 then .inf true else if n then .nan else approxNum 7 (.fin n m e)
  | 0x08, .inf n => .fin n 1 0
  | 0x08, v => approxNum 8 v
  | 0x09, .inf n => if n then .fin false 0 0 else .fin false 1 0
  | _, v => approxNum 9 v

/-- The unary functions under CT 1: COPY, ABS and NEG. -/
def unInt (fn : Nat) (v : Int) : Int :=
  match fn with
  | 0x00 => v
  | 0x01 => wrap32 (if v < 0 then -v else v)
  | _ => wrap32 (-v)

/-- A computed element: rounded to FP32 on its lane under CT 0. The approximated functions are in FP32 already. -/
def compute (x : VCtx) (ct : Bool) (lane : Nat) (num : Num) (int : Int) (poison : Bool) (inNan : Option NanKind)
    (exact : Bool) : Elem × VCtx :=
  if ct then (⟨.ofInt int, int, poison, if poison then none else inNan⟩, x)
  else
    let (v, x') := if exact then (num, x) else x.toF32 lane num
    (⟨v, int, poison, if poison then none else created inNan v⟩, x')

/-! ### Writing results (R175, R176, R224) -/

/-- A written element: its bits, poison and NaN. -/
structure OutElem where
  bits : Nat
  poison : Bool
  nan : Option NanKind
  deriving DecidableEq, Repr

/-- Convert a result to a format that has no block scale (R175). -/
def writeElem (x : VCtx) (sat : Bool) (f : EFmt) (lane : Nat) (e : Elem) : OutElem × VCtx :=
  match f.ffmt with
  | some l =>
    let r := l.round x.mode sat 24 (x.drawOf lane) e.num
    (⟨r.bits, e.poison, if e.poison then none else firstNan e.nan r.nan⟩, x.took lane r.drew)
  | none =>
    let (v, k, drew) := roundInt f.width x.mode 24 (x.drawOf lane) e.num
    (⟨unsignedOf f.width v, e.poison, if e.poison then none else firstNan e.nan k⟩, x.took lane drew)

/-- The largest magnitude of a block, as an exact non-negative number. -/
def blockMax (es : List Elem) : Num :=
  es.foldl (fun acc e => if Num.lt acc e.num.abs then e.num.abs else acc) (.fin false 0 0)

/-- Choose the scale of a block and convert its elements (R176), each with the NaN it brought or creates (R179). `lane0` is
the lane of its first element, whose draw the test of the scale takes under SR (log entry 39). -/
def writeBlock (x : VCtx) (f : EFmt) (lane0 : Nat) (es : List Elem) : List OutElem × Nat × VCtx :=
  match f.ffmt with
  | none => ([], 0, x)
  | some l =>
    let live := es.filter fun e => !e.poison
    let own (e : Elem) : Option NanKind := if e.poison then none else e.nan
    let zeroAll (k : NanKind) : List OutElem :=
      es.map fun e => ⟨0, e.poison, if e.poison then none
        else if e.num.isNan then firstNan e.nan (some .observed)
        else if k = .created ∧ e.num.isInf then firstNan e.nan (some .created) else e.nan⟩
    if live.any fun e => e.num.isNan then (zeroAll .observed, 0xFF, x)
    else if live.any fun e => e.num.isInf then (zeroAll .created, 0xFF, x)
    else
      match blockMax live with
      | .fin _ m e =>
        if m = 0 then (es.map fun v => ⟨l.signBit v.num.isNeg, v.poison, own v⟩, 0x7F, x)
        else
          let e0 : Int := (Nat.log2 m : Int) + e - l.emax
          let t := l.round x.mode false 24 (x.drawOf lane0) (.fin false m (e - e0))
          let x1 := x.took lane0 t.drew
          let ex : Int := min 127 (max (-127) (if t.past then e0 + 1 else e0))
          let (outs, x2) := (es.zipIdx).foldl (fun (acc : List OutElem × VCtx) (v : Elem × Nat) =>
            let r := l.round acc.2.mode true 24 (acc.2.drawOf ((lane0 + v.2) % 128)) (v.1.num.scale (-ex))
            (acc.1 ++ [⟨r.bits, v.1.poison, own v.1⟩], acc.2.took ((lane0 + v.2) % 128) r.drew)) ([], x1)
          (outs, (ex + 127).toNat, x2)
      | _ => ([], 0, x)

/-- A row of results in a format: its elements and, for a block-scaled one, its scale bytes. -/
def writeRow (x : VCtx) (sat : Bool) (f : EFmt) (first : Nat) (es : List Elem) :
    List OutElem × List (Nat × Bool) × VCtx :=
  if f.scaled then
    let blocks := (List.range ((es.length + 31) / 32)).map fun b => (b, (es.drop (32 * b)).take 32)
    blocks.foldl (fun (acc : List OutElem × List (Nat × Bool) × VCtx) b =>
      let (o, sc, x') := writeBlock acc.2.2 f ((first + 32 * b.1) % 128) b.2
      (acc.1 ++ o, acc.2.1 ++ [(sc, false)], x')) ([], [], x)
  else
    let (o, x') := (es.zipIdx).foldl (fun (acc : List OutElem × VCtx) (v : Elem × Nat) =>
      let (e, x') := writeElem acc.2 sat f ((first + v.2) % 128) v.1
      (acc.1 ++ [e], x')) ([], x)
    (o, [], x')

/-- The bytes of the first n elements of a row, and the elements of a last, half-filled byte padded with 0. -/
def rowBytesOf (f : EFmt) (es : List OutElem) : List (Byte × Bool) :=
  if f.width = 4 then
    (List.range ((es.length + 1) / 2)).map fun k =>
      let lo := (es[2 * k]?).getD ⟨0, false, none⟩
      let hi := (es[2 * k + 1]?).getD ⟨0, false, none⟩
      (BitVec.ofNat 8 (lo.bits % 16 + 16 * (hi.bits % 16)), lo.poison || hi.poison)
  else es.flatMap fun e => (leBytes (f.width / 8) e.bits).map fun b => (b, e.poison)

/-- Bytes of a row cut short after an odd number of 4-bit elements: the high half of the last byte is an element that is
not written, and stays (R169, R184). -/
def keepHalf (m : StoreState) (a : Nat) (bs : List (Byte × Bool)) : List (Byte × Bool) :=
  match bs.getLast? with
  | none => bs
  | some (b, p) =>
    let i := bs.length - 1
    bs.take i ++ [((b &&& 0x0F) ||| (m.mem.get 0 (a + i) &&& 0xF0), p)]

/-- Write the first n elements of row r of a tensor, whole blocks with their scales for a block-scaled format. -/
def TView.putRow (t : TView) (m : StoreState) (r : Nat) (es : List OutElem) (scales : List (Nat × Bool)) (n : Nat) :
    StoreState :=
  let n' := if t.fmt.scaled ∧ n < es.length then n / 32 * 32 else min n es.length
  let bs := rowBytesOf t.fmt (es.take n')
  let a := t.off + r * t.ldim
  let m1 := m.writeP a (if t.fmt.width = 4 ∧ n' % 2 = 1 ∧ n' < es.length then keepHalf m a bs else bs)
  if t.fmt.scaled then
    m1.writeP (t.soff + r * t.sldim)
      ((scales.take ((n' + 31) / 32)).map fun (b, p) => (BitVec.ofNat 8 b, p))
  else m1

/-! ### Reductions (R208 to R211, R228) -/

/-- The pairwise tree of R208 over 2^n values: result 2t is the left operand. -/
def treeSum (ct : Bool) : Nat → VCtx → List (Num × Int) → (Num × Int) × VCtx
  | 0, x, l => ((l[0]?).getD (.fin false 0 0, 0), x)
  | n + 1, x, l =>
    let pairs := (List.range (l.length / 2)).map fun t =>
      (2 * t, (l[2 * t]?).getD (.fin false 0 0, 0), (l[2 * t + 1]?).getD (.fin false 0 0, 0))
    let (l', x') := pairs.foldl (fun (acc : List (Num × Int) × VCtx) p =>
      let (v, x') := if ct then (Num.fin false 0 0, acc.2) else acc.2.toF32 p.1 (p.2.1.1.add p.2.2.1)
      (acc.1 ++ [(v, wrap32 (p.2.1.2 + p.2.2.2))], x')) ([], x)
    treeSum ct n x' l'

/-- The sum of R208: 128 lanes, each from its first element, then the tree. -/
def sumElems (x : VCtx) (ct : Bool) (es : List Elem) : (Num × Int) × VCtx :=
  let lane (l : Nat) : List Elem := (es.zipIdx.filter fun p => p.2 % 128 == l).map Prod.fst
  let (ls, x1) := (List.range 128).foldl (fun (acc : List (Num × Int) × VCtx) l =>
    match lane l with
    | [] => (acc.1 ++ [(Num.fin false 0 0, 0)], acc.2)
    | e :: rest =>
      let (v, x') := rest.foldl (fun (a : (Num × Int) × VCtx) (e : Elem) =>
        let (n, x') := if ct then (Num.fin false 0 0, a.2) else a.2.toF32 l (a.1.1.add e.num)
        ((n, wrap32 (a.1.2 + e.int)), x')) ((e.num, e.int), acc.2)
      (acc.1 ++ [v], x')) ([], x)
  treeSum ct 7 x1 ls

/-- The better of two elements in the order of R210, each with its global index: among equal ranks the lowest index. -/
def betterElem (ct up : Bool) (a e : Elem × Nat) : Elem × Nat :=
  let less (x y : Elem) : Bool :=
    if ct then (if up then decide (x.int < y.int) else decide (y.int < x.int)) else Num.better up y.num x.num
  if less a.1 e.1 || (!less e.1 a.1 && decide (e.2 < a.2)) then e else a

/-- The best of some elements with their global indices (R210). -/
def bestElem (ct up : Bool) : List (Elem × Nat) → Elem × Nat
  | [] => (⟨.fin false 0 0, 0, false, none⟩, 0)
  | e :: rest => rest.foldl (betterElem ct up) e

/-- The lowest global index among poisoned elements (R211). -/
def poisonIdx (es : List (Elem × Nat)) : Nat :=
  match (es.filter fun e => e.1.poison).map Prod.snd with
  | [] => 0
  | n :: rest => rest.foldl min n

/-- The position of the first element with a property. -/
def firstIdx (p : Elem → Bool) (es : List Elem) : Option Nat := es.findIdx? p

/-- One reduction (R228): the value, its NaN, and the position reported for that NaN (R182). `base` is the row-major
position of the first element. -/
def reduceElems (x : VCtx) (ct : Bool) (fn : Nat) (imm : BitVec 32) (base : Nat) (es : List Elem) :
    Elem × Nat × VCtx :=
  let poisoned := es.any fun e => e.poison
  let live := es.filter fun e => !e.poison
  let inNan := live.findSome? fun e => e.nan
  let posNan := (firstIdx (fun e => e.nan.isSome) es).getD 0
  let posInf := (firstIdx (fun e => !e.poison && e.num.isInf) es).getD 0
  let isIdx := fn == 3 || fn == 4
  let global := es.zipIdx.map fun e => (e.1, (imm.toNat + base + e.2) % 2 ^ 32)
  if fn = 0 then
    let ((v, i), x') := sumElems x ct es
    let nan := if poisoned then none else created inNan v
    (⟨if ct then .ofInt i else v, i, poisoned, nan⟩, (if inNan.isSome then posNan else posInf), x')
  else if fn = 5 then
    let n := (live.filter fun e =>
      if ct then decide (imm.toInt < (if e.int < 0 then -e.int else e.int))
      else Num.lt (Num.ofFp32 imm) e.num.abs).length
    let nan := firstNan inNan (if !ct && (Num.ofFp32 imm).isNan then some .observed else none)
    (⟨.ofInt n, n, poisoned, if poisoned then none else nan⟩, posNan, x)
  else
    let (e, k) := bestElem ct (fn == 1 || fn == 3) (global.filter fun e => !e.1.poison)
    let i : Int := signedOf 32 (if poisoned then poisonIdx global else k)
    if isIdx then (⟨.ofInt i, i, poisoned, if poisoned then none else inNan⟩, posNan, x)
    else (⟨e.num, e.int, poisoned, if poisoned then none else inNan⟩, posNan, x)

/-! ### A whole command -/

/-- The code check of step 1 of R219: FN under CT, RM, DREG, FUSE and CF (R224 to R229, R240). -/
def vectorCode (w : QWord) : Bool :=
  let fn := (vFn w).toNat
  let ct := vCt w
  let rmOk := vRm w != 3
  let cf := cCf w
  let cfOk := !cFuse w ||
    (((cfCop cf).toNat == 1 || (cfCop cf).toNat == 2 || (cfCop cf).toNat == 4) &&
      ((cfCfn cf).toNat < 3 || (cfCfn cf).toNat == 5 || (cfCfn cf).toNat == 6))
  match (cOpc w).toNat with
  | 1 => rmOk && cfOk && (decide (fn ≤ 7) || (ct && decide (fn ≤ 0xA)))
  | 2 => rmOk && cfOk && (decide (fn ≤ 2) || (!ct && decide (fn ≤ 9)))
  | 3 => rmOk && cfOk && fn == 0 && !ct
  | 4 => rmOk && !cFuse w && decide (fn ≤ 5)
  | 5 => rmOk && !cFuse w && decide (fn ≤ 5) && !(vDel w && vDkind w && decide (8 ≤ (vDreg w).toNat))
  | _ => false

/-- The element format a collective function accepts in a fused command (R240). -/
def fusedFormat (cf : BitVec 32) (f : EFmt) : Bool :=
  match (cfCfn cf).toNat with
  | 5 | 6 => f == .int32
  | _ => f == .fp32 || f == .bf16 || f == .int32

/-- The views a vector command needs, or its fault status and descriptor slot (R224 to R230, R249). -/
structure VViews where
  a : TView
  b : Option TView
  d : Option TView

/-- The descriptor checks of a vector command, slot by slot (step 3 of R219). -/
def vectorViews (q : QCmd) : VViews ⊕ (Nat × Nat) :=
  let w := q.word
  let opc := (cOpc w).toNat
  let odd (lo : Nat) : Bool := w.getLsbD lo
  let needB := (opc == 1 || opc == 3) && !vBimm w
  let needD := opc != 5 || vWrd w
  match vectorView q.d0 q.e0 (odd 92) with
  | .inr st => .inr (st, 0)
  | .inl a =>
    match (if needB then (match vectorView q.d1 q.e1 (odd 88) with | .inl b => .inl (some b) | .inr st => .inr st)
      else .inl none : Option TView ⊕ Nat) with
    | .inr st => .inr (st, 1)
    | .inl b =>
      let shapeB := match b with
        | none => true
        | some v => (v.rows == a.rows || v.rows == 1) && (v.cols == a.cols || v.cols == 1)
      if !shapeB then .inr (stDesc, 1)
      else
        match (if needD then (match vectorView q.d2 q.e2 (odd 84) with | .inl d => .inl (some d) | .inr st => .inr st)
          else .inl none : Option TView ⊕ Nat) with
        | .inr st => .inr (st, 2)
        | .inl d =>
          let rows := if opc = 5 then 1 else a.rows
          let cols := if opc = 4 ∨ opc = 5 then 1 else a.cols
          match d with
          | none => .inl ⟨a, b, d⟩
          | some v =>
            if v.rows ≠ rows ∨ v.cols ≠ cols then .inr (stDesc, 2)
            else if (opc = 4 ∨ opc = 5) ∧ 3 ≤ (vFn w).toNat ∧ v.fmt ≠ .int32 then .inr (stFormat, 2)
            else if cFuse w ∧ ¬ fusedFormat (cCf w) v.fmt then .inr (stFormat, 2)
            else .inl ⟨a, b, d⟩

/-- The immediate operand as an element (R224). -/
def immElem (ct : Bool) (imm : BitVec 32) : Elem :=
  if ct then ⟨.ofInt imm.toInt, imm.toInt, false, none⟩
  else
    let v := Num.ofFp32 imm
    ⟨v, 0, false, if v.isNan then some .observed else none⟩

/-- One output element of VBIN, VUN or VFMA at row r, column k. -/
def elementwise (q : QCmd) (v : VViews) (ma mb md : StoreState) (x : VCtx) (r k : Nat) : Elem × VCtx :=
  let w := q.word
  let opc := (cOpc w).toNat
  let fn := (vFn w).toNat
  let ct := vCt w
  let lane := (r * v.a.cols + k) % 128
  let (a, x1) := readElem x ct v.a ma r k lane
  let (b, x2) := match v.b with
    | some t => readElem x1 ct t mb (if t.rows = 1 then 0 else r) (if t.cols = 1 then 0 else k) lane
    | none => if opc = 2 then (⟨.fin false 0 0, 0, false, none⟩, x1) else (immElem ct (vImm w), x1)
  if opc = 1 then
    compute x2 ct lane (binNum fn a.num b.num) (binInt fn a.int b.int) (a.poison || b.poison) (firstNan a.nan b.nan) false
  else if opc = 2 then
    compute x2 ct lane (unNum fn a.num) (unInt fn a.int) a.poison a.nan (decide (5 ≤ fn))
  else
    match v.d with
    | none => (a, x2)
    | some t =>
      let (d, x3) := readElem x2 ct t md r k lane
      compute x3 ct lane ((a.num.mul b.num).add d.num) 0 (a.poison || b.poison || d.poison)
        (firstNan a.nan (firstNan b.nan d.nan)) false

/-- The NaN of a command: its kind and the position reported. -/
abbrev VNan := NanKind × Nat × Nat

/-- Write the elements of row r from column k on, one unscaled element or a whole block with its scale. -/
def TView.putPart (t : TView) (m : StoreState) (r k : Nat) (es : List OutElem) (scales : List (Nat × Bool)) : StoreState :=
  let a := t.off + r * t.ldim + k * t.fmt.width / 8
  let bs : List (Byte × Bool) := rowBytesOf t.fmt es
  let old : Byte := m.mem.get 0 a
  let half := t.fmt.width = 4 ∧ !t.fmt.scaled
  let m1 := m.writeP a
    (if half ∧ k % 2 = 1 then bs.map fun (b : Byte × Bool) => (((old &&& 0x0F) ||| (b.1 <<< 4) : Byte), b.2)
     else if half ∧ k + 1 < t.cols then bs.map fun (b : Byte × Bool) => (((b.1 &&& 0x0F) ||| (old &&& 0xF0) : Byte), b.2)
     else bs)
  if t.fmt.scaled then
    m1.writeP (t.soff + r * t.sldim + k / 32) (scales.map fun (e : Nat × Bool) => ((BitVec.ofNat 8 e.1 : Byte), e.2))
  else m1

/-- The store an input is read from. Where the destination overlaps a source (`mix` is then the number of the first free
value), each input is the old one or one the command has already written, which R230 leaves open (MARK 35). -/
def pickStore (mix : Option Nat) (old now : StoreState) (i : Nat) : StoreState :=
  match mix with
  | none => old
  | some b => if Config.freeNat (b + i) % 2 = 1 then now else old

/-- A part of a row of an element-wise command: n elements from column k on, read, computed and converted. -/
def elementPart (q : QCmd) (v : VViews) (d : TView) (mix : Option Nat) (old now : StoreState) (x : VCtx) (r k n : Nat) :
    List OutElem × List (Nat × Bool) × VCtx :=
  let (es, x1) := (List.range n).foldl (fun (a : List Elem × VCtx) j =>
    let i := 3 * (r * v.a.cols + k + j)
    let (e, x') := elementwise q v (pickStore mix old now i) (pickStore mix old now (i + 1)) (pickStore mix old now (i + 2))
      a.2 r (k + j)
    (a.1 ++ [e], x')) ([], x)
  writeRow x1 (vSat q.word) d.fmt (r * v.a.cols + k) es

/-- The rows of an element-wise command, in row-major order: for each row the written elements and scales (R225 to
R227). -/
def elementRows (q : QCmd) (v : VViews) (d : TView) (mix : Option Nat) (m : StoreState) (x : VCtx) :
    List (List OutElem × List (Nat × Bool)) :=
  let g := if d.fmt.scaled then 32 else 1
  ((List.range v.a.rows).foldl (fun (acc : List (List OutElem × List (Nat × Bool)) × VCtx × StoreState) r =>
    let out := (List.range ((v.a.cols + g - 1) / g)).foldl
      (fun (a : List OutElem × List (Nat × Bool) × VCtx × StoreState) b =>
        let (o, sc, x') := elementPart q v d mix m a.2.2.2 a.2.2.1 r (g * b) (min g (v.a.cols - g * b))
        let now := if mix.isSome then d.putPart a.2.2.2 r (g * b) o sc else a.2.2.2
        (a.1 ++ o, a.2.1 ++ sc, x', now)) ([], [], acc.2.1, acc.2.2)
    (acc.1 ++ [(out.1, out.2.1)], out.2.2.1, out.2.2.2)) ([], x, m)).1

/-- The first NaN of rows of written elements, at its own position. -/
def firstOutNan (rows : List (List OutElem × List (Nat × Bool))) : Option VNan :=
  (rows.zipIdx).findSome? fun (row, r) =>
    (row.1.zipIdx).findSome? fun (e, k) => e.nan.map fun n => (n, r, k)

/-- Elements of row r of a source, for a reduction, each read from the store its column names. -/
def rowElems (x : VCtx) (ct : Bool) (t : TView) (m : Nat → StoreState) (r : Nat) : List Elem × VCtx :=
  (List.range t.cols).foldl (fun (a : List Elem × VCtx) k =>
    let (e, x') := readElem a.2 ct t (m k) r k ((r * t.cols + k) % 128)
    (a.1 ++ [e], x')) ([], x)

/-- What a vector command computes: the rows to write, the first NaN with its output index, poison, and a delivery. -/
structure VResult where
  rows : List (List OutElem × List (Nat × Bool))
  nan : Option VNan
  /-- Row-major output position at which a trap stops the writes. -/
  stopAt : Nat
  /-- Row-major input position of the element whose beat a trap ends the command in (R184). -/
  nanAt : Nat
  /-- Row-major input position of the first poisoned element or scale consumed (R191). -/
  poisonAt : Option Nat
  deliver : Option Delivery
  deriving DecidableEq, Repr

/-- Compute a command whose checks have passed. -/
def vectorCompute (q : QCmd) (v : VViews) (mix : Option Nat) (m : StoreState) (x : VCtx) : VResult :=
  let w := q.word
  let opc := (cOpc w).toNat
  let ct := vCt w
  let fn := (vFn w).toNat
  if opc ≤ 3 then
    match v.d with
    | none => ⟨[], none, 0, 0, none, none⟩
    | some d =>
      let rows := elementRows q v d mix m x
      let nan := firstOutNan rows
      let stop := match nan with | some (_, r, k) => r * d.cols + k | none => 0
      ⟨rows, nan, stop, stop, (rows.flatMap Prod.fst).findIdx? fun e => e.poison, none⟩
  else if opc = 4 then
    match v.d with
    | none => ⟨[], none, 0, 0, none, none⟩
    | some d =>
      let (rows, nan, _) := (List.range v.a.rows).foldl
        (fun (acc : List (List OutElem × List (Nat × Bool)) × Option (VNan × Nat) × VCtx × StoreState) r =>
          let (_, _, x0, now) := acc
          let (es, x1) := rowElems x0 ct v.a (fun k => pickStore mix m now (r * v.a.cols + k)) r
          let (e, pos, x2) := reduceElems x1 ct fn (vImm w) (r * v.a.cols) es
          let (o, sc, x3) := writeRow x2 (vSat w) d.fmt r [e]
          let here := match e.nan with
            | some k => some ((k, r, pos), r * v.a.cols + pos)
            | none => (o.findSome? fun oe => oe.nan).map fun k => ((k, r, 0), (r + 1) * v.a.cols - 1)
          (acc.1 ++ [(o, sc)], (match acc.2.1 with | some n => some n | none => here), x3,
            if mix.isSome then d.putPart now r 0 o sc else now)) ([], none, x, m)
      ⟨rows, nan.map Prod.fst, (match nan with | some n => n.1.2.1 | none => 0), (match nan with | some n => n.2 | none => 0),
        v.a.poisonAt m, none⟩
  else
    let (es, x1) := (List.range v.a.rows).foldl (fun (a : List Elem × VCtx) r =>
      let (l, x') := rowElems a.2 ct v.a (fun _ => m) r
      (a.1 ++ l, x')) ([], x)
    let (e, pos, x2) := reduceElems x1 ct fn (vImm w) 0 es
    let rows := match v.d with
      | none => []
      | some d =>
        let (o, sc, _) := writeRow x2 (vSat w) d.fmt 0 [e]
        [(o, sc)]
    let val : BitVec 32 := if ct ∨ 3 ≤ fn then BitVec.ofInt 32 e.int else BitVec.ofNat 32 (fp32.round .rne false 24 0 e.num).bits
    let nz := if ct ∨ 3 ≤ fn then e.int != 0 else !e.num.isZero
    let del : Option Delivery :=
      if vDel w then
        (if vDkind w then (if vDreg w = 0 then none else some ⟨true, vDreg w, if nz then 1 else 0, e.poison⟩)
         else some ⟨false, vDreg w, val, e.poison⟩)
      else none
    let nan : Option VNan := match e.nan with
      | some k => some (k, pos / v.a.cols, pos % v.a.cols)
      | none => (rows.findSome? fun r => r.1.findSome? fun oe => oe.nan).map fun k => (k, 0, 0)
    ⟨rows, nan, 0, if e.nan.isSome then pos else es.length - 1, v.a.poisonAt m, del⟩

/-- Write the first n output positions of a result, in row-major order (R184). -/
def putRows (d : TView) (rows : List (List OutElem × List (Nat × Bool))) (n : Nat) (m : StoreState) : StoreState :=
  (rows.zipIdx).foldl (fun m (row : (List OutElem × List (Nat × Bool)) × Nat) =>
    d.putRow m row.2 row.1.1 row.1.2 (n - row.2 * row.1.1.length)) m

/-- Beats with a lane operation (R231, R523). -/
def vectorBeats (q : QCmd) (e : Nat) : Nat :=
  let b := (e + 127) / 128
  if cOpc q.word = 2 ∧ 5 ≤ (vFn q.word).toNat then 2 * b else b

/-- Start a vector command whose wait has been taken: its checks, its whole effect on the store, and its place among
the commands in progress, where its completion, delivery and signal follow (R219, R224 to R231, R243). -/
def startVector (id : CellId) (q : QCmd) (s : State) : State :=
  let w := q.word
  let opc := (cOpc w).toNat
  match vectorViews q with
  | .inr (st, slot) => s.cmdFault id 1 opc q.seq st (if st = stDesc ∨ st = stFormat then slot else 0)
  | .inl v =>
    let lanes := v.a.lanes ++ (match v.b with | some b => b.lanes | none => []) ++
      (if opc = 3 then (match v.d with | some d => d.lanes | none => []) else [])
    let s1 := s.touchStore id lanes
    let c := s1.cell id
    let x : VCtx := ⟨c.regs.seed, id, q.seq, rmOf (vRm w), []⟩
    let mixed := match v.d with
      | some d => decide (opc ≤ 4) && (v.a.overlaps d || (match v.b with | some b => b.overlaps d | none => false))
      | none => false
    let r := vectorCompute q v (if mixed then some s1.free else none) c.store x
    let traps := r.nan.isSome && c.nan.trapMode && !c.nan.latched
    let all := v.a.rows * v.a.cols
    let done := if traps then min all (128 * (r.nanAt / 128 + 1)) else all
    let poison := match r.poisonAt with | some i => decide (i < done) | none => false
    let ctr := { c.ctr with utilVx := c.ctr.utilVx + BitVec.ofNat 64 (vectorBeats q done) }
    let n := if traps then r.stopAt else all
    let store := match v.d with
      | none => c.store
      | some d => if traps ∧ opc = 5 then c.store else putRows d r.rows n c.store
    let s2 := (s1.skipFree (if mixed then 3 * all else 0)).setCell id { c with store := store, ctr := ctr }
    let s3 := if poison then s2.poisonConsumed id 1 q.seq else s2
    let s4 := match r.nan with
      | none => s3
      | some (k, row, col) => s3.nanLatch id 1 k q.seq row col 0
    if traps then s4.cmdFault id 1 opc q.seq stNanTrap 0
    else
      let flags := (if r.nan.isSome ∧ ¬ c.nan.trapMode then flagNan else 0) ||| (if poison then flagPoison else 0)
      s4.modCell id fun c =>
        { c with qvx := { c.qvx with run := c.qvx.run ++
          [⟨q, s.ns, flags, [], [], r.deliver, cFuse w, none, false, false⟩] } }

end Sys2Proof.Machine
end

