-- ==== Sys2Proof/Machine/Engine.lean ====
section
/-!
DEFINITION. Engine commands at the head of their queues (R217 to R243): the checks of R219, the start of the commands of
q.ms and q.lk, completion, collective parts, lost transfers, and ballast.
-/

namespace Sys2Proof.Machine

/-! ### Link-port descriptors (R220, R233 to R237) -/

/-- Whether the t register a link-port command names for its first or second descriptor is odd. -/
def oddReg (w : QWord) (slot : Nat) : Bool := w.getLsbD (if slot = 0 then 92 else 88)

/-- What one descriptor of a copy breaks: a reserved format FORMAT, its handle, zero shape, pairing, companion or store
alignment DESC. -/
def copyDesc (w d e : QWord) (slot : Nat) (inStore : Bool) : Option (Nat × Nat) :=
  match EFmt.ofCode (dFmt d).toNat with
  | none => some (stFormat, slot)
  | some f =>
    let okStore (x : QWord) : Bool := dHandle x == 0 && (dOffset x).toNat % 32 == 0 && (dLdim x).toNat % 32 == 0
    let ok (x : QWord) : Bool := if inStore then okStore x else dHandle x != 0
    if ¬ ok d ∨ dRows d = 0 ∨ dCols d = 0 ∨ (f.scaled ∧ oddReg w slot) then some (stDesc, slot)
    else if f.scaled ∧ (¬ ok e ∨ dFmt e ≠ 0xC ∨ dRows e ≠ dRows d ∨ (dCols e).toNat ≠ ((dCols d).toNat + 31) / 32) then
      some (stDesc, slot)
    else none

/-- One past the last cell-store byte a descriptor and its companion reach. -/
def storeTop (d e : QWord) : Nat :=
  let top := (dOffset d).toNat + ((dRows d).toNat - 1) * (dLdim d).toNat + elemBytes d
  if (descFmt d).scaled then max top ((dOffset e).toNat + ((dRows d).toNat - 1) * (dLdim e).toNat + scaleBytes d) else top

/-- The checks of LREAD, LWRITE and LCELL (R234, R235). -/
def copyCheck (q : QCmd) (srcStore dstStore : Bool) : Option (Nat × Nat) :=
  match copyDesc q.word q.d0 q.e0 0 srcStore with
  | some x => some x
  | none =>
    match copyDesc q.word q.d1 q.e1 1 dstStore with
    | some x => some x
    | none =>
      if dRows q.d0 ≠ dRows q.d1 ∨ dCols q.d0 ≠ dCols q.d1 ∨ dFmt q.d0 ≠ dFmt q.d1 then some (stDesc, 1)
      else if (srcStore ∧ 0x300000 < storeTop q.d0 q.e0) ∨ (dstStore ∧ 0x300000 < storeTop q.d1 q.e1) then
        some (stRange, 0)
      else none

/-- The checks of LATOM (R236, R295). -/
def atomCheck (q : QCmd) : Option (Nat × Nat) :=
  let accepts (f : EFmt) : Bool := f == .fp32 || f == .bf16 || f == .int32 || f == .int64
  match EFmt.ofCode (dFmt q.d0).toNat, EFmt.ofCode (dFmt q.d1).toNat with
  | none, _ => some (stFormat, 0)
  | _, none => some (stFormat, 1)
  | some f, some g =>
    if dHandle q.d0 ≠ 0 ∨ dRows q.d0 = 0 ∨ dCols q.d0 = 0 ∨ (f.scaled ∧ oddReg q.word 0) then some (stDesc, 0)
    else if dHandle q.d1 = 0 ∨ (g.scaled ∧ oddReg q.word 1) ∨ dRows q.d0 ≠ dRows q.d1 ∨ dCols q.d0 ≠ dCols q.d1 then
      some (stDesc, 1)
    else if ¬ accepts f then some (stFormat, 0)
    else if g ≠ f then some (stFormat, 1)
    else if (dOffset q.d1).toNat % (f.width / 8) ≠ 0 ∨ (dRows q.d1 ≠ 1 ∧ (dLdim q.d1).toNat % (f.width / 8) ≠ 0) then
      some (stDesc, 1)
    else if 0x300000 < storeTop q.d0 0 then some (stRange, 0)
    else none

/-! ### Copies (R234 to R236) -/

/-- The places of n bytes at an offset of a descriptor: this cell's store, a cell's store, or a tensor by handle. -/
def State.placesOf (_s : State) (pm : List Tensor) (store : Option Nat) (h off n : Nat) : Option (List (Place × Nat)) :=
  match store with
  | some c => some [(.store c off, n)]
  | none =>
    match tensorIn pm h with
    | none => none
    | some t => t.runs off n

/-- Cut the bytes of a row into pieces like `t` where a run of its source or of its destination ends; the first number
bounds the pieces. -/
def cutPieces (t : Piece) : Nat → List (Place × Nat) → List (Place × Nat) → List (Byte × Bool) → List Piece
  | k + 1, (sp, sn) :: srcs, (dp, dn) :: dsts, bs =>
    let n := min sn dn
    let srcs' := if n < sn then (sp.plus n, sn - n) :: srcs else srcs
    let dsts' := if n < dn then (dp.plus n, dn - n) :: dsts else dsts
    { t with src := sp, dst := dp, data := bs.take n } :: cutPieces t k srcs' dsts' (bs.drop n)
  | _, _, _, _ => []

/-- The pieces of a row. -/
def rowPieces (t : Piece) (src dst : List (Place × Nat)) (bs : List (Byte × Bool)) : List Piece :=
  cutPieces t (src.length + dst.length) src dst bs

/-- A piece of a copy: the offset of its row in the destination tells the row. -/
def copyPiece (row since : Nat) : Piece := ⟨.host 0, .host 0, [], false, 0, row, 0, since, false⟩

/-- The rows of a copy: for each row, and for each of its companion, offsets in source and destination and a length. -/
def copyRows (q : QCmd) : List (Bool × Nat × Nat × Nat) :=
  let rows := List.range (dRows q.d0).toNat
  let elems := rows.map fun r =>
    (false, (dOffset q.d0).toNat + r * (dLdim q.d0).toNat, (dOffset q.d1).toNat + r * (dLdim q.d1).toNat, elemBytes q.d0)
  let scales := rows.map fun r =>
    (true, (dOffset q.e0).toNat + r * (dLdim q.e0).toNat, (dOffset q.e1).toNat + r * (dLdim q.e1).toNat, scaleBytes q.d0)
  elems ++ (if (descFmt q.d0).scaled then scales else [])

/-- What a copy gathers: its pieces, and the status it ends with where a row fails. -/
structure CopyOut where
  s : State
  pieces : List Piece
  fault : Option Nat
  snoops : List Nat

/-- The runs of a row name a place that the mesh does not reach: its transfer ends at once (R407). -/
def State.cutOff (s : State) (l : List (Place × Nat)) : Bool := l.any fun r => !s.hasRoute r.1

/-- Gather a copy row by row (R234): a row whose handle is unknown, or which lies beyond the tensor, ends it with HANDLE, and
one at a place the mesh does not reach with PATH (R407). -/
def gatherCopy (s : State) (pm : List Tensor) (q : QCmd) (srcStore dstStore : Option Nat) : CopyOut :=
  (copyRows q).foldl (fun (a : CopyOut) (row : Bool × Nat × Nat × Nat) =>
    if a.fault.isSome then a
    else
      let (sc, so, dOff, n) := row
      let hs := ((if sc then dHandle q.e0 else dHandle q.d0)).toNat
      let hd := ((if sc then dHandle q.e1 else dHandle q.d1)).toNat
      match a.s.placesOf pm srcStore hs so n, a.s.placesOf pm dstStore hd dOff n with
      | some src, some dst =>
        if s.cutOff src ∨ s.cutOff dst then { a with fault := some stPath }
        else
          let s1 := src.foldl (fun s r => s.touchPlace r.1 r.2) a.s
          let bs := src.flatMap fun r => s1.readPlace r.1 r.2
          { s := s1, pieces := a.pieces ++ rowPieces (copyPiece dOff s.ns) src dst bs, fault := none
            snoops := a.snoops ++ devLines src }
      | _, _ => { a with fault := some stHandle }) ⟨s, [], none, []⟩

/-- The placement map a cell's task sampled. -/
def State.cellMap (s : State) (id : CellId) : List Tensor := s.pmap (s.taskVersion (s.cell id).task.id.toNat)

/-- Put a started command among those in progress. -/
def State.begin (s : State) (id : CellId) (q : BitVec 2) (r : RunCmd) : State :=
  s.modCell id fun c => c.setQueue q { c.queue q with run := (c.queue q).run ++ [r] }

/-- Start a copy whose checks have passed. -/
def startCopy (id : CellId) (q : QCmd) (srcStore dstStore : Option Nat) (s : State) : State :=
  let g := gatherCopy s (s.cellMap id) q srcStore dstStore
  match g.fault with
  | none => g.s.begin id 3 ⟨q, s.ns, 0, g.pieces, [], none, false, none, false, false⟩
  | some st => (g.s.landAll g.pieces).cmdFault id 3 (cOpc q.word).toNat q.seq st 0

/-- LREAD (R234). -/
def startRead (id : CellId) (q : QCmd) (s : State) : State :=
  match copyCheck q false true with
  | some (st, slot) => s.cmdFault id 3 1 q.seq st slot
  | none => startCopy id q none (some id.toNat) s

/-- LWRITE (R234). -/
def startWrite (id : CellId) (q : QCmd) (s : State) : State :=
  match copyCheck q true false with
  | some (st, slot) => s.cmdFault id 3 2 q.seq st slot
  | none => startCopy id q (some id.toNat) none s

/-- The cell is in the active set (R41, R73); one the brake stopped is, unless it was a spare. -/
def CellState.inSet (c : CellState) : Bool :=
  match c.st with
  | .idle | .running | .halted | .faulted => true
  | .stopped => !c.wasSpare
  | _ => false

/-- Whether a cell is in the active set (R22, R235). -/
def State.activeCell (s : State) (id : CellId) : Bool := cellOk id && (s.cell id).inSet

/-- LCELL (R235). -/
def startCell (id : CellId) (q : QCmd) (s : State) : State :=
  match copyCheck q true true with
  | some (st, slot) => s.cmdFault id 3 3 q.seq st slot
  | none =>
    if s.activeCell (lCid q.word) then startCopy id q (some id.toNat) (some (lCid q.word).toNat) s
    else s.cmdFault id 3 3 q.seq stRemote 0

/-- Mark the task of a cell as having started an LATOM, an LCOLL or a collective part (R343). -/
def State.markShared (s : State) (id : CellId) : State :=
  let t := (s.cell id).task.id.toNat
  { s with dsp := { s.dsp with tasks := s.dsp.tasks.map fun k => if k.id = t then { k with colled := true } else k } }

/-- The placement service learns that a tensor is an atomic target: it never places it in tier 0 (R298, log entry 131). -/
def State.markAtomic (s : State) (h : Nat) : State :=
  let mark (l : List Tensor) : List Tensor := l.map fun t => if t.handle = h then { t with atomic := true } else t
  { s with mem := { s.mem with
    tensors := mark s.mem.tensors, shadow := mark s.mem.shadow, previous := mark s.mem.previous } }

/-- The element updates of LATOM, row by row (R236). -/
def gatherAtoms (s : State) (pm : List Tensor) (id : CellId) (q : QCmd) : State × List AtomPiece × Option Nat :=
  let f := descFmt q.d0
  let sz := f.width / 8
  (List.range (dRows q.d0).toNat).foldl (fun (a : State × List AtomPiece × Option Nat) r =>
    if a.2.2.isSome then a
    else
      let so := (dOffset q.d0).toNat + r * (dLdim q.d0).toNat
      let dOff := (dOffset q.d1).toNat + r * (dLdim q.d1).toNat
      let n := elemBytes q.d0
      match a.1.placesOf pm none (dHandle q.d1).toNat dOff n with
      | none => (a.1, a.2.1, some stHandle)
      | some dst =>
        if s.cutOff dst then (a.1, a.2.1, some stPath)
        else
          let s1 := a.1.touchStore id (lanesOf so n)
          let atoms := (List.range (dCols q.d0).toNat).filterMap fun k =>
            let b := (s1.cell id).store.readP (so + k * sz) sz
            match s1.placesOf pm none (dHandle q.d1).toNat (dOff + k * sz) sz with
            | some ((p, _) :: _) => some (⟨p, f, lAop q.word, leNat (b.map Prod.fst), b.any Prod.snd⟩ : AtomPiece)
            | _ => none
          (s1, a.2.1 ++ atoms, none)) (s, [], none)

/-- LATOM (R236, R295 to R298). -/
def startAtom (id : CellId) (q : QCmd) (s : State) : State :=
  match atomCheck q with
  | some (st, slot) => s.cmdFault id 3 4 q.seq st slot
  | none =>
    let (s1, atoms, bad) := gatherAtoms ((s.markShared id).markAtomic (dHandle q.d1).toNat) (s.cellMap id) id q
    match bad with
    | none => s1.begin id 3 ⟨q, s.ns, 0, [], atoms, none, false, none, false, false⟩
    | some st => (atoms.foldl State.landAtom s1).cmdFault id 3 4 q.seq st 0

/-- The group a cell may use: the entry and the stages, when this module and this cell's slot take part (R419, R240). -/
def State.usableGroup (s : State) (id : CellId) (g : Nat) : Option (GEntry × List RingStage) :=
  let e := s.group g
  match s.groupStages e with
  | none => none
  | some st => if (s.cell id).task.member < e.lslots then some (e, st) else none

/-- The formats a collective function takes (R240, R425). -/
def collFormat (cop cfn : Nat) (f : EFmt) : Bool :=
  if cop = 3 ∨ cop = 5 then true
  else if cfn = 5 ∨ cfn = 6 then f == .int32
  else if cfn = 3 ∨ cfn = 4 then f == .fp32 || f == .int32
  else f == .fp32 || f == .bf16 || f == .int32

/-- The shapes of R425. -/
def collShape (cop cfn ranks : Nat) (q : QCmd) : Bool :=
  let (ts, td) := (q.d0, q.d1)
  let same := dRows ts == dRows td && dCols ts == dCols td && dFmt ts == dFmt td
  let even := !(cfn == 3 || cfn == 4) || (dCols ts).toNat % 2 == 0
  even && match cop with
  | 2 => (dRows ts).toNat % ranks == 0 && (dRows td).toNat == (dRows ts).toNat / ranks && dCols ts == dCols td && dFmt ts == dFmt td
  | 3 => (dRows td).toNat == ranks * (dRows ts).toNat && dCols ts == dCols td && dFmt ts == dFmt td
  | _ => same

/-- What one descriptor of LCOLL breaks. -/
def collDesc (w d e : QWord) (slot : Nat) : Option (Nat × Nat) :=
  match EFmt.ofCode (dFmt d).toNat with
  | none => some (stFormat, slot)
  | some f =>
    if dHandle d ≠ 0 ∨ dRows d = 0 ∨ dCols d = 0 ∨ (f.scaled ∧ (oddReg w slot ∨ dHandle e ≠ 0 ∨ dFmt e ≠ 0xC)) then
      some (stDesc, slot)
    else none

/-- LCOLL (R237, R240, R425): checks, then its contribution travels to the reduction engine. -/
def startColl (id : CellId) (q : QCmd) (s : State) : State :=
  let w := q.word
  let cf := cCf w
  let cop := (cfCop cf).toNat
  let cfn := (cfCfn cf).toNat
  let fault (x : Nat × Nat) : State := s.cmdFault id 3 5 q.seq x.1 x.2
  match collDesc w q.d0 q.e0 0, collDesc w q.d1 q.e1 1 with
  | some x, _ => fault x
  | none, some x => fault x
  | none, none =>
    if ¬ collFormat cop cfn (descFmt q.d0) then fault (stFormat, 0)
    else
      match s.usableGroup id (cfGroup cf).toNat with
      | none => fault (stGroup, 0)
      | some (e, st) =>
        if ¬ collShape cop cfn (e.ranks st) q then fault (stDesc, 1)
        else if 0x300000 < storeTop q.d0 q.e0 ∨ 0x300000 < storeTop q.d1 q.e1 then fault (stRange, 0)
        else
          let c : Contribution :=
            ⟨.lcoll id, q.seq, cop, cfn, (cfGroup cf).toNat, q.d0, q.e0, q.d1, q.e1, (s.cell id).task.member, false⟩
          let s1 := (s.markShared id).begin id 3 ⟨q, s.ns, 0, [], [], none, false, none, false, true⟩
          { s1 with col := { s1.col with coming := s1.col.coming ++ [c] } }

/-! ### RUNWB (R232, R251, R252) -/

/-- The lowest-numbered free context. -/
def CellState.freeCtx (c : CellState) : Option (BitVec 2) :=
  [0, 1, 2, 3].find? fun i => !(rget c.wb i).busy

/-- What a descriptor of RUNWB breaks under the pair rule. -/
def wbDesc (w d : QWord) (lo slot : Nat) : Option (Nat × Nat) :=
  match EFmt.ofCode (dFmt d).toNat with
  | none => some (stFormat, slot)
  | some f => if f.scaled ∧ w.getLsbD lo then some (stDesc, slot) else none

/-- Start a waybill in the lowest-numbered free context (R251, R252). -/
def startWaybill (id : CellId) (q : QCmd) (s : State) : State :=
  let w := q.word
  let bad := match wbDesc w q.d0 124 0, wbDesc w q.d1 120 1, wbDesc w q.d2 116 2 with
    | some x, _, _ => some x
    | none, some x, _ => some x
    | none, none, x => x
  match bad with
  | some (st, slot) => s.cmdFault id 2 1 q.seq st slot
  | none =>
    if 0x300000 ≤ 8 * (wWba w).toNat then s.cmdFault id 2 1 q.seq stRange 0
    else
      let c := s.cell id
      match c.freeCtx with
      | none => s
      | some i =>
        let v0 : Vector (BitVec 40) (2 ^ 3) := Vector.replicate _ 0
        let ctx : WbCtx := { WbCtx.idle with
          busy := true, seq := q.seq, pc := 8 * (wWba w).toNat
          v := rset (rset v0 0 ((wParam0 w).setWidth 40)) 1 ((wParam1 w).setWidth 40)
          slots := #v[(q.d0, q.e0), (q.d1, q.e1), (q.d2, q.e2)] }
        (s.setCell id { c with wb := rset c.wb i ctx }).begin id 2 ⟨q, s.ns, 0, [], [], none, false, some i, false, false⟩

/-! ### The head of a queue (R219) -/

/-- Step 1 of R219: the code fields of a command's own words. -/
def codeLegal (q : BitVec 2) (w : QWord) : Bool :=
  let opc := (cOpc w).toNat
  match q with
  | 0 => opc == 0 || (opc == 1 && mmaCode w)
  | 1 => opc == 0 || vectorCode w
  | 2 => decide (opc ≤ 1)
  | _ =>
    let cop := (cfCop (cCf w)).toNat
    let cfn := (cfCfn (cCf w)).toNat
    if opc = 4 then decide ((lAop w).toNat ≤ 2)
    else if opc = 5 then decide (1 ≤ cop ∧ cop ≤ 5 ∧ cfn ≤ 6) && (!(cop == 3 || cop == 5) || cfn == 0)
    else decide (opc ≤ 3)

/-- The HBM lines a link-port command is about to read (R305). -/
def State.headReads (s : State) (id : CellId) (q : BitVec 2) (h : QCmd) : List Nat :=
  if q = 3 ∧ cOpc h.word = 1 ∧ copyCheck h false true = none then
    (gatherCopy s (s.cellMap id) h none (some id.toNat)).snoops
  else []

/-- Whether the engine can take another command, the wait apart (R62, R137, R238, R251). -/
def engineFree (c : CellState) (q : BitVec 2) (h : QCmd) : Bool :=
  match q with
  | 0 => cOpc h.word == 0 || arrayFree c h
  | 2 => cOpc h.word == 0 || c.freeCtx.isSome || (0x300000 ≤ 8 * (wWba h.word).toNat)
  | 3 => cOpc h.word == 0 || decide ((c.qlk.run.filter fun r => cOpc r.cmd.word ≠ 0).length < 4)
  | _ => true

/-- Before a head of q.mx that does not continue the chain starts, the array reads the tail of the command before it
(R136); before one that does, the command whose bank it takes finishes (R137). -/
def State.readyArray (s : State) (id : CellId) (h : QCmd) : State :=
  if cOpc h.word = 1 ∧ chains (s.cell id).mx.prev h then
    if 2 ≤ (s.cell id).mx.cmds.length then finishOldest id s else s
  else closeTail id s

/-- Run the start of a command by its queue and opcode. -/
def State.startCmd (s : State) (id : CellId) (q : BitVec 2) (h : QCmd) : State :=
  let sync := s.begin id q ⟨h, s.ns, 0, [], [], none, false, none, false, false⟩
  match q, (cOpc h.word).toNat with
  | 0, 1 => startMma id h s
  | 0, _ => sync.modCell id fun c => { c with mx := { c.mx with prev := none } }
  | 1, 0 => sync
  | 1, _ => startVector id h s
  | 2, 0 => sync
  | 2, _ => startWaybill id h s
  | _, 1 => startRead id h s
  | _, 2 => startWrite id h s
  | _, 3 => startCell id h s
  | _, 4 => startAtom id h s
  | _, 5 => startColl id h s
  | _, _ => sync

/-- A cell whose store an LCELL would write is a cell of another task (R235). -/
def State.foreign (s : State) (id target : CellId) : Bool :=
  id != target && s.dsp.tasks.any fun t =>
    (t.stage == .placed || t.stage == .running || t.stage == .ending) && t.cells.contains target && !t.cells.contains id

/-- What a command leaves undefined once it has started or faulted: a non-zero reserved field the results of its task
(R15), an LCELL into a cell of another task that task's (R235), and a compute part that writes into the region of a
collective part in progress that collective's (R241). `t` is the state before. -/
def State.headUndef (s t : State) (id : CellId) (q : BitVec 2) (h : QCmd) : State :=
  let w := h.word
  let s1 := if q = 1 ∧ (cOpc w).toNat ≤ 3 ∧ cFuse w then s.spoilParts id fun p => rowsMeet h.d2 p.desc else s
  let s2 := if q = 3 ∧ cOpc w = 3 ∧ copyCheck h true true = none ∧ t.activeCell (lCid w) ∧ t.foreign id (lCid w) then s1.undefined (t.reachOf (lCid w)) else s1
  if w &&& reservedMask q w = 0 then s2 else s2.undefined (t.reachOf id)

/-- The head of a queue advances (R219): step 1 before the wait, then, once the engine is free and the semaphore can be
taken (R63, R64), the head leaves the queue, the count is taken, and the command starts. A command that runs again after an
abandonment does not wait again (R152). -/
def State.takeHead (s : State) (id : CellId) (q : BitVec 2) (h : QCmd) : State :=
  let w := h.word
  if ¬ codeLegal q w then (s.cmdFault id q.toNat (cOpc w).toNat h.seq stIllegal 0).headUndef s id q h
  else
    let s1 := if q = 0 then s.readyArray id h else s
    let c := s1.cell id
    if ¬ c.works ∨ ¬ engineFree c q h then s1
    else if ¬ h.rerun ∧ ¬ c.mayTake (cWsem w) (q.toNat + 1) (cWcnt w).toNat then s1
    else
      match s1.needSnoops false (s1.headReads id q h) with
      | some s2 => s2
      | none =>
        let c1 := if h.rerun then c else c.take (cWsem w) (q.toNat + 1) (cWcnt w).toNat
        let e := c1.queue q
        ((s1.setCell id (c1.setQueue q { e with q := e.q.drop 1 })).startCmd id q h).headUndef s1 id q h

/-- Act on the head of a queue when it is one of the commands a row names. -/
def runEngine (id : CellId) (q : BitVec 2) (mine : QWord → Bool) (s : State) : Out :=
  withCell id s fun s =>
    let c := s.cell id
    match (c.queue q).q with
    | [] => s
    | h :: _ => if c.works && mine h.word then s.takeHead id q h else s

/-! ### Completion (R62, R241 to R243) -/

/-- Whether everything a started command of q.ms or q.lk sends has been sent, so that its writes may land. -/
def State.dstLines (r : RunCmd) : List Nat :=
  r.pieces.flatMap (fun p => devLines [(p.dst, p.data.length)]) ++ r.atoms.flatMap (fun a => devLines [(a.dst, a.fmt.width / 8)])

/-- Take the oldest started command out of a queue. -/
def State.dropRun (s : State) (id : CellId) (q : BitVec 2) : State :=
  s.modCell id fun c => c.setQueue q { c.queue q with run := (c.queue q).run.drop 1 }

/-- The oldest started command of a queue completes, where it can (R62, R243): SYNC when it is the oldest; a vector
command, when a fused one finds a hand-off place (R242); RUNWB when its waybill has ended and its writes are visible; a
link-port command when its writes are acknowledged. A matrix command completes at its check beat instead. -/
def State.completeOldest (s : State) (id : CellId) (q : BitVec 2) : State :=
  let c := s.cell id
  match (c.queue q).run with
  | [] => s
  | r :: _ =>
    let w := r.cmd.word
    let done (s : State) : State := (s.dropRun id q).completeCmd id q.toNat w r.flags r.deliver
    if cOpc w = 0 then done s
    else
      match q with
      | 0 => s
      | 1 =>
        if r.fuse then
          if 4 ≤ c.handed.length then s else done (s.modCell id fun c => c.handOff r.cmd r.cmd.d2)
        else done s
      | 2 =>
        if ¬ r.ended then s
        else
          match s.needSnoops true (State.dstLines r) with
          | some s' => s'
          | none => done (s.landAll r.pieces)
      | _ =>
        if r.col then
          match s.finishedFor fun k => k.origin = .lcoll id ∧ k.seq = r.cmd.seq with
          | none => s
          | some (o, k) => done (s.finishPart o k)
        else
          match s.needSnoops true (State.dstLines r) with
          | some s' => s'
          | none => done (r.atoms.foldl State.landAtom (s.landAll r.pieces))

/-! ### Collective parts (R241, R242) -/

/-- The oldest compute part that holds its completion for a hand-off place hands off and completes (R242). -/
def State.handOffOldest (s : State) (id : CellId) : State :=
  let c := s.cell id
  if 4 ≤ c.handed.length then s
  else
    match c.mx.cmds.find? fun m => m.checked with
    | some m => s.mxComplete id m
    | none =>
      match c.qvx.run with
      | r :: _ => if r.fuse then s.completeOldest id 1 else s
      | [] => s

/-- The oldest handed-off part starts (R241, R242): its group is checked, and its contribution travels to the engine. -/
def State.startPart (s : State) (id : CellId) : State :=
  let c := s.cell id
  match c.handed with
  | [] => s
  | p :: rest =>
    if 4 ≤ c.parts.length then s
    else
      let cop := (cfCop p.cf).toNat
      let g := (cfGroup p.cf).toNat
      let s1 := (s.setCell id { c with handed := rest }).markShared id
      match s.usableGroup id g with
      | none => s1.cmdFault id 5 p.opc.toNat p.seq stGroup 0
      | some (e, st) =>
        if cop = 2 ∧ (dRows p.desc).toNat % e.ranks st ≠ 0 then s1.cmdFault id 5 p.opc.toNat p.seq stDesc 0
        else
          let k : Contribution :=
            ⟨.part id, p.seq, cop, (cfCfn p.cf).toNat, g, p.desc, 0, p.desc, 0, c.task.member, p.spoiled⟩
          let s2 := s1.modCell id fun c => { c with parts := c.parts ++ [{ p with version := (e.f 0 31 0) }] }
          { s2 with col := { s2.col with coming := s2.col.coming ++ [k] } }

/-- The first part whose operation is finished completes: its result is written, and CSEM is signalled (R241). -/
def State.completePart (s : State) (id : CellId) : State :=
  match s.finishedFor fun k => k.origin = .part id with
  | none => s
  | some (o, k) =>
    let c := s.cell id
    match c.parts.find? fun p => p.seq = k.seq with
    | none => s
    | some p =>
      let s1 := s.finishPart o k
      let s2 := s1.modCell id fun c => { c with parts := c.parts.filter fun x => x.seq ≠ k.seq }
      s2.signal id (cfCsem p.cf) 1 5

/-! ### Lost transfers (R33, R247) -/

/-- A transfer in progress that has waited 1,000,000 ns is lost (R247): what has landed stays, its command ends with PATH.
Queue 3 is q.lk, 5 the collective parts. -/
def State.ackTimeout (s : State) (id : CellId) (queue : BitVec 3) (index landed : Nat) : State :=
  let c := s.cell id
  if queue = 3 then
    match c.qlk.run[index]? with
    | none => s
    | some r =>
      if cOpc r.cmd.word = 0 ∨ s.ns < r.start + 1000000 then s
      else (s.landAll (r.pieces.take landed)).cmdFault id 3 (cOpc r.cmd.word).toNat r.cmd.seq stPath 0
  else if queue = 5 then
    match c.parts[index]? with
    | none => s
    | some p =>
      match s.col.ops.find? fun o => o.parts.any fun k => k.origin = .part id ∧ k.seq = p.seq with
      | some o => if s.ns < o.since + 1000000 then s else s.cmdFault id 5 p.opc.toNat p.seq stPath 0
      | none => s
  else s

/-- Whether a started link-port command has a transfer on a die-to-die link. -/
def State.runCrosses (s : State) (id : CellId) (l : DieLink) (r : RunCmd) : Bool :=
  r.pieces.any (s.crosses l) ||
    r.atoms.any fun a => s.crosses l { copyPiece 0 0 with src := .store id.toNat 0, dst := a.dst }

/-! ### Ballast (R157 to R161) -/

/-- The cell belongs to the active set and is not stopped: its array may run (R73, R158). -/
def CellState.powered (c : CellState) : Bool :=
  match c.st with
  | .disabled | .retired | .spare | .stopped => false
  | _ => true

/-- The array has no step to perform (R158): it has no stream row left to read, waits for a panel, or is about to retry. -/
def CellState.arrayIdle (c : CellState) : Bool :=
  c.mx.retry || !c.rowLeft ||
    match c.mx.cmds.getLast? with
    | none => true
    | some m => mPace m.cmd.word && (takePanel c m.cmd (absRow m m.rows)).isNone

/-- A gap begins (R158): with EN it holds the duty of the last window before it. -/
def State.gapStart (s : State) (id : CellId) (duty beats : Nat) : State :=
  let c := s.cell id
  let cfg := (s.box (boxOf id)).ballastCfg
  if c.mx.gap = .none ∧ c.arrayIdle ∧ cfg.getLsbD 0 ∧ c.powered then
    s.setCell id { c with
      mx := { c.mx with gap := .hold, gapSince := s.ns, gapDuty := min 100 duty, gapCfg := cfg }
      ctr := { c.ctr with ballast := c.ctr.ballast + BitVec.ofNat 64 beats } }
  else s

/-- HOLD ends: the duty begins to fall (R158). -/
def State.gapHoldEnd (s : State) (id : CellId) (beats : Nat) : State :=
  let c := s.cell id
  if c.mx.gap = .hold ∧ c.mx.gapSince + 1000 * min 40 (bitsOf c.mx.gapCfg.toNat 15 8) ≤ s.ns then
    s.setCell id { c with mx := { c.mx with gap := .ramp, gapSince := s.ns }
                          ctr := { c.ctr with ballast := c.ctr.ballast + BitVec.ofNat 64 beats } }
  else s

/-- RAMP ends: the duty is zero (R158). -/
def State.gapRampEnd (s : State) (id : CellId) (beats : Nat) : State :=
  let c := s.cell id
  if c.mx.gap = .ramp ∧ c.mx.gapSince + 1000 * max 8 (bitsOf c.mx.gapCfg.toNat 23 16) ≤ s.ns then
    s.setCell id { c with mx := { c.mx with gap := .none, gapDuty := 0 }
                          ctr := { c.ctr with ballast := c.ctr.ballast + BitVec.ofNat 64 beats } }
  else s

end Sys2Proof.Machine
end

