-- ==== Sys2Proof/Machine/Tasks.lean ====
section
/-!
DEFINITION. Tasks and their dispatch (R325 to R354): task entries, start conditions, the choice of a consist, the
preparation of members, the end of a task, ENQ requests and the placement map.
-/

namespace Sys2Proof.Machine

/-! ### Entries and lookups (R328 to R330) -/

/-- A task entry from its 64 bytes (R328). -/
def TaskEntry.ofBytes (b : List Byte) : TaskEntry :=
  let f (a n : Nat) : Nat := leNat ((b.drop a).take n)
  { ctrl := BitVec.ofNat 32 (f 0 4), size := BitVec.ofNat 16 (f 4 2), phase := BitVec.ofNat 16 (f 6 2)
    tag := BitVec.ofNat 64 (f 8 8), seed := BitVec.ofNat 64 (f 0x10 8), image := BitVec.ofNat 32 (f 0x18 4)
    imglen := BitVec.ofNat 16 (f 0x1C 2), stlim := BitVec.ofNat 16 (f 0x1E 2), arg := BitVec.ofNat 32 (f 0x20 4)
    arglen := BitVec.ofNat 16 (f 0x24 2), ndesc := BitVec.ofNat 8 (f 0x26 1), credits := BitVec.ofNat 8 (f 0x27 1)
    desc := BitVec.ofNat 32 (f 0x28 4), plist := BitVec.ofNat 32 (f 0x2C 4), report := BitVec.ofNat 32 (f 0x30 4)
    after := BitVec.ofNat 32 (f 0x34 4), rsvd := BitVec.ofNat 64 (f 0x38 8) }

/-- Fields of CTRL (R329). -/
def TaskEntry.marker (e : TaskEntry) : Bool := bitsOf e.ctrl.toNat 31 28 == 2
def TaskEntry.trap (e : TaskEntry) : Bool := e.ctrl.getLsbD 27
def TaskEntry.ordered (e : TaskEntry) : Bool := e.ctrl.getLsbD 26
def TaskEntry.rerun (e : TaskEntry) : Bool := e.ctrl.getLsbD 25
def TaskEntry.single (e : TaskEntry) : Bool := e.ctrl.getLsbD 24
def TaskEntry.cpl (e : TaskEntry) : Bool := e.ctrl.getLsbD 23
def TaskEntry.reports (e : TaskEntry) : Bool := e.ctrl.getLsbD 22
def TaskEntry.pin (e : TaskEntry) : Nat := bitsOf e.ctrl.toNat 21 20
def TaskEntry.dieMask (e : TaskEntry) : Nat := bitsOf e.ctrl.toNat 19 12

/-- A task entry whose fields have the values the specification requires (R328, R329, R350, R379); a SIZE above the cells
of the module is no such fault, since R335 says what it does. -/
def TaskEntry.formed (e : TaskEntry) (device reportOn : Bool) : Bool :=
  let kind := bitsOf e.ctrl.toNat 31 28
  (kind == 1 || kind == 2) && e.pin != 3 && bitsOf e.ctrl.toNat 11 0 == 0 && e.rsvd == 0 &&
    (e.pin == 1 || e.dieMask == 0) && (e.pin == 2 || e.plist == 0) && (e.reports || e.report == 0) &&
    (!e.reports || reportOn) && (if device then e.credits == 0 else !e.cpl) &&
    (kind == 2 || (decide (1 ≤ e.size.toNat ∧ 1 ≤ e.imglen.toNat ∧ e.imglen.toNat ≤ 256 ∧
      e.stlim.toNat ≤ 3072 ∧ e.arglen.toNat ≤ 1024 ∧ e.arglen.toNat % 4 = 0 ∧ e.ndesc.toNat ≤ 16) &&
      (e.arglen != 0 || e.arg == 0)))

/-- Task statuses (R342). -/
def tsOk : Nat := 0
def tsFault : Nat := 1
def tsNan : Nat := 2
def tsCheck : Nat := 3
def tsBank : Nat := 4
def tsImage : Nat := 5
def tsHeld : Nat := 6
def tsAborted : Nat := 7
def tsNoCells : Nat := 8
def tsDescendant : Nat := 9

/-- The device is starting tasks (R331): firmware runs, it is not DETACHED, no hold is in force and no brake. -/
def State.starting (s : State) : Bool :=
  s.hif.fwUp && !s.hif.detached && s.rcv.state == 0 && !s.dbg.braked && s.pwr.main

/-- Change the tasks of the dispatcher. -/
def State.modTasks (s : State) (f : List Task → List Task) : State := { s with dsp := { s.dsp with tasks := f s.dsp.tasks } }

/-- Change one task by its ID. -/
def State.modTask (s : State) (id : Nat) (f : Task → Task) : State :=
  s.modTasks fun l => l.map fun t => if t.id = id then f t else t

/-- A task by its ID. -/
def State.task (s : State) (id : Nat) : Option Task := s.dsp.tasks.find? fun t => t.id = id

/-- A task has been fetched and not started (R326). -/
def Task.isReady (t : Task) : Bool := t.stage == .ready
/-- A task's consist has been chosen and has not ended (R340). -/
def Task.started (t : Task) : Bool := t.stage == .placed || t.stage == .running || t.stage == .ending

/-- The ID after another: IDs rise by 1, wrap and skip 0 (R330). -/
def nextId (id : BitVec 32) : BitVec 32 := if id + 1 = 0 then 1 else id + 1

/-- A new task. -/
def Task.new (id : Nat) (e : TaskEntry) (source parent root : Nat) (stage : Stage) (rank : Int) : Task where
  id := id
  entry := e
  source := source
  parent := parent
  root := root
  stage := stage
  cells := []
  loaded := []
  ran := []
  left := []
  attempt := 0
  excluded := []
  version := 0
  seed := 0
  status := 0
  flags := 0
  credits := e.credits.toNat
  descFail := false
  enqed := false
  colled := false
  suspect := none
  startLt := 0
  endLt := 0
  faultCell := 0x7FF
  faultSeq := 0
  rank := rank
  named := []
  mute := false

/-- Enter a fetched host task into the ready list with the next ID (R330). -/
def State.enterTask (s : State) (source : Nat) (e : TaskEntry) : State :=
  let id := nextId s.dsp.lastTask
  let t := Task.new id.toNat e source 0 id.toNat .ready s.dsp.ranks
  { s with dsp := { s.dsp with tasks := s.dsp.tasks ++ [t], lastTask := id, ranks := s.dsp.ranks + 1 } }

/-- The dispatcher ends a task for a cause: the first cause it takes stays (R341). -/
def State.endCause (s : State) (id status : Nat) : State :=
  s.modTask id fun t =>
    match t.stage with
    | .ready | .dmq | .placed | .running => { t with stage := .ending, status := status }
    | _ => t

/-! ### Start conditions (R331) -/

/-- The source of a task for ORDER: its queue, or the task that made it. -/
def Task.orderKey (t : Task) : Nat × Nat := (t.source, t.parent)

/-- Every earlier task of its source has ended: tasks stand in the order in which they were made. -/
def earlierEnded (t : Task) : List Task → Bool
  | [] => true
  | k :: rest => if k.id = t.id then true else (k.orderKey != t.orderKey || k.stage == .ended) && earlierEnded t rest

/-- A task accepted by an ENQ whose answer its signal box has not observed: it does not start before that (R116). -/
def State.unobserved (s : State) (t : Task) : Bool :=
  t.source == 64 && s.cells.any fun e => match e.2.core.enq with
    | some w => w.answer == some ⟨true, BitVec.ofNat 32 t.id⟩
    | none => false

/-- The first three conditions of R331. -/
def State.mayStart (s : State) (t : Task) : Bool :=
  s.starting && !s.unobserved t && (!t.entry.ordered || earlierEnded t s.dsp.tasks) &&
    (t.entry.after == 0 || s.dsp.tasks.all fun k => k.id != t.entry.after.toNat || k.stage == .ended)

/-! ### The consist (R333 to R335) -/

/-- A cell is free: IDLE, not about to retire, and claimed by no started task (R333, R79). -/
def State.freeCell (s : State) (id : CellId) : Bool :=
  cellOk id && (s.cell id).st == .idle && !(s.cell id).retiring &&
    !(s.dsp.tasks.any fun t => t.started && t.cells.contains id)

/-- Free cells of a cluster, lowest-numbered first, without the excluded ones. -/
def State.freeOf (s : State) (ex : List CellId) (k : Nat × Nat) : List CellId :=
  (List.range 16).filterMap fun n =>
    let id : CellId := BitVec.ofNat 11 (256 * k.1 + 16 * k.2 + n)
    if s.freeCell id && !ex.contains id then some id else none

/-- The first of the entries with the fewest cells among those with at least `size`. -/
def bestFit {α : Type} (size : Nat) : List (α × Nat) → Option (α × Nat)
  | [] => none
  | (a, n) :: rest =>
    match bestFit size rest with
    | none => if size ≤ n then some (a, n) else none
    | some (b, m) => if size ≤ n ∧ n ≤ m then some (a, n) else some (b, m)

/-- Put an entry before the first one with fewer cells; ties keep their order. -/
def insMost {α : Type} (x : α × Nat) : List (α × Nat) → List (α × Nat)
  | [] => [x]
  | y :: rest => if y.2 ≤ x.2 then x :: y :: rest else y :: insMost x rest

/-- Entries with the most cells first; ties in list order. -/
def mostFirst {α : Type} (l : List (α × Nat)) : List (α × Nat) := l.foldr insMost []

/-- Choose a consist of `size` cells on the given dies (R333). -/
def State.place (s : State) (size : Nat) (dies : List Nat) (ex : List CellId) : Option (List CellId) :=
  let free := dies.map fun d => (d, (List.range 9).map fun k => (k, s.freeOf ex (d, k)))
  let cl := free.flatMap fun d => d.2.map fun k => (k.2, k.2.length)
  match bestFit size cl with
  | some (cells, _) => some (cells.take size)
  | none =>
    let count (d : Nat × List (Nat × List CellId)) : Nat := (d.2.map fun k => k.2.length).sum
    let dl := match bestFit size (free.map fun d => (d, count d)) with
      | some (d, _) => [d]
      | none => (mostFirst (free.map fun d => (d, count d))).map Prod.fst
    let order := dl.flatMap fun d => (mostFirst (d.2.map fun k => (k.2, k.2.length))).flatMap Prod.fst
    if order.length < size then none else some (order.take size)

/-- Put a cell ID into a rising list. -/
def insCell (x : CellId) : List CellId → List CellId
  | [] => [x]
  | y :: rest => if x.toNat ≤ y.toNat then x :: y :: rest else y :: insCell x rest

/-- Member order: ascending cell ID (R334). -/
def memberOrder (l : List CellId) : List CellId := l.foldr insCell []

/-- Every cell ID, for counting. -/
def allCells : List CellId := (List.range 2048).map fun n => BitVec.ofNat 11 n

/-- Cells in the active set (HIF_CAP_POOL.ACTIVE). -/
def State.activeCount (s : State) : Nat := (allCells.filter s.activeCell).length

/-- The dies a task permits (R329). -/
def TaskEntry.dies (e : TaskEntry) : List Nat :=
  if e.pin = 1 then (List.range 8).filter fun d => (e.dieMask / 2 ^ d) % 2 == 1 else List.range 8

/-- What the placement service finds for a task. -/
inductive Placing where
  /-- The consist, in member order. -/
  | cells (l : List CellId)
  /-- It must wait for cells. -/
  | wait
  /-- It can never be formed. -/
  | never
  /-- PLIST cannot be read, or arrives poisoned. -/
  | bad
  deriving DecidableEq, Repr

/-- The cells of PLIST under a placement map; none when the dispatcher cannot read it clean (R338). -/
def State.plist (s : State) (e : TaskEntry) : Option (List CellId) :=
  if ¬ s.reachesTensor none s.mem.tensors e.plist.toNat 0 (2 * e.size.toNat) then none
  else match s.readTensor s.mem.tensors e.plist.toNat 0 (2 * e.size.toNat) with
  | none => none
  | some bs =>
    if bs.any Prod.snd then none
    else some ((List.range e.size.toNat).map fun k => BitVec.ofNat 11 (leNat (((bs.drop (2 * k)).take 2).map Prod.fst)))

/-- Active cells a task permits: on its dies, without the cells a re-run excludes (R329, R335, R343). -/
def State.permitted (s : State) (t : Task) : Nat :=
  (allCells.filter fun id => s.activeCell id && t.entry.dies.contains (dieOf id) && !t.excluded.contains id).length

/-- Look for the consist of a task (R333 to R335). -/
def State.findConsist (s : State) (t : Task) : Placing :=
  let e := t.entry
  if s.activeCount < e.size.toNat ∨ (e.pin ≠ 2 ∧ s.permitted t < e.size.toNat) then .never
  else if e.pin = 2 then
    match s.plist e with
    | none => .bad
    | some l =>
      if l.any fun id => !s.activeCell id then .never
      else if l.all s.freeCell then .cells l
      else .wait
  else
    match s.place e.size.toNat e.dies t.excluded with
    | some l => .cells (memberOrder l)
    | none => .wait

/-! ### The end of a task (R340 to R345) -/

/-- The record of a task (R371). -/
def Task.record (t : Task) (status : Nat) (flags : BitVec 7) (device : Bool) : CplRec :=
  ⟨t.entry.tag, BitVec.ofNat 32 t.id, status, flags, t.endLt, t.faultCell, device, t.attempt⟩

/-- The host task of a tree has ended with every task of it: its record follows the others of the tree (R344, R345). -/
def State.closeTree (s : State) (root : Nat) : State :=
  match s.task root with
  | none => s
  | some r =>
    let tree := s.dsp.tasks.filter fun t => t.root == root
    if r.stage = .ended ∧ tree.all (fun t => t.stage == .ended) then
      let st := if r.status ≠ 0 then r.status else if r.descFail then tsDescendant else 0
      let flags := tree.foldl (fun f t => f ||| t.flags) 0
      let recs := if r.mute then s.dsp.recs else s.dsp.recs ++ [(r.source, r.record st flags false)]
      { s with dsp := { s.dsp with tasks := s.dsp.tasks.filter (fun t => t.root != root), recs := recs } }
    else s

/-- Whether a re-run is due (R343). -/
def State.reruns (s : State) (t : Task) : Bool :=
  t.entry.rerun && decide (t.attempt < bitsOf s.dsp.cfg.toNat 15 8) && !t.enqed && !t.colled && t.entry.pin != 2 &&
    !t.mute && (t.status == tsCheck || t.status == tsFault) && t.suspect.isSome

/-- A task's consist has ended and its members are free: it is run again, or it ends with its status (R340 to R345). The
flags are those of the members that started (R246, R344). -/
def State.finishTask (s : State) (t : Task) : State :=
  let flags := t.ran.foldl (fun (f : BitVec 7) c => f ||| (s.cell c).regs.cmdFlags.setWidth 7) t.flags
  if s.reruns t then
    let bad := t.suspect.getD 0x7FF
    let again := { t with stage := .ready, cells := [], loaded := [], ran := [], left := [], named := [], attempt := t.attempt + 1
                          excluded := t.excluded ++ [bad], status := 0, suspect := none, faultCell := 0x7FF
                          faultSeq := 0, flags := flags, rank := -(s.dsp.ranks : Int) - 1 }
    let s1 := s.modTask t.id fun _ => again
    let s2 : State := { s1 with dsp := { s1.dsp with ranks := s1.dsp.ranks + 1 } }
    s2.raise 0x0502 .warning [(4, t.id), (2, bad.toNat), (1, t.attempt + 1)]
  else
    let ended := { t with stage := .ended, endLt := s.ns, flags := flags }
    let s1 := s.modTask t.id fun _ => ended
    let s2 := if t.status = 0 ∨ t.mute then s1
      else s1.raise 0x0501 .error [(4, t.id), (1, t.status), (2, t.faultCell.toNat), (4, t.faultSeq.toNat)]
    if t.parent = 0 then s2.closeTree t.root
    else
      let s3 := s2.modTask t.root fun r =>
        { r with credits := r.credits + 1, descFail := r.descFail || decide (t.status ≠ 0) }
      let queue := match s3.task t.root with
        | some r => r.source
        | none => 64
      let s4 : State := if t.entry.cpl ∧ s3.hif.feat 4 ∧ ¬ t.mute ∧ queue < 64 then
          { s3 with dsp := { s3.dsp with recs := s3.dsp.recs ++ [(queue, ended.record t.status flags true)] } }
        else s3
      s4.closeTree t.root

/-- Whether every member is back in IDLE or beyond (R340, R341). -/
def State.membersLeft (s : State) (t : Task) : Bool :=
  t.cells.any fun c => match (s.cell c).st with | .running | .halted | .faulted => true | _ => false

/-- TASK_END (R340): a running task whose members have all halted, or one the dispatcher is ending whose members have all
been stopped, ends. -/
def State.endTask (s : State) (id : Nat) : State :=
  match s.task id with
  | none => s
  | some t =>
    if s.membersLeft t then s
    else if t.stage = .ending then s.finishTask t
    else if t.stage = .running ∧ t.left = [] then s.finishTask { t with status := 0 }
    else s

/-! ### Placing a task (R331 to R336) -/

/-- The bytes of a placement report (R336). -/
def reportBytes (t : Task) (cells : List CellId) (version lt : Nat) : List Byte :=
  let dies := (List.range 8).foldl (fun m d => if cells.any fun c => dieOf c == d then m + 2 ^ d else m) 0
  leBytes 4 t.id ++ leBytes 2 cells.length ++ leBytes 1 dies ++ leBytes 1 t.attempt ++ leBytes 4 version ++
    leBytes 4 0 ++ leBytes 8 lt ++ cells.flatMap fun c => leBytes 2 c.toNat

/-! ### What a task needs of the tiers (R300, R301, R303) -/

/-- A tier-0 tensor would lie below the store limit of a task on these cells (R300). -/
def Tensor.inWay (t : Tensor) (e : TaskEntry) (cells : List CellId) : Bool :=
  match t.loc with
  | .store c a => !t.lost && cells.contains (BitVec.ofNat 11 c) && decide (a < 1024 * e.stlim.toNat)
  | _ => false

/-- Handles of a task entry. -/
def TaskEntry.handles (e : TaskEntry) : List Nat :=
  ([e.image, e.arg, e.desc, e.plist, e.report].map BitVec.toNat).filter (· ≠ 0)

/-- Handles that a fetched task names: its entry's, and those of its descriptor list. -/
def State.entryNames (s : State) (e : TaskEntry) : List Nat :=
  e.handles ++ match s.readTensor s.mem.tensors e.desc.toNat 0 (16 * e.ndesc.toNat) with
    | none => []
    | some bs => (List.range e.ndesc.toNat).map fun k =>
        (dHandle (BitVec.ofNat 128 (leNat (((bs.drop (16 * k)).take 16).map Prod.fst)))).toNat

/-- Tasks use tensors at a line time (R303). -/
def State.useTensors (s : State) (hs : List Nat) : State :=
  let touch (l : List Tensor) : List Tensor := l.map fun t => if hs.contains t.handle then { t with used := s.ns } else t
  { s with mem := { s.mem with tensors := touch s.mem.tensors, shadow := touch s.mem.shadow
                               previous := touch s.mem.previous } }

/-- A task waits for moves of the copy engine: a tier-0 tensor lies where it needs the store (R300), or a tensor it names
lies with a lender that reclaims its space (R301, DEDUCED 130). -/
def State.awaitsMoves (s : State) (t : Task) (cells : List CellId) : Bool :=
  let hs := s.entryNames t.entry
  s.mem.tensors.any fun u => u.inWay t.entry cells || (!u.lost && hs.contains u.handle && match u.loc with
    | .lender k _ => s.mem.reclaim.contains k
    | _ => false)

/-- A consist has been chosen: the cells are claimed, the version is sampled, the seed is settled and the report written
(R200, R336, R349). -/
def State.claim (s : State) (t : Task) (cells : List CellId) : State :=
  let v := s.dsp.pmapVer.toNat
  let seed := if t.entry.seed ≠ 0 then t.entry.seed
    else if t.attempt ≠ 0 then t.seed
    else if BitVec.ofNat 64 s.ns = 0 then 1 else BitVec.ofNat 64 s.ns
  let s1 := s.modTask t.id fun t =>
    { t with stage := .placed, cells := cells, left := cells, loaded := [], ran := [], version := v, seed := seed, startLt := s.ns }
  if t.entry.reports ∧ ¬ s.reachesTensor none s.mem.tensors t.entry.report.toNat 0 (reportBytes t cells v s.ns).length then
    s1.endCause t.id tsImage
  else if t.entry.reports then
    match s1.writeTensor s1.mem.tensors t.entry.report.toNat 0 ((reportBytes t cells v s.ns).map fun b => (b, false)) with
    | some s2 => s2
    | none => s1.endCause t.id tsImage
  else s1

/-- The tasks of the ready list in the order they are examined (R332). -/
def insRank (t : Task) : List Task → List Task
  | [] => [t]
  | k :: rest => if t.rank ≤ k.rank then t :: k :: rest else k :: insRank t rest

/-- Examine the ready list (R332): the first task that may start is placed, ended or waited for. -/
def State.placeFirst (s : State) : List Task → State
  | [] => s
  | t :: rest =>
    if ¬ s.mayStart t then s.placeFirst rest
    else if t.entry.marker then (s.modTask t.id fun t => { t with stage := .ending }).endTask t.id
    else
      let s := if t.entry.pin = 2 then s.touchTensor s.mem.tensors t.entry.plist.toNat 0 (2 * t.entry.size.toNat) else s
      match s.findConsist t with
      | .cells l =>
        if s.awaitsMoves t l then s
        else
          match s.needSnoops true (if t.entry.reports then
            tensorLines s.mem.tensors t.entry.report.toNat 0 (32 + 2 * l.length) else []) with
          | some s' => s'
          | none => (s.useTensors t.entry.handles).claim t l
      | .wait => s
      | .never => ((s.raise 0x0503 .error [(4, t.id), (2, t.entry.size.toNat), (2, s.activeCount)]).endCause t.id
          tsNoCells).endTask t.id
      | .bad => (s.endCause t.id tsImage).endTask t.id

/-- TASK_PLACE (R331 to R336). -/
def State.placeTask (s : State) : State :=
  s.placeFirst ((s.dsp.tasks.filter Task.isReady).foldr insRank [])

/-! ### Preparing and starting members (R337 to R339) -/

/-- The state of a cell as its task starts (R72, R83, R181, R186, R202, R249, R275). -/
def CellState.startTask (c : CellState) (bank : Bool) : CellState :=
  { c with
    st := .running
    banks := { c.banks with active := bank, pre := none }
    core := { CoreState.zero with t := c.core.t, pushed := 0 }
    sems := Vector.replicate _ 0
    mx := { MxState.empty with gap := c.mx.gap, gapSince := c.mx.gapSince, gapDuty := c.mx.gapDuty
                               gapCfg := c.mx.gapCfg, bank0 := c.mx.bank0, bank1 := c.mx.bank1 }
    nan := { NanRegs.zero with status := c.nan.status &&& 0x40000000 }
    regs := { CmdRegs.zero with seed := c.regs.seed } }

/-- VALID of a bank. -/
def BankState.validOf (b : BankState) (bank : Bool) : Bool := if bank then b.valid1 else b.valid0

/-- The signal box starts a cell on a valid bank (R72). -/
def State.startCell (s : State) (id : CellId) (bank : Bool) : State :=
  let c := s.cell id
  if c.st = .idle ∧ c.banks.validOf bank then s.setCell id ((c.startTask bank).stamp s.ns) else s

/-- Read n bytes of a handle from a node, without poison; none when unreadable, a failed path included (R338). -/
def State.readClean (s : State) (node : Node) (version h n : Nat) : Option (List Byte) :=
  if n = 0 then some []
  else if ¬ s.reachesTensor node (s.pmap version) h 0 n then none
  else
    match s.readTensor (s.pmap version) h 0 n with
    | none => none
    | some bs => if bs.any Prod.snd then none else some (bs.map Prod.fst)

/-- The parts of a task that its signal boxes read (R337): a handle and its bytes. -/
def TaskEntry.parts (e : TaskEntry) : List (Nat × Nat) :=
  [(e.image.toNat, 256 * e.imglen.toNat), (e.arg.toNat, e.arglen.toNat), (e.desc.toNat, 16 * e.ndesc.toNat)]

/-- Prepare one member (R337 steps 1 to 4): the image is loaded unless it was preloaded or is on its way (R339); the load
of another task's image that has been left there ends. -/
def CellState.prepare (c : CellState) (t : Task) (member : Nat) (image arg desc : List Byte) : CellState :=
  let tid : BitVec 32 := BitVec.ofNat 32 t.id
  let have' := c.banks.pre = some tid ∧ c.banks.validInactive
  let banks : BankState :=
    if have' ∨ c.banks.load.any (fun l => l.task == tid) then c.banks
    else { c.banks with load := some ⟨!c.banks.active, image, .issued, 0, tid⟩ }
  let words := List.range ((arg.length + 3) / 4)
  let ts := (List.range 16).map fun k => BitVec.ofNat 128 (leNat ((desc.drop (16 * k)).take 16))
  let mode : BitVec 32 := if t.entry.trap then 0x40000000 else 0
  { c with
    banks := banks
    dmem := { mem := c.dmem.mem.write 0 0 arg
              ue := c.dmem.ue.filter fun w => !words.contains w
              ce := c.dmem.ce.filter fun w => !words.contains w }
    core := { c.core with t := Vector.ofFn fun (i : Fin (2 ^ 4)) => (ts[i.val]?).getD 0 }
    regs := { c.regs with seed := t.seed }
    nan := { c.nan with status := mode ||| (c.nan.status &&& 0xBFFFFFFF) }
    task := ⟨tid, member, t.cells.length, t.entry.phase⟩ }

/-- SIGNAL_BOX_TASK (R337, R338): the box of a cluster reads the image, the argument block and the descriptors and
prepares its members; when they cannot be read clean, the dispatcher ends the task with IMAGE. -/
def State.boxTask (s : State) (task : Nat) (box : Nat) : State :=
  match s.task task with
  | none => s
  | some t =>
    let mine := t.cells.filter fun c => boxOf c == box && !t.loaded.contains c
    let l := s.pmap t.version
    if t.stage ≠ .placed ∨ mine = [] then s
    else
      match s.needSnoops false (t.entry.parts.flatMap fun p => tensorLines l p.1 0 p.2) with
      | some s' => s'
      | none =>
        let s0 := t.entry.parts.foldl (fun s p => s.touchTensor l p.1 0 p.2) s
        match t.entry.parts.map fun p => s0.readClean (some (box / 16)) t.version p.1 p.2 with
        | [some image, some arg, some desc] =>
          let s1 := mine.foldl (fun s c => s.modCell c fun k => k.prepare t (t.cells.idxOf c) image arg desc) s0
          let hs := (List.range t.entry.ndesc.toNat).map fun k =>
            (dHandle (BitVec.ofNat 128 (leNat ((desc.drop (16 * k)).take 16)))).toNat
          (s1.useTensors hs).modTask task fun t => { t with loaded := t.loaded ++ mine, named := hs }
        | _ => s0.endCause task tsImage

/-- TASK_MEMBERS_START (R337): once every member of the task is prepared, the members of one cluster start together on
the banks their loads have filled. -/
def State.boxStart (s : State) (task : Nat) (box : Nat) : State :=
  match s.task task with
  | none => s
  | some t =>
    let mine := t.cells.filter fun c => boxOf c == box
    let idle (c : CellId) : Bool :=
      (s.cell c).st == .idle && (s.cell c).banks.load.isNone && (s.cell c).banks.validInactive &&
        (s.cell c).banks.pre == some (BitVec.ofNat 32 task)
    let ready := (t.stage == .placed && t.cells.all fun c => t.loaded.contains c) || t.stage == .running
    if ready ∧ mine ≠ [] ∧ mine.all (fun c => t.loaded.contains c && idle c) then
      let s1 := mine.foldl (fun s c => s.startCell c (!(s.cell c).banks.active)) s
      s1.modTask task fun t =>
        { t with stage := .running, loaded := t.loaded.filter (fun c => !mine.contains c), ran := t.ran ++ mine }
    else s

/-- A cell of a running task is back in IDLE after HALT (R340). -/
def State.memberDone (s : State) (id : CellId) : State :=
  s.modTasks fun l => l.map fun t => if t.stage = .running then { t with left := t.left.filter fun c => c ≠ id } else t

/-! ### Faults and stops (R341) -/

/-- The status a member's fault gives its task (R342), and whether it is one R343 may re-run. -/
def CellState.faultStatus (c : CellState) : Nat × Bool :=
  let code := bitsOf c.regs.faultCmd.toNat 31 24
  if c.fault = 2 ∧ code = stNanTrap then (tsNan, false)
  else if c.fault = 2 ∧ code = stMxCheck then (tsCheck, true)
  else (tsFault, c.fault == 1 && c.exc == 0x0B)

/-- FAULT_REPORT (R341): the dispatcher takes a member's fault; the first cause it takes gives the status. -/
def State.takeFault (s : State) (id : CellId) : State :=
  let c := s.cell id
  if c.st = .faulted ∧ c.report ∧ s.hif.fwUp then
    let (st, again) := c.faultStatus
    let s0 := s.setCell id { c with report := false }
    let s1 : State := { s0 with dsp := { s0.dsp with idle := false } }
    s1.modTasks fun l => l.map fun t =>
      if t.cells.contains id ∧ (t.stage = .running ∨ t.stage = .placed) then
        { t with stage := .ending, status := st, faultCell := id
                 faultSeq := if c.fault = 2 then c.regs.faultSeq else 0
                 suspect := if again then some id else none }
      else t
  else s

/-- A cell that runs or has halted is stopped and cleared (R341, R75 steps 1, 2 and 4). -/
def State.stopCell (s : State) (id : CellId) : State :=
  let c := s.cell id
  if c.st = .running ∨ c.st = .halted then ((s.dropEnq id).setCell id (c.clear .idle)).colSettle else s

/-- MEMBER_STOP (R341): the signal box stops a member of a task the dispatcher is ending. -/
def State.stopMember (s : State) (id : CellId) : State :=
  if s.dsp.tasks.any fun t => t.stage == .ending && t.cells.contains id then s.stopCell id else s

/-- Tasks are stopped and forgotten without a record and without an event (R370, R378, R384): how many had started, and
the state without them. -/
def State.killTasks (s : State) (p : Task → Bool) : Nat × State :=
  let going := s.dsp.tasks.filter fun t => p t && t.started
  let s1 := (going.flatMap fun t => t.cells).foldl State.stopCell s
  (going.length, s1.modTasks fun l => l.filter fun t => !p t)

/-! ### ENQ (R115, R116, R346, R347) -/

/-- DSP_CFG.DMQ_DEPTH; 0 acts as 1. -/
def DspState.depth (d : DspState) : Nat := max 1 (bitsOf d.cfg.toNat 27 16)

/-- ENQ_REQUEST (R115, R346): the dispatcher answers by the first condition that fails and does not check the entry; one
it accepts with fields R350 calls undefined has an undefined outcome. -/
def State.answerEnq (s : State) (id : CellId) : State :=
  let c := s.cell id
  match c.core.enq with
  | none => s
  | some w =>
    if w.answer.isSome ∨ ¬ s.hif.fwUp ∨ c.st ≠ .running then s
    else
      let give (s : State) (a : EnqAnswer) : State :=
        ({ s with dsp := { s.dsp with idle := false } } : State).setCell id
          { c with core := { c.core with enq := some { w with answer := some a } } }
      let refuse (r : Nat) : State :=
        give { s with dsp := { s.dsp with enqRefused := countRefused s.dsp.enqRefused r } } ⟨false, BitVec.ofNat 32 r⟩
      let root := (s.task c.task.id.toNat).map fun t => t.root
      let credit : Nat := match root with
        | none => 0
        | some r => match s.task r with | some k => k.credits | none => 0
      if ¬ s.starting then refuse 3
      else if credit = 0 then refuse 1
      else if s.dsp.depth ≤ (s.dsp.tasks.filter fun t => t.stage == .dmq).length then refuse 2
      else
        let tid := nextId s.dsp.lastTask
        let r := root.getD 0
        let e := TaskEntry.ofBytes w.entry
        let t := Task.new tid.toNat e 64 c.task.id.toNat r .dmq 0
        let tasks := (s.dsp.tasks.map fun k =>
          let k1 := if k.id = r then { k with credits := k.credits - 1 } else k
          if k1.id = c.task.id.toNat then { k1 with enqed := true } else k1) ++ [{ t with credits := 0 }]
        (give { s with dsp := { s.dsp with tasks := tasks, lastTask := tid } } ⟨true, tid⟩).undefinedIf
          !e.formed true (s.hif.feat 2)

/-- An ENQ completes with pD and sD, and fetch goes on (R115). -/
def State.finishEnq (s : State) (id : CellId) (w : EnqWait) (ok : Bool) (v : BitVec 32) : State :=
  let c := s.cell id
  let c1 := ({ c with core := { c.core with enq := none, held := none } } : CellState).setP w.pd ok
  let c2 := c1.setS w.sd v
  s.retire id { c2 with core := { c2.core with sMark := c2.core.sMark &&& ~~~(bit5 w.sd)
                                               pMark := c2.core.pMark &&& ~~~(bit3 w.pd) } } .seq

/-- ENQ_ANSWER (R116): the signal box observes the answer within 10,000 ns of the issue. -/
def State.observeEnq (s : State) (id : CellId) : State :=
  let c := s.cell id
  match c.core.enq with
  | none => s
  | some w =>
    match w.answer with
    | some a => if s.ns ≤ w.issued + 10000 ∧ c.st = .running then s.finishEnq id w a.ok a.value else s
    | none => s

/-- ENQ_TIMEOUT (R116): after 10,000 ns the ENQ completes with reason 4 and its request is discarded. -/
def State.timeoutEnq (s : State) (id : CellId) : State :=
  let c := s.cell id
  match c.core.enq with
  | none => s
  | some w => if w.issued + 10000 < s.ns ∧ c.st = .running then (s.dropEnq id).finishEnq id w false 4 else s

/-! ### The placement map (R349) -/

/-- Handles whose translation differs between two maps. -/
def changedHandles (a b : List Tensor) : List Nat :=
  let hs := (a.map fun t => t.handle) ++ ((b.map fun t => t.handle).filter fun h => !(a.any fun t => t.handle == h))
  hs.filter fun h => (a.find? fun t => t.handle == h) != (b.find? fun t => t.handle == h)

/-- PMAP_COMMIT (R349): the shadow copy becomes active; not while a running task uses the copy it would replace. -/
def State.commitPmap (s : State) : State :=
  let old := s.dsp.tasks.any fun t => t.started && t.version != s.dsp.pmapVer.toNat
  if old ∨ ¬ s.hif.fwUp then s
  else
    let n := (changedHandles s.mem.tensors s.mem.shadow).length
    let v := s.dsp.pmapVer + 1
    let s1 : State := { s with mem := { s.mem with tensors := s.mem.shadow, previous := s.mem.tensors }
                               dsp := { s.dsp with pmapVer := v } }
    s1.raise 0x0504 .info [(4, v.toNat), (4, n)]

end Sys2Proof.Machine
end

