-- ==== Sys2Proof/Machine/Waybill.lean ====
section
/-!
DEFINITION. Waybills (R251 to R276): the frame every waybill instruction runs in, the instructions, moves and their
transforms, deferred signals and fences, lost segments, and waybill faults.
-/

namespace Sys2Proof.Machine

/-! ### Faults of a waybill (R274 to R276) -/

def wfIllegal : Nat := 1
def wfFetch : Nat := 2
def wfRange : Nat := 3
def wfShape : Nat := 4
def wfSpace : Nat := 5
def wfHandle : Nat := 6
def wfRemote : Nat := 7
def wfDepth : Nat := 8
def wfBounds : Nat := 9
def wfPath : Nat := 10

/-- Replace a context. -/
def CellState.setCtx (c : CellState) (i : BitVec 2) (x : WbCtx) : CellState := { c with wb := rset c.wb i x }

/-- Replace a context of a cell. -/
def State.setCtx (s : State) (id : CellId) (i : BitVec 2) (x : WbCtx) : State := s.modCell id fun c => c.setCtx i x

/-- A waybill faults at an instruction (R274): CELL_WB_FAULT keeps the first of the task, both events are raised, and the
cell faults. -/
def State.wbFaultAt (s : State) (id : CellId) (i : BitVec 2) (reason pc : Nat) (seq : BitVec 32) : State :=
  let c := s.cell id
  let word := reason * 2 ^ 24 + i.toNat * 2 ^ 19 + pc / 8 % 2 ^ 19
  let c1 : CellState :=
    if c.regs.wbFault = 0 then { c with regs := { c.regs with wbFault := BitVec.ofNat 32 word } } else c
  ((s.setCell id c1).raise 0x010C .error
    [(2, id.toNat), (4, seq.toNat), (1, i.toNat), (1, reason), (4, pc / 8)]).cmdFault id 2 1 seq stWaybill 0

/-- A waybill faults at the instruction its context executes. -/
def State.wbFault (s : State) (id : CellId) (i : BitVec 2) (reason : Nat) : State :=
  s.wbFaultAt id i reason (rget (s.cell id).wb i).pc (rget (s.cell id).wb i).seq

/-! ### What a context has issued (R262, R263) -/

/-- Its deferred SIGNALs that have not taken effect. -/
def WbCtx.signals (x : WbCtx) : List (Piece ⊕ DeferredSig) :=
  x.out.filter fun o => match o with | .inl _ => false | .inr _ => true

/-- A waybill has ended once every deferred SIGNAL before END has taken effect (R263): nothing of its context survives
(R254), the context is free (R251), and its writes go on with its RUNWB. -/
def State.wbClose (s : State) (id : CellId) (i : BitVec 2) : State :=
  let c := s.cell id
  let x := rget c.wb i
  if x.ended ∧ x.signals = [] then
    let shut (r : RunCmd) : RunCmd := if r.ctx = some i ∧ ¬ r.ended then { r with ended := true, pieces := x.pieces } else r
    s.setCell id { c with wb := rset c.wb i WbCtx.idle, qms := { c.qms with run := c.qms.run.map shut } }
  else s

/-! ### The frame (R253, R258, R260) -/

/-- What an instruction answers: the context after it and the address that follows, a fault, or a wait. -/
inductive WbResult where
  | go (x : WbCtx) (fall : Nat)
  | bad (reason : Nat)
  | hold (x : WbCtx)

/-- Go to the address that follows, after the end check of R260. -/
def WbCtx.follow (x : WbCtx) (fall : Nat) : WbCtx :=
  let (l, n) := endCheck x.pc fall x.loops
  { x with loops := l, pc := n }

/-- The context executes no instruction: it waits, is fenced, or has ended, or the cell does not work. -/
def CellState.ctxHeld (c : CellState) (x : WbCtx) : Bool :=
  !c.works || !x.busy || x.ended || x.fence || x.waitOn.isSome

/-- Fetch the instruction of a context (R253): a 32-byte word of four at a time, unless the word is among the last 64
instructions fetched. -/
def State.wbFetch (s : State) (id : CellId) (i : BitVec 2) : State :=
  let x := rget (s.cell id).wb i
  let w := x.pc / 32
  let s1 := if x.buf.contains w then s else s.touchStore id [4 * w, 4 * w + 1, 4 * w + 2, 4 * w + 3]
  s1.modCell id fun c =>
    (c.setCtx i (if x.buf.contains w then x else { x with buf := (w :: x.buf).take 16 })).stamp s.ns

/-- An instruction of a waybill: the bits R258 asks to be right, and what it does. -/
structure WbOp where
  legal : Nat → Bool
  run : CellId → BitVec 2 → Nat → State → State

/-- An instruction that acts on its context alone. -/
def wbPlain (body : State → WbCtx → Nat → WbResult) (id : CellId) (i : BitVec 2) (n : Nat) (s : State) : State :=
  match body s (rget (s.cell id).wb i) n with
  | .go y fall => s.setCtx id i (y.follow fall)
  | .bad r => s.wbFault id i r
  | .hold y => (s.setCtx id i y).wbClose id i

/-- The next instruction. -/
def WbCtx.seq' (x : WbCtx) : WbResult := .go x (x.pc + 8)

/-- Write a v register. -/
def WbCtx.setV (x : WbCtx) (d : BitVec 3) (a : BitVec 40) : WbCtx := { x with v := rset x.v d a }

/-! ### Plain instructions (R254, R258 to R263) -/

def bodySetv (_ : State) (x : WbCtx) (n : Nat) : WbResult :=
  (x.setV (wbD n) (BitVec.ofNat 40 (bitsOf n 39 0))).seq'

def bodyAddv (_ : State) (x : WbCtx) (n : Nat) : WbResult :=
  (x.setV (wbD n) (rget x.v (wbA n) + (BitVec.ofNat 32 (bitsOf n 31 0)).signExtend 40)).seq'

def bodyAddvv (_ : State) (x : WbCtx) (n : Nat) : WbResult :=
  (x.setV (wbD n) (rget x.v (wbA n) + rget x.v (wbB n))).seq'

/-- The descriptor a space code from 1 to 6 names: an element descriptor or its companion. -/
def WbCtx.slotDesc (x : WbCtx) (code : Nat) : QWord :=
  let p := (x.slots[(code - 1) / 2]?).getD (0, 0)
  if code % 2 = 1 then p.1 else p.2

def bodyGetd (_ : State) (x : WbCtx) (n : Nat) : WbResult :=
  let d := x.slotDesc (wbA n).toNat
  let v : BitVec 40 :=
    match (wbB n).toNat with
    | 0 => dOffset d
    | 1 => (dLdim d).setWidth 40
    | 2 => (dRows d).setWidth 40
    | 3 => (dCols d).setWidth 40
    | _ => (dFmt d).setWidth 40
  (x.setV (wbD n) v).seq'

def bodyShape (_ : State) (x : WbCtx) (n : Nat) : WbResult :=
  let ss := (rget x.v (BitVec.ofNat 3 (bitsOf n 31 29))).setWidth 32
  let ds := (rget x.v (BitVec.ofNat 3 (bitsOf n 28 26))).setWidth 32
  ({ x with h := rset x.h (wbN n) (some ⟨bitsOf n 55 44 + 1, bitsOf n 43 32 + 1, ss, ds⟩) } : WbCtx).seq'

def bodySetk (_ : State) (x : WbCtx) (n : Nat) : WbResult :=
  let v : Word := if bitsOf n 55 55 = 1 then (rget x.v (wbA n)).setWidth 32 else BitVec.ofNat 32 (bitsOf n 31 0)
  ({ x with k := rset x.k (wbN n) v } : WbCtx).seq'

/-- LOOP (R260): a count of 0 skips the body. -/
def bodyLoop (_ : State) (x : WbCtx) (n : Nat) : WbResult :=
  let k := rget x.k (wbN n)
  let last := x.pc + 8 * bitsOf n 55 48
  if k = 0 then .go x (last + 8)
  else if 4 ≤ x.loops.length then .bad wfDepth
  else if x.loops.head?.any fun e => decide (e.stop < last) then .bad wfBounds
  else .go { x with loops := ⟨x.pc + 8, last, k - 1⟩ :: x.loops, pc := x.pc } (x.pc + 8)

/-- SETRING (R261): a length of 0 turns the ring off, and its base is checked all the same. -/
def bodySetring (_ : State) (x : WbCtx) (n : Nat) : WbResult :=
  let base := (rget x.v (wbD n)).toNat
  let w := bitsOf n 13 0
  if base % 256 ≠ 0 ∨ 0x300000 < base + 256 * w then .bad wfShape
  else ({ x with ringBase := base, ringW := w } : WbCtx).seq'

def bodySetc (_ : State) (x : WbCtx) (n : Nat) : WbResult :=
  ({ x with remote := BitVec.ofNat 11 (bitsOf n 10 0) } : WbCtx).seq'

/-- SIGNAL (R262): the add joins the context's writes in program order. -/
def bodySignal (_ : State) (x : WbCtx) (n : Nat) : WbResult :=
  ({ x with out := x.out ++ [.inr ⟨BitVec.ofNat 5 (bitsOf n 57 53), bitsOf n 39 32 + 1⟩] } : WbCtx).seq'

/-- Whether a context has writes that are not visible yet. -/
def WbCtx.writesOut (x : WbCtx) : Bool := x.out.any fun o => match o with | .inl _ => true | .inr _ => false

/-- FENCE (R262). -/
def bodyFence (_ : State) (x : WbCtx) (_ : Nat) : WbResult :=
  if x.writesOut then .hold { x with fence := true } else x.seq'

/-- END (R263). -/
def bodyEnd (_ : State) (x : WbCtx) (_ : Nat) : WbResult := .hold { x with ended := true }

/-! The bits R258 marks 0, and the codes it reserves. -/
def zeroBits (n hi lo : Nat) : Bool := bitsOf n hi lo == 0

def legalNone (n : Nat) : Bool := zeroBits n 57 0
def legalSetv (n : Nat) : Bool := zeroBits n 54 40
def legalAddv (n : Nat) : Bool := zeroBits n 51 32
def legalAddvv (n : Nat) : Bool := zeroBits n 48 0
def legalGetd (n : Nat) : Bool :=
  zeroBits n 48 0 && decide (1 ≤ (wbA n).toNat ∧ (wbA n).toNat ≤ 6 ∧ (wbB n).toNat ≤ 4)
def legalShape (n : Nat) : Bool := zeroBits n 25 0
def legalSetk (n : Nat) : Bool := zeroBits n 51 32 && (bitsOf n 55 55 == 0 || zeroBits n 31 0)
def legalLoop (n : Nat) : Bool := zeroBits n 47 0 && bitsOf n 55 48 != 0
def legalWait (n : Nat) : Bool := zeroBits n 52 48 && zeroBits n 31 0
def legalSignal (n : Nat) : Bool := zeroBits n 52 40 && zeroBits n 31 0
def legalSetring (n : Nat) : Bool := zeroBits n 54 14
def legalSetc (n : Nat) : Bool := zeroBits n 57 11

/-! ### WAIT (R259) -/

/-- Take a count for a context and let it go on. -/
def State.wbTake (s : State) (id : CellId) (i : BitVec 2) (sem : BitVec 5) (cnt : Nat) : State :=
  let c := s.cell id
  let x := rget c.wb i
  s.setCell id ((c.take sem (5 + i.toNat) cnt).setCtx i (({ x with waitOn := none } : WbCtx).follow (x.pc + 8)))

/-- WAIT (R259): it takes its count at once or waits. -/
def runWait (id : CellId) (i : BitVec 2) (n : Nat) (s : State) : State :=
  let c := s.cell id
  let sem := BitVec.ofNat 5 (bitsOf n 57 53)
  let cnt := bitsOf n 47 32
  if c.mayTake sem (5 + i.toNat) cnt then s.wbTake id i sem cnt
  else s.setCtx id i { rget c.wb i with waitOn := some (sem, cnt) }

/-- A waiting context proceeds once its semaphore holds enough (R259). -/
def wbWaitDone (id : CellId) (i : BitVec 2) (s : State) : State :=
  let c := s.cell id
  match (rget c.wb i).waitOn with
  | none => s
  | some (sem, cnt) => if c.mayTake sem (5 + i.toNat) cnt then s.wbTake id i sem cnt else s

/-! ### MOVE (R255, R256, R261, R264 to R266) -/

/-- The fields of MOVE. -/
structure MoveOp where
  h : BitVec 2
  ssp : Nat
  sa : BitVec 3
  dsp : Nat
  da : BitVec 3
  xf : Nat
  ew : Nat
  as' : Bool
  ad : Bool
  rng : Bool
  pm : Bool

/-- Read the fields of MOVE (R264). -/
def moveOf (n : Nat) : MoveOp where
  h := wbN n
  ssp := bitsOf n 55 53
  sa := BitVec.ofNat 3 (bitsOf n 52 50)
  dsp := bitsOf n 49 47
  da := BitVec.ofNat 3 (bitsOf n 46 44)
  xf := bitsOf n 43 42
  ew := 2 ^ bitsOf n 41 40
  as' := bitsOf n 39 39 == 1
  ad := bitsOf n 38 38 == 1
  rng := bitsOf n 37 37 == 1
  pm := bitsOf n 36 36 == 1

/-- The bits of MOVE that R264 forbids. -/
def legalMove (n : Nat) : Bool :=
  let m := moveOf n
  zeroBits n 35 0 && bitsOf n 41 40 != 3 && (m.xf != 0 || bitsOf n 41 40 == 0) && (m.dsp == 0 || !(m.rng || m.pm))

/-- Whether a side may be used at all (R255). -/
def WbCtx.spaceOk (x : WbCtx) (sp : Nat) : Bool :=
  if sp = 0 ∨ sp = 7 then true
  else
    let d := x.slotDesc (if sp % 2 = 1 then sp else sp - 1)
    let own := x.slotDesc sp
    dHandle own != 0 && (sp % 2 == 1 || (match EFmt.ofCode (dFmt d).toNat with | some f => f.scaled | none => false))

/-- The conditions of R265 on a shape. -/
def shapeOk (m : MoveOp) (sh : Shape) : Bool :=
  match m.xf with
  | 0 => true
  | 1 => decide (m.ew ≤ 2 ∧ sh.len = 64 * m.ew)
  | 2 => decide (sh.nr ≤ 64 ∧ sh.len ≤ 128 ∧ sh.len % m.ew = 0)
  | _ => decide (sh.nr = 64 ∧ m.ew ≤ 2 ∧ sh.len ≤ 128 ∧ sh.len % m.ew = 0)

/-- An address register plus r times a signed stride, modulo 2^40. -/
def strideAddr (a : BitVec 40) (st : BitVec 32) (r : Nat) : Nat :=
  (a + (st.signExtend 40) * BitVec.ofNat 40 r).toNat

/-- The writes of a move (R265): for each its row of the destination, byte offset in it, and where its bytes come from:
source row, offset and length. -/
def moveWrites (m : MoveOp) (sh : Shape) : List (Nat × Nat × Nat × Nat × Nat) :=
  let ew := m.ew
  let skewed (rows : Nat) (src : Nat → Nat → Nat × Nat) : List (Nat × Nat × Nat × Nat × Nat) :=
    (List.range (rows + 63)).flatMap fun r =>
      (List.range 64).filterMap fun i =>
        if i ≤ r ∧ r - i < rows then
          let p := src (r - i) i
          some (r, i * ew, p.1, p.2, ew)
        else none
  match m.xf with
  | 0 => (List.range sh.nr).map fun r => (r, 0, r, 0, sh.len)
  | 1 => skewed sh.nr fun j i => (j, i * ew)
  | 2 => (List.range (sh.len / ew)).flatMap fun c => (List.range sh.nr).map fun i => (c, i * ew, i, c * ew, ew)
  | _ => skewed (sh.len / ew) fun j i => (i, j * ew)

/-- Map a run of destination bytes through the ring (R261): the runs it becomes. -/
def ringRuns (base w a n : Nat) : List (Nat × Nat) :=
  (List.range n).foldl (fun (acc : List (Nat × Nat)) i =>
    let p := a + i
    let q := if base ≤ p then base + (p - base) % (256 * w) else p
    match acc.getLast? with
    | some (b, k) => if b + k = q then acc.dropLast ++ [(b, k + 1)] else acc ++ [(q, 1)]
    | none => [(q, 1)]) []

/-- What a side of a move names: a store, or a tensor by handle. -/
def WbCtx.side (x : WbCtx) (id : CellId) (sp : Nat) : Option Nat × Nat :=
  if sp = 0 then (some id.toNat, 0)
  else if sp = 7 then (some x.remote.toNat, 0)
  else (none, (dHandle (x.slotDesc sp)).toNat)

/-- The places of one row of a side, or the fault of R274. -/
def State.sideRuns (s : State) (pm : List Tensor) (side : Option Nat × Nat) (a n : Nat) : List (Place × Nat) ⊕ Nat :=
  match side.1 with
  | some c => if 0x300000 < a + n then .inr wfRange else .inl [(.store c a, n)]
  | none =>
    match s.placesOf pm none side.2 a n with
    | some l => .inl l
    | none => .inr wfHandle

/-- What a move has gathered: the state, its pieces in order, HBM lines read, and a fault. -/
structure MoveOut where
  s : State
  pieces : List Piece
  lines : List Nat
  fault : Option Nat

/-- Read the source rows of a move in order, up to one that faults. -/
def moveRows (s : State) (pm : List Tensor) (id : CellId) (x : WbCtx) (m : MoveOp) (sh : Shape) :
    State × List (List (Place × Nat) × List (Byte × Bool)) × Option Nat :=
  (List.range sh.nr).foldl
    (fun (a : State × List (List (Place × Nat) × List (Byte × Bool)) × Option Nat) r =>
      if a.2.2.isSome then a
      else
        match a.1.sideRuns pm (x.side id m.ssp) (strideAddr (rget x.v m.sa) sh.ss r) sh.len with
        | .inr f => (a.1, a.2.1, some f)
        | .inl runs =>
          let s1 := runs.foldl (fun s p => s.touchPlace p.1 p.2) a.1
          (s1, a.2.1 ++ [(runs, runs.flatMap fun p => s1.readPlace p.1 p.2)], none)) (s, [], none)

/-- The bytes of this cell's store that the pieces of a move read, as the least address and one past the greatest; the
same for those they write. -/
def spanOfRuns (l : List (Nat × Nat)) : Nat × Nat :=
  l.foldl (fun a r => (min a.1 r.1, max a.2 (r.1 + r.2))) (2 ^ 41, 0)

/-- A run of a cell's store among the ends of a piece. -/
def storeRun (p : Place) (n : Nat) : Option (Nat × Nat × Nat) :=
  match p with | .store c a => some (c, a, n) | _ => none

/-- One byte of a move, read at address a of the store and written at address b, after the bytes `now` that the move has
already written there: where the move has written address a, its old value or the written one. -/
def blurByte (s : State) (acc : List (Nat × Byte × Bool) × List (Byte × Bool) × Nat) (a b : Nat) (v : Byte × Bool) :
    List (Nat × Byte × Bool) × List (Byte × Bool) × Nat :=
  let (now, out, n) := acc
  match now.find? fun e => e.1 == a with
  | none => ((b, v) :: now, out ++ [v], n)
  | some e =>
    let v' := if Config.freeNat (s.free + n) % 2 = 1 then e.2 else v
    ((b, v') :: now, out ++ [v'], n + 1)

/-- Where the destination of a move overlaps its source, each overlapped byte is its old value or one the move has already
written, which R265 leaves open: a free choice (MARK 35). The count of free values follows. -/
def blurMove (s : State) (ps : List Piece) : List Piece × Nat :=
  let both := ps.filterMap fun p =>
    match storeRun p.src p.data.length, storeRun p.dst p.data.length with
    | some (c, a, n), some (d, b, _) => if c = d then some ((a, n), (b, n)) else none
    | _, _ => none
  let src := spanOfRuns (both.map Prod.fst)
  let dst := spanOfRuns (both.map Prod.snd)
  if both.length < ps.length ∨ dst.2 ≤ src.1 ∨ src.2 ≤ dst.1 ∨ both.all (fun q => q.1 == q.2) then (ps, 0)
  else
    let r := (ps.zip both).foldl (fun (acc : List Piece × List (Nat × Byte × Bool) × Nat) p =>
      let (pc, q) := p
      let o := (pc.data.zipIdx).foldl (fun o x => blurByte s o (q.1.1 + x.2) (q.2.1 + x.2) x.1) (acc.2.1, [], acc.2.2)
      (acc.1 ++ [{ pc with data := o.2.1 }], o.1, o.2.2)) ([], [], 0)
    (r.1, r.2.2)

/-- Form the pieces of a move, up to a write that faults. -/
def moveGather (s : State) (pm : List Tensor) (id : CellId) (x : WbCtx) (m : MoveOp) (sh : Shape) : MoveOut :=
  let (s1, rows, bad) := moveRows s pm id x m sh
  let lines := rows.flatMap fun r => devLines r.1
  let writes := (moveWrites m sh).filter fun _ => m.xf == 0 || bad.isNone
  let out := writes.foldl (fun (a : List Piece × Option Nat) w =>
    let (dr, dOff, sr, sOff, n) := w
    if a.2.isSome then a
    else
      match rows[sr]? with
      | none => (a.1, bad)
      | some (runs, bs) =>
        let d := strideAddr (rget x.v m.da + BitVec.ofNat 40 dOff) sh.ds dr
        let bytes := (bs.drop sOff).take n
        let t : Piece := ⟨.host 0, .host 0, [], m.pm, x.segs + sr, x.segs * 65536 + dr, x.pc, s.ns, m.xf != 0⟩
        let src := match runs with | (p, k) :: _ => if n ≤ k ∧ m.xf ≠ 0 then [(p.plus sOff, n)] else runs | [] => runs
        if m.rng then
          let targets := ringRuns x.ringBase x.ringW d n
          if targets.any fun t => decide (0x300000 < t.1 + t.2) then (a.1, some wfRange)
          else (a.1 ++ rowPieces t src (targets.map fun t => (.store id.toNat t.1, t.2)) bytes, none)
        else
          match s1.sideRuns pm (x.side id m.dsp) d n with
          | .inr f => (a.1, some f)
          | .inl dst => (a.1 ++ rowPieces t src dst bytes, none)) ([], none)
  let (pieces, n) := blurMove s1 out.1
  { s := s1.skipFree n, pieces := pieces, lines := lines, fault := match out.2 with | some f => some f | none => bad }

/-- The registers after a move's advances (R266). -/
def moveAdvance (x : WbCtx) (m : MoveOp) (sh : Shape) : WbCtx :=
  let x1 := if m.as' then x.setV m.sa (BitVec.ofNat 40 (strideAddr (rget x.v m.sa) sh.ss sh.nr)) else x
  let rows := if m.xf < 2 then sh.nr else sh.len / m.ew
  if m.ad then x1.setV m.da (BitVec.ofNat 40 (strideAddr (rget x1.v m.da) sh.ds rows)) else x1

/-- Writes issued before a fault land (R234, R274). -/
def State.landIssued (s : State) (x : WbCtx) (more : List Piece) : State := s.landAll (x.pieces ++ more)

/-- Lines of HBM a list of pieces writes. -/
def pieceLines (l : List Piece) : List Nat := l.flatMap fun p => devLines [(p.dst, p.data.length)]

/-- The writes of one context become visible. -/
def State.landCtx (s : State) (id : CellId) (i : BitVec 2) : State :=
  let x := rget (s.cell id).wb i
  (s.landAll x.pieces).setCtx id i { x with out := x.signals }

/-- The transform unit is free again once the last write of the move that holds it has been made (R257): the writes of its
context, or of its ended waybill, become visible. None when they need snoops first; the state then has sent them. -/
def State.freeUnit (s : State) (id : CellId) : State ⊕ State :=
  let c := s.cell id
  let held := [0, 1, 2, 3].filter fun i : BitVec 2 => (rget c.wb i).pieces.any Piece.xf
  let runs := c.qms.run.filter fun r => r.ended && r.pieces.any Piece.xf
  match s.needSnoops true (pieceLines ((held.flatMap fun i => (rget c.wb i).pieces) ++ runs.flatMap RunCmd.pieces)) with
  | some s' => .inr s'
  | none =>
    let s1 := held.foldl (fun s i => s.landCtx id i) s
    .inl (runs.foldl (fun s r => (s.landAll r.pieces).modCell id fun c => { c with qms := { c.qms with
      run := c.qms.run.map fun k => if k.cmd.seq = r.cmd.seq then { k with pieces := [] } else k } }) s1)

/-- The reads and writes of a MOVE whose checks have passed (R264, R265, R268). -/
def issueMove (id : CellId) (i : BitVec 2) (m : MoveOp) (sh : Shape) (s : State) : State :=
  let x := rget (s.cell id).wb i
  let g := moveGather s (s.cellMap id) id x m sh
  match g.fault with
  | some r => (g.s.landIssued x g.pieces).wbFault id i r
  | none =>
    match s.needSnoops false g.lines with
    | some s' => s'
    | none =>
      let y : WbCtx := { x with out := x.out ++ g.pieces.map .inl, segs := x.segs + sh.nr }
      g.s.setCtx id i ((moveAdvance y m sh).follow (x.pc + 8))

/-- MOVE (R264): its checks in the order SPACE, SHAPE, REMOTE, then row by row STORE_RANGE and HANDLE. One with a
transform first gets the transform unit (R257). -/
def runMove (id : CellId) (i : BitVec 2) (n : Nat) (s : State) : State :=
  let x := rget (s.cell id).wb i
  let m := moveOf n
  if (m.ssp ≠ 0 ∧ m.dsp ≠ 0) ∨ ¬ x.spaceOk m.ssp ∨ ¬ x.spaceOk m.dsp then s.wbFault id i wfSpace
  else
    match rget x.h m.h with
    | none => s.wbFault id i wfShape
    | some sh =>
      if ¬ shapeOk m sh ∨ (m.rng ∧ x.ringW = 0) then s.wbFault id i wfShape
      else if (m.ssp = 7 ∨ m.dsp = 7) ∧ ¬ s.activeCell x.remote then s.wbFault id i wfRemote
      else if m.xf = 0 then issueMove id i m sh s
      else
        match s.freeUnit id with
        | .inr s' => s'
        | .inl s' => issueMove id i m sh s'

/-! ### The instruction a word spells (R258) -/

/-- The instruction of an opcode, bits 63 to 58; none for a reserved one. -/
def wbOpOf (op : Nat) : Option WbOp :=
  match op with
  | 0x00 => some ⟨legalNone, wbPlain bodyEnd⟩
  | 0x01 => some ⟨legalNone, wbPlain fun _ x _ => x.seq'⟩
  | 0x02 => some ⟨legalSetv, wbPlain bodySetv⟩
  | 0x03 => some ⟨legalAddv, wbPlain bodyAddv⟩
  | 0x04 => some ⟨legalAddvv, wbPlain bodyAddvv⟩
  | 0x05 => some ⟨legalGetd, wbPlain bodyGetd⟩
  | 0x06 => some ⟨legalShape, wbPlain bodyShape⟩
  | 0x07 => some ⟨legalSetk, wbPlain bodySetk⟩
  | 0x08 => some ⟨legalLoop, wbPlain bodyLoop⟩
  | 0x09 => some ⟨legalWait, runWait⟩
  | 0x0A => some ⟨legalSignal, wbPlain bodySignal⟩
  | 0x0B => some ⟨legalNone, wbPlain bodyFence⟩
  | 0x0C => some ⟨legalSetring, wbPlain bodySetring⟩
  | 0x0D => some ⟨legalSetc, wbPlain bodySetc⟩
  | 0x10 => some ⟨legalMove, runMove⟩
  | _ => none

/-- One instruction of a running context: its fetch, the checks of its bits, then what its opcode says. -/
def wbInstr (id : CellId) (i : BitVec 2) (w : DWord) (s : State) : Out :=
  withCell id s fun s =>
    let c := s.cell id
    let x := rget c.wb i
    if c.ctxHeld x then s
    else if 0x300000 ≤ x.pc then s.wbFault id i wfFetch
    else
      let s1 := s.wbFetch id i
      match wbOpOf (wbOp w.toNat) with
      | none => s1.wbFault id i wfIllegal
      | some op => if op.legal w.toNat then op.run id i w.toNat s1 else s1.wbFault id i wfIllegal

/-! ### Writes becoming visible (R262, R263) -/

/-- Split what a context has issued at its first deferred SIGNAL. -/
def splitSignal : List (Piece ⊕ DeferredSig) → Option (List Piece × DeferredSig × List (Piece ⊕ DeferredSig))
  | [] => none
  | .inr d :: rest => some ([], d, rest)
  | .inl p :: rest => (splitSignal rest).map fun (l, d, r) => (p :: l, d, r)

/-- The first deferred SIGNAL of a context takes effect: the writes before it are visible, then its add (R262). -/
def wbSignalEffect (id : CellId) (i : BitVec 2) (s : State) : State :=
  let x := rget (s.cell id).wb i
  match splitSignal x.out with
  | none => s
  | some (ps, d, rest) =>
    match s.needSnoops true (pieceLines ps) with
    | some s' => s'
    | none => (((s.landAll ps).setCtx id i { x with out := rest }).signal id d.sem d.add 2).wbClose id i

/-- A fenced context resumes: every write it has issued is visible (R262). Deferred SIGNALs stay in order. -/
def wbFenceDone (id : CellId) (i : BitVec 2) (s : State) : State :=
  let x := rget (s.cell id).wb i
  if ¬ x.fence then s
  else
    match s.needSnoops true (pieceLines x.pieces) with
    | some s' => s'
    | none => (s.landAll x.pieces).setCtx id i (({ x with out := x.signals, fence := false } : WbCtx).follow (x.pc + 8))

/-! ### Lost segments (R272) -/

/-- Whether a piece comes from outside the cell. -/
def Piece.inbound (p : Piece) (id : CellId) : Bool :=
  (match p.src with | .store c _ => decide (c ≠ id.toNat) | _ => true) &&
    (match p.dst with | .store c _ => decide (c = id.toNat) | _ => false)

/-- Whether a piece leaves the cell. -/
def Piece.outbound (p : Piece) (id : CellId) : Bool :=
  match p.dst with | .store c _ => decide (c ≠ id.toNat) | _ => true

/-- A lost segment's bytes: poisoned data of unspecified value (log entry 3). -/
def State.spoil (s : State) (p : Piece) : State × Piece :=
  let n := p.data.length
  ({ s with free := s.free + n },
    { p with data := (List.range n).map fun k => (BitVec.ofNat 8 (Config.freeNat (s.free + k)), true) })

/-- The pieces of a list that a lost segment of a context takes with it. -/
def Piece.ofSeg (p : Piece) (id : CellId) (seg : Nat) : Bool := p.seg == seg && (p.inbound id || p.outbound id)

/-- Spoil the pieces of a lost segment. -/
def State.spoilAll (s : State) (id : CellId) (seg : Nat) (l : List Piece) : State × List Piece :=
  l.foldl (fun (a : State × List Piece) q =>
    if q.ofSeg id seg then (let (t, q') := a.1.spoil q; (t, a.2 ++ [q'])) else (a.1, a.2 ++ [q])) (s, [])

/-- Put pieces back in their places among the SIGNALs. -/
def refill : List (Piece ⊕ DeferredSig) → List Piece → List (Piece ⊕ DeferredSig)
  | .inl _ :: o, p :: ps => .inl p :: refill o ps
  | .inl q :: o, [] => .inl q :: refill o []
  | .inr d :: o, ps => .inr d :: refill o ps
  | [], _ => []

/-- A lost segment is counted, and the first of its RUNWB is reported (R272, R276). -/
def State.wbMark (s : State) (id : CellId) (i : BitVec 2) (seq : BitVec 32) (p : Piece) (first late : Bool) : State :=
  let c := s.cell id
  let marked := min 0xFFFF (c.regs.wbMarked.toNat + 1)
  let s1 := s.setCell id { c with regs := { c.regs with wbMarked := BitVec.ofNat 32 marked } }
  let addr := match p.dst with | .store _ a => a | _ => 0
  if first then
    s1.raise 0x010D .warning [(2, id.toNat), (4, seq.toNat), (4, c.task.id.toNat), (1, i.toNat), (4, addr), (1, if late then 1 else 0)]
  else s1

/-- A source segment of a waybill is lost (R272): with PM it is written poisoned and counted, otherwise, and for any lost
outbound write, the waybill ends with PATH. `ok` says which of its pieces are lost, `late` that they went unacknowledged. -/
def wbLose (id : CellId) (i : BitVec 2) (seg : Nat) (late : Bool) (ok : Piece → Bool) (s : State) : State :=
  let c := s.cell id
  let x := rget c.wb i
  let hit (l : List Piece) : List Piece := l.filter fun p => p.ofSeg id seg
  let bad (l : List Piece) : Bool := l.any fun q => !q.pm || q.outbound id
  match hit x.pieces with
  | p :: l =>
    if ¬ (p :: l).any ok then s
    else if bad (p :: l) then s.wbFaultAt id i wfPath p.iaddr x.seq
    else
      let (s1, ps) := s.spoilAll id seg x.pieces
      (s1.setCtx id i { x with out := refill x.out ps, marked := true }).wbMark id i x.seq p (!x.marked) late
  | [] =>
    match c.qms.run.find? fun r => r.ended && r.ctx == some i && !(hit r.pieces).isEmpty with
    | none => s
    | some r =>
      match hit r.pieces with
      | [] => s
      | p :: l =>
        if ¬ (p :: l).any ok then s
        else if bad (p :: l) then s.wbFaultAt id i wfPath p.iaddr r.cmd.seq
        else
          let (s1, ps) := s.spoilAll id seg r.pieces
          (s1.modCell id fun c => { c with qms := { c.qms with
            run := c.qms.run.map fun k => if k.cmd.seq = r.cmd.seq then { k with pieces := ps, col := true } else k } }).wbMark
              id i r.cmd.seq p (!r.col) late

/-- Whether the path of a piece has failed: it crosses a failed link, or it ends in host memory while the CXL link is down,
or where the mesh does not reach (R33, R272, R302, R407). -/
def State.pathLost (s : State) (p : Piece) : Bool :=
  let outside (q : Place) : Bool := !s.hasRoute q || match q with | .host _ => !s.hif.linkUp | _ => false
  s.badLinks.any (fun l => s.crosses l p) || outside p.src || outside p.dst

/-- A source segment of a context is lost (R272): its path has failed, or it has gone 1,000,000 ns unacknowledged. -/
def wbLost (id : CellId) (i : BitVec 2) (index : Nat) (late : Bool) (s : State) : State :=
  wbLose id i index late (fun p => if late then decide (p.since + 1000000 ≤ s.ns) else s.pathLost p) s

/-- Segments of waybills with a piece in flight that meets a condition: cell, context and segment. -/
def State.segments (s : State) (p : Piece → Bool) : List (CellId × BitVec 2 × Nat) :=
  s.cells.flatMap fun e =>
    let id : CellId := BitVec.ofNat 11 e.1
    let of (i : BitVec 2) (l : List Piece) : List (CellId × BitVec 2 × Nat) := (l.map fun p => (id, i, p.seg)).eraseDups
    [0, 1, 2, 3].flatMap fun i => of i (((rget e.2.wb i).pieces ++
      (e.2.qms.run.filter fun r => r.ended && r.ctx == some i).flatMap RunCmd.pieces).filter p)

/-! ### A failed die-to-die link (R33) -/

/-- A die-to-die link fails (R33): commands with a transfer in flight on it end with PATH, and segments of waybills are lost
(R272); later traffic between a corner
die and the I/O die takes the other neighbour. -/
def State.linkFails (s : State) (l : DieLink) : State :=
  if s.badLinks.contains l then s
  else
    let hits := s.cells.filterMap fun e =>
      match e.2.qlk.run.find? fun r => s.runCrosses (BitVec.ofNat 11 e.1) l r with
      | some r => some (e.1, r)
      | none => none
    let parts := s.col.coming.filter fun k =>
      match k.origin with
      | .part id | .lcoll id => (routeLinks s.badLinks (some (dieOf id)) none).contains l
      | .epoch => false
    let s1 := hits.foldl (fun s h =>
      if (s.cell (BitVec.ofNat 11 h.1)).qlk.run.any fun r => r.cmd.seq = h.2.cmd.seq then
        s.cmdFault (BitVec.ofNat 11 h.1) 3 (cOpc h.2.cmd.word).toNat h.2.cmd.seq stPath 0
      else s) s
    let s3 := (s.segments (s.crosses l)).foldl (fun s x => wbLose x.1 x.2.1 x.2.2 false (fun p => s.crosses l p) s) s1
    let s2 := (parts.foldl (fun s k => s.endPart k stPath) s3).colSettle
    { s2 with badLinks := s2.badLinks ++ [l] }

end Sys2Proof.Machine
end

