-- ==== Sys2Proof/Machine/Memory.lean ====
section
/-!
DEFINITION. The memory system (R277 to R309): sector accesses and their errors, live lane repair, the host's accesses and
snoops, the scope table, and the movement and loss of tensors between tiers.
-/

namespace Sys2Proof.Machine

/-! ### Sectors (R281, R290, R291) -/

/-- Sectors of the device physical address space (R280). -/
def sectorCount : Nat := dpaSize / 32

/-- Change the counts of a stack. -/
def State.modStack (s : State) (stack : Nat) (f : StackState → StackState) : State :=
  let i : BitVec 4 := BitVec.ofNat 4 stack
  { s with mem := { s.mem with stks := rset s.mem.stks i (f (rget s.mem.stks i)) } }

/-- Note a corrected error of a lane (R289): its errors within 1,000,000 ns are kept. -/
def State.laneError (s : State) (pch lane : Nat) : State :=
  let k := 64 * pch + lane
  let l := s.ns :: (Sparse.at [] s.mem.laneErr k).filter fun t => s.ns < t + 1000000
  { s with mem := { s.mem with laneErr := Sparse.put s.mem.laneErr k l } }

/-- A sector is read with symbols of some lanes in error (R290, R291): one is corrected and counted, more are
uncorrectable and the sector becomes poisoned. -/
def State.readSector (s : State) (sector : Nat) (errs : List Nat) (source : Nat) : State :=
  let l := s.mem.locate (32 * sector)
  match errs with
  | [] => s
  | [lane] => (s.modStack l.stack fun k => { k with ce := satInc k.ce }).laneError (64 * l.stack + l.u) lane
  | _ =>
    let s1 := s.modStack l.stack fun k => { k with ue := satInc k.ue }
    let s2 : State := { s1 with mem := { s1.mem with poison := setIns s1.mem.poison sector } }
    s2.raise 0x0401 .error [(1, l.stack), (1, l.u), (8, 32 * sector), (1, source)]

/-- Whether the memory takes accesses of engines (R529): not while the brake is in force or the main stage is off. -/
def State.memRuns (s : State) : Bool := s.portsOn && !s.dbg.braked

/-- Sectors a request touches. -/
def MemReq.sectors : MemReq → List Nat
  | .read k _ => [k]
  | .write k _ _ _ _ => [k]
  | .atom a _ _ _ _ _ => [a / 32]
  | .hostRead o _ _ _ _ => [o / 64 * 2, o / 64 * 2 + 1]
  | .hostWrite o d _ _ _ => sectorsOf o (min d.length (64 - o % 64))

/-- The snoops a request of the device needs: whether it writes, and its lines; the host's own need none (R305). -/
def MemReq.lines : MemReq → Option (Bool × List Nat)
  | .read k _ => some (false, [k / 2])
  | .write k _ _ _ _ => some (true, [k / 2])
  | .atom a _ _ _ _ _ => some (true, [a / 64])
  | .hostRead _ _ _ _ _ | .hostWrite _ _ _ _ _ => none

/-- The host sees the device: powered, with its link up and PERST# released. -/
def State.hostUp (s : State) : Bool := s.portsOn && s.hif.linkUp && !s.hif.perst

/-- Entries of the snoop filter. -/
def snoopSize : Nat := 8388608

/-- Bytes the HDM decoder spans. -/
def decoderSize : Nat := 1152124977152

/-- Track a line the host caches; the oldest entry of a full filter is evicted with BISnpInv (R305). -/
def State.trackLine (s : State) (line : Nat) (modified : Bool) : State :=
  let l := (s.mem.snoop.filter fun e => e.1 ≠ line) ++ [(line, modified)]
  let s1 : State := { s with mem := { s.mem with snoop := l } }
  if l.length ≤ snoopSize then s1
  else
    match l with
    | (old, _) :: _ =>
      let s2 : State := { s1 with mem := { s1.mem with snoopWait := s1.mem.snoopWait ++ [⟨old, true⟩] } }
      s2.reply 1 1 [old]
    | [] => s1

/-- A host read of a line (R306): `own` when the host takes it to modify it, `cache` when it keeps it. -/
def State.serveHostRead (s : State) (offset : Nat) (cache own : Bool) (errs0 errs1 : List Nat) : State :=
  let a := 64 * (offset / 64)
  let s1 := (s.readSector (a / 32) errs0 1).readSector (a / 32 + 1) errs1 1
  let bs := s1.mem.readHbm a 64
  let bad := bs.any Prod.snd
  let (seen, s1') := s1.seenBytes bs
  let s2 := s1'.reply 2 1 [a, if bad then 1 else 0] seen
  let s3 := if bad then s2.raise 0x0405 .warning [(8, a)] else s2
  if cache ∨ own then s3.trackLine (a / 64) own else s3

/-- A host write within a line (R306): `keep` when the host keeps the line modified. -/
def State.serveHostWrite (s : State) (offset : Nat) (data : List Byte) (poison keep : Bool) (errs : List Nat) : State :=
  let line := offset / 64
  let bs := data.take (64 - offset % 64)
  let part := (sectorsOf offset bs.length).filter fun k => ¬ (offset ≤ 32 * k ∧ 32 * k + 32 ≤ offset + bs.length)
  let s1 := part.foldl (fun s k => s.readSector k errs 4) s
  let s2 : State := { s1 with mem := s1.mem.writeHbm offset (bs.map fun b => (b, poison)) }
  if keep then s2.trackLine line true
  else { s2 with mem := { s2.mem with snoop := s2.mem.snoop.filter fun e => e.1 ≠ line } }

/-- Carry out a request at its point of the sector's order (R290 to R292, R295, R297): a read of a sector answers 32 bytes
and a poison bit, a write of less than a sector reads it first, and an atomic update reads, updates and writes in one
step. -/
def State.serve (s : State) (r : MemReq) : State :=
  match r with
  | .read sector errs =>
    let s1 := s.readSector sector errs 0
    let bs := s1.mem.readHbm (32 * sector) 32
    let (seen, s2) := s1.seenBytes bs
    s2.reply 2 0 [sector, if bs.any Prod.snd then 1 else 0] seen
  | .write sector off bytes poison errs =>
    let n := min bytes.length (32 - off)
    let s1 := if n < 32 then s.readSector sector errs 4 else s
    { s1 with mem := s1.mem.writeHbm (32 * sector + off) ((bytes.take n).map fun b => (b, poison)) }
  | .atom dpa f op value poison errs => (s.readSector (dpa / 32) errs 3).applyAtom ⟨.dev dpa, f, op, value, poison⟩
  | .hostRead o cache own e0 e1 => s.serveHostRead o cache own e0 e1
  | .hostWrite o d poison keep errs => s.serveHostWrite o d poison keep errs

/-- A request waits behind an earlier one for the same sector (R297), for its pseudo-channel (R289), or, from an engine,
while the brake is in force (R529). -/
def State.mustQueue (s : State) (r : MemReq) : Bool :=
  (s.mem.queued.any fun q => q.sectors.any fun k => r.sectors.contains k) || r.sectors.any s.mem.pausedAt ||
    (r.lines.isSome && !s.memRuns)

/-- A request reaches the memory: it is carried out, or waits (R289, R297, R305). -/
def State.request (s : State) (r : MemReq) : State :=
  let keep (s : State) : State := { s with mem := { s.mem with queued := s.mem.queued ++ [r] } }
  if s.mustQueue r then keep s
  else
    match r.lines with
    | none => s.serve r
    | some (w, ls) =>
      match s.needSnoops w ls with
      | some s' => keep s'
      | none => s.serve r

/-- The requests that waited are tried again in order. -/
def State.retryQueued (s : State) : State :=
  s.mem.queued.foldl State.request { s with mem := { s.mem with queued := [] } }

/-- A granted access of the device (R297). -/
def State.accessSector (s : State) (r : MemReq) : State := if s.memRuns then s.request r else s

/-- An atomic update of one element (R295, R296). -/
def State.atomicUpdate (s : State) (dpa : Nat) (fmt : BitVec 4) (op : BitVec 3) (value : Nat) (poison : Bool)
    (errs : List Nat) : State :=
  match EFmt.ofCode fmt.toNat with
  | none => s
  | some f =>
    let ok := (f == .fp32 || f == .bf16 || f == .int32 || f == .int64) && decide (op.toNat ≤ 2) &&
      decide (dpa % (f.width / 8) = 0)
    if ok then s.accessSector (.atom dpa f op value poison errs) else s

/-! ### Scrubbing (R293) -/

/-- Sectors of the device-reserved area of a pseudo-channel and of a stack (R277, R279): rows 34,333 to 36,863 of 32 banks,
32 sectors a row. -/
def reservedPch : Nat := 2591744
def reservedSectors : Nat := 165871616

/-- A sector of the device-reserved area is read (R290, R291): it is corrected and counted, or poisoned. No device physical
address reaches it, so the address its MEM_UE carries is not stated (log entry 3). -/
def State.readReserved (s : State) (stack : BitVec 4) (sector : Nat) (errs : List Nat) : State :=
  let u := sector / reservedPch
  match errs with
  | [] => s
  | [lane] => (s.modStack stack.toNat fun k => { k with ce := satInc k.ce }).laneError (64 * stack.toNat + u) lane
  | _ =>
    let (v, s1) := s.freshNat
    let s2 := s1.modStack stack.toNat fun k => { k with ue := satInc k.ue }
    let bad := setIns s2.mem.resPoison (stack.toNat * reservedSectors + sector)
    ({ s2 with mem := { s2.mem with resPoison := bad } } : State).raise 0x0401 .error
      [(1, stack.toNat), (1, u), (8, v), (1, 2)]

/-- Patrol scrub reads one sector, of the address space or of the device-reserved area; a paused pseudo-channel takes no
request (R289, R293). -/
def State.scrub (s : State) (stack : BitVec 4) (sector : Nat) (reserved : Bool) (errs : List Nat) : State :=
  let pch := if reserved then 64 * stack.toNat + sector / reservedPch else s.mem.pchOf sector
  if ¬ s.mem.scrubCfg.getLsbD 0 ∨ ¬ s.memRuns ∨ (Sparse.find s.mem.paused pch).isSome then s
  else if reserved then s.readReserved stack sector errs
  else s.readSector sector errs 2

/-! ### Live lane repair (R289) -/

/-- MEM_REPAIR_CFG.THRESH; 0 acts as 1. -/
def MemState.thresh (m : MemState) : Nat := max 1 (bitsOf m.repairCfg.toNat 15 8)

/-- LANE_REPAIR_START: a lane whose corrected errors reach THRESH within 1,000,000 ns is repaired, or reported once as
without a spare. -/
def State.laneRepairStart (s : State) (pch : BitVec 10) (lane : Nat) : State :=
  let m := s.mem
  let p := pch.toNat
  let recent := (Sparse.at [] m.laneErr (64 * p + lane)).filter fun t => s.ns < t + 1000000
  if ¬ s.memRuns ∨ ¬ m.repairCfg.getLsbD 0 ∨ recent.length < m.thresh ∨ (Sparse.find m.paused p).isSome then s
  else if m.spareUsed.contains p then
    if m.noSpare.contains (64 * p + lane) then s
    else
      let s1 : State := { s with mem := { m with noSpare := setIns m.noSpare (64 * p + lane) } }
      s1.raise 0x0403 .warning [(1, p / 64), (1, p % 64 / 2), (1, p % 2), (1, lane)]
  else { s with mem := { m with paused := Sparse.put m.paused p lane } }

/-- LANE_REPAIR_END: the spare lane carries the traffic, and the requests that waited are served. -/
def State.laneRepairEnd (s : State) (pch : BitVec 10) : State :=
  let p := pch.toNat
  match Sparse.find s.mem.paused p with
  | none => s
  | some lane =>
    let m := s.mem
    let m1 : MemState := { m with paused := Sparse.erase m.paused p, spareUsed := setIns m.spareUsed p
                                  laneErr := Sparse.erase m.laneErr (64 * p + lane) }
    let s0 : State := { s with mem := m1 }
    let s1 := s0.modStack (p / 64) fun k => { k with spares := k.spares - 1, repLive := satInc k.repLive }
    let spares := (rget s1.mem.stks (BitVec.ofNat 4 (p / 64))).spares.toNat
    let s2 := s1.raise 0x0402 .warning [(1, p / 64), (1, p % 64 / 2), (1, p % 2), (1, lane), (1, 1), (1, spares)]
    s2.retryQueued

/-! ### The host's accesses (R304 to R307, R552) -/

/-- HOST_MEM_READ (R304, R306): the line at an offset from the decoder base. -/
def State.hostRead (s : State) (offset : Nat) (cache own : Bool) (errs0 errs1 : List Nat) : State :=
  let a := 64 * (offset / 64)
  if ¬ s.hostUp then s
  else if dpaSize ≤ a then
    let (v, s1) := s.freshNat
    (s1.reply 2 1 [a, 1] (leBytes 64 v)).raise 0x0406 .warning [(8, offset)]
  else s.request (.hostRead offset cache own errs0 errs1)

/-- HOST_MEM_WRITE (R304, R306): bytes within one line. -/
def State.hostWrite (s : State) (offset : Nat) (data : List Byte) (poison keep : Bool) (errs : List Nat) : State :=
  if ¬ s.hostUp then s
  else if dpaSize ≤ 64 * (offset / 64) then s.raise 0x0406 .warning [(8, offset)]
  else s.request (.hostWrite offset data poison keep errs)

/-- BISNP_RESPONSE (R305): the host's answer for a line, with its data when it held the line modified; the accesses that
waited for it take effect. -/
def State.snoopAnswer (s : State) (line : Nat) (data : Option (List Byte)) (poison : Bool) : State :=
  match s.mem.snoopWait.find? fun w => w.line = line with
  | none => s
  | some w =>
    let m := s.mem
    let m1 := match data with
      | some bs => if line < dpaSize / 64 then m.writeHbm (64 * line) ((bs.take 64).map fun b => (b, poison)) else m
      | none => m
    ({ s with mem := { m1 with
        snoopWait := m1.snoopWait.filter fun k => !(k.line == line && k.write == w.write)
        snoop := if w.write then m1.snoop.filter fun e => e.1 ≠ line
                 else m1.snoop.map fun e => if e.1 = line then (line, false) else e } } : State).retryQueued

/-! ### The scope table (R281, R282) -/

/-- The DPA of a place in slab group j under a scope: the inverse of R281's map. -/
def dpaOf (scope j : Nat) (l : Loc) : Nat :=
  let w := 128 * l.row + 4 * (l.bank ^^^ (l.row % 32)) + l.col / 256
  let i := 64 * w + (l.u ^^^ foldBits 6 12 w) - 1125000 * j
  let byte := l.col % 256
  let r := if scope = 0 then 256 * (16 * i + (l.stack ^^^ foldBits 4 16 i)) + byte
    else if scope = 1 then 576000000 * (l.stack / 2) + 256 * (2 * i + ((l.stack % 2) ^^^ foldBits 1 32 i)) + byte
    else 288000000 * l.stack + 256 * i + byte
  4608000000 * j + r

/-- Where the shadow table has the place that a DPA has under the active one (R282). -/
def MemState.rescope (m : MemState) (dpa : Nat) : Nat :=
  let j := dpa / 4608000000
  if dpaSize ≤ dpa ∨ scopeIn m.scopeAct j = scopeIn m.scopeShd j then dpa
  else dpaOf (scopeIn m.scopeShd j) j (locateIn (scopeIn m.scopeAct j) dpa)

/-- A place, and a request, under the new table (R282): an access in flight completes under the version it sampled. -/
def Place.rescope (f : Nat → Nat) : Place → Place
  | .dev a => .dev (f a)
  | p => p
def MemReq.rescope (f : Nat → Nat) : MemReq → MemReq
  | .read k e => .read (f (32 * k) / 32) e
  | .write k o b p e => .write (f (32 * k) / 32) o b p e
  | .atom a t o v p e => .atom (f a) t o v p e
  | .hostRead o c w e0 e1 => .hostRead (f o) c w e0 e1
  | .hostWrite o d p k e => .hostWrite (f o) d p k e

/-- A piece in flight, cut at the blocks of its destination. -/
def Piece.rescope (f : Nat → Nat) (p : Piece) : List Piece :=
  match p.dst with
  | .dev a =>
    let n := p.data.length
    (List.range ((a % 256 + n + 255) / 256)).map fun k =>
      let lo := max a (256 * (a / 256 + k))
      let hi := min (a + n) (256 * (a / 256 + k + 1))
      { p with dst := .dev (f lo), src := p.src.rescope f, data := (p.data.drop (lo - a)).take (hi - lo) }
  | _ => [{ p with src := p.src.rescope f }]

/-- Whether a piece ends or begins where the map changes. -/
def Piece.remaps (f : Nat → Nat) (p : Piece) : Bool := p.src.rescope f != p.src || p.dst.rescope f != p.dst

/-- The transfers of an engine's commands under the new table. -/
def RunCmd.rescope (f : Nat → Nat) (r : RunCmd) : RunCmd :=
  { r with pieces := r.pieces.flatMap fun p => if p.remaps f then p.rescope f else [p]
           atoms := r.atoms.map fun a => { a with dst := a.dst.rescope f } }

/-- The transfers of a cell under the new table. -/
def CellState.rescope (f : Nat → Nat) (c : CellState) : CellState :=
  { c with
    qms := { c.qms with run := c.qms.run.map (RunCmd.rescope f) }
    qlk := { c.qlk with run := c.qlk.run.map (RunCmd.rescope f) }
    wb := c.wb.map fun x => { x with out := x.out.flatMap fun o => match o with
      | .inl p => (if p.remaps f then p.rescope f else [p]).map Sum.inl
      | .inr d => [.inr d] } }

/-- MEM_SCOPE_COMMIT (R282): the shadow table becomes active, and accesses in flight keep the place they had. What a group
whose scope changed held is undefined: the bytes that held something, and the addresses the map moves them to, take free
values (log entry 3). -/
def State.scopeCommit (s : State) : State :=
  let m := s.mem
  let changed := (List.range 250).filter fun j => scopeIn m.scopeAct j ≠ scopeIn m.scopeShd j
  let hit := m.hbm.filter fun c => changed.contains (c.1 / 4608000000)
  let addrs := hit.flatMap fun c => [c.1, m.rescope c.1]
  let v := m.scopeVer + 1
  let s1 : State := { s with
    mem := { m with scopeAct := m.scopeShd, scopeVer := v, queued := m.queued.map (MemReq.rescope m.rescope) }
    cells := if changed = [] then s.cells else s.cells.map fun e => (e.1, e.2.rescope m.rescope) }
  let s2 := addrs.foldl (fun (s : State) a =>
    let (x, s') := s.freshNat
    { s' with mem := { s'.mem with hbm := s'.mem.hbm.put 0 a (BitVec.ofNat 8 x) } }) s1
  s2.raise 0x0407 .info [(4, v.toNat), (1, changed.length)]

/-! ### Tiers (R299 to R303) -/

/-- Whether two runs of addresses meet. -/
def overlaps (a n b m : Nat) : Bool := decide (a < b + m ∧ b < a + n)

/-- Whether two places of given sizes meet. -/
def TLoc.meets (x : TLoc) (n : Nat) (y : TLoc) (m : Nat) : Bool :=
  match x, y with
  | .store c a, .store d b => c == d && overlaps a n b m
  | .hbm l, .hbm k => l.any fun e => k.any fun f => overlaps e.1 e.2 f.1 f.2
  | .lender c a, .lender d b => c == d && overlaps a n b m
  | .host a, .host b => overlaps a n b m
  | _, _ => false

/-- Bytes of a part of a slab group under a scope (R281). -/
def partSize (scope : Nat) : Nat := if scope = 0 then 4608000000 else if scope = 1 then 576000000 else 288000000

/-- The scope of every slab group part an extent lies in agrees with a tensor's scope, and the extent consists of whole
blocks that lie in one part (R283). -/
def MemState.extentOk (m : MemState) (scope : Nat) (e : Nat × Nat) : Bool :=
  let part := partSize scope
  decide (0 < e.2 ∧ e.1 + e.2 ≤ dpaSize ∧ e.1 % 256 = 0 ∧ e.2 % 256 = 0 ∧ e.1 / part = (e.1 + e.2 - 1) / part) &&
    m.scope (e.1 / 4608000000) == scope

/-- A module stands at a port of this one and has trained (R301). -/
def State.neighbour (s : State) (k : Nat) : Bool :=
  s.lnk.ports.toList.any fun p => p.state == 5 && p.peer.getLsbD 15 && p.peer.toNat % 2 ^ 15 == k

/-- What every copy of the map places. -/
def MemState.placed (m : MemState) : List Tensor :=
  (m.tensors ++ m.shadow ++ m.previous).foldr (fun t l => if l.any fun u => u.loc == t.loc then l else t :: l) []

/-- Bytes borrowed from a module (R301), but for one tensor. -/
def MemState.borrowed (m : MemState) (k handle : Nat) : Nat :=
  ((m.placed.filter fun t => t.handle ≠ handle).map fun t => match t.loc with
    | .lender j _ => if j = k then t.size else 0
    | _ => 0).sum

/-- Bytes of a cell's store that its started tasks may use (R300): the highest of their limits. -/
def State.limitOf (s : State) (c : Nat) : Nat :=
  (s.dsp.tasks.filter fun t => t.started && t.cells.contains (BitVec.ofNat 11 c)).foldl
    (fun m t => max m (1024 * t.entry.stlim.toNat)) 0

/-- Whether a tensor may be put in a place: it fits its tier and meets no other tensor (R283, R298 to R303). -/
def State.placeOk (s : State) (handle size scope : Nat) (loc : TLoc) : Bool :=
  let m := s.mem
  let others (l : List Tensor) : Bool := l.all fun t => t.handle == handle || !(loc.meets size t.loc t.size)
  others m.tensors && others m.shadow &&
    match loc with
    | .store c a => s.activeCell (BitVec.ofNat 11 c) && decide (s.limitOf c ≤ a ∧ a + size ≤ 3145728) &&
        !(m.shadow.any fun t => t.handle == handle && t.atomic)
    | .hbm ex => ex.all (m.extentOk scope) && decide ((ex.map Prod.snd).sum = 256 * ((size + 255) / 256))
    | .lender k a => !m.reclaim.contains k && s.neighbour k && decide (a + size ≤ dpaSize ∧
        m.borrowed k handle + size ≤ Config.lendQuota k s.modId.toNat)
    | .host a => s.hif.feat 3 && m.grants.any fun g => decide (g.2.1 ≤ a ∧ a + size ≤ g.2.1 + g.2.2)

/-! ### Room in a tier (R303, R370) -/

/-- Runs of HBM that tensors hold. -/
def MemState.extents (m : MemState) : List (Nat × Nat) :=
  m.placed.flatMap fun t => match t.loc with | .hbm ex => ex | _ => []

/-- A slab group can give space of a scope: it has that scope, or nothing lies in it and its scope may change (R282). -/
def MemState.groupFits (m : MemState) (scope j : Nat) : Bool :=
  m.scope j == scope || !(m.extents.any fun e => overlaps e.1 e.2 (4608000000 * j) 4608000000)

/-- Free bytes of HBM for a scope; `unit` restricts them to one die or stack. -/
def MemState.freeHbm (m : MemState) (scope : Nat) (unit : Option Nat) : Nat :=
  let ex := m.extents
  let inside (lo n : Nat) : Nat := (ex.map fun e => min (e.1 + e.2) (lo + n) - max e.1 lo).sum
  (((List.range 250).filter (m.groupFits scope)).map fun j =>
    let (lo, n) := match unit with
      | some u => (4608000000 * j + u * partSize scope, partSize scope)
      | none => (4608000000 * j, 4608000000)
    n - inside lo n).sum

/-- Whether a contiguous run fits at one of some addresses without meeting others. -/
def fitsAt (size limit : Nat) (used : List (Nat × Nat)) (starts : List Nat) : Bool :=
  starts.any fun a => decide (a + size ≤ limit) && !(used.any fun u => overlaps a size u.1 u.2)

/-- Whether a tier has room for a tensor (R303, R370). -/
def State.room (s : State) (tier size scope : Nat) (unit : Option Nat) : Bool :=
  let m := s.mem
  match tier with
  | 0 => allCells.any fun id =>
      let used := m.placed.filterMap fun t => match t.loc with
        | .store c a => if c = id.toNat then some (a, t.size) else none
        | _ => none
      s.activeCell id && fitsAt size 3145728 ((0, s.limitOf id.toNat) :: used)
        (s.limitOf id.toNat :: used.map fun u => u.1 + u.2)
  | 1 => decide (256 * ((size + 255) / 256) ≤ m.freeHbm scope unit)
  | 2 => s.lnk.ports.toList.any fun p =>
      let k := p.peer.toNat % 2 ^ 15
      s.neighbour k && !m.reclaim.contains k && decide (m.borrowed k 0 + size ≤ Config.lendQuota k s.modId.toNat)
  | _ => s.hif.feat 3 && m.grants.any fun g =>
      let used := m.placed.filterMap fun t => match t.loc with | .host a => some (a, t.size) | _ => none
      fitsAt size (g.2.1 + g.2.2) used (g.2.1 :: (used.map fun u => u.1 + u.2).filter fun a => g.2.1 ≤ a)

/-- Whether HBM has one contiguous range for a pinned tensor of a scope (R283). -/
def MemState.contiguous (m : MemState) (size scope : Nat) : Bool :=
  let n := 256 * ((size + 255) / 256)
  let part := partSize scope
  ((List.range (dpaSize / part)).map (part * ·) ++ m.extents.map fun e => e.1 + e.2).any fun a =>
    decide (a + n ≤ dpaSize ∧ a / part = (a + n - 1) / part) && m.groupFits scope (a / 4608000000) &&
      !(m.extents.any fun e => overlaps a n e.1 e.2)

/-! ### Moves between tiers (R300, R301, R303) -/

/-- Handles that a started task names (R303): its entry's, its descriptor list's, and those its cells hold. -/
def State.namedBy (s : State) (t : Task) : List Nat :=
  t.entry.handles ++ t.named ++ t.cells.flatMap fun id =>
    let c := s.cell id
    c.core.t.toList.map (fun d => (dHandle d).toNat) ++
      ((c.qms.q ++ c.qlk.q ++ (c.qms.run ++ c.qlk.run).map RunCmd.cmd).flatMap fun q =>
        [q.d0, q.e0, q.d1, q.e1, q.d2, q.e2].map fun d => (dHandle d).toNat)

/-- A started task names a tensor (R303). -/
def State.inUse (s : State) (h : Nat) : Bool := s.dsp.tasks.any fun k => k.started && (s.namedBy k).contains h

/-- The place of a tensor in the order of eviction (R303): first those no fetched task names, and of these the least
recently used. -/
def State.evictRank (s : State) (t : Tensor) : Nat × Nat :=
  (if s.dsp.tasks.any fun k => k.isReady && (s.entryNames k.entry).contains t.handle then 1 else 0, t.used)

/-- A tensor is the next of its tier to be evicted (R303). -/
def State.evictOk (s : State) (t : Tensor) : Bool :=
  let r := s.evictRank t
  s.mem.tensors.all fun u => u.handle == t.handle || u.loc.tier != t.loc.tier || u.pinned || u.lost || s.inUse u.handle ||
    decide (r.1 < (s.evictRank u).1 ∨ (r.1 = (s.evictRank u).1 ∧ r.2 ≤ (s.evictRank u).2))

/-- A tensor must leave its place (R300, R301): a task that may start needs its part of a store, or its lender reclaims
the space. -/
def State.mustLeave (s : State) (t : Tensor) : Bool :=
  match t.loc with
  | .store _ _ => s.dsp.tasks.any fun k => k.isReady && t.inWay k.entry allCells
  | .lender k _ => s.mem.reclaim.contains k
  | _ => false

/-- The places a copy of a tensor reads and writes. -/
def Tensor.allRuns (t : Tensor) : List (Place × Nat) := (t.runs 0 t.size).getD []

/-- Copy a tensor's bytes to a new place. -/
def State.copyTensor (s : State) (t : Tensor) (loc : TLoc) : State :=
  let src := t.allRuns
  let s1 := src.foldl (fun s r => s.touchPlace r.1 r.2) s
  (cutRuns ({ t with loc := loc } : Tensor).allRuns (src.flatMap fun r => s1.readPlace r.1 r.2)).foldl
    (fun s r => s.writePlace r.1 r.2) s1

/-- What a copy of a tensor must wait for (R289, R305); none when it may proceed. -/
def State.copyWaits (s : State) (t : Tensor) (loc : TLoc) : Option State :=
  match s.needSnoops false (devLines t.allRuns) with
  | some s' => some s'
  | none => s.needSnoops true (devLines ({ t with loc := loc } : Tensor).allRuns)

/-- No started task uses an older map (R349). -/
def State.oldMap (s : State) : Bool := s.dsp.tasks.any fun k => k.started && k.version != s.dsp.pmapVer.toNat

/-- TIER_MOVE (R303): between tasks, the copy engine moves a tensor one tier down, in the order of eviction, or up towards
its preferred tier. It is not pinned, no started task names it, and the map is committed with the move (R349). -/
def State.moveTensor (s : State) (handle : Nat) (loc : TLoc) : State :=
  match tensorIn s.mem.tensors handle with
  | none => s
  | some t =>
    let down := loc.tier = t.loc.tier + 1 ∧ (s.mustLeave t ∨ s.evictOk t)
    let aside := loc.tier = t.loc.tier ∧ loc ≠ t.loc
    let up := t.prefer ≤ loc.tier ∧ loc.tier < t.loc.tier
    if t.pinned ∨ s.inUse handle ∨ s.oldMap ∨ ¬ s.memRuns ∨ ¬ s.hif.fwUp ∨ ¬ (down ∨ aside ∨ up) ∨
        ¬ s.placeOk handle t.size t.scope loc then s
    else
      match s.copyWaits t loc with
      | some s' => s'
      | none =>
        let s1 := s.copyTensor t loc
        let s2 : State := { s1 with mem := { s1.mem with
          shadow := s1.mem.shadow.map fun k => if k.handle = handle then { k with loc := loc } else k } }
        s2.commitPmap

/-- Whether a place lies in a tensor. -/
def Tensor.holds (t : Tensor) (p : Place) : Bool :=
  match t.loc, p with
  | .lender k a, .lender x => decide (k * 2 ^ 41 + a ≤ x ∧ x < k * 2 ^ 41 + a + t.size)
  | .host a, .host x => decide (a ≤ x ∧ x < a + t.size)
  | _, _ => false

/-- Tensors are lost (R301, R302): they are marked in every copy of the map, each raises MEM_TIER_LOST, and the accesses
of engines in flight to them end with PATH; segments of waybills are lost (R272). -/
def State.loseTensors (s : State) (p : Tensor → Bool) : State :=
  let gone := s.mem.tensors.filter fun t => p t && !t.lost
  let mark (l : List Tensor) : List Tensor := l.map fun t => if p t then { t with lost := true } else t
  let m := s.mem
  let s1 : State := { s with mem := { m with tensors := mark m.tensors, shadow := mark m.shadow
                                             previous := mark m.previous } }
  let s2 := gone.foldl (fun s t =>
    let who := match t.loc with | .lender k _ => k | _ => 0x7FFF
    s.raise 0x0408 .error [(4, t.handle), (1, t.loc.tier), (2, who)]) s1
  let touches (q : Piece) : Bool := gone.any fun t => t.holds q.src || t.holds q.dst
  let hits := s.cells.filterMap fun e =>
    (e.2.qlk.run.find? fun r => r.pieces.any touches || r.atoms.any fun a => gone.any fun t => t.holds a.dst).map
      fun r => (BitVec.ofNat 11 e.1, r)
  let s3 := hits.foldl (fun s h => s.cmdFault h.1 3 (cOpc h.2.cmd.word).toNat h.2.cmd.seq stPath 0) s2
  (s.segments touches).foldl (fun s x => wbLose x.1 x.2.1 x.2.2 false touches s) s3

/-- TIER_LOST (R301, R302): the failure of a lender or its port loses what it lent; 0x7FFF names host memory that the host
refused, which loses one tensor. -/
def State.tierLost (s : State) (module : BitVec 15) (handle : BitVec 32) : State :=
  s.loseTensors fun t =>
    match t.loc with
    | .lender k _ => module != 0x7FFF && k == module.toNat
    | .host _ => module == 0x7FFF && t.handle == handle.toNat
    | _ => false

/-- An access of the host to HBM where a tensor that is not pinned lies: its results for that tensor are undefined
(R307). -/
def State.hostUndef (s : State) (offset : Nat) : Bool :=
  s.hostUp && s.mem.tensors.any fun t => !t.pinned && !t.lost &&
    match t.loc with
    | .hbm ex => ex.any fun e => overlaps (64 * (offset / 64)) 64 e.1 e.2
    | _ => false

/-! ### Commands -/

/-- HBM_ACCESS (R297): `errs` are the lanes whose symbol is in error. -/
def execHbmAccess (sector : Nat) (op : HbmOp) (errs : List Nat) (s : State) : Out :=
  if sectorCount ≤ sector then .fault (.noSuchPart 280)
  else
    match op with
    | .read => .next (s.accessSector (.read sector errs))
    | .write off bytes poison => .next (s.accessSector (.write sector off.toNat bytes poison errs))

/-- ATOMIC_UPDATE (R295). -/
def execAtomicUpdate (dpa : Nat) (fmt : BitVec 4) (op : BitVec 3) (value : Nat) (poison : Bool) (errs : List Nat)
    (s : State) : Out :=
  if dpaSize ≤ dpa then .fault (.noSuchPart 280) else .next (s.atomicUpdate dpa fmt op value poison errs)

/-- HOST_MEM_READ (R306): offsets beyond the decoder are no address of the device (R304). -/
def execHostMemRead (offset : Nat) (cache own : Bool) (errs0 errs1 : List Nat) (s : State) : Out :=
  if decoderSize ≤ offset then .fault (.noSuchPart 304)
  else .next ((s.undefinedIf (s.hostUndef offset)).hostRead offset cache own errs0 errs1)

/-- HOST_MEM_WRITE (R304). -/
def execHostMemWrite (offset : Nat) (data : List Byte) (poison keep : Bool) (errs : List Nat) (s : State) : Out :=
  if decoderSize ≤ offset then .fault (.noSuchPart 304)
  else .next ((s.undefinedIf (s.hostUndef offset)).hostWrite offset data poison keep errs)

/-- BISNP_RESPONSE (R305). -/
def execBisnpResponse (line : Nat) (data : Option (List Byte)) (poison : Bool) (s : State) : Out :=
  .next (s.snoopAnswer line data poison)

/-- SCRUB_READ (R293). -/
def execScrubRead (stack : BitVec 4) (sector : Nat) (reserved : Bool) (errs : List Nat) (s : State) : Out :=
  if (if reserved then reservedSectors else sectorCount) ≤ sector then .fault (.noSuchPart 280)
  else .next (s.scrub stack sector reserved errs)

/-- LANE_REPAIR_START (R289). -/
def execLaneRepairStart (pch : BitVec 10) (lane : Nat) (s : State) : Out :=
  if 36 ≤ lane then .fault (.noSuchPart 277) else .next (s.laneRepairStart pch lane)

/-- LANE_REPAIR_END (R289). -/
def execLaneRepairEnd (pch : BitVec 10) (s : State) : Out := .next (s.laneRepairEnd pch)

/-- MEM_SCOPE_COMMIT (R282, R308): bit 0 of the value commits. -/
def execMemScopeCommit (value : BitVec 32) (s : State) : Out := .next (if value.getLsbD 0 then s.scopeCommit else s)

/-- The place an operand names (R299). -/
def TLoc.ofSpot : Spot → TLoc
  | .store c a => .store c.toNat a
  | .hbm l => .hbm l
  | .lender k a => .lender k.toNat a
  | .host a => .host a

/-- TIER_MOVE (R303): where the tensor goes is the copy engine's choice, given as the operand. -/
def execTierMove (handle : BitVec 32) (dest : Spot) (s : State) : Out := .next (s.moveTensor handle.toNat (TLoc.ofSpot dest))

/-- TIER_RECLAIM (R301): nothing more is lent by the module; the borrower's moves follow as TIER_MOVE. -/
def execTierReclaim (module : BitVec 15) (s : State) : Out :=
  .next { s with mem := { s.mem with reclaim := setIns s.mem.reclaim module.toNat } }

/-- TIER_LOST (R301, R302). -/
def execTierLost (module : BitVec 15) (handle : BitVec 32) (s : State) : Out := .next (s.tierLost module handle)

end Sys2Proof.Machine
end

