-- ==== Sys2Proof/Machine/Arbiters.lean ====
section
/-!
DEFINITION. Timetable arbiters (R310 to R324): decisions, tokens, the background ranking, withdrawn grants and the
interlocking commit.
-/

namespace Sys2Proof.Machine

/-- An arbiter block by number: 0 HBM, 1 to 6 the egress of ports 0 to 5, 7 the reduction-engine input (R310). -/
def State.arbBlock (s : State) (b : BitVec 3) : ArbBlock :=
  if b = 0 then s.arbHbm else if b = 7 then s.arbCol else rget s.arbLnk (b - 1)

/-- Change an arbiter block. -/
def State.setArbBlock (s : State) (b : BitVec 3) (k : ArbBlock) : State :=
  if b = 0 then { s with arbHbm := k }
  else if b = 7 then { s with arbCol := k }
  else { s with arbLnk := rset s.arbLnk (b - 1) k }

/-- Requesters of a block that exist (R311). -/
def requesters (b : BitVec 3) : BitVec 16 := if b = 0 then 0x3FFF else if b = 7 then 0x00FF else 0x001F

/-- The quota of a requester; 64 to 127 act as 64 (R322). -/
def Timetable.quota (t : Timetable) (r : BitVec 4) : Nat :=
  min 64 (bitsOf (rget t.tok (r.extractLsb' 2 2)).toNat (8 * (r.toNat % 4) + 6) (8 * (r.toNat % 4)))

/-- The owner of a slot, if any (R322). -/
def Timetable.owner (t : Timetable) (n : BitVec 6) : Option (BitVec 4) :=
  let e := bitsOf (rget t.slots (n.extractLsb' 2 4)).toNat (8 * (n.toNat % 4) + 7) (8 * (n.toNat % 4))
  if e / 16 % 2 = 1 then some (BitVec.ofNat 4 e) else none

/-- A requester of an arbiter has a token left in the window (R315); a quota of 64 never masks. -/
def Timetable.token (t : Timetable) (a : Arb) (r : BitVec 4) : Bool :=
  decide (t.quota r = 64 ∨ a.used.at 0 r.toNat < t.quota r)

/-- The first requester of a pool after lastbg (R314). -/
def rankFirst (last : BitVec 4) (pool : BitVec 16) : Option (BitVec 4) :=
  ((List.range 16).map fun i => last + 1 + BitVec.ofNat 4 i).find? fun r => pool.getLsbD r.toNat

/-- Requesters that are eligible: they present a request the slot can carry, exist, and have a token (R313). -/
def eligible (b : BitVec 3) (t : Timetable) (a : Arb) (reqs : BitVec 16) : BitVec 16 :=
  ((List.range 16).filter fun r =>
      (reqs &&& requesters b).getLsbD r && t.token a (BitVec.ofNat 4 r)).foldl (fun m r => m ||| (1 <<< r)) 0

/-- One decision (R314) over the requesters that present a request the slot can carry: the winner, and the arbiter after
it. -/
def Arb.decide (a : Arb) (b : BitVec 3) (t : Timetable) (n : BitVec 6) (reqs : BitVec 16) : Arb :=
  let e := eligible b t a reqs
  let grant (a : Arb) (r : BitVec 4) : Arb := { a with grant := some r, used := a.used.put r.toNat (a.used.at 0 r.toNat + 1) }
  let background : Arb :=
    let f := e &&& ~~~t.bg
    match rankFirst a.lastbg (if f = 0 then e else f) with
    | some r => grant { a with lastbg := r } r
    | none => { a with grant := none }
  match t.owner n with
  | some o => if e.getLsbD o.toNat then grant a o else background
  | none => background

/-! ### What the resource can carry (R284, R313, R316, R319) -/

/-- The resource of an arbiter carries nothing (R319): a live lane repair, a port that carries no flits (R399), or one
whose lanes are being switched (R392). -/
def State.arbStalled (s : State) (b : BitVec 3) (arb : Nat) : Bool :=
  if b = 0 then (Sparse.find s.mem.paused arb).isSome
  else if b = 7 then false
  else let k := rget s.lnk.ports (b - 1); decide (k.state.toNat < 4) || !k.movesTx.isEmpty

/-- Slots of 1 ns in a row cycle of a bank (R316), and the window in which a pseudo-channel opens at most 4 rows (R284). -/
def rowCycle : Nat := 45
def actWindow : Nat := 12

/-- A bank can take a request in a slot (R284, R313): its row is open, or it may be opened (DEDUCED 129). -/
def Arb.bankTakes (a : Arb) (slot : Nat) (q : ArbReq) : Bool :=
  let room := (a.acts.filter fun t => slot < t + actWindow).length < 4
  match Sparse.find a.rows q.bank.toNat with
  | some (row, t) => row = q.row ∨ (room ∧ t + rowCycle ≤ slot)
  | none => room

/-- The head of a requester's queue (R311). -/
def Arb.head (a : Arb) (r : BitVec 4) : Option ArbReq := a.queue.find? fun q => q.who = r

/-- Requesters whose queue head the resource can carry in a slot (R311, R313). -/
def Arb.presents (a : Arb) (hbm ready : Bool) (slot : Nat) : BitVec 16 :=
  ((List.range 16).filter fun r => ready && match a.head (BitVec.ofNat 4 r) with
    | some q => !hbm || a.bankTakes slot q
    | none => false).foldl (fun m r => m ||| (1 <<< r)) 0

/-- A request leaves its queue in the slot that carries it; at HBM it opens its row where another one is open. -/
def Arb.carry (a : Arb) (hbm : Bool) (slot : Nat) (r : BitVec 4) : Arb :=
  let a1 : Arb := { a with grant := none, queue := a.queue.eraseP fun q => q.who = r }
  match a.head r with
  | none => a1
  | some q =>
    if ¬ hbm ∨ (Sparse.find a.rows q.bank.toNat).any (fun x => x.1 == q.row) then a1
    else { a1 with rows := a1.rows.put q.bank.toNat (q.row, slot)
                   acts := slot :: a1.acts.filter fun t => slot < t + actWindow }

/-- The slot that begins carries out the grant made for it, or withdraws it and returns its token: the request then stays
at the head of its queue (R319). -/
def State.carryOut (s : State) (b : BitVec 3) (slot : Nat) (e : Nat × Arb) : Arb × Option Reply :=
  match e.2.grant with
  | none => (e.2, none)
  | some r =>
    if s.arbStalled b e.1 then
      ({ e.2 with grant := none, used := e.2.used.put r.toNat (e.2.used.at 0 r.toNat - 1) }, none)
    else (e.2.carry (b == 0) slot r, some ⟨12, b.toNat, [e.1, r.toNat], []⟩)

/-- Register requests in the queues of their requesters (R311, R317); an unused requester presents none. -/
def registerAll (b : BitVec 3) (arbs : Sparse Arb) (l : List (Nat × ArbReq)) : Sparse Arb :=
  l.foldl (fun m q =>
    if (requesters b).getLsbD q.2.who.toNat then
      let a := Sparse.at Arb.init m q.1
      Sparse.put m q.1 { a with queue := a.queue ++ [q.2] }
    else m) arbs

/-- A slot edge of a block (R314, R319, R321): the grants for the slot that begins are carried out, and the next slot is
decided; at the decision for slot 0 a pending commit is applied and the tokens are refilled. -/
def State.slotEdge (s : State) (b : BitVec 3) (reqs : List (Nat × ArbReq)) : State :=
  let k := s.arbBlock b
  let now := k.count + 1
  let moved := k.arbs.map fun e => (e.1, s.carryOut b now e)
  let sent := moved.filterMap fun e => e.2.2
  let arbs : Sparse Arb := moved.map fun e => (e.1, e.2.1)
  let slot := k.slot + 1
  let n := slot + 1
  let k1 : ArbBlock := { k with slot := slot, count := now, arbs := registerAll b arbs reqs }
  let k2 : ArbBlock := if n ≠ 0 then k1
    else
      let k0 : ArbBlock := { k1 with arbs := k1.arbs.map fun e => (e.1, { e.2 with used := [] }) }
      if k0.pending then { k0 with act := k0.shd, ver := k0.ver + 1, pending := false } else k0
  let arbs2 : Sparse Arb := k2.arbs.map fun e =>
    (e.1, e.2.decide b k2.act n (e.2.presents (b == 0) (!s.arbStalled b e.1) (now + 1)))
  let s1 := s.setArbBlock b { k2 with arbs := arbs2 }
  { s1 with replies := sent.reverse ++ s1.replies }

/-- The slot edge of a kind of arbiter (R310): the six Morgo egress arbiters run from one clock, and the number of the
arbiter a request names is then its port. -/
def State.kindEdge (s : State) (b : BitVec 3) (reqs : List (Nat × ArbReq)) : State :=
  if b = 0 ∨ b = 7 then s.slotEdge b reqs
  else (List.range 6).foldl (fun s p =>
    s.slotEdge (BitVec.ofNat 3 (p + 1)) ((reqs.filter fun q => q.1 == p).map fun q => (0, q.2))) s

/-- The brake and a reset discard the grants not yet carried out (R319, R529). -/
def ArbBlock.discard (k : ArbBlock) : ArbBlock :=
  { k with arbs := k.arbs.map fun e => (e.1, { e.2 with grant := none }) }

/-- Discard the grants of every block. -/
def State.discardGrants (s : State) : State :=
  { s with arbHbm := s.arbHbm.discard, arbCol := s.arbCol.discard, arbLnk := s.arbLnk.map ArbBlock.discard }

/-- Arbiters of the kind a block is of (R310). -/
def arbCount (b : BitVec 3) : Nat := if b = 0 then 1024 else if b = 7 then 1 else 6

/-- ARBITER_DECIDE (R314): a slot edge of the arbiters of a block's kind; the operands are the requests registered since
the last edge, each with its arbiter, requester, bank and row (R311, R317). -/
def execArbiterDecide (block : BitVec 3) (requests : List (BitVec 10 × BitVec 4 × BitVec 5 × BitVec 16)) (s : State) : Out :=
  if requests.any fun q => decide (arbCount block ≤ q.1.toNat) then .fault (.noSuchPart 310)
  else .next (if s.memRuns then s.kindEdge block (requests.map fun q => (q.1.toNat, ⟨q.2.1, q.2.2.1, q.2.2.2⟩)) else s)

/-- TT_COMMIT (R321): GO asks for the switch at the next slot 0. -/
def execTtCommit (block : BitVec 3) (value : BitVec 32) (s : State) : Out :=
  if value.getLsbD 0 ∧ s.pwr.main then .next (s.setArbBlock block { s.arbBlock block with pending := true }) else .next s

end Sys2Proof.Machine
end

