-- ==== Sys2Proof/Machine/Cells.lean ====
section
/-!
DEFINITION. Instruction banks and cell states (R68 to R79): loads, the start of a cell, the end of its part of a task,
fault handling, retirement and the admission of spares, with the capability table's counts (R39, R40, R48 to R50).
-/

namespace Sys2Proof.Machine

/-! ### Signal boxes (R496, R498, R529) -/

/-- The firmware of a cell's signal box runs: powered, not halted, and not stopped by the brake. -/
def State.boxRuns (s : State) (box : Nat) : Bool :=
  s.portsOn && !s.dbg.braked && !s.fw.haltBox.contains (9 * (box / 16) + box % 16) &&
    !(s.fw.act.any fun a => a.inHand.isSome && a.doneTo == 2)

/-! ### Bank loads (R68, R69) -/

/-- The next task on a cell (R339): a task the ready list has come to, whose PLIST has chosen its consist and that waits
only for cells that still run. -/
def State.nextOn (s : State) (id : CellId) : Option Task :=
  match ((s.dsp.tasks.filter Task.isReady).foldr insRank []).find? fun t => s.mayStart t with
  | none => none
  | some t =>
    let here : Bool := t.entry.pin == 2 && !t.entry.marker && match s.plist t.entry with
      | some l => l.contains id && l.all s.activeCell
      | none => false
    if here then some t else none

/-- A load may go to a cell (R71, R339): a cell that runs takes a further image of its own task, or, where its task is
SINGLE and DSP_CFG.PRELOAD is 1, the image of the next task on it. -/
def State.mayLoad (s : State) (id : CellId) (task : BitVec 32) : Bool :=
  let c := s.cell id
  let mine : Bool := match s.task c.task.id.toNat with
    | some t => t.entry.single && s.dsp.cfg.getLsbD 0
    | none => false
  !c.works || task == c.task.id || (mine && match s.nextOn id with | some t => t.id == task.toNat | none => false)

/-- IBANK_LOAD_ISSUE: the signal box issues a load to the bank that is inactive now. -/
def State.issueLoad (s : State) (id : CellId) (task : BitVec 32) (image : List Byte) : State :=
  let c := s.cell id
  if s.mayLoad id task ∧ s.boxRuns (boxOf id) ∧ s.activeCell id ∧ c.st ≠ .stopped ∧ c.banks.load = none ∧ image.length ≤ 65536 then
    s.setCell id { c with banks := { c.banks with load := some ⟨!c.banks.active, image, .issued, 0, task⟩ } }
  else s

/-- IBANK_FIRST_WRITE: the first write reaches its bank: it is held while a running cell fetches from the bank, otherwise
the load begins and the bank's VALID clears. -/
def State.firstWrite (s : State) (id : CellId) : State :=
  let c := s.cell id
  match c.banks.load with
  | none => s
  | some l =>
    if l.phase ≠ .issued ∨ c.st = .stopped then s
    else if l.bank = c.banks.active ∧ c.st = .running then
      s.setCell id { c with banks := { c.banks with load := some { l with phase := .held, t0 := s.ns } } }
    else s.setCell id { c with banks := c.banks.beginLoad }

/-- IBANK_LOAD_END: the last write completes, and the bank becomes valid (R68). -/
def State.endLoad (s : State) (id : CellId) : State :=
  let c := s.cell id
  match c.banks.load with
  | none => s
  | some l =>
    if l.phase ≠ .writing ∨ c.st = .stopped then s
    else
      let words := (l.image.length + 3) / 4
      let keep (ue : List Nat) : List Nat := ue.filter fun w => words ≤ w
      let b := c.banks
      let b1 : BankState :=
        if l.bank then { b with ib1 := b.ib1.write 0xFF 0 l.image, ue1 := keep b.ue1, valid1 := true }
        else { b with ib0 := b.ib0.write 0xFF 0 l.image, ue0 := keep b.ue0, valid0 := true }
      s.setCell id { c with banks := { b1 with load := none, pre := some l.task } }

/-- IBANK_HOLD_TIMEOUT: a hold that has lasted 100,000 ns is aborted; nothing is written, CELL_IBANK_BUSY is raised, and
the dispatcher ends the task whose image it was (R69, R339, R342). -/
def State.abortLoad (s : State) (id : CellId) : State :=
  let c := s.cell id
  match c.banks.load with
  | none => s
  | some l =>
    if l.phase ≠ .held ∨ s.ns < l.t0 + 100000 ∨ c.st = .stopped then s
    else
      let s1 := s.setCell id { c with banks := { c.banks with load := none } }
      (s1.raise 0x0101 .error [(2, id.toNat), (1, if l.bank then 1 else 0), (4, l.task.toNat), (8, l.t0)]).endCause
        l.task.toNat tsBank

/-! ### The pool (R39, R40, R48 to R50) -/

/-- Cells in a state. -/
def State.countIn (s : State) (st : CState) : Nat := (allCells.filter fun c => cellOk c && (s.cell c).st == st).length

/-- Spares of a die, lowest-numbered first. -/
def State.sparesOf (s : State) (die : Nat) : List CellId :=
  (allCells.filter fun c => cellOk c && dieOf c == die && (s.cell c).st == .spare &&
    !(s.pool.joining.any fun p => p.2 == c))

/-- The spare that replaces a cell of a die (R40): of the same die, else of the die with the most spares. -/
def State.chooseSpare (s : State) (die : Nat) : Option CellId :=
  match s.sparesOf die with
  | c :: _ => some c
  | [] =>
    let dies := mostFirst ((List.range 8).map fun d => (d, (s.sparesOf d).length))
    match dies with
    | (d, _) :: _ => (s.sparesOf d).head?
    | [] => none

/-- Tasks of the ready list whose consist can no longer be formed end with NO_CELLS (R335). -/
def State.checkNever (s : State) : State :=
  let bad := s.dsp.tasks.filter fun t => t.isReady && !t.entry.marker && s.findConsist t == .never
  bad.foldl (fun s t => ((s.raise 0x0503 .error [(4, t.id), (2, t.entry.size.toNat), (2, s.activeCount)]).endCause t.id
    tsNoCells).endTask t.id) s

/-! ### The capability table (R48, R49) -/

/-- 32 bits of a map of R49, from a property of cell index n. -/
def mapWord (f : Nat → Bool) (w : Nat) : Word :=
  BitVec.ofNat 32 ((List.range 32).foldl (fun acc i => if f (32 * w + i) then acc + 2 ^ i else acc) 0)

/-- The cell with index n (R49). -/
def cellOfIndex (n : Nat) : CellId := BitVec.ofNat 11 (256 * (n / 144) + n % 144)

/-- What the table shows a cell as: `.idle` for the active set, `.spare`, `.retired` or `.disabled`. A cell the brake has
stopped shows as what it was, and a retired one whose spare is not admitted yet as active: a change shows whole, when GEN
steps (R50, R79). -/
def State.shownAs (s : State) (id : CellId) : CState :=
  let c := s.cell id
  if c.inSet ∨ s.pool.joining.any (fun p => p.1 == id) then .idle else if c.st = .stopped then .spare else c.st

/-- Cells the table shows as in a state. -/
def State.shownIn (s : State) (st : CState) : Nat := (allCells.filter fun c => cellOk c && s.shownAs c == st).length

/-- A word of the capability table, by its number from 0x0000_0800 (R48). -/
def State.capWord (s : State) (w : Nat) : Word :=
  match w with
  | 0 => 1
  | 1 => s.pool.gen
  | 2 => s.pool.part
  | 3 => BitVec.ofNat 32 (0x480 * 2 ^ 16 + s.pool.grade)
  | 4 => BitVec.ofNat 32 (s.shownIn .idle * 2 ^ 16 + s.shownIn .spare)
  | 5 => BitVec.ofNat 32 (s.shownIn .retired)
  | 6 => 0x08091048
  | 7 => 0x10004840
  | 8 => 0x06100202
  | 9 => s.pool.levels
  | 10 => 0x0C001810
  | _ =>
    if 16 ≤ w ∧ w < 52 then
      mapWord (fun n => let c := s.shownAs (cellOfIndex n); c != .disabled && c != .retired) (w - 16)
    else if 64 ≤ w ∧ w < 100 then mapWord (fun n => s.shownAs (cellOfIndex n) == .idle) (w - 64)
    else 0

/-- The side-band's copy of the table is refreshed (R52). -/
def State.copyCaps (s : State) : State :=
  { s with pool := { s.pool with copy := (List.range 128).map s.capWord } }

/-- A word of the side-band's copy (R52): before a start has completed, only the version, the part and the cells. -/
def State.copyWord (s : State) (w : Nat) : Word :=
  if s.pool.copy.isEmpty then (if w = 0 ∨ w = 2 ∨ w = 3 then s.capWord w else 0) else (s.pool.copy[w]?).getD 0

/-- The capability table has changed (R50, R52). -/
def State.bumpGen (s : State) : State :=
  let s1 : State := { s with pool := { s.pool with gen := s.pool.gen + 1, levels := s.fw.active.levels } }
  s1.copyCaps.checkNever

/-- A cell newly admitted to the active set (R59, R76, R79, R84, R523). -/
def CellState.admitted (c : CellState) : CellState :=
  { CellState.fresh .idle with ctr := { CellCtr.zero with suspTotal := c.ctr.suspTotal, suspects := c.ctr.suspects } }

/-! ### Cell states (R73 to R79) -/

/-- Every queue is empty and every engine has completed its last command (R74). -/
def CellState.drained (c : CellState) : Bool :=
  c.qmx == EngQueue.empty && c.qvx == EngQueue.empty && c.qms == EngQueue.empty && c.qlk == EngQueue.empty &&
    c.handed.isEmpty && c.parts.isEmpty

/-- CELL_HALT_DRAINED (R74): the cell enters IDLE, and its part of the task is reported finished. -/
def State.haltDrained (s : State) (id : CellId) : State :=
  let c := s.cell id
  if c.st = .halted ∧ c.drained then (s.setCell id { c with st := .idle }).memberDone id else s

/-- CELL_FAULT_HANDLED (R75 step 4): once the dispatcher has taken the fault, the cell is cleared and enters IDLE; a cell
whose third suspect event came with the fault leaves FAULTED by its retirement (R79). -/
def State.faultHandled (s : State) (id : CellId) : State :=
  let c := s.cell id
  if c.st = .faulted ∧ ¬ c.report ∧ ¬ c.retireFault ∧ s.boxRuns (boxOf id) then s.setCell id (c.clear .idle) else s

/-- CELL_RETIRE (R79): from IDLE, or from FAULTED once the fault the third event came with has been taken. -/
def State.retireCell (s : State) (id : CellId) (flashOk : Bool) : State :=
  let c := s.cell id
  let ready := c.st = .idle ∨ (c.st = .faulted ∧ ¬ c.report ∧ c.retireFault)
  let claimed := s.dsp.tasks.any fun t => t.started && t.cells.contains id && c.st == .idle
  if ¬ c.retiring ∨ ¬ ready ∨ claimed then s
  else
    let s1 := s.setCell id { c.clear .retired with retiring := false }
    let s2 := s1.raise 0x0107 .warning [(2, id.toNat), (2, s1.countIn .retired)]
    let s3 : State := if flashOk then { s2 with pool := { s2.pool with flashRetired := id :: s2.pool.flashRetired } }
      else s2.raise 0x010A .error [(2, id.toNat)]
    match s3.chooseSpare (dieOf id) with
      | some sp => { s3 with pool := { s3.pool with joining := s3.pool.joining ++ [(id, sp)] } }
      | none => (s3.raise 0x0109 .warning [(2, id.toNat), (2, s3.activeCount)]).bumpGen

/-- SPARE_ADMITTED (R79): the spare chosen for a retired cell has been cleared and enters IDLE. -/
def State.admitSpare (s : State) (retired : CellId) : State :=
  match s.pool.joining.find? fun p => p.1 = retired with
  | none => s
  | some (_, id) =>
    if (s.cell id).st ≠ .spare then s
    else
      let s1 := s.modCell id CellState.admitted
      let s2 : State := { s1 with pool := { s1.pool with joining := s1.pool.joining.filter fun p => p.1 ≠ retired } }
      (s2.raise 0x0108 .info [(2, id.toNat), (2, retired.toNat), (1, dieOf id)]).bumpGen

/-- SUSPECT_WINDOW_EXPIRY (R78): suspect events older than 24 hours leave the window. -/
def State.suspectExpiry (s : State) (id : CellId) : State :=
  s.modCell id fun c => { c with ctr := { c.ctr with suspects := c.ctr.suspects.filter fun t => s.ns ≤ t + suspectWindow } }

/-! ### Commands -/

/-- IBANK_LOAD_ISSUE (R68): the signal box issues a load of a task's image. -/
def execIbankLoadIssue (cell : CellId) (task : BitVec 32) (image : List Byte) (s : State) : Out :=
  withCell cell s fun s => s.issueLoad cell task image

/-- IBANK_FIRST_WRITE (R68, R69). -/
def execIbankFirstWrite (cell : CellId) (s : State) : Out := withCell cell s fun s => s.firstWrite cell

/-- IBANK_LOAD_END (R68). -/
def execIbankLoadEnd (cell : CellId) (s : State) : Out := withCell cell s fun s => s.endLoad cell

/-- IBANK_HOLD_TIMEOUT (R69). -/
def execIbankHoldTimeout (cell : CellId) (s : State) : Out := withCell cell s fun s => s.abortLoad cell

/-- CELL_TASK_START (R72). -/
def execCellTaskStart (cell : CellId) (bank : Bool) (s : State) : Out :=
  withCell cell s fun s => if s.boxRuns (boxOf cell) then s.startCell cell bank else s

/-- CELL_HALT_DRAINED (R74). -/
def execCellHaltDrained (cell : CellId) (s : State) : Out := withCell cell s fun s => s.haltDrained cell

/-- CELL_FAULT_HANDLED (R75). -/
def execCellFaultHandled (cell : CellId) (s : State) : Out := withCell cell s fun s => s.faultHandled cell

/-- CELL_RETIRE (R79): whether the write to module flash succeeded is the command's operand. -/
def execCellRetire (cell : CellId) (flashOk : Bool) (s : State) : Out :=
  withCell cell s fun s => s.retireCell cell flashOk

/-- SPARE_ADMITTED (R79): the operand is the retired cell. -/
def execSpareAdmitted (cell : CellId) (s : State) : Out := withCell cell s fun s => s.admitSpare cell

/-- SUSPECT_WINDOW_EXPIRY (R78). -/
def execSuspectWindowExpiry (cell : CellId) (s : State) : Out := withCell cell s fun s => s.suspectExpiry cell

end Sys2Proof.Machine
end

