-- ==== Sys2Proof/Machine/Trace.lean ====
section
/-!
DEFINITION. The cluster traces (R524 to R528, R540): entries, the staging queue, the buffer by mode, and triggers.
-/

namespace Sys2Proof.Machine

/-! ### Fields of the trace registers (R540) -/

def TraceState.mode (t : TraceState) : Nat := bitsOf t.run.toNat 31 30
/-- Entries of the post share in the SRAM; POST 0 acts as 1. -/
def TraceState.share (t : TraceState) : Nat := 2048 * max 1 (bitsOf t.run.toNat 29 26)
/-- Entries of the overflow region in use; OVF_SIZE 5 to 7 act as 4. -/
def TraceState.region (t : TraceState) : Nat :=
  if t.run.getLsbD 25 then 524288 * 2 ^ min 4 (bitsOf t.run.toNat 24 22) else 0
/-- Entries of the trace SRAM. -/
def sramSlots : Nat := 32768

/-- The bit of KINDS that enables an entry code (R524, R540); none for TRIGGER and OVERFLOW, which are always written. -/
def kindBit (code : Nat) : Option Nat :=
  if 0x100 ≤ code then some 19
  else match code with
    | 1 => some 18
    | 2 => some 17
    | 3 | 4 => some 16
    | 5 => some 15
    | 6 => some 14
    | _ => none

/-- An entry is produced (R524): its kind, its cell and an event's severity are enabled. -/
def TraceState.enabled (t : TraceState) (code : Nat) (sev : Nat) (cell : Option (BitVec 4)) : Bool :=
  (match kindBit code with
    | some b => t.run.getLsbD b
    | none => false) &&
  (match cell with
    | some c => t.cells.getLsbD c.toNat
    | none => true) &&
  (decide (code < 0x100) || decide (bitsOf t.run.toNat 21 20 ≤ sev))

/-! ### Records and drops (R524 to R526) -/

/-- An OVERFLOW record (R524). -/
def overflowEntry (count : Nat) (first last : BitVec 64) : TraceEntry where
  code := 0x00FF
  sev := 0
  seq := 0
  lt := first
  payload := pay [(4, min 0xFFFFFFFF count), (8, first.toNat), (4, min 0xFFFFFFFF (last.toNat - first.toNat))]

/-- Change a signal box's trace. -/
def State.modTrace (s : State) (k : Nat) (f : TraceState → TraceState) : State :=
  let b := s.box k
  s.setBox k { b with trace := f b.trace }

/-- The cluster number an event or a TRIGGER entry carries: 9 x die + cluster. -/
def clusterIndex (k : Nat) : Nat := 9 * (k / 16) + k % 16

/-- The line time a signal box stamps (R410, R524). -/
def State.boxLt (s : State) (k : Nat) : BitVec 64 := BitVec.ofInt 64 (((s.lt8 : Int) + (s.box k).ltDev) / 8)

/-- An entry is dropped (R525, R526): it is counted, and the first drop since ARM raises DBG_TRACE_OVERFLOW. -/
def State.countDrop (s : State) (k : Nat) (lt : BitVec 64) : State :=
  let t := (s.box k).trace
  let s1 := s.modTrace k fun t => { t with dropped := satInc t.dropped, ovfRaised := true }
  if t.ovfRaised then s1
  else s1.raise 0x0C03 .warning [(1, clusterIndex k), (4, (satInc t.dropped).toNat), (8, lt.toNat)]

/-- An entry enters the staging queue; a record of the drops before it goes ahead of it (R525). -/
def TraceState.stage (t : TraceState) (e : TraceEntry) : TraceState :=
  let ahead := if t.pendDrops = 0 then [] else [overflowEntry t.pendDrops t.pendFirst t.pendLast]
  { t with staging := t.staging ++ ahead ++ [e], pendDrops := 0 }

/-- Entries that take one of the 64 places: records and TRIGGER entries take none. -/
def TraceState.staged (t : TraceState) : Nat := (t.staging.filter fun e => e.code ≠ 0xFF ∧ e.code ≠ 0xFE).length

/-- TRACE_ENTRY (R524, R525). -/
def State.traceEntry (s : State) (k : Nat) (code : Nat) (sev : Nat) (cell : Option (BitVec 4)) (payload : List Byte) : State :=
  let t := (s.box k).trace
  if ¬ t.armed ∨ t.stopping ∨ ¬ t.enabled code sev cell ∨ ¬ s.pwr.main then s
  else
    let lt := s.boxLt k
    if t.staged < 64 then
      s.modTrace k fun t => t.stage ⟨BitVec.ofNat 16 code, BitVec.ofNat 8 sev, 0, lt, (payload ++ List.replicate 16 0).take 16⟩
    else
      (s.modTrace k fun t =>
        { t with pendDrops := t.pendDrops + 1, pendFirst := if t.pendDrops = 0 then lt else t.pendFirst, pendLast := lt }).countDrop k lt

/-! ### The buffer (R526) -/

/-- The slots at which writing ends: all of STOP mode, or the post share once the trigger's entry has been written. -/
def TraceState.limit (t : TraceState) : Option Nat :=
  if t.mode = 1 then some (sramSlots + t.region - t.used) else t.post

/-- The slot after `i` in the order a mode writes (R526): `left` slots of the post share remain, the present one included. -/
def TraceState.nextSlot (t : TraceState) (i : Nat) : Nat :=
  match t.post with
  | some left =>
    if sramSlots ≤ i then i + 1
    else if left = t.region + 1 ∧ 0 < t.region then sramSlots
    else (i + 1) % sramSlots
  | none => if t.mode = 1 then i + 1 else (i + 1) % sramSlots

/-- Write an entry into the slot in turn (R524, R526). -/
def TraceState.fill (t : TraceState) (e : TraceEntry) : TraceState :=
  let old := t.wr < sramSlots ∧ sramSlots ≤ t.used ∧ t.mode ≠ 1
  { t with slots := Sparse.put t.slots t.wr { e with seq := t.seq }, seq := t.seq + 1, wr := t.nextSlot t.wr, used := t.used + 1
           ovwr := if old then satInc t.ovwr else t.ovwr, post := t.post.map fun n => n - 1 }

/-- An entry that finds only the last slot left is dropped into the record held there (R526). -/
def State.dropHeld (s : State) (k : Nat) (lt : BitVec 64) : State :=
  let t := (s.box k).trace
  let t1 := match t.held with
    | none =>
      let e := overflowEntry 1 lt lt
      { t with slots := Sparse.put t.slots t.wr { e with seq := t.seq }, seq := t.seq + 1, held := some (t.wr, 1, lt, lt)
               stopped := true
               ovwr := if t.wr < sramSlots ∧ sramSlots ≤ t.used ∧ t.mode ≠ 1 then satInc t.ovwr else t.ovwr }
    | some (i, n, a, _) =>
      let e := overflowEntry (n + 1) a lt
      let old := Sparse.at e t.slots i
      { t with slots := Sparse.put t.slots i { e with seq := old.seq }, held := some (i, n + 1, a, lt) }
  (s.modTrace k fun _ => t1).countDrop k lt

/-- Put an entry that leaves the staging queue into the buffer (R526, R527): a TRIGGER entry opens the post share. -/
def State.bufferEntry (s : State) (k : Nat) (e : TraceEntry) : State :=
  let t := (s.box k).trace
  if e.code = 0xFE ∧ t.post = none ∧ t.mode = 3 then
    s.modTrace k fun t => { t with post := some (t.share + t.region) }.fill e
  else
    match t.limit with
    | some n => if n ≤ 1 then s.dropHeld k e.lt else s.modTrace k fun t => t.fill e
    | none => s.modTrace k fun t => t.fill e

/-- A trace that was told to stop ends once its staging queue is empty (R528, R540). -/
def TraceState.settle (t : TraceState) : TraceState :=
  if t.stopping ∧ t.staging = [] ∧ t.pendDrops = 0 then { t with armed := false, stopped := true, stopping := false } else t

/-- TRACE_WRITE (R525): the oldest staged entry is written. -/
def State.traceWrite (s : State) (k : Nat) : State :=
  let t := (s.box k).trace
  if ¬ t.armed ∨ ¬ s.pwr.main then s
  else
    match t.staging with
    | e :: rest => (((s.modTrace k fun t => { t with staging := rest }).bufferEntry k e).modTrace k TraceState.settle)
    | [] =>
      if t.stopping ∧ 0 < t.pendDrops then
        ((s.modTrace k fun t => { t with pendDrops := 0 }).bufferEntry k (overflowEntry t.pendDrops t.pendFirst t.pendLast)).modTrace k
          TraceState.settle
      else s

/-! ### Arming, stopping and triggers (R527, R540) -/

/-- TRACE_ARM (R540): the trace restarts at position 0 with zeroed counts; a braked module's traces stay frozen. -/
def State.traceArm (s : State) (k : Nat) : State :=
  if s.dbg.braked then s
  else
    s.modTrace k fun t =>
      { t with run := t.cfg, armed := decide (bitsOf t.cfg.toNat 31 30 ≠ 0), triggered := false, stopped := false
               stopping := false, ovfRaised := false, staging := [], pendDrops := 0, pendFirst := 0, pendLast := 0, wr := 0
               used := 0, post := none, held := none, seq := 0, dropped := 0, ovwr := 0 }

/-- TRACE_STOP (R540). -/
def TraceState.stop (t : TraceState) : TraceState :=
  if t.armed then { t with stopping := true }.settle else t

/-- The first trigger after ARM acts in WINDOW mode (R527): sources 0 software, 1 NaN latch, 2 cell fault, 3 event code,
4 global, 5 brake. The second result says that it acted. -/
def State.trigger (s : State) (k source cell origin : Nat) (lt : BitVec 64) : State × Bool :=
  let t := (s.box k).trace
  if t.armed ∧ ¬ t.stopping ∧ t.mode = 3 ∧ ¬ t.triggered then
    let e : TraceEntry := ⟨0x00FE, 0, 0, s.boxLt k, pay [(2, cell), (1, source), (1, origin), (8, lt.toNat)]⟩
    let s1 := s.modTrace k fun t => { (t.stage e) with triggered := true }
    (s1.raise 0x0C02 .info [(1, clusterIndex k), (1, source), (2, cell)], true)
  else (s, false)

/-- The boxes whose trace something has touched; the others are not armed. -/
def State.boxKeys (s : State) : List Nat := s.boxes.map Prod.fst

/-! ### Rows -/

/-- TRACE_ENTRY (R524). -/
def execTraceEntry (die : BitVec 3) (cluster : BitVec 4) (code : BitVec 16) (sev : BitVec 2) (cell : Option (BitVec 4))
    (payload : List Byte) (s : State) : Out :=
  if cluster.toNat < 9 then
    .next (if s.dbg.braked then s else s.traceEntry (16 * die.toNat + cluster.toNat) code.toNat sev.toNat cell payload)
  else .fault (.noSuchPart 22)

/-- TRACE_WRITE (R525). -/
def execTraceWrite (die : BitVec 3) (cluster : BitVec 4) (s : State) : Out :=
  if cluster.toNat < 9 then .next (s.traceWrite (16 * die.toNat + cluster.toNat)) else .fault (.noSuchPart 22)

/-- TRACE_ARM (R540). -/
def execTraceArm (die : BitVec 3) (cluster : BitVec 4) (s : State) : Out :=
  if cluster.toNat < 9 then .next (if s.pwr.main then s.traceArm (16 * die.toNat + cluster.toNat) else s)
  else .fault (.noSuchPart 22)

/-- TRACE_STOP (R540). -/
def execTraceStop (die : BitVec 3) (cluster : BitVec 4) (s : State) : Out :=
  if cluster.toNat < 9 then
    .next (if s.pwr.main then s.modTrace (16 * die.toNat + cluster.toNat) TraceState.stop else s)
  else .fault (.noSuchPart 22)

end Sys2Proof.Machine
end

