-- ==== Sys2Proof/Machine/Brake.lean ====
section
/-!
DEFINITION. The emergency brake (R529 to R531), emergencies (R492), the effective cap (R480), and what is left when the
main power stage is off (R476, R508).
-/

namespace Sys2Proof.Machine

/-! ### The brake (R529) -/

/-- The brake acts on a trace (R527, R528): it triggers, and the trace stops once its staging queue is written. -/
def State.brakeTrace (s : State) (k : Nat) : State :=
  let s1 := (s.trigger k 5 0x7FF (clusterIndex k) (s.boxLt k)).1
  s1.modTrace k TraceState.stop

/-- The emergency brake: sources 0 register, 1 JTAG, 2 side-band, 3 trace trigger, 4 supply reset, 5 thermal trip. It has
no effect while the main power stage is off or while a brake is in force. -/
def State.brake (s : State) (source : Nat) : State :=
  if ¬ s.pwr.main ∨ s.dbg.braked then s
  else
    let lt := if s.ltRuns then s.ns else 0
    let d : DbgState := { s.dbg with braked := true, source := BitVec.ofNat 3 source, brakeLt := BitVec.ofNat 64 lt }
    let l : LnkState := { s.lnk with qps := s.lnk.qps.map fun q => (q.1, { q.2 with failed := true }) }
    let s1 : State := { s with cells := s.cells.map (fun e => (e.1, e.2.stop)), dbg := d, lnk := l }
    let s2 := s1.boxKeys.foldl State.brakeTrace s1.discardGrants
    s2.raise 0x0C01 .error [(1, source), (8, lt)]

/-- A trigger with its consequences (R527): with BRAKE set it applies the emergency brake. -/
def State.triggerTrace (s : State) (k source cell origin : Nat) (lt : BitVec 64) : State :=
  let (s1, acted) := s.trigger k source cell origin lt
  if acted ∧ (s.box k).trace.trig.getLsbD 30 then s1.brake 3 else s1

/-! ### Emergencies (R492) -/

/-- Dies 0 to 7 and the I/O die. -/
def PwrState.nine (p : PwrState) : List DiePower := p.dies.toList.take 9

/-- EMERG (R492). -/
def PwrState.emerg (p : PwrState) : Bool :=
  p.inWarn || p.resetEmerg || p.nine.any fun d => d.railWarn || d.thermWarn

/-- Change the power state; when EMERG becomes 0, its line time is kept (R513). -/
def State.setPwr (s : State) (p : PwrState) : State :=
  { s with pwr := if s.pwr.emerg && !p.emerg then { p with calmFrom := s.ns } else p }

/-- Change one die as the power core sees it. -/
def PwrState.modDie (p : PwrState) (n : Nat) (f : DiePower → DiePower) : PwrState :=
  let i : BitVec 4 := BitVec.ofNat 4 n
  { p with dies := rset p.dies i (f (rget p.dies i)) }

/-- A die as the power core sees it. -/
def PwrState.die (p : PwrState) (n : Nat) : DiePower := rget p.dies (BitVec.ofNat 4 n)

/-- A duty limit of R475, R478 or R488 is in force on a die (R494). -/
def PwrState.limited (p : PwrState) (n : Nat) : Bool :=
  let d := p.die n
  p.inWarn || d.railWarn || d.thermWarn || d.hwLimit

/-- The duty limit in force on a die [per cent] (R475, R477, R478, R488): the lowest applies. -/
def PwrState.dutyOf (p : PwrState) (n : Nat) : Nat :=
  let d := p.die n
  let a := if p.inWarn || d.railWarn || d.thermWarn then min d.duty.toNat 25 else d.duty.toNat
  if d.hwLimit then min a 50 else a

/-! ### The cap (R480, R482) -/

/-- A cap acts within 600 W to 2,200 W (R480, R494). -/
def capWatts (w : Nat) : Nat := min 2200 (max 600 w)

/-- The effective cap and its source (R480). -/
def PwrState.eff (p : PwrState) : Nat × Nat :=
  let loc := capWatts p.capLocal.toNat
  let fb := capWatts p.fallback.toNat
  match p.grant with
  | some g =>
    if p.fallbackOn then (if fb ≤ loc then (fb, 2) else (loc, 0))
    else if g.watts.toNat ≤ loc then (g.watts.toNat, 1) else (loc, 0)
  | none => (loc, 0)

/-- PWR_CAP_EFF shows the effective cap (R482). -/
def PwrState.showCap (p : PwrState) : PwrState :=
  { p with capEff := BitVec.ofNat 12 p.eff.1, effSource := BitVec.ofNat 2 p.eff.2 }

/-- A cap that changes shows at once while power-core firmware is absent (R482, R488). -/
def PwrState.capChanged (p : PwrState) : PwrState := if p.pcUp then p else p.showCap

/-! ### What is lost with power (R476, R508) -/

/-- Ballast beats the cells of each die have counted (R160). -/
def State.dieBeats (s : State) : Sparse Nat :=
  s.cells.foldl (fun acc e => Sparse.put acc (e.1 / 256) (Sparse.at 0 acc (e.1 / 256) + e.2.ctr.ballast.toNat)) []

/-- The values the power registers take at every start (R494), while power-core firmware is not loaded yet. -/
def State.pwrStart (s : State) : PwrState :=
  let p := s.pwr
  let dies := p.dies.map fun d => { d with duty := 100, hbm := 100, throttle := false, hwLimit := false }
  let p1 : PwrState :=
    { p with ballast := 0, ballastSeen := s.dieBeats, ballastHi := 0, throttleMs := 0, throttleNs := 0, capVer := 0
             table := [], shadow := [], untrusted := false, hwLimit := false, pcUp := false, rampFor := [], dies := dies
             cleared := [], periodAt := s.ns, tableAt := s.ns }
  p1.showCap

/-- A port as a cold start leaves it: its plan entry and its lane switches come from module flash (R392, R397, R416). -/
def LnkPort.cold (k : LnkPort) : LnkPort := { LnkPort.init with planAct := k.planAct, planShd := k.planAct, laneMap := k.laneMap, laneMapTx := k.laneMapTx }

/-- The stacks after training (R277, R287, R308): each spare lane in use, of a pseudo-channel or for commands of a channel,
counts as repaired. -/
def stacksFor (used cmds : List Nat) : Vector StackState (2 ^ 4) :=
  Vector.ofFn fun (i : Fin (2 ^ 4)) =>
    let n := (used.filter fun p => p / 64 = i.val).length + (cmds.filter fun c => c / 32 = i.val).length
    { StackState.init with spares := BitVec.ofNat 8 (96 - n), repStart := BitVec.ofNat 8 n }

/-- The machine without the contents that a cold start discards (R476, R508): everything but the always-on domain, module
flash, and what lies outside the module is as after reset. -/
def State.blank (s : State) : State where
  pending := s.pending
  free := s.free
  lt8 := s.lt8
  quantum := s.quantum
  events := s.events
  replies := s.replies
  cells := s.cells.filterMap fun e => if e.2.st = .disabled then some (e.1, CellState.fresh .disabled) else none
  boxes := []
  mem := { MemState.init with spareUsed := s.mem.spareUsed, cmdUsed := s.mem.cmdUsed
                              stks := stacksFor s.mem.spareUsed s.mem.cmdUsed, host := s.mem.host
                              hostPoison := s.mem.hostPoison, lent := s.mem.lent, lentPoison := s.mem.lentPoison }
  dsp := DspState.init
  arbHbm := State.reset.arbHbm
  arbLnk := State.reset.arbLnk
  arbCol := State.reset.arbCol
  lnk := { LnkState.init with ports := s.lnk.ports.map LnkPort.cold, rtBase := s.modId, ltRoot := s.lnk.ltRoot }
  col := ColState.init
  rcv := { RecState.init with job := s.rcv.job, coord := s.rcv.coord, parCfg := s.rcv.parCfg, parLo := s.rcv.parLo
                              parHi := s.rcv.parHi, parSize := s.rcv.parSize, spares := s.rcv.spares }
  modId := s.modId
  badLinks := []
  pool := { s.pool with gen := 0, joining := [] }
  hif := { HifState.init with start := s.hif.start, linkUp := false, width := s.hif.width, rate := s.hif.rate
                              perst := s.hif.perst }
  pwr := s.pwr
  fw := { s.fw with haltPower := false, haltDisp := false, haltBox := [], powerHalts := [] }
  dbg := { DbgState.init with trst := s.dbg.trst }

/-- The main power stage goes off (steps 3 and 4 of R476): memory contents are lost and the host sees no device. -/
def State.mainOff (s : State) (off : OffCause) : State :=
  let b := s.blank
  let dies := s.pwr.dies.map fun d => { d with railWarn := false, hwLimit := false, throttle := false }
  let p : PwrState := { s.pwr with main := false, off := off, offAt := s.ns, inWarn := false, hwLimit := false, pcUp := false
                                   dies := dies }
  let act := s.fw.act.map fun a => { a with began := none, doneTo := 0, inHand := none }
  ({ b with fw := { b.fw with act := act } } : State).setPwr p

end Sys2Proof.Machine
end

