-- ==== Sys2Proof/Machine/CellPool.lean ====
section
/-!
DEFINITION. The active set a start builds (R39, R59, R73).
-/

namespace Sys2Proof.Machine

/-! ### The choice of R39 -/

/-- The physical cells of a die in ascending order (R20, R21). -/
def dieCells (die : Nat) : List CellId := (List.range 144).map fun n => BitVec.ofNat 11 (256 * die + 16 * (n / 16) + n % 16)

/-- The lowest-numbered spare of the die that holds the most spares, ties to the lowest die, and the spares left. -/
def takeDonor (sp : List (List CellId)) : Option (CellId × List (List CellId)) :=
  let most := sp.foldl (fun m l => max m l.length) 0
  match sp.zipIdx.find? fun x => x.1.length = most with
  | none => none
  | some (l, i) =>
    match l with
    | [] => none
    | c :: rest => some (c, lset sp i rest)

/-- Substitutes for `n` missing cells (R39 step 2). -/
def donors : Nat → List (List CellId) → List CellId
  | 0, _ => []
  | n + 1, sp =>
    match takeDonor sp with
    | none => []
    | some (c, sp') => c :: donors n sp'

/-- The active set (R39) from the good, non-retired cells of each die. -/
def pickActive (quota : Nat) (good : List (List CellId)) : List CellId :=
  let own := good.map fun l => l.take quota
  let missing := (own.map fun l => quota - l.length).sum
  own.flatten ++ donors missing (good.map fun l => l.drop quota)

/-! ### What a start makes of a cell -/

/-- A cell whose logic a device warm start resets (R59, R76, R84, R161, R508, R523): the stores, the banks' contents, the
counters and the suspect events stay. -/
def CellState.warm (c : CellState) (st : CState) : CellState :=
  { CellState.fresh st with
    store := c.store, dmem := c.dmem, ctr := c.ctr, retiring := c.retiring
    banks := { c.banks with valid0 := false, valid1 := false, active := false, load := none, pre := none } }

/-- A cell at a firmware reload (R16, R72, R510): its task has been stopped; the registers of R186, R202, R249 and R275
take their Reset values and IB0 is the active bank. A cell outside the active set has no valid bank (R73). -/
def CellState.reload (c : CellState) (st : CState) : CellState :=
  let off := st = .spare ∨ st = .retired
  { c.clear st with
    nan := NanRegs.zero, regs := CmdRegs.zero
    banks := { c.banks with active := false, load := none, pre := none, valid0 := c.banks.valid0 && !off
                            valid1 := c.banks.valid1 && !off } }

/-- The cell after a start, in the state R39 gives it. -/
def CellState.placed (c : CellState) (kind : StartKind) (st : CState) : CellState :=
  match st with
  | .disabled => c
  | _ =>
    match kind with
    | .cold => CellState.fresh st
    | .warm => if st = .idle ∧ ¬ c.inSet then c.admitted else c.warm st
    | .reload => if st = .idle ∧ ¬ c.inSet then c.admitted else c.reload st

/-- Step 13 of a start (R39, R508): the active set is built anew. A retired cell whose list write failed counts as good
(R79, DEDUCED 30). -/
def State.buildSet (s : State) (kind : StartKind) : State :=
  let good (d : Nat) : List CellId := (dieCells d).filter fun id => (s.cell id).st != .disabled && !s.pool.flashRetired.contains id
  let act := pickActive (s.pool.grade / 8) ((List.range 8).map good)
  let stOf (id : CellId) : CState :=
    if (s.cell id).st = .disabled then .disabled
    else if s.pool.flashRetired.contains id then .retired
    else if act.contains id then .idle else .spare
  let put (acc : Sparse CellState) (id : CellId) : Sparse CellState :=
    let st := stOf id
    if (Sparse.find s.cells id.toNat).isSome ∨ st ≠ (State.cellDefault id.toNat).st then
      Sparse.put acc id.toNat ((s.cell id).placed kind st)
    else acc
  { s with cells := ((List.range 8).flatMap dieCells).foldl put [] }

end Sys2Proof.Machine
end

