-- ==== Sys2Proof/Machine/HostIf.lean ====
section
/-!
DEFINITION. Queues, doorbells, completion records, events towards the host, the lease and the detachment (R351, R352,
R363 to R367, R371 to R376, R381 to R385, R550), with the rows of dispatch (R325 to R354).
-/

namespace Sys2Proof.Machine

/-! ### Queues -/

/-- A queue pair by number. -/
def State.queue (s : State) (q : Nat) : HostQueue := rget s.hif.queues (BitVec.ofNat 6 q)

/-- Change a queue pair. -/
def State.modQueue (s : State) (q : Nat) (f : HostQueue → HostQueue) : State :=
  let i : BitVec 6 := BitVec.ofNat 6 q
  { s with hif := { s.hif with queues := rset s.hif.queues i (f (rget s.hif.queues i)) } }

/-- Dispatcher firmware fetches tasks and writes records: it runs and the brake is not in force (R358, R529). -/
def State.dispRuns (s : State) : Bool := s.pwr.main && s.hif.fwUp && !s.dbg.braked

/-- A queue exists (R362). -/
def HostQueue.exists' (k : HostQueue) : Bool := k.state != .disabled && k.state != .deleting

/-- The completion queue has no room: a ring of D slots holds at most D - 1 entries (R363). -/
def HostQueue.cqFull (k : HostQueue) : Bool := (k.cqTail.toNat + 1) % k.cqSlots == k.cqHead.toNat

/-! ### Turns (R326, R327, R351, R367) -/

/-- A queue takes part in the turns: it is ACTIVE, has unfetched entries, and its overflow ring holds fewer than 2,048
records (R327, R367). -/
def HostQueue.fetchable (k : HostQueue) : Bool :=
  k.state == .active && k.seen != k.sqHead && decide (k.ring.length < 2048)

/-- A source has work (R327, R348): 64 is the device-made queue. -/
def State.hasWork (s : State) (src : Nat) : Bool :=
  if src = 64 then !s.hif.detached && s.dsp.tasks.any fun t => t.stage == .dmq else (s.queue src).fetchable

/-- The ready list has room for one more task (R326): it holds the fetched tasks that have not started. -/
def State.readyRoom (s : State) : Bool :=
  decide ((s.dsp.tasks.filter fun t => t.isReady || t.stage == .placed).length < 256)

/-- The source of the next turn (R327). -/
def State.nextSource (s : State) : Option Nat :=
  ((List.range 65).map fun i => (s.dsp.turn + 1 + i) % 65).find? s.hasWork

/-- One turn (R327): an entry of the device-made queue moves to the ready list, or the fetch of an entry is issued. -/
def State.turnOnce (s : State) : Option State :=
  if ¬ s.readyRoom ∨ s.hif.fetches ≠ [] then none
  else
    match s.nextSource with
    | none => none
    | some q =>
      if q = 64 then
        match s.dsp.tasks.find? fun t => t.stage == .dmq with
        | none => none
        | some t =>
          let s1 := s.modTask t.id fun t => { t with stage := .ready, rank := s.dsp.ranks }
          some { s1 with dsp := { s1.dsp with ranks := s1.dsp.ranks + 1, turn := 64 } }
      else
        let late := match (s.queue q).bellAt with | some t => s.ns - t | none => 0
        let s1 := s.modQueue q fun k => { k with bellAt := none }
        some { s1 with hif := { s1.hif with fetches := [⟨q, s.ns, true⟩] }
                       dsp := { s1.dsp with
                         turn := q, wakeMax := BitVec.ofNat 32 (max s.dsp.wakeMax.toNat (min 0xFFFFFFFF late)) } }

/-- The fetch loop (R351): turns are taken until a fetch is on its way or nothing can be fetched. -/
def State.takeTurns (s : State) : State :=
  if s.dispRuns then iterWhile State.turnOnce (s.dsp.tasks.length + 1) s else s

/-- IDLE (R351, R353): no entry is on its way, no source has work that can be fetched, no queue has unfetched entries, and
no doorbell waits. -/
def State.settleIdle (s : State) : State :=
  let waiting : Bool := (List.range 64).any fun q => (s.queue q).fetchable
  let busy := s.hif.fetches ≠ [] ∨ s.hif.fifo ≠ [] ∨ s.hif.ovf ≠ 0 ∨ (s.readyRoom ∧ s.nextSource.isSome) ∨ waiting
  { s with dsp := { s.dsp with idle := !decide busy } }

/-- A doorbell is treated by the state of its queue (R351, R367). -/
def State.ringBell (s : State) (q : Nat) (index : BitVec 16) : State :=
  let k := s.queue q
  if k.exists' then
    s.modQueue q fun k => { k with seen := k.tail
                                   bellAt := if k.state = .active ∧ k.tail ≠ k.sqHead then k.bellAt else none }
  else (s.modQueue q fun k => { k with bellAt := none }).raise 0x0606 .warning [(1, q), (2, index.toNat), (1, k.state.code)]

/-- The drain (R351, R366): the FIFO and the overflow map are read and emptied, and the tails of the queues they name are
read again. -/
def State.drainBells (s : State) : State :=
  let h := s.hif
  let s0 : State := { s with hif := { h with fifo := [], ovf := 0 } }
  let s1 := h.fifo.foldl (fun s e => s.ringBell e.1 e.2.1) s0
  ((List.range 64).filter fun q => h.ovf.getLsbD q).foldl (fun s q => s.ringBell q (s.queue q).tail) s1

/-- DISPATCHER_WAKE (R351). -/
def State.wakeDispatcher (s : State) : State :=
  if s.dispRuns then s.takeTurns.drainBells.takeTurns.settleIdle else s

/-! ### Entries (R328, R329, R350, R364, R374) -/

/-- The entry a fetch brings (R364). -/
def State.fetchedEntry (s : State) (f : Fetch) : TaskEntry :=
  let k := s.queue f.source
  TaskEntry.ofBytes (s.mem.readHost (k.sqBase + 64 * k.sqHead.toNat) 64)

/-- The turn of a source has ended: the latency of a doorbell of another queue does not count it (R352). -/
def State.turnOver (s : State) (f : Fetch) : State :=
  let shift (k : HostQueue) : HostQueue := { k with bellAt := k.bellAt.map fun t => t + (s.ns - max t f.issued) }
  { s with hif := { s.hif with queues := Vector.ofFn fun (i : Fin (2 ^ 6)) =>
      if i.val = f.source then s.hif.queues[i] else shift s.hif.queues[i] } }

/-- ENTRY_ARRIVE (R330, R367): the entry enters the ready list; it is discarded when its queue has left ACTIVE. An entry with
fields R350 calls undefined enters too, with an undefined outcome. -/
def State.entryArrive (s : State) : State :=
  match s.hif.fetches with
  | [] => s
  | f :: rest =>
    if ¬ s.hostUp ∨ ¬ s.hif.fwUp ∨ f.issued + 1000000 < s.ns then s
    else
      let s0 : State := ({ s with hif := { s.hif with fetches := rest } } : State).turnOver f
      let k := s.queue f.source
      let s1 := if k.state = .active ∧ f.live then
          let e := s.fetchedEntry f
          ((s0.undefinedIf !e.formed false (s.hif.feat 2)).modQueue f.source fun k =>
            { k with sqHead := BitVec.ofNat 16 ((k.sqHead.toNat + 1) % k.sqSlots) }).enterTask f.source e
        else s0
      s1.takeTurns.settleIdle

/-- The fetches of a queue that leaves ACTIVE are not consumed when they arrive (R367). -/
def State.voidFetches (s : State) (q : Nat) : State :=
  { s with hif := { s.hif with fetches := s.hif.fetches.map fun f => if f.source = q then { f with live := false } else f } }

/-- A queue halts (R374 steps 1 and 3): its state and reason, the event with the address of the failed access, and the
cause QHALT. -/
def State.haltQueue (s : State) (q : Nat) (st : QState) (reason : Nat) (addr : Nat) : State :=
  let s1 := (s.voidFetches q).modQueue q fun k => { k with state := st, reason := BitVec.ofNat 3 reason, fullRaised := false, replay := 0 }
  (s1.raise 0x0601 .error [(1, q), (1, st.code), (1, reason), (2, (s1.queue q).ring.length), (8, addr)]).setCause 2

/-- FETCH_FAILED (R374): the host answers GO-Err, or has not answered in 1,000,000 ns. -/
def State.fetchFailed (s : State) (noAnswer : Bool) : State :=
  match s.hif.fetches with
  | [] => s
  | f :: rest =>
    if ¬ s.hif.fwUp ∨ (noAnswer ∧ s.ns < f.issued + 1000000) ∨ (¬ noAnswer ∧ ¬ s.hostUp) then s
    else
      let s0 : State := ({ s with hif := { s.hif with fetches := rest } } : State).turnOver f
      let k := s.queue f.source
      let s1 := if k.state = .active ∧ f.live then
          s0.haltQueue f.source .haltedFetch (if noAnswer then 2 else 1) (k.sqBase + 64 * k.sqHead.toNat)
        else s0
      s1.takeTurns.settleIdle

/-! ### Completion records (R371 to R374, R376) -/

/-- The 32 bytes of a completion record (R371). -/
def CplRec.bytes (r : CplRec) (sqHead : BitVec 16) (held phase : Bool) : List Byte :=
  leBytes 8 r.tag.toNat ++ leBytes 4 r.task.toNat ++ leBytes 2 sqHead.toNat ++ leBytes 1 r.status ++
    leBytes 1 r.flags.toNat ++ leBytes 8 r.lt ++ leBytes 2 r.cell.toNat ++ leBytes 1 (if r.src then 1 else 0) ++
    leBytes 1 r.attempt ++ leBytes 3 0 ++ leBytes 1 ((if held then 2 else 0) + (if phase then 1 else 0))

/-- A record write of a queue has not been answered. -/
def State.writing (s : State) (q : Nat) : Bool := s.hif.writes.any fun w => w.queue == q

/-- Issue the write of a record to the slot CQTAIL names. -/
def State.issueRecord (s : State) (q : Nat) (r : CplRec) (held : Bool) : State :=
  let k := s.queue q
  let w : RecWrite :=
    { queue := q, addr := k.cqBase + 32 * k.cqTail.toNat, data := r.bytes k.sqHead held k.phase, issued := s.ns
      rcd := some r, held := held, code := 0, drops := 0, dropLt := 0 }
  { s with hif := { s.hif with writes := s.hif.writes ++ [w] } }

/-- A record goes into the overflow ring, or waits outside it while it is full (R372, R373). -/
def State.holdRecord (s : State) (q : Nat) (r : CplRec) : State :=
  let k := s.queue q
  if k.ring.length < 4096 ∧ k.waiting = [] then s.modQueue q fun k => { k with ring := k.ring ++ [r] }
  else
    let s1 := s.modQueue q fun k => { k with waiting := k.waiting ++ [r], fullRaised := true }
    if k.fullRaised then s1 else s1.raise 0x060A .warning [(1, q), (4, min 0xFFFFFFFF (k.waiting.length + 1))]

/-- Records leave the overflow ring in order as room allows (R372, R374), one write at a time. -/
def State.drainRing (s : State) (q : Nat) : State :=
  let k := s.queue q
  match k.ring with
  | [] => s
  | r :: rest =>
    if ¬ s.dispRuns ∨ s.writing q ∨ k.cqFull ∨ (k.state ≠ .active ∧ k.state ≠ .haltedFetch) then s
    else
      let k1 : HostQueue := match k.waiting with
        | [] => { k with ring := rest, fullRaised := false }
        | w :: ws => { k with ring := rest ++ [w], waiting := ws }
      (s.modQueue q fun _ => k1).issueRecord q r true

/-- COMPLETION_RECORD_WRITE (R372): the next record of a queue is written, held, or discarded with its queue. -/
def State.writeRecord (s : State) (q : Nat) : State :=
  match s.dsp.recs.find? fun r => r.1 = q with
  | none => s.drainRing q
  | some (_, r) =>
    if ¬ s.dispRuns ∨ s.writing q then s
    else
      let s1 : State := { s with dsp := { s.dsp with recs := s.dsp.recs.eraseP fun r => r.1 = q } }
      let k := s.queue q
      if ¬ k.exists' then s1
      else if k.state = .haltedCpl ∨ k.ring ≠ [] ∨ k.waiting ≠ [] ∨ k.cqFull then (s1.holdRecord q r).drainRing q
      else s1.issueRecord q r false

/-- A record write of a queue is answered (R374, R376): it lands, the tail and the phase go on, and the queue's vector is
sent by its coalescing rule. -/
def State.recordLanded (s : State) (w : RecWrite) : State :=
  let q := w.queue
  let k := s.queue q
  let last := k.cqTail.toNat + 1 = k.cqSlots
  let left := if w.held then k.replay - 1 else k.replay
  let k1 : HostQueue :=
    { k with cqTail := if last then 0 else k.cqTail + 1, phase := k.phase ^^ last, replay := left
             since := k.since + 1, firstAt := if k.since = 0 then w.issued else k.firstAt }
  let s1 := s.modQueue q fun _ => k1
  let s2 := if w.held ∧ k.replay = 1 then s1.raise 0x0602 .info [(1, q), (2, k.replayed)] else s1
  let due := if s.hif.feat 6 then k.count ≠ 0 ∧ k.count ≤ k1.since else True
  let s3 := if due ∧ ¬ s.hif.detached then (s2.modQueue q fun k => { k with since := 0 }).sendVector k.vector else s2
  s3.drainRing q

/-- An event record write is answered (R375): the tail, the phase and SEQ go on. -/
def State.eventLanded (s : State) (w : RecWrite) : State :=
  let h := s.hif
  let last := h.evTail.toNat + 1 = h.evSlots
  let h1 : HifState := { h with evTail := if last then 0 else h.evTail + 1, evPhase := h.evPhase ^^ last, evSeq := h.evSeq + 1 }
  let s1 := ({ s with hif := h1 } : State).setCause 1
  (if w.code / 256 = 0x0B then s1.setCause 4 else s1).issueEvent

/-- RECORD_WRITE_COMPLETED (R376): the host answers the write of a queue's record, or of the event ring's (64). -/
def State.writeCompleted (s : State) (q : Nat) : State :=
  match s.hif.writes.find? fun w => w.queue = q with
  | none => s
  | some w =>
    if ¬ s.hostUp ∨ w.issued + 1000000 < s.ns then s
    else
      let s1 : State := { s with hif := { s.hif with writes := s.hif.writes.eraseP fun w => w.queue = q }
                                 mem := s.mem.writeHost w.addr (w.data.map fun b => (b, false)) }
      if q = 64 then s1.eventLanded w else s1.recordLanded w

/-- CPL_WRITE_FAILED (R374): the queue halts and the failed record becomes the first of its overflow ring. -/
def State.recordFailed (s : State) (q : Nat) (noAnswer : Bool) : State :=
  match s.hif.writes.find? fun w => w.queue = q with
  | none => s
  | some w =>
    if (noAnswer ∧ s.ns < w.issued + 1000000) ∨ (¬ noAnswer ∧ ¬ s.hostUp) ∨ ¬ s.hif.fwUp then s
    else
      let s1 : State := { s with hif := { s.hif with writes := s.hif.writes.eraseP fun w => w.queue = q } }
      match w.rcd with
      | none => s1
      | some r =>
        let s2 := s1.modQueue q fun k =>
          let l := r :: k.ring
          { k with ring := l.take 4096, waiting := l.drop 4096 ++ k.waiting }
        if (s.queue q).state = .haltedCpl then s2
        else s2.haltQueue q .haltedCpl (if noAnswer then 2 else 1) w.addr

/-- EVENT_WRITE_FAILED (R375): the record is dropped and counted as if the ring were full; nothing is retried. A
HIF_EVT_DROPPED that fails is counted with those it covers (log entry 32). -/
def State.eventFailed (s : State) (noAnswer : Bool) : State :=
  match s.hif.writes.find? fun w => w.queue = 64 with
  | none => s
  | some w =>
    if (noAnswer ∧ s.ns < w.issued + 1000000) ∨ (¬ noAnswer ∧ ¬ s.hostUp) then s
    else
      let h := s.hif
      let lt := leNat (w.data.take 8)
      let first := if w.drops ≠ 0 then w.dropLt else if h.evDrops ≠ 0 then min h.evDropLt lt else lt
      let s1 : State := { s with hif := { h with writes := h.writes.eraseP (fun w => w.queue = 64)
                                                 evDrops := h.evDrops + w.drops + 1, evDropLt := first } }
      if s1.hif.evQueue = [] then s1 else s1.issueEvent

/-- MSIX_COALESCE_TIMEOUT (R376): the coalesce time has passed since the first record not covered by a send. -/
def State.coalesceTimeout (s : State) (q : Nat) : State :=
  let k := s.queue q
  if s.hif.feat 6 ∧ k.count ≠ 0 ∧ k.time ≠ 0 ∧ k.since ≠ 0 ∧ k.firstAt + 1000 * k.time ≤ s.ns ∧ ¬ s.hif.detached ∧
      s.dispRuns then
    (s.modQueue q fun k => { k with since := 0 }).sendVector k.vector
  else s

/-! ### Doorbells and heads (R363, R365, R366, R372, R375) -/

/-- A ring index stays in its ring and does not pass the other pointer (R363): `from'` moves to `dest` and may not pass
beyond `room` slots. -/
def ringOk (slots from' dest room : Nat) : Bool :=
  decide (dest < slots ∧ (dest + slots - from' % slots) % slots ≤ room)

/-- HIF_SQ_DB (R365, R366). -/
def State.doorbell (s : State) (q : Nat) (index : BitVec 16) : State :=
  let s0 := s.modQueue q fun k => { k with tail := index, bellAt := some (k.bellAt.getD s.ns) }
  let h := s0.hif
  if h.fifo.length < 256 then { s0 with hif := { h with fifo := h.fifo ++ [(q, index, s.ns)] } }
  else { s0 with hif := { h with ovf := h.ovf ||| (1 <<< q), hwerr := h.hwerr ||| 1 } }

/-- A doorbell keeps R363's rule for the submission tail. -/
def HostQueue.tailOk (k : HostQueue) (index : BitVec 16) : Bool :=
  !k.exists' || ringOk k.sqSlots k.tail.toNat index.toNat
    (k.sqSlots - 1 - (k.tail.toNat + k.sqSlots - k.sqHead.toNat) % k.sqSlots)

/-- A write of HIF_CQ_HEAD keeps R363's rule for the completion head. -/
def HostQueue.headOk (k : HostQueue) (index : BitVec 16) : Bool :=
  !k.exists' || ringOk k.cqSlots k.cqHead.toNat index.toNat ((k.cqTail.toNat + k.cqSlots - k.cqHead.toNat) % k.cqSlots)

/-- A write of HIF_EV_HEAD keeps the rule for the event ring's head. -/
def HifState.evHeadOk (h : HifState) (index : BitVec 16) : Bool :=
  h.evBase == 0 || ringOk h.evSlots h.evHead.toNat index.toNat
    ((h.evTail.toNat + h.evSlots - h.evHead.toNat) % h.evSlots)

/-- HIF_CQ_HEAD (R372): room in the completion queue; the dispatcher drains its overflow ring. -/
def State.cqHeadWrite (s : State) (q : Nat) (index : BitVec 16) : State :=
  (s.modQueue q fun k => { k with cqHead := index }).drainRing q

/-- HIF_EV_HEAD (R375): room in the event ring. -/
def State.evHeadWrite (s : State) (index : BitVec 16) : State :=
  let s1 : State := { s with hif := { s.hif with evHead := index } }
  s1.issueEvent

/-! ### The lease and the detachment (R381, R382) -/

/-- The lease's life [ns] (R381). -/
def leaseLife : Nat := 2000000000

/-- HIF_LEASE (R361, R381). -/
def State.renewLease (s : State) (number : BitVec 32) : State :=
  let h := s.hif
  if number ≠ h.leaseNo then s
  else if h.lease ∧ s.ns ≤ h.leaseAt + leaseLife then { s with hif := { h with leaseAt := s.ns } }
  else if h.lease ∨ h.expired then { s with hif := { h with hwerr := h.hwerr ||| 4 } }
  else s

/-- Tasks in the device-made queue, the ready list, and running (R353). -/
def State.dmqLevel (s : State) : Nat := (s.dsp.tasks.filter fun t => t.stage == .dmq).length
def State.readyCount (s : State) : Nat := (s.dsp.tasks.filter fun t => t.isReady || t.stage == .placed).length
def State.runningCount (s : State) : Nat :=
  (s.dsp.tasks.filter fun t => t.stage == .running || (t.stage == .ending && !t.cells.isEmpty)).length

/-- Tier-3 memory is given up: its grants end and its tensors are lost (R302, R382 step 4). -/
def State.dropGrants (s : State) : State :=
  let s1 : State := { s with mem := { s.mem with grants := [] } }
  s1.loseTensors fun t => t.loc.tier == 3

/-- The device becomes DETACHED (R382, R385): causes 0 lease expiry, 1 DETACH message, 2 device warm start, 3 Function
Level Reset. The address in the event of a queue that halts so is not stated (log entry 3). -/
def State.detach (s : State) (cause : Nat) : State :=
  let h := s.hif
  let s0 : State := { s with hif := { h with attached := false, detached := true, lease := false, khiInUse := 0 } }
  let act := (List.range 64).filter fun q => (s.queue q).state == .active
  let s1 := act.foldl (fun s q => let (a, s') := s.freshNat; s'.haltQueue q .haltedCpl 3 a) s0
  let s2 := s1.dropGrants.setCause 3
  let s3 := if cause = 0 then
      s2.raise 0x0603 .error [(4, h.leaseNo.toNat), (2, s.runningCount), (2, s.dmqLevel)]
    else s2
  s3.raise 0x0605 .warning [(1, cause)]

/-- The detachment an expiry asks for is carried out while firmware runs (R382). -/
def State.lateDetach (s : State) : State :=
  if s.hif.expired ∧ s.hif.attached ∧ s.hif.fwUp then s.detach 0 else s

/-- LEASE_EXPIRY (R381, R382): the hardware timer expires the lease; firmware then detaches the device. -/
def State.leaseExpiry (s : State) : State :=
  let h := s.hif
  if ¬ s.pwr.main then s
  else if h.lease ∧ h.leaseAt + leaseLife ≤ s.ns then
    let s1 : State := { s with hif := { h with lease := false, expired := true } }
    s1.lateDetach
  else s.lateDetach

/-! ### Link and PERST# (R355, R550) -/

/-- CXL_LINK_CHANGE (R355, R550): the link trains only with PERST# released and the main stage on. -/
def State.linkChange (s : State) (up : Bool) (width rate : Nat) : State :=
  if ¬ s.portsOn ∨ (up ∧ s.hif.perst) ∨ (¬ up ∧ ¬ s.hif.linkUp) then s
  else
    let s1 : State := { s with hif := { s.hif with linkUp := up, width := width, rate := rate } }
    s1.raise 0x0607 .warning [(1, width), (1, rate), (1, if up then 1 else 0)]

/-- PERST_ASSERT (R550): the link goes down; nothing else is reset. -/
def State.perstAssert (s : State) : State :=
  let s1 : State := { s with hif := { s.hif with perst := true } }
  if s.pwr.main ∧ s.hif.linkUp then s1.linkChange false s.hif.width s.hif.rate else s1

/-- Whether a width and a rate are ones the link trains at (R355). -/
def linkShape (width rate : Nat) : Bool :=
  (width == 16 || width == 8 || width == 4) && (rate == 64 || rate == 32 || rate == 16 || rate == 8)

/-! ### Commands -/

/-- A command that names a signal box by die and cluster (R21, R22). -/
def withBox (die : BitVec 3) (cluster : BitVec 4) (f : Nat → State) : Out :=
  if cluster.toNat < 9 then .next (f (16 * die.toNat + cluster.toNat)) else .fault (.noSuchPart 22)

/-- A write of HIF_SQ_DB (R363, R365). -/
def State.sqDb (s : State) (q : Nat) (index : BitVec 16) : State :=
  (s.undefinedIf !(s.queue q).tailOk index).doorbell q index

/-- A write of HIF_CQ_HEAD (R363, R372). -/
def State.cqHead (s : State) (q : Nat) (index : BitVec 16) : State :=
  (s.undefinedIf !(s.queue q).headOk index).cqHeadWrite q index

/-- A write of HIF_EV_HEAD (R363, R375). -/
def State.evHead (s : State) (index : BitVec 16) : State := (s.undefinedIf !s.hif.evHeadOk index).evHeadWrite index

/-- HIF_SQ_DB (R365). -/
def execHifSqDb (queue : BitVec 6) (index : BitVec 16) (s : State) : Out :=
  .next (if s.hostUp then s.sqDb queue.toNat index else s)

/-- DISPATCHER_WAKE (R351). -/
def execDispatcherWake (s : State) : Out := .next s.wakeDispatcher

/-- ENTRY_ARRIVE (R330). -/
def execEntryArrive (s : State) : Out := .next s.entryArrive

/-- TASK_PLACE (R331 to R336). -/
def execTaskPlace (s : State) : Out := .next (if s.dispRuns then s.placeTask else s)

/-- SIGNAL_BOX_TASK (R337). -/
def execSignalBoxTask (task : BitVec 32) (die : BitVec 3) (cluster : BitVec 4) (s : State) : Out :=
  withBox die cluster fun b => if s.boxRuns b then s.boxTask task.toNat b else s

/-- TASK_MEMBERS_START (R337). -/
def execTaskMembersStart (task : BitVec 32) (die : BitVec 3) (cluster : BitVec 4) (s : State) : Out :=
  withBox die cluster fun b => if s.boxRuns b then s.boxStart task.toNat b else s

/-- FAULT_REPORT (R341). -/
def execFaultReport (cell : CellId) (s : State) : Out :=
  withCell cell s fun s => if s.dispRuns then s.takeFault cell else s

/-- MEMBER_STOP (R341). -/
def execMemberStop (cell : CellId) (s : State) : Out :=
  withCell cell s fun s => if s.boxRuns (boxOf cell) then s.stopMember cell else s

/-- The controller learns a phase after a task of it ends (R484): the learned values are free values (log entry 3); the
least recently used of 512 entries is replaced, and phase tag 0 is never learned. -/
def State.learn (s : State) (tag : BitVec 16) : State :=
  if tag = 0 ∨ ¬ s.pwr.pcUp then s
  else
    let (a, s1) := s.freshNat
    let (c, s2) := s1.freshNat
    let (n, s3) := s2.freshNat
    let (d, s4) := s3.freshNat
    let e : PhaseEntry := ⟨tag, a, c, BitVec.ofNat 16 n, d⟩
    let rest := s4.pwr.shadow.filter fun x => x.tag ≠ tag
    { s4 with pwr := { s4.pwr with shadow := (e :: rest).take 512 } }

/-- TASK_END (R340 to R345, R484). -/
def execTaskEnd (task : BitVec 32) (s : State) : Out :=
  let s1 := if s.dispRuns then s.endTask task.toNat else s
  .next (match s.task task.toNat with
    | some t =>
      let done : Bool := match s1.task task.toNat with
        | some u => u.stage == .ended && t.stage != .ended
        | none => true
      if done then s1.learn t.entry.phase else s1
    | none => s1)

/-- COMPLETION_RECORD_WRITE (R372). -/
def execCompletionRecordWrite (queue : BitVec 6) (s : State) : Out := .next (s.writeRecord queue.toNat)

/-- ENQ_REQUEST (R346). -/
def execEnqRequest (cell : CellId) (s : State) : Out :=
  withCell cell s fun s => if s.dispRuns ∨ s.dbg.braked then s.answerEnq cell else s

/-- ENQ_ANSWER (R116). -/
def execEnqAnswer (cell : CellId) (s : State) : Out :=
  withCell cell s fun s => if s.boxRuns (boxOf cell) then s.observeEnq cell else s

/-- ENQ_TIMEOUT (R116). -/
def execEnqTimeout (cell : CellId) (s : State) : Out :=
  withCell cell s fun s => if s.boxRuns (boxOf cell) then s.timeoutEnq cell else s

/-- PMAP_COMMIT (R349). -/
def execPmapCommit (s : State) : Out := .next s.commitPmap

/-- HIF_CQ_HEAD (R372). -/
def execHifCqHead (queue : BitVec 6) (index : BitVec 16) (s : State) : Out :=
  .next (if s.hostUp then s.cqHead queue.toNat index else s)

/-- HIF_EV_HEAD (R375). -/
def execHifEvHead (index : BitVec 16) (s : State) : Out :=
  .next (if s.hostUp then s.evHead index else s)

/-- HIF_LEASE (R381). -/
def execHifLease (number : BitVec 32) (s : State) : Out := .next (if s.hostUp then s.renewLease number else s)

/-- LEASE_EXPIRY (R381, R382). -/
def execLeaseExpiry (s : State) : Out := .next s.leaseExpiry

/-- CPL_WRITE_FAILED (R374). -/
def execCplWriteFailed (queue : BitVec 6) (noAnswer : Bool) (s : State) : Out :=
  .next (s.recordFailed queue.toNat noAnswer)

/-- FETCH_FAILED (R374). -/
def execFetchFailed (noAnswer : Bool) (s : State) : Out := .next (s.fetchFailed noAnswer)

/-- EVENT_WRITE_FAILED (R375). -/
def execEventWriteFailed (noAnswer : Bool) (s : State) : Out := .next (s.eventFailed noAnswer)

/-- MSIX_COALESCE_TIMEOUT (R376). -/
def execMsixCoalesceTimeout (queue : BitVec 6) (s : State) : Out := .next (s.coalesceTimeout queue.toNat)

/-- RECORD_WRITE_COMPLETED (R376): 64 names the event ring. -/
def execRecordWriteCompleted (queue : BitVec 7) (s : State) : Out := .next (s.writeCompleted queue.toNat)

/-- CXL_LINK_CHANGE (R355). -/
def execCxlLinkChange (up : Bool) (width rate : Nat) (s : State) : Out :=
  if linkShape width rate then .next (s.linkChange up width rate) else .fault (.noSuchPart 355)

/-- PERST_ASSERT (R550). -/
def execPerstAssert (s : State) : Out := .next s.perstAssert

/-- PERST_RELEASE (R550): the port may train again; the link comes up as CXL_LINK_CHANGE. -/
def execPerstRelease (s : State) : Out := .next { s with hif := { s.hif with perst := false } }

end Sys2Proof.Machine
end

