-- ==== Sys2Proof/Machine/Mailbox.lean ====
section
/-!
DEFINITION. The host mailbox and its messages (R368 to R370, R377 to R380), and the Function Level Reset (R378).
-/

namespace Sys2Proof.Machine

/-! ### Requests and answers (R368, R369) -/

/-- What serving a request comes to: an answer, an outcome the specification calls undefined, or a wait. -/
inductive MbRes where
  | done (status : Nat) (payload : List Byte) (s : State)
  | undef
  | wait (s : State)

/-- The answer to a request whose outcome is undefined (R6, R369): any status with any payload (log entry 16). -/
def State.mbUndef (s : State) : Nat × List Byte × State :=
  let (st, s1) := s.undefinedAll.freshNat
  let (n, s2) := s1.freshNat
  (st % 256, (List.range (n % 249)).map s2.freeByte, s2.skipFree 248)

/-- A little-endian field of the request's payload. -/
def State.mbArg (s : State) (off n : Nat) : Nat := Mem.readNat 0 s.hif.mbReq (8 + off) n

/-- Dispatcher firmware serves the mailbox (R359, R529): the brake does not stop it. -/
def State.mbServed (s : State) : Bool := s.pwr.main && s.hif.fwUp

/-- Write an answer: the header and the payload, BUSY cleared, DONE and the cause MB set (R368, R369). -/
def State.mbAnswer (s : State) (status : Nat) (payload : List Byte) : State :=
  let h := s.hif
  let bs := leBytes 1 status ++ leBytes 1 0 ++ leBytes 2 payload.length ++ Mem.read 0 h.mbReq 4 4 ++ payload
  let s1 : State := { s with hif := { h with mbAns := Mem.write 0 h.mbAns 0 bs, mbBusy := false, mbDone := true } }
  s1.setCause 0

/-- Serve the request in the buffer when it is the message named (R368 to R370): only ATTACH is allowed while the device
is not attached, and a malformed header has undefined results. -/
def mbRow (opc len : Nat) (s : State) (f : State → MbRes) : Out :=
  let h := s.hif
  if ¬ h.mbBusy ∨ ¬ s.mbServed ∨ Mem.readNat 0 h.mbReq 0 1 ≠ opc then .next s
  else if opc ≠ 1 ∧ ¬ h.attached then .next (s.mbAnswer 2 [])
  else
    match f (s.undefinedIf (Mem.readNat 0 h.mbReq 1 1 != 0 || Mem.readNat 0 h.mbReq 2 2 != len)) with
    | .done st p s' => .next (s'.mbAnswer st p)
    | .undef => .next (s.mbUndef.2.2.mbAnswer s.mbUndef.1 s.mbUndef.2.1)
    | .wait s' => .next s'

/-! ### Discarding (R370, R378) -/

/-- A queue is deleted (R370): its tasks and their trees are stopped and forgotten, its held records are discarded, and it
becomes DISABLED. A record write on its way lands. The answer's counts come first. -/
def State.deleteQueue (s : State) (q : Nat) : Nat × Nat × State :=
  let roots := (s.dsp.tasks.filter fun t => t.parent == 0 && t.source == q).map fun t => t.id
  let (n, s1) := s.killTasks fun t => roots.contains t.root
  let k := s1.queue q
  let mine := s1.dsp.recs.filter fun r => r.1 == q
  let late := s1.hif.writes.filter fun w => w.queue == q
  let s1 := s1.voidFetches q
  let mem := if s1.hostUp then late.foldl (fun m w => m.writeHost w.addr (w.data.map fun b => (b, false))) s1.mem else s1.mem
  let s2 : State := { s1 with mem := mem
                              dsp := { s1.dsp with recs := s1.dsp.recs.filter fun r => r.1 != q }
                              hif := { s1.hif with writes := s1.hif.writes.filter fun w => w.queue != q } }
  (n, k.ring.length + k.waiting.length + mine.length,
    s2.modQueue q fun k => { HostQueue.init with tail := k.tail, cqHead := k.cqHead })

/-- Every handle, pin and grant is freed (R378): the map is empty from the next commit, which is made at once when no task
uses an older version. -/
def State.freeAll (s : State) : State :=
  let s1 : State := { s with mem := { s.mem with shadow := [], grants := [] } }
  s1.commitPmap

/-- The host-interface state is discarded (R378 MODE 2): queues, tasks, handles, pins and grants. -/
def State.discardHost (s : State) : State :=
  let s1 := (List.range 64).foldl (fun s q => (s.deleteQueue q).2.2) s
  (s1.killTasks fun _ => true).2.freeAll

/-! ### Attach and detach (R377 to R380, R382) -/

/-- The features a level offers (R379): level 1 offers bits 0 to 5 only. -/
def levelMask (level : Nat) : BitVec 32 := if level = 1 then 0x3F else 0xFFFFFFFF

/-- ATTACH (R378): the lease number is firmware's choice. -/
def State.attach (s : State) (lease : BitVec 32) : MbRes :=
  let h := s.hif
  let level := s.mbArg 0 1
  let mode := s.mbArg 1 1
  let agreed := (BitVec.ofNat 32 (s.mbArg 4 4) &&& h.featDev &&& levelMask level) ||| 1
  if level ≠ h.khiCur.toNat ∧ level ≠ h.khiPrev.toNat then .done 6 [] s
  else if h.lease then .done 7 [] s
  else if mode ≠ 1 ∧ mode ≠ 2 then .undef
  else if mode = 1 ∧ ¬ agreed.getLsbD 1 then .done 5 [] s
  else
    let s1 := (s.undefinedIf (s.mbArg 2 2 != 0)).lateDetach
    let before := if s1.hif.detached then 1 else 0
    let s2 := if mode = 2 then s1.discardHost else s1
    let k := s2.hif
    let held := if agreed.getLsbD 5 then k.evHeld else []
    let s3 : State := { s2 with hif := { k with
      attached := true, detached := false, lease := true, expired := false, leaseNo := lease, leaseAt := s.ns
      khiInUse := BitVec.ofNat 8 level, featOn := agreed, evQueue := k.evQueue ++ held
      evHeld := if agreed.getLsbD 5 then [] else k.evHeld } }
    let s4 := s3.sendPending.issueEvent.raise 0x0604 .info [(1, mode), (1, level), (2, agreed.toNat), (1, before)]
    .done 0 (leBytes 4 lease.toNat ++ leBytes 4 agreed.toNat ++ leBytes 1 level ++ leBytes 1 before) s4

/-- FUNCTION_LEVEL_RESET (R378): the mailbox is reset, an attached device is detached with cause 3, and the host-interface
state is discarded. -/
def State.flr (s : State) : State :=
  let h := s.hif
  let s1 : State := { s with hif := { h with mbBusy := false, mbDone := false, mbReq := [], mbAns := [] } }
  (if h.attached then s1.detach 3 else s1).discardHost

/-! ### Queues (R363, R370, R374) -/

/-- The parameters of QUEUE_CREATE and QUEUE_REBIND are well formed (R363, R369). -/
def State.queueArgsOk (s : State) : Bool :=
  s.mbArg 1 1 < 64 && s.mbArg 3 1 == 0 && s.mbArg 6 2 == 0 && s.mbArg 18 6 == 0 && s.mbArg 8 8 % 4096 == 0 &&
    s.mbArg 24 8 % 4096 == 0 && 2 ≤ s.mbArg 16 2 + 1 && 16 ≤ s.mbArg 32 2 + 1

/-- A queue takes the bases, sizes and interrupt settings of the request, and the pointers and the phase of a new queue
(R370, R371). -/
def State.setQueue (s : State) (k : HostQueue) : HostQueue :=
  { k with vector := BitVec.ofNat 6 (s.mbArg 1 1), count := s.mbArg 2 1, time := s.mbArg 4 2
           sqBase := s.mbArg 8 8, sqSlots := s.mbArg 16 2 + 1, cqBase := s.mbArg 24 8, cqSlots := s.mbArg 32 2 + 1
           tail := 0, seen := 0, sqHead := 0, cqTail := 0, cqHead := 0, phase := true }

/-- QUEUE_CREATE (R363, R370). -/
def State.queueCreate (s : State) : MbRes :=
  let q := s.mbArg 0 1
  if 64 ≤ q then .done 3 [] s
  else if (s.queue q).exists' then .done 4 [] s
  else .done 0 [] ((s.undefinedIf !s.queueArgsOk).modQueue q fun _ => { s.setQueue HostQueue.init with state := .active })

/-- QUEUE_DELETE (R370). -/
def State.queueDelete (s : State) : MbRes :=
  let q := s.mbArg 0 1
  if 64 ≤ q ∨ ¬ (s.queue q).exists' then .done 3 [] s
  else
    let (n, r, s1) := s.deleteQueue q
    .done 0 (leBytes 2 n ++ leBytes 2 r) s1

/-- QUEUE_REBIND (R370): only in HALTED_CPL and HALTED_FETCH; it waits for a record write that is on its way. -/
def State.queueRebind (s : State) : MbRes :=
  let q := s.mbArg 0 1
  let k := s.queue q
  if 64 ≤ q ∨ ¬ k.exists' then .done 3 [] s
  else if k.state ≠ .haltedCpl ∧ k.state ≠ .haltedFetch then .done 2 [] s
  else if s.writing q then .wait s
  else .done 0 [] ((s.undefinedIf !s.queueArgsOk).modQueue q s.setQueue)

/-- RESUME (R374): the queue becomes ACTIVE, fetch resumes and the held records are written in order; one already on its way
is not among them. -/
def State.resume (s : State) : MbRes :=
  let q := s.mbArg 0 1
  let k := s.queue q
  if 64 ≤ q ∨ ¬ k.exists' then .done 3 [] s
  else if k.state = .active then .done 0 (leBytes 2 0) s
  else
    let n := k.ring.length + k.waiting.length
    let late := (s.hif.writes.filter fun w => w.queue == q && w.held).length
    let s1 := s.modQueue q fun k =>
      { k with state := .active, replay := if n = 0 then 0 else n + late, replayed := n, fullRaised := false }
    .done 0 (leBytes 2 (min 0xFFFF n)) (s1.drainRing q).takeTurns

/-! ### Tasks (R370) -/

/-- End a task on the host's request. -/
def State.abortTask (s : State) (id : Nat) : State := (s.endCause id tsAborted).endTask id

/-- TASK_ABORT (R370): an ID that was given out and names no task has ended. -/
def State.taskAbort (s : State) : MbRes :=
  let id := s.mbArg 0 4
  let tree := s.mbArg 4 1
  if 2 ≤ tree then .undef
  else
    match s.task id with
    | none => if id ≠ 0 ∧ id ≤ s.dsp.lastTask.toNat then .done 0 [0] s else .done 3 [] s
    | some t =>
      let found := match t.stage with
        | .ready | .dmq => 1
        | .placed | .running => 2
        | .ending | .ended => 0
      let others := if tree = 1 then (s.dsp.tasks.filter fun k => k.root == t.root && k.id != id).map fun k => k.id else []
      .done 0 (leBytes 1 found) (others.foldl State.abortTask (s.abortTask id))

/-! ### Tensors (R299 to R303, R369, R370) -/

/-- Change a tensor in both copies of the map. -/
def State.modTensor (s : State) (h : Nat) (f : Tensor → Tensor) : State :=
  let g (l : List Tensor) : List Tensor := l.map fun t => if t.handle = h then f t else t
  { s with mem := { s.mem with tensors := g s.mem.tensors, shadow := g s.mem.shadow } }

/-- A tensor by handle, as firmware knows it. -/
def State.tensor (s : State) (h : Nat) : Option Tensor := s.mem.shadow.find? fun t => t.handle = h

/-- A place lies in the die or the stack a request names (R281, R369). -/
def MemState.inUnit (m : MemState) (scope unit : Nat) (loc : TLoc) : Bool :=
  match loc with
  | .hbm ex => ex.all fun e =>
      let st := (m.locate e.1).stack
      if scope = 1 then st / 2 == unit else if scope = 2 then st == unit else true
  | _ => true

/-- TENSOR_CREATE (R303, R370): handle, scope where the service chooses it, and place are the placement service's. The
tensor goes to its preferred tier, or to the next one down that has room; stack scope comes only on request. -/
def State.tensorCreate (s : State) (handle : BitVec 32) (scope : BitVec 2) (place : Option Spot) : MbRes :=
  let size := s.mbArg 0 8
  let tier := s.mbArg 8 1
  let ask := s.mbArg 9 1
  let sc := if ask = 0 then scope.toNat else ask - 1
  let unit := if ask < 2 then none else some (s.mbArg 10 1)
  let full (a b : Nat) : Bool := (List.range b).all fun k => decide (k < a) || !s.room k size sc unit
  if 3 < tier ∨ 3 < ask then .undef
  else if tier = 3 ∧ ¬ s.hif.feat 3 then .done 5 [] s
  else
    match place with
    | none => if full tier 4 then .done 4 [] s else .wait s
    | some sp =>
      let loc := TLoc.ofSpot sp
      let used := (s.mem.tensors ++ s.mem.shadow ++ s.mem.previous).any fun t => t.handle == handle.toNat
      if handle = 0 ∨ used ∨ sc = 3 ∨ (ask = 0 ∧ sc = 2) ∨ loc.tier < tier ∨ ¬ full tier loc.tier ∨
          ¬ s.placeOk handle.toNat size sc loc ∨ ¬ unit.all (fun u => s.mem.inUnit sc u loc) then .wait s
      else
        let t : Tensor := ⟨handle.toNat, loc, size, sc, tier, false, false, false, s.ns⟩
        let s1 := s.undefinedIf (s.mbArg 11 1 != 0)
        .done 0 (leBytes 4 handle.toNat) { s1 with mem := { s1.mem with shadow := s1.mem.shadow ++ [t] } }

/-- TENSOR_FREE (R369). -/
def State.tensorFree (s : State) : MbRes :=
  let h := s.mbArg 0 4
  match s.tensor h with
  | none => .done 3 [] s
  | some _ => .done 0 [] { s with mem := { s.mem with shadow := s.mem.shadow.filter fun t => t.handle ≠ h } }

/-- The address of a pinned tensor (R369): a DPA, or a host address. -/
def TLoc.address : TLoc → Nat
  | .hbm ((a, _) :: _) => a
  | .host a => a
  | .store _ a => a
  | .lender _ a => a
  | .hbm [] => 0

/-- A tensor moves to another place in every copy of the map, with its contents (R303, R349). -/
def State.relocate (s : State) (t : Tensor) (loc : TLoc) : State :=
  let s1 := s.copyTensor t loc
  let s2 : State := { s1 with mem := { s1.mem with
    shadow := s1.mem.shadow.map fun k => if k.handle = t.handle then { k with loc := loc } else k } }
  s2.commitPmap

/-- A tensor may move now (R303, R349): no started task names it, and no started task uses an older map. -/
def State.mayMove (s : State) (h : Nat) : Bool := !s.inUse h && !s.oldMap

/-- A place that may be pinned (R283): one contiguous range of HBM, or host memory. -/
def TLoc.whole : TLoc → Bool
  | .hbm ex => decide (ex.length ≤ 1)
  | _ => true

/-- TENSOR_PIN (R283, R303, R369): a tensor in another tier, or in several extents of HBM, moves to the place the placement
service gives. -/
def State.tensorPin (s : State) (place : Option Spot) : MbRes :=
  let h := s.mbArg 0 4
  let tier := s.mbArg 4 1
  match s.tensor h with
  | none => .done 3 [] s
  | some t =>
    if tier ≠ 1 ∧ tier ≠ 3 then .undef
    else if tier = 3 ∧ ¬ s.hif.feat 3 then .done 5 [] s
    else if t.loc.tier = tier ∧ t.loc.whole then
      .done 0 (leBytes 8 t.loc.address) (s.modTensor h fun t => { t with pinned := true })
    else
      match place with
      | none =>
        if (if tier = 1 then s.mem.contiguous t.size t.scope else s.room 3 t.size t.scope none) then .wait s
        else .done 4 [] s
      | some sp =>
        let loc := TLoc.ofSpot sp
        if t.pinned then .done 4 [] s
        else if loc.tier ≠ tier ∨ ¬ loc.whole ∨ ¬ s.placeOk h t.size t.scope loc ∨ ¬ s.mayMove h ∨ ¬ s.memRuns then .wait s
        else
          match s.copyWaits t loc with
          | some s' => .wait s'
          | none => .done 0 (leBytes 8 loc.address) ((s.relocate t loc).modTensor h fun t => { t with pinned := true })

/-- TENSOR_UNPIN (R303). -/
def State.tensorUnpin (s : State) : MbRes :=
  let h := s.mbArg 0 4
  match s.tensor h with
  | none => .done 3 [] s
  | some _ => .done 0 [] (s.modTensor h fun t => { t with pinned := false })

/-- TENSOR_QUERY (R369). -/
def State.tensorQuery (s : State) : MbRes :=
  match s.tensor (s.mbArg 0 4) with
  | none => .done 3 [] s
  | some t =>
    let ex := match t.loc with | .hbm l => l.length | _ => 1
    .done 0 (leBytes 1 t.loc.tier ++ leBytes 1 (t.scope + 1) ++ leBytes 1 (if t.pinned then 1 else 0) ++ leBytes 1 0 ++
      leBytes 4 ex ++ leBytes 8 t.size) s

/-- HOST_GRANT (R302, R369): the grant ID is firmware's choice among those not in use. -/
def State.hostGrant (s : State) (id : BitVec 32) : MbRes :=
  let base := s.mbArg 0 8
  let n := s.mbArg 8 8
  if ¬ s.hif.feat 3 then .done 5 [] s
  else if (Sparse.find s.mem.grants id.toNat).isSome then .wait s
  else
    let s1 := s.undefinedIf (base % 4096 != 0 || n % 4096 != 0)
    .done 0 (leBytes 4 id.toNat) { s1 with mem := { s1.mem with grants := s1.mem.grants.put id.toNat (base, n) } }

/-- A tensor that is not lost begins in a grant's range of host memory (R302). -/
def Tensor.inGrant (t : Tensor) (base n : Nat) : Bool :=
  match t.loc with
  | .host a => decide (base ≤ a ∧ a < base + n) && !t.lost
  | _ => false

/-- HOST_REVOKE (R302, R369): tensors in the grant move up where the placement service has a place for them; the others
are lost. -/
def State.hostRevoke (s : State) (moves : List (BitVec 32 × Spot)) : MbRes :=
  let id := s.mbArg 0 4
  match Sparse.find s.mem.grants id with
  | none => .done 3 [] s
  | some (base, n) =>
    let inside (t : Tensor) : Bool := t.inGrant base n
    let ok (s : State) (t : Tensor) (loc : TLoc) : Bool :=
      inside t && !t.pinned && loc.tier < 3 && s.placeOk t.handle t.size t.scope loc && s.mayMove t.handle && s.memRuns
    let step (acc : Nat × State) (mv : BitVec 32 × Spot) : Nat × State :=
      let (up, s) := acc
      let h := mv.1.toNat
      let loc := TLoc.ofSpot mv.2
      match s.tensor h with
      | some t => if ok s t loc then (up + 1, s.relocate t loc) else acc
      | none => acc
    let waits := moves.findSome? fun mv =>
      let loc := TLoc.ofSpot mv.2
      (s.tensor mv.1.toNat).bind fun t => if ok s t loc then s.copyWaits t loc else none
    match waits with
    | some s' => .wait s'
    | none =>
      let (up, s1) := moves.foldl step (0, s)
      let lost := (s1.mem.tensors.filter inside).length
      let s2 := s1.loseTensors inside
      .done 0 (leBytes 4 up ++ leBytes 4 lost) { s2 with mem := { s2.mem with grants := Sparse.erase s2.mem.grants id } }

/-! ### Settings (R353, R375, R379) -/

/-- CONFIG_SET (R353, R379): reserved bits read 0; without PRELOAD_CFG, PRELOAD stays 0. -/
def State.configSet (s : State) : MbRes :=
  let v : BitVec 32 := BitVec.ofNat 32 (s.mbArg 0 4) &&& 0x0FFFFF01
  let v1 := if s.hif.feat 7 then v else v &&& 0x0FFFFF00
  .done 0 (leBytes 4 s.dsp.cfg.toNat) { s with dsp := { s.dsp with cfg := v1 } }

/-- EVENT_RING_SET (R369, R375): base 0 turns the ring off; events held while DETACHED follow. -/
def State.eventRingSet (s : State) : MbRes :=
  let h := s.hif
  let base := s.mbArg 0 8
  let slots := s.mbArg 8 2 + 1
  let sev := s.mbArg 10 1
  if ¬ h.feat 5 then .done 5 [] s
  else if s.writing 64 then .wait s
  else if base = 0 then .done 0 [] { s with hif := { h with evBase := 0, evQueue := [], evDrops := 0 } }
  else if base % 4096 ≠ 0 ∨ slots < 64 ∨ 2 < sev then .undef
  else
    let h1 : HifState := { h with evBase := base, evSlots := slots, evSev := sev, evTail := 0, evHead := 0
                                  evPhase := true, evDrops := 0, evQueue := h.evQueue ++ h.evHeld, evHeld := [] }
    let s1 : State := { s with hif := h1 }
    .done 0 [] s1.issueEvent

/-! ### Commands -/

/-- ATTACH (R378). -/
def execAttach (lease : BitVec 32) (s : State) : Out := mbRow 0x01 8 s fun s => s.attach lease
/-- DETACH (R382). -/
def execDetach (s : State) : Out := mbRow 0x02 0 s fun s => .done 0 [] (s.detach 1)
/-- QUEUE_CREATE (R363). -/
def execQueueCreate (s : State) : Out := mbRow 0x03 34 s State.queueCreate
/-- QUEUE_DELETE (R370). -/
def execQueueDelete (s : State) : Out := mbRow 0x04 1 s State.queueDelete
/-- QUEUE_REBIND (R370). -/
def execQueueRebind (s : State) : Out := mbRow 0x05 34 s State.queueRebind
/-- RESUME (R374). -/
def execResume (s : State) : Out := mbRow 0x06 1 s State.resume
/-- TASK_ABORT (R370). -/
def execTaskAbort (s : State) : Out := mbRow 0x07 5 s State.taskAbort
/-- TENSOR_CREATE (R370). -/
def execTensorCreate (handle : BitVec 32) (scope : BitVec 2) (place : Option Spot) (s : State) : Out :=
  mbRow 0x08 12 s fun s => s.tensorCreate handle scope place
/-- TENSOR_FREE (R369). -/
def execTensorFree (s : State) : Out := mbRow 0x09 4 s State.tensorFree
/-- TENSOR_PIN (R303). -/
def execTensorPin (place : Option Spot) (s : State) : Out := mbRow 0x0A 5 s fun s => s.tensorPin place
/-- TENSOR_UNPIN (R303). -/
def execTensorUnpin (s : State) : Out := mbRow 0x0B 4 s State.tensorUnpin
/-- TENSOR_QUERY (R369). -/
def execTensorQuery (s : State) : Out := mbRow 0x0C 4 s State.tensorQuery
/-- HOST_GRANT (R302). -/
def execHostGrant (id : BitVec 32) (s : State) : Out := mbRow 0x0D 16 s fun s => s.hostGrant id
/-- HOST_REVOKE (R369). -/
def execHostRevoke (moves : List (BitVec 32 × Spot)) (s : State) : Out := mbRow 0x0E 4 s fun s => s.hostRevoke moves
/-- CONFIG_SET (R369). -/
def execConfigSet (s : State) : Out := mbRow 0x0F 4 s State.configSet
/-- EVENT_RING_SET (R375). -/
def execEventRingSet (s : State) : Out := mbRow 0x10 11 s State.eventRingSet

/-- MB_UNKNOWN_OPC (R370): a reserved OPC is answered UNKNOWN in every state. -/
def execMbUnknownOpc (s : State) : Out :=
  let opc := Mem.readNat 0 s.hif.mbReq 0 1
  if ¬ s.hif.mbBusy ∨ ¬ s.mbServed ∨ (1 ≤ opc ∧ opc ≤ 0x10) then .next s else .next (s.mbAnswer 1 [])

/-- FUNCTION_LEVEL_RESET (R378). -/
def execFunctionLevelReset (s : State) : Out := .next (if s.hostUp then s.flr else s)

end Sys2Proof.Machine
end

