-- ==== Sys2Proof/Machine/Recovery.lean ====
section
/-!
DEFINITION. Hold at signal, relay parity, the round of a recovery and rebuilding (R439 to R464), with the commit of group
tables (R423) that a round uses.
-/

namespace Sys2Proof.Machine

/-! ### Groups as sets of modules (R418 to R422, R440) -/

/-- The positions of a group as an entry gives them at a module, in member-number order. -/
def GEntry.positions (e : GEntry) (mod : Nat) : List Nat :=
  let isl (l : List Nat) : List Nat :=
    if e.islands = [] then l else l.flatMap fun p => e.islands.map fun i => i * 8192 + p % 8192
  match e.mode with
  | 1 => isl (e.axes.foldl (fun l a =>
      l.flatMap fun p => (List.range (e.hi a + 1 - e.lo a)).map fun k => withCoord p a (e.lo a + k))
      [(e.position mod).getD mod])
  | 2 => isl (e.words.map fun w => w % 2 ^ 15)
  | _ => []

/-- The modules that stand at those positions. -/
def GEntry.memberIds (e : GEntry) (mod : Nat) : List Nat :=
  if e.mode = 1 then (e.positions mod).map e.standIn else e.positions mod

/-- Fields of COL_JOB, COL_COORD and COL_PAR_CFG (R465). -/
def RecState.jobId (r : RecState) : Nat := bitsOf r.job.toNat 31 16
def RecState.role (r : RecState) : Nat := bitsOf r.job.toNat 15 14
def RecState.epochGroup (r : RecState) : Nat := bitsOf r.job.toNat 11 0
def RecState.coordId (r : RecState) : Nat := bitsOf r.coord.toNat 14 0
def RecState.backupId (r : RecState) : Nat := bitsOf r.coord.toNat 30 16
def RecState.fmt (r : RecState) : Nat := bitsOf r.parCfg.toNat 31 28
def RecState.slices (r : RecState) : Nat := max 1 (bitsOf r.parCfg.toNat 22 20)
def RecState.parGroup (r : RecState) : Nat := bitsOf r.parCfg.toNat 11 0

/-- This module's ID as a number. -/
def State.own (s : State) : Nat := s.modId.toNat

/-- The entries of the epoch group and of the parity group. -/
def State.epochEntry (s : State) : GEntry := s.group s.rcv.epochGroup
def State.parEntry (s : State) : GEntry := s.group s.rcv.parGroup

/-- The job's members and holders (R440). -/
def State.jobIds (s : State) : List Nat := s.epochEntry.memberIds s.own

/-- The modules of the parity group of a module, by member number; 15 is the holder (R448). -/
def State.parIds (s : State) (mod : Nat) : List Nat := s.parEntry.memberIds mod

/-! ### Group-table commit (R423) -/

/-- Whether a level is one this module serves (R3). -/
def levelServed (n : Nat) : Bool := n == 2 || n == 3

/-- A position lies in an entry's sub-block. -/
def GEntry.inBlock (e : GEntry) (pos : Nat) : Bool :=
  [0, 1, 2].all fun a => decide (e.lo a ≤ coordOf pos a ∧ coordOf pos a ≤ e.hi a)

/-- Why an entry is invalid, as the code of COL_GT_INVALID; none when it is valid or no entry (R418, R421, R422). -/
def GEntry.fault (e : GEntry) : Option Nat :=
  let ax := e.axord
  let fieldsOk : Bool :=
    decide (e.mode ≠ 3 ∧ e.f 1 3 2 ≤ 1 ∧ 1 ≤ e.lslots ∧ e.lslots ≤ 1024 ∧ e.nwords ≤ 8192 ∧ 1 ≤ e.maxops ∧ e.maxops ≤ 32 ∧
      e.f 2 31 28 = 0 ∧ e.f 5 31 16 = 0 ∧ e.f 6 31 24 = 0 ∧ e.f 7 31 24 = 0) &&
    ((List.range 8).all fun i => e.f (8 + i) 31 0 == 0)
  let axesOk : Bool := e.f 1 15 14 == 0 && decide ((ax.dropWhile fun a => a ≠ 3).all fun a => a = 3) && decide e.axes.Nodup &&
    [0, 1, 2].all fun a => decide (e.lo a ≤ e.hi a ∧ e.hi a < if a = 2 then 32 else 16)
  let listOk : Bool := decide (1 ≤ e.nwords) && e.words.all fun w => decide (w < 2 ^ 15)
  let at' := e.words.map fun w => w % 2 ^ 15
  let subs := e.words.map fun w => w / 2 ^ 15 % 2 ^ 15
  if e.mode = 0 then none
  else if ¬ fieldsOk ∨ (e.mode = 1 ∧ ¬ axesOk) ∨ (e.mode = 2 ∧ ¬ listOk) then some 0
  else if e.mode = 1 ∧ ¬ (e.words.all fun w => decide (w < 2 ^ 30)) then some 0
  else if ¬ levelServed e.level then some 1
  else if e.level = 2 ∧ ((e.mode = 1 ∧ 0 < e.nwords) ∨ e.islands ≠ []) then some 2
  else if e.mode = 1 ∧ (subs.any e.inBlock ∨ ¬ at'.Nodup) then some 3
  else none

/-- The version of an entry. -/
def GEntry.ver (e : GEntry) : Nat := e.f 0 31 0

/-- The counts of a group restart (R424). -/
def ColState.restartGroup (c : ColState) (g : Nat) : ColState :=
  { c with issued := c.issued.filter fun x => x.1 / 1024 ≠ g, turn := Sparse.erase c.turn g
           dead := c.dead.filter fun d => d.1 ≠ g }

/-- COL_GT_COMMIT (R423). -/
def State.commitGroups (s : State) : State :=
  let c := s.col
  let total := (c.shadow.map fun e => if e.2.mode = 0 then 0 else e.2.nwords).sum
  if 1048576 < total then s.raise 0x0803 .warning [(2, 0xFFFF), (1, 4)]
  else
    let bad := c.shadow.filterMap fun e => e.2.fault.map fun r => (e.1, r)
    let act : Sparse GEntry := c.shadow.map fun e => (e.1, if e.2.fault.isSome then [] else e.2)
    let keys := (c.active.map Prod.fst ++ c.shadow.map Prod.fst).foldl setIns []
    let moved := keys.filter fun g => GEntry.ver (c.active.at [] g) ≠ GEntry.ver (act.at [] g)
    let v := c.gtVer + 1
    let c1 := moved.foldl ColState.restartGroup { c with active := act, gtVer := v }
    let s1 : State := { s with col := c1 }
    let s2 := bad.foldl (fun s b => s.raise 0x0803 .warning [(2, b.1), (1, b.2)]) s1
    s2.raise 0x0802 .info [(4, v.toNat), (2, moved.length)]

/-! ### HOLD messages (R441 to R444) -/

/-- A HOLD or RELEASE message (R443). -/
structure HoldMsg where
  release : Bool
  cause : Nat
  job : Nat
  origin : Nat
  oseq : Nat
  round : Nat
  failed : Nat
  fport : Nat
  epoch : Nat
  lt : Nat
  deriving DecidableEq, Repr

/-- The message is sent on every UP port but one (R444): answer 3, type 0x10. -/
def State.floodHold (s : State) (m : HoldMsg) (except : Nat) : State :=
  ((List.range 6).filter fun p => p ≠ except && s.lnk.up p).foldl (fun s p =>
    s.reply 3 0x10 [p, if m.release then 1 else 0, m.cause, m.job, m.origin, m.oseq, m.round, m.failed, m.fport, m.epoch,
      m.lt]) s

/-- Note a message's key; the last 256 are kept (R444). -/
def State.noteKey (s : State) (m : HoldMsg) : State :=
  { s with lnk := { s.lnk with holdKeys := ((m.origin, m.oseq) :: s.lnk.holdKeys).take 256 } }

/-- Every collective and relay operation ends with HELD, without ABORT, and its slots are freed (R434, R445 step 2). -/
def State.holdOps (s : State) : State :=
  let parts := (s.col.ops.flatMap fun o => o.parts) ++ s.col.waiting.map Prod.fst ++ s.col.coming
  let s1 : State := { s with col := { s.col with ops := [], waiting := [], coming := [], dead := [], early := [] }
                             rcv := { s.rcv with relays := [], slicesDone := [], early := [] }
                             lnk := { s.lnk with work := [] } }
  parts.foldl (fun s c => s.endPart c stHeld) s1

/-- Every running task is stopped and will end with HELD (R445 step 3). -/
def State.holdTasks (s : State) : State :=
  let ids := (s.dsp.tasks.filter fun t => t.stage == .running || t.stage == .placed).map fun t => t.id
  ids.foldl (fun s id => s.endCause id tsHeld) s

/-- The module enters HOLDING for a new round (R445 steps 1 to 3, R457); failures of a round that was not released are
still heard of. -/
def State.enterHolding (s : State) (cause failed lt : Nat) : State :=
  let r := s.rcv
  let before (l : List Nat) : List Nat := if r.state = 0 then [] else l
  let add (l : List Nat) : List Nat := if failed = 0x7FFF then l else setIns l failed
  let r1 : RecState :=
    { r with state := 1, cause := BitVec.ofNat 4 cause, round := r.round + 1, failed := BitVec.ofNat 15 failed, detectLt := lt
             heard := add (before r.heard), reports := [], firstReport := none
             failedSet := add (before r.failedSet), pairs := [], drops := [], readys := [], rebuilding := []
             planned := false, acting := false, current := none, releaseDue := false }
  (({ s with rcv := r1 } : State).holdOps).holdTasks

/-- A failed module is heard of within the round (R447). -/
def State.hearFailed (s : State) (failed : Nat) : State :=
  if failed = 0x7FFF then s
  else
    let r := s.rcv
    { s with rcv := { r with heard := setIns r.heard failed, failedSet := setIns r.failedSet failed
                             failed := if r.failed = 0x7FFF then BitVec.ofNat 15 failed else r.failed } }

/-- Whether the latest PLAN names a failed module: as the position itself or as the module that stands there. -/
def State.planNames (s : State) (failed : Nat) : Bool :=
  s.rcv.pairs.any fun p => p.1 == failed || s.epochEntry.standIn p.1 == failed

/-- What a HOLD of the module's job does by its recovery state (R445, R446, R447, R457). -/
def State.actOnHold (s : State) (cause failed lt : Nat) : State :=
  if s.rcv.selfFailed then s
  else
    match s.rcv.state.toNat with
    | 0 => s.enterHolding cause failed lt
    | 1 | 2 => s.hearFailed failed
    | 3 => if s.planNames failed then s else s.enterHolding cause failed lt
    | 4 => s.enterHolding cause failed lt
    | _ => if cause = 3 then s.enterHolding cause failed lt else s

/-- A hold of the job reaches the dispatcher: at once while its firmware runs, otherwise when it returns (R464). A braked
module answers no more (R447). -/
def State.takeHold (s : State) (m : HoldMsg) : State :=
  if m.job ≠ s.rcv.jobId ∨ s.rcv.jobId = 0 ∨ s.dbg.braked then s
  else
    let s1 := s.raise 0x0901 .error [(2, m.origin), (1, m.oseq), (1, m.cause), (2, m.failed), (1, m.fport)]
    if s.hif.fwUp then s1.actOnHold m.cause m.failed m.lt
    else { s1 with rcv := { s1.rcv with deferred := s1.rcv.deferred ++ [(m.cause, m.failed, m.lt)] } }

/-- Firmware that returns acts on the holds that waited (R464). -/
def State.deferredHolds (s : State) : State :=
  let l := s.rcv.deferred
  l.foldl (fun s h => s.actOnHold h.1 h.2.1 h.2.2) { s with rcv := { s.rcv with deferred := [] } }

/-- The module originates a hold for its job (R441). -/
def State.originateHold (s : State) (cause failed fport : Nat) : State :=
  if s.rcv.jobId = 0 ∨ s.rcv.selfFailed ∨ ¬ s.pwr.main then s
  else
    let m : HoldMsg := ⟨false, cause, s.rcv.jobId, s.own, s.rcv.oseq.toNat, 0, failed, fport, 0, s.ns⟩
    let s1 : State := { s with rcv := { s.rcv with oseq := s.rcv.oseq + 1 } }
    ((s1.noteKey m).floodHold m 8).takeHold m

/-- A collective or relay operation has lost its path (R433 cause 4, R441 cause 2): every operation that waits for an
acknowledgement from a successor it cannot reach ends. -/
def State.colPaths (s : State) : State :=
  let cut (o : ColOp) : Bool := o.unacked != 0 && ((s.groupStages o.entry).getD []).any fun r =>
    decide (1 < r.n) && !s.reachable r.next
  let lost := s.col.ops.filter cut
  if lost = [] then s
  else ((lost.foldl (fun s o => s.endOp o 4 s.own) s).admitAll).originateHold 2 0x7FFF 0xFF

/-- OWN_FAULT_HOLD (R441 cause 1, R442): the module stops its own tasks and takes no further part. -/
def State.ownFault (s : State) : State :=
  if s.rcv.jobId = 0 ∨ s.rcv.selfFailed then s
  else
    let s1 := s.originateHold 1 s.own 0xFF
    { s1 with rcv := { s1.rcv with selfFailed := true } }

/-! ### Recovery messages (R455) -/

/-- Send a recovery message, a CLASS 4 packet (answer 6, the kind): destination, round, job, epoch and pairs. -/
def State.sendRec (s : State) (kind dst epoch : Nat) (words : List Nat) : State :=
  if dst = 0x7FFF ∨ ¬ s.reachable dst then s
  else s.reply 6 kind ([dst, s.rcv.round.toNat, s.rcv.jobId, epoch] ++ words)

/-- The header words of the protected region (R449). -/
def State.written (s : State) : Nat := s.headerWord 0
def State.committed (s : State) : Nat := s.headerWord 8
def State.jobEpoch (s : State) : Nat := s.headerWord 16

/-- Write a word of the header. -/
def State.setHeader (s : State) (off n v : Nat) : State :=
  s.putHbm (s.parBase + off) ((leBytes n v).map fun b => (b, false))

/-- The module has a protected region (R440). -/
def State.protects (s : State) : Bool := s.rcv.jobId != 0 && s.rcv.role != 0 && s.rcv.fmt != 0

/-- Every module of the job this module sends to in a round: members and holders that have not failed, and the chosen
spares. -/
def State.roundIds (s : State) : List Nat :=
  (s.jobIds.filter fun m => !s.rcv.failedSet.contains m) ++ s.rcv.pairs.map Prod.snd

/-- The round ends without recovery at this module (R458). -/
def State.stuck (s : State) (reason : Nat) : State :=
  let s1 : State := { s with rcv := { s.rcv with state := 5 } }
  s1.raise 0x0906 .error [(1, s.rcv.round.toNat), (1, reason)]

/-- Send STOP to the job and stop (R458). -/
def State.stopRound (s : State) (reason : Nat) : State :=
  (((s.roundIds.filter fun m => m ≠ s.own).foldl (fun s m => s.sendRec 7 m s.rcv.epoch [reason]) s)).stuck reason

/-! ### PLAN at a module (R456, R463) -/

/-- Set a word of an entry; words that read 0 are not listed. -/
def GEntry.setWord (e : GEntry) (i : Nat) (v : Word) : GEntry := if v = 0 then Sparse.erase e i else Sparse.put e i v

/-- Set bits hi to lo of word i of an entry. -/
def GEntry.setField (e : GEntry) (i hi lo v : Nat) : GEntry :=
  let w := (Sparse.at 0 e i).toNat
  e.setWord i (BitVec.ofNat 32 (w - bitsOf w hi lo * 2 ^ lo + v % 2 ^ (hi + 1 - lo) * 2 ^ lo))

/-- Put a list of words in place of an entry's member words. -/
def GEntry.setWords (e : GEntry) (l : List Nat) : GEntry :=
  let cleared : GEntry := (e.filter fun w => w.1 < 16)
  (l.zipIdx.foldl (fun e w => e.setWord (16 + w.2) (BitVec.ofNat 32 w.1)) cleared).setField 2 15 0 l.length

/-- The entry with a spare at a failed position (R422, R456 step 1, R463); none when the entry does not contain it. `mod` is
the position of the module whose table this is, `old` the module that failed there. -/
def GEntry.substitute (e : GEntry) (mod pos old spare : Nat) : Option GEntry :=
  let bump (e : GEntry) : GEntry := e.setField 0 31 0 (e.ver + 1)
  match e.mode with
  | 1 =>
    if ¬ (e.positions mod).contains pos then none
    else if e.level = 2 then
      let ids := (e.memberIds mod).map fun m => if m = old ∨ m = pos then spare else m
      some (bump ((e.setWords ids).setField 1 1 0 2))
    else
      let word := spare * 2 ^ 15 + pos
      let l := if e.words.any fun w => w % 2 ^ 15 = pos then e.words.map fun w => if w % 2 ^ 15 = pos then word else w
        else e.words ++ [word]
      some (bump (e.setWords l))
  | 2 => if e.words.contains old then some (bump (e.setWords (e.words.map fun w => if w = old then spare else w))) else none
  | _ => none

/-- The substitutions of a PLAN enter the shadow group table (R456 step 1). -/
def State.substituteAll (s : State) (pairs : List (Nat × Nat)) : State :=
  let act := s.epochEntry
  let step (sh : Sparse GEntry) (p : Nat × Nat) : Sparse GEntry :=
    let here := if s.own = p.2 then p.1 else s.own
    sh.map fun e => (e.1, (e.2.substitute here p.1 (act.standIn p.1) p.2).getD e.2)
  { s with col := { s.col with shadow := pairs.foldl step s.col.shadow } }

/-- A PLAN takes effect at a module (R456): PLANNED, with the substitutions in the shadow group table. -/
def State.applyPlan (s : State) (round : BitVec 8) (j : Nat) (pairs drops : List (Nat × Nat)) : State :=
  let s1 : State := { s with rcv := { s.rcv with state := 3, round := round, epoch := j, pairs := pairs, drops := drops } }
  let first := (pairs.head?.map Prod.fst).getD 0x7FFF
  let spare := (pairs.head?.map Prod.snd).getD 0x7FFF
  (s1.substituteAll pairs).raise 0x0903 .info [(1, round.toNat), (8, j), (2, first), (2, spare)]

/-! ### Chunks of the protected region (R449 to R453, R459) -/

/-- D, and the number of 64 KiB chunks. -/
def State.chunks (s : State) : Nat := s.rcv.parSize.toNat

/-- The chunks of slice q of k. -/
def State.sliceLo (s : State) (k q : Nat) : Nat := q * s.chunks / max 1 k

/-- The address of a chunk in the copy of an epoch. -/
def State.chunkAddr (s : State) (epoch chunk : Nat) : Nat := s.parBase + 65536 * (1 + epoch % 2 * s.chunks + chunk)

/-- Read and write a chunk of this module's copy. -/
def State.readChunk (s : State) (epoch chunk : Nat) : List (Byte × Bool) := s.mem.readHbm (s.chunkAddr epoch chunk) 65536
def State.writeChunk (s : State) (epoch chunk : Nat) (bs : List (Byte × Bool)) : State :=
  s.putHbm (s.chunkAddr epoch chunk) bs

/-- XOR of two runs; a poisoned side poisons the byte (R426, R453). -/
def xorRun (a b : List (Byte × Bool)) : List (Byte × Bool) := (a.zip b).map fun x => (x.1.1 ^^^ x.2.1, x.1.2 || x.2.2)

/-- CRC-32C with zero initial value and no final inversion (R453). -/
def crcByte (c : Word) (b : Byte) : Word :=
  iter (fun c => if c.getLsbD 0 then (c >>> 1) ^^^ 0x82F63B78#32 else c >>> 1) 8 (c ^^^ b.setWidth 32)
def crc32c (bs : List (Byte × Bool)) : Word := bs.foldl (fun c b => crcByte c b.1) 0

/-- A 64-bit epoch from its low 32 bits, read against COMMITTED (R452): the nearest one. -/
def State.fullEpoch (s : State) (e : BitVec 32) : Nat :=
  ((s.committed : Int) + (e - BitVec.ofNat 32 s.committed).toInt).toNat

/-- Relay operations run: the module is powered, not braked, and firmware runs. -/
def State.relayRuns (s : State) : Bool := s.memRuns && s.hif.fwUp && s.protects

/-- Send a relay packet (answer 5, the kind), or lose its path (R441 cause 2). -/
def State.sendRelay (s : State) (kind slice stage epoch chunkOff dst : Nat) (crcs : List Nat) (data : List (Byte × Bool)) :
    State :=
  if s.reachable dst then
    let lanes := (List.range (data.length / 8)).filter fun l => ((data.drop (8 * l)).take 8).any Prod.snd
    let (seen, s1) := s.seenBytes data
    s1.reply 5 kind ([s.rcv.parGroup, s.rcv.fmt, slice, stage, epoch % 2 ^ 32, 256 * chunkOff, dst, crcs.length] ++ crcs ++
      lanes) seen
  else s.originateHold 2 0x7FFF 0xFF

/-- The relay operation of a slice. -/
def State.relay (s : State) (rebuild : Bool) (slice : Nat) : Option RelayOp :=
  s.rcv.relays.find? fun r => r.rebuild == rebuild && r.slice == slice

/-- Put a relay operation back, or a new one in. -/
def State.putRelay (s : State) (r : RelayOp) : State :=
  let same (x : RelayOp) : Bool := x.rebuild == r.rebuild && x.slice == r.slice
  let l := if s.rcv.relays.any same then s.rcv.relays.map fun x => if same x then r else x else s.rcv.relays ++ [r]
  { s with rcv := { s.rcv with relays := l } }

/-- Take a relay operation out. -/
def State.dropRelay (s : State) (rebuild : Bool) (slice : Nat) : State :=
  { s with rcv := { s.rcv with relays := s.rcv.relays.filter fun x => !(x.rebuild == rebuild && x.slice == slice) } }

/-- The drop points of a spare, in order (R459). -/
def RecState.dropsOf (r : RecState) (spare : Nat) : List Nat := (r.drops.filter fun d => d.1 = spare).map Prod.snd

/-- The chain of a relay operation (R451, R459): members in order and the holder; in a rebuild without the failed module,
and with the drop point and the spare. -/
def State.chain (s : State) (rebuild : Bool) (slice : Nat) : List Nat :=
  if rebuild then
    match s.rcv.current with
    | none => []
    | some (pos, spare) =>
      let old := s.epochEntry.standIn pos
      (s.parIds pos).filter (fun m => m ≠ old) ++ ((s.rcv.dropsOf spare)[slice]?).toList ++ [spare]
  else s.parIds s.own

/-- Slices of a relay operation's kind. -/
def State.sliceCount (s : State) (rebuild : Bool) : Nat :=
  if rebuild then match s.rcv.current with
    | some (_, spare) => (s.rcv.dropsOf spare).length
    | none => 0
  else s.rcv.slices

/-- Chunks of a slice. -/
def State.sliceChunks (s : State) (rebuild : Bool) (slice : Nat) : Nat :=
  let k := s.sliceCount rebuild
  s.sliceLo k (slice + 1) - s.sliceLo k slice

/-- The first stage of a chain sends its next chunk of a slice, if one is left. -/
def State.sendFirst (s : State) (rebuild : Bool) (slice epoch : Nat) : State :=
  let r := (s.relay rebuild slice).getD ⟨rebuild, slice, BitVec.ofNat 32 epoch, 0, 0⟩
  if s.sliceChunks rebuild slice ≤ r.chunk then (if r.unacked = 0 then s.dropRelay rebuild slice else s)
  else
    let own := s.readChunk epoch (s.sliceLo (s.sliceCount rebuild) slice + r.chunk)
    let s1 := s.putRelay { r with chunk := r.chunk + 1, unacked := r.unacked + 1 }
    s1.sendRelay (if rebuild then 2 else 1) slice 0 epoch r.chunk ((s.chain rebuild slice)[1]?.getD 0x7FFF)
      (if rebuild ∨ s.rcv.fmt ≠ 2 then [] else [(crc32c own).toNat]) own

/-! ### Parity commit (R452) -/

/-- COMMITTED, COPYn and FMTn take the epoch, and the job-epoch reduction is launched (R449, R452). -/
def State.parityCommit (s : State) (e fmt : Nat) : State :=
  let s1 := ((s.setHeader 8 8 e).setHeader (24 + 8 * (e % 2)) 8 e).setHeader (40 + e % 2) 1 fmt
  let c : Contribution := ⟨.epoch, 0, 1, 2, s.rcv.epochGroup, 0, 0, 0, 0, 0, false⟩
  { s1 with rcv := { s1.rcv with relays := s1.rcv.relays.filter fun r => r.rebuild, slicesDone := [] }
            col := { s1.col with coming := s1.col.coming ++ [c] } }

/-- JOB_EPOCH_REDUCED (R452): the reduction's result is added to JOB. -/
def State.jobReduced (s : State) : State :=
  match s.finishedFor fun c => c.origin == .epoch with
  | none => s
  | some (o, c) =>
    let d := signedOf 32 (leNat ((o.data.take 4).map Prod.fst))
    let job := (BitVec.ofInt 64 ((s.jobEpoch : Int) + d)).toNat
    let s1 := (s.setHeader 16 8 job).finishPart o c
    s1.raise 0x0908 .info [(2, s.rcv.parGroup), (4, s.committed % 2 ^ 32), (4, job % 2 ^ 32)]

/-- A refresh chunk arrives at the holder (R451 to R453): it is written, the members' CRCs are kept, and the last chunk of
the last slice commits the epoch. -/
def State.holderChunk (s : State) (slice e chunkOff fmt : Nat) (crcs : List Nat) (data : List (Byte × Bool)) : State :=
  let ch := s.sliceLo s.rcv.slices slice + chunkOff
  let r := (s.relay false slice).getD ⟨false, slice, BitVec.ofNat 32 e, 0, 0⟩
  let s1 := (s.writeChunk e ch data).putRelay { r with chunk := r.chunk + 1 }
  let tab := crcs.zipIdx.foldl (fun (t : Sparse Word) c => t.put (c.2 * 2 ^ 32 + ch) (BitVec.ofNat 32 c.1)) s1.rcv.crcs
  let s2 : State := { s1 with rcv := { s1.rcv with crcs := tab } }
  if r.chunk + 1 < s.sliceChunks false slice then s2
  else
    let s3 : State := { s2 with rcv := { s2.rcv with slicesDone := setIns s2.rcv.slicesDone slice } }
    if s3.rcv.slicesDone.length < s.rcv.slices then s3
    else
      let s4 := ((s.parIds s.own).take 15).foldl (fun s m => s.sendRelay 4 0 15 e 0 m [fmt] []) s3
      s4.parityCommit e fmt

/-- REFRESH (R451): a chunk of a slice from the previous stage. It waits until this module's own WRITTEN has reached the
epoch, and for an operation slot (R427). -/
def State.refresh (s : State) (k : RelayChunk) : State :=
  let ids := s.parIds s.own
  let m := k.stage + 1
  let e := s.fullEpoch k.epoch
  if ¬ s.relayRuns ∨ s.rcv.state ≠ 0 ∨ ids[m]? ≠ some s.own ∨ e ≤ s.committed then s
  else if ((s.relay false k.slice).isNone ∧ 32 ≤ s.slotsHeld) ∨ (m ≠ 15 ∧ s.written < e) then
    { s with rcv := { s.rcv with early := s.rcv.early ++ [k] } }
  else if m = 15 then
    (s.sendRelay 3 k.slice 15 e k.chunkOff k.src [] []).holderChunk k.slice e k.chunkOff k.fmt k.crcs k.data
  else
    let own := s.readChunk e (s.sliceLo s.rcv.slices k.slice + k.chunkOff)
    let r := (s.relay false k.slice).getD ⟨false, k.slice, k.epoch, 0, 0⟩
    let s1 := (s.putRelay { r with chunk := r.chunk + 1, unacked := r.unacked + 1 }).sendRelay 3 k.slice m e k.chunkOff k.src
      [] []
    s1.sendRelay 1 k.slice m e k.chunkOff ((ids[m + 1]?).getD 0x7FFF)
      (if k.fmt = 2 then k.crcs ++ [(crc32c own).toNat] else []) (xorRun k.data own)

/-- The chunks that waited are taken up again (R451). -/
def State.retryRefresh (s : State) : State :=
  s.rcv.early.foldl State.refresh { s with rcv := { s.rcv with early := [] } }

/-- WRITTEN_UPDATE (R451): the first member starts the refresh of the epoch its program has completed; the others take up
the chunks that waited for it. -/
def State.startRefresh (s : State) : State :=
  let e := s.written
  let n := s.rcv.slices
  if ¬ s.relayRuns ∨ s.rcv.state ≠ 0 ∨ e ≤ s.committed then s
  else if (s.parIds s.own).head? ≠ some s.own then s.retryRefresh
  else if s.rcv.relays ≠ [] ∨ 32 < s.slotsHeld + n then s
  else (List.range n).foldl (fun s q => s.sendFirst false q e) s

/-- RELAY_ACK (R453): a chunk is acknowledged; the first stage sends the next one. -/
def State.relayAck (s : State) (rebuild : Bool) (slice : Nat) : State :=
  match s.relay rebuild slice with
  | none => s
  | some r =>
    let s1 := s.putRelay { r with unacked := r.unacked - 1 }
    let first := (s.chain rebuild slice).head? = some s.own
    if first then s1.sendFirst rebuild slice (if rebuild then s.rcv.epoch else s.fullEpoch r.epoch)
    else if s.sliceChunks rebuild slice ≤ r.chunk ∧ r.unacked ≤ 1 then s1.dropRelay rebuild slice
    else s1

/-- RELAY_ABORT (R433, R453): the relay operation ends, and the next stage is told. -/
def State.relayAbort (s : State) (rebuild : Bool) (slice : Nat) : State :=
  match s.relay rebuild slice with
  | none => s
  | some r =>
    let ids := s.chain rebuild slice
    let k := ids.idxOf s.own
    let s1 := s.dropRelay rebuild slice
    match ids[k + 1]? with
    | some nxt => if s.reachable nxt then s1.reply 5 5 [s.rcv.parGroup, s.rcv.fmt, slice, k, r.epoch.toNat, 0, nxt, 0] else s1
    | none => s1

/-! ### Rebuilding (R459) -/

/-- REBUILD_GO (R456, R458): the module enters REBUILD; the first survivor starts the chains. A survivor whose copy does
not hold the resumption epoch stops the round. -/
def State.rebuildGo (s : State) (pos spare : Nat) : State :=
  if s.rcv.state ≠ 3 ∧ s.rcv.state ≠ 4 then s
  else
    let j := s.rcv.epoch
    let s1 : State := { s with rcv := { s.rcv with state := 4, current := some (pos, spare), rebuildAt := s.ns } }
    let old := s.epochEntry.standIn pos
    let survivor := (s.parIds pos).contains s.own && s.own != old
    if survivor ∧ s.headerWord (24 + 8 * (j % 2)) ≠ j then
      ((s1.sendRec 7 s.rcv.coordId j [3]).sendRec 7 s.rcv.backupId j [3]).stuck 3
    else if (s1.chain true 0).head? = some s.own then
      (List.range (s1.sliceCount true)).foldl (fun s q => s.sendFirst true q j) s1
    else s1

/-- The spare takes a rebuilt chunk (R453, R459): written poisoned when its CRC differs from the stored one. -/
def State.spareChunk (s : State) (pos slice chunkOff fmt : Nat) (check : BitVec 32) (data : List (Byte × Bool)) : State :=
  let j := s.rcv.epoch
  let k := s.sliceCount true
  let ch := s.sliceLo k slice + chunkOff
  let bad := fmt == 2 && crc32c data != check
  let s1 := s.writeChunk j ch (if bad then data.map fun b => (b.1, true) else data)
  let member := (s.parEntry.positions pos).idxOf pos
  let s2 := if bad then s1.raise 0x0909 .warning [(2, s.rcv.parGroup), (1, member), (4, ch)] else s1
  let r := (s.relay true slice).getD ⟨true, slice, BitVec.ofNat 32 j, 0, 0⟩
  let s3 := s2.putRelay { r with chunk := r.chunk + 1 }
  if r.chunk + 1 < s.sliceChunks true slice then s3
  else
    let s4 : State := { s3 with rcv := { s3.rcv with slicesDone := setIns s3.rcv.slicesDone slice } }
    if s4.rcv.slicesDone.length < k then s4
    else
      let s5 := (s4.setHeader (24 + 8 * (j % 2)) 8 j).setHeader (40 + j % 2) 1 fmt
      let s6 : State := { s5 with rcv := { s5.rcv with slicesDone := [], relays := [] } }
      (s6.sendRec 5 s.rcv.coordId j []).raise 0x0904 .info
        [(1, s.rcv.round.toNat), (1, k), (8, 65536 * s.chunks), (4, (s.ns - s.rcv.rebuildAt) / 1000000)]

/-- REBUILD (R459): a chunk from the previous stage of the chain: survivors and the holder add their copy, the holder the
stored CRC, the drop point passes it on, and the spare writes it. -/
def State.rebuild (s : State) (slice stage chunkOff fmt : Nat) (check : BitVec 32) (data : List (Byte × Bool)) (src : Nat) :
    State :=
  let ids := s.chain true slice
  let m := stage + 1
  match s.rcv.current with
  | none => s
  | some (pos, spare) =>
    if ¬ s.relayRuns ∨ s.rcv.state ≠ 4 ∨ ids[m]? ≠ some s.own then s
    else
      let j := s.rcv.epoch
      let s0 := s.sendRelay 3 slice m j chunkOff src [] []
      if s.own = spare ∧ m + 1 = ids.length then s0.spareChunk pos slice chunkOff fmt check data
      else
        let ch := s.sliceLo (s.sliceCount true) slice + chunkOff
        let drop := m + 2 = ids.length
        let holder := m + 3 = ids.length
        let out := if drop then data else xorRun data (s.readChunk j ch)
        let member := (s.parEntry.positions pos).idxOf pos
        let ck := if holder ∧ fmt = 2 then s.rcv.crcs.at 0 (member * 2 ^ 32 + ch) else check
        let r := (s.relay true slice).getD ⟨true, slice, BitVec.ofNat 32 j, 0, 0⟩
        (s0.putRelay { r with chunk := r.chunk + 1, unacked := r.unacked + 1 }).sendRelay 2 slice m j chunkOff
          ((ids[m + 1]?).getD 0x7FFF) [ck.toNat] out

/-! ### COMMIT and RELEASE (R446, R456) -/

/-- COMMIT at a module (R456 step 3): the group table is committed unless the round changed none, J is written into the
header, and the saved timetables are restored and committed. -/
def State.recCommit (s : State) : State :=
  let j := s.rcv.epoch
  let s1 := if s.rcv.pairs = [] then s else s.commitGroups
  let s2 := if s.protects then ((s1.setHeader 8 8 j).setHeader 16 8 j).setHeader 0 8 j else s1
  match s.rcv.saved with
  | none => s2
  | some l =>
    let put (i : Nat) (k : ArbBlock) : ArbBlock := match l[i]? with
      | some t => { k with shd := t, pending := true }
      | none => k
    { s2 with arbLnk := Vector.ofFn fun (i : Fin (2 ^ 3)) => put i.val s2.arbLnk[i] }

/-- RELEASE of the round at a module (R446): RUN, and the counts of R424 restart. -/
def State.release (s : State) : State :=
  let r := s.rcv
  if r.state ≠ 3 ∧ r.state ≠ 4 then s
  else
    let ms := min 0xFFFF ((s.ns - r.detectLt) / 1000000)
    let r1 : RecState := { r with state := 0, lastMs := BitVec.ofNat 16 ms, count := satInc r.count, saved := none
                                  heard := [], reports := [], firstReport := none, failedSet := [], readys := []
                                  rebuilding := [], current := none, relays := [], slicesDone := [], planned := false
                                  acting := false, releaseDue := false }
    let s1 : State := { s with rcv := r1, col := { s.col with issued := [], turn := [], dead := [], early := [] } }
    s1.raise 0x0905 .info [(1, r.round.toNat), (8, r.epoch), (2, ms)]

/-- A RELEASE acts on the module it reaches unless it is older than the latest PLAN (R457). -/
def State.takeRelease (s : State) (m : HoldMsg) : State :=
  if m.job = s.rcv.jobId ∧ s.rcv.jobId ≠ 0 ∧ m.round = s.rcv.round.toNat ∧ ¬ s.dbg.braked ∧ ¬ s.rcv.selfFailed then s.release
  else s

/-- The coordinator floods RELEASE (R456). -/
def State.floodRelease (s : State) : State :=
  let m : HoldMsg := ⟨true, 0, s.rcv.jobId, s.own, s.rcv.oseq.toNat, s.rcv.round.toNat, 0x7FFF, 0xFF,
    s.rcv.epoch % 2 ^ 32, s.ns⟩
  let s1 : State := { s with rcv := { s.rcv with oseq := s.rcv.oseq + 1 } }
  ((s1.noteKey m).floodHold m 8).release

/-! ### The coordinator's round (R454 to R456) -/

/-- This module runs the round: it is the coordinator and has not been reported failed, or the backup in its place. -/
def State.coordinates (s : State) : Bool :=
  let r := s.rcv
  (r.coordId == s.own && !r.failedSet.contains s.own) ||
    (r.backupId == s.own && (r.acting || r.failedSet.contains r.coordId))

/-- Hops between two modules of an island. -/
def hopsBetween (a b : Nat) : Nat :=
  let d (x y : Nat) : Nat := (x - y) + (y - x)
  d (idX a) (idX b) + d (idY a) (idY b) + d (idZ a) (idZ b)

/-- The valid spare nearest to a position: fewest hops, then the lowest module ID (R456). -/
def nearestSpare (spares : List Nat) (pos : Nat) : Option Nat :=
  (spares.filter fun x => x / 8192 = pos / 8192).foldl (fun best x => match best with
    | none => some x
    | some b => if hopsBetween x pos < hopsBetween b pos ∨ (hopsBetween x pos = hopsBetween b pos ∧ x < b) then some x else best)
    none

/-- Spares of the list, and those still valid (R465). -/
def RecState.listed (r : RecState) : List Nat := r.spares.map fun e => e.2.toNat % 2 ^ 15
def RecState.valid (r : RecState) : List Nat :=
  (r.spares.filter fun e => e.2.getLsbD 31).map fun e => e.2.toNat % 2 ^ 15

/-- A spare is chosen: its entry is cleared of VALID. -/
def RecState.useSpare (r : RecState) (m : Nat) : RecState :=
  { r with spares := r.spares.map fun e => (e.1, if e.2.toNat % 2 ^ 15 = m then e.2 &&& 0x7FFFFFFF else e.2) }

/-- Modules next to a module. -/
def adjacent (m : Nat) : List Nat :=
  (if 0 < idX m then [m - 1] else []) ++ (if idX m < 15 then [m + 1] else []) ++
    (if 0 < idY m then [m - 16] else []) ++ (if idY m < 15 then [m + 16] else []) ++
    (if 0 < idZ m then [m - 256] else []) ++ (if idZ m < 31 then [m + 256] else [])

/-- Choose the spares (R456): the pairs, or the reason of STOP. -/
def State.choosePairs (s : State) : Except Nat (List (Nat × Nat) × RecState) :=
  let e := s.epochEntry
  let job := s.jobIds
  let failed := s.rcv.failedSet.filter fun m => job.contains m
  let double := failed.any fun f => (s.parIds f).any fun m => m != f && failed.contains m
  if double then .error 0
  else
    failed.foldl (fun acc f =>
      match acc with
      | .error x => .error x
      | .ok (l, r) =>
        let pos := (e.position f).getD f
        match nearestSpare r.valid pos with
        | none => .error 1
        | some sp => .ok (l ++ [(pos, sp)], r.useSpare sp)) (.ok ([], s.rcv))

/-- The positions of the pairs that are members of their parity groups, by their spare; a holder needs no rebuild. -/
def State.needRebuild (s : State) (pairs : List (Nat × Nat)) : List Nat :=
  (pairs.filter fun p => (s.parEntry.positions p.1).idxOf p.1 < 15).map Prod.snd

/-- The round commits (R456): COMMIT to every module, then RELEASE, which waits for new route tables on Morgo level 2
(R463). -/
def State.commitRound (s : State) : State :=
  let s1 := (s.roundIds.filter fun m => m ≠ s.own).foldl (fun s m => s.sendRec 6 m s.rcv.epoch []) s
  let s2 := s1.recCommit
  let low := (List.range 6).any fun p => s.lnk.up p && (s.lnk.port p).level == 2
  if low ∧ s.rcv.failedSet ≠ [] then
    ({ s2 with rcv := { s2.rcv with releaseDue := true } } : State).reply 15 1 s.rcv.failedSet
  else s2.floodRelease

/-- The next rebuild of the round starts, or the round commits. -/
def State.nextRebuild (s : State) : State :=
  match s.rcv.rebuilding with
  | [] => s.commitRound
  | sp :: _ =>
    match s.rcv.pairs.find? fun p => p.2 = sp with
    | none => s
    | some (pos, _) =>
      let old := s.epochEntry.standIn pos
      let who := ((s.parIds pos).filter (fun m => m ≠ old) ++ s.rcv.dropsOf sp ++ [sp]).foldl setIns []
      let s1 := (who.filter fun m => m ≠ s.own).foldl (fun s m => s.sendRec 4 m s.rcv.epoch [pos, sp]) s
      if who.contains s.own then s1.rebuildGo pos sp else s1

/-- The coordinator goes on once every module is ready (R456). -/
def State.whenReady (s : State) : State :=
  if s.rcv.planned ∧ s.roundIds.all fun m => s.rcv.readys.contains m then s.nextRebuild else s

/-- The coordinator sends its PLAN once every position has reported or failed (R455, R456). -/
def State.tryPlan (s : State) : State :=
  let r := s.rcv
  let complete := s.jobIds.all fun m => r.failedSet.contains m || r.reports.any fun x => x.1 == m
  if ¬ s.coordinates ∨ r.state ≠ 2 ∨ r.planned ∨ ¬ complete then s
  else
    match s.choosePairs with
    | .error reason => s.stopRound reason
    | .ok (pairs, r1) =>
      let j := match r.reports with
        | [] => s.committed
        | x :: l => l.foldl (fun m y => min m y.2) x.2
      let drops := pairs.flatMap fun p =>
        (((adjacent p.2).filter fun m => !r.failedSet.contains m && (s.jobIds.contains m || r.listed.contains m)).take 6).map
          fun m => (p.2, m)
      let s1 : State := { s with rcv := { r1 with pairs := pairs, drops := drops, planned := true, readys := [s.own]
                                                  rebuilding := s.needRebuild pairs } }
      let words := pairs.length :: (pairs ++ drops).flatMap fun p => [p.1, p.2]
      let s2 := (s1.roundIds.filter fun m => m ≠ s.own).foldl (fun s m => s.sendRec 2 m j words) s1
      let s3 := s2.applyPlan r.round j pairs drops
      let unprotected := pairs.filter fun p => ¬ (s.parEntry.positions p.1).idxOf p.1 < 15
      (unprotected.foldl (fun s _ => s.raise 0x0907 .warning [(2, s.rcv.parGroup), (8, j)]) s3).whenReady

/-- A HELD_REPORT is collected (R455). -/
def State.collectReport (s : State) (src committed : Nat) (heard : List Nat) : State :=
  let r := s.rcv
  let s1 : State := { s with rcv := { r with
    reports := if r.reports.any fun x => x.1 = src then r.reports else r.reports ++ [(src, committed)]
    firstReport := if r.firstReport.isNone then some s.ns else r.firstReport } }
  (heard.foldl State.hearFailed s1).tryPlan

/-- HELD_REACHED (R445 steps 4 and 5): once the stopped tasks have ended and no Morgo timetable commit is pending, the
timetables are saved and raised, the module is HELD, and it reports. A job without a coordinator, or whose coordinator and
backup have failed, ends its round (R458, R465). -/
def State.reachHeld (s : State) : State :=
  let r := s.rcv
  let busy := s.dsp.tasks.any fun t => t.started
  let pend := (List.range 6).any fun i => (rget s.arbLnk (BitVec.ofNat 3 i)).pending
  if r.state ≠ 1 ∨ r.selfFailed ∨ busy ∨ pend ∨ ¬ (s.pwr.main && s.hif.fwUp && !s.dbg.braked) then s
  else
    let saved := match r.saved with
      | some l => l
      | none => (List.range 6).map fun i => (rget s.arbLnk (BitVec.ofNat 3 i)).act
    let raise2 (t : Timetable) : Timetable :=
      let w := rget t.tok 0
      { t with tok := rset t.tok 0 ((w &&& 0xFF00FFFF) ||| 0x00400000) }
    let put (i : Nat) (k : ArbBlock) : ArbBlock := match saved[i]? with
      | some t => { k with shd := raise2 t, pending := true }
      | none => k
    let arb := Vector.ofFn fun (i : Fin (2 ^ 3)) => put i.val s.arbLnk[i]
    let s1 : State := { s with arbLnk := arb, rcv := { r with state := 2, saved := some saved, heldLt := s.ns } }
    let e := s.committed
    let s2 := s1.raise 0x0902 .info [(1, r.round.toNat), (8, e)]
    let none2 := r.coordId = 0x7FFF ∨ (r.heard.contains r.coordId ∧ (r.backupId = 0x7FFF ∨ r.heard.contains r.backupId))
    if none2 then s2.stuck 2
    else
      let words := r.heard.length :: r.heard
      let s3 := if r.coordId = s.own then s2 else s2.sendRec 1 r.coordId e words
      let s4 := if r.backupId = s.own ∨ r.backupId = r.coordId then s3 else s3.sendRec 1 r.backupId e words
      if r.coordId = s.own ∨ r.backupId = s.own then s4.collectReport s.own e r.heard else s4

end Sys2Proof.Machine
end

