-- ==== Sys2Proof/Machine/Starts.lean ====
section
/-!
DEFINITION. Starts (R500 to R512): what each of the three starts resets and keeps, its beginning, its end and its failure.
-/

namespace Sys2Proof.Machine

/-! ### What every start resets (R16, R51, R161, R308, R322, R353, R437, R465, R494, R541) -/

/-- Recovery registers and the state of the round at a device warm start and a firmware reload (R465). -/
def RecState.start (r : RecState) : RecState :=
  { RecState.init with
    job := r.job, coord := r.coord, parCfg := r.parCfg, parLo := r.parLo, parHi := r.parHi, parSize := r.parSize
    spares := r.spares, oseq := r.oseq, deferred := r.deferred, crcs := r.crcs }

/-- The raised quota of a hold ends at the next start (R445): the saved timetables come back. -/
def State.restoreQuota (s : State) : State :=
  match s.rcv.saved with
  | none => s
  | some l =>
    let put (i : Nat) (k : ArbBlock) : ArbBlock := match l[i]? with
      | some t => { k with act := t, shd := t }
      | none => k
    { s with arbLnk := Vector.ofFn fun (i : Fin (2 ^ 3)) => put i.val s.arbLnk[i] }

/-- An arbiter block keeps its tables and its version (R322). -/
def ArbBlock.start (k : ArbBlock) : ArbBlock := { k with pending := false, slot := 0, count := 0, arbs := [] }

/-- A tier-0 tensor is lost at any start (R300). -/
def Tensor.atStart (t : Tensor) : Tensor := if t.loc.tier = 0 then { t with lost := true } else t

/-- The registers a device warm start and a firmware reload reset alike. -/
def State.startRegs (s : State) : State :=
  let s1 := s.restoreQuota
  let d := s1.dsp
  let g := s1.dbg
  let m := s1.mem
  { s1 with
    boxes := s1.boxes.map (fun e => (e.1, { e.2 with mxConfig := BoxState.init.mxConfig, ballastCfg := BoxState.init.ballastCfg }))
    mem := { m with scopeShd := m.scopeAct, scrubCfg := MemState.init.scrubCfg, repairCfg := MemState.init.repairCfg
                    tensors := m.tensors.map Tensor.atStart, shadow := m.shadow.map Tensor.atStart
                    previous := m.previous.map Tensor.atStart }
    dsp := { DspState.init with tasks := d.tasks, cfg := d.cfg, lastTask := d.lastTask, ranks := d.ranks, recs := d.recs }
    arbHbm := s1.arbHbm.start, arbCol := s1.arbCol.start, arbLnk := s1.arbLnk.map ArbBlock.start
    col := { s1.col with gtAddr := 0, errLocal := 0, errTimeout := 0, errVersion := 0, errPath := 0 }
    rcv := s1.rcv.start
    pool := { s1.pool with gen := 0, joining := [] }
    pwr := s1.pwrStart
    dbg := { DbgState.init with beats := g.beats, beatMark := g.beatMark, beatAt := g.beatAt, beatsHi := g.beatsHi, rate := g.rate, evtErr := g.evtErr, evtWarn := g.evtWarn
                                ir := g.ir, scanSpace := g.scanSpace, scanCell := g.scanCell, scanOff := g.scanOff, trst := g.trst } }

/-- Tasks that a firmware reload stops (R510): their members are stopped and their records will carry ABORTED. -/
def State.abortRunning (s : State) : State :=
  let going := s.dsp.tasks.filter Task.started
  let s1 := (going.flatMap fun t => t.cells).foldl State.stopCell s
  going.foldl (fun s t => (s.endCause t.id tsAborted).endTask t.id) s1

/-- Steps 2 to 14 of a firmware reload (R360, R508, R510). -/
def State.reloadReset (s : State) : State :=
  let s1 := s.abortRunning.startRegs
  let s2 : State := { s1 with hif := { s1.hif with fetches := [] } }
  s2.buildSet .reload

/-- Steps 2 to 14 of a device warm start (R283, R288, R294, R361, R384, R508). -/
def State.warmReset (s : State) (clear : Bool) : State :=
  let s1 := s.startRegs
  let m := s1.mem
  let m1 : MemState := { m with snoopWait := [], queued := [], paused := []
                                hbm := if clear then [] else m.hbm, poison := if clear then [] else m.poison }
  let h := s1.hif
  let h1 : HifState := { h with fifo := [], ovf := 0, fetches := [], hwerr := 0, mbDone := false, mbBusy := false, mbReq := []
                                mbAns := [], lease := false, expired := false }
  let c := s1.col
  let c1 : ColState := { c with issued := [], turn := [], dead := [], coming := [], waiting := [], ops := [], early := [] }
  let s2 : State := { s1 with mem := m1, hif := h1, col := c1, dsp := { s1.dsp with tasks := [] }
                              lnk := { s1.lnk with work := [] }
                              rcv := if clear then { s1.rcv with crcs := [] } else s1.rcv }
  (s2.buildSet .warm).detach 2

/-! ### Requests (R507, R509) -/

/-- The most thorough of the requests that wait (R507). -/
def mergeReqs : List StartReq → Option StartReq
  | [] => none
  | r :: rest =>
    match mergeReqs rest with
    | none => some r
    | some m =>
      let clear := (r.clear && r.kind == .warm) || m.clear
      if m.kind.code < r.kind.code then some { m with clear := clear, side := m.side || r.side }
      else if r.kind.code < m.kind.code then some { r with clear := clear, side := m.side || r.side }
      else some { r with clear := clear, staged := r.staged || m.staged, side := m.side || r.side }

/-- The start a request leads to (R501, R507, R531): a reload under the brake is a device warm start; without the main
power stage, or with ACTIVE unusable, every start is cold. -/
def State.kindOf (s : State) (r : StartReq) : StartKind :=
  let k := if r.kind = .reload ∧ s.dbg.braked then .warm else r.kind
  if k ≠ .cold ∧ (¬ s.pwr.main ∨ s.fw.activeBad) then .cold else k

/-! ### The live update and a start (R503, R513) -/

/-- An activation is cancelled: FW_UPDATE_CANCELLED with its cause and the seconds deferred. -/
def State.cancelAct (s : State) (cause : Nat) : State :=
  match s.fw.act with
  | none => s
  | some a =>
    let secs := (((s.ns : Int) - a.asked) / 1000000000).toNat
    let f : FwState := { s.fw with act := none, updState := 5, updComp := 0, deferS := BitVec.ofNat 16 (min 0xFFFF secs) }
    ({ s with fw := f } : State).raise 0x0B09 .warning [(1, cause), (2, min 0xFFFF secs)]

/-! ### Bundles (R500, R503) -/

/-- The reason of the first check of R500 a bundle fails; 0 for none. -/
def FwState.reject (f : FwState) (b : Bundle) : Nat :=
  if b.badLayout then 1
  else if b.badKey ∨ b.keyIdx.toNat < f.minKey.toNat then 5
  else if b.badSig then 2
  else if b.svn.toNat < f.floor.toNat then 4
  else if b.badImage then 3
  else 0

/-- A bundle is verified (R500): STAGED keeps it, or is empty after a rejection. Sources 0 network, 1 PLDM push, 2 bundle
store. The second result says that it passed. -/
def State.stageBundle (s : State) (b : Bundle) (source : Nat) : State × Bool :=
  let why := s.fw.reject b
  if why = 0 then
    let f : FwState := { s.fw with staged := some b, stagedBad := false
                                   updState := if s.fw.act.isSome then s.fw.updState else 1, updReason := 0 }
    (({ s with fw := f } : State).raise 0x0B01 .info [(4, b.svn.toNat), (8, b.version.toNat), (1, source)], true)
  else
    let f : FwState := { s.fw with staged := none, stagedBad := false, updState := 7, updReason := BitVec.ofNat 8 why }
    (({ s with fw := f } : State).raise 0x0B02 .error [(1, why), (4, b.svn.toNat)], false)

/-- R505: the floor and MINKEY rise with a bundle in use where it asks for it. -/
def State.raiseFloor (s : State) (b : Bundle) : State :=
  let f := s.fw
  let floor := if b.raiseSvn then max f.floor.toNat b.svn.toNat else f.floor.toNat
  let key := if b.raiseKey then max f.minKey.toNat b.keyIdx.toNat else f.minKey.toNat
  if b.raiseSvn ∨ b.raiseKey then
    ({ s with fw := { f with floor := BitVec.ofNat 32 floor, minKey := BitVec.ofNat 4 key } } : State).raise 0x0B07 .info
      [(4, f.floor.toNat), (4, floor), (1, key)]
  else s

/-- STAGED becomes ACTIVE (R503, R513): the levels and features it offers show. -/
def State.install (s : State) (b : Bundle) : State :=
  let f : FwState := { s.fw with active := b, activeBad := false, staged := none, stagedBad := false, format := b.hoCur }
  { s with fw := f, hif := { s.hif with khiCur := b.khiCur, khiPrev := b.khiPrev, featDev := b.features } }

/-! ### Failure (R511, R512) -/

/-- A start fails (R511): the main stage goes off, and at the third failure in a row the module enters depot mode. -/
def State.failStart (s : State) (reason : Nat) : State :=
  match s.fw.run with
  | none => s
  | some r =>
    let fails := min 3 (s.fw.fails.toNat + 1)
    let s1 := s.raise 0x0B05 .error [(1, r.req.kind.code), (1, reason), (1, r.step), (1, fails)]
    let s2 := s1.mainOff .failed
    let f : FwState := { s2.fw with run := none, fails := BitVec.ofNat 2 fails, lastFail := BitVec.ofNat 5 reason
                                    stage := BitVec.ofNat 5 r.step }
    if f.depot then { s2 with fw := f }
    else if fails = 3 then
      ({ s2 with fw := { f with depot := true, retryFrom := none } } : State).raise 0x0B06 .error [(1, reason)]
    else { s2 with fw := { f with retryFrom := some s.ns } }

/-! ### The steps of a start (R508) -/

/-- The start in progress moves to a step (R518). -/
def State.atStep (s : State) (n : Nat) : State :=
  { s with fw := { s.fw with stage := BitVec.ofNat 5 n, run := s.fw.run.map fun r => { r with step := n } } }

/-- Line time counts from 0 (R508 step 6): times kept across it move with it. -/
def State.zeroTime (s : State) : State :=
  let t : Int := s.ns
  let f : FwState := { s.fw with run := s.fw.run.map (fun r => { r with began := r.began - t })
                                 act := s.fw.act.map (fun a => { a with asked := a.asked - t }) }
  { s with lt8 := 0, fw := f, pwr := { s.pwr with calmFrom := s.pwr.calmFrom - t } }

/-- A spare lane of a channel (0 to 511) takes the place of a failing lane: the repair is counted and raised (R287). -/
def State.trainRepair (s : State) (ch u lane : Nat) : State :=
  let s1 := s.modStack (ch / 32) fun k => { k with spares := k.spares - 1, repStart := satInc k.repStart }
  let left := (rget s1.mem.stks (BitVec.ofNat 4 (ch / 32))).spares.toNat
  s1.raise 0x0402 .warning [(1, ch / 32), (1, ch % 32), (1, u), (1, lane), (1, 0), (1, left)]

/-- A failing lane has no spare (R287). -/
def State.trainFailed (s : State) (ch lane : Nat) : State := s.raise 0x0404 .error [(1, ch / 32), (1, ch % 32), (1, lane)]

/-- A data or check lane fails training (R287): its pseudo-channel's spare carries its traffic, or the training fails. -/
def State.trainLane (s : State) (pch : BitVec 10) (lane : Nat) : State × Bool :=
  let p := pch.toNat
  if s.mem.spareUsed.contains p then (s.trainFailed (p / 2) lane, false)
  else (({ s with mem := { s.mem with spareUsed := setIns s.mem.spareUsed p } } : State).trainRepair (p / 2) (p % 2) lane, true)

/-- A command or address lane fails training (R287): its channel's spare carries its traffic, or the training fails. The
event names pseudo-channel 0 (log entry 132). -/
def State.trainCmd (s : State) (ch : BitVec 9) (lane : Nat) : State × Bool :=
  let c := ch.toNat
  if s.mem.cmdUsed.contains c then (s.trainFailed c lane, false)
  else (({ s with mem := { s.mem with cmdUsed := setIns s.mem.cmdUsed c } } : State).trainRepair c 0 lane, true)

/-- Training of the channels `p` names (R287): it stops at the first lane without a spare. -/
def State.trainChannels (s : State) (t : Training) (p : Nat → Bool) : State × Bool :=
  let a := (t.lanes.filter fun l => p (l.1.toNat / 2)).foldl
    (fun (a : State × Bool) l => if a.2 then a.1.trainLane l.1 l.2 else a) (s, true)
  (t.cmds.filter fun l => p l.1.toNat).foldl (fun (a : State × Bool) l => if a.2 then a.1.trainCmd l.1 l.2 else a) a

/-- Step 8 of a device warm start (R288): a channel that fails the check of its saved parameters is trained in full, and
the new parameters are saved. -/
def State.warmTrain (s : State) (t : Training) : State × Bool :=
  let bad := t.checks.map BitVec.toNat
  let (s1, ok) := s.trainChannels t fun c => bad.contains c
  ({ s1 with mem := { s1.mem with params := bad.foldl (fun l c => Sparse.put l c s.fw.starts.toNat) s1.mem.params } }, ok)

/-- Step 5 of a cold start (R35): links that trained with 12 to 15 modules are in service, each recorded. -/
def State.trainLinks (s : State) (t : Training) : State :=
  (t.narrow.filter fun n => n.2.2.toNat < 16).foldl
    (fun s n => s.raise 0x0B03 .warning [(1, n.1.toNat), (1, n.2.1.toNat), (1, n.2.2.toNat)]) s

/-- Images are loaded and the active set is built (R508 steps 12 and 13): the start now waits for its cores. -/
def State.loadImages (s : State) : State :=
  { s.atStep 14 with fw := { (s.atStep 14).fw with run := (s.atStep 14).fw.run.map fun r => { r with loadedAt := some s.ns } } }

/-- Steps 3 to 13 of a cold start: step 4 waits for the bulk to be charged (R468). -/
def State.coldOn (s : State) (t : Training) : State :=
  if s.pwr.inrush ≠ .closed then s.atStep 4
  else
    let s1 : State := { s.atStep 5 with pwr := { s.pwr with main := true, off := .none } }
    if t.narrow.any fun n => n.2.2.toNat < 12 then s1.failStart 6
    else
      let (s2, ok) := ((s1.trainLinks t).atStep 8).zeroTime.trainChannels t fun _ => true
      if ok then (({ s2 with pwr := s2.pwrStart } : State).buildSet .cold).loadImages else s2.failStart 7

/-- A bundle in STAGED is what the start uses (R503). -/
def State.useBundle (s : State) (b : Bundle) : State :=
  { s with fw := { s.fw with run := s.fw.run.map fun r => { r with bundle := some b } } }

/-- Step 2 with the staged bundle (R509): it is verified in place. -/
def State.verifyStaged (s : State) (go : State → State) : State :=
  match s.fw.staged with
  | none => s.failStart 1
  | some b =>
    let (s1, ok) := s.stageBundle b 2
    if ok then go (s1.useBundle b) else s1.failStart 2

/-- Records of module flash that fail their tag (R506), by row number from 0. -/
def State.flashErrors (s : State) (bad : List (BitVec 4)) : State :=
  let s1 := bad.foldl (fun s i => s.raise 0x0B0D .error [(1, i.toNat), (1, 0)]) s
  let has (n : Nat) : Bool := bad.any fun i => i.toNat == n
  let s2 : State := if has 4 then { s1 with pool := { s1.pool with flashRetired := [], suspectLog := [] } } else s1
  let s3 : State := if has 5 then
      { s2 with mem := { s2.mem with spareUsed := [], cmdUsed := [], stks := stacksFor [] [] }
                lnk := { s2.lnk with ports := s2.lnk.ports.map fun k => { k with laneMap := 0, laneMapTx := 0 } } }
    else s2
  let s4 : State := if has 6 then
      { s3 with lnk := { s3.lnk with ports := s3.lnk.ports.map fun k => { k with planAct := 0, planShd := 0 } } }
    else s3
  let s5 : State := if has 7 then
      { s4 with lnk := { s4.lnk with ltRoot := LnkState.init.ltRoot }, rcv := RecState.init
                pwr := { s4.pwr with capLocal := PwrState.init.capLocal, fallback := PwrState.init.fallback } }
    else s4
  if has 8 then { s5 with pwr := { s5.pwr with resets := [] } } else s5

/-- The power registers at a cold start (R480, R481): no grant is in force. -/
def State.coldPwr (s : State) : State := { s with pwr := { s.pwrStart with grant := none, fallbackOn := false } }

/-- A cold start begins (R508 steps 1 and 2). -/
def State.beginCold (s : State) (bad : List (BitVec 4)) (t : Training) (staged : Bool) : State :=
  let s1 := s.blank.flashErrors bad
  let s2 : State := { s1.coldPwr with pwr := s1.coldPwr.pwr.showCap }
  if bad.any fun i => i = 0 ∨ i = 1 ∨ i = 3 then (s2.atStep 1).failStart 3
  else if bad.any fun i => i = 2 then (s2.atStep 1).failStart 5
  else if staged then (s2.atStep 2).verifyStaged fun s => s.coldOn t
  else s2.atStep 2

/-- A start begins (R507 to R510). -/
def State.beginStart (s : State) (req : StartReq) (bad : List (BitVec 4)) (t : Training) : State :=
  let kind := s.kindOf req
  let staged := req.staged ∧ kind ≠ .warm ∧ (req.kind = .cold ∨ ¬ s.fw.activeBad)
  let s0 := if s.fw.act.any fun a => a.began.isSome then s.cancelAct 2 else s
  let f : FwState := { s0.fw with
    run := some ⟨{ req with kind := kind, staged := decide staged }, s.ns, if kind = .cold then 1 else 2, 0, none, none, none⟩
    waiting := [], retryFrom := none, start := BitVec.ofNat 3 kind.code, stage := if kind = .cold then 1 else 2
    starts := satInc s0.fw.starts, haltPower := false, haltDisp := false, haltBox := [] }
  let s1 : State := { s0 with fw := f, hif := { s0.hif with fwUp := false, depotExit := false } }
  match kind with
  | .cold => s1.beginCold bad t (decide staged)
  | .warm =>
    let (s2, ok) := (s1.warmReset req.clear).warmTrain t
    if ok then s2.loadImages else (s2.atStep 8).failStart 7
  | .reload =>
    if staged then (s1.verifyStaged fun s => s.reloadReset.loadImages) else s1.reloadReset.loadImages

/-- Every die is below 70 degrees (R479). -/
def PwrState.cool (p : PwrState) : Bool := p.nine.all fun d => d.temp.toNat < 70

/-- A start may begin: none is in progress, and a thermal trip has cooled down (R479). -/
def State.mayBegin (s : State) : Bool := s.fw.run.isNone && !(s.pwr.off == .trip && !s.pwr.cool)

/-- The next of the waiting requests begins once the start in progress has ended (R507). -/
def State.nextStart (s : State) (bad : List (BitVec 4)) (t : Training) : State :=
  if s.mayBegin then
    match mergeReqs s.fw.waiting with
    | none => s
    | some r => s.beginStart r bad t
  else s

/-- A start is asked for (R507): it begins at once, or waits. -/
def State.askStart (s : State) (req : StartReq) (bad : List (BitVec 4)) (t : Training) : State :=
  let s1 : State := { s with fw := { s.fw with waiting := s.fw.waiting ++ [req] } }
  s1.nextStart bad t

/-- What follows the last event of a start: the capability table is copied (R52), and a detach and holds that waited for
the start act (R381, R441). -/
def State.openUp (s : State) : State :=
  let s1 := ({ s with pool := { s.pool with levels := s.fw.active.levels } } : State).copyCaps
  let s2 : State := { s1 with pool := { s1.pool with measured := [s1.capWord 2, s1.capWord 3, s1.capWord 4] } }
  s2.lateDetach.deferredHolds

/-- A start completes (R505, R511, R512): every loaded core has reported ready and FW_UP is set. -/
def State.completeStart (s : State) : State :=
  match s.fw.run with
  | none => s
  | some r =>
    if r.step ≠ 14 then s
    else
      let ms := (((s.ns : Int) - r.began) / 1000000).toNat
      let fails := s.fw.fails.toNat
      let s1 := match r.bundle with
        | some b => s.install b
        | none => { s with fw := { s.fw with format := s.fw.active.hoCur } }
      let f : FwState := { s1.fw with run := none, stage := 0x1F, fails := 0, depot := false, lastMs := BitVec.ofNat 16 (min 0xFFFF ms) }
      let h : HifState := { s1.hif with fwUp := true, start := BitVec.ofNat 3 r.req.kind.code, depotExit := s.fw.depot }
      let s2 := ({ s1 with fw := f, hif := h } : State).setPwr { s1.pwr with pcUp := true, resetEmerg := false }
      let s3 := s2.raise 0x0B04 .info [(1, r.req.kind.code), (4, min 0xFFFFFFFF ms), (1, fails)]
      match r.bundle with
      | some b => (s3.raiseFloor b).openUp
      | none => s3.openUp

end Sys2Proof.Machine
end

