-- ==== Sys2Proof/Machine/Power.lean ====
section
/-!
DEFINITION. Power inputs, supply monitors, temperatures, the cap and its controller (R467 to R495).
-/

namespace Sys2Proof.Machine

/-! ### Inputs (R468 to R474) -/

/-- AUX_12V_PRESENT (R468, R549): the always-on domain comes up and samples SLOT_ID. -/
def State.auxOn (s : State) (slot : BitVec 3) : State :=
  if s.pwr.aux then s
  else { s with pwr := { s.pwr with aux := true, bandFrom := s.ns }, fw := { s.fw with slotId := slot } }

/-- AUX_12V_ABSENT (R468, R501, R518): the module is unpowered; module flash keeps its records (R506). -/
def State.auxOff (s : State) : State :=
  if ¬ s.pwr.aux then s
  else
    let b := s.blank
    let p : PwrState := { PwrState.init with aux := false, main := false, inrush := .opened, pcUp := false, dies := s.pwr.dies.map (fun d => { DiePower.init with temp := d.temp })
                                             capLocal := s.pwr.capLocal, fallback := s.pwr.fallback, resets := s.pwr.resets }
    let f : FwState := { FwState.init with run := none, fails := s.fw.fails, depot := s.fw.depot, floor := s.fw.floor
                                           minKey := s.fw.minKey, activeBad := true, stage := 0, starts := 0 }
    { b with pwr := p, fw := f, pool := { b.pool with copy := [], measured := [] } }

/-- MAIN_DWELL_ELAPSED (R468, R471): the 48 V input has stayed in band for 100 ms. -/
def State.dwell (s : State) : State :=
  if s.pwr.aux ∧ s.pwr.inrush = .opened ∧ s.pwr.bandFrom + 100000000 ≤ s.ns then
    { s with pwr := { s.pwr with inrush := .charging } }
  else s

/-- INRUSH_CHARGED (R471, R507): the bulk is charged; a cold start begins, or one that waits at step 4 goes on. A retry that
is due, a thermal trip and depot mode have starts of their own. -/
def State.charged (s : State) (bad : List (BitVec 4)) (t : Training) : State :=
  if s.pwr.inrush ≠ .charging then s
  else
    let s1 : State := { s with pwr := { s.pwr with inrush := .closed } }
    match s1.fw.run with
    | some r => if r.step = 4 then s1.coldOn t else s1
    | none =>
      if s1.pwr.main ∨ s1.fw.depot ∨ s1.pwr.off = .trip ∨ s1.fw.retryFrom.isSome then s1
      else s1.askStart ⟨.cold, false, false, false⟩ bad t

/-! ### Resets (R474, R476, R478) -/

/-- The steps of R476: the brake acts, the cause goes to module flash, the event is sent, and the module is in reset. -/
def State.supplyReset (s : State) (off : OffCause) (cause low source code : Nat) (fields : List (Nat × Nat)) : State :=
  let lt := if s.ltRuns then s.ns else 0
  let s1 := s.brake source
  let s2 : State := { s1 with pwr := { s1.pwr with resets := (cause, low, lt) :: s1.pwr.resets, resetEmerg := true } }
  let s3 := s2.raise code .error fields
  match off, s3.fw.run with
  | .rail, some _ => s3.failStart 8
  | .trip, _ =>
    let s4 := s3.mainOff off
    { s4 with fw := { s4.fw with run := none, waiting := [], retryFrom := none } }
  | _, _ =>
    let s4 := s3.mainOff off
    { s4 with fw := { s4.fw with run := none } }

/-- The inrush switch opens: R468 has to be met again. -/
def State.openInrush (s : State) : State := { s with pwr := { s.pwr with inrush := .opened, bandFrom := s.ns } }

/-- OVERVOLTAGE (R474). -/
def State.overvoltage (s : State) (volt : BitVec 16) : State :=
  if ¬ s.pwr.aux ∨ s.pwr.inrush = .opened ∨ volt.toNat ≤ 5900 then s
  else if s.pwr.main then (s.supplyReset .input 3 volt.toNat 4 0x0A0F [(2, volt.toNat)]).openInrush
  else (s.raise 0x0A0F .error [(2, volt.toNat)]).openInrush

/-- INPUT_RESET (R476). -/
def State.inputReset (s : State) (low : BitVec 16) : State :=
  if s.pwr.main ∧ low.toNat < 3800 then (s.supplyReset .input 0 low.toNat 4 0x0A03 [(2, low.toNat)]).openInrush else s

/-- RAIL_RESET (R476). -/
def State.railReset (s : State) (die : BitVec 3) (low : BitVec 10) : State :=
  if s.pwr.main ∧ low.toNat < 420 then (s.supplyReset .rail 1 low.toNat 4 0x0A05 [(1, die.toNat), (2, low.toNat)]).nextStart [] .clean
  else s

/-- RAIL_RESET_RESTART (R476). -/
def State.railRestart (s : State) (bad : List (BitVec 4)) (t : Training) : State :=
  if s.pwr.off = .rail ∧ ¬ s.pwr.main ∧ s.fw.run.isNone ∧ s.pwr.aux ∧ s.pwr.offAt + 1000000000 ≤ s.ns then
    s.askStart ⟨.cold, false, false, false⟩ bad t
  else s

/-! ### Supply warnings (R475, R477) -/

/-- INPUT_WARN: every array at 25 % duty, every rail at 0.55 V or lower, HBM at 50 % of bursts. -/
def State.inputWarn (s : State) (volt : BitVec 16) : State :=
  let p := s.pwr
  if ¬ p.main ∨ p.inWarn ∨ 4200 ≤ volt.toNat ∨ volt.toNat < 3800 then s
  else
    let p1 := (List.range 8).foldl (fun p n => p.modDie n fun d => { d with rail := BitVec.ofNat 10 (min d.rail.toNat 550) }) p
    let s1 := s.setPwr { p1 with inWarn := true, inAt := s.ns, inLow := volt.toNat }
    s1.raise 0x0A01 .warning [(2, volt.toNat), (2, p.watts.toNat)]

/-- INPUT_WARN_CLEAR: 1 ms at or above 43.0 V; `low` is the lowest voltage seen. -/
def State.inputClear (s : State) (low : BitVec 16) : State :=
  let p := s.pwr
  if ¬ p.inWarn ∨ s.ns < p.inAt + 1000000 then s
  else
    let s1 := s.setPwr { p with inWarn := false }
    s1.raise 0x0A02 .info [(1, 0), (1, 0xFF), (4, (s.ns - p.inAt) / 1000), (2, min p.inLow low.toNat)]

/-- RAIL_WARN: the arrays of the die at 25 % duty. -/
def State.railWarn (s : State) (die : BitVec 3) (rail : BitVec 10) : State :=
  let p := s.pwr
  let n := die.toNat
  if ¬ p.main ∨ (p.die n).railWarn ∨ 460 ≤ rail.toNat ∨ rail.toNat < 420 then s
  else
    let s1 := s.setPwr (p.modDie n fun d => { d with railWarn := true, railAt := s.ns, railLow := rail.toNat })
    s1.raise 0x0A04 .warning [(1, n), (2, rail.toNat), (2, (p.die n).rail.toNat)]

/-- RAIL_WARN_CLEAR: 100 us at or above 0.48 V. -/
def State.railClear (s : State) (die : BitVec 3) (low : BitVec 10) : State :=
  let p := s.pwr
  let n := die.toNat
  let d := p.die n
  if ¬ d.railWarn ∨ s.ns < d.railAt + 100000 then s
  else
    let s1 := s.setPwr (p.modDie n fun d => { d with railWarn := false })
    s1.raise 0x0A02 .info [(1, 1), (1, n), (4, (s.ns - d.railAt) / 1000), (2, min d.railLow low.toNat)]

/-! ### Temperature (R478, R479) -/

/-- THERMAL_THROTTLE: the power core lowers the die's rail by 5 mV; the event marks the beginning. The I/O die's rail is
fixed (R469). -/
def State.thermThrottle (s : State) (die : BitVec 4) (temp : BitVec 8) : State :=
  let p := s.pwr
  let n := die.toNat
  let d := p.die n
  if ¬ p.main ∨ ¬ p.pcUp ∨ 8 ≤ n ∨ (¬ d.throttle ∧ temp.toNat < 95) ∨ temp.toNat < 93 then s
  else
    let rail := BitVec.ofNat 10 (max 500 (d.rail.toNat - 5))
    let s1 := s.setPwr (p.modDie n fun d => { d with throttle := true, temp := temp, rail := if rail.toNat < d.rail.toNat then rail else d.rail })
    if d.throttle then s1 else s1.raise 0x0A06 .info [(1, n), (1, temp.toNat), (2, (s1.pwr.die n).rail.toNat)]

/-- THERMAL_THROTTLE_END: below 93 degrees. -/
def State.throttleEnd (s : State) (die : BitVec 4) (temp : BitVec 8) : State :=
  let p := s.pwr
  if ¬ p.main ∨ ¬ p.pcUp ∨ 93 ≤ temp.toNat then s
  else s.setPwr (p.modDie die.toNat fun d => { d with throttle := false, temp := temp })

/-- THERMAL_WARN: the arrays of the die at 25 % duty. -/
def State.thermWarn (s : State) (die : BitVec 4) (temp : BitVec 8) : State :=
  let p := s.pwr
  let n := die.toNat
  if ¬ p.main ∨ (p.die n).thermWarn ∨ temp.toNat < 100 then s
  else
    let s1 := s.setPwr (p.modDie n fun d =>
      { d with thermWarn := true, temp := temp, thermAt := s.ns, thermHigh := temp.toNat, tripWarned := false })
    s1.raise 0x0A07 .error [(1, n), (1, temp.toNat)]

/-- THERMAL_WARN_CLEAR: below 97 degrees; `high` is the highest temperature seen. -/
def State.thermClear (s : State) (die : BitVec 4) (temp high : BitVec 8) : State :=
  let p := s.pwr
  let n := die.toNat
  let d := p.die n
  if ¬ p.aux ∨ ¬ d.thermWarn ∨ 97 ≤ temp.toNat then s
  else
    let s1 := s.setPwr (p.modDie n fun d => { d with thermWarn := false, temp := temp })
    s1.raise 0x0A02 .info [(1, 2), (1, n), (4, (s.ns - d.thermAt) / 1000), (2, max d.thermHigh high.toNat)]

/-- THERMAL_TRIP_WARNING: 100 ms of a thermal warning; dispatcher firmware raises a hold of cause 1. -/
def State.tripWarning (s : State) (die : BitVec 4) : State :=
  let p := s.pwr
  let n := die.toNat
  let d := p.die n
  if ¬ p.main ∨ ¬ p.pcUp ∨ ¬ s.hif.fwUp ∨ ¬ d.thermWarn ∨ d.tripWarned ∨ s.ns < d.thermAt + 100000000 then s
  else (s.setPwr (p.modDie n fun d => { d with tripWarned := true })).ownFault

/-- THERMAL_TRIP. -/
def State.thermTrip (s : State) (die : BitVec 4) (temp : BitVec 8) : State :=
  if ¬ s.pwr.main ∨ temp.toNat < 105 then s
  else
    let s1 := s.setPwr (s.pwr.modDie die.toNat fun d => { d with temp := temp })
    s1.supplyReset .trip 2 temp.toNat 5 0x0A08 [(1, die.toNat), (1, temp.toNat)]

/-- TRIP_COOLDOWN (R479): the temperatures of the nine dies, each below 70 degrees. -/
def State.cooldown (s : State) (temps : List (BitVec 8)) (bad : List (BitVec 4)) (t : Training) : State :=
  if s.pwr.off ≠ .trip ∨ s.pwr.main ∨ ¬ s.pwr.aux ∨ temps.length ≠ 9 ∨ temps.any fun x => 70 ≤ x.toNat then s
  else
    let p := temps.zipIdx.foldl (fun p x => p.modDie x.2 fun d => { d with temp := x.1 }) s.pwr
    (s.setPwr p).nextStart bad t

/-! ### Grants (R480 to R482) -/

/-- A sequence number is later than another, modulo 2^16 over half the range (R481). -/
def seqLater (a b : BitVec 16) : Bool := a != b && decide ((a - b).toNat < 0x8000)

/-- POWER_GRANT (R481). -/
def State.takeGrant (s : State) (watts seq life : BitVec 16) : State :=
  let p := s.pwr
  let fresh : Bool := match p.grant with
    | none => true
    | some g => seqLater seq g.seq
  if ¬ p.aux ∨ ¬ fresh then s
  else
    let w := capWatts watts.toNat
    let ends := if life = 0 then none else some (s.ns + 1000000000 * life.toNat)
    let p1 : PwrState := { p with grant := some ⟨BitVec.ofNat 12 w, seq, ends, life.toNat⟩, fallbackOn := false }
    let s1 := (s.setPwr p1.capChanged).raise 0x0A0B .info [(2, w), (2, seq.toNat), (2, life.toNat)]
    if watts.toNat < 600 then s1.raise 0x0A0C .warning [(2, watts.toNat), (2, w)] else s1

/-- GRANT_EXPIRY (R480, R481). -/
def State.grantExpiry (s : State) : State :=
  let p := s.pwr
  match p.grant with
  | none => s
  | some g =>
    let due : Bool := match g.ends with
      | some e => decide (e ≤ s.ns)
      | none => false
    if ¬ p.aux ∨ p.fallbackOn ∨ ¬ due then s
    else
      let p1 : PwrState := { p with fallbackOn := true }
      (s.setPwr p1.capChanged).raise 0x0A0D .warning [(2, g.watts.toNat), (2, capWatts p.fallback.toNat)]

/-! ### The cap controller (R483 to R491) -/

/-- The beat rates of R43 at 25, 60 and 95 degrees, in units of 10 million beats a second, from 0.50 V in steps of 0.05 V. -/
def beatRow : List (Nat × Nat × Nat) :=
  [(41, 45, 48), (58, 61, 63), (75, 76, 76), (91, 90, 88), (100, 98, 95), (108, 105, 101), (114, 110, 105)]

/-- A row of R43 at a temperature, times 35: linear between its points; the 95-degree column holds above it (R44). -/
def rowAt (r : Nat × Nat × Nat) (temp : Nat) : Nat :=
  let t := min 95 (max 25 temp)
  if t ≤ 60 then r.1 * (60 - t) + r.2.1 * (t - 25) else r.2.1 * (95 - t) + r.2.2 * (t - 60)

/-- The beat rate at a rail [mV], in units of 10 million beats a second times 35 times 50. -/
def beatRate (rail temp : Nat) : Nat :=
  let v := min 800 (max 500 rail)
  let i := min 5 ((v - 500) / 50)
  let f := v - 500 - 50 * i
  let a := rowAt (beatRow.getD i (0, 0, 0)) temp
  let b := rowAt (beatRow.getD (i + 1) (0, 0, 0)) temp
  a * (50 - f) + b * f

/-- I_swing (R489) [uA]: the current of every active array at full duty at its present rail. A MAC costs 0.09 pJ at 0.65 V,
an array makes 8,192 of them a beat, and energy goes with the square of the rail. -/
def State.swing (s : State) (rails : List Nat) (volt : Nat) : Nat :=
  let one (d : Nat) : Nat :=
    let n := ((dieCells d).filter fun id => (s.cell id).inSet).length
    let r := rails.getD d 650
    n * beatRate r (s.pwr.die d).temp.toNat * r * r
  -- sum x 10^7 / 1750 beats a second x 8192 x 0.09 pJ / 650^2, over volt / 100 V, in uA
  ((List.range 8).map one).sum * (8192 * 90) / (1750 * 422500 * max 1 volt)

/-- RAMP (R489). -/
def rampFor (swing : Nat) : Nat := min 255 (max 8 ((swing + 999999) / 1000000))

/-- A value has moved by more than 2 % (R489). -/
def moved (a b : Nat) : Bool := decide (2 * a < 100 * (max a b - min a b))

/-- The power core writes CL_MX_BALLAST_CFG in every signal box (R489). -/
def State.paceBallast (s : State) : State :=
  let p := s.pwr
  let now := ((List.range 8).map fun d => (p.die d).rail.toNat) ++ [p.volt.toNat]
  let again := p.rampFor.length ≠ 9 ∨ (p.rampFor.zip now).any fun x => moved x.1 x.2
  let last := bitsOf (s.box 0).ballastCfg.toNat 23 16
  let ramp := if again then rampFor (s.swing now p.volt.toNat) else last
  let cfg (die : Nat) : BitVec 32 :=
    let d := p.die die
    BitVec.ofNat 32 (ramp * 2 ^ 16 + 40 * 2 ^ 8 + if p.inWarn || d.railWarn || d.thermWarn then 0 else 1)
  let boxes := (List.range 72).map fun n => (16 * (n / 9) + n % 9, n / 9)
  let s1 := boxes.foldl (fun s b => s.setBox b.1 { s.box b.1 with ballastCfg := cfg b.2 }) s
  { s1 with pwr := { s1.pwr with rampFor := if again then now else p.rampFor } }

/-- The ballast energy of R491: 0.74 nJ a beat at 0.65 V, with the square of the rail. -/
def State.sumBallast (s : State) : State :=
  let now := s.dieBeats
  let p := s.pwr
  let add := ((List.range 8).map fun d =>
    let r := (p.die d).rail.toNat
    (Sparse.at 0 now d - Sparse.at 0 p.ballastSeen d) * 74 * r * r).sum
  { s with pwr := { p with ballast := p.ballast + add, ballastSeen := now } }

/-- PWR_BALLAST [mJ] (R491, R494): 74 x 10^-11 J x (rail / 650 mV)^2 a beat. -/
def PwrState.ballastMj (p : PwrState) : Nat := p.ballast / 42250000000000

/-- A supply warning is in force (R475). -/
def PwrState.warned (p : PwrState) : Bool := p.inWarn || (List.range 8).any fun n => (p.die n).railWarn

/-- A rail the controller chooses lies between 0.50 V and 0.80 V in steps of 5 mV (R42); while a supply warning is in force no
rail rises (R475), nor does one that is throttled (R478). -/
def DiePower.railTo (d : DiePower) (warned : Bool) (r : Nat) : BitVec 10 :=
  let v := 5 * (min 800 (max 500 r) / 5)
  if warned || d.throttle then BitVec.ofNat 10 (min v d.rail.toNat) else BitVec.ofNat 10 v

/-- CONTROL_PERIOD (R482, R483, R489, R491): the controller's rails, duty and HBM limits for dies 0 to 7, and what the
monitors read. A duty limit that a warning set is not lifted (R475): `dutyOf` keeps it. -/
def State.controlPeriod (s : State) (rails : List (BitVec 10)) (duty hbm : List (BitVec 7)) (temps : List (BitVec 8))
    (volt : BitVec 16) (watts : BitVec 12) : State :=
  let p := s.pwr
  if ¬ p.main ∨ ¬ p.pcUp ∨ s.ns < p.periodAt + 100000 then s
  else
    let s1 := s.sumBallast
    let step (k : PwrState) (n : Nat) : PwrState := k.modDie n fun d =>
      { d with
        rail := if n < 8 then (match rails[n]? with | some r => d.railTo p.warned r.toNat | none => d.rail) else d.rail
        duty := match duty[n]? with | some x => BitVec.ofNat 7 (min 100 x.toNat) | none => d.duty
        hbm := match hbm[n]? with | some x => BitVec.ofNat 7 (min 100 x.toNat) | none => d.hbm
        temp := (temps[n]?).getD d.temp
        hwLimit := false }
    let p1 := (List.range 9).foldl step { s1.pwr with volt := volt, watts := watts, hwLimit := false, periodAt := s.ns }
    (s1.setPwr p1.showCap).paceBallast

/-- CAP_TABLE_COMMIT (R485). -/
def State.capCommit (s : State) : State :=
  let p := s.pwr
  if p.main ∧ p.pcUp ∧ p.tableAt + 10000000 ≤ s.ns then
    { s with pwr := { p with table := p.shadow, capVer := p.capVer + 1, tableAt := s.ns } }
  else s

/-- Two numbers differ by more than a share of a cap, in per cent (R487). -/
def apart (a b cap pct : Nat) : Bool := decide (cap * pct < 100 * (max a b - min a b))

/-- ESTIMATE_UNTRUSTED (R487): the phases that ran in the last 2 ms lose their entries. -/
def State.untrust (s : State) (estimate measured : BitVec 16) (phases : List (BitVec 16)) : State :=
  let p := s.pwr
  if ¬ p.main ∨ ¬ p.pcUp ∨ p.untrusted ∨ ¬ apart estimate.toNat measured.toNat p.capEff.toNat 12 then s
  else
    let gone := phases.filter fun t => p.shadow.any fun e => e.tag = t
    let p1 : PwrState := { p with untrusted := true, untrustedAt := s.ns, cleared := gone
                                  shadow := p.shadow.filter fun e => !phases.contains e.tag }
    (s.setPwr p1).raise 0x0A09 .warning
      [(2, estimate.toNat), (2, measured.toNat), (2, p.capEff.toNat), (2, gone.length), (2, ((gone.head?).getD 0).toNat)]

/-- ESTIMATE_TRUSTED (R487). -/
def State.trust (s : State) (estimate measured : BitVec 16) : State :=
  let p := s.pwr
  if ¬ p.main ∨ ¬ p.pcUp ∨ ¬ p.untrusted ∨ apart estimate.toNat measured.toNat p.capEff.toNat 6 ∨ s.ns < p.untrustedAt + 20000000 then s
  else
    let back := p.cleared.filter fun t => p.shadow.any fun e => e.tag = t
    (s.setPwr { p with untrusted := false, cleared := [] }).raise 0x0A0A .info
      [(2, back.length), (4, (s.ns - p.untrustedAt) / 1000000)]

/-- HW_LIMIT (R488): every die at 50 % duty until the next control period. -/
def State.hwLimit (s : State) (average : BitVec 16) : State :=
  let p := s.pwr
  if ¬ p.main ∨ p.hwLimit ∨ average.toNat * 100 ≤ 108 * p.capEff.toNat then s
  else
    let p1 : PwrState := (List.range 8).foldl (fun p n => p.modDie n fun d => { d with hwLimit := true }) { p with hwLimit := true }
    (s.setPwr p1).raise 0x0A0E .warning [(2, average.toNat), (2, p.capEff.toNat)]

/-! ### Rows -/

/-- A die number of the power rows: 0 to 7, or 8 for the I/O die. -/
def withDie (die : BitVec 4) (s : State) : Out := if die.toNat ≤ 8 then .next s else .fault (.noSuchPart 478)

/-- AUX_12V_PRESENT (R468). -/
def execAux12vPresent (slot : BitVec 3) (s : State) : Out := .next (s.auxOn slot)
/-- AUX_12V_ABSENT (R468). -/
def execAux12vAbsent (s : State) : Out := .next s.auxOff
/-- MAIN_DWELL_ELAPSED (R468). -/
def execMainDwellElapsed (s : State) : Out := .next s.dwell
/-- INRUSH_CHARGED (R471). -/
def execInrushCharged (flash : List (BitVec 4)) (found : Training) (s : State) : Out := .next (s.charged flash found)
/-- OVERVOLTAGE (R474). -/
def execOvervoltage (volt : BitVec 16) (s : State) : Out := .next (s.overvoltage volt)
/-- INPUT_WARN (R475). -/
def execInputWarn (volt : BitVec 16) (s : State) : Out := .next (s.inputWarn volt)
/-- INPUT_WARN_CLEAR (R475). -/
def execInputWarnClear (low : BitVec 16) (s : State) : Out := .next (s.inputClear low)
/-- INPUT_RESET (R476). -/
def execInputReset (low : BitVec 16) (s : State) : Out := .next (s.inputReset low)
/-- RAIL_WARN (R475). -/
def execRailWarn (die : BitVec 3) (rail : BitVec 10) (s : State) : Out := .next (s.railWarn die rail)
/-- RAIL_WARN_CLEAR (R475). -/
def execRailWarnClear (die : BitVec 3) (low : BitVec 10) (s : State) : Out := .next (s.railClear die low)
/-- RAIL_RESET (R476). -/
def execRailReset (die : BitVec 3) (low : BitVec 10) (s : State) : Out := .next (s.railReset die low)
/-- RAIL_RESET_RESTART (R476). -/
def execRailResetRestart (flash : List (BitVec 4)) (s : State) : Out := .next (s.railRestart flash .clean)
/-- THERMAL_THROTTLE (R478). -/
def execThermalThrottle (die : BitVec 4) (temp : BitVec 8) (s : State) : Out := withDie die (s.thermThrottle die temp)
/-- THERMAL_THROTTLE_END (R478). -/
def execThermalThrottleEnd (die : BitVec 4) (temp : BitVec 8) (s : State) : Out := withDie die (s.throttleEnd die temp)
/-- THERMAL_WARN (R478). -/
def execThermalWarn (die : BitVec 4) (temp : BitVec 8) (s : State) : Out := withDie die (s.thermWarn die temp)
/-- THERMAL_WARN_CLEAR (R478). -/
def execThermalWarnClear (die : BitVec 4) (temp high : BitVec 8) (s : State) : Out := withDie die (s.thermClear die temp high)
/-- THERMAL_TRIP_WARNING (R478). -/
def execThermalTripWarning (die : BitVec 4) (s : State) : Out := withDie die (s.tripWarning die)
/-- THERMAL_TRIP (R478). -/
def execThermalTrip (die : BitVec 4) (temp : BitVec 8) (s : State) : Out := withDie die (s.thermTrip die temp)
/-- TRIP_COOLDOWN (R479). -/
def execTripCooldown (temps : List (BitVec 8)) (flash : List (BitVec 4)) (found : Training) (s : State) : Out :=
  .next (s.cooldown temps flash found)
/-- POWER_GRANT (R481). -/
def execPowerGrant (watts seq life : BitVec 16) (s : State) : Out := .next (s.takeGrant watts seq life)
/-- GRANT_EXPIRY (R480). -/
def execGrantExpiry (s : State) : Out := .next s.grantExpiry
/-- CONTROL_PERIOD (R483). -/
def execControlPeriod (rails : List (BitVec 10)) (duty hbm : List (BitVec 7)) (temps : List (BitVec 8)) (volt : BitVec 16)
    (watts : BitVec 12) (s : State) : Out := .next (s.controlPeriod rails duty hbm temps volt watts)
/-- CAP_TABLE_COMMIT (R485). -/
def execCapTableCommit (s : State) : Out := .next s.capCommit
/-- ESTIMATE_UNTRUSTED (R487). -/
def execEstimateUntrusted (estimate measured : BitVec 16) (phases : List (BitVec 16)) (s : State) : Out :=
  .next (s.untrust estimate measured phases)
/-- ESTIMATE_TRUSTED (R487). -/
def execEstimateTrusted (estimate measured : BitVec 16) (s : State) : Out := .next (s.trust estimate measured)
/-- HW_LIMIT (R488). -/
def execHwLimit (average : BitVec 16) (s : State) : Out := .next (s.hwLimit average)

end Sys2Proof.Machine
end

