-- ==== Sys2Proof/Machine/Clock.lean ====
section
/-!
DEFINITION. What time brings by itself (R44, R410, R411, R493, R494, R541): line time, the energy counter, the throttle
counter, and the beats of the dies. A step with no command waiting is one tick (log entry 10).
-/

namespace Sys2Proof.Machine

/-- Line time goes on by `quantum` nanoseconds, with the rate correction in force (R410, R411). -/
def State.tickLine (s : State) : State :=
  let step : Int := 8 * s.quantum * (1000000 + s.lnk.ltRate) + s.lnk.ltFrac
  { s with lt8 := s.lt8 + (step / 1000000).toNat, lnk := { s.lnk with ltFrac := (step % 1000000).toNat } }

/-- Energy taken in (R493): it runs while the 12 V input is present. -/
def PwrState.tickEnergy (p : PwrState) (ns : Nat) : PwrState :=
  if p.aux then
    let n := p.energyFrac + p.watts.toNat * ns
    { p with energy := p.energy + BitVec.ofNat 64 (n / 1000000), energyFrac := n % 1000000 }
  else p

/-- PWR_THROTTLE (R494): milliseconds with a bit of PWR_STATUS.THROTTLE set, saturating. -/
def PwrState.tickThrottle (p : PwrState) (ns : Nat) : PwrState :=
  if p.main ∧ (List.range 8).any p.limited then
    let n := p.throttleNs + ns
    { p with throttleMs := BitVec.ofNat 32 (min 0xFFFFFFFF (p.throttleMs.toNat + n / 1000000)), throttleNs := n % 1000000 }
  else p

/-- The share of its nominal rate a die runs at [per cent] (R44), from a free value: 94 to 104 in the stated band, at
least 95 above 95 degrees. -/
def ratePercent (temp n : Nat) : Nat := if 95 < temp then 95 + n else 94 + n % 11

/-- What a rail below 0.50 V leaves of the beat rate (R44): a sum of free steps, one for each millivolt, each above zero,
so that the rate falls as the rail falls and stays above zero. -/
def sagSum (temp rail : Nat) : Nat := ((List.range (rail + 1)).map fun v => 1 + Config.sagStep temp v % 100).sum

/-- The rail of a die: its set value, or, while its warning is in force, the lowest the comparator has reported (R475). -/
def DiePower.volts (d : DiePower) : Nat := if d.railWarn then d.railLow else d.rail.toNat

/-- The beats of one die over some nanoseconds, in 1/17,500,000 of a beat. -/
def DiePower.beats (d : DiePower) (ns n : Nat) : Nat :=
  let t := d.temp.toNat
  let v := d.volts
  if v < 500 then beatRate 500 t * ns * 94 * sagSum t v / sagSum t 500 else beatRate v t * ns * ratePercent t n

/-- DBG_DIE_RATE at the end of a window of 1,000,000 ns (R541). -/
def windowRate (now mark span : Nat) : BitVec 16 := BitVec.ofNat 16 (min 0xFFFF ((now - mark) * 1000 / (17500000 * span)))

/-- The dies count their beats while they are powered (R522, R541). -/
def State.tickBeats (s : State) : State :=
  if ¬ s.pwr.main then s
  else
    let d := s.dbg
    let beats : Vector Nat (2 ^ 3) := Vector.ofFn fun i =>
      d.beats[i] + (s.pwr.die i.val).beats s.quantum (Config.freeNat (s.free + i.val))
    let d1 : DbgState := { d with beats := beats }
    let d2 : DbgState :=
      if d.beatAt + 1000000 ≤ s.ns then
        { d1 with rate := Vector.ofFn fun i => windowRate beats[i] d.beatMark[i] (s.ns - d.beatAt), beatMark := beats, beatAt := s.ns }
      else d1
    { s with free := s.free + 8, dbg := d2 }

/-- One tick. -/
def State.tick (s : State) : State :=
  let s1 := s.tickLine
  let s2 : State := { s1 with pwr := (s1.pwr.tickEnergy s.quantum).tickThrottle s.quantum }
  s2.tickBeats

end Sys2Proof.Machine
end

