-- ==== Sys2Proof/Machine/Collective.lean ====
section
/-!
DEFINITION. The rows of collectives (R423 to R435): contributions, DATA, ACK and ABORT packets, the island stage, timeouts
and the commit of the group table.
-/

namespace Sys2Proof.Machine

/-- The header from its wire fields (R432). -/
def ColHdr.of (src : BitVec 15) (group : BitVec 12) (ver : BitVec 16) (opseq stage : BitVec 32) : ColHdr where
  src := src.toNat
  group := group.toNat
  ver := ver.toNat
  n := opseq.toNat
  gather := stage.getLsbD 31
  code := bitsOf stage.toNat 30 29
  step := bitsOf stage.toNat 28 16
  slot := bitsOf stage.toNat 10 0

/-- Bytes with the poison of their 8-byte lanes (R387). -/
def lanePoison (data : List Byte) (lanes : List Nat) : List (Byte × Bool) :=
  data.zipIdx.map fun b => (b.1, lanes.contains (b.2 / 8))

/-- An operation has ended, or been ended, at this module: its turn has passed and it is not in progress (R424, R433). -/
def State.opGone (s : State) (g n slot : Nat) : Bool :=
  let p := (s.group g).place n slot
  (s.col.find g n slot).isNone && (decide (p < s.col.turn.at 0 g) || s.col.dead.contains (g, p))

/-- COL_CONTRIBUTION (R424): the oldest contribution on its way reaches the engine; it is numbered, and admitted, made to
wait, or ended with its operation. -/
def State.contribution (s : State) : State :=
  match s.col.coming with
  | [] => s
  | c :: rest =>
    let (col, n) := s.col.number c
    let s1 : State := { s with col := { col with coming := rest } }
    if s1.opGone c.group n c.slot then s1.endPart c stPath
    else (({ s1 with col := { s1.col with waiting := s1.col.waiting ++ [(c, n)] } } : State).admitAll).colPaths

/-- A packet's version does not match, or its group has no valid entry here (R435): it is discarded, the event is raised,
and the operation ends with cause 3. -/
def State.verMismatch (s : State) (h : ColHdr) (mine : Nat) : State :=
  let s1 := s.verEvent h mine
  match s1.col.find h.group h.n h.slot with
  | some o => (s1.endOp o 3 s.own).admitAll
  | none => if s1.opGone h.group h.n h.slot ∨ (s.group h.group).mode = 0 then s1
    else (s1.endWaiting h.group h.n h.slot 3 s.own).admitAll

/-- Run a packet of an operation in progress whose version matches; another is discarded, ends its operation, or waits
until its operation is admitted (R424, R433, R435). -/
def State.withOp (s : State) (h : ColHdr) (waits : State) (f : ColOp → State) : State :=
  match s.col.find h.group h.n h.slot with
  | some o => if o.entry.f 0 15 0 = h.ver then f o else s.verMismatch h (o.entry.f 0 15 0)
  | none =>
    let e := s.group h.group
    if e.mode ≠ 0 ∧ s.opGone h.group h.n h.slot then s
    else if e.mode = 0 ∨ e.f 0 15 0 ≠ h.ver then s.verMismatch h (e.f 0 15 0)
    else waits

/-- COL_DATA (R432): a DATA packet is added or stored and acknowledged, and the ring goes on; one of an operation that is
not admitted yet waits at the engine's input. -/
def State.colData (s : State) (h : ColHdr) (offset : Nat) (bytes : List (Byte × Bool)) : State :=
  let d : EarlyData := ⟨h, offset, bytes⟩
  if ¬ s.memRuns then s
  else s.withOp h { s with col := { s.col with early := s.col.early ++ [d] } } fun o => (s.takeData o d).colPaths

/-- An acknowledgement of a DATA packet of an operation (R432). -/
def State.acked (s : State) (o : ColOp) : State := s.colPut { o with unacked := o.unacked - 1 }

/-- COL_ACK (R432). -/
def State.colAck (s : State) (h : ColHdr) : State := if s.memRuns then s.withOp h s s.acked else s

/-- COL_ABORT (R433 cause 1): the operation ends here and the ABORT is passed on. -/
def State.colAbort (s : State) (h : ColHdr) : State :=
  if ¬ s.memRuns ∨ (s.group h.group).mode = 0 then s
  else
    match s.col.find h.group h.n h.slot with
    | some o => (s.endOp o 1 h.src).admitAll
    | none => if s.opGone h.group h.n h.slot then s else (s.endWaiting h.group h.n h.slot 1 h.src).admitAll

/-- COL_CFG.TIMEOUT [ns] (R437). -/
def ColState.timeout (c : ColState) : Nat := 1000000 * max 1 (bitsOf c.cfg.toNat 15 0)

/-- COL_OP_TIMEOUT (R433 cause 2): an operation that has waited COL_CFG.TIMEOUT for a contribution ends. -/
def State.colTimeout (s : State) (g n slot : Nat) : State :=
  match s.col.find g n slot with
  | none => s
  | some o =>
    if ¬ s.memRuns ∨ o.finished ((s.groupStages o.entry).getD []) ∨ s.ns < o.since + s.col.timeout then s
    else (s.endOp o 2 s.own).admitAll

/-- ISLAND_RDMA_WRITE (R431): a contribution of the island stage, on an Ethernet port that has its link, over a queue pair
that has been set up. -/
def State.islandWrite (s : State) (eth : Bool) (h : ColHdr) (offset : Nat) (bytes : List (Byte × Bool)) : State :=
  let up := (if eth then s.lnk.speed1 else s.lnk.speed0) ≠ 0
  let e := s.group h.group
  if ¬ up ∨ h.code ≠ 3 then s
  else if (Sparse.find s.lnk.qps (e.f 7 23 0)).isNone then
    { s with lnk := { s.lnk with ethRefused := satInc s.lnk.ethRefused } }
  else s.colData h offset bytes

/-- The task whose cell a contribution comes from. -/
def State.taskOf (s : State) (c : Contribution) : Option (BitVec 32) :=
  match c.origin with
  | .part id | .lcoll id => some (s.cell id).task.id
  | .epoch => none

/-- The contribution that reaches the engine, and one of its group in progress here, come from two consists: the results
of both are undefined (R419). -/
def State.mixedGroup (s : State) : Bool :=
  match s.col.coming with
  | [] => false
  | c :: _ =>
    let others := (s.col.ops.filter fun o => o.group == c.group).flatMap ColOp.parts ++
      (s.col.waiting.map Prod.fst).filter fun k => k.group == c.group
    others.any fun k => (s.taskOf k).isSome && (s.taskOf c).isSome && s.taskOf k != s.taskOf c

/-- The results of every contribution to a group here become undefined (R419). -/
def ColState.mix (c : ColState) (g : Nat) : ColState :=
  let mark (k : Contribution) : Contribution := if k.group = g then { k with wild := true } else k
  { c with coming := c.coming.map mark
           waiting := c.waiting.map fun w => (mark w.1, w.2)
           ops := c.ops.map fun o => { o with parts := o.parts.map mark } }

/-- The oldest contribution on its way meets one of another consist to its group (R419). -/
def State.mixed (s : State) : State :=
  match s.col.coming with
  | c :: _ => if s.mixedGroup then { s with col := s.col.mix c.group } else s
  | [] => s

/-! ### Commands -/

/-- COL_CONTRIBUTION (R424). -/
def execColContribution (s : State) : Out := .next (if s.memRuns then s.mixed.contribution else s)

/-- COL_DATA (R432). -/
def execColData (src : BitVec 15) (group : BitVec 12) (ver : BitVec 16) (opseq stage offset : BitVec 32)
    (data : List Byte) (poison : List Nat) (s : State) : Out :=
  .next (s.colData (ColHdr.of src group ver opseq stage) offset.toNat (lanePoison data poison))

/-- COL_ACK (R432). -/
def execColAck (src : BitVec 15) (group : BitVec 12) (ver : BitVec 16) (opseq stage : BitVec 32) (s : State) : Out :=
  .next (s.colAck (ColHdr.of src group ver opseq stage))

/-- COL_ABORT (R433). -/
def execColAbort (src : BitVec 15) (group : BitVec 12) (ver : BitVec 16) (opseq stage : BitVec 32) (s : State) : Out :=
  .next (s.colAbort (ColHdr.of src group ver opseq stage))

/-- COL_OP_TIMEOUT (R433). -/
def execColOpTimeout (group : BitVec 12) (opseq : BitVec 32) (slot : BitVec 11) (s : State) : Out :=
  .next (s.colTimeout group.toNat opseq.toNat slot.toNat)

/-- COL_GT_COMMIT (R423): GO commits. -/
def execColGtCommit (value : BitVec 32) (s : State) : Out :=
  .next (if value.getLsbD 0 ∧ s.pwr.main then s.commitGroups.admitAll else s)

/-- ISLAND_RDMA_WRITE (R431). -/
def execIslandRdmaWrite (eth : Bool) (src : BitVec 15) (group : BitVec 12) (ver : BitVec 16)
    (opseq stage offset : BitVec 32) (data : List Byte) (poison : List Nat) (s : State) : Out :=
  .next (s.islandWrite eth (ColHdr.of src group ver opseq stage) offset.toNat (lanePoison data poison))

end Sys2Proof.Machine
end

