-- ==== Sys2Proof/Machine/CoreAlu.lean ====
section
/-!
DEFINITION. Meanings of the scalar arithmetic and predicate instructions (R90 to R95): each runs its body of `Machine/CoreBody.lean` in the frame of `runCore`.
-/

namespace Sys2Proof.Machine

/-- NOP (R90). -/
def execNop (cell : CellId) (g : BitVec 4) (o : BitVec 22) (s : State) : Out := runCore opNop cell g o s

/-- ALU (R91). -/
def execAlu (cell : CellId) (g : BitVec 4) (o : BitVec 22) (s : State) : Out := runCore opAlu cell g o s

/-- ADDI (R90). -/
def execAddi (cell : CellId) (g : BitVec 4) (o : BitVec 22) (s : State) : Out := runCore opAddi cell g o s

/-- ANDI (R90). -/
def execAndi (cell : CellId) (g : BitVec 4) (o : BitVec 22) (s : State) : Out := runCore opAndi cell g o s

/-- ORI (R90). -/
def execOri (cell : CellId) (g : BitVec 4) (o : BitVec 22) (s : State) : Out := runCore opOri cell g o s

/-- XORI (R90). -/
def execXori (cell : CellId) (g : BitVec 4) (o : BitVec 22) (s : State) : Out := runCore opXori cell g o s

/-- SLLI (R90). -/
def execSlli (cell : CellId) (g : BitVec 4) (o : BitVec 22) (s : State) : Out := runCore opSlli cell g o s

/-- SRLI (R90). -/
def execSrli (cell : CellId) (g : BitVec 4) (o : BitVec 22) (s : State) : Out := runCore opSrli cell g o s

/-- SRAI (R90). -/
def execSrai (cell : CellId) (g : BitVec 4) (o : BitVec 22) (s : State) : Out := runCore opSrai cell g o s

/-- LI (R93). -/
def execLi (cell : CellId) (g : BitVec 4) (o : BitVec 22) (s : State) : Out := runCore opLi cell g o s

/-- LIH (R93). -/
def execLih (cell : CellId) (g : BitVec 4) (o : BitVec 22) (s : State) : Out := runCore opLih cell g o s

/-- CMP (R94). -/
def execCmp (cell : CellId) (g : BitVec 4) (o : BitVec 22) (s : State) : Out := runCore opCmp cell g o s

/-- CMPI (R94). -/
def execCmpi (cell : CellId) (g : BitVec 4) (o : BitVec 22) (s : State) : Out := runCore opCmpi cell g o s

/-- PLOG (R95). -/
def execPlog (cell : CellId) (g : BitVec 4) (o : BitVec 22) (s : State) : Out := runCore opPlog cell g o s

/-- PFROMS (R90). -/
def execPfroms (cell : CellId) (g : BitVec 4) (o : BitVec 22) (s : State) : Out := runCore opPfroms cell g o s

/-- PTOS (R90). -/
def execPtos (cell : CellId) (g : BitVec 4) (o : BitVec 22) (s : State) : Out := runCore opPtos cell g o s

/-- SEL (R95). -/
def execSel (cell : CellId) (g : BitVec 4) (o : BitVec 22) (s : State) : Out := runCore opSel cell g o s

end Sys2Proof.Machine
end

