-- ==== Sys2Proof/Machine/CoreCtl.lean ====
section
/-!
DEFINITION. Meanings of the loop, branch, PUSH, semaphore and system instructions (R102 to R120): each runs its body of `Machine/CoreBody.lean` in the frame of `runCore`.
-/

namespace Sys2Proof.Machine

/-- LCSET (R90). -/
def execLcset (cell : CellId) (g : BitVec 4) (o : BitVec 22) (s : State) : Out := runCore opLcset cell g o s

/-- LCI (R90). -/
def execLci (cell : CellId) (g : BitVec 4) (o : BitVec 22) (s : State) : Out := runCore opLci cell g o s

/-- LOOP (R104). -/
def execLoop (cell : CellId) (g : BitVec 4) (o : BitVec 22) (s : State) : Out := runCore opLoop cell g o s

/-- LSET (R106). -/
def execLset (cell : CellId) (g : BitVec 4) (o : BitVec 22) (s : State) : Out := runCore opLset cell g o s

/-- LBRK (R106). -/
def execLbrk (cell : CellId) (g : BitVec 4) (o : BitVec 22) (s : State) : Out := runCore opLbrk cell g o s

/-- LGET (R106). -/
def execLget (cell : CellId) (g : BitVec 4) (o : BitVec 22) (s : State) : Out := runCore opLget cell g o s

/-- BR (R102). -/
def execBr (cell : CellId) (g : BitVec 4) (o : BitVec 22) (s : State) : Out := runCore opBr cell g o s

/-- CALL (R102). -/
def execCall (cell : CellId) (g : BitVec 4) (o : BitVec 22) (s : State) : Out := runCore opCall cell g o s

/-- JR (R102). -/
def execJr (cell : CellId) (g : BitVec 4) (o : BitVec 22) (s : State) : Out := runCore opJr cell g o s

/-- BZ (R103). -/
def execBz (cell : CellId) (g : BitVec 4) (o : BitVec 22) (s : State) : Out := runCore opBz cell g o s

/-- BNZ (R103). -/
def execBnz (cell : CellId) (g : BitVec 4) (o : BitVec 22) (s : State) : Out := runCore opBnz cell g o s

/-- PUSH (R109). -/
def execPush (cell : CellId) (g : BitVec 4) (o : BitVec 22) (s : State) : Out := runCore opPush cell g o s

/-- SIG (R114). -/
def execSig (cell : CellId) (g : BitVec 4) (o : BitVec 22) (s : State) : Out := runCore opSig cell g o s

/-- WAITS (R114). -/
def execWaits (cell : CellId) (g : BitVec 4) (o : BitVec 22) (s : State) : Out := runCore opWaits cell g o s

/-- WAITSR (R114). -/
def execWaitsr (cell : CellId) (g : BitVec 4) (o : BitVec 22) (s : State) : Out := runCore opWaitsr cell g o s

/-- SEMRD (R114). -/
def execSemrd (cell : CellId) (g : BitVec 4) (o : BitVec 22) (s : State) : Out := runCore opSemrd cell g o s

/-- ENQ (R115). -/
def execEnq (cell : CellId) (g : BitVec 4) (o : BitVec 22) (s : State) : Out := runCore opEnq cell g o s

/-- MFS (R119). -/
def execMfs (cell : CellId) (g : BitVec 4) (o : BitVec 22) (s : State) : Out := runCore opMfs cell g o s

/-- RDLT (R120). -/
def execRdlt (cell : CellId) (g : BitVec 4) (o : BitVec 22) (s : State) : Out := runCore opRdlt cell g o s

/-- SWB (R70). -/
def execSwb (cell : CellId) (g : BitVec 4) (o : BitVec 22) (s : State) : Out := runCore opSwb cell g o s

/-- HALT (R118). -/
def execHalt (cell : CellId) (g : BitVec 4) (o : BitVec 22) (s : State) : Out := runCore opHalt cell g o s

end Sys2Proof.Machine
end

