-- ==== Sys2Proof/Machine/CoreMem.lean ====
section
/-!
DEFINITION. Meanings of the loads, stores, address and descriptor instructions (R96 to R101): each runs its body of `Machine/CoreBody.lean` in the frame of `runCore`.
-/

namespace Sys2Proof.Machine

/-- LB (R96). -/
def execLb (cell : CellId) (g : BitVec 4) (o : BitVec 22) (s : State) : Out := runCore opLb cell g o s

/-- LBU (R96). -/
def execLbu (cell : CellId) (g : BitVec 4) (o : BitVec 22) (s : State) : Out := runCore opLbu cell g o s

/-- LH (R96). -/
def execLh (cell : CellId) (g : BitVec 4) (o : BitVec 22) (s : State) : Out := runCore opLh cell g o s

/-- LHU (R96). -/
def execLhu (cell : CellId) (g : BitVec 4) (o : BitVec 22) (s : State) : Out := runCore opLhu cell g o s

/-- LW (R96). -/
def execLw (cell : CellId) (g : BitVec 4) (o : BitVec 22) (s : State) : Out := runCore opLw cell g o s

/-- SB (R96). -/
def execSb (cell : CellId) (g : BitVec 4) (o : BitVec 22) (s : State) : Out := runCore opSb cell g o s

/-- SH (R96). -/
def execSh (cell : CellId) (g : BitVec 4) (o : BitVec 22) (s : State) : Out := runCore opSh cell g o s

/-- SW (R96). -/
def execSw (cell : CellId) (g : BitVec 4) (o : BitVec 22) (s : State) : Out := runCore opSw cell g o s

/-- LDA (R97). -/
def execLda (cell : CellId) (g : BitVec 4) (o : BitVec 22) (s : State) : Out := runCore opLda cell g o s

/-- STA (R97). -/
def execSta (cell : CellId) (g : BitVec 4) (o : BitVec 22) (s : State) : Out := runCore opSta cell g o s

/-- TLD (R100). -/
def execTld (cell : CellId) (g : BitVec 4) (o : BitVec 22) (s : State) : Out := runCore opTld cell g o s

/-- TST (R100). -/
def execTst (cell : CellId) (g : BitVec 4) (o : BitVec 22) (s : State) : Out := runCore opTst cell g o s

/-- AADD (R99). -/
def execAadd (cell : CellId) (g : BitVec 4) (o : BitVec 22) (s : State) : Out := runCore opAadd cell g o s

/-- AADDI (R99). -/
def execAaddi (cell : CellId) (g : BitVec 4) (o : BitVec 22) (s : State) : Out := runCore opAaddi cell g o s

/-- AFROM (R99). -/
def execAfrom (cell : CellId) (g : BitVec 4) (o : BitVec 22) (s : State) : Out := runCore opAfrom cell g o s

/-- ATO (R90). -/
def execAto (cell : CellId) (g : BitVec 4) (o : BitVec 22) (s : State) : Out := runCore opAto cell g o s

/-- ASTR (R99). -/
def execAstr (cell : CellId) (g : BitVec 4) (o : BitVec 22) (s : State) : Out := runCore opAstr cell g o s

/-- ASTRI (R99). -/
def execAstri (cell : CellId) (g : BitVec 4) (o : BitVec 22) (s : State) : Out := runCore opAstri cell g o s

/-- AMOV (R99). -/
def execAmov (cell : CellId) (g : BitVec 4) (o : BitVec 22) (s : State) : Out := runCore opAmov cell g o s

/-- TOFS (R101). -/
def execTofs (cell : CellId) (g : BitVec 4) (o : BitVec 22) (s : State) : Out := runCore opTofs cell g o s

/-- TADV (R101). -/
def execTadv (cell : CellId) (g : BitVec 4) (o : BitVec 22) (s : State) : Out := runCore opTadv cell g o s

/-- TGET (R101). -/
def execTget (cell : CellId) (g : BitVec 4) (o : BitVec 22) (s : State) : Out := runCore opTget cell g o s

/-- TSET (R101). -/
def execTset (cell : CellId) (g : BitVec 4) (o : BitVec 22) (s : State) : Out := runCore opTset cell g o s

end Sys2Proof.Machine
end

