-- ==== Sys2Proof/Machine/Firmware.lean ====
section
/-!
DEFINITION. Starts, bundles, live updates, halted cores and SPDM as commands (R496 to R519).
-/

namespace Sys2Proof.Machine

/-- The side-band is served (R468, R498): the 12 V input is present and the security core runs. -/
def State.sideUp (s : State) : Bool := s.pwr.aux && !s.fw.haltSec

/-- A side-band request gets an error answer. -/
def State.sideError (s : State) (code : Nat) : State := s.reply 9 0xFF [code]

/-! ### Start requests, completion and failure (R507 to R512) -/

/-- START_REQUEST (R507, R509, R512): one that names STAGED needs a bundle there that may be used. -/
def State.startRequest (s : State) (kind : StartKind) (clear staged : Bool) (bad : List (BitVec 4)) (t : Training) : State :=
  if ¬ s.sideUp then s
  else if staged ∧ (s.fw.staged.isNone ∨ s.fw.stagedBad) then s.sideError 1
  else (s.askStart ⟨kind, clear && kind == .warm, staged, true⟩ bad t).reply 9 0x10 [kind.code]

/-- Whether a start can fail for a reason of R511 that has no row of its own. -/
def mayFail (kind : StartKind) (reason : Nat) : Bool :=
  match reason with
  | 2 => kind != .cold
  | 3 | 5 | 6 => kind == .cold
  | 4 => true
  | 7 => kind != .reload
  | _ => false

/-- START_FAILED (R501, R511): reasons 2 (ACTIVE fails its re-check), 3, 4, 5, 6 and 7, at a step. For reason 7, the stack,
channel and lane that failed training (R287). -/
def State.startFailed (s : State) (reason step : Nat) (stack channel lane : Nat) : State :=
  match s.fw.run with
  | none => s
  | some r =>
    if ¬ mayFail r.req.kind reason then s
    else
      let s0 := s.atStep step
      let s1 := if reason = 2 then
          ({ s0 with fw := { s0.fw with activeBad := s0.fw.activeBad || r.bundle.isNone } } : State).raise 0x0B02 .error
            [(1, 3), (4, s.fw.active.svn.toNat)]
        else if reason = 7 then s0.raise 0x0404 .error [(1, stack), (1, channel), (1, lane)]
        else s0
      s1.failStart reason

/-- START_TIMEOUT (R511): reason 9, 120 s after the beginning. -/
def State.startTimeout (s : State) : State :=
  match s.fw.run with
  | none => s
  | some r => if r.began + 120000000000 ≤ (s.ns : Int) then s.failStart 9 else s

/-- CORE_READY_TIMEOUT (R511): reason 10, 5 s after the images were loaded. -/
def State.readyTimeout (s : State) : State :=
  match s.fw.run with
  | none => s
  | some r =>
    match r.loadedAt with
    | some t => if t + 5000000000 ≤ s.ns then (s.atStep 12).failStart 10 else s
    | none => s

/-- FAILED_START_RETRY (R507, R512): 10 s after a failed start outside depot mode. -/
def State.startRetry (s : State) (bad : List (BitVec 4)) : State :=
  match s.fw.retryFrom with
  | none => s
  | some t =>
    if s.fw.depot ∨ s.fw.run.isSome ∨ ¬ s.pwr.aux ∨ s.ns < t + 10000000000 then s
    else s.askStart ⟨.cold, false, false, false⟩ bad .clean

/-! ### Bundles (R502, R503) -/

/-- A start waits for its fetch: step 2 of a cold start that names no staged bundle, with no try that has just failed. -/
def FwState.fetching (f : FwState) : Bool :=
  match f.run with
  | some r => r.step == 2 && r.req.kind == .cold && r.failedAt.isNone
  | none => false

/-- The verified bundle in STAGED after a fetch or a push. -/
def State.onStaged (s : State) (go : State → State) : State :=
  match s.fw.staged with
  | some b => go (s.useBundle b)
  | none => s

/-- BUNDLE_FETCH_DONE (R502, R503): a fetch of a start or of the side-band completes with a bundle, or a try fails. -/
def State.fetchDone (s : State) (b : Option Bundle) (t : Training) : State :=
  if ¬ s.sideUp then s
  else if s.fw.fetching then
    match b with
    | some x =>
      let s1 := if s.fw.act.isSome then s.cancelAct 3 else s
      let (s2, ok) := s1.stageBundle x 0
      if ok then s2.onStaged fun s => s.coldOn t else s2.failStart 2
    | none =>
      let tries := match s.fw.run with
        | some r => r.tries + 1
        | none => 0
      if 3 ≤ tries then s.failStart 1
      else { s with fw := { s.fw with run := s.fw.run.map fun r => { r with tries := tries, failedAt := some s.ns } } }
  else
    match b with
    | some x => if s.fw.run.isSome ∨ s.fw.act.any (fun a => a.began.isSome) then s else (s.stageBundle x 0).1
    | none => s

/-- BUNDLE_FETCH_RETRY (R502): 2 s after a failed try. -/
def State.fetchRetry (s : State) : State :=
  match s.fw.run with
  | none => s
  | some r =>
    match r.failedAt with
    | some t => if t + 2000000000 ≤ s.ns then { s with fw := { s.fw with run := some { r with failedAt := none } } } else s
    | none => s

/-- BUNDLE_PUSH (R502): a start that is past its fetch, or an activation under way, uses STAGED; the push is answered with an
error then. -/
def State.push (s : State) (b : Bundle) : State :=
  if ¬ s.sideUp then s
  else if (s.fw.run.any fun r => r.bundle.isSome) ∨ s.fw.act.any (fun a => a.began.isSome) then s.sideError 2
  else (s.stageBundle b 1).1

/-! ### Live update (R513 to R515) -/

/-- The first condition of R513 that fails: 0 emergency, 1 hold, 2 start in progress. -/
def State.defers (s : State) : Option Nat :=
  if s.pwr.emerg ∨ (s.ns : Int) < s.pwr.calmFrom + 1000000000 then some 0
  else if s.rcv.state ≠ 0 ∧ s.rcv.jobId ≠ 0 then some 1
  else if s.fw.run.isSome then some 2
  else none

/-- The activation begins, or is deferred with FW_UPDATE_DEFERRED raised once. -/
def State.tryActivate (s : State) : State :=
  match s.fw.act, s.fw.staged with
  | some a, some b =>
    if a.began.isSome then s
    else
      match s.defers with
      | none =>
        let secs := (((s.ns : Int) - a.asked) / 1000000000).toNat
        { s with fw := { s.fw with act := some { a with began := some s.ns, doneTo := 0, inHand := none }, updState := 3
                                   updComp := 1, deferS := BitVec.ofNat 16 (min 0xFFFF secs) } }
      | some c =>
        if a.deferred.isSome then s
        else
          let f : FwState := { s.fw with act := some { a with deferred := some c }, updState := 2, updReason := BitVec.ofNat 8 c }
          ({ s with fw := f } : State).raise 0x0B08 .info [(1, c), (4, b.svn.toNat)]
  | _, _ => s

/-- ACTIVATE_FIRMWARE (R513): the handover format of the running images must be one the staged bundle accepts. -/
def State.activate (s : State) : State :=
  if ¬ s.sideUp then s
  else
    match s.fw.staged with
    | none => s.sideError 3
    | some b =>
      if s.fw.stagedBad ∨ s.fw.act.isSome ∨ s.fw.depot ∨ ¬ s.pwr.main then s.sideError 3
      else if s.fw.format ≠ b.hoCur ∧ s.fw.format ≠ b.hoPrev then
        let f : FwState := { s.fw with updState := 7, updReason := 6 }
        ({ s with fw := f } : State).raise 0x0B02 .error [(1, 6), (4, b.svn.toNat)]
      else
        let s1 : State := { s with fw := { s.fw with act := some ⟨s.ns, none, none, 0, none, 0⟩ } }
        s1.tryActivate

/-- ACTIVATION_BEGIN (R513). -/
def State.activationBegin (s : State) : State := if s.sideUp then s.tryActivate else s

/-- ACTIVATION_CANCEL (R513): 60 s have passed from the request without a beginning. -/
def State.activationCancel (s : State) : State :=
  match s.fw.act with
  | none => s
  | some a =>
    if a.began.isSome ∨ ¬ s.sideUp ∨ (s.ns : Int) < a.asked + 60000000000 then s
    else s.cancelAct ((s.defers.orElse fun _ => a.deferred).getD 0)

/-- An update is reverted (R515): the components replaced are reloaded from ACTIVE and STAGED is unusable. -/
def State.revert (s : State) (comp cause : Nat) : State :=
  let f : FwState := { s.fw with act := none, stagedBad := true, updState := 6, updComp := 0 }
  let s1 : State := { s with fw := f, hif := { s.hif with fwUp := true }, pwr := { s.pwr with pcUp := true } }
  (s1.raise 0x0B0B .error [(2, comp), (1, cause)]).lateDetach.deferredHolds

/-- The update completes (R513 step 5). -/
def State.updateDone (s : State) (a : Activation) : State :=
  match s.fw.staged with
  | none => s
  | some b =>
    let s1 := s.install b
    let s2 : State := { s1 with fw := { s1.fw with act := none, updState := 4, updComp := 0 } }
    (s2.raise 0x0B0A .info [(4, b.svn.toNat), (2, min 0xFFFF (a.dspNs / 1000000))]).raiseFloor b

/-- COMPONENT_HANDOVER (R514, R515): the component in turn (1 power, 2 dispatcher, 3 cluster control, 4 security) reaches
its boundary and its new image is loaded; or the new image has checked its record, and resumes or fails. -/
def State.handover (s : State) (recordOk : Bool) : State :=
  match s.fw.act with
  | none => s
  | some a =>
    if a.began.isNone ∨ s.fw.run.isSome then s
    else
      let comp := a.doneTo + 1
      match a.inHand with
      | none =>
        if comp = 1 ∧ (s.pwr.emerg ∨ (a.began.any fun t : Nat => (t : Int) < s.pwr.calmFrom)) then
          let a1 : Activation := { a with began := none }
          let s1 : State := { s with fw := { s.fw with act := some a1, updState := 2, updComp := 0 } }
          s1.tryActivate
        else
          let s1 : State := { s with fw := { s.fw with act := some { a with inHand := some s.ns }, updComp := BitVec.ofNat 4 comp } }
          if comp = 1 then { s1 with pwr := { s1.pwr with pcUp := false } }
          else if comp = 2 then { s1 with hif := { s1.hif with fwUp := false } }
          else s1
      | some t =>
        if ¬ recordOk then s.revert comp 0
        else
          let a1 : Activation := { a with doneTo := comp, inHand := none, dspNs := if comp = 2 then s.ns - t else a.dspNs }
          let s1 : State := { s with fw := { s.fw with act := some a1, updComp := BitVec.ofNat 4 (if comp = 4 then 0 else comp + 1) } }
          if comp = 1 then { s1 with pwr := { s1.pwr with pcUp := true } }
          else if comp = 2 then ({ s1 with hif := { s1.hif with fwUp := true } } : State).lateDetach.deferredHolds
          else if comp = 4 then s1.updateDone a1
          else s1

/-- HANDOVER_RESUME_TIMEOUT (R515): a new image has not resumed within 2 s. -/
def State.resumeTimeout (s : State) : State :=
  match s.fw.act with
  | none => s
  | some a =>
    match a.inHand with
    | some t => if t + 2000000000 ≤ s.ns then s.revert (a.doneTo + 1) 1 else s
    | none => s

/-! ### Halted cores (R497, R498) -/

/-- PROTECTION_FAULT (R497, R498): core 0 security, 1 power, 2 dispatcher, 3 cluster control of box `k`. -/
def State.protectionFault (s : State) (core k : Nat) (addr : BitVec 64) : State :=
  let on := if core = 0 then s.pwr.aux && !s.fw.haltSec
    else if core = 1 then s.pwr.main && !s.fw.haltPower
    else if core = 2 then s.pwr.main && !s.fw.haltDisp
    else s.pwr.main && !s.fw.haltBox.contains k
  if ¬ on then s
  else
    let f := s.fw
    let s1 : State := match core with
      | 0 => { s with fw := { f with haltSec := true } }
      | 1 => { s with fw := { f with haltPower := true, powerHalts := s.ns :: f.powerHalts }, pwr := { s.pwr with pcUp := false } }
      | 2 => { s with fw := { f with haltDisp := true }, hif := { s.hif with fwUp := false } }
      | _ => { s with fw := { f with haltBox := setIns f.haltBox k } }
    let s2 := s1.raise 0x0B0C .error [(1, core), (1, if core = 3 then k else 0xFF), (8, addr.toNat)]
    if core = 1 then (if (f.powerHalts.any fun t => s.ns ≤ t + 600000000000) ∧ s.hif.fwUp then s2.ownFault else s2)
    else if core = 3 then
      let hit := s2.dsp.tasks.filter fun t => t.started && t.cells.any fun c => clusterIndex (boxOf c) == k
      hit.foldl (fun s t => s.endCause t.id tsFault) s2
    else s2

/-- CORE_RELOAD (R498): the security core reloads a halted core; a power core waits for EMERG to be 0, and a dispatcher core
means a firmware reload. -/
def State.coreReload (s : State) (core k : Nat) (t : Training) : State :=
  if ¬ s.sideUp ∨ ¬ s.pwr.main then s
  else
    match core with
    | 1 =>
      if s.fw.haltPower ∧ ¬ s.pwr.emerg then
        { s with fw := { s.fw with haltPower := false }, pwr := { s.pwr with pcUp := true } }
      else s
    | 2 => if s.fw.haltDisp then s.askStart ⟨.reload, false, false, false⟩ [] t else s
    | 3 => { s with fw := { s.fw with haltBox := setDel s.fw.haltBox k } }
    | _ => s

/-- SECURITY_CORE_RESTART (R498): the boot ROM re-verifies ACTIVE and side-band service resumes; requests in progress are
answered with an error. -/
def State.securityRestart (s : State) : State :=
  if s.pwr.aux ∧ s.fw.haltSec then ({ s with fw := { s.fw with haltSec := false } } : State).sideError 4 else s

/-! ### SPDM (R517) -/

/-- `n` bytes of a hash, a certificate or a signature (log entry 7). -/
def signed (kind n : Nat) : List Byte := (List.range n).map (Config.signByte kind)

/-- The bundle whose image of a component (1 to 4) is in use: during a live update, STAGED's once it has resumed (R517). -/
def State.imageOf (s : State) (comp : Nat) : Bundle :=
  match s.fw.act, s.fw.staged with
  | some a, some b => if comp ≤ a.doneTo then b else s.fw.active
  | _, _ => s.fw.active

/-- A number that tells bundles apart. -/
def bundleMark (b : Bundle) : Nat := b.version.toNat * 2 ^ 32 + b.svn.toNat

/-- A measurement block (R517): digests are free values; 7 is the floor and MINKEY, 8 what the last start measured. -/
def State.measurement (s : State) (i : Nat) : List Byte :=
  match i with
  | 7 => leBytes 4 s.fw.floor.toNat ++ leBytes 1 s.fw.minKey.toNat
  | 8 => s.pool.measured.flatMap fun w => leBytes 4 w.toNat
  | 1 => signed 0x100 64
  | 2 => signed (0x200 + bundleMark s.fw.active * 0x10000) 64
  | _ => signed (0x100 * i + bundleMark (s.imageOf (i - 2)) * 0x10000) 64

/-- A signature of 4,627 bytes over this exchange. -/
def State.signature (s : State) : List Byte × State :=
  let (n, s1) := s.freshNat
  (signed n 4627, s1)

/-- An SPDM answer (log entry 12), while the responder runs. -/
def State.spdm (s : State) (code : Nat) (nums : List Nat) (data : List Byte) : State :=
  if s.sideUp then s.reply 14 code nums data else s

/-! ### Rows -/

/-- START_REQUEST (R507): kinds 1 cold, 2 device warm, 3 firmware reload. -/
def execStartRequest (kind : BitVec 2) (clear staged : Bool) (flash : List (BitVec 4)) (found : Training) (s : State) : Out :=
  .next (match kind with
    | 1 => s.startRequest .cold clear staged flash found
    | 2 => s.startRequest .warm clear staged flash found
    | 3 => s.startRequest .reload clear staged flash found
    | _ => if s.sideUp then s.sideError 0 else s)
/-- START_COMPLETE (R511). -/
def execStartComplete (flash : List (BitVec 4)) (s : State) : Out := .next (s.completeStart.nextStart flash .clean)
/-- START_FAILED (R511). -/
def execStartFailed (reason step : BitVec 5) (stack : BitVec 4) (channel : BitVec 5) (lane : BitVec 8) (flash : List (BitVec 4))
    (s : State) : Out :=
  .next ((s.startFailed reason.toNat step.toNat stack.toNat channel.toNat lane.toNat).nextStart flash .clean)
/-- START_TIMEOUT (R511). -/
def execStartTimeout (flash : List (BitVec 4)) (s : State) : Out := .next (s.startTimeout.nextStart flash .clean)
/-- CORE_READY_TIMEOUT (R511). -/
def execCoreReadyTimeout (flash : List (BitVec 4)) (s : State) : Out := .next (s.readyTimeout.nextStart flash .clean)
/-- FAILED_START_RETRY (R507). -/
def execFailedStartRetry (flash : List (BitVec 4)) (s : State) : Out := .next (s.startRetry flash)
/-- BUNDLE_FETCH_DONE (R502). -/
def execBundleFetchDone (bundle : Option Bundle) (found : Training) (s : State) : Out :=
  .next ((s.fetchDone bundle found).nextStart [] .clean)
/-- BUNDLE_FETCH_RETRY (R502). -/
def execBundleFetchRetry (s : State) : Out := .next (if s.sideUp then s.fetchRetry else s)
/-- BUNDLE_PUSH (R502). -/
def execBundlePush (bundle : Bundle) (s : State) : Out := .next (s.push bundle)
/-- ACTIVATE_FIRMWARE (R513). -/
def execActivateFirmware (s : State) : Out := .next s.activate
/-- ACTIVATION_BEGIN (R513). -/
def execActivationBegin (s : State) : Out := .next s.activationBegin
/-- ACTIVATION_CANCEL (R513). -/
def execActivationCancel (s : State) : Out := .next s.activationCancel
/-- COMPONENT_HANDOVER (R514). -/
def execComponentHandover (recordOk : Bool) (s : State) : Out := .next (if s.sideUp then s.handover recordOk else s)
/-- HANDOVER_RESUME_TIMEOUT (R515). -/
def execHandoverResumeTimeout (s : State) : Out := .next (if s.sideUp then s.resumeTimeout else s)
/-- PROTECTION_FAULT (R497). -/
def execProtectionFault (core : BitVec 2) (cluster : BitVec 7) (addr : BitVec 64) (s : State) : Out :=
  if core = 3 ∧ 72 ≤ cluster.toNat then .fault (.noSuchPart 496) else .next (s.protectionFault core.toNat cluster.toNat addr)
/-- CORE_RELOAD (R498). -/
def execCoreReload (core : BitVec 2) (cluster : BitVec 7) (s : State) : Out :=
  if core = 3 ∧ 72 ≤ cluster.toNat then .fault (.noSuchPart 496) else .next (s.coreReload core.toNat cluster.toNat .clean)
/-- SECURITY_CORE_RESTART (R498). -/
def execSecurityCoreRestart (s : State) : Out := .next s.securityRestart
/-- GET_VERSION (R517): SPDM 1.4. -/
def execGetVersion (s : State) : Out := .next (s.spdm 0x04 [0x14] [])
/-- GET_CAPABILITIES (R517): certificates, challenge and signed measurements; no secure sessions. -/
def execGetCapabilities (s : State) : Out := .next (s.spdm 0x61 [1, 1, 1, 0] [])
/-- NEGOTIATE_ALGORITHMS (R517): ML-DSA-87 and SHA3-512. -/
def execNegotiateAlgorithms (s : State) : Out := .next (s.spdm 0x63 [87, 512] [])
/-- GET_DIGESTS (R517): of the chains in slots 0 and 1. -/
def execGetDigests (s : State) : Out := .next (s.spdm 0x01 [0, 1] (signed 1 64 ++ signed 2 64))
/-- GET_CERTIFICATE (R517): slot 0 the identity chain, slot 1 the grade chain. -/
def execGetCertificate (slot : BitVec 8) (offset length : BitVec 16) (s : State) : Out :=
  .next (if slot.toNat < 2 then
    s.spdm 0x02 [slot.toNat] (((List.range length.toNat).map fun i => Config.signByte (3 + slot.toNat) (offset.toNat + i)))
  else if s.sideUp then s.reply 14 0x7F [slot.toNat] else s)
/-- CHALLENGE (R517): signed with the identity key. -/
def execChallenge (slot : BitVec 8) (nonce : List Byte) (s : State) : Out :=
  let (sig, s1) := s.signature
  .next (if ¬ s.sideUp then s
  else if slot.toNat < 2 then s1.spdm 0x03 [slot.toNat] (nonce ++ signed (1 + slot.toNat) 64 ++ sig)
  else s.reply 14 0x7F [slot.toNat])
/-- GET_MEASUREMENTS (R517): one block, or all with index 0xFF. -/
def execGetMeasurements (index : BitVec 8) (nonce : List Byte) (s : State) : Out :=
  let (sig, s1) := s.signature
  let i := index.toNat
  .next (if ¬ s.sideUp then s
  else if i = 0xFF then s1.spdm 0x60 [8] ((List.range 8).flatMap (fun k => s.measurement (k + 1)) ++ nonce ++ sig)
  else if 1 ≤ i ∧ i ≤ 8 then s1.spdm 0x60 [i] (s.measurement i ++ nonce ++ sig)
  else s.reply 14 0x7F [i])

end Sys2Proof.Machine
end

