-- ==== Sys2Proof/Machine/Links.lean ====
section
/-!
DEFINITION. Morgo ports, the mesh, Ethernet and line time (R386 to R417): the operations and the rows of the links area.
-/

namespace Sys2Proof.Machine

/-! ### Ports -/

/-- Change a port. -/
def State.modPort (s : State) (p : Nat) (f : LnkPort → LnkPort) : State :=
  let i : BitVec 3 := BitVec.ofNat 3 p
  { s with lnk := { s.lnk with ports := rset s.lnk.ports i (f (rget s.lnk.ports i)) } }

/-- A port of the module. -/
def State.port (s : State) (p : Nat) : LnkPort := s.lnk.port p

/-- Fields of a plan entry (R416). -/
def planKind (w : BitVec 32) : Nat := bitsOf w.toNat 31 30
def planPort (w : BitVec 32) : Nat := bitsOf w.toNat 20 18
def planId (w : BitVec 32) : Nat := bitsOf w.toNat 14 0

/-- The partner's module ID and port, and whether a DISCOVER has been received (R416). -/
def LnkPort.peerId (k : LnkPort) : Nat := bitsOf k.peer.toNat 14 0
def LnkPort.peerPort (k : LnkPort) : Nat := bitsOf k.peer.toNat 20 18
def LnkPort.seen (k : LnkPort) : Bool := k.peer.getLsbD 15

/-- PEER_PORTS tells each neighbour at level 3 the state of every port (R404): answer 3, type 0x60. -/
def State.tellPorts (s : State) : State :=
  let states := (List.range 6).map fun p => (s.port p).state.toNat
  ((List.range 6).filter fun p => s.lnk.up p && (s.port p).level == 3).foldl (fun s p => s.reply 3 0x60 (p :: states)) s

/-- This module's distance to the root, as it advertises it (R411): none while it has no way to the root. -/
def LnkState.distance (l : LnkState) : Option Nat :=
  if l.ltState = 5 then some 0
  else if l.ltState = 1 ∨ l.ltState = 2 ∨ l.ltState = 4 then some l.ltDist.toNat
  else none

/-- The module has a parent (R412). -/
def LnkState.hasParent (l : LnkState) : Bool := l.ltState == 1 || l.ltState == 2 || l.ltState == 4

/-- The root's module ID, and the backup's (R416). -/
def LnkState.rootId (l : LnkState) : Nat := bitsOf l.ltRoot.toNat 14 0
def LnkState.backupRoot (l : LnkState) : Nat := bitsOf l.ltRoot.toNat 30 16

/-- The UP neighbour with the smallest distance, and the lowest port number among several (R411). -/
def LnkState.bestParent (l : LnkState) : Option (Nat × Nat) :=
  (List.range 6).foldl (fun best p =>
    match (if l.up p then (l.port p).peerDist else none), best with
    | some d, none => some (p, d)
    | some d, some (q, e) => if d < e then some (p, d) else some (q, e)
    | none, b => b) none

/-- Choose the parent (R411, R412, R414). -/
def State.chooseParent (s : State) : State :=
  let l := s.lnk
  if l.ltState = 5 ∨ l.rootId = 0x7FFF then s
  else
    match l.bestParent with
    | some (p, d) =>
      let dist := min 63 (d + 1)
      if l.hasParent ∧ l.ltParent.toNat = p then { s with lnk := { l with ltDist := BitVec.ofNat 6 dist } }
      else
        let old := if l.hasParent then l.ltParent.toNat else 7
        let s1 : State := { s with lnk := { l with ltParent := BitVec.ofNat 3 p, ltDist := BitVec.ofNat 6 dist, ltSent := none
                                                   ltState := if l.hasParent then l.ltState else 1 } }
        s1.raise 0x070C .info [(1, old), (1, p), (1, dist), (2, l.rootId)]
    | none => if l.hasParent then { s with lnk := { l with ltState := 3, ltParent := 7, ltSent := none, ltRate := l.ltRate } } else s

/-- A port becomes UP (R398). -/
def State.portUp (s : State) (p : Nat) : State :=
  let k := s.port p
  if k.state = 5 then s
  else
    let s1 := s.modPort p fun k => { k with state := 5, hbAt := s.ns, hbSent := s.ns, peerDist := none }
    (s1.raise 0x0701 .info [(1, p), (2, k.peerId), (1, k.level.toNat)]).tellPorts

/-- A port is QUARANTINED (R398, R402). -/
def State.portQuarantine (s : State) (p reason : Nat) : State :=
  let k := s.port p
  let s1 := s.modPort p fun k => { k with reason := BitVec.ofNat 4 reason, state := 4 }
  if k.state = 4 then s1
  else
    (s1.raise 0x0703 .warning [(1, p), (1, reason), (2, k.peerId), (1, k.peerPort)]).tellPorts

/-- What a port that is no longer trained keeps (R396, R398). -/
def LnkPort.untrain (k : LnkPort) (state : BitVec 4) (ns : Nat) : LnkPort :=
  { k with state := state, level := 0, trained := false, accepted := false, peerAccepted := false, buf := [], rx0 := [], rx1 := []
           replays := 0, movesRx := [], movesTx := [], noLock := [], lostLock := 0, laneErr := [], cr0 := 512, cr1 := 512, rxSeq := 0
           txSeq := 0, peerDist := none, peerPorts := [], trainAt := ns }

/-- The state of a port without a partner (R398): EDGE where the plan says so, otherwise ABSENT. -/
def LnkPort.alone (k : LnkPort) : BitVec 4 := if planKind k.planAct = 1 then 2 else 3

/-- A port goes DOWN (R396): causes 0 lock, 1 replay limit, 2 heartbeat. One that was UP enters ABSENT (log entry 71), its
neighbour is lost, and a neighbour of the job's epoch group raises a hold (R441). -/
def State.portDown (s : State) (p cause : Nat) : State :=
  let k := s.port p
  if ¬ k.trained then s
  else
    let was := k.state == 5
    let s1 := (s.modPort p fun k => k.untrain (if was then 3 else 0) s.ns).tellPorts
    if ¬ was then s1
    else
      let s2 := s1.raise 0x0704 .error [(1, p), (2, k.peerId), (1, cause)]
      let s3 := if s.rcv.jobId ≠ 0 ∧ s.jobIds.contains k.peerId then s2.originateHold 0 k.peerId p else s2
      s3.colPaths

/-! ### Frames (R387, R388, R391, R392) -/

/-- Count the corrected symbol of a codeword in one lane (R388, R392). -/
def LnkPort.corrected (k : LnkPort) (ns : Nat) (word : List (BitVec 4)) : LnkPort :=
  match word with
  | [lane] =>
    { k with corr := satInc k.corr
             laneErr := Sparse.put k.laneErr lane.toNat
               (ns :: (Sparse.at [] k.laneErr lane.toNat).filter fun t => ns < t + 1000000) }
  | _ => k

/-- FRAME_RECEIVE (R388): a frame, with the lanes of the symbols in error in its two codewords. -/
def State.frame (s : State) (p : Nat) (valid vc : Bool) (seq : BitVec 12) (flit : List Byte) (pmask : BitVec 32)
    (c0 c1 : List (BitVec 4)) : State :=
  let k := s.port p
  if ¬ k.trained ∨ ¬ s.pwr.main then s
  else if 2 ≤ c0.length ∨ 2 ≤ c1.length ∨ (valid ∧ seq ≠ k.rxSeq) then
    (s.modPort p fun k => { k with replay := satInc k.replay }).reply 3 1 [p, k.rxSeq.toNat]
  else
    let k1 := (k.corrected s.ns c0).corrected s.ns c1
    if ¬ valid then s.modPort p fun _ => k1
    else if 512 ≤ (if vc then k.rx1 else k.rx0).length then s
    else
      let f : Flit := ⟨vc, seq, pmask, flit⟩
      let k2 := if vc then { k1 with rx1 := k1.rx1 ++ [f] } else { k1 with rx0 := k1.rx0 ++ [f] }
      (s.modPort p fun _ => { k2 with rxSeq := k.rxSeq + 1 }).reply 3 2 [p, seq.toNat]

/-- NAK (R388): frames before the SEQ named have arrived; the others are sent again in order. A frame replayed eight times
in a row takes the port DOWN. -/
def State.nak (s : State) (p : Nat) (seq : BitVec 12) : State :=
  let k := s.port p
  let rest := k.buf.dropWhile fun f => f.seq ≠ seq
  if ¬ k.trained ∨ rest = [] then s
  else
    let n := if rest.length = k.buf.length then k.replays + 1 else 1
    let s1 := s.modPort p fun k => { k with buf := rest, replays := n }
    if 8 ≤ n then s1.portDown p 1 else s1.reply 3 0x100 (p :: rest.map fun f => f.seq.toNat)

/-- ACK (R388): frames up to the SEQ named leave the replay buffer. -/
def State.ack (s : State) (p : Nat) (seq : BitVec 12) : State :=
  let k := s.port p
  if k.buf.any fun f => f.seq = seq then
    s.modPort p fun k => { k with buf := (k.buf.dropWhile fun f => f.seq ≠ seq).drop 1, replays := 0 }
  else s

/-- CREDIT (R391). -/
def State.credit (s : State) (p : Nat) (vc : Bool) (n : Nat) : State :=
  s.modPort p fun k => if vc then { k with cr1 := min 512 (k.cr1 + n) } else { k with cr0 := min 512 (k.cr0 + n) }

/-- The lane is failing (R392): its corrected symbols within 1,000,000 ns reach THRESH, or it has lost lock. -/
def LnkPort.failing (k : LnkPort) (ns lane : Nat) : Bool :=
  decide (max 1 (bitsOf k.cfg.toNat 15 0) ≤ ((Sparse.at [] k.laneErr lane).filter fun t => ns < t + 1000000).length) ||
    k.noLock.contains lane

/-- The moves of one direction stand in the order of their SEQs, counted from the present one (R394). -/
def addMove (now : BitVec 12) (m : LaneMove) : List LaneMove → List LaneMove
  | [] => [m]
  | x :: rest => if (x.seq - now).toNat ≤ (m.seq - now).toNat then x :: addMove now m rest else m :: x :: rest

/-- LANE_FAILING (R392, R393): `lost` when the lane loses lock now; the frame of the switch lies at least 64 ahead. -/
def State.laneFailing (s : State) (p : Nat) (lane : BitVec 4) (lost : Bool) (seq : BitVec 12) : State :=
  let s0 := if lost ∧ ¬ (s.port p).noLock.contains lane.toNat then
      s.modPort p fun k => { k with noLock := setIns k.noLock lane.toNat, lostLock := k.lostLock + 1 } else s
  let k := s0.port p
  if ¬ k.trained ∨ ¬ s.pwr.main then s
  else if 3 ≤ k.lostLock then s0.portDown p 0
  else if ¬ k.failing s.ns lane.toNat ∨ k.movesRx.any fun m => m.lane = lane then s0
  else if k.sparesRx.toNat ≤ k.movesRx.length then
    (s0.modPort p fun k => { k with laneErr := Sparse.erase k.laneErr lane.toNat }).raise 0x0706 .warning
      [(1, p), (1, 0), (1, lane.toNat)]
  else if (seq - k.rxSeq).toNat < 64 then s0
  else
    (s0.modPort p fun k => { k with movesRx := addMove k.rxSeq ⟨lane, seq⟩ k.movesRx }).reply 3 0x30 [p, lane.toNat, seq.toNat]

/-- LANE_SWITCH (R392): the receiver at the other end names a lane of this port's transmit direction. -/
def State.laneSwitch (s : State) (p : Nat) (lane : BitVec 4) (seq : BitVec 12) : State :=
  let k := s.port p
  if k.trained ∧ k.movesTx.length < k.sparesTx.toNat then
    s.modPort p fun k => { k with movesTx := addMove k.txSeq ⟨lane, seq⟩ k.movesTx }
  else s

/-- A move takes effect in the receive direction. -/
def State.moveRx (s : State) (p : Nat) (m : LaneMove) : State :=
  let k := s.port p
  let left := k.sparesRx - 1
  let s1 := s.modPort p fun k =>
    { k with movesRx := k.movesRx.filter (fun x => x.lane ≠ m.lane), sparesRx := left, laneMap := k.laneMap ||| (1 <<< m.lane.toNat)
             noLock := setDel k.noLock m.lane.toNat, laneErr := Sparse.erase k.laneErr m.lane.toNat }
  s1.raise 0x0705 .warning [(1, p), (1, 0), (1, m.lane.toNat), (1, left.toNat)]

/-- A move takes effect in the transmit direction, and LANE_ACK confirms it. -/
def State.moveTx (s : State) (p : Nat) (m : LaneMove) : State :=
  let k := s.port p
  let left := k.sparesTx - 1
  let s1 := s.modPort p fun k =>
    { k with movesTx := k.movesTx.filter (fun x => x.lane ≠ m.lane), sparesTx := left
             laneMapTx := k.laneMapTx ||| (1 <<< m.lane.toNat) }
  (s1.raise 0x0705 .warning [(1, p), (1, 1), (1, m.lane.toNat), (1, left.toNat)]).reply 3 0x31 [p, m.lane.toNat, m.seq.toNat]

/-- The frame a move names has been reached: fewer than half the SEQ range lies between. -/
def seqReached (now at' : BitVec 12) : Bool := decide ((now - at').toNat < 2048)

/-- LANE_SWITCH_APPLY (R392, R394): the oldest move of a direction is made at its frame. -/
def State.laneApply (s : State) (p : Nat) (transmit : Bool) : State :=
  let k := s.port p
  if transmit then
    match k.movesTx with
    | m :: _ => if seqReached k.txSeq m.seq then s.moveTx p m else s
    | [] => s
  else
    match k.movesRx with
    | m :: _ => if seqReached k.rxSeq m.seq then s.moveRx p m else s
    | [] => s

/-- LANE_ACK (R392): the sender has switched, so the receive direction has too. -/
def State.laneAck (s : State) (p : Nat) (lane : BitVec 4) : State :=
  match (s.port p).movesRx.find? fun m => m.lane = lane with
  | some m => s.moveRx p m
  | none => s

/-! ### Heartbeats and the watchdog (R395, R396) -/

/-- HEARTBEAT_SEND (R395). -/
def State.sendHeartbeat (s : State) (p : Nat) : State :=
  let k := s.port p
  if k.state ≠ 5 ∨ s.lnk.wdExpired ∨ s.ns < k.hbSent + 100000 then s
  else
    let d := match s.lnk.distance with | some d => d + 1 | none => 0
    (s.modPort p fun k => { k with hbSent := s.ns }).reply 3 0x40 [p, s.own, s.rcv.state.toNat, d]

/-- HEARTBEAT (R395, R411). -/
def State.heartbeat (s : State) (p : Nat) (hold : BitVec 4) (dist : Option (BitVec 6)) : State :=
  if (s.port p).state ≠ 5 then s
  else
    (s.modPort p fun k => { k with hbAt := s.ns, peerHold := hold, peerDist := dist.map BitVec.toNat }).chooseParent

/-- WATCHDOG_EXPIRY (R395). -/
def State.watchdog (s : State) : State :=
  if s.pwr.main ∧ s.lnk.wdFed + 100000 ≤ s.ns then { s with lnk := { s.lnk with wdExpired := true } } else s

/-! ### Training, discovery and the plan (R397 to R403) -/

/-- The level both ends support, 3 before 2 (R400); 0 for none. -/
def commonLevel (levels : BitVec 4) : BitVec 4 :=
  if levels.getLsbD 3 then 3 else if levels.getLsbD 2 then 2 else 0

/-- Why this end rejects a partner (R398, R416); 0 when it accepts. -/
def LnkPort.rejects (k : LnkPort) : Nat :=
  match planKind k.planAct with
  | 1 => 3
  | 2 =>
    if k.peerId ≠ planId k.planAct then 1
    else if k.peerPort ≠ planPort k.planAct then 2
    else if k.level = 0 then 5
    else 0
  | _ => 4

/-- LANE_TRAINED (R392, R398, R400): a partner has trained, with the levels it supports and the lane delay difference. -/
def State.laneTrained (s : State) (p : Nat) (levels : BitVec 4) (asym : Int) : State :=
  let k := s.port p
  if k.trained ∨ ¬ s.pwr.main then s
  else
    let spare (m : BitVec 16) : BitVec 2 := BitVec.ofNat 2 (2 - min 2 ((List.range 16).filter fun i => m.getLsbD i).length)
    let k0 := k.untrain 1 k.trainAt
    let k1 : LnkPort := { k0 with trained := true, level := commonLevel levels
                                  sparesRx := spare k.laneMap, sparesTx := spare k.laneMapTx }
    let s1 := s.modPort p fun _ => k1
    let s2 : State := { s1 with lnk := { s1.lnk with ltAsym := Sparse.put s1.lnk.ltAsym p asym } }
    s2.reply 3 0x50 [p, s.own, 12, s.lnk.planVer.toNat]

/-- DISCOVER (R398): what the partner says of itself is kept and compared with the plan. -/
def State.discover (s : State) (p : Nat) (id : BitVec 15) (port : BitVec 3) (levels : BitVec 4) : State :=
  let k := s.port p
  if ¬ k.trained ∨ (k.state ≠ 1 ∧ k.state ≠ 4) then s
  else
    let peer := BitVec.ofNat 32 (levels.toNat * 2 ^ 28 + port.toNat * 2 ^ 18 + 2 ^ 15 + id.toNat)
    let k1 : LnkPort := { k with peer := peer }
    let why := k1.rejects
    if why = 0 then
      let s1 := (s.modPort p fun _ => { k1 with accepted := true }).reply 3 0x51 [p]
      if k.peerAccepted then s1.portUp p else s1
    else ((s.modPort p fun _ => { k1 with accepted := false }).reply 3 0x52 [p, why]).portQuarantine p why

/-- ACCEPT (R398). -/
def State.accept (s : State) (p : Nat) : State :=
  let k := s.port p
  if ¬ k.trained then s
  else
    let s1 := s.modPort p fun k => { k with peerAccepted := true }
    if k.accepted then s1.portUp p else s1

/-- REJECT (R398): REASON 6 where this end accepted. -/
def State.reject (s : State) (p : Nat) : State :=
  let k := s.port p
  if ¬ k.trained then s
  else (s.modPort p fun k => { k with peerAccepted := false }).portQuarantine p (if k.accepted then 6 else k.reason.toNat)

/-- TRAINING_TIMEOUT (R398). -/
def State.trainTimeout (s : State) (p : Nat) : State :=
  let k := s.port p
  if k.trained ∨ 1 < k.state.toNat ∨ s.ns < k.trainAt + 100000000 ∨ ¬ s.pwr.main then s
  else
    let s1 := s.modPort p fun k => { k with state := k.alone }
    (if k.alone = 3 then s1.raise 0x0702 .warning [(1, p), (2, planId k.planAct)] else s1).tellPorts

/-- RETRAIN_ATTEMPT (R399): the port tries to train again; LANE_TRAINED follows when a partner answers. -/
def State.retrain (s : State) (p : Nat) : State :=
  let k := s.port p
  if (k.state = 2 ∨ k.state = 3) ∧ k.trainAt + 10000000 ≤ s.ns ∧ s.pwr.main then
    (s.modPort p fun k => { k with trainAt := s.ns }).reply 3 0x101 [p]
  else s

/-- A port is evaluated against the committed plan (R402). -/
def State.replan (s : State) (p : Nat) : State :=
  let k := s.port p
  if k.trained ∧ k.seen then
    let why := k.rejects
    if why = 0 then
      let s1 := s.modPort p fun k => { k with accepted := true }
      let s2 := if k.accepted then s1 else s1.reply 3 0x51 [p]
      if k.peerAccepted then s2.portUp p else s2
    else
      let s1 := s.modPort p fun k => { k with accepted := false }
      (if k.accepted then s1.reply 3 0x52 [p, why] else s1).portQuarantine p why
  else if (k.state = 2 ∨ k.state = 3) ∧ k.state ≠ k.alone then
    let s1 := s.modPort p fun k => { k with state := k.alone }
    (if k.alone = 3 then s1.raise 0x0702 .warning [(1, p), (2, planId k.planAct)] else s1).tellPorts
  else s

/-- LNK_PLAN_COMMIT (R402, R403): the six shadow entries become active together and every port is evaluated again. -/
def State.commitPlan (s : State) : State :=
  let v := s.lnk.planVer + 1
  let before := (List.range 6).map fun p => (s.port p).state
  let s1 : State := { s with lnk := { s.lnk with ports := s.lnk.ports.map fun k => { k with planAct := k.planShd }, planVer := v } }
  let s2 := (List.range 6).foldl State.replan s1
  let moved := ((List.range 6).filter fun p => (s2.port p).state ≠ (before[p]?).getD 0).length
  s2.raise 0x0707 .info [(4, v.toNat), (1, moved)]

/-- LNK_RT_COMMIT (R406): the written copy becomes active for injection. A round that waits for route tables goes on
(R463). -/
def State.commitRoutes (s : State) : State :=
  let v := s.lnk.rtVer + 1
  let c := !s.lnk.rtCopy
  let s1 : State := { s with lnk := { s.lnk with rtVer := v, rtCopy := c } }
  let s2 := s1.raise 0x0708 .info [(4, v.toNat), (1, if c then 1 else 0)]
  if s.rcv.releaseDue then s2.floodRelease else s2

/-! ### Packets (R390, R391, R405, R407) -/

/-- A packet is discarded (R407): counted at its ingress, with one event in each 1,000,000 ns. -/
def State.dropPacket (s : State) (p dst cause : Nat) : State :=
  let k := s.port p
  let due := match k.dropEvt with | none => true | some t => decide (t + 1000000 ≤ s.ns)
  let s1 := s.modPort p fun k => { k with drop := satInc k.drop, dropEvt := if due then some s.ns else k.dropEvt }
  if due then s1.raise 0x0709 .warning [(1, p), (2, dst), (1, cause)] else s1

/-- The flits of a packet leave the ingress buffer, and their credits return (R391). -/
def State.popFlits (s : State) (p : Nat) (vc : Bool) (n : Nat) : State :=
  (s.modPort p fun k => if vc then { k with rx1 := k.rx1.drop n } else { k with rx0 := k.rx0.drop n }).reply 3 3
    [p, if vc then 1 else 0, n]

/-- Send flits on a port: each takes a credit and a SEQ, and stays in the replay buffer (R388, R391). -/
def LnkPort.sendFlits (k : LnkPort) (vc : Bool) (fs : List Flit) : LnkPort :=
  fs.foldl (fun k f =>
    let k1 : LnkPort := { k with buf := k.buf ++ [{ f with vc := vc, seq := k.txSeq }], txSeq := k.txSeq + 1 }
    if vc then { k1 with cr1 := k1.cr1 - 1 } else { k1 with cr0 := k1.cr0 - 1 }) k

/-- A port may take n more flits of a VC now. -/
def LnkPort.roomFor (k : LnkPort) (vc : Bool) (n : Nat) : Bool :=
  decide (n ≤ (if vc then k.cr1 else k.cr0) ∧ k.buf.length + n ≤ 1024)

/-- A field of n bytes of a packet header (R390). -/
def Flit.field (f : Flit) (i n : Nat) : Nat := leNat ((f.data.drop i).take n)

/-- The packet header (R390). -/
def Flit.dst (f : Flit) : Nat := f.field 0x00 2
def Flit.src (f : Flit) : Nat := f.field 0x02 2
def Flit.cls (f : Flit) : Nat := f.field 0x04 1
def Flit.rtv (f : Flit) : Bool := f.field 0x05 1 % 2 == 1
def Flit.det (f : Flit) : Bool := f.field 0x05 1 / 2 % 2 == 1
def Flit.hops (f : Flit) : Nat := f.field 0x06 1
def Flit.len (f : Flit) : Nat := f.field 0x08 2

/-- A packet has the header fields a row names. -/
def Flit.named (f : Flit) (dst src : BitVec 16) (cls : BitVec 8) (rtv det : Bool) (hops : BitVec 8) (len : BitVec 16) : Bool :=
  BitVec.ofNat 16 f.dst == dst && BitVec.ofNat 16 f.src == src && BitVec.ofNat 8 f.cls == cls && f.rtv == rtv &&
    f.det == det && BitVec.ofNat 8 f.hops == hops && BitVec.ofNat 16 f.len == len

/-- The header as it crosses one more link, detoured or not (R390, R405). -/
def Flit.onward (f : Flit) (det : Bool) : Flit :=
  let flags := f.field 0x05 1 - f.field 0x05 1 / 2 % 2 * 2 + if det then 2 else 0
  { f with data := List.set (List.set f.data 5 (BitVec.ofNat 8 flags)) 6 (BitVec.ofNat 8 (f.hops + 1)) }

/-- The flits of a packet as it is sent on: its first one carries the header. -/
def onwardFlits (det : Bool) : List Flit → List Flit
  | [] => []
  | f :: rest => f.onward det :: rest

/-- PACKET_FORWARD (R405, R407): the packet at the head of a buffer, once its flits have arrived, is delivered, sent on, or
dropped, as its header says. It waits for credits, and no further flit is sent under the brake (R529). -/
def State.forward (s : State) (p : Nat) (vc : Bool) : State :=
  let k := s.port p
  let buf := if vc then k.rx1 else k.rx0
  match buf with
  | [] => s
  | h :: _ =>
    let n := h.len
    let fs := buf.take n
    if fs.length < n ∨ n = 0 ∨ ¬ k.trained ∨ ¬ s.memRuns then s
    else if h.hops = 63 then (s.popFlits p vc n).dropPacket p h.dst 2
    else if k.state ≠ 5 ∧ (h.cls ≠ 4 ∨ h.dst ≠ s.own) then (s.popFlits p vc n).dropPacket p h.dst 0
    else
      match s.route h.dst h.rtv h.det with
      | .deliver => (s.popFlits p vc n).reply 3 0x102 [p, h.dst, h.src, h.cls, n] (fs.flatMap Flit.data)
      | .drop cause => (s.popFlits p vc n).dropPacket p h.dst cause
      | .send q v =>
        if (s.port q).roomFor v n then
          ((s.popFlits p vc n).modPort q fun k => k.sendFlits v (onwardFlits v fs)).reply 3 0x103
            [q, if v then 1 else 0, h.dst, h.src, h.cls, if h.rtv then 1 else 0, h.hops + 1, n]
        else s

/-- Forward the packet at the head of a buffer where it is the one named. -/
def State.forwardNamed (s : State) (p : Nat) (vc : Bool) (named : Flit → Bool) : State :=
  match if vc then (s.port p).rx1 else (s.port p).rx0 with
  | [] => s
  | h :: _ => if named h then s.forward p vc else s

/-! ### Line time (R410 to R415) -/

/-- LT_SYNC_SEND (R411): every 16,000 ns a request goes to the parent. -/
def State.syncSend (s : State) : State :=
  let l := s.lnk
  let due : Bool := match l.ltSent with | none => true | some t => decide (t + 128000 ≤ s.lt8)
  if l.hasParent ∧ l.up l.ltParent.toNat ∧ due then
    ({ s with lnk := { l with ltSent := some s.lt8 } } : State).reply 3 0x20 [l.ltParent.toNat]
  else s

/-- A rate correction that removes an offset within 16,000 ns, limited to 200 ppm (R411). -/
def rateFor (offset8 : Int) : Int := max (-200) (min 200 (offset8 * 78125 / 10000))

/-- OFFSET (R416) holds 16 bits; what it shows of a larger offset is not stated (log entry 3). -/
def State.showOffset (s : State) (o : Int) : State :=
  if -32768 ≤ o ∧ o ≤ 32767 then { s with lnk := { s.lnk with ltOffset := BitVec.ofInt 16 o } }
  else
    let (v, s1) := s.freshNat
    { s1 with lnk := { s1.lnk with ltOffset := BitVec.ofNat 16 v } }

/-- LT_SYNC_ANSWER (R411, R412): the parent's times of arrival and departure in 1/8 ns; `settle` when these are the last
exchanges of ACQUIRE. -/
def State.syncAnswer (s : State) (t2 t3 : Nat) (settle : Bool) : State :=
  let l := s.lnk
  match l.ltSent with
  | none => s
  | some t1 =>
    let o : Int := (((t2 : Int) - t1) - ((s.lt8 : Int) - t3)) / 2 - Sparse.at 0 l.ltAsym l.ltParent.toNat
    let s1 := (({ s with lnk := { l with ltRate := rateFor o } } : State).showOffset o)
    let p := l.ltParent.toNat
    if ¬ l.hasParent then s
    else if l.ltState = 2 ∨ ¬ settle then s1
    else if 8000 < o then
      let s2 : State := { s1 with lt8 := s1.lt8 + o.toNat, lnk := { s1.lnk with ltState := 2, ltRate := 0, ltSent := none } }
      s2.raise 0x070A .info [(1, p), (1, l.ltDist.toNat), (8, o.toNat / 8)]
    else if o < -8000 then
      if l.ltState = 4 then s1
      else ({ s1 with lnk := { s1.lnk with ltState := 4 } } : State).raise 0x070B .error [(1, p), (8, (-o).toNat / 8)]
    else ({ s1 with lnk := { s1.lnk with ltState := 2 } } : State).raise 0x070A .info [(1, p), (1, l.ltDist.toNat), (8, 0)]

/-- LT_PARENT_LOST (R412, R414): a new parent, or HOLDOVER; the backup becomes root when the root is lost. -/
def State.parentLost (s : State) (rootLost : Bool) : State :=
  let l := s.lnk
  if rootLost ∧ l.backupRoot = s.own then
    { s with lnk := { l with ltState := 5, ltParent := 7, ltDist := 0, ltRate := 0, ltSent := none } }
  else if l.hasParent ∧ ¬ l.up l.ltParent.toNat then s.chooseParent
  else s

/-- The root and its backup are named (R411): this module becomes root when it is the one. -/
def State.setLtRoot (s : State) (v : BitVec 32) : State :=
  let l := s.lnk
  let w := v &&& 0x7FFF7FFF
  if w.toNat % 2 ^ 15 = s.own then
    { s with lnk := { l with ltRoot := w, ltState := 5, ltParent := 7, ltDist := 0, ltRate := 0, ltSent := none } }
  else
    let st : BitVec 4 := if l.ltState = 5 then 0 else l.ltState
    ({ s with lnk := { l with ltRoot := w, ltState := st } } : State).chooseParent

/-! ### Ethernet and RDMA (R408, R409) -/

/-- A queue pair or region by number. -/
def LnkState.region (l : LnkState) (key : BitVec 32) (addr n : Nat) : Bool :=
  l.regions.any fun r => r.2.key == key && decide (r.2.base ≤ addr ∧ addr + n ≤ r.2.base + r.2.len)

/-- A remote access is refused (R409). -/
def State.refuseRdma (s : State) (qp : Nat) : State :=
  ({ s with lnk := { s.lnk with ethRefused := satInc s.lnk.ethRefused } } : State).reply 7 1 [qp]

/-- The queue pair of a remote access is set up and its Ethernet port has its link. -/
def LnkState.qpUp (l : LnkState) (qp : Nat) : Bool :=
  match Sparse.find l.qps qp with
  | some q => !q.failed && (if q.port then l.speed1 else l.speed0) != 0
  | none => false

/-- RDMA_REMOTE_WRITE (R409). -/
def State.remoteWrite (s : State) (qp : Nat) (key : BitVec 32) (addr : Nat) (data : List Byte) : State :=
  if ¬ s.memRuns ∨ ¬ s.lnk.ethUp then s
  else if ¬ s.lnk.qpUp qp ∨ ¬ s.lnk.region key addr data.length then s.refuseRdma qp
  else
    match s.needSnoops true ((sectorsOf addr data.length).map fun k => k / 2) with
    | some s' => s'
    | none =>
      let s1 : State := { s with mem := s.mem.writeHbm addr (data.map fun b => (b, false)) }
      s1.reply 7 0 [qp]

/-- RDMA_REMOTE_READ (R409): the bits of a poisoned byte are free outside (R189, log entry 36). -/
def State.remoteRead (s : State) (qp : Nat) (key : BitVec 32) (addr n : Nat) : State :=
  if ¬ s.memRuns ∨ ¬ s.lnk.ethUp then s
  else if ¬ s.lnk.qpUp qp ∨ ¬ s.lnk.region key addr n then s.refuseRdma qp
  else
    match s.needSnoops false ((sectorsOf addr n).map fun k => k / 2) with
    | some s' => s'
    | none =>
      let (seen, s1) := s.seenBytes (s.mem.readHbm addr n)
      s1.reply 7 2 [qp, addr] seen

/-- RDMA_WORK_COMPLETION (R409, R431, R433): work of the reduction engine is acknowledged or fails with its queue pair;
work of the copy engine or of firmware that reads brings its data to a place in HBM. -/
def State.workDone (s : State) (work : Option Nat) (ok : Bool) (dst : Nat) (data : List Byte) : State :=
  if ¬ s.memRuns then s
  else
    match work with
    | none =>
      if ok ∧ dst + data.length ≤ dpaSize then s.putHbm dst (data.map fun b => (b, false)) else s
    | some id =>
      match s.lnk.work.find? fun w => w.id = id with
      | none => s
      | some w =>
        let s1 : State := { s with lnk := { s.lnk with work := s.lnk.work.filter fun x => x.id ≠ id } }
        match s1.col.find w.group w.n w.slot with
        | none => s1
        | some o => if ok then s1.acked o else (s1.endOp o 4 s.own).admitAll

/-- ETH_LINK_CHANGE (R409, R431): work on a port that loses its link goes on over the other, or ends with cause 4. -/
def State.ethLink (s : State) (eth : Bool) (speed : BitVec 2) : State :=
  let l := s.lnk
  let s1 : State := { s with lnk := if eth then { l with speed1 := speed } else { l with speed0 := speed } }
  let s2 := s1.raise 0x070D .warning [(1, if eth then 1 else 0), (1, speed.toNat), (1, if speed = 0 then 0 else 1)]
  if s2.lnk.ethUp then s2 else s2.colPaths

/-- QUEUE_PAIR_SETUP (R409): a queue pair, or a memory region, which covers a pinned HBM range. -/
def State.setupRdma (s : State) (region : Bool) (num : Nat) (base len : Nat) (key : BitVec 32) (eth : Bool) (peer : Nat) :
    State :=
  if region then
    let pinned := s.mem.tensors.any fun t => t.pinned && !t.lost && match t.loc with
      | .hbm ex => ex.any fun e => decide (e.1 ≤ base ∧ base + len ≤ e.1 + e.2)
      | _ => false
    if pinned then { s with lnk := { s.lnk with regions := Sparse.put s.lnk.regions num ⟨base, len, key⟩ } } else s
  else { s with lnk := { s.lnk with qps := Sparse.put s.lnk.qps num ⟨eth, peer, false⟩ } }

/-! ### Commands -/

/-- Run a command on a Morgo port that exists (R386) while the I/O die is powered. -/
def withPort (port : BitVec 3) (s : State) (f : Nat → State) : Out :=
  if 6 ≤ port.toNat then .fault (.noSuchPart 386) else .next (if s.portsOn then f port.toNat else s)

/-- FRAME_RECEIVE (R388). -/
def execFrameReceive (port : BitVec 3) (valid vc : Bool) (seq : BitVec 12) (flit : List Byte × BitVec 32)
    (c0 c1 : List (BitVec 4)) (s : State) : Out :=
  withPort port s fun p => s.frame p valid vc seq flit.1 flit.2 c0 c1
/-- NAK (R388). -/
def execNak (port : BitVec 3) (seq : BitVec 12) (s : State) : Out := withPort port s fun p => s.nak p seq
/-- ACK (R388). -/
def execAck (port : BitVec 3) (seq : BitVec 12) (s : State) : Out := withPort port s fun p => s.ack p seq
/-- CREDIT (R391). -/
def execCredit (port : BitVec 3) (vc : Bool) (count : BitVec 10) (s : State) : Out :=
  withPort port s fun p => s.credit p vc count.toNat
/-- LANE_FAILING (R392). -/
def execLaneFailing (port : BitVec 3) (lane : BitVec 4) (lost : Bool) (seq : BitVec 12) (s : State) : Out :=
  withPort port s fun p => s.laneFailing p lane lost seq
/-- LANE_SWITCH (R392). -/
def execLaneSwitch (port : BitVec 3) (lane : BitVec 4) (seq : BitVec 12) (s : State) : Out :=
  withPort port s fun p => s.laneSwitch p lane seq
/-- LANE_SWITCH_APPLY (R392). -/
def execLaneSwitchApply (port : BitVec 3) (transmit : Bool) (s : State) : Out :=
  withPort port s fun p => s.laneApply p transmit
/-- LANE_ACK (R392). -/
def execLaneAck (port : BitVec 3) (lane : BitVec 4) (s : State) : Out := withPort port s fun p => s.laneAck p lane
/-- HEARTBEAT_SEND (R395). -/
def execHeartbeatSend (port : BitVec 3) (s : State) : Out := withPort port s fun p => s.sendHeartbeat p
/-- HEARTBEAT (R395). -/
def execHeartbeat (port : BitVec 3) (hold : BitVec 4) (dist : Option (BitVec 6)) (s : State) : Out :=
  withPort port s fun p => s.heartbeat p hold dist
/-- HEARTBEAT_TIMEOUT (R396). -/
def execHeartbeatTimeout (port : BitVec 3) (s : State) : Out :=
  withPort port s fun p => if (s.port p).state = 5 ∧ (s.port p).hbAt + 800000 ≤ s.ns then s.portDown p 2 else s
/-- FRAME_LOCK_LOSS (R396): lock has been lost for 10,000 ns. -/
def execFrameLockLoss (port : BitVec 3) (s : State) : Out := withPort port s fun p => s.portDown p 0
/-- LIVENESS_PROBE (R395). -/
def execLivenessProbe (s : State) : Out :=
  .next (if s.portsOn then { s with lnk := { s.lnk with probes := s.lnk.probes + 1 } } else s)
/-- PROBE_RETURN (R395). -/
def execProbeReturn (s : State) : Out :=
  .next (if s.portsOn ∧ 0 < s.lnk.probes then
    { s with lnk := { s.lnk with probes := s.lnk.probes - 1, wdFed := s.ns, wdExpired := false } } else s)
/-- WATCHDOG_EXPIRY (R395). -/
def execWatchdogExpiry (s : State) : Out := .next s.watchdog
/-- LANE_TRAINED (R398). -/
def execLaneTrained (port : BitVec 3) (levels : BitVec 4) (asym : Int) (s : State) : Out :=
  withPort port s fun p => s.laneTrained p levels asym
/-- DISCOVER (R398). -/
def execDiscover (port : BitVec 3) (id : BitVec 15) (peer : BitVec 3) (levels : BitVec 4) (s : State) : Out :=
  withPort port s fun p => s.discover p id peer levels
/-- ACCEPT (R398). -/
def execAccept (port : BitVec 3) (s : State) : Out := withPort port s fun p => s.accept p
/-- REJECT (R398). -/
def execReject (port : BitVec 3) (s : State) : Out := withPort port s fun p => s.reject p
/-- TRAINING_TIMEOUT (R398). -/
def execTrainingTimeout (port : BitVec 3) (s : State) : Out := withPort port s fun p => s.trainTimeout p
/-- RETRAIN_ATTEMPT (R399). -/
def execRetrainAttempt (port : BitVec 3) (s : State) : Out := withPort port s fun p => s.retrain p
/-- PEER_PORTS (R404): level 3 only (R401). -/
def execPeerPorts (port : BitVec 3) (states : List (BitVec 4)) (s : State) : Out :=
  withPort port s fun p => if (s.port p).level = 3 then s.modPort p fun k => { k with peerPorts := states } else s
/-- PACKET_FORWARD (R405). -/
def execPacketForward (port : BitVec 3) (vc : Bool) (dst src : BitVec 16) (cls : BitVec 8) (rtv det : Bool) (hops : BitVec 8)
    (len : BitVec 16) (s : State) : Out :=
  withPort port s fun p => s.forwardNamed p vc fun h => h.named dst src cls rtv det hops len
/-- LNK_PLAN_COMMIT (R403): a reserved kind of entry has undefined results (R15, R397). -/
def execLnkPlanCommit (value : BitVec 32) (s : State) : Out :=
  .next (if value.getLsbD 0 ∧ s.portsOn then (s.undefinedIf (s.lnk.ports.any fun k => planKind k.planShd = 3)).commitPlan
    else s)
/-- LNK_RT_COMMIT (R406). -/
def execLnkRtCommit (value : BitVec 32) (s : State) : Out :=
  .next (if value.getLsbD 0 ∧ s.portsOn then s.commitRoutes else s)
/-- LT_SYNC_SEND (R411). -/
def execLtSyncSend (s : State) : Out := .next (if s.portsOn then s.syncSend else s)
/-- LT_SYNC_REQUEST (R411): the parent answers with the times of arrival and departure, here the same. -/
def execLtSyncRequest (port : BitVec 3) (s : State) : Out :=
  withPort port s fun p => if (s.port p).trained then s.reply 3 0x21 [p, s.lt8, s.lt8] else s
/-- LT_SYNC_ANSWER (R411). -/
def execLtSyncAnswer (t2 t3 : Nat) (settle : Bool) (s : State) : Out :=
  .next (if s.portsOn then s.syncAnswer t2 t3 settle else s)
/-- LT_PARENT_LOST (R414). -/
def execLtParentLost (rootLost : Bool) (s : State) : Out := .next (if s.portsOn then s.parentLost rootLost else s)
/-- LT_REALIGN (R410): a signal box realigns its copy; what deviation is left lies within 2 ns. -/
def execLtRealign (die : BitVec 3) (cluster : BitVec 4) (dev : BitVec 6) (s : State) : Out :=
  if 9 ≤ cluster.toNat then .fault (.noSuchPart 22)
  else
    let b := 16 * die.toNat + cluster.toNat
    .next (if s.portsOn ∧ dev.toInt.natAbs ≤ 16 then s.setBox b { s.box b with ltDev := dev.toInt } else s)
/-- ROOT_LINE_TIME_SET (R410, R412): only the root's line time is set, and never backward. -/
def execRootLineTimeSet (value : BitVec 64) (s : State) : Out :=
  .next (if s.portsOn ∧ s.lnk.ltState = 5 ∧ s.lt8 ≤ 8 * value.toNat then { s with lt8 := 8 * value.toNat } else s)
/-- IEEE_1588_SYNC (R415): the root of an island adjusts its rate towards the time source. -/
def execIeee1588Sync (eth : Bool) (offset8 : Int) (s : State) : Out :=
  let up := (if eth then s.lnk.speed1 else s.lnk.speed0) ≠ 0
  .next (if s.portsOn ∧ up ∧ s.lnk.ltState = 5 then { s with lnk := { s.lnk with ltRate := rateFor offset8 } } else s)
/-- ETH_LINK_CHANGE (R409). -/
def execEthLinkChange (eth : Bool) (speed : BitVec 2) (s : State) : Out :=
  if speed = 3 then .fault (.noSuchPart 416) else .next (if s.portsOn then s.ethLink eth speed else s)
/-- RDMA_REMOTE_WRITE (R409). -/
def execRdmaRemoteWrite (qp : Nat) (key : BitVec 32) (addr : Nat) (data : List Byte) (s : State) : Out :=
  .next (s.remoteWrite qp key addr data)
/-- RDMA_REMOTE_READ (R409). -/
def execRdmaRemoteRead (qp : Nat) (key : BitVec 32) (addr len : Nat) (s : State) : Out :=
  .next (s.remoteRead qp key addr len)
/-- RDMA_WORK_COMPLETION (R409). -/
def execRdmaWorkCompletion (work : Option Nat) (ok : Bool) (dst : Nat) (data : List Byte) (s : State) : Out :=
  .next (s.workDone work ok dst data)
/-- CONGESTION_NOTIFICATION (R408): the rate of the queue pair is reduced once more. -/
def execCongestionNotification (qp : Nat) (s : State) : Out :=
  .next (if s.portsOn then { s with lnk := { s.lnk with cnp := Sparse.put s.lnk.cnp qp (Sparse.at 0 s.lnk.cnp qp + 1) } } else s)
/-- PRIORITY_FLOW_CONTROL (R408): a priority of a port is paused or resumed. -/
def execPriorityFlowControl (eth : Bool) (priority : BitVec 3) (pause : Bool) (s : State) : Out :=
  let set (m : BitVec 8) : BitVec 8 :=
    if pause then m ||| (1#8 <<< priority.toNat) else m &&& ~~~(1#8 <<< priority.toNat)
  let l := s.lnk
  .next (if s.portsOn then
    { s with lnk := if eth then { l with pause1 := set l.pause1 } else { l with pause0 := set l.pause0 } } else s)
/-- QUEUE_PAIR_SETUP (R409): 16,384 queue pairs and 4,096 regions. -/
def execQueuePairSetup (region : Bool) (num base len : Nat) (key : BitVec 32) (eth : Bool) (peer : BitVec 24) (s : State) :
    Out :=
  if (if region then 4096 else 16384) ≤ num then .fault (.noSuchPart 409)
  else .next (if s.portsOn then s.setupRdma region num base len key eth peer.toNat else s)
/-- MODULE_ID_ASSIGN (R25). -/
def execModuleIdAssign (id : BitVec 15) (s : State) : Out := .next { s with modId := id }

end Sys2Proof.Machine
end

