-- ==== Sys2Proof/Machine/Registers.lean ====
section
/-!
DEFINITION. Reads of the register windows (R520 to R523), block by block: each read answers a word and what the read does
to the machine.
-/

namespace Sys2Proof.Machine

/-- A one-bit field. -/
def fld (b : Bool) (pos : Nat) : Nat := if b then 2 ^ pos else 0

/-- A word from the sum of its fields. -/
def w32 (n : Nat) : Word := BitVec.ofNat 32 n

/-- The two halves of a 64-bit quantity. -/
def loWord (n : Nat) : Word := w32 n
def hiWord (n : Nat) : Word := w32 (n / 2 ^ 32)

/-- A read that changes nothing. -/
def State.show (s : State) (w : Word) : Word × State := (w, s)

/-! ### Cell control blocks (R76, R186, R202, R249, R275, R523) -/

/-- CELL_STATUS (R76). -/
def CellState.statusWord (c : CellState) : Word :=
  let held : Bool := match c.banks.load with
    | some l => l.phase == .held
    | none => false
  w32 (c.fault.toNat * 2 ^ 24 + fld (c.core.wait.kind == 5) 9 + fld held 8 + fld c.banks.loadingInactive 7 +
    fld c.banks.valid1 6 + fld c.banks.valid0 5 + fld c.banks.active 4 + c.st.code)

/-- CELL_SUSPECT (R76). -/
def CellState.suspectWord (c : CellState) (ns : Nat) : Word :=
  w32 (c.ctr.suspTotal.toNat * 2 ^ 8 + min 2 (c.ctr.suspects.filter fun t => ns ≤ t + suspectWindow).length)

/-- CELL_WAIT (R523) at a line time [ns]. -/
def CellState.waitWord (c : CellState) (ns : Nat) : Word :=
  let w := c.core.wait
  if w.kind = 0 then 0
  else w32 (w.kind.toNat * 2 ^ 28 + w.target.toNat * 2 ^ 16 + min 0xFFFF ((ns - w.since) / 1000))

/-- The context that holds the transform unit: the one whose transformed move has a write to make (R257). -/
def CellState.unitOwner (c : CellState) : Option (BitVec 2) :=
  [0, 1, 2, 3].find? fun i : BitVec 2 => (rget c.wb i).pieces.any Piece.xf ||
    c.qms.run.any fun r => r.ended && r.ctx == some i && r.pieces.any Piece.xf

/-- CELL_WB_CTX (R275). -/
def CellState.ctxWord (c : CellState) : Word :=
  let bits (f : WbCtx → Bool) : Nat :=
    ((List.range 4).map fun i => fld (f (rget c.wb (BitVec.ofNat 2 i))) i).sum
  let owner := match c.unitOwner with | some i => i.toNat * 2 ^ 9 + 2 ^ 8 | none => 0
  w32 (owner + bits (fun x => x.fence || x.waitOn.isSome) * 2 ^ 4 + bits WbCtx.busy)

/-- The line time at which a cell's waits stand: a braked module's stand still (R529). -/
def State.waitNow (s : State) : Nat := if s.dbg.braked then min s.ns s.dbg.brakeLt.toNat else s.ns

/-- Change the counters of a cell. -/
def State.modCtr (s : State) (id : CellId) (f : CellCtr → CellCtr) : State := s.modCell id fun c => { c with ctr := f c.ctr }

/-- A register of a cell control block. -/
def State.readCell (s : State) (id : CellId) (off : Nat) : Word × State :=
  let c := s.cell id
  match off with
  | 0x00 => s.show c.statusWord
  | 0x04 => s.show c.qlevel
  | 0x08 => s.show (c.suspectWord s.ns)
  | 0x10 => s.show c.nan.status
  | 0x14 => s.show c.nan.seq
  | 0x18 => s.show c.nan.elem
  | 0x1C => s.show c.nan.step
  | 0x20 => s.show (loWord c.nan.lt.toNat)
  | 0x24 => s.show (hiWord c.nan.lt.toNat)
  | 0x28 => s.show (loWord c.regs.seed.toNat)
  | 0x2C => s.show (hiWord c.regs.seed.toNat)
  | 0x30 => s.show c.regs.numFlags
  | 0x34 => s.show c.regs.cmdSeq
  | 0x38 => s.show c.regs.cmdFlags
  | 0x3C => s.show c.regs.faultCmd
  | 0x40 => s.show c.regs.faultSeq
  | 0x44 => s.show c.ctxWord
  | 0x48 => s.show c.regs.wbFault
  | 0x4C => s.show c.regs.wbMarked
  | 0x50 => (loWord c.ctr.utilMx.toNat, s.modCtr id fun k => { k with utilMxHi := hiWord k.utilMx.toNat })
  | 0x54 => s.show c.ctr.utilMxHi
  | 0x58 => (loWord c.ctr.utilVx.toNat, s.modCtr id fun k => { k with utilVxHi := hiWord k.utilVx.toNat })
  | 0x5C => s.show c.ctr.utilVxHi
  | 0x60 => s.show (w32 (c.ctr.ceStore.toNat * 2 ^ 16 + c.ctr.ceDmem.toNat))
  | 0x64 => s.show (c.waitWord s.waitNow)
  | _ => s.show 0

/-! ### Signal boxes (R161, R540) -/

/-- CL_MX_STATUS (R161): a tile drains from the last row of its command to its check beat (log entry 41). -/
def CellState.mxWord (c : CellState) : Word :=
  let m := c.mx
  let tile (b : Bool) : Bool := m.cmds.any fun k => k.bank == b && decide (0 < k.rows) && !k.checked
  let stream := m.cmds.any fun k => decide (0 < k.rows ∧ k.rows < spanOf k.cmd)
  w32 (c.ctr.mxLoc.toNat / 2 ^ 12 * 2 ^ 12 + fld (m.gap != .none) 5 + fld (m.retry || m.cmds.any fun k => k.attempt == 1) 4 +
    fld (m.cmds.any fun k => decide (spanOf k.cmd ≤ k.rows) && !k.checked) 3 + fld stream 2 + fld (tile true) 1 + fld (tile false) 0)

/-- CL_TRACE_STATUS (R540). -/
def TraceState.statusWord (t : TraceState) : Word :=
  w32 (fld t.armed 31 + fld t.triggered 30 + fld t.stopped 29 + t.wr % 2 ^ 24)

/-- A register of a signal box. -/
def State.readBox (s : State) (k off : Nat) : Word × State :=
  let b := s.box k
  if 0x200 ≤ off ∧ off < 0x300 then
    let id : CellId := BitVec.ofNat 11 (16 * k + (off - 0x200) / 16)
    let c := s.cell id
    match off % 16 with
    | 0x0 => s.show c.mxWord
    | 0x4 => s.show c.ctr.mxChecks
    | 0x8 => (loWord c.ctr.ballast.toNat, s.modCtr id fun k => { k with ballastHi := hiWord k.ballast.toNat })
    | 0xC => s.show c.ctr.ballastHi
    | _ => s.show 0
  else
    match off with
    | 0x100 => s.show b.mxConfig
    | 0x104 => s.show b.ballastCfg
    | 0x300 => s.show b.trace.cfg
    | 0x308 => s.show b.trace.statusWord
    | 0x30C => s.show b.trace.trig
    | 0x310 => s.show b.trace.dropped
    | 0x314 => s.show b.trace.ovwr
    | 0x318 => s.show b.trace.cells
    | _ => s.show 0

/-! ### Arbiter blocks (R322) -/

/-- MASKED and LASTBG of one arbiter, with the tables in force. -/
def ArbBlock.arbView (k : ArbBlock) (a : Arb) : Nat × BitVec 4 :=
  (((List.range 16).map fun r =>
      fld (!k.act.token a (BitVec.ofNat 4 r)) r).sum, a.lastbg)

/-- TT_STATUS (R322): where arbiters of a block differ, the specification does not state which of them MASKED and LASTBG
show (log entry 3). -/
def State.ttStatus (s : State) (b : BitVec 3) : Word × State :=
  let k := s.arbBlock b
  let listed := k.arbs.map fun e => k.arbView e.2
  let all := if b = 0 ∧ k.arbs.length < 1024 ∨ k.arbs = [] then k.arbView Arb.init :: listed else listed
  let mid := fld k.pending 15 + k.slot.toNat * 2 ^ 4
  match all with
  | [] => s.show (w32 mid)
  | v :: rest =>
    if rest.all (fun x => x == v) then s.show (w32 (v.1 * 2 ^ 16 + mid + v.2.toNat))
    else
      let (n, s1) := s.freshNat
      (w32 (n % 2 ^ 16 * 2 ^ 16 + mid + n / 2 ^ 16 % 16), s1)

/-- A register of an arbiter block. -/
def State.readArb (s : State) (b : BitVec 3) (off : Nat) : Word × State :=
  let k := s.arbBlock b
  if off % 4 ≠ 0 then s.show 0
  else if 0x40 ≤ off ∧ off < 0x80 then s.show (rget k.act.slots (BitVec.ofNat 4 ((off - 0x40) / 4)))
  else if 0x80 ≤ off ∧ off < 0xC0 then s.show (rget k.shd.slots (BitVec.ofNat 4 ((off - 0x80) / 4)))
  else if 0xC0 ≤ off ∧ off < 0xD0 then s.show (rget k.act.tok (BitVec.ofNat 2 ((off - 0xC0) / 4)))
  else if 0xD0 ≤ off ∧ off < 0xE0 then s.show (rget k.shd.tok (BitVec.ofNat 2 ((off - 0xD0) / 4)))
  else
    match off with
    | 0x00 => s.show k.ver
    | 0x08 => s.ttStatus b
    | 0xE0 => s.show (k.act.bg.setWidth 32)
    | 0xE4 => s.show (k.shd.bg.setWidth 32)
    | _ => s.show 0

/-! ### Memory and dispatcher (R308, R353) -/

/-- MEM_STK_STATUS (R308). -/
def StackState.word (k : StackState) : Word :=
  w32 (fld k.trained 31 + k.spares.toNat * 2 ^ 16 + k.repStart.toNat * 2 ^ 8 + k.repLive.toNat)

/-- A register of the memory control base. -/
def State.readMem (s : State) (off : Nat) : Word × State :=
  let m := s.mem
  if 0x200 ≤ off ∧ off < 0x300 then s.readArb 0 (off - 0x200)
  else if off % 4 ≠ 0 then s.show 0
  else if 0x40 ≤ off ∧ off < 0x80 then s.show (rget m.scopeAct (BitVec.ofNat 4 ((off - 0x40) / 4)))
  else if 0x80 ≤ off ∧ off < 0xC0 then s.show (rget m.scopeShd (BitVec.ofNat 4 ((off - 0x80) / 4)))
  else if 0x100 ≤ off ∧ off < 0x200 then
    let k := rget m.stks (BitVec.ofNat 4 ((off - 0x100) / 16))
    match off % 16 with
    | 0x0 => s.show k.word
    | 0x4 => s.show k.ce
    | 0x8 => s.show (k.ue.setWidth 32)
    | _ => s.show 0
  else
    match off with
    | 0x00 => s.show m.scopeVer
    | 0x08 => s.show m.scrubCfg
    | 0x0C => s.show m.repairCfg
    | _ => s.show 0

/-- A register of the dispatcher control base. -/
def State.readDsp (s : State) (off : Nat) : Word × State :=
  let d := s.dsp
  match off with
  | 0x00 => s.show (w32 (fld d.idle 31 + fld (!s.starting) 30 + s.readyCount % 2 ^ 9 * 2 ^ 16 + min 0xFFFF s.runningCount))
  | 0x04 => s.show d.cfg
  | 0x08 => s.show d.pmapVer
  | 0x0C => s.show (w32 (min 0xFFF s.dmqLevel))
  | 0x10 => s.show d.enqRefused
  | 0x14 => s.show d.lastTask
  | 0x18 => s.show d.wakeMax
  | _ => s.show 0

/-! ### Links (R416) -/

/-- LNK_PORT_STATUS (R416). -/
def LnkPort.statusWord (k : LnkPort) : Word :=
  w32 (k.state.toNat * 2 ^ 28 + k.level.toNat * 2 ^ 24 + k.reason.toNat * 2 ^ 20 + k.sparesTx.toNat * 2 ^ 18 +
    k.sparesRx.toNat * 2 ^ 16 + k.laneMap.toNat)

/-- LNK_PORT_ERR (R416). -/
def LnkPort.errWord (k : LnkPort) : Word := w32 (k.drop.toNat * 2 ^ 24 + k.replay.toNat * 2 ^ 16 + k.corr.toNat)

/-- A read of an RC register clears it (R18). -/
def LnkPort.clearErr (k : LnkPort) : LnkPort := { k with drop := 0, replay := 0, corr := 0 }

/-- A register of the link control base. -/
def State.readLnk (s : State) (off : Nat) : Word × State :=
  let l := s.lnk
  if 0x800 ≤ off ∧ off < 0xE00 then s.readArb (BitVec.ofNat 3 ((off - 0x800) / 256 + 1)) (off % 256)
  else if off < 0xC0 then
    let p := off / 32
    let k := l.port p
    match off % 32 with
    | 0x00 => s.show k.statusWord
    | 0x04 => (k.errWord, s.modPort p LnkPort.clearErr)
    | 0x08 => s.show k.planAct
    | 0x0C => s.show k.planShd
    | 0x10 => s.show k.peer
    | 0x14 => s.show k.cfg
    | _ => s.show 0
  else
    match off with
    | 0x100 => s.show (w32 (fld l.planPending 31 + l.planVer.toNat))
    | 0x108 => s.show (w32 (fld l.rtCopy 30 + l.rtVer.toNat))
    | 0x110 => s.show (l.rtIndex.setWidth 32)
    | 0x114 => s.show (l.rtBlock (!l.rtCopy) l.rtIndex.toNat)
    | 0x120 => s.show (w32 (l.ltState.toNat * 2 ^ 28 + l.ltParent.toNat * 2 ^ 25 + l.ltDist.toNat * 2 ^ 19 + l.ltOffset.toNat))
    | 0x124 => s.show l.ltRoot
    | 0x130 => s.show (w32 (l.ethRefused.toNat * 2 ^ 24 + l.speed1.toNat * 4 + l.speed0.toNat))
    | _ => s.show 0

/-! ### Collectives and recovery (R437, R465) -/

/-- COL_GT_ADDR names a word its shadow entry has (R437): the header, or a member word below NWORDS. -/
def ColState.gtSlot (c : ColState) : Option (Nat × Nat) :=
  let g := bitsOf c.gtAddr.toNat 29 18
  let w := bitsOf c.gtAddr.toNat 13 0
  if w < 16 + GEntry.nwords (c.shadow.at [] g) then some (g, w) else none

/-- COL_STATUS (R437): operations whose contributions wait are counted once each. -/
def ColState.statusWord (c : ColState) : Word :=
  let keys := c.waiting.map fun x => (x.1.group, x.2, x.1.slot)
  w32 (c.ops.length % 64 * 2 ^ 16 + min 0xFFFF keys.eraseDups.length)

/-- COL_ERR (R437). -/
def ColState.errWord (c : ColState) : Word :=
  w32 (c.errLocal.toNat * 2 ^ 24 + c.errTimeout.toNat * 2 ^ 16 + c.errVersion.toNat * 2 ^ 8 + c.errPath.toNat)

/-- A register of the collective control base. -/
def State.readCol (s : State) (off : Nat) : Word × State :=
  let c := s.col
  let r := s.rcv
  if 0x400 ≤ off ∧ off < 0x500 then s.readArb 7 (off - 0x400)
  else
    match off with
    | 0x000 => s.show c.statusWord
    | 0x004 => s.show c.cfg
    | 0x008 => s.show c.gtVer
    | 0x010 => s.show c.gtAddr
    | 0x014 => s.show (match c.gtSlot with
        | some (g, w) => Sparse.at 0 (c.shadow.at [] g) w
        | none => 0)
    | 0x018 => (c.errWord, { s with col := { c with errLocal := 0, errTimeout := 0, errVersion := 0, errPath := 0 } })
    | 0x100 => s.show r.job
    | 0x104 => s.show r.coord
    | 0x108 => s.show r.parCfg
    | 0x10C => s.show r.parLo
    | 0x110 => s.show r.parHi
    | 0x114 => s.show r.parSize
    | 0x118 => s.show (loWord s.committed)
    | 0x11C => s.show (loWord s.jobEpoch)
    | 0x120 => s.show (w32 (r.state.toNat * 2 ^ 28 + r.cause.toNat * 2 ^ 24 + r.round.toNat * 2 ^ 16 + r.failed.toNat))
    | 0x124 => s.show (w32 (r.lastMs.toNat * 2 ^ 16 + r.count.toNat))
    | 0x128 => s.show (r.spareAddr.setWidth 32)
    | 0x12C => s.show (Sparse.at 0 r.spares r.spareAddr.toNat)
    | _ => s.show 0

/-! ### Power and firmware (R494, R518) -/

/-- PWR_STATUS (R494). -/
def PwrState.statusWord (p : PwrState) : Word :=
  let bits (f : Nat → Bool) : Nat := ((List.range 8).map fun n => fld (f n) n).sum
  w32 (fld p.emerg 31 + fld p.inWarn 30 + fld (p.nine.any DiePower.thermWarn) 29 + fld p.untrusted 28 + fld p.hwLimit 27 +
    fld p.fallbackOn 26 + fld p.pcUp 25 + bits (fun n => (p.die n).railWarn) * 2 ^ 8 + bits p.limited)

/-- PWR_FALLBACK.LEFT (R494): a part of a second left counts as one (log entry 24). -/
def PwrState.left (p : PwrState) (ns : Nat) : Nat :=
  match p.grant with
  | none => 0
  | some g =>
    if p.fallbackOn then 0
    else match g.ends with
      | none => 0xFFFF
      | some e => min 0xFFFE ((e - ns + 999999999) / 1000000000)

/-- PWR_GRANT (R494). -/
def PwrState.grantWord (p : PwrState) : Word :=
  match p.grant with
  | some g => w32 (g.seq.toNat * 2 ^ 16 + g.watts.toNat)
  | none => 0

/-- A register of the power control base. -/
def State.readPwr (s : State) (off : Nat) : Word × State :=
  let p := s.pwr
  if 0x40 ≤ off ∧ off < 0x60 ∧ off % 4 = 0 then
    let n := (off - 0x40) / 4
    let d := p.die n
    s.show (w32 (d.temp.toNat * 2 ^ 24 + d.rail.toNat * 2 ^ 14 + p.dutyOf n % 128 * 2 ^ 7))
  else
    match off with
    | 0x00 => s.show p.statusWord
    | 0x04 => s.show (p.capLocal.setWidth 32)
    | 0x08 => s.show (w32 (p.effSource.toNat * 2 ^ 30 + p.capEff.toNat))
    | 0x0C => s.show p.grantWord
    | 0x10 => s.show (w32 (p.left s.ns * 2 ^ 16 + p.fallback.toNat))
    | 0x14 => s.show (w32 (p.volt.toNat * 2 ^ 16 + p.watts.toNat))
    | 0x18 => (loWord p.energy.toNat, { s with pwr := { p with energyHi := hiWord p.energy.toNat } })
    | 0x1C => s.show p.energyHi
    | 0x20 => (loWord p.ballastMj, { s with pwr := { p with ballastHi := hiWord p.ballastMj } })
    | 0x24 => s.show p.ballastHi
    | 0x28 => s.show p.throttleMs
    | 0x2C => s.show p.capVer
    | _ => s.show 0

/-- A register of the firmware control base. -/
def State.readFw (s : State) (off : Nat) : Word × State :=
  let f := s.fw
  match off with
  | 0x00 => s.show (w32 (f.start.toNat * 2 ^ 29 + fld f.depot 28 + f.fails.toNat * 2 ^ 26 + f.stage.toNat * 2 ^ 21 +
      f.lastFail.toNat * 2 ^ 16 + f.minKey.toNat * 2 ^ 12 + f.active.keyIdx.toNat * 2 ^ 8))
  | 0x04 => s.show f.active.svn
  | 0x08 => s.show f.floor
  | 0x0C => s.show (loWord f.active.version.toNat)
  | 0x10 => s.show (hiWord f.active.version.toNat)
  | 0x14 => s.show (match f.staged with
      | some b => b.svn
      | none => 0)
  | 0x18 => s.show (w32 (f.updState.toNat * 2 ^ 28 + f.updComp.toNat * 2 ^ 24 + f.updReason.toNat * 2 ^ 16 + f.deferS.toNat))
  | 0x1C => s.show (w32 (f.lastMs.toNat * 2 ^ 16 + f.starts.toNat))
  | _ => s.show 0

/-! ### Debug block and trace port (R524, R528, R541) -/

/-- The 32 bytes of a trace entry, in the layout of R375 (R524). -/
def TraceEntry.bytes (e : TraceEntry) (module : BitVec 15) : List Byte :=
  leBytes 8 e.lt.toNat ++ leBytes 2 e.code.toNat ++ leBytes 1 e.sev.toNat ++ leBytes 1 0 ++ leBytes 2 module.toNat ++
    leBytes 2 e.seq.toNat ++ ((e.payload ++ List.replicate 16 0).take 16)

/-- The entry DBG_TRACE_SEL names (R541): clusters 72 to 127 and slots nothing has written read 0 (log entry 25). -/
def State.tracePick (s : State) : List Byte :=
  let sel := s.dbg.traceSel.toNat
  let k := bitsOf sel 30 24
  let i := bitsOf sel 22 0
  let slot := if bitsOf sel 23 23 = 1 then sramSlots + i else i
  if 72 ≤ k ∨ (bitsOf sel 23 23 = 0 ∧ sramSlots ≤ i) then List.replicate 32 0
  else
    match Sparse.find (s.box (16 * (k / 9) + k % 9)).trace.slots slot with
    | some e => e.bytes s.modId
    | none => List.replicate 32 0

/-- A 32-bit word of a list of bytes. -/
def wordAt (bs : List Byte) (i : Nat) : Word := w32 (leNat ((bs.drop (4 * i)).take 4))

/-- DBG_TRACE_DATA (R541): word 0 latches the entry, and a read of word 7 advances INDEX. -/
def State.readTrace (s : State) (w : Nat) : Word × State :=
  let d := s.dbg
  if w = 0 then
    let bs := s.tracePick
    (wordAt bs 0, { s with dbg := { d with traceEntry := bs } })
  else
    let v := wordAt d.traceEntry w
    if w = 7 then
      let sel := d.traceSel.toNat
      (v, { s with dbg := { d with traceSel := w32 (sel / 2 ^ 23 * 2 ^ 23 + (sel + 1) % 2 ^ 23) } })
    else s.show v

/-- The beats of a die (R541). -/
def DbgState.beatCount (d : DbgState) (n : BitVec 3) : Nat := rget d.beats n / 17500000

/-- A register of the debug block. -/
def State.readDbg (s : State) (off : Nat) : Word × State :=
  let d := s.dbg
  if off % 4 ≠ 0 then s.show 0
  else if 0x20 ≤ off ∧ off < 0x40 then s.readTrace ((off - 0x20) / 4)
  else if 0x40 ≤ off ∧ off < 0x80 then
    let n : BitVec 3 := BitVec.ofNat 3 ((off - 0x40) / 8)
    if off % 8 = 0 then (loWord (d.beatCount n), { s with dbg := { d with beatsHi := rset d.beatsHi n (hiWord (d.beatCount n)) } })
    else s.show (rget d.beatsHi n)
  else if 0x80 ≤ off ∧ off < 0xA0 then s.show ((rget d.rate (BitVec.ofNat 3 ((off - 0x80) / 4))).setWidth 32)
  else
    match off with
    | 0x04 => s.show (w32 (fld d.braked 31 + d.source.toNat * 2 ^ 28))
    | 0x08 => s.show (loWord d.brakeLt.toNat)
    | 0x0C => s.show (hiWord d.brakeLt.toNat)
    | 0x10 => s.show d.traceSel
    | 0xA0 => s.show d.hangCfg
    | 0xA4 => s.show (w32 (d.gen.toNat % 2 ^ 16 * 2 ^ 16 + d.cycles.toNat * 2 ^ 8 + d.dead.toNat))
    | 0xB0 => s.show (w32 (d.evtErr.toNat * 2 ^ 16 + d.evtWarn.toNat))
    | _ => s.show 0

/-! ### The map of R520 -/

/-- A word of the register windows by BAR0 offset; an offset not listed reads 0 (R520). -/
def State.readWin (s : State) (off : Nat) : Word × State :=
  if off % 4 ≠ 0 then s.show 0
  else if 0x10000 ≤ off ∧ off < 0x58000 then s.readCell (cellOfIndex ((off - 0x10000) / 256)) (off % 256)
  else if 0x60000 ≤ off ∧ off < 0x72000 then
    let n := (off - 0x60000) / 1024
    s.readBox (16 * (n / 9) + n % 9) (off % 1024)
  else if 0x90000 ≤ off ∧ off < 0xA0000 then s.show (wordAt s.dbg.image ((off - 0x90000) / 4))
  else
    match off / 4096 with
    | 0x80 => s.readMem (off % 4096)
    | 0x81 => s.readDsp (off % 4096)
    | 0x82 => s.readLnk (off % 4096)
    | 0x83 => s.readCol (off % 4096)
    | 0x84 => s.readPwr (off % 4096)
    | 0x85 => s.readFw (off % 4096)
    | 0x86 => s.readDbg (off % 4096)
    | _ => s.show 0

/-- The always-on registers a side-band read reaches while the main power stage is off (R521). -/
def alwaysOn (off : Nat) : Bool := off / 4096 == 0x85 || off == 0x84018 || off == 0x8401C

/-- A word over the side-band (R52, R521): the copy of the capability table at its offsets (log entry 31), and the windows. -/
def State.readSide (s : State) (off : Nat) : Word × State :=
  if 0x800 ≤ off ∧ off < 0xA00 then s.show (if off % 4 = 0 then s.copyWord ((off - 0x800) / 4) else 0)
  else if s.pwr.main ∨ alwaysOn off then s.readWin off else s.show 0

end Sys2Proof.Machine
end

