-- ==== Sys2Proof/Machine/Writes.lean ====
section
/-!
DEFINITION. Writes of the register windows (R18, R520, R521): which writer reaches which register, and what each write
does.
-/

namespace Sys2Proof.Machine

/-- Write a 32-bit register through the mask of its writable bits: reserved bits read 0 (R15, R16). -/
def masked (v mask : Word) : Word := v &&& mask

/-- Dispatcher firmware runs and reaches the registers of the powered module. -/
def State.fwWrites (s : State) : Bool := s.pwr.main && s.hif.fwUp

/-! ### Signal boxes and the debug block (R161, R521, R540, R541) -/

/-- A write of CL_TRACE_CTRL (R540): of several bits set, ARM acts first, then TRIGGER, then STOP (log entry 26). -/
def State.traceCtrl (s : State) (k : Nat) (v : Word) : State :=
  let s1 := if v.getLsbD 0 then s.traceArm k else s
  let s2 := if v.getLsbD 2 then s1.triggerTrace k 0 0x7FF (clusterIndex k) (s1.boxLt k) else s1
  if v.getLsbD 1 then s2.modTrace k TraceState.stop else s2

/-- A write to a signal box that the host and the side-band may make. -/
def State.writeBox (s : State) (k off : Nat) (v : Word) : State :=
  match off with
  | 0x100 => s.setBox k { s.box k with mxConfig := masked v 0x00000FF1 }
  | 0x300 => s.modTrace k fun t => { t with cfg := masked v 0xFFFFC000 }
  | 0x304 => s.traceCtrl k v
  | 0x30C => s.modTrace k fun t => { t with trig := masked v 0xFC00FFFF }
  | 0x318 => s.modTrace k fun t => { t with cells := masked v 0x0000FFFF }
  | _ => s

/-! ### The wait-for graph's first snapshot (R537) -/

/-- A node with the cell and kind of R538. -/
def cellNode (id : Nat) (kind index detail : Nat) : GNode := ⟨id, kind, index, detail⟩

/-- The SEM node of a wait: the count now and the count needed (R538). -/
def semNode (id : Nat) (c : CellState) (sem : BitVec 5) (need : Nat) : GNode :=
  cellNode id 6 sem.toNat ((c.sem sem).toNat + need % 2 ^ 16 * 2 ^ 16)

/-- The node of what q.ms holds outside its contexts (log entry 27). -/
def msQueue : Nat := 4

/-- The wait of the head command of a queue for its WSEM (R62). -/
def headWait (id : Nat) (c : CellState) (q : BitVec 2) (kind index : Nat) : List SnapWait :=
  match (c.queue q).q with
  | [] => []
  | h :: _ =>
    let w := h.word
    if (c.sem (cWsem w)).toNat < (cWcnt w).toNat then
      [⟨cellNode id kind index h.seq.toNat, semNode id c (cWsem w) (cWcnt w).toNat, c.ctr.cmds⟩]
    else []

/-- The waits of a cell core (R537); the specification names no detail for a CORE node, so it is the free value `d`. -/
def coreWaits (id : Nat) (c : CellState) (d : Nat) : List SnapWait :=
  let w := c.core.wait
  let core := cellNode id 0 0 d
  let ctxs := (List.range 4).filter fun i => (rget c.wb (BitVec.ofNat 2 i)).busy
  let on (n : GNode) : SnapWait := ⟨core, n, c.ctr.cmds⟩
  let headSeq (q : BitVec 2) : Nat := match (c.queue q).q with | [] => 0 | h :: _ => h.seq.toNat
  match w.kind with
  | 1 =>
    match w.target with
    | 0 => [on (cellNode id 1 0 (headSeq 0))]
    | 1 => [on (cellNode id 2 0 (headSeq 1))]
    | 2 => on (cellNode id 3 msQueue (headSeq 2)) :: ctxs.map fun i => on (cellNode id 3 i (rget c.wb (BitVec.ofNat 2 i)).seq.toNat)
    | _ => [on (cellNode id 4 0 (headSeq 3))]
  | 2 => [on (semNode id c (w.target.setWidth 5) c.core.need.toNat)]
  | 3 => [on (cellNode id 2 0 (headSeq 1))]
  | _ => []

/-- The waits of the waybill contexts and of q.ms (R537). -/
def wbWaits (id : Nat) (c : CellState) : List SnapWait :=
  let ctxs := (List.range 4).map fun i => (i, rget c.wb (BitVec.ofNat 2 i))
  let own := ctxs.filterMap fun (i, x) =>
    match x.waitOn with
    | some (sem, cnt) => if x.busy then some ⟨cellNode id 3 i x.seq.toNat, semNode id c sem cnt, c.ctr.cmds⟩ else none
    | none => none
  let full : List SnapWait := match c.qms.q with
    | [] => []
    | h :: _ =>
      if cOpc h.word ≠ 0 ∧ ctxs.all (fun x => x.2.busy) then
        ctxs.map fun (i, x) => ⟨cellNode id 3 msQueue h.seq.toNat, cellNode id 3 i x.seq.toNat, c.ctr.cmds⟩
      else []
  own ++ full

/-- The waits of a cell's collective parts on their operations (R537): handed off and not started, waiting for admission,
or waiting for contributions. -/
def State.partWaits (s : State) (id : Nat) (c : CellState) : List SnapWait :=
  let cell : CellId := BitVec.ofNat 11 id
  let one (p : ColPart) : Option SnapWait :=
    let g := (cfGroup p.cf).toNat
    let waits := (s.col.waiting.find? fun x => x.1.origin = .part cell ∧ x.1.seq = p.seq).map Prod.snd
    let runs := (s.col.ops.find? fun o => o.parts.any fun k => k.origin = .part cell ∧ k.seq = p.seq).map ColOp.n
    match waits, runs with
    | some n, _ => some ⟨cellNode id 5 0 p.seq.toNat, ⟨0x7FF, 7, 0, g + n % 2 ^ 16 * 2 ^ 16⟩, c.ctr.cmds⟩
    | none, some n => some ⟨cellNode id 5 0 p.seq.toNat, ⟨0x7FF, 7, 0, g + n % 2 ^ 16 * 2 ^ 16⟩, c.ctr.cmds⟩
    | none, none => none
  (c.parts ++ c.handed).filterMap one

/-- The snapshot the cluster control cores report (R537). -/
def State.snapshot (s : State) : List SnapWait :=
  s.cells.flatMap fun e =>
    coreWaits e.1 e.2 (Config.freeNat s.free % 2 ^ 32) ++ headWait e.1 e.2 0 1 0 ++ headWait e.1 e.2 1 2 0 ++
      headWait e.1 e.2 2 3 msQueue ++ headWait e.1 e.2 3 4 0 ++ wbWaits e.1 e.2 ++ s.partWaits e.1 e.2

/-- A graph build begins with the first snapshot (R536, R537); one under way goes on. -/
def State.beginGraph (s : State) : State :=
  if ¬ s.fwWrites ∨ s.dbg.snap.isSome then s
  else { s with free := s.free + 1, dbg := { s.dbg with snap := some (s.ns, s.snapshot) } }

/-! ### The debug block -/

/-- A write to the debug block (R529, R541). -/
def State.writeDbg (s : State) (off : Nat) (v : Word) : State :=
  match off with
  | 0x00 => if v = 0x0000B8A4 then s.brake 0 else s
  | 0x10 => { s with dbg := { s.dbg with traceSel := masked v 0x7FFFFFFF } }
  | 0xA0 => { s with dbg := { s.dbg with hangCfg := masked v 0x0000FFFF } }
  | 0xA8 => if v.getLsbD 0 then s.beginGraph else s
  | _ => s

/-! ### Registers the side-band writes (R397, R404, R411, R423, R465, R494) -/

/-- A write to the link control base. -/
def State.writeLnk (s : State) (off : Nat) (v : Word) : State :=
  let l := s.lnk
  if off < 0xC0 then
    match off % 32 with
    | 0x0C => s.modPort (off / 32) fun k => { k with planShd := masked v 0xC01C7FFF }
    | 0x14 => s.modPort (off / 32) fun k => { k with cfg := masked v 0x0000FFFF }
    | _ => s
  else
    match off with
    | 0x104 => if v.getLsbD 0 then s.commitPlan else s
    | 0x10C => if v.getLsbD 0 then s.commitRoutes else s
    | 0x110 => { s with lnk := { l with rtIndex := v.setWidth 10 } }
    | 0x114 =>
      if l.rtCopy then { s with lnk := { l with rt0 := Sparse.put l.rt0 l.rtIndex.toNat v } }
      else { s with lnk := { l with rt1 := Sparse.put l.rt1 l.rtIndex.toNat v } }
    | 0x124 => s.setLtRoot v
    | _ => s

/-- A write of COL_GT_DATA (R437). -/
def ColState.gtWrite (c : ColState) (v : Word) : ColState :=
  match c.gtSlot with
  | some (g, w) => { c with shadow := Sparse.put c.shadow g (GEntry.setWord (c.shadow.at [] g) w v) }
  | none => c

/-- A write to the group-table and recovery registers. -/
def State.writeCol (s : State) (off : Nat) (v : Word) : State :=
  let c := s.col
  let r := s.rcv
  match off with
  | 0x00C => if v.getLsbD 0 then s.commitGroups else s
  | 0x010 => { s with col := { c with gtAddr := masked v 0x3FFC3FFF } }
  | 0x014 => { s with col := c.gtWrite v }
  | 0x100 => { s with rcv := { r with job := masked v 0xFFFFCFFF } }
  | 0x104 => { s with rcv := { r with coord := masked v 0x7FFF7FFF } }
  | 0x108 => { s with rcv := { r with parCfg := masked v 0xF0700FFF } }
  | 0x10C => { s with rcv := { r with parLo := masked v 0xFFFF0000 } }
  | 0x110 => { s with rcv := { r with parHi := masked v 0x000001FF } }
  | 0x114 => { s with rcv := { r with parSize := v } }
  | 0x128 => { s with rcv := { r with spareAddr := v.setWidth 8 } }
  | 0x12C => { s with rcv := { r with spares := Sparse.put r.spares r.spareAddr.toNat (masked v 0x80007FFF) } }
  | _ => s

/-- A write of PWR_CAP_LOCAL or PWR_FALLBACK (R480, R494). -/
def State.writePwr (s : State) (off : Nat) (v : Word) : State :=
  match off with
  | 0x04 => { s with pwr := ({ s.pwr with capLocal := v.setWidth 12 } : PwrState).capChanged }
  | 0x10 => { s with pwr := ({ s.pwr with fallback := v.setWidth 12 } : PwrState).capChanged }
  | _ => s

/-! ### Registers firmware writes (R308, R321, R322, R353, R437, R489) -/

/-- A write to an arbiter block. -/
def State.writeArb (s : State) (b : BitVec 3) (off : Nat) (v : Word) : State :=
  let k := s.arbBlock b
  if off % 4 ≠ 0 then s
  else if 0x80 ≤ off ∧ off < 0xC0 then
    s.setArbBlock b { k with shd := { k.shd with slots := rset k.shd.slots (BitVec.ofNat 4 ((off - 0x80) / 4)) (masked v 0x1F1F1F1F) } }
  else if 0xD0 ≤ off ∧ off < 0xE0 then
    s.setArbBlock b { k with shd := { k.shd with tok := rset k.shd.tok (BitVec.ofNat 2 ((off - 0xD0) / 4)) (masked v 0x7F7F7F7F) } }
  else
    match off with
    | 0x04 => if v.getLsbD 0 then s.setArbBlock b { k with pending := true } else s
    | 0xE4 => s.setArbBlock b { k with shd := { k.shd with bg := v.setWidth 16 } }
    | _ => s

/-- A write to the memory control base: the scopes of slab groups 250 to 255 are reserved. -/
def State.writeMem (s : State) (off : Nat) (v : Word) : State :=
  let m := s.mem
  if 0x200 ≤ off ∧ off < 0x300 then s.writeArb 0 (off - 0x200) v
  else if 0x80 ≤ off ∧ off < 0xC0 ∧ off % 4 = 0 then
    let k := (off - 0x80) / 4
    let w := if k = 15 then masked v 0x000FFFFF else v
    { s with mem := { m with scopeShd := rset m.scopeShd (BitVec.ofNat 4 k) w } }
  else
    match off with
    | 0x04 => if v.getLsbD 0 then s.scopeCommit else s
    | 0x08 => { s with mem := { m with scrubCfg := masked v 0x0000FF01 } }
    | 0x0C => { s with mem := { m with repairCfg := masked v 0x0000FF01 } }
    | _ => s

/-- A write firmware makes to a register of the windows. -/
def State.writeFirmware (s : State) (off : Nat) (v : Word) : State :=
  if off % 4 ≠ 0 then s
  else if 0x60000 ≤ off ∧ off < 0x72000 then
    let n := (off - 0x60000) / 1024
    let k := 16 * (n / 9) + n % 9
    if off % 1024 = 0x104 then s.setBox k { s.box k with ballastCfg := masked v 0x00FFFF01 } else s.writeBox k (off % 1024) v
  else
    let o := off % 4096
    match off / 4096 with
    | 0x80 => s.writeMem o v
    | 0x81 => if o = 4 then { s with dsp := { s.dsp with cfg := masked v 0x0FFFFF01 } } else s
    | 0x82 => if 0x800 ≤ o ∧ o < 0xE00 then s.writeArb (BitVec.ofNat 3 ((o - 0x800) / 256 + 1)) (o % 256) v else s.writeLnk o v
    | 0x83 =>
      if 0x400 ≤ o ∧ o < 0x500 then s.writeArb 7 (o - 0x400) v
      else if o = 4 then { s with col := { s.col with cfg := masked v 0x000FFFFF } }
      else s.writeCol o v
    | 0x84 => s.writePwr o v
    | 0x86 => s.writeDbg o v
    | _ => s

/-! ### What the host and the side-band may write (R521) -/

/-- A host write through the windows: the CL_TRACE_ and DBG_ registers and CL_MX_CONFIG. -/
def State.writeHostWin (s : State) (off : Nat) (v : Word) : State :=
  if off % 4 ≠ 0 then s
  else if 0x60000 ≤ off ∧ off < 0x72000 then
    let n := (off - 0x60000) / 1024
    s.writeBox (16 * (n / 9) + n % 9) (off % 1024) v
  else if off / 4096 = 0x86 then s.writeDbg (off % 4096) v
  else s

/-- A side-band write: what the host may write, and the registers other chapters name. -/
def State.writeSide (s : State) (off : Nat) (v : Word) : State :=
  if ¬ s.pwr.main ∨ off % 4 ≠ 0 then s
  else
    match off / 4096 with
    | 0x82 => s.writeLnk (off % 4096) v
    | 0x83 => s.writeCol (off % 4096) v
    | 0x84 => s.writePwr (off % 4096) v
    | _ => s.writeHostWin off v

end Sys2Proof.Machine
end

