-- ==== Sys2Proof/Machine/Hang.lean ====
section
/-!
DEFINITION. The wait-for graph (R536 to R538): its nodes and edges, blocked nodes, cycles and dead waits, and the image.
-/

namespace Sys2Proof.Machine

/-- A node without its detail, but for a GRP node, which its detail names. -/
def GNode.key (n : GNode) : Nat × Nat × Nat × Nat := (n.cell, n.kind, n.index, if n.kind = 7 then n.detail else 0)

/-- Two waits are the same: waiter, target, and no command of the cell completed between them (R537). -/
def SnapWait.same (a b : SnapWait) : Bool :=
  a.from'.key == b.from'.key && a.target.key == b.target.key && a.seq == b.seq

/-- Edges out of a SEM node (R537): units holding a command whose SSEM or CSEM is n, the core unless it has halted, and
every running waybill context. -/
def semEdges (id : Nat) (c : CellState) (n : Nat) (d : Nat) : List GNode :=
  let signals (q : QCmd) : Bool :=
    (cSen q.word && (cSsem q.word).toNat == n) || (cFuse q.word && (cfCsem (cCf q.word)).toNat == n)
  let head (e : EngQueue) : Nat := match e.q with | [] => 0 | h :: _ => h.seq.toNat
  let unit (e : EngQueue) (kind index : Nat) : List GNode :=
    if e.q.any signals || (kind != 3 && e.run.any fun r => signals r.cmd) then [cellNode id kind index (head e)] else []
  let ctxs := (List.range 4).filterMap fun i =>
    let x := rget c.wb (BitVec.ofNat 2 i)
    if x.busy then some (cellNode id 3 i x.seq.toNat) else none
  let parts := ((c.parts ++ c.handed).filter fun p => (cfCsem p.cf).toNat == n).map fun p => cellNode id 5 0 p.seq.toNat
  unit c.qmx 1 0 ++ unit c.qvx 2 0 ++ unit c.qms 3 msQueue ++ unit c.qlk 4 0 ++ parts ++
    (if c.st == .running then [cellNode id 0 0 d] else []) ++ ctxs

/-- Add a node to a list of nodes unless its key is there. -/
def addNode (l : List GNode) (n : GNode) : List GNode := if l.any fun m => m.key == n.key then l else l ++ [n]

/-- A graph: nodes, edges by node index, and the nodes that wait. -/
structure Graph where
  nodes : List GNode
  edges : List (Nat × Nat)
  waiting : List Nat
  deriving DecidableEq, Repr

/-- The index of a node. -/
def indexOf (l : List GNode) (n : GNode) : Nat := l.findIdx fun m => m.key == n.key

/-- The graph of the confirmed waits (R537). -/
def State.graph (s : State) (waits : List SnapWait) (d : Nat) : Graph :=
  let ends := waits.flatMap fun w => [w.from', w.target]
  let sems := (ends.foldl addNode []).filter fun n => n.kind == 6
  let out := sems.flatMap fun n =>
    (semEdges n.cell (s.cell (BitVec.ofNat 11 n.cell)) n.index d).map fun t => (n, t)
  let nodes := (ends ++ out.map Prod.snd).foldl addNode []
  let es := (waits.map fun w => (indexOf nodes w.from', indexOf nodes w.target)) ++
    out.map fun e => (indexOf nodes e.1, indexOf nodes e.2)
  { nodes := nodes, edges := es.eraseDups, waiting := (waits.map fun w => indexOf nodes w.from').eraseDups }

/-- Where the edges out of a node end. -/
def Graph.out (g : Graph) (n : Nat) : List Nat := (g.edges.filter fun e => e.1 == n).map Prod.snd

/-- A node is a semaphore. -/
def Graph.isSem (g : Graph) (n : Nat) : Bool := match g.nodes[n]? with | some x => x.kind == 6 | none => false

/-- One round of taking out nodes that are not blocked: a SEM node needs every edge to end at a blocked node, a waiting
node one. -/
def Graph.blockedStep (g : Graph) (b : List Nat) : List Nat :=
  b.filter fun n => if g.isSem n then (g.out n).all b.contains else g.waiting.contains n && (g.out n).any b.contains

/-- The blocked nodes (R537): the largest set the rule allows (log entry 27). -/
def Graph.blocked (g : Graph) : List Nat := iter g.blockedStep g.nodes.length (List.range g.nodes.length)

/-- The cycles of blocked nodes through `start`, their least node: paths from it, newest node first. -/
def Graph.cyclesFrom (g : Graph) (b : List Nat) (start : Nat) : Nat → List Nat → List (List Nat)
  | 0, _ => []
  | _ + 1, [] => []
  | f + 1, n :: path =>
    (g.out n).flatMap fun t =>
      if t = start then [(n :: path).reverse]
      else if t < start ∨ (n :: path).contains t ∨ ¬ b.contains t then []
      else g.cyclesFrom b start f (t :: n :: path)

/-- The cycles of blocked nodes (R537). -/
def Graph.cycles (g : Graph) : List (List Nat) :=
  let b := g.blocked
  b.flatMap fun n => g.cyclesFrom b n (g.nodes.length + 1) [n]

/-- The dead waits (R537): waiting nodes whose SEM has no edge out of it. -/
def Graph.dead (g : Graph) : List Nat := g.waiting.filter fun n => (g.out n).any fun t => g.isSem t && (g.out t).isEmpty

/-- Only nodes of cycles, dead waits and external waits are kept (R538). -/
def Graph.cut (g : Graph) : Graph :=
  let keep := (g.cycles.flatten ++ g.dead ++ (g.edges.filter fun e => match g.nodes[e.2]? with
    | some x => x.kind == 7
    | none => false).flatMap fun e => [e.1, e.2]).eraseDups
  let kept := (List.range g.nodes.length).filter keep.contains
  let at' (n : Nat) : Nat := kept.findIdx fun k => k == n
  { nodes := kept.filterMap fun n => g.nodes[n]?
    edges := (g.edges.filter fun e => keep.contains e.1 && keep.contains e.2).map fun e => (at' e.1, at' e.2)
    waiting := (g.waiting.filter keep.contains).map at' }

/-- A graph with the cycles and dead waits of its image. -/
def Graph.bytes (g : Graph) (first second gen : Nat) (cut : Bool) : List Byte :=
  let cy := g.cycles
  let dd := g.dead
  let c16 (n : Nat) : Nat := min 0xFFFF n
  leBytes 8 first ++ leBytes 8 second ++ leBytes 2 (c16 g.nodes.length) ++ leBytes 2 (c16 g.edges.length) ++
    leBytes 2 (c16 cy.length) ++ leBytes 2 (c16 dd.length) ++ leBytes 4 gen ++ leBytes 2 (if cut then 1 else 0) ++ leBytes 2 0 ++
    (g.nodes.flatMap fun n => leBytes 2 n.cell ++ leBytes 1 n.kind ++ leBytes 1 n.index ++ leBytes 4 n.detail) ++
    (g.edges.flatMap fun e => leBytes 2 e.1 ++ leBytes 2 e.2) ++
    (cy.flatMap fun c => leBytes 2 c.length ++ c.flatMap (leBytes 2)) ++ dd.flatMap (leBytes 2)

/-- HANG_SNAPSHOT_CONFIRM (R537, R538): the second snapshot keeps the waits that both show, and the image is replaced
whole. -/
def State.confirmGraph (s : State) : State :=
  match s.dbg.snap with
  | none => s
  | some (t0, first) =>
    if ¬ s.fwWrites ∨ s.ns < t0 + 100000 then s
    else
      let d := Config.freeNat s.free % 2 ^ 32
      let waits := s.snapshot.filter fun w => first.any w.same
      let g := s.graph waits d
      let gen := s.dbg.gen + 1
      let whole := g.bytes t0 s.ns gen.toNat false
      let img := if 65536 < whole.length then g.cut.bytes t0 s.ns gen.toNat true else whole
      let cy := g.cycles
      let dd := g.dead
      let lead := match cy with
        | (n :: _) :: _ => match g.nodes[n]? with
          | some x => x.cell
          | none => 0x7FF
        | _ => 0x7FF
      let dbg : DbgState := { s.dbg with snap := none, image := img, gen := gen, cycles := BitVec.ofNat 8 (min 255 cy.length)
                                         dead := BitVec.ofNat 8 (min 255 dd.length) }
      let s1 : State := { s with free := s.free + 1, dbg := dbg }
      if cy = [] ∧ dd = [] then s1
      else s1.raise 0x0C04 .error [(4, gen.toNat), (1, min 255 cy.length), (1, min 255 dd.length), (2, lead)]

/-- HANG_WATCH_TIMEOUT (R536): no cell of a running consist has made progress for TIME milliseconds. -/
def State.hangWatch (s : State) (task : Nat) : State :=
  let t := bitsOf s.dbg.hangCfg.toNat 15 0
  match s.task task with
  | none => s
  | some k =>
    if t ≠ 0 ∧ k.stage = .running ∧ (s.dispRuns || s.dbg.braked) ∧
        k.cells.all (fun id => decide ((s.cell id).ctr.moved + 1000000 * t ≤ s.ns)) then s.beginGraph
    else s

end Sys2Proof.Machine
end

