-- ==== Sys2Proof/Machine/HostRegs.lean ====
section
/-!
DEFINITION. The KHI register file and BAR2 (R356 to R362, R368, R376), firmware-emulated accesses (R358), and the rows of
register accesses: FE_ACCESS, FE_TIMEOUT, WINDOW_READ, WINDOW_WRITE, LATCHING_LO_READ, RC_READ, TRACE_PORT_READ and
REGISTER_WRITE.
-/

namespace Sys2Proof.Machine

/-! ### Hardware registers (R361, R368) -/

/-- HIF_HWSTAT (R361). -/
def HifState.statWord (h : HifState) : Word :=
  w32 (fld h.fwUp 31 + fld h.depotExit 30 + fld h.attached 29 + fld h.detached 28 + fld h.lease 27 + h.start.toNat * 2 ^ 24)

/-- HIF_LEASE_AGE (R361). -/
def State.leaseAge (s : State) : Word :=
  if s.hif.lease then w32 (min 0xFFFFFFFE ((s.ns - s.hif.leaseAt) / 1000000)) else 0xFFFFFFFF

/-- A 32-bit word of a mailbox buffer. -/
def bufWord (m : Mem) (off : Nat) : Word := w32 (Mem.readNat 0 m off 4)

/-- Whether hardware serves an offset of BAR0 (R357). -/
def hwServed (off : Nat) : Bool := decide (off < 0x100 ∨ (0x1000 ≤ off ∧ off < 0x1300) ∨ (0x2000 ≤ off ∧ off < 0x2200))

/-- Whether firmware serves an offset of BAR0 (R357). -/
def feServed (off : Nat) : Bool :=
  decide ((0x100 ≤ off ∧ off < 0x200) ∨ (0x800 ≤ off ∧ off < 0xA00) ∨ (0x3000 ≤ off ∧ off < 0x3400) ∨ 0x10000 ≤ off)

/-- A read of a hardware register. -/
def State.readHw (s : State) (off : Nat) : Word × State :=
  let h := s.hif
  if off % 4 ≠ 0 then s.show 0
  else if 0x1100 ≤ off ∧ off < 0x1200 then s.show (bufWord h.mbReq (off - 0x1100))
  else if 0x1200 ≤ off ∧ off < 0x1300 then s.show (bufWord h.mbAns (off - 0x1200))
  else if 0x2000 ≤ off ∧ off < 0x2200 then
    s.show (if off % 8 = 4 then (s.queue ((off - 0x2000) / 8)).cqHead.setWidth 32 else 0)
  else
    match off with
    | 0x00 => s.show h.statWord
    | 0x08 => s.show s.leaseAge
    | 0x0C => s.show (h.hwerr.setWidth 32)
    | 0x10 => (loWord s.ns, { s with hif := { h with ltHi := hiWord s.ns } })
    | 0x14 => s.show h.ltHi
    | 0x18 => s.show (w32 h.fifo.length)
    | 0x1C => s.show (h.evHead.setWidth 32)
    | 0x1000 => s.show (w32 (fld h.mbDone 31 + fld h.mbBusy 30))
    | _ => s.show 0

/-- A write of HIF_MB_CTRL (R368): DONE is cleared by 1; GO has no effect while BUSY. -/
def HifState.mbCtrl (h : HifState) (v : Word) : HifState :=
  { h with mbDone := h.mbDone && !v.getLsbD 31, mbBusy := h.mbBusy || v.getLsbD 0 }

/-- A write of a hardware register. -/
def State.writeHw (s : State) (off : Nat) (v : Word) : State :=
  let h := s.hif
  if off % 4 ≠ 0 then s
  else if 0x1100 ≤ off ∧ off < 0x1200 then
    { s with hif := { h with mbReq := Mem.writeNat 0 h.mbReq (off - 0x1100) 4 v.toNat } }
  else if 0x2000 ≤ off ∧ off < 0x2200 then
    if off % 8 = 0 then s.sqDb ((off - 0x2000) / 8) (v.setWidth 16) else s.cqHead ((off - 0x2000) / 8) (v.setWidth 16)
  else
    match off with
    | 0x04 => s.renewLease v
    | 0x0C => { s with hif := { h with hwerr := h.hwerr &&& ~~~(v.setWidth 3) } }
    | 0x1C => s.evHead (v.setWidth 16)
    | 0x1000 => { s with hif := h.mbCtrl v }
    | _ => s

/-! ### Registers firmware serves (R362, R48) -/

/-- HIF_Q_STATE (R362). -/
def HostQueue.stateWord (k : HostQueue) : Word :=
  w32 (k.state.code * 2 ^ 29 + k.reason.toNat * 2 ^ 26 + k.ring.length % 2 ^ 13 * 2 ^ 13 + k.vector.toNat)

/-- A read that firmware serves. -/
def State.readFe (s : State) (off : Nat) : Word × State :=
  let h := s.hif
  if 0x10000 ≤ off then s.readWin off
  else if off % 4 ≠ 0 then s.show 0
  else if 0x800 ≤ off ∧ off < 0xA00 then s.show (s.capWord ((off - 0x800) / 4))
  else if 0x3000 ≤ off ∧ off < 0x3400 then
    let k := s.queue ((off - 0x3000) / 16)
    match off % 16 with
    | 0x0 => s.show k.stateWord
    | 0x4 => s.show (w32 (k.cqTail.toNat * 2 ^ 16 + k.sqHead.toNat))
    | _ => s.show 0
  else
    match off with
    | 0x100 => s.show (w32 (h.khiCur.toNat * 2 ^ 24 + h.khiPrev.toNat * 2 ^ 16 + h.khiInUse.toNat * 2 ^ 8))
    | 0x104 => s.show h.featDev
    | 0x108 => s.show h.featOn
    | 0x10C => s.show (h.cause.setWidth 32)
    | _ => s.show 0

/-- A write that firmware serves: HIF_DEV_CAUSE is cleared by 1, and the windows as R521 states. -/
def State.writeFe (s : State) (off : Nat) (v : Word) : State :=
  if off = 0x10C then { s with hif := { s.hif with cause := s.hif.cause &&& ~~~(v.setWidth 5) } }
  else if 0x10000 ≤ off then s.writeHostWin off v
  else s

/-! ### MSI-X table (R356, R376) -/

/-- A write to the MSI-X table by the PCIe rules: a vector unmasked with its pending bit set is sent (PRESUMED 21). -/
def State.writeMsix (s : State) (off : Nat) (v : Word) : State :=
  if off % 4 ≠ 0 ∨ 0x400 ≤ off then s
  else
    let i := off / 4
    let w := if i % 4 = 3 then v &&& 1 else if i % 4 = 0 then v &&& 0xFFFFFFFC else v
    ({ s with hif := { s.hif with msix := Sparse.put s.hif.msix i w } } : State).sendPending

/-- A word of BAR2 as the host reads it (R356): the MSI-X table at 0x0000 and the pending-bit array at 0x1000. -/
def HifState.msixWord (h : HifState) (off : Nat) : Word :=
  if off % 4 ≠ 0 then 0
  else if off < 0x400 then h.msix.at (if off / 4 % 4 = 3 then 1 else 0) (off / 4)
  else if off = 0x1000 then loWord h.pba.toNat
  else if off = 0x1004 then hiWord h.pba.toNat
  else 0

/-- Class code and device ID of the PCIe function (R355), the same for both ordering codes. -/
def pciClass : BitVec 24 := 0x120000
def pciDevice : BitVec 16 := 0x0B08

/-! ### Firmware-emulated accesses (R358) -/

/-- Firmware serves one access; a read is answered with its value. -/
def State.serveFe (s : State) (off : Nat) (write : Option Word) : State :=
  match write with
  | some v => s.writeFe off v
  | none =>
    let (w, s1) := s.readFe off
    s1.reply 8 0 [off, w.toNat]

/-- Dispatcher firmware serves accesses (R358, R529): the brake does not stop it. -/
def State.servesFe (s : State) : Bool := s.pwr.main && s.hif.fwUp

/-- The port completes an access that has waited 40,000 ns (R358). -/
def State.feTimeout (s : State) : State :=
  match s.hif.fe with
  | [] => s
  | a :: rest =>
    if ¬ s.pwr.main ∨ s.ns < a.at' + 40000 then s
    else
      let s1 : State := { s with hif := { s.hif with fe := rest, hwerr := s.hif.hwerr ||| 2 } }
      let s2 := s1.raise 0x0609 .warning [(4, a.offset), (1, if a.write.isSome then 1 else 0)]
      if a.write.isSome then s2 else s2.reply 8 0 [a.offset, 0xFFFFFFFF]

/-- Accesses that wait are served in order once firmware runs; those that have waited 40,000 ns the port has completed. -/
def State.serveWaiting (s : State) : State :=
  if s.servesFe then
    let s1 := s.hif.fe.foldl (fun s _ => s.feTimeout) s
    s1.hif.fe.foldl (fun s a => s.serveFe a.offset a.write) { s1 with hif := { s1.hif with fe := [] } }
  else s

/-- A host access to an offset firmware serves: it is served, or held until firmware returns. -/
def State.feAccess (s : State) (off : Nat) (write : Option Word) : State :=
  if s.servesFe then s.serveWaiting.serveFe off write
  else { s with hif := { s.hif with fe := s.hif.fe ++ [⟨off, write, s.ns⟩] } }

/-- A host read of BAR0 (R357). -/
def State.hostReadReg (s : State) (off : Nat) : State :=
  if feServed off then s.feAccess off none
  else
    let (w, s1) := if hwServed off then s.readHw off else s.show 0
    s1.reply 8 0 [off, w.toNat]

/-- A host write to BAR0 (R357): offsets outside every range ignore it. -/
def State.hostWriteReg (s : State) (off : Nat) (v : Word) : State :=
  if hwServed off then s.writeHw off v else if feServed off then s.feAccess off (some v) else s

/-! ### Side-band window accesses (R521) -/

/-- Read consecutive words; their values in order. -/
def State.readRun (off : Nat) : Nat → State → List Nat × State
  | 0, s => ([], s)
  | n + 1, s =>
    let (w, s1) := s.readSide off
    let (ws, s2) := State.readRun (off + 4) n s1
    (w.toNat :: ws, s2)

/-- A side-band read of words, with its answer; a count outside 1 to 56 is answered with an error (log entry 29). -/
def State.sideRead (s : State) (off count : Nat) : State :=
  if ¬ s.sideUp then s
  else if count = 0 ∨ 56 < count then s.sideError 1
  else
    let (ws, s1) := State.readRun off count s
    s1.reply 9 1 ws

/-- A side-band write of one word, with its answer. -/
def State.sideWrite (s : State) (off : Nat) (v : Word) : State :=
  if s.sideUp then (s.writeSide off v).reply 9 2 [off] else s

/-! ### Classes of registers -/

/-- LO halves whose read latches the HI half (R161, R361, R494, R521, R523, R541). -/
def latches (off : Nat) : Bool :=
  off == 0x10 ||
  (decide (0x10000 ≤ off ∧ off < 0x58000) && (off % 256 == 0x50 || off % 256 == 0x58)) ||
  (decide (0x60000 ≤ off ∧ off < 0x72000 ∧ 0x200 ≤ off % 1024 ∧ off % 1024 < 0x300) && off % 16 == 8) ||
  off == 0x84018 || off == 0x84020 || (decide (0x86040 ≤ off ∧ off < 0x86080) && off % 8 == 0)

/-- RC registers (R416, R437). -/
def readClears (off : Nat) : Bool := (decide (0x82000 ≤ off ∧ off < 0x820C0) && off % 32 == 4) || off == 0x83018

/-- DBG_TRACE_DATA (R541). -/
def tracePort (off : Nat) : Bool := decide (0x86020 ≤ off ∧ off < 0x86040) && off % 4 == 0

/-- A read of a register of a class by the host or the side-band; an offset of another class is no such event. -/
def State.readClass (s : State) (is : Nat → Bool) (side : Bool) (off : Nat) : State :=
  if ¬ is off then s
  else if side then s.sideRead off 1
  else if s.hostUp then s.hostReadReg off
  else s

/-! ### Rows -/

/-- FE_ACCESS (R358): an access of the host arrives and is served, or firmware serves the accesses that wait. A read
names no value. -/
def execFeAccess (access : Option (BitVec 21 × Option (BitVec 32))) (s : State) : Out :=
  .next (match access with
    | none => s.serveWaiting
    | some (off, write) => if s.hostUp ∧ feServed off.toNat then s.feAccess off.toNat write else s)

/-- FE_TIMEOUT (R358). -/
def execFeTimeout (s : State) : Out := .next s.feTimeout

/-- WINDOW_READ (R521). -/
def execWindowRead (offset : BitVec 32) (count : BitVec 8) (s : State) : Out := .next (s.sideRead offset.toNat count.toNat)

/-- WINDOW_WRITE (R521). -/
def execWindowWrite (offset : BitVec 32) (value : BitVec 32) (s : State) : Out := .next (s.sideWrite offset.toNat value)

/-- LATCHING_LO_READ (R521). -/
def execLatchingLoRead (side : Bool) (offset : BitVec 21) (s : State) : Out := .next (s.readClass latches side offset.toNat)

/-- RC_READ (R18). -/
def execRcRead (side : Bool) (offset : BitVec 21) (s : State) : Out := .next (s.readClass readClears side offset.toNat)

/-- TRACE_PORT_READ (R541). -/
def execTracePortRead (side : Bool) (offset : BitVec 21) (s : State) : Out := .next (s.readClass tracePort side offset.toNat)

/-- REGISTER_WRITE (R18): by the host to BAR0 or BAR2, by the side-band, or by firmware. -/
def execRegisterWrite (writer : Writer) (offset : BitVec 21) (value : BitVec 32) (s : State) : Out :=
  match writer with
  | .host => .next (if s.hostUp then s.hostWriteReg offset.toNat value else s)
  | .msix => .next (if s.hostUp then s.writeMsix offset.toNat value else s)
  | .side => .next (s.sideWrite offset.toNat value)
  | .firmware => .next (if s.fwWrites then s.writeFirmware offset.toNat value else s)

end Sys2Proof.Machine
end

