-- ==== Sys2Proof/Machine/Scan.lean ====
section
/-!
DEFINITION. Scan-out of a braked module (R532, R533): the frozen state of a cell by space and byte offset.
-/

namespace Sys2Proof.Machine

/-- Bytes in a scan space (R532); none for a space that does not exist. -/
def scanSize (space : Nat) : Option Nat :=
  match space with
  | 0 => some 3145728
  | 1 | 2 | 3 => some 65536
  | 4 => some 1024
  | 5 => some 15360
  | 6 | 7 => some 67600
  | 8 => some 2048
  | _ => none

/-- Byte i of a number's little-endian form. -/
def byteOf (n i : Nat) : Byte := BitVec.ofNat 8 (n / 256 ^ i)

/-- Space 4, the cell-core state (R533): unlisted bytes read 0. The bits of a register with a poison mark are free values
(R189). -/
def CellState.scanCore (c : CellState) (ns : Nat) (u : Nat → Byte) (off : Nat) : Byte :=
  let k := c.core
  if off < 0x80 then
    if k.sMark.getLsbD (off / 4) then u off else byteOf (c.sReg (BitVec.ofNat 5 (off / 4))).toNat (off % 4)
  else if off < 0x100 then byteOf (c.aReg (BitVec.ofNat 4 ((off - 0x80) / 8))).addr.toNat (off % 8)
  else if off < 0x140 then byteOf (c.aReg (BitVec.ofNat 4 ((off - 0x100) / 4))).stride.toNat (off % 4)
  else if off < 0x150 then byteOf (c.lcReg (BitVec.ofNat 2 ((off - 0x140) / 4))).toNat (off % 4)
  else if off = 0x150 then (k.p &&& ~~~k.pMark) ||| (u off &&& k.pMark) ||| 1
  else if 0x200 ≤ off ∧ off < 0x300 then byteOf (c.tReg (BitVec.ofNat 4 ((off - 0x200) / 16))).toNat (off % 16)
  else if 0x300 ≤ off ∧ off < 0x340 then byteOf (c.sem (BitVec.ofNat 5 ((off - 0x300) / 2))).toNat (off % 2)
  else if 0x340 ≤ off ∧ off < 0x360 then
    match (k.loops.reverse[(off - 0x340) / 8]?) with
    | some e => byteOf (e.start + e.stop * 2 ^ 16 + e.hc.toNat * 2 ^ 32) (off % 8)
    | none => 0
  else if off = 0x360 then BitVec.ofNat 8 k.loops.length
  else if off = 0x364 ∨ off = 0x365 then byteOf k.pc.toNat (off - 0x364)
  else if off = 0x366 then (if c.banks.active then 1 else 0)
  else if 0x368 ≤ off ∧ off < 0x36C then byteOf k.sClaim.toNat (off - 0x368)
  else if off = 0x36C then k.pClaim
  else if 0x370 ≤ off ∧ off < 0x374 then byteOf k.sMark.toNat (off - 0x370)
  else if off = 0x374 then k.pMark
  else if off = 0x378 then k.pushed.setWidth 8
  else if off = 0x379 then
    match k.held with
    | some w => if w.toNat / 2 ^ 26 = 0x33 then BitVec.ofNat 8 (bitsOf w.toNat 21 20) else 0xFF
    | none => 0xFF
  else if 0x37C ≤ off ∧ off < 0x380 then byteOf (c.waitWord ns).toNat (off - 0x37C)
  else 0

/-- A slot of space 5 (R532): the command, its descriptors, its SEQ and its state. -/
def slotByte (w d0 e0 d1 e1 d2 e2 : QWord) (seq : BitVec 32) (st i : Nat) : Byte :=
  if i < 112 then
    byteOf (match i / 16 with
      | 0 => w | 1 => d0 | 2 => e0 | 3 => d1 | 4 => e1 | 5 => d2 | _ => e2).toNat (i % 16)
  else if i < 116 then byteOf seq.toNat (i - 112)
  else if i = 116 then BitVec.ofNat 8 st
  else 0

/-- Byte i of the slots of a queue: commands in progress first, then waiting ones (R532). -/
def EngQueue.scan (e : EngQueue) (i : Nat) : Byte :=
  let l := e.run.map (fun r => (r.cmd, 2)) ++ e.q.map fun q => (q, if q.rerun then 3 else 1)
  match l[i / 128]? with
  | some (q, st) => slotByte q.word q.d0 q.e0 q.d1 q.e1 q.d2 q.e2 q.seq st (i % 128)
  | none => 0

/-- Byte i of the collective parts: the collective field and the opcode of a part's command are kept, its other bits are
free values; parts in progress come first. -/
def CellState.scanParts (c : CellState) (u : Nat → Byte) (i : Nat) : Byte :=
  let l := c.parts.map (fun p => (p, 2)) ++ c.handed.map fun p => (p, 1)
  match l[i / 128]? with
  | some (p, st) =>
    let j := i % 128
    if j = 3 then (u i &&& 3) ||| (p.opc.setWidth 8 <<< 2)
    else if j < 12 then u i
    else if j < 16 then byteOf p.cf.toNat (j - 12)
    else if j < 32 ∨ 112 ≤ j then slotByte 0 p.desc 0 0 0 0 0 p.seq st j
    else u i
  | none => 0

/-- Space 5 (R532). -/
def CellState.scanQueues (c : CellState) (u : Nat → Byte) (off : Nat) : Byte :=
  if off < 0xC00 then c.qmx.scan off
  else if off < 0x1800 then c.qvx.scan (off - 0xC00)
  else if off < 0x2C00 then c.qms.scan (off - 0x1800)
  else if off < 0x3800 then c.qlk.scan (off - 0x2C00)
  else c.scanParts u (off - 0x3800)

/-- The format byte of a site (R532) by the command that uses its bank; a free value for a bank no known command used. -/
def CellState.siteFormat (c : CellState) (b : Bool) (sum : Bool) (u : Byte) : Byte :=
  let m := (c.mx.cmds.find? fun k => k.bank == b).orElse fun _ => c.mx.prev.filter fun k => k.bank == b
  match m with
  | none => u
  | some k => if isInt k.cmd then (if sum then 3 else 2) else if sum || !isNarrow k.cmd then 0 else 1

/-- Spaces 6 and 7 (R532): the bits of a poisoned accumulator are free values (R189). -/
def CellState.scanBank (c : CellState) (b : Bool) (u : Nat → Byte) (off : Nat) : Byte :=
  let n := off / 16
  let st := (c.mx.bank b).site (n / 65) (n % 65)
  match off % 16 with
  | 12 => c.siteFormat b (n / 65 == 64 || n % 65 == 64) (u off)
  | 13 => if st.poison then 1 else 0
  | 14 | 15 => 0
  | i => if st.poison then u off else if i < 8 then byteOf st.val.toNat i else byteOf st.mag.toNat (i - 8)

/-- A byte of a scan space: bytes of a word with an uncorrectable error or of a poisoned lane are free values (R189,
R532), and so is the placing of space 8, for which R254 gives widths and no offsets (log entry 28). -/
def CellState.scanByte (c : CellState) (space ns : Nat) (u : Nat → Byte) (off : Nat) : Byte :=
  match space with
  | 0 => if c.store.ue.contains (off / 8) ∨ c.store.poison.contains (off / 8) then u off else c.store.mem.get 0 off
  | 1 => if c.dmem.ue.contains (off / 4) then u off else c.dmem.mem.get 0 off
  | 2 => if c.banks.ue0.contains (off / 4) then u off else c.banks.ib0.get 0xFF off
  | 3 => if c.banks.ue1.contains (off / 4) then u off else c.banks.ib1.get 0xFF off
  | 4 => c.scanCore ns u off
  | 5 => c.scanQueues u off
  | 6 => c.scanBank false u off
  | 7 => c.scanBank true u off
  | _ => u off

/-- The poison flag of a byte. -/
def CellState.scanPoison (c : CellState) (space off : Nat) : Bool :=
  match space with
  | 0 => c.store.ue.contains (off / 8) || c.store.poison.contains (off / 8)
  | 1 => c.dmem.ue.contains (off / 4)
  | 2 => c.banks.ue0.contains (off / 4)
  | 3 => c.banks.ue1.contains (off / 4)
  | _ => false

/-- A scan is served (R532): the brake is in force, the cell exists, and the bytes lie in the space. -/
def State.scanServed (s : State) (space : Nat) (id : CellId) (off n : Nat) : Bool :=
  s.pwr.main && s.dbg.braked && cellOk id && match scanSize space with
    | some sz => decide (off + n ≤ sz)
    | none => false

/-- Read n bytes of a scan space, with a poison bit for each group of `g` bytes; the free values it takes are counted. -/
def State.scan (s : State) (space : Nat) (id : CellId) (off n g : Nat) : List Byte × List Bool × State :=
  let c := s.cell id
  let u (i : Nat) : Byte := BitVec.ofNat 8 (Config.freeNat (s.free + (i - off)))
  let bs := (List.range n).map fun i => c.scanByte space s.waitNow u (off + i)
  let ps := (List.range (n / g)).map fun i => (List.range g).any fun j => c.scanPoison space (off + g * i + j)
  (bs, ps, { s with free := s.free + n })

end Sys2Proof.Machine
end

