-- ==== Sys2Proof/Machine/Debug.lean ====
section
/-!
DEFINITION. The rows of trace triggers (R527), the brake's requests (R529), scan-out (R532 to R534), the JTAG port (R534,
R548, R549) and the wait-for graph (R536, R537).
-/

namespace Sys2Proof.Machine

/-! ### Triggers (R527) -/

/-- An event code is one a trace triggers on (R527, R540). -/
def TraceState.codeMatch (t : TraceState) (code : BitVec 16) : Bool :=
  let want : BitVec 16 := t.trig.setWidth 16
  if t.trig.getLsbD 26 then code.extractLsb' 8 8 == want.extractLsb' 8 8 else code == want

/-- A trigger's source is selected in CL_TRACE_TRIG and has happened: 1 a NaN latch of a cell, 2 a cell fault, 3 an
event of a matching code. -/
def State.triggerDue (s : State) (k source : Nat) (cell : BitVec 4) (code : BitVec 16) : Bool :=
  let t := (s.box k).trace
  let c := s.cell (BitVec.ofNat 11 (16 * k + cell.toNat))
  match source with
  | 1 => t.trig.getLsbD 29 && c.nan.latched
  | 2 => t.trig.getLsbD 28 && c.st == .faulted
  | 3 => t.trig.getLsbD 27 && t.codeMatch code && s.events.any fun e => e.code == code
  | _ => false

/-- TRACE_SW_TRIGGER (R527): CL_TRACE_CTRL.TRIGGER. -/
def execTraceSwTrigger (die : BitVec 3) (cluster : BitVec 4) (s : State) : Out :=
  withBox die cluster fun k => if s.pwr.main then s.triggerTrace k 0 0x7FF (clusterIndex k) (s.boxLt k) else s

/-- TRACE_TRIGGER (R527): sources 1 to 3; the brake triggers by itself. -/
def execTraceTrigger (die : BitVec 3) (cluster : BitVec 4) (source : BitVec 2) (cell : BitVec 4) (code : BitVec 16)
    (s : State) : Out :=
  withBox die cluster fun k =>
    if s.pwr.main ∧ s.triggerDue k source.toNat cell code then
      let id := if source = 3 then 0x7FF else 16 * k + cell.toNat
      s.triggerTrace k source.toNat id (clusterIndex k) (s.boxLt k)
    else s

/-- GLOBAL_TRIGGER (R527): a trace that has triggered with GLOBAL set is forwarded by the dispatcher with its line time. -/
def execGlobalTrigger (die : BitVec 3) (cluster : BitVec 4) (fromDie : BitVec 3) (fromCluster : BitVec 4) (lt : BitVec 64)
    (s : State) : Out :=
  withBox die cluster fun k =>
    let o := 16 * fromDie.toNat + fromCluster.toNat
    let t := (s.box o).trace
    if s.fwWrites ∧ fromCluster.toNat < 9 ∧ o ≠ k ∧ t.triggered ∧ t.trig.getLsbD 31 then
      s.triggerTrace k 4 0x7FF (clusterIndex o) lt
    else s

/-! ### The brake (R529) -/

/-- DBG_BRAKE (R529): a write of any other value is ignored. -/
def execDbgBrake (value : BitVec 32) (s : State) : Out := .next (if s.servesFe ∨ s.sideUp then s.writeDbg 0x00 value else s)

/-- SIDEBAND_BRAKE (R529). -/
def execSidebandBrake (s : State) : Out :=
  .next (if ¬ s.sideUp then s else if s.pwr.main then (s.brake 2).reply 9 4 [] else s.sideError 2)

/-! ### Scan-out over the side-band (R534) -/

/-- SCAN_READ (R532, R534): a length above 224 or not a multiple of 8 is answered with an error (log entry 29). -/
def execScanRead (space : BitVec 8) (cell : BitVec 16) (offset : BitVec 32) (length : BitVec 16) (s : State) : Out :=
  let n := length.toNat
  .next (
    if ¬ s.sideUp then s
    else if 224 < n ∨ n % 8 ≠ 0 then s.sideError 3
    else if cell.toNat < 2048 ∧ s.scanServed space.toNat (cell.setWidth 11) offset.toNat n then
      let (bs, ps, s1) := s.scan space.toNat (cell.setWidth 11) offset.toNat n 8
      ({ s1 with dbg := { s1.dbg with scanOk := true } } : State).reply 9 3 (1 :: ps.map fun p => if p then 1 else 0) bs
    else ({ s with dbg := { s.dbg with scanOk := false } } : State).reply 9 3 [0])

/-! ### JTAG (R534, R548, R549) -/

/-- The TAP works: the I/O die is powered and JTAG_TRST# is high. -/
def State.tapUp (s : State) : Bool := s.pwr.main && !s.dbg.trst

/-- A JTAG instruction is selected and its data register is scanned. -/
def jtagRow (code : BitVec 8) (s : State) (f : State → State) : Out :=
  .next (if s.tapUp then f { s with dbg := { s.dbg with ir := code } } else s)

/-- What the boundary scan captures is not stated: a free value (log entry 3). -/
def State.boundary (s : State) (code : Nat) : State :=
  let (n, s1) := s.freshNat
  s1.reply 10 code [n]

/-- EXTEST (R534). -/
def execExtest (s : State) : Out := jtagRow 0x00 s fun s => s.boundary 0x00

/-- SAMPLE/PRELOAD (R534). -/
def execSamplePreload (s : State) : Out := jtagRow 0x01 s fun s => s.boundary 0x01

/-- BRAKE (R529, R534): Update-DR with 1 applies the brake. -/
def execJtagBrake (bit : Bool) (s : State) : Out := jtagRow 0x10 s fun s => if bit then s.brake 1 else s

/-- SCANADDR (R534). -/
def execScanaddr (value : BitVec 64) (s : State) : Out :=
  jtagRow 0x11 s fun s =>
    { s with dbg := { s.dbg with scanSpace := value.extractLsb' 60 4, scanCell := value.extractLsb' 48 11
                                 scanOff := value.setWidth 32 } }

/-- SCANDATA (R534): the word at the scan address is captured, and Update-DR adds 4 to the offset. -/
def execScandata (s : State) : Out :=
  jtagRow 0x12 s fun s =>
    let d := s.dbg
    let ok := s.scanServed d.scanSpace.toNat d.scanCell d.scanOff.toNat 4
    let (bs, ps, s1) := if ok then s.scan d.scanSpace.toNat d.scanCell d.scanOff.toNat 4 4 else ([], [], s)
    ({ s1 with dbg := { s1.dbg with scanOff := d.scanOff + 4, scanOk := ok } } : State).reply 10 0x12
      [if ps.any id then 1 else 0, if ok then 1 else 0, leNat bs]

/-- DBGSTAT (R534). -/
def execDbgstat (s : State) : Out :=
  jtagRow 0x13 s fun s =>
    s.reply 10 0x13 [fld s.dbg.braked 31 + s.dbg.source.toNat * 2 ^ 28 + fld s.dbg.scanOk 27]

/-- The instruction codes R534 lists, but for BYPASS. -/
def jtagCodes : List (BitVec 8) := [0x00, 0x01, 0x10, 0x11, 0x12, 0x13]

/-- BYPASS (R534): its own code, and every code not listed. -/
def execBypass (code : BitVec 8) (s : State) : Out :=
  if jtagCodes.contains code then .next s else jtagRow 0xFF s fun s => s

/-- JTAG_TRST# (R548): the TAP is in reset while it is low, with the instruction register on BYPASS (log entry 22). -/
def execJtagTrst (low : Bool) (s : State) : Out :=
  .next { s with dbg := { s.dbg with trst := low, ir := if low then 0xFF else s.dbg.ir } }

/-! ### The wait-for graph (R536, R537) -/

/-- HANG_WATCH_TIMEOUT (R536). -/
def execHangWatchTimeout (task : BitVec 32) (s : State) : Out := .next (s.hangWatch task.toNat)

/-- DBG_HANG_BUILD (R536): a write of DBG_HANG_CTRL. -/
def execDbgHangBuild (value : BitVec 32) (s : State) : Out :=
  .next (if s.servesFe ∨ s.sideUp then s.writeDbg 0xA8 value else s)

/-- HANG_SNAPSHOT_CONFIRM (R537). -/
def execHangSnapshotConfirm (s : State) : Out := .next s.confirmGraph

end Sys2Proof.Machine
end

