-- ==== Sys2Proof/Machine/EngineCmds.lean ====
section
/-!
DEFINITION. The commands of the four engines: the heads of the queues, completion, the check beat, collective parts, lost
transfers and ballast.
-/

namespace Sys2Proof.Machine

/-- The head of q.mx, a SYNC or a command of no legal opcode, advances (R219, R243). -/
def execMxSync (cell : CellId) (s : State) : Out :=
  runEngine cell 0 (fun w => cOpc w != 1) s

/-- The head of q.mx, an MMA, advances (R219, R222). -/
def execMma (cell : CellId) (s : State) : Out :=
  runEngine cell 0 (fun w => cOpc w == 1) s

/-- The head of q.vx, a SYNC or a command of no legal opcode, advances (R219, R243). -/
def execVxSync (cell : CellId) (s : State) : Out :=
  runEngine cell 1 (fun w => cOpc w == 0 || decide (5 < (cOpc w).toNat)) s

/-- The head of q.vx, a VBIN, advances (R219, R225). -/
def execVbin (cell : CellId) (s : State) : Out :=
  runEngine cell 1 (fun w => cOpc w == 1) s

/-- The head of q.vx, a VUN, advances (R219, R226). -/
def execVun (cell : CellId) (s : State) : Out :=
  runEngine cell 1 (fun w => cOpc w == 2) s

/-- The head of q.vx, a VFMA, advances (R219, R227). -/
def execVfma (cell : CellId) (s : State) : Out :=
  runEngine cell 1 (fun w => cOpc w == 3) s

/-- The head of q.vx, a VRED, advances (R219, R228). -/
def execVred (cell : CellId) (s : State) : Out :=
  runEngine cell 1 (fun w => cOpc w == 4) s

/-- The head of q.vx, a VRSC, advances (R219, R229). -/
def execVrsc (cell : CellId) (s : State) : Out :=
  runEngine cell 1 (fun w => cOpc w == 5) s

/-- The head of q.ms, a SYNC or a command of no legal opcode, advances (R219, R251). -/
def execMsSync (cell : CellId) (s : State) : Out :=
  runEngine cell 2 (fun w => cOpc w != 1) s

/-- The head of q.ms, a RUNWB, advances (R219, R232). -/
def execRunwb (cell : CellId) (s : State) : Out :=
  runEngine cell 2 (fun w => cOpc w == 1) s

/-- The head of q.lk, a SYNC or a command of no legal opcode, advances (R219, R243). -/
def execLkSync (cell : CellId) (s : State) : Out :=
  runEngine cell 3 (fun w => cOpc w == 0 || decide (5 < (cOpc w).toNat)) s

/-- The head of q.lk, a LREAD, advances (R219, R234). -/
def execLread (cell : CellId) (s : State) : Out :=
  runEngine cell 3 (fun w => cOpc w == 1) s

/-- The head of q.lk, a LWRITE, advances (R219, R234). -/
def execLwrite (cell : CellId) (s : State) : Out :=
  runEngine cell 3 (fun w => cOpc w == 2) s

/-- The head of q.lk, a LCELL, advances (R219, R235). -/
def execLcell (cell : CellId) (s : State) : Out :=
  runEngine cell 3 (fun w => cOpc w == 3) s

/-- The head of q.lk, a LATOM, advances (R219, R236). -/
def execLatom (cell : CellId) (s : State) : Out :=
  runEngine cell 3 (fun w => cOpc w == 4) s

/-- The head of q.lk, a LCOLL, advances (R219, R237). -/
def execLcoll (cell : CellId) (s : State) : Out :=
  runEngine cell 3 (fun w => cOpc w == 5) s

/-- A head that waits on its semaphore starts once the semaphore holds WCNT (R219). -/
def execCommandWaitSatisfied (cell : CellId) (queue : BitVec 2) (s : State) : Out :=
  runEngine cell queue (fun _ => true) s

/-- The oldest started command of a queue completes (R243). -/
def execCommandComplete (cell : CellId) (queue : BitVec 2) (s : State) : Out :=
  withLive cell s fun s => s.completeOldest cell queue

/-- The check beat of the oldest command of the array (R151). -/
def execMmaCheckBeat (cell : CellId) (upsets : List Upset) (s : State) : Out :=
  withLive cell s (checkBeat cell upsets)

/-- The array re-reads row 0 of the command that is retried (R152). -/
def execMmaRetryStart (cell : CellId) (s : State) : Out :=
  withLive cell s (retryStart cell)

/-- A paced command takes the fill of its next panel and reads on (R139). -/
def execPanelFillTaken (cell : CellId) (s : State) : Out :=
  withLive cell s (panelTaken cell)

/-- A compute part that waits for a hand-off place hands off (R242). -/
def execCollectivePartHandoff (cell : CellId) (s : State) : Out :=
  withLive cell s fun s => s.handOffOldest cell

/-- The oldest handed-off part starts (R242). -/
def execCollectivePartStart (cell : CellId) (s : State) : Out :=
  withLive cell s fun s => s.startPart cell

/-- A collective part whose operation is finished completes (R241). -/
def execCollectivePartComplete (cell : CellId) (s : State) : Out :=
  withLive cell s fun s => s.completePart cell

/-- A transfer is not acknowledged within 1,000,000 ns (R247). -/
def execTransferAckTimeout (cell : CellId) (queue : BitVec 3) (index landed : Nat) (s : State) : Out :=
  withLive cell s fun s => s.ackTimeout cell queue index landed

/-- A die-to-die link fails (R33). A spoke exists for odd dies only (R32). -/
def execDieLinkFailure (link : DieLink) (s : State) : Out :=
  match link with
  | .ring _ => .next (s.linkFails link)
  | .spoke n => if n.toNat % 2 = 1 then .next (s.linkFails link) else .fault (.noSuchPart 32)

/-- A gap begins (R158). -/
def execBallastGapStart (cell : CellId) (duty beats : Nat) (s : State) : Out :=
  withCell cell s fun s => s.gapStart cell duty beats

/-- HOLD of the gap ends (R158). -/
def execBallastHoldEnd (cell : CellId) (beats : Nat) (s : State) : Out :=
  withCell cell s fun s => s.gapHoldEnd cell beats

/-- RAMP of the gap ends (R158). -/
def execBallastRampEnd (cell : CellId) (beats : Nat) (s : State) : Out :=
  withCell cell s fun s => s.gapRampEnd cell beats

end Sys2Proof.Machine
end

