-- ==== Sys2Proof/Machine/RecoveryCmds.lean ====
section
/-!
DEFINITION. The rows of recovery (R441 to R459): holds, the round of a recovery, relay parity and rebuilding.
-/

namespace Sys2Proof.Machine

/-- Recovery messages act on an enrolled module whose firmware runs and that has neither failed nor been braked (R442,
R447). -/
def State.recRuns (s : State) (job : BitVec 16) : Bool :=
  s.pwr.main && s.hif.fwUp && !s.dbg.braked && !s.rcv.selfFailed && s.rcv.jobId != 0 && s.rcv.jobId == job.toNat

/-- A HOLD or RELEASE arrives on a port (R444): each key is forwarded once, whatever the job. -/
def State.holdArrives (s : State) (port : BitVec 3) (m : HoldMsg) : State :=
  if ¬ s.pwr.main ∨ ¬ s.lnk.up port.toNat ∨ s.lnk.holdKeys.contains (m.origin, m.oseq) then s
  else
    let s1 := (s.noteKey m).floodHold m port.toNat
    if m.release then s1.takeRelease m else s1.takeHold m

/-- HOLD (R444, R445). -/
def execHold (port : BitVec 3) (job : BitVec 16) (origin : BitVec 15) (oseq : BitVec 8) (cause : BitVec 4)
    (failed : BitVec 15) (fport : BitVec 8) (lt : BitVec 64) (s : State) : Out :=
  if 6 ≤ port.toNat then .fault (.noSuchPart 386)
  else .next (s.holdArrives port ⟨false, cause.toNat, job.toNat, origin.toNat, oseq.toNat, 0, failed.toNat, fport.toNat, 0,
    lt.toNat⟩)

/-- RELEASE (R446). -/
def execRelease (port : BitVec 3) (job : BitVec 16) (origin : BitVec 15) (oseq round : BitVec 8) (epoch : BitVec 32)
    (lt : BitVec 64) (s : State) : Out :=
  if 6 ≤ port.toNat then .fault (.noSuchPart 386)
  else .next (s.holdArrives port ⟨true, 0, job.toNat, origin.toNat, oseq.toNat, round.toNat, 0x7FFF, 0xFF, epoch.toNat,
    lt.toNat⟩)

/-- HOLD_REQUEST (R441 cause 3): the module ID the request names, or 0x7FFF. -/
def execHoldRequest (failed : BitVec 15) (s : State) : Out := .next (s.originateHold 3 failed.toNat 0xFF)

/-- OWN_FAULT_HOLD (R441 cause 1, R442). -/
def execOwnFaultHold (s : State) : Out := .next s.ownFault

/-- HELD_REACHED (R445). -/
def execHeldReached (s : State) : Out := .next s.reachHeld

/-- HELD_REPORT (R455): collected by the coordinator and by the backup. -/
def execHeldReport (src : BitVec 15) (round : BitVec 8) (job : BitVec 16) (epoch : BitVec 64) (heard : List (BitVec 15))
    (s : State) : Out :=
  let r := s.rcv
  if s.recRuns job ∧ (r.coordId = s.own ∨ r.backupId = s.own) ∧ (r.state = 1 ∨ r.state = 2) ∧ round = r.round then
    .next (s.collectReport src.toNat epoch.toNat (heard.map BitVec.toNat))
  else .next s

/-- REPORT_WAIT_TIMEOUT (R455): positions that have not reported 50,000,000 ns after the first report have failed. -/
def execReportWaitTimeout (s : State) : Out :=
  let r := s.rcv
  match r.firstReport with
  | none => .next s
  | some t =>
    if ¬ s.recRuns (BitVec.ofNat 16 r.jobId) ∨ s.ns < t + 50000000 ∨ r.planned ∨ r.state ≠ 2 then .next s
    else
      let missing := s.jobIds.filter fun m => !(r.reports.any fun x => x.1 == m)
      .next ({ s with rcv := { r with failedSet := missing.foldl setIns r.failedSet } } : State).tryPlan

/-- BACKUP_TAKEOVER (R454): no PLAN within 100,000,000 ns of the backup's own HELD. -/
def execBackupTakeover (s : State) : Out :=
  let r := s.rcv
  if ¬ s.recRuns (BitVec.ofNat 16 r.jobId) ∨ r.backupId ≠ s.own ∨ r.state ≠ 2 ∨ s.ns < r.heldLt + 100000000 then .next s
  else .next ({ s with rcv := { r with acting := true } } : State).tryPlan

/-- PLAN (R456): at a module that is HELD; READY goes back. -/
def execPlan (src : BitVec 15) (round : BitVec 8) (job : BitVec 16) (epoch : BitVec 64)
    (pairs drops : List (BitVec 15 × BitVec 15)) (s : State) : Out :=
  if ¬ s.recRuns job ∨ s.rcv.state ≠ 2 then .next s
  else
    let nat (l : List (BitVec 15 × BitVec 15)) : List (Nat × Nat) := l.map fun p => (p.1.toNat, p.2.toNat)
    .next ((s.applyPlan round epoch.toNat (nat pairs) (nat drops)).sendRec 3 src.toNat epoch.toNat [])

/-- READY (R456). -/
def execReady (src : BitVec 15) (round : BitVec 8) (job : BitVec 16) (s : State) : Out :=
  if ¬ s.recRuns job ∨ ¬ s.rcv.planned ∨ round ≠ s.rcv.round ∨ s.rcv.readys.contains src.toNat then .next s
  else .next ({ s with rcv := { s.rcv with readys := setIns s.rcv.readys src.toNat } } : State).whenReady

/-- REBUILD_GO (R456). -/
def execRebuildGo (round : BitVec 8) (job : BitVec 16) (position spare : BitVec 15) (s : State) : Out :=
  if ¬ s.recRuns job ∨ round ≠ s.rcv.round then .next s else .next (s.rebuildGo position.toNat spare.toNat)

/-- REBUILT (R456). -/
def execRebuilt (src : BitVec 15) (round : BitVec 8) (job : BitVec 16) (s : State) : Out :=
  if ¬ s.recRuns job ∨ ¬ s.rcv.planned ∨ round ≠ s.rcv.round ∨ ¬ s.rcv.rebuilding.contains src.toNat then .next s
  else .next ({ s with rcv := { s.rcv with rebuilding := s.rcv.rebuilding.erase src.toNat } } : State).nextRebuild

/-- REC_COMMIT (R456). -/
def execRecCommit (round : BitVec 8) (job : BitVec 16) (s : State) : Out :=
  if ¬ s.recRuns job ∨ round ≠ s.rcv.round ∨ (s.rcv.state ≠ 3 ∧ s.rcv.state ≠ 4) then .next s else .next s.recCommit

/-- STOP (R446, R458): a coordinator that receives one passes it to the job. -/
def execStop (round : BitVec 8) (job : BitVec 16) (reason : BitVec 8) (s : State) : Out :=
  if ¬ s.recRuns job ∨ round ≠ s.rcv.round ∨ (s.rcv.state ≠ 2 ∧ s.rcv.state ≠ 3 ∧ s.rcv.state ≠ 4) then .next s
  else if s.coordinates then .next (s.stopRound reason.toNat)
  else .next (s.stuck reason.toNat)

/-- WRITTEN_UPDATE (R451). -/
def execWrittenUpdate (s : State) : Out := .next s.startRefresh

/-- REFRESH (R451): OFFSET counts 256 B, a chunk is 64 KiB. -/
def execRefresh (src : BitVec 15) (slice stage : BitVec 4) (epoch offset : BitVec 32) (fmt : BitVec 8)
    (crcs : List (BitVec 32)) (data : List Byte) (poison : List Nat) (s : State) : Out :=
  .next (s.refresh ⟨slice.toNat, stage.toNat, epoch, offset.toNat / 256, fmt.toNat, crcs.map BitVec.toNat,
    lanePoison data poison, src.toNat⟩)

/-- PARITY_COMMIT (R452). -/
def execParityCommit (epoch : BitVec 32) (fmt : BitVec 8) (s : State) : Out :=
  if ¬ s.relayRuns ∨ s.rcv.state ≠ 0 then .next s else .next (s.parityCommit (s.fullEpoch epoch) fmt.toNat)

/-- JOB_EPOCH_REDUCED (R452). -/
def execJobEpochReduced (s : State) : Out := .next (if s.relayRuns then s.jobReduced else s)

/-- REBUILD (R459). -/
def execRebuild (src : BitVec 15) (slice stage : BitVec 4) (offset : BitVec 32) (fmt : BitVec 8) (check : BitVec 32)
    (data : List Byte) (poison : List Nat) (s : State) : Out :=
  .next (s.rebuild slice.toNat stage.toNat (offset.toNat / 256) fmt.toNat check (lanePoison data poison) src.toNat)

/-- RELAY_ACK (R453). -/
def execRelayAck (rebuild : Bool) (slice : BitVec 4) (s : State) : Out :=
  .next (if s.relayRuns then s.relayAck rebuild slice.toNat else s)

/-- RELAY_ABORT (R453). -/
def execRelayAbort (rebuild : Bool) (slice : BitVec 4) (s : State) : Out :=
  .next (if s.relayRuns then s.relayAbort rebuild slice.toNat else s)

end Sys2Proof.Machine
end

