-- ==== Sys2Proof/Machine/WaybillCmds.lean ====
section
/-!
DEFINITION. The waybill instructions (R258 to R272) and the events of a waybill context. The opcode of the word a row
carries picks the instruction, as it does in the device.
-/

namespace Sys2Proof.Machine

/-- END (R263). -/
def execWbEnd (cell : CellId) (ctx : BitVec 2) (w : DWord) (s : State) : Out :=
  wbInstr cell ctx w s

/-- NOP (R258). -/
def execWbNop (cell : CellId) (ctx : BitVec 2) (w : DWord) (s : State) : Out :=
  wbInstr cell ctx w s

/-- SETV (R258). -/
def execWbSetv (cell : CellId) (ctx : BitVec 2) (w : DWord) (s : State) : Out :=
  wbInstr cell ctx w s

/-- ADDV (R258). -/
def execWbAddv (cell : CellId) (ctx : BitVec 2) (w : DWord) (s : State) : Out :=
  wbInstr cell ctx w s

/-- ADDVV (R258). -/
def execWbAddvv (cell : CellId) (ctx : BitVec 2) (w : DWord) (s : State) : Out :=
  wbInstr cell ctx w s

/-- GETD (R258). -/
def execWbGetd (cell : CellId) (ctx : BitVec 2) (w : DWord) (s : State) : Out :=
  wbInstr cell ctx w s

/-- SHAPE (R258). -/
def execWbShape (cell : CellId) (ctx : BitVec 2) (w : DWord) (s : State) : Out :=
  wbInstr cell ctx w s

/-- SETK (R258). -/
def execWbSetk (cell : CellId) (ctx : BitVec 2) (w : DWord) (s : State) : Out :=
  wbInstr cell ctx w s

/-- LOOP (R260). -/
def execWbLoop (cell : CellId) (ctx : BitVec 2) (w : DWord) (s : State) : Out :=
  wbInstr cell ctx w s

/-- SIGNAL (R262). -/
def execWbSignal (cell : CellId) (ctx : BitVec 2) (w : DWord) (s : State) : Out :=
  wbInstr cell ctx w s

/-- FENCE (R262). -/
def execWbFence (cell : CellId) (ctx : BitVec 2) (w : DWord) (s : State) : Out :=
  wbInstr cell ctx w s

/-- SETRING (R261). -/
def execWbSetring (cell : CellId) (ctx : BitVec 2) (w : DWord) (s : State) : Out :=
  wbInstr cell ctx w s

/-- SETC (R258). -/
def execWbSetc (cell : CellId) (ctx : BitVec 2) (w : DWord) (s : State) : Out :=
  wbInstr cell ctx w s

/-- WAIT (R259). -/
def execWbWait (cell : CellId) (ctx : BitVec 2) (w : DWord) (s : State) : Out :=
  wbInstr cell ctx w s

/-- MOVE (R264). -/
def execWbMove (cell : CellId) (ctx : BitVec 2) (w : DWord) (s : State) : Out :=
  wbInstr cell ctx w s

/-- A waiting context proceeds (R259). -/
def execWbWaitSatisfied (cell : CellId) (ctx : BitVec 2) (s : State) : Out :=
  withLive cell s (wbWaitDone cell ctx)

/-- A deferred SIGNAL takes effect (R262). -/
def execWbSignalEffect (cell : CellId) (ctx : BitVec 2) (s : State) : Out :=
  withLive cell s (wbSignalEffect cell ctx)

/-- A fenced context resumes (R262). -/
def execWbFenceRelease (cell : CellId) (ctx : BitVec 2) (s : State) : Out :=
  withLive cell s (wbFenceDone cell ctx)

/-- A source segment is lost (R272). -/
def execWbSegmentLost (cell : CellId) (ctx : BitVec 2) (index : Nat) (cause : Bool) (s : State) : Out :=
  withLive cell s (wbLost cell ctx index cause)

end Sys2Proof.Machine
end

