-- ==== Sys2Proof/Machine/Dispatch.lean ====
section
/-!
DEFINITION. The meaning of every command, one arm per constructor.
-/

namespace Sys2Proof.Machine

/-- What a command does to everything but the queue. -/
def exec (i : Instr) (s : State) : Host.Outcome State Fault Refusal :=
  match i with
  | .nop cell g o => Sys2Proof.Machine.execNop cell g o s
  | .alu cell g o => Sys2Proof.Machine.execAlu cell g o s
  | .addi cell g o => Sys2Proof.Machine.execAddi cell g o s
  | .andi cell g o => Sys2Proof.Machine.execAndi cell g o s
  | .ori cell g o => Sys2Proof.Machine.execOri cell g o s
  | .xori cell g o => Sys2Proof.Machine.execXori cell g o s
  | .slli cell g o => Sys2Proof.Machine.execSlli cell g o s
  | .srli cell g o => Sys2Proof.Machine.execSrli cell g o s
  | .srai cell g o => Sys2Proof.Machine.execSrai cell g o s
  | .li cell g o => Sys2Proof.Machine.execLi cell g o s
  | .lih cell g o => Sys2Proof.Machine.execLih cell g o s
  | .cmp cell g o => Sys2Proof.Machine.execCmp cell g o s
  | .cmpi cell g o => Sys2Proof.Machine.execCmpi cell g o s
  | .plog cell g o => Sys2Proof.Machine.execPlog cell g o s
  | .pfroms cell g o => Sys2Proof.Machine.execPfroms cell g o s
  | .ptos cell g o => Sys2Proof.Machine.execPtos cell g o s
  | .sel cell g o => Sys2Proof.Machine.execSel cell g o s
  | .lb cell g o => Sys2Proof.Machine.execLb cell g o s
  | .lbu cell g o => Sys2Proof.Machine.execLbu cell g o s
  | .lh cell g o => Sys2Proof.Machine.execLh cell g o s
  | .lhu cell g o => Sys2Proof.Machine.execLhu cell g o s
  | .lw cell g o => Sys2Proof.Machine.execLw cell g o s
  | .sb cell g o => Sys2Proof.Machine.execSb cell g o s
  | .sh cell g o => Sys2Proof.Machine.execSh cell g o s
  | .sw cell g o => Sys2Proof.Machine.execSw cell g o s
  | .lda cell g o => Sys2Proof.Machine.execLda cell g o s
  | .sta cell g o => Sys2Proof.Machine.execSta cell g o s
  | .tld cell g o => Sys2Proof.Machine.execTld cell g o s
  | .tst cell g o => Sys2Proof.Machine.execTst cell g o s
  | .aadd cell g o => Sys2Proof.Machine.execAadd cell g o s
  | .aaddi cell g o => Sys2Proof.Machine.execAaddi cell g o s
  | .afrom cell g o => Sys2Proof.Machine.execAfrom cell g o s
  | .ato cell g o => Sys2Proof.Machine.execAto cell g o s
  | .astr cell g o => Sys2Proof.Machine.execAstr cell g o s
  | .astri cell g o => Sys2Proof.Machine.execAstri cell g o s
  | .amov cell g o => Sys2Proof.Machine.execAmov cell g o s
  | .tofs cell g o => Sys2Proof.Machine.execTofs cell g o s
  | .tadv cell g o => Sys2Proof.Machine.execTadv cell g o s
  | .tget cell g o => Sys2Proof.Machine.execTget cell g o s
  | .tset cell g o => Sys2Proof.Machine.execTset cell g o s
  | .lcset cell g o => Sys2Proof.Machine.execLcset cell g o s
  | .lci cell g o => Sys2Proof.Machine.execLci cell g o s
  | .loop cell g o => Sys2Proof.Machine.execLoop cell g o s
  | .lset cell g o => Sys2Proof.Machine.execLset cell g o s
  | .lbrk cell g o => Sys2Proof.Machine.execLbrk cell g o s
  | .lget cell g o => Sys2Proof.Machine.execLget cell g o s
  | .br cell g o => Sys2Proof.Machine.execBr cell g o s
  | .call cell g o => Sys2Proof.Machine.execCall cell g o s
  | .jr cell g o => Sys2Proof.Machine.execJr cell g o s
  | .bz cell g o => Sys2Proof.Machine.execBz cell g o s
  | .bnz cell g o => Sys2Proof.Machine.execBnz cell g o s
  | .push cell g o => Sys2Proof.Machine.execPush cell g o s
  | .sig cell g o => Sys2Proof.Machine.execSig cell g o s
  | .waits cell g o => Sys2Proof.Machine.execWaits cell g o s
  | .waitsr cell g o => Sys2Proof.Machine.execWaitsr cell g o s
  | .semrd cell g o => Sys2Proof.Machine.execSemrd cell g o s
  | .enq cell g o => Sys2Proof.Machine.execEnq cell g o s
  | .mfs cell g o => Sys2Proof.Machine.execMfs cell g o s
  | .rdlt cell g o => Sys2Proof.Machine.execRdlt cell g o s
  | .swb cell g o => Sys2Proof.Machine.execSwb cell g o s
  | .halt cell g o => Sys2Proof.Machine.execHalt cell g o s
  | .mxSync cell => Sys2Proof.Machine.execMxSync cell s
  | .mma cell => Sys2Proof.Machine.execMma cell s
  | .vxSync cell => Sys2Proof.Machine.execVxSync cell s
  | .vbin cell => Sys2Proof.Machine.execVbin cell s
  | .vun cell => Sys2Proof.Machine.execVun cell s
  | .vfma cell => Sys2Proof.Machine.execVfma cell s
  | .vred cell => Sys2Proof.Machine.execVred cell s
  | .vrsc cell => Sys2Proof.Machine.execVrsc cell s
  | .msSync cell => Sys2Proof.Machine.execMsSync cell s
  | .runwb cell => Sys2Proof.Machine.execRunwb cell s
  | .lkSync cell => Sys2Proof.Machine.execLkSync cell s
  | .lread cell => Sys2Proof.Machine.execLread cell s
  | .lwrite cell => Sys2Proof.Machine.execLwrite cell s
  | .lcell cell => Sys2Proof.Machine.execLcell cell s
  | .latom cell => Sys2Proof.Machine.execLatom cell s
  | .lcoll cell => Sys2Proof.Machine.execLcoll cell s
  | .commandWaitSatisfied cell queue => Sys2Proof.Machine.execCommandWaitSatisfied cell queue s
  | .commandComplete cell queue => Sys2Proof.Machine.execCommandComplete cell queue s
  | .mmaCheckBeat cell upsets => Sys2Proof.Machine.execMmaCheckBeat cell upsets s
  | .mmaRetryStart cell => Sys2Proof.Machine.execMmaRetryStart cell s
  | .panelFillTaken cell => Sys2Proof.Machine.execPanelFillTaken cell s
  | .collectivePartHandoff cell => Sys2Proof.Machine.execCollectivePartHandoff cell s
  | .collectivePartStart cell => Sys2Proof.Machine.execCollectivePartStart cell s
  | .collectivePartComplete cell => Sys2Proof.Machine.execCollectivePartComplete cell s
  | .transferAckTimeout cell queue index landed => Sys2Proof.Machine.execTransferAckTimeout cell queue index landed s
  | .dieLinkFailure link => Sys2Proof.Machine.execDieLinkFailure link s
  | .ballastGapStart cell duty beats => Sys2Proof.Machine.execBallastGapStart cell duty beats s
  | .ballastHoldEnd cell beats => Sys2Proof.Machine.execBallastHoldEnd cell beats s
  | .ballastRampEnd cell beats => Sys2Proof.Machine.execBallastRampEnd cell beats s
  | .ibankLoadIssue cell task image => Sys2Proof.Machine.execIbankLoadIssue cell task image s
  | .ibankFirstWrite cell => Sys2Proof.Machine.execIbankFirstWrite cell s
  | .ibankLoadEnd cell => Sys2Proof.Machine.execIbankLoadEnd cell s
  | .ibankHoldTimeout cell => Sys2Proof.Machine.execIbankHoldTimeout cell s
  | .cellTaskStart cell bank => Sys2Proof.Machine.execCellTaskStart cell bank s
  | .cellHaltDrained cell => Sys2Proof.Machine.execCellHaltDrained cell s
  | .cellFaultHandled cell => Sys2Proof.Machine.execCellFaultHandled cell s
  | .cellRetire cell flashOk => Sys2Proof.Machine.execCellRetire cell flashOk s
  | .spareAdmitted cell => Sys2Proof.Machine.execSpareAdmitted cell s
  | .wbEnd cell ctx w => Sys2Proof.Machine.execWbEnd cell ctx w s
  | .wbNop cell ctx w => Sys2Proof.Machine.execWbNop cell ctx w s
  | .wbSetv cell ctx w => Sys2Proof.Machine.execWbSetv cell ctx w s
  | .wbAddv cell ctx w => Sys2Proof.Machine.execWbAddv cell ctx w s
  | .wbAddvv cell ctx w => Sys2Proof.Machine.execWbAddvv cell ctx w s
  | .wbGetd cell ctx w => Sys2Proof.Machine.execWbGetd cell ctx w s
  | .wbShape cell ctx w => Sys2Proof.Machine.execWbShape cell ctx w s
  | .wbSetk cell ctx w => Sys2Proof.Machine.execWbSetk cell ctx w s
  | .wbLoop cell ctx w => Sys2Proof.Machine.execWbLoop cell ctx w s
  | .wbWait cell ctx w => Sys2Proof.Machine.execWbWait cell ctx w s
  | .wbWaitSatisfied cell ctx => Sys2Proof.Machine.execWbWaitSatisfied cell ctx s
  | .wbSignal cell ctx w => Sys2Proof.Machine.execWbSignal cell ctx w s
  | .wbSignalEffect cell ctx => Sys2Proof.Machine.execWbSignalEffect cell ctx s
  | .wbFence cell ctx w => Sys2Proof.Machine.execWbFence cell ctx w s
  | .wbFenceRelease cell ctx => Sys2Proof.Machine.execWbFenceRelease cell ctx s
  | .wbSetring cell ctx w => Sys2Proof.Machine.execWbSetring cell ctx w s
  | .wbSetc cell ctx w => Sys2Proof.Machine.execWbSetc cell ctx w s
  | .wbMove cell ctx w => Sys2Proof.Machine.execWbMove cell ctx w s
  | .wbSegmentLost cell ctx index cause => Sys2Proof.Machine.execWbSegmentLost cell ctx index cause s
  | .hbmAccess sector op errs => Sys2Proof.Machine.execHbmAccess sector op errs s
  | .atomicUpdate dpa fmt op value poison errs => Sys2Proof.Machine.execAtomicUpdate dpa fmt op value poison errs s
  | .hostMemRead offset cache own errs0 errs1 => Sys2Proof.Machine.execHostMemRead offset cache own errs0 errs1 s
  | .hostMemWrite offset data poison keep errs => Sys2Proof.Machine.execHostMemWrite offset data poison keep errs s
  | .bisnpResponse line data poison => Sys2Proof.Machine.execBisnpResponse line data poison s
  | .scrubRead stack sector reserved errs => Sys2Proof.Machine.execScrubRead stack sector reserved errs s
  | .laneRepairStart pch lane => Sys2Proof.Machine.execLaneRepairStart pch lane s
  | .laneRepairEnd pch => Sys2Proof.Machine.execLaneRepairEnd pch s
  | .memScopeCommit value => Sys2Proof.Machine.execMemScopeCommit value s
  | .tierMove handle dest => Sys2Proof.Machine.execTierMove handle dest s
  | .tierReclaim module => Sys2Proof.Machine.execTierReclaim module s
  | .tierLost module handle => Sys2Proof.Machine.execTierLost module handle s
  | .arbiterDecide block requests => Sys2Proof.Machine.execArbiterDecide block requests s
  | .ttCommit block value => Sys2Proof.Machine.execTtCommit block value s
  | .hifSqDb queue index => Sys2Proof.Machine.execHifSqDb queue index s
  | .dispatcherWake => Sys2Proof.Machine.execDispatcherWake s
  | .entryArrive => Sys2Proof.Machine.execEntryArrive s
  | .taskPlace => Sys2Proof.Machine.execTaskPlace s
  | .signalBoxTask task die cluster => Sys2Proof.Machine.execSignalBoxTask task die cluster s
  | .taskMembersStart task die cluster => Sys2Proof.Machine.execTaskMembersStart task die cluster s
  | .faultReport cell => Sys2Proof.Machine.execFaultReport cell s
  | .memberStop cell => Sys2Proof.Machine.execMemberStop cell s
  | .taskEnd task => Sys2Proof.Machine.execTaskEnd task s
  | .completionRecordWrite queue => Sys2Proof.Machine.execCompletionRecordWrite queue s
  | .enqRequest cell => Sys2Proof.Machine.execEnqRequest cell s
  | .enqAnswer cell => Sys2Proof.Machine.execEnqAnswer cell s
  | .enqTimeout cell => Sys2Proof.Machine.execEnqTimeout cell s
  | .pmapCommit => Sys2Proof.Machine.execPmapCommit s
  | .hifCqHead queue index => Sys2Proof.Machine.execHifCqHead queue index s
  | .hifEvHead index => Sys2Proof.Machine.execHifEvHead index s
  | .hifLease number => Sys2Proof.Machine.execHifLease number s
  | .leaseExpiry => Sys2Proof.Machine.execLeaseExpiry s
  | .feAccess access => Sys2Proof.Machine.execFeAccess access s
  | .feTimeout => Sys2Proof.Machine.execFeTimeout s
  | .attach lease => Sys2Proof.Machine.execAttach lease s
  | .detach => Sys2Proof.Machine.execDetach s
  | .queueCreate => Sys2Proof.Machine.execQueueCreate s
  | .queueDelete => Sys2Proof.Machine.execQueueDelete s
  | .queueRebind => Sys2Proof.Machine.execQueueRebind s
  | .resume => Sys2Proof.Machine.execResume s
  | .taskAbort => Sys2Proof.Machine.execTaskAbort s
  | .tensorCreate handle scope place => Sys2Proof.Machine.execTensorCreate handle scope place s
  | .tensorFree => Sys2Proof.Machine.execTensorFree s
  | .tensorPin place => Sys2Proof.Machine.execTensorPin place s
  | .tensorUnpin => Sys2Proof.Machine.execTensorUnpin s
  | .tensorQuery => Sys2Proof.Machine.execTensorQuery s
  | .hostGrant id => Sys2Proof.Machine.execHostGrant id s
  | .hostRevoke moves => Sys2Proof.Machine.execHostRevoke moves s
  | .configSet => Sys2Proof.Machine.execConfigSet s
  | .eventRingSet => Sys2Proof.Machine.execEventRingSet s
  | .mbUnknownOpc => Sys2Proof.Machine.execMbUnknownOpc s
  | .functionLevelReset => Sys2Proof.Machine.execFunctionLevelReset s
  | .cplWriteFailed queue noAnswer => Sys2Proof.Machine.execCplWriteFailed queue noAnswer s
  | .fetchFailed noAnswer => Sys2Proof.Machine.execFetchFailed noAnswer s
  | .eventWriteFailed noAnswer => Sys2Proof.Machine.execEventWriteFailed noAnswer s
  | .msixCoalesceTimeout queue => Sys2Proof.Machine.execMsixCoalesceTimeout queue s
  | .cxlLinkChange up width rate => Sys2Proof.Machine.execCxlLinkChange up width rate s
  | .perstAssert => Sys2Proof.Machine.execPerstAssert s
  | .perstRelease => Sys2Proof.Machine.execPerstRelease s
  | .frameReceive port valid vc seq flit c0 c1 => Sys2Proof.Machine.execFrameReceive port valid vc seq flit c0 c1 s
  | .nak port seq => Sys2Proof.Machine.execNak port seq s
  | .ack port seq => Sys2Proof.Machine.execAck port seq s
  | .credit port vc count => Sys2Proof.Machine.execCredit port vc count s
  | .laneFailing port lane lost seq => Sys2Proof.Machine.execLaneFailing port lane lost seq s
  | .laneSwitch port lane seq => Sys2Proof.Machine.execLaneSwitch port lane seq s
  | .laneSwitchApply port transmit => Sys2Proof.Machine.execLaneSwitchApply port transmit s
  | .laneAck port lane => Sys2Proof.Machine.execLaneAck port lane s
  | .heartbeatSend port => Sys2Proof.Machine.execHeartbeatSend port s
  | .heartbeat port hold dist => Sys2Proof.Machine.execHeartbeat port hold dist s
  | .heartbeatTimeout port => Sys2Proof.Machine.execHeartbeatTimeout port s
  | .frameLockLoss port => Sys2Proof.Machine.execFrameLockLoss port s
  | .livenessProbe => Sys2Proof.Machine.execLivenessProbe s
  | .probeReturn => Sys2Proof.Machine.execProbeReturn s
  | .watchdogExpiry => Sys2Proof.Machine.execWatchdogExpiry s
  | .laneTrained port levels asym => Sys2Proof.Machine.execLaneTrained port levels asym s
  | .discover port id peer levels => Sys2Proof.Machine.execDiscover port id peer levels s
  | .accept port => Sys2Proof.Machine.execAccept port s
  | .reject port => Sys2Proof.Machine.execReject port s
  | .trainingTimeout port => Sys2Proof.Machine.execTrainingTimeout port s
  | .retrainAttempt port => Sys2Proof.Machine.execRetrainAttempt port s
  | .peerPorts port states => Sys2Proof.Machine.execPeerPorts port states s
  | .packetForward port vc dst src cls rtv det hops len => Sys2Proof.Machine.execPacketForward port vc dst src cls rtv det hops len s
  | .lnkPlanCommit value => Sys2Proof.Machine.execLnkPlanCommit value s
  | .lnkRtCommit value => Sys2Proof.Machine.execLnkRtCommit value s
  | .ltSyncSend => Sys2Proof.Machine.execLtSyncSend s
  | .ltSyncRequest port => Sys2Proof.Machine.execLtSyncRequest port s
  | .ltSyncAnswer t2 t3 settle => Sys2Proof.Machine.execLtSyncAnswer t2 t3 settle s
  | .ltParentLost rootLost => Sys2Proof.Machine.execLtParentLost rootLost s
  | .ltRealign die cluster dev => Sys2Proof.Machine.execLtRealign die cluster dev s
  | .ethLinkChange eth speed => Sys2Proof.Machine.execEthLinkChange eth speed s
  | .rdmaRemoteWrite qp key addr data => Sys2Proof.Machine.execRdmaRemoteWrite qp key addr data s
  | .rdmaRemoteRead qp key addr len => Sys2Proof.Machine.execRdmaRemoteRead qp key addr len s
  | .islandRdmaWrite eth src group ver opseq stage offset data poison => Sys2Proof.Machine.execIslandRdmaWrite eth src group ver opseq stage offset data poison s
  | .colContribution => Sys2Proof.Machine.execColContribution s
  | .colData src group ver opseq stage offset data poison => Sys2Proof.Machine.execColData src group ver opseq stage offset data poison s
  | .colAck src group ver opseq stage => Sys2Proof.Machine.execColAck src group ver opseq stage s
  | .colAbort src group ver opseq stage => Sys2Proof.Machine.execColAbort src group ver opseq stage s
  | .colOpTimeout group opseq slot => Sys2Proof.Machine.execColOpTimeout group opseq slot s
  | .colGtCommit value => Sys2Proof.Machine.execColGtCommit value s
  | .hold port job origin oseq cause failed fport lt => Sys2Proof.Machine.execHold port job origin oseq cause failed fport lt s
  | .release port job origin oseq round epoch lt => Sys2Proof.Machine.execRelease port job origin oseq round epoch lt s
  | .holdRequest failed => Sys2Proof.Machine.execHoldRequest failed s
  | .ownFaultHold => Sys2Proof.Machine.execOwnFaultHold s
  | .heldReached => Sys2Proof.Machine.execHeldReached s
  | .heldReport src round job epoch heard => Sys2Proof.Machine.execHeldReport src round job epoch heard s
  | .reportWaitTimeout => Sys2Proof.Machine.execReportWaitTimeout s
  | .backupTakeover => Sys2Proof.Machine.execBackupTakeover s
  | .plan src round job epoch pairs drops => Sys2Proof.Machine.execPlan src round job epoch pairs drops s
  | .ready src round job => Sys2Proof.Machine.execReady src round job s
  | .rebuildGo round job position spare => Sys2Proof.Machine.execRebuildGo round job position spare s
  | .rebuilt src round job => Sys2Proof.Machine.execRebuilt src round job s
  | .recCommit round job => Sys2Proof.Machine.execRecCommit round job s
  | .stop round job reason => Sys2Proof.Machine.execStop round job reason s
  | .writtenUpdate => Sys2Proof.Machine.execWrittenUpdate s
  | .refresh src slice stage epoch offset fmt crcs data poison => Sys2Proof.Machine.execRefresh src slice stage epoch offset fmt crcs data poison s
  | .parityCommit epoch fmt => Sys2Proof.Machine.execParityCommit epoch fmt s
  | .jobEpochReduced => Sys2Proof.Machine.execJobEpochReduced s
  | .rebuild src slice stage offset fmt check data poison => Sys2Proof.Machine.execRebuild src slice stage offset fmt check data poison s
  | .relayAck rebuild slice => Sys2Proof.Machine.execRelayAck rebuild slice s
  | .relayAbort rebuild slice => Sys2Proof.Machine.execRelayAbort rebuild slice s
  | .aux12vPresent slot => Sys2Proof.Machine.execAux12vPresent slot s
  | .aux12vAbsent => Sys2Proof.Machine.execAux12vAbsent s
  | .mainDwellElapsed => Sys2Proof.Machine.execMainDwellElapsed s
  | .inrushCharged flash found => Sys2Proof.Machine.execInrushCharged flash found s
  | .overvoltage volt => Sys2Proof.Machine.execOvervoltage volt s
  | .inputWarn volt => Sys2Proof.Machine.execInputWarn volt s
  | .inputWarnClear low => Sys2Proof.Machine.execInputWarnClear low s
  | .inputReset low => Sys2Proof.Machine.execInputReset low s
  | .railWarn die rail => Sys2Proof.Machine.execRailWarn die rail s
  | .railWarnClear die low => Sys2Proof.Machine.execRailWarnClear die low s
  | .railReset die low => Sys2Proof.Machine.execRailReset die low s
  | .railResetRestart flash => Sys2Proof.Machine.execRailResetRestart flash s
  | .thermalThrottle die temp => Sys2Proof.Machine.execThermalThrottle die temp s
  | .thermalThrottleEnd die temp => Sys2Proof.Machine.execThermalThrottleEnd die temp s
  | .thermalWarn die temp => Sys2Proof.Machine.execThermalWarn die temp s
  | .thermalWarnClear die temp high => Sys2Proof.Machine.execThermalWarnClear die temp high s
  | .thermalTripWarning die => Sys2Proof.Machine.execThermalTripWarning die s
  | .thermalTrip die temp => Sys2Proof.Machine.execThermalTrip die temp s
  | .powerGrant watts seq life => Sys2Proof.Machine.execPowerGrant watts seq life s
  | .grantExpiry => Sys2Proof.Machine.execGrantExpiry s
  | .controlPeriod rails duty hbm temps volt watts => Sys2Proof.Machine.execControlPeriod rails duty hbm temps volt watts s
  | .capTableCommit => Sys2Proof.Machine.execCapTableCommit s
  | .estimateUntrusted estimate measured phases => Sys2Proof.Machine.execEstimateUntrusted estimate measured phases s
  | .estimateTrusted estimate measured => Sys2Proof.Machine.execEstimateTrusted estimate measured s
  | .hwLimit average => Sys2Proof.Machine.execHwLimit average s
  | .startRequest kind clear staged flash found => Sys2Proof.Machine.execStartRequest kind clear staged flash found s
  | .startComplete flash => Sys2Proof.Machine.execStartComplete flash s
  | .startFailed reason step stack channel lane flash => Sys2Proof.Machine.execStartFailed reason step stack channel lane flash s
  | .startTimeout flash => Sys2Proof.Machine.execStartTimeout flash s
  | .coreReadyTimeout flash => Sys2Proof.Machine.execCoreReadyTimeout flash s
  | .failedStartRetry flash => Sys2Proof.Machine.execFailedStartRetry flash s
  | .bundleFetchDone bundle found => Sys2Proof.Machine.execBundleFetchDone bundle found s
  | .bundlePush bundle => Sys2Proof.Machine.execBundlePush bundle s
  | .activateFirmware => Sys2Proof.Machine.execActivateFirmware s
  | .activationBegin => Sys2Proof.Machine.execActivationBegin s
  | .activationCancel => Sys2Proof.Machine.execActivationCancel s
  | .componentHandover recordOk => Sys2Proof.Machine.execComponentHandover recordOk s
  | .handoverResumeTimeout => Sys2Proof.Machine.execHandoverResumeTimeout s
  | .protectionFault core cluster addr => Sys2Proof.Machine.execProtectionFault core cluster addr s
  | .coreReload core cluster => Sys2Proof.Machine.execCoreReload core cluster s
  | .securityCoreRestart => Sys2Proof.Machine.execSecurityCoreRestart s
  | .getVersion => Sys2Proof.Machine.execGetVersion s
  | .getCapabilities => Sys2Proof.Machine.execGetCapabilities s
  | .negotiateAlgorithms => Sys2Proof.Machine.execNegotiateAlgorithms s
  | .getDigests => Sys2Proof.Machine.execGetDigests s
  | .getCertificate slot offset length => Sys2Proof.Machine.execGetCertificate slot offset length s
  | .challenge slot nonce => Sys2Proof.Machine.execChallenge slot nonce s
  | .getMeasurements index nonce => Sys2Proof.Machine.execGetMeasurements index nonce s
  | .windowRead offset count => Sys2Proof.Machine.execWindowRead offset count s
  | .windowWrite offset value => Sys2Proof.Machine.execWindowWrite offset value s
  | .scanRead space cell offset length => Sys2Proof.Machine.execScanRead space cell offset length s
  | .sidebandBrake => Sys2Proof.Machine.execSidebandBrake s
  | .dbgBrake value => Sys2Proof.Machine.execDbgBrake value s
  | .extest => Sys2Proof.Machine.execExtest s
  | .samplePreload => Sys2Proof.Machine.execSamplePreload s
  | .jtagBrake bit => Sys2Proof.Machine.execJtagBrake bit s
  | .scanaddr value => Sys2Proof.Machine.execScanaddr value s
  | .scandata => Sys2Proof.Machine.execScandata s
  | .dbgstat => Sys2Proof.Machine.execDbgstat s
  | .bypass code => Sys2Proof.Machine.execBypass code s
  | .traceEntry die cluster code sev cell payload => Sys2Proof.Machine.execTraceEntry die cluster code sev cell payload s
  | .traceWrite die cluster => Sys2Proof.Machine.execTraceWrite die cluster s
  | .traceArm die cluster => Sys2Proof.Machine.execTraceArm die cluster s
  | .traceStop die cluster => Sys2Proof.Machine.execTraceStop die cluster s
  | .traceSwTrigger die cluster => Sys2Proof.Machine.execTraceSwTrigger die cluster s
  | .traceTrigger die cluster source cell code => Sys2Proof.Machine.execTraceTrigger die cluster source cell code s
  | .globalTrigger die cluster fromDie fromCluster lt => Sys2Proof.Machine.execGlobalTrigger die cluster fromDie fromCluster lt s
  | .hangWatchTimeout task => Sys2Proof.Machine.execHangWatchTimeout task s
  | .dbgHangBuild value => Sys2Proof.Machine.execDbgHangBuild value s
  | .hangSnapshotConfirm => Sys2Proof.Machine.execHangSnapshotConfirm s
  | .latchingLoRead side offset => Sys2Proof.Machine.execLatchingLoRead side offset s
  | .rcRead side offset => Sys2Proof.Machine.execRcRead side offset s
  | .tracePortRead side offset => Sys2Proof.Machine.execTracePortRead side offset s
  | .registerWrite writer offset value => Sys2Proof.Machine.execRegisterWrite writer offset value s
  | .tripCooldown temps flash found => Sys2Proof.Machine.execTripCooldown temps flash found s
  | .suspectWindowExpiry cell => Sys2Proof.Machine.execSuspectWindowExpiry cell s
  | .ieee1588Sync eth offset8 => Sys2Proof.Machine.execIeee1588Sync eth offset8 s
  | .rootLineTimeSet value => Sys2Proof.Machine.execRootLineTimeSet value s
  | .congestionNotification qp => Sys2Proof.Machine.execCongestionNotification qp s
  | .priorityFlowControl eth priority pause => Sys2Proof.Machine.execPriorityFlowControl eth priority pause s
  | .rdmaWorkCompletion work ok dst data => Sys2Proof.Machine.execRdmaWorkCompletion work ok dst data s
  | .queuePairSetup region num base len key eth peer => Sys2Proof.Machine.execQueuePairSetup region num base len key eth peer s
  | .bundleFetchRetry => Sys2Proof.Machine.execBundleFetchRetry s
  | .moduleIdAssign id => Sys2Proof.Machine.execModuleIdAssign id s
  | .jtagTrst low => Sys2Proof.Machine.execJtagTrst low s
  | .recordWriteCompleted queue => Sys2Proof.Machine.execRecordWriteCompleted queue s

end Sys2Proof.Machine
end

