-- ==== Sys2Proof/Safety.lean ====
section
/-!
DEFINITION. What claims speak of: when a cell core issues an instruction, what an instruction that falls through leaves
behind, when the head of a queue, a waybill context, a MOVE and a mailbox message may go on, and what frames say.
-/

namespace Sys2Proof.Machine

/-! ### Cell cores (R82, R88, R105, R111, R122, R188) -/

/-- The core of a cell issues an instruction with guard `g`: the cell runs and waits in no instruction, the word at the PC
has no error and no reserved opcode, and the guard is readable and true. -/
abbrev CellState.Issues (c : CellState) (g : BitVec 4) : Prop :=
  c.st = .running ∧ c.core.enq = none ∧ c.core.held = none ∧ c.fetchUe = false ∧ c.fetchIllegal = false ∧ c.core.pClaim &&& bit3 (g.setWidth 3) = 0 ∧
    c.core.pMark &&& bit3 (g.setWidth 3) = 0 ∧ guardTrue c g = true

/-- The s registers of `rd` may be read and those of `wr` written: none is claimed, and none of `rd` is poisoned. -/
abbrev CellState.FreeS (c : CellState) (rd wr : BitVec 32) : Prop :=
  c.core.sClaim &&& (rd ||| wr) = 0 ∧ c.core.sMark &&& rd = 0

/-- The same for the predicates. -/
abbrev CellState.FreeP (c : CellState) (rd wr : BitVec 8) : Prop :=
  c.core.pClaim &&& (rd ||| wr) = 0 ∧ c.core.pMark &&& rd = 0

/-- The instruction that follows one at the PC, loops counted, lies in the bank (R87, R105, R108). -/
abbrev CellState.Fits (c : CellState) : Prop :=
  (endCheck c.core.pc.toNat (c.core.pc.toNat + 4) c.core.loops).2 ≤ 0xFFFC

/-- The core goes on at byte offset `dest` with a loop stack: it waits for nothing and has made progress (R523, R536). -/
def CellState.goOn (c : CellState) (dest : Nat) (loops : List LoopEntry) (ns : Nat) : CellState :=
  { c with core := { c.core with pc := BitVec.ofNat 16 dest, loops := loops, wait := ⟨0, 0, 0⟩, held := none }
           ctr := { c.ctr with moved := ns } }

/-- The cell after an instruction that falls through at line time `ns`: the end check of R105 has counted its loops. -/
def CellState.next (c : CellState) (ns : Nat) : CellState :=
  let r := endCheck c.core.pc.toNat (c.core.pc.toNat + 4) c.core.loops
  c.goOn r.2 r.1 ns

/-- The core waits in the instruction with word `w` (R121, R523): a wait of the same kind for the same target keeps its
beginning. -/
def CellState.waitsOn (c : CellState) (w : Word) (kind : BitVec 4) (target : BitVec 8) (ns : Nat) : CellState :=
  let since := if c.core.wait.kind = kind ∧ c.core.wait.target = target then c.core.wait.since else ns
  { c with core := { c.core with wait := ⟨kind, target, since⟩, held := some w } }

/-- Write an s register with a value that carries no poison. -/
def CellState.writeS (c : CellState) (i : BitVec 5) (x : Word) : CellState :=
  { c with core := { c.core with s := rset c.core.s i x, sMark := c.core.sMark &&& ~~~(bit5 i) } }

/-- Write a predicate with a value that carries no poison; p0 keeps its value (R82). -/
def CellState.writeP (c : CellState) (i : BitVec 3) (x : Bool) : CellState :=
  let p := if i = 0 then c.core.p else (c.core.p &&& ~~~(bit3 i)) ||| (if x then bit3 i else 0)
  { c with core := { c.core with p := p, pMark := c.core.pMark &&& ~~~(bit3 i) } }

/-- Write the address of an a register, its stride kept. -/
def CellState.writeA (c : CellState) (i : BitVec 4) (x : BitVec 40) : CellState :=
  { c with core := { c.core with a := rset c.core.a i ⟨x, (rget c.core.a i).stride⟩ } }

/-- An access of `size` bytes at `a` to the data memory (R85): aligned, in range, and of words without errors (R84). -/
abbrev CellState.InDmem (c : CellState) (a : BitVec 40) (size : Nat) : Prop :=
  a.toNat % size = 0 ∧ a.toNat < 0x10000 ∧ ∀ w ∈ wordsOf a.toNat size, w ∉ c.dmem.ue ∧ w ∉ c.dmem.ce

/-- An access of `size` bytes at `a` to the cell store (R85): aligned, in range, and of lanes without errors or poison
(R58, R187). -/
abbrev CellState.InStore (c : CellState) (a : BitVec 40) (size : Nat) : Prop :=
  a.toNat % size = 0 ∧ 0x1000000 ≤ a.toNat ∧ a.toNat < 0x1300000 ∧
    ∀ l ∈ lanesOf (a.toNat - 0x1000000) size, l ∉ c.store.poison ∧ l ∉ c.store.ue ∧ l ∉ c.store.ce

/-- A load of `size` bytes at `a` raises nothing. -/
abbrev CellState.MayLoad (c : CellState) (a : BitVec 40) (size : Nat) : Prop := c.InDmem a size ∨ c.InStore a size

/-- The byte a core reads at address `a` of its data memory or its store (R85). -/
def CellState.byteAt (c : CellState) (a : Nat) : Byte :=
  if a < 0x10000 then c.dmem.mem.get 0 a else c.store.mem.get 0 (a - 0x1000000)

/-- The number `size` bytes at `a` spell, lowest first (R13). -/
def CellState.numAt (c : CellState) (a size : Nat) : Nat :=
  leNat ((List.range size).map fun i => c.byteAt (a + i))

/-- After a number of `n` bytes is stored at `a`, its bytes read there, and every other byte reads as before. -/
def Stored (old new : Mem) (a n v : Nat) : Prop :=
  ∀ k, new.get 0 k = if a ≤ k ∧ k < a + n then BitVec.ofNat 8 (v / 256 ^ (k - a)) else old.get 0 k

/-- The instructions of the cell core with a guard and operand bits, each with what its opcode says (R90). -/
def coreRows (id : CellId) (g : BitVec 4) (o : BitVec 22) : List (Instr × CoreOp) :=
  [(.nop id g o, opNop), (.alu id g o, opAlu), (.addi id g o, opAddi), (.andi id g o, opAndi), (.ori id g o, opOri),
   (.xori id g o, opXori), (.slli id g o, opSlli), (.srli id g o, opSrli), (.srai id g o, opSrai),
   (.li id g o, opLi), (.lih id g o, opLih), (.cmp id g o, opCmp), (.cmpi id g o, opCmpi), (.plog id g o, opPlog),
   (.pfroms id g o, opPfroms), (.ptos id g o, opPtos), (.sel id g o, opSel), (.lb id g o, opLb),
   (.lbu id g o, opLbu), (.lh id g o, opLh), (.lhu id g o, opLhu), (.lw id g o, opLw), (.sb id g o, opSb),
   (.sh id g o, opSh), (.sw id g o, opSw), (.lda id g o, opLda), (.sta id g o, opSta), (.tld id g o, opTld),
   (.tst id g o, opTst), (.aadd id g o, opAadd), (.aaddi id g o, opAaddi), (.afrom id g o, opAfrom),
   (.ato id g o, opAto), (.astr id g o, opAstr), (.astri id g o, opAstri), (.amov id g o, opAmov),
   (.tofs id g o, opTofs), (.tadv id g o, opTadv), (.tget id g o, opTget), (.tset id g o, opTset),
   (.lcset id g o, opLcset), (.lci id g o, opLci), (.loop id g o, opLoop), (.lset id g o, opLset),
   (.lbrk id g o, opLbrk), (.lget id g o, opLget), (.br id g o, opBr), (.call id g o, opCall), (.jr id g o, opJr),
   (.bz id g o, opBz), (.bnz id g o, opBnz), (.push id g o, opPush), (.sig id g o, opSig), (.waits id g o, opWaits),
   (.waitsr id g o, opWaitsr), (.semrd id g o, opSemrd), (.enq id g o, opEnq), (.mfs id g o, opMfs),
   (.rdlt id g o, opRdlt), (.swb id g o, opSwb), (.halt id g o, opHalt)]

/-- What an instruction of the cell core may write of its cell: registers, and the bytes it stores. -/
structure CoreDest where
  s : List (BitVec 5) := []
  a : List (BitVec 4) := []
  t : List (BitVec 4) := []
  p : List (BitVec 3) := []
  lc : List (BitVec 2) := []
  sem : List (BitVec 5) := []
  bytes : Nat → Prop := fun _ => False

/-- Nothing of the cell changed but what `d` names, the PC, the loop stack, the record of a wait, the turns of semaphores (R64),
the counts of corrected errors, and the marks of the words a store writes. -/
def CellState.KeepsBut (c c' : CellState) (d : CoreDest) : Prop :=
  (∀ r, r ∉ d.s → c'.sReg r = c.sReg r ∧ c'.core.sMark.getLsbD r.toNat = c.core.sMark.getLsbD r.toNat) ∧
  (∀ r, r ∉ d.a → c'.aReg r = c.aReg r) ∧
  (∀ r, r ∉ d.t → c'.tReg r = c.tReg r) ∧
  (∀ r, r ∉ d.p → c'.pReg r = c.pReg r ∧ c'.core.pMark.getLsbD r.toNat = c.core.pMark.getLsbD r.toNat) ∧
  (∀ r, r ∉ d.lc → c'.lcReg r = c.lcReg r) ∧
  (∀ r, r ∉ d.sem → c'.sem r = c.sem r) ∧
  (∀ x, x < 0x10000 ∨ 0x1000000 ≤ x → ¬ d.bytes x → c'.byteAt x = c.byteAt x) ∧
  c' = { c with
    core := { c.core with s := c'.core.s, a := c'.core.a, t := c'.core.t, p := c'.core.p, lc := c'.core.lc, sMark := c'.core.sMark
                          pMark := c'.core.pMark, pc := c'.core.pc, loops := c'.core.loops, wait := c'.core.wait
                          held := c'.core.held }
    sems := c'.sems, turns := c'.turns, dmem := c'.dmem, store := c'.store
    ctr := { c.ctr with moved := c'.ctr.moved, ceStore := c'.ctr.ceStore, ceDmem := c'.ctr.ceDmem } }

/-! ### Engine queues, vectors and waybills (R178, R219, R252, R264) -/

/-- The head of a queue has left it and its semaphore has fallen by WCNT (R219). -/
def State.headTaken (s : State) (id : CellId) (q : BitVec 2) (h : QCmd) (rest : List QCmd) : State :=
  let c := s.cell id
  s.setCell id ((c.take (cWsem h.word) (q.toNat + 1) (cWcnt h.word).toNat).setQueue q { c.queue q with q := rest })

/-- The head `h` of queue `q` may start: the cell's engines work, its code fields are legal (R219), its wait holds and its
turn has come (R63, R64), and it has not run before. -/
abbrev CellState.HeadReady (c : CellState) (q : BitVec 2) (h : QCmd) (rest : List QCmd) : Prop :=
  c.works = true ∧ (c.queue q).q = h :: rest ∧ h.rerun = false ∧ codeLegal q h.word = true ∧ c.mayTake (cWsem h.word) (q.toNat + 1) (cWcnt h.word).toNat = true

/-- A descriptor of one INT32 element of this cell's store. -/
abbrev IntElem (d : QWord) : Prop :=
  dHandle d = 0 ∧ dFmt d = 0xA ∧ dRows d = 1 ∧ dCols d = 1 ∧ (dOffset d).toNat % 4 = 0 ∧ 4 ≤ (dLdim d).toNat ∧
    (dOffset d).toNat + 4 ≤ 0x300000

/-- Context `i` of a cell executes its next instruction (R252, R259, R262, R263): the cell's engines work, the context is
busy and neither waits nor has ended, and the 32-byte word of the instruction is among those fetched or has no error (R58,
R253). -/
abbrev CellState.CtxRuns (c : CellState) (i : BitVec 2) : Prop :=
  c.works = true ∧ (rget c.wb i).busy = true ∧ (rget c.wb i).ended = false ∧ (rget c.wb i).fence = false ∧
    (rget c.wb i).waitOn = none ∧ (rget c.wb i).pc < 0x300000 ∧
    ((rget c.wb i).pc / 32 ∈ (rget c.wb i).buf ∨
      ∀ k < 4, 4 * ((rget c.wb i).pc / 32) + k ∉ c.store.ue ∧ 4 * ((rget c.wb i).pc / 32) + k ∉ c.store.ce)

/-- Context `i` of a cell whose instruction has been fetched (R253): its word is among the last 64 instructions fetched. -/
def CellState.fetched (c : CellState) (i : BitVec 2) : CellState :=
  let x := rget c.wb i
  let w := x.pc / 32
  c.setCtx i (if x.buf.contains w then x else { x with buf := (w :: x.buf).take 16 })

/-- The waybill instructions with a word. The opcode of the word says what any of them does (R258). -/
def wbRows (id : CellId) (i : BitVec 2) (w : DWord) : List Instr :=
  [.wbEnd id i w, .wbNop id i w, .wbSetv id i w, .wbAddv id i w, .wbAddvv id i w, .wbGetd id i w, .wbShape id i w,
    .wbSetk id i w, .wbLoop id i w, .wbWait id i w, .wbSignal id i w, .wbFence id i w, .wbSetring id i w, .wbSetc id i w,
    .wbMove id i w]

/-- A MOVE of context `x` passes the checks of R255, R261, R264 and R265 with shape `sh`. -/
abbrev MoveReady (s : State) (x : WbCtx) (w : DWord) (sh : Shape) : Prop :=
  let m := moveOf w.toNat
  wbOp w.toNat = 0x10 ∧ legalMove w.toNat = true ∧ (m.ssp = 0 ∨ m.dsp = 0) ∧
    x.spaceOk m.ssp = true ∧ x.spaceOk m.dsp = true ∧ rget x.h m.h = some sh ∧ shapeOk m sh = true ∧
    (m.rng = true → x.ringW ≠ 0) ∧ (m.ssp = 7 ∨ m.dsp = 7 → s.activeCell x.remote = true)

/-! ### The host mailbox and the links -/

/-- The mailbox holds message `opc` with a well formed header for `len` bytes of payload, and dispatcher firmware serves
it: an attached device, or ATTACH (R368 to R370). -/
abbrev State.Asked (s : State) (opc len : Nat) : Prop :=
  s.hif.mbBusy = true ∧ s.mbServed = true ∧ Mem.readNat 0 s.hif.mbReq 0 1 = opc ∧ Mem.readNat 0 s.hif.mbReq 1 1 = 0 ∧
    Mem.readNat 0 s.hif.mbReq 2 2 = len ∧ (opc = 1 ∨ s.hif.attached = true)

/-- Port `p` of the links (R386) is `k`. -/
def State.setPort (s : State) (p : BitVec 3) (k : LnkPort) : State :=
  { s with lnk := { s.lnk with ports := rset s.lnk.ports p k } }

end Sys2Proof.Machine
end

