-- ==== Sys2Proof/Certificates/Slice0/Obligations.lean ====
section
/-!
DEFINITION. What is claimed of the model: one proposition per obligation of OBLIGATIONS.json. A docstring names the
rules of the spec that its statement formalises or rests on.
-/

open Sys2Proof Sys2Proof.Machine

/-- A step runs the command at the front of the queue; an empty queue is a tick (95_what_each_step_holds.md). -/
def Obligations.StepTakesTheFrontCommand : Prop :=
  (∀ (s : State) (c : Instr) (rest : List Instr), step { s with pending := c :: rest } = exec c { s with pending := rest }) ∧
  ∀ s : State, s.pending = [] → step s = .next s.tick

/-- No command touches the queue: after a step that goes on, exactly the rest of it waits
(95_what_each_step_holds.md). -/
def Obligations.CommandsWaitInOrder : Prop :=
  ∀ (s t : State) (c : Instr) (rest : List Instr), s.pending = c :: rest → step s = .next t → t.pending = rest

/-- The rollback floor and MINKEY never decrease, whatever command a step runs (R505). -/
def Obligations.RollbackCountersNeverFall : Prop :=
  ∀ s t : State, step s = .next t → s.fw.floor.toNat ≤ t.fw.floor.toNat ∧ s.fw.minKey.toNat ≤ t.fw.minKey.toNat

/-- What the machine holds at reset: the Reset values of the registers, and nothing under way (R16, R308, R353, R361,
R416, R437, R465, R494, R518, R540, R541, R156). -/
def Obligations.ResetValues : Prop :=
  let s := State.reset
  s.pending = [] ∧ s.mem.hbm = [] ∧ s.dsp.tasks = [] ∧ s.col.ops = [] ∧ s.hif.fifo = [] ∧ s.hif.attached = false ∧
  (∀ p ∈ [(0x80008, 0x1801), (0x8000C, 0x1001), (0x81004, 0x4000101), (0x81008, 0), (0x81014, 0), (0x82014, 0x40),
      (0x82124, 0x7FFF7FFF), (0x83004, 0x507D0), (0x83008, 0), (0x83104, 0x7FFF7FFF), (0x83120, 0x7FFF), (0x83118, 0),
      (0x84000, 0x2000000), (0x8400C, 0), (0x84020, 0), (0x85014, 0), (0x85018, 0), (0x86004, 0), (0x860A0, 0x3E8),
      (0x860B0, 0), (0x60100, 0x331), (0x60104, 0x102801), (0x60200, 0xFFFF000), (0x60318, 0xFFFF), (0x60308, 0)],
    (s.readWin p.1).1 = BitVec.ofNat 32 p.2) ∧
  (∀ p ∈ [(0x0, 0x1000000), (0x8, 0xFFFFFFFF), (0xC, 0), (0x18, 0), (0x1C, 0)], (s.readHw p.1).1 = BitVec.ofNat 32 p.2)

/-- MOD_READY: when it is low, that a completed start raises it, what lowers it, and that a brake leaves it (R551,
R474, R476, R478, R468, R511, R529). -/
def Obligations.ModuleReady : Prop :=
  (∀ s : State, s.fw.run ≠ none ∨ s.pwr.main = false ∨ s.pwr.aux = false ∨ s.fw.depot = true → s.modReady = false) ∧
  (∀ (s : State) (r : StartRun) flash, s.fw.run = some r → r.step = 14 → r.bundle = none → s.fw.waiting = [] →
    s.hif.expired = false → s.rcv.deferred = [] → s.pwr.main = true → s.pwr.aux = true →
      ∃ t, exec (.startComplete flash) s = .next t ∧ t.modReady = true) ∧
  (∀ (s : State) (v : BitVec 32) (b : Bool), ∀ i ∈ [Instr.dbgBrake v, .jtagBrake b, .sidebandBrake], ∃ t, exec i s = .next t ∧
    t.modReady = s.modReady) ∧
  (∀ s : State, s.pwr.aux = true → ∃ t, exec .aux12vAbsent s = .next t ∧ t.modReady = false) ∧
  (∀ s : State, s.pwr.aux = true → s.pwr.main = true →
    (∀ die temp : _, die.toNat ≤ 8 → 105 ≤ temp.toNat → ∃ t, exec (.thermalTrip die temp) s = .next t ∧ t.modReady = false) ∧
    (∀ low : BitVec 16, low.toNat < 3800 → ∃ t, exec (.inputReset low) s = .next t ∧ t.modReady = false) ∧
    (∀ volt : BitVec 16, s.pwr.inrush ≠ .opened → 5900 < volt.toNat → ∃ t, exec (.overvoltage volt) s = .next t ∧ t.modReady = false))

/-- NOP, ALU, ADDI, ANDI, ORI, XORI, SLLI, SRLI, SRAI, LI and LIH complete with their results (R82, R88, R90, R91,
R93, R105, R111, R113). -/
def Obligations.ScalarArithmeticResults : Prop :=
  ∀ (s : State) (id : CellId) (g : BitVec 4) (o : BitVec 22), cellOk id = true → (s.cell id).Issues g → (s.cell id).Fits →
    let c := s.cell id
    let put (x : Word) : Host.Outcome State Fault Refusal := .next (s.setCell id ((c.writeS (fD o) x).next s.ns))
    let f : BitVec 7 := o.extractLsb' 0 7
    let sh : Nat := (o.extractLsb' 0 5 : BitVec 5).toNat
    let imm : BitVec 16 := o.extractLsb' 0 16
    (o = 0 → exec (.nop id g o) s = .next (s.setCell id (c.next s.ns))) ∧
    (f.toNat ≤ 0x12 → c.FreeS (bit5 (fA o) ||| bit5 (fB o)) (bit5 (fD o)) →
      exec (.alu id g o) s = put (aluFn f (c.sReg (fA o)) (c.sReg (fB o)))) ∧
    (0x13 ≤ f.toNat → f.toNat ≤ 0x15 → fB o = 0 → c.FreeS (bit5 (fA o)) (bit5 (fD o)) →
      exec (.alu id g o) s = put (aluFn f (c.sReg (fA o)) 0)) ∧
    (c.FreeS (bit5 (fA o)) (bit5 (fD o)) →
      exec (.addi id g o) s = put (c.sReg (fA o) + (fImm12 o).signExtend 32) ∧
      exec (.andi id g o) s = put (c.sReg (fA o) &&& (fImm12 o).setWidth 32) ∧
      exec (.ori id g o) s = put (c.sReg (fA o) ||| (fImm12 o).setWidth 32) ∧
      exec (.xori id g o) s = put (c.sReg (fA o) ^^^ (fImm12 o).setWidth 32) ∧
      ((o.extractLsb' 5 7 : BitVec 7) = 0 →
        exec (.slli id g o) s = put (c.sReg (fA o) <<< sh) ∧
        exec (.srli id g o) s = put (c.sReg (fA o) >>> sh) ∧
        exec (.srai id g o) s = put ((c.sReg (fA o)).sshiftRight sh))) ∧
    (o.getLsbD 16 = false → c.FreeS 0 (bit5 (fD o)) → exec (.li id g o) s = put (imm.signExtend 32)) ∧
    (o.getLsbD 16 = false → c.FreeS (bit5 (fD o)) (bit5 (fD o)) →
      exec (.lih id g o) s = put (imm ++ (c.sReg (fD o)).setWidth 16))

/-- The functions of ALU, CMP, CMPI and PLOG are those of the tables, with division and shifts at their corners (R91,
R92, R94, R95). -/
def Obligations.ScalarFunctionTable : Prop :=
  ∀ a b : Word,
    let n := b.toNat % 32
    (aluFn 0x00 a b).toNat = (a.toNat + b.toNat) % 2 ^ 32 ∧
    (aluFn 0x01 a b).toNat = (a.toNat + 2 ^ 32 - b.toNat) % 2 ^ 32 ∧
    (∀ i, (aluFn 0x02 a b).getLsbD i = (a.getLsbD i && b.getLsbD i)) ∧
    (∀ i, (aluFn 0x03 a b).getLsbD i = (a.getLsbD i || b.getLsbD i)) ∧
    (∀ i, (aluFn 0x04 a b).getLsbD i = (a.getLsbD i ^^ b.getLsbD i)) ∧
    (aluFn 0x05 a b).toNat = a.toNat * 2 ^ n % 2 ^ 32 ∧
    (aluFn 0x06 a b).toNat = a.toNat / 2 ^ n ∧
    (aluFn 0x07 a b).toInt = a.toInt / 2 ^ n ∧
    (aluFn 0x08 a b).toNat = a.toNat * b.toNat % 2 ^ 32 ∧
    (aluFn 0x09 a b).toInt = a.toInt * b.toInt / 2 ^ 32 ∧
    (aluFn 0x0A a b).toNat = a.toNat * b.toNat / 2 ^ 32 ∧
    (aluFn 0x0B a b).toNat = (if b = 0 then 2 ^ 32 - 1 else a.toNat / b.toNat) ∧
    (aluFn 0x0C a b).toNat = (if b = 0 then a.toNat else a.toNat % b.toNat) ∧
    (aluFn 0x0D a b).toInt =
      (if b = 0 then -1 else if a.toInt = -2 ^ 31 ∧ b.toInt = -1 then -2 ^ 31 else a.toInt.tdiv b.toInt) ∧
    (aluFn 0x0E a b).toInt = (if b = 0 then a.toInt else a.toInt.tmod b.toInt) ∧
    (aluFn 0x0F a b).toInt = min a.toInt b.toInt ∧
    (aluFn 0x10 a b).toInt = max a.toInt b.toInt ∧
    (aluFn 0x11 a b).toNat = min a.toNat b.toNat ∧
    (aluFn 0x12 a b).toNat = max a.toNat b.toNat ∧
    (let z := (aluFn 0x13 a 0).toNat; if a = 0 then z = 32 else z < 32 ∧ 2 ^ (31 - z) ≤ a.toNat ∧ a.toNat < 2 ^ (32 - z)) ∧
    (let z := (aluFn 0x14 a 0).toNat; if a = 0 then z = 32 else z < 32 ∧ a.toNat % 2 ^ z = 0 ∧ a.toNat / 2 ^ z % 2 = 1) ∧
    (aluFn 0x15 a 0).toNat = (List.range 32).countP (fun i => a.getLsbD i) ∧
    (condFn 0 a b = true ↔ a = b) ∧ (condFn 1 a b = true ↔ a ≠ b) ∧
    (condFn 2 a b = true ↔ a.toInt < b.toInt) ∧ (condFn 3 a b = true ↔ b.toInt ≤ a.toInt) ∧
    (condFn 4 a b = true ↔ a.toNat < b.toNat) ∧ (condFn 5 a b = true ↔ b.toNat ≤ a.toNat) ∧
    ∀ x y : Bool, [plogFn 0 x y, plogFn 1 x y, plogFn 2 x y, plogFn 3 x y, plogFn 4 x y, plogFn 5 x y] =
      [x && y, x || y, x != y, x && !y, x || !y, !x]

/-- Division by zero and of the most negative number by -1: the results, and no exception (R92). -/
def Obligations.DivisionCorners : Prop :=
  ∀ (s : State) (id : CellId) (g : BitVec 4) (o : BitVec 22), cellOk id = true → (s.cell id).Issues g → (s.cell id).Fits →
    let c := s.cell id
    let f : BitVec 7 := o.extractLsb' 0 7
    let a := c.sReg (fA o)
    let b := c.sReg (fB o)
    let gives (x : Word) : Prop := exec (.alu id g o) s = .next (s.setCell id ((c.writeS (fD o) x).next s.ns))
    c.FreeS (bit5 (fA o) ||| bit5 (fB o)) (bit5 (fD o)) →
    (b = 0 → (f = 0x0B ∨ f = 0x0D → gives 0xFFFFFFFF) ∧ (f = 0x0C ∨ f = 0x0E → gives a)) ∧
    (a = 0x80000000 → b = 0xFFFFFFFF → (f = 0x0D → gives 0x80000000) ∧ (f = 0x0E → gives 0))

/-- The address forms of R96, and LB, LBU, LH, LHU, LW, LDA and TLD complete with the loaded value (R13, R85, R86,
R96, R97, R98, R100). -/
def Obligations.LoadResults : Prop :=
  (
    ∀ (c : CellState) (o : BitVec 22) (size : Nat),
      let b := rget c.core.a (fBase o)
      let inc : BitVec 40 := BitVec.ofInt 40 (size * (fImm11 o).toInt)
      (fMode o = 0 → memAddr c o size = (b.addr + inc, b.addr)) ∧
      (fMode o = 1 → memAddr c o size = (b.addr, b.addr + b.stride.signExtend 40)) ∧
      (fMode o = 2 → memAddr c o size = (b.addr, b.addr + inc))
  ) ∧
  (
    ∀ (s : State) (id : CellId) (g : BitVec 4) (o : BitVec 22), cellOk id = true → (s.cell id).Issues g → (s.cell id).Fits →
      fMode o ≠ 3 →
      let c := s.cell id
      let at' (n : Nat) : BitVec 40 := (memAddr c o n).1
      let num (n : Nat) : Nat := c.numAt (at' n).toNat n
      let base (n : Nat) : CellState := c.writeA (fBase o) (memAddr c o n).2
      let put (n : Nat) (x : Word) : Host.Outcome State Fault Refusal :=
        .next (s.setCell id (((base n).writeS (fD o) x).next s.ns))
      (c.FreeS 0 (bit5 (fD o)) →
        (c.MayLoad (at' 1) 1 →
          exec (.lb id g o) s = put 1 ((BitVec.ofNat 8 (num 1)).signExtend 32) ∧
          exec (.lbu id g o) s = put 1 (BitVec.ofNat 32 (num 1))) ∧
        (c.MayLoad (at' 2) 2 →
          exec (.lh id g o) s = put 2 ((BitVec.ofNat 16 (num 2)).signExtend 32) ∧
          exec (.lhu id g o) s = put 2 (BitVec.ofNat 32 (num 2))) ∧
        (c.MayLoad (at' 4) 4 → exec (.lw id g o) s = put 4 (BitVec.ofNat 32 (num 4)))) ∧
      (o.getLsbD 17 = false →
        (c.MayLoad (at' 8) 8 →
          exec (.lda id g o) s = .next (s.setCell id (((base 8).writeA (fAD o) (BitVec.ofNat 40 (num 8))).next s.ns))) ∧
        (c.MayLoad (at' 16) 16 →
          exec (.tld id g o) s = .next (s.setCell id (((base 16).setT (fAD o) (BitVec.ofNat 128 (num 16))).next s.ns))))
  )

/-- SB, SH, SW, STA and TST complete: the stored bytes, every other byte, the base and the poison of whole lanes (R13,
R84, R85, R86, R96, R97, R100, R190). -/
def Obligations.StoreResults : Prop :=
  ∀ (s : State) (id : CellId) (g : BitVec 4) (o : BitVec 22), cellOk id = true → (s.cell id).Issues g → (s.cell id).Fits →
    fMode o ≠ 3 →
    let c := s.cell id
    let at' (n : Nat) : BitVec 40 := (memAddr c o n).1
    let base (n : Nat) : CellState := c.writeA (fBase o) (memAddr c o n).2
    let stores (i : Instr) (n v : Nat) : Prop :=
      (c.InDmem (at' n) n → ∃ d : DmemState,
        exec i s = .next (s.setCell id ({ base n with dmem := d }.next s.ns)) ∧
          Stored c.dmem.mem d.mem (at' n).toNat n v) ∧
      ((at' n).toNat % n = 0 → 0x1000000 ≤ (at' n).toNat → (at' n).toNat < 0x1300000 →
        ∃ m : StoreState, exec i s = .next (s.setCell id ({ base n with store := m }.next s.ns)) ∧
          Stored c.store.mem m.mem ((at' n).toNat - 0x1000000) n v ∧
          ∀ l, l ∈ m.poison ↔ l ∈ c.store.poison ∧ ¬ ((at' n).toNat - 0x1000000 ≤ 8 * l ∧ 8 * l + 8 ≤ (at' n).toNat - 0x1000000 + n))
    (c.FreeS (bit5 (fD o)) 0 →
      stores (.sb id g o) 1 (c.sReg (fD o)).toNat ∧ stores (.sh id g o) 2 (c.sReg (fD o)).toNat ∧
        stores (.sw id g o) 4 (c.sReg (fD o)).toNat) ∧
    (o.getLsbD 17 = false →
      stores (.sta id g o) 8 (c.aReg (fAD o)).addr.toNat ∧ stores (.tst id g o) 16 (c.tReg (fAD o)).toNat)

/-- LDA and STA: bits 39:0, bits 63:40 ignored and written 0, strides kept, the loaded value over the increment (R97).
-/
def Obligations.AddressLoadsAndStores : Prop :=
  ∀ (s : State) (id : CellId) (g : BitVec 4) (o : BitVec 22), cellOk id = true → (s.cell id).Issues g → (s.cell id).Fits →
    fMode o ≠ 3 → o.getLsbD 17 = false →
    let c := s.cell id
    let m := memAddr c o 8
    let strides (t : State) : Prop := ∀ r, ((t.cell id).aReg r).stride = (c.aReg r).stride
    (c.MayLoad m.1 8 → ∃ t, exec (.lda id g o) s = .next t ∧ strides t ∧
      ((t.cell id).aReg (fAD o)).addr = BitVec.ofNat 40 (c.numAt m.1.toNat 8) ∧
      (fAD o ≠ fBase o → ((t.cell id).aReg (fBase o)).addr = m.2)) ∧
    (c.InDmem m.1 8 ∨ (m.1.toNat % 8 = 0 ∧ 0x1000000 ≤ m.1.toNat ∧ m.1.toNat < 0x1300000) →
      ∃ t, exec (.sta id g o) s = .next t ∧ strides t ∧
        (∀ i < 8, (t.cell id).byteAt (m.1.toNat + i) = BitVec.ofNat 8 ((c.aReg (fAD o)).addr.toNat / 256 ^ i)) ∧
        ((t.cell id).aReg (fBase o)).addr = m.2)

/-- CMP, CMPI, PLOG, PFROMS, PTOS and SEL complete with their results (R82, R90, R94, R95, R105). -/
def Obligations.PredicateResults : Prop :=
  ∀ (s : State) (id : CellId) (g : BitVec 4) (o : BitVec 22), cellOk id = true → (s.cell id).Issues g → (s.cell id).Fits →
    let c := s.cell id
    let putP (b : Bool) : Host.Outcome State Fault Refusal := .next (s.setCell id ((c.writeP (fPD o) b).next s.ns))
    let putS (x : Word) : Host.Outcome State Fault Refusal := .next (s.setCell id ((c.writeS (fD o) x).next s.ns))
    let pa : BitVec 3 := o.extractLsb' 16 3
    let pb : BitVec 3 := o.extractLsb' 13 3
    ((o.extractLsb' 0 6 : BitVec 6) = 0 → (o.extractLsb' 6 3 : BitVec 3).toNat ≤ 5 →
      c.FreeS (bit5 (fA18 o) ||| bit5 (fB13 o)) 0 → c.FreeP 0 (bit3 (fPD o)) →
      exec (.cmp id g o) s = putP (condFn (o.extractLsb' 6 3) (c.sReg (fA18 o)) (c.sReg (fB13 o)))) ∧
    ((o.extractLsb' 11 3 : BitVec 3).toNat ≤ 5 → c.FreeS (bit5 (fA18 o)) 0 → c.FreeP 0 (bit3 (fPD o)) →
      exec (.cmpi id g o) s = putP (condFn (o.extractLsb' 11 3) (c.sReg (fA18 o)) ((fImm11 o).signExtend 32))) ∧
    ((o.extractLsb' 0 10 : BitVec 10) = 0 → (fField o).toNat ≤ 4 → c.FreeP (bit3 pa ||| bit3 pb) (bit3 (fPD o)) →
      exec (.plog id g o) s = putP (plogFn (fField o) (c.pReg pa) (c.pReg pb))) ∧
    ((o.extractLsb' 0 10 : BitVec 10) = 0 → fField o = 5 → pb = 0 → c.FreeP (bit3 pa) (bit3 (fPD o)) →
      exec (.plog id g o) s = putP (!c.pReg pa)) ∧
    ((o.extractLsb' 0 14 : BitVec 14) = 0 → c.FreeS (bit5 (fA18 o)) 0 → c.FreeP 0 (bit3 (fPD o)) →
      exec (.pfroms id g o) s = putP (decide (c.sReg (fA18 o) ≠ 0))) ∧
    ((o.extractLsb' 0 14 : BitVec 14) = 0 → c.FreeS 0 (bit5 (fD o)) → c.FreeP (bit3 (o.extractLsb' 14 3)) 0 →
      exec (.ptos id g o) s = putS (if c.pReg (o.extractLsb' 14 3) then 1 else 0)) ∧
    ((o.extractLsb' 0 4 : BitVec 4) = 0 → c.FreeS (bit5 (fA o) ||| bit5 (fB o)) (bit5 (fD o)) →
      c.FreeP (bit3 (o.extractLsb' 4 3)) 0 →
      exec (.sel id g o) s = putS (if c.pReg (o.extractLsb' 4 3) then c.sReg (fA o) else c.sReg (fB o)))

/-- p0 always reads 1, and an instruction that names it as destination writes no predicate (R82). -/
def Obligations.PredicateZero : Prop :=
  (∀ c : CellState, c.pReg 0 = true) ∧
  ∀ (s : State) (id : CellId) (g : BitVec 4) (o : BitVec 22), cellOk id = true → (s.cell id).Issues g → (s.cell id).Fits →
    let c := s.cell id
    let keeps (i : Instr) : Prop := ∃ t, exec i s = .next t ∧ ∀ r, (t.cell id).pReg r = c.pReg r
    fPD o = 0 → c.core.pClaim &&& 1 = 0 →
    (c.FreeS (bit5 (fA18 o) ||| bit5 (fB13 o)) 0 → (o.extractLsb' 0 6 : BitVec 6) = 0 → (o.extractLsb' 6 3 : BitVec 3).toNat ≤ 5 →
      keeps (.cmp id g o)) ∧
    (c.FreeS (bit5 (fA18 o)) 0 → (o.extractLsb' 11 3 : BitVec 3).toNat ≤ 5 → keeps (.cmpi id g o)) ∧
    (c.FreeS (bit5 (fA18 o)) 0 → (o.extractLsb' 0 14 : BitVec 14) = 0 → keeps (.pfroms id g o)) ∧
    (c.FreeP (bit3 (o.extractLsb' 16 3) ||| bit3 (o.extractLsb' 13 3)) 0 → (o.extractLsb' 0 10 : BitVec 10) = 0 →
      (fField o).toNat ≤ 4 → keeps (.plog id g o))

/-- AADD, AADDI, AFROM, ATO, ASTR, ASTRI, AMOV, TOFS, TADV, TGET and TSET complete with their results (R99, R90, R100,
R101). -/
def Obligations.AddressRegisterResults : Prop :=
  ∀ (s : State) (id : CellId) (g : BitVec 4) (o : BitVec 22), cellOk id = true → (s.cell id).Issues g → (s.cell id).Fits →
    let c := s.cell id
    let done (c' : CellState) : Host.Outcome State Fault Refusal := .next (s.setCell id (c'.next s.ns))
    let b17 : BitVec 32 := c.sReg (fB17 o)
    let ad := c.aReg (fAD o)
    let src := c.aReg (fAS o)
    let t := c.tReg (fAD o)
    ((o.extractLsb' 0 9 : BitVec 9) = 0 → c.FreeS (bit5 (fB13 o)) 0 →
      exec (.aadd id g o) s = done (c.writeA (fAD o) (src.addr + (c.sReg (fB13 o)).signExtend 40))) ∧
    exec (.aaddi id g o) s = done (c.writeA (fAD o) (src.addr + (fLen o).signExtend 40)) ∧
    ((o.extractLsb' 0 8 : BitVec 8) = 0 → c.FreeS (bit5 (fB17 o) ||| bit5 (fHi o)) 0 →
      exec (.afrom id g o) s = done (c.writeA (fAD o) (BitVec.ofNat 40 ((c.sReg (fHi o)).toNat % 256 * 2 ^ 32 + b17.toNat)))) ∧
    ((o.extractLsb' 0 12 : BitVec 12) = 0 → c.FreeS 0 (bit5 (fD o)) →
      exec (.ato id g o) s = done (c.writeS (fD o) (BitVec.ofNat 32
        (if o.getLsbD 12 then (c.aReg (fBase o)).addr.toNat / 2 ^ 32 else (c.aReg (fBase o)).addr.toNat)))) ∧
    ((o.extractLsb' 0 13 : BitVec 13) = 0 → c.FreeS (bit5 (fB17 o)) 0 →
      exec (.astr id g o) s = done (c.setA (fAD o) ⟨ad.addr, b17⟩)) ∧
    exec (.astri id g o) s = done (c.setA (fAD o) ⟨ad.addr, (o.extractLsb' 0 18 : BitVec 18).signExtend 32⟩) ∧
    ((o.extractLsb' 0 14 : BitVec 14) = 0 → exec (.amov id g o) s = done (c.setA (fAD o) src)) ∧
    ((o.extractLsb' 0 14 : BitVec 14) = 0 → exec (.tofs id g o) s = done (c.setT (fAD o) (dSetOffset t src.addr))) ∧
    ((o.extractLsb' 0 13 : BitVec 13) = 0 → c.FreeS (bit5 (fB17 o)) 0 →
      exec (.tadv id g o) s = done (c.setT (fAD o) (dSetOffset t (dOffset t + b17.signExtend 40)))) ∧
    ((o.extractLsb' 0 10 : BitVec 10) = 0 → fField o ≠ 7 → c.FreeS 0 (bit5 (fD o)) →
      exec (.tget id g o) s = done (c.writeS (fD o) (dGet (c.tReg (fBase o)) (fField o)))) ∧
    ((o.extractLsb' 0 10 : BitVec 10) = 0 → fField o ≠ 7 → c.FreeS (bit5 (fB17 o)) 0 →
      exec (.tset id g o) s = done (c.setT (fAD o) (dSet t (fField o) b17)))

/-- LCSET, LCI, LOOP, LSET, LBRK, LGET, BR, CALL, JR, BZ and BNZ complete with the loop stack and the PC (R102, R103,
R104, R105, R106, R107, R108). -/
def Obligations.LoopAndBranchResults : Prop :=
  (
    ∀ (s : State) (id : CellId) (g : BitVec 4) (o : BitVec 22), cellOk id = true → (s.cell id).Issues g →
      let c := s.cell id
      let pc := c.core.pc.toNat
      let n := c.lcReg (fTop2 o)
      let len := (fLen o).toNat
      let lvl := (fTop2 o).toNat
      let done (c' : CellState) : Host.Outcome State Fault Refusal := .next (s.setCell id (c'.next s.ns))
      let skip := endCheck pc (pc + 4 * (len + 1)) c.core.loops
      let hidden (l : List LoopEntry) (x : Word) : Prop :=
        ∀ k : Nat, l[k]? = if k = lvl then (c.core.loops[k]?).map (fun e => { e with hc := x }) else c.core.loops[k]?
      ((o.extractLsb' 0 15 : BitVec 15) = 0 → c.FreeS (bit5 (fB19 o)) 0 → c.Fits →
        exec (.lcset id g o) s = done (c.setLc (fTop2 o) (c.sReg (fB19 o)))) ∧
      (c.Fits → exec (.lci id g o) s = done (c.setLc (fTop2 o) ((o.extractLsb' 0 20 : BitVec 20).setWidth 32))) ∧
      ((o.extractLsb' 14 6 : BitVec 6) = 0 → len ≠ 0 →
        (n = 0 → pc + 4 * (len + 1) ≤ 0xFFFC → skip.2 ≤ 0xFFFC →
          exec (.loop id g o) s = .next (s.setCell id (c.goOn skip.2 skip.1 s.ns))) ∧
        (n ≠ 0 → c.core.loops.length < 4 → pc + 4 * len ≤ 0xFFFC → (∀ e ∈ c.core.loops, e.start ≤ pc → pc ≤ e.stop → pc + 4 * len ≤ e.stop) →
          exec (.loop id g o) s =
            .next (s.setCell id (c.goOn (pc + 4) (⟨pc + 4, pc + 4 * len, n - 1⟩ :: c.core.loops) s.ns)))) ∧
      (lvl < c.core.loops.length →
        ((o.extractLsb' 0 15 : BitVec 15) = 0 → c.FreeS (bit5 (fB19 o)) 0 → ∃ l, hidden l (c.sReg (fB19 o)) ∧
          ((c.setLoops l).Fits → exec (.lset id g o) s = done (c.setLoops l))) ∧
        ((o.extractLsb' 0 20 : BitVec 20) = 0 → ∃ l, hidden l 0 ∧
          ((c.setLoops l).Fits → exec (.lbrk id g o) s = done (c.setLoops l)))) ∧
      (∀ e, c.core.loops[(o.extractLsb' 15 2 : BitVec 2).toNat]? = some e → (o.extractLsb' 0 15 : BitVec 15) = 0 →
        c.FreeS 0 (bit5 (fD o)) → c.Fits → exec (.lget id g o) s = done (c.writeS (fD o) e.hc))
  ) ∧
  (
    ∀ (s : State) (id : CellId) (g : BitVec 4) (o : BitVec 22), cellOk id = true → (s.cell id).Issues g →
      let c := s.cell id
      let pc := c.core.pc.toNat
      let jump (c' : CellState) (dest : Nat) : Host.Outcome State Fault Refusal :=
        .next (s.setCell id (c'.goOn dest (leaveLoops pc dest c.core.loops) s.ns))
      let d := c.sReg (fD o)
      let off17 : Int := (o.extractLsb' 0 17 : BitVec 17).toInt
      (∀ dest : Nat, (dest : Int) = pc + 4 * o.toInt → dest ≤ 0xFFFC → exec (.br id g o) s = jump c dest ∧
        (c.FreeS 0 (bit5 31) →
          exec (.call id g o) s = .next (s.setCell id ((c.writeS 31 (BitVec.ofNat 32 (pc + 4))).goOn dest c.core.loops s.ns)))) ∧
      ((o.extractLsb' 0 17 : BitVec 17) = 0 → c.FreeS (bit5 (fD o)) 0 → d.toNat ≤ 0xFFFC → d.toNat % 4 = 0 →
        exec (.jr id g o) s = jump c d.toNat) ∧
      (c.FreeS (bit5 (fD o)) 0 →
        (∀ dest : Nat, (dest : Int) = pc + 4 * off17 → dest ≤ 0xFFFC →
          (d = 0 → exec (.bz id g o) s = jump c dest) ∧ (d ≠ 0 → exec (.bnz id g o) s = jump c dest)) ∧
        (c.Fits → (d ≠ 0 → exec (.bz id g o) s = .next (s.setCell id (c.next s.ns))) ∧
          (d = 0 → exec (.bnz id g o) s = .next (s.setCell id (c.next s.ns)))))
  )

/-- PUSH completes: every repeat appends its command, patched, with its descriptors, SEQ and claim (R60, R109, R110,
R111, R112, R221). -/
def Obligations.PushResults : Prop :=
  ∀ (s : State) (id : CellId) (g : BitVec 4) (o : BitVec 22), cellOk id = true → (s.cell id).Issues g → (s.cell id).Fits →
    (o.extractLsb' 0 6 : BitVec 6) = 0 → (o.getLsbD 16 = true ∨ (o.extractLsb' 10 6 : BitVec 6) = 0) →
    (s.cell id).FreeS (0xF#32 <<< (4 * (o.extractLsb' 17 3 : BitVec 3).toNat)) 0 → (s.cell id).core.pushed = 0 →
    let c := s.cell id
    let q := fTop2 o
    let n := (o.extractLsb' 6 4 : BitVec 4).toNat + 1
    let r (i : BitVec 2) : Word := c.sReg ((o.extractLsb' 17 3 : BitVec 3) ++ i)
    let a := c.aReg (o.extractLsb' 10 4)
    let cmd : QWord := r 3 ++ r 2 ++ r 1 ++ r 0
    let word : QWord := if o.getLsbD 16 then setWord cmd (o.extractLsb' 14 2) (a.addr.setWidth 32) else cmd
    let d := descRegs q word
    let slot : QCmd := ⟨word, c.tReg d.1, c.tReg (d.1 + 1), c.tReg d.2.1, c.tReg (d.2.1 + 1), c.tReg d.2.2,
      c.tReg (d.2.2 + 1), c.regs.cmdSeq + 1, false, Past.none⟩
    let one : CellState :=
      let c1 := (c.setQueue q { c.queue q with q := (c.queue q).q ++ [slot] }).claim (claimOf q word)
      let c2 : CellState := { c1 with regs := { c1.regs with cmdSeq := c.regs.cmdSeq + 1 } }
      if o.getLsbD 16 then c2.writeA (o.extractLsb' 10 4) (a.addr + a.stride.signExtend 40) else c2
    (c.queue q).q.length + n ≤ queueDepth q →
      (q ≠ 1 → exec (.push id g o) s = .next (s.setCell id ((iter (fun c => pushOne c o) n c).next s.ns))) ∧
      (n = 1 → c.claimed (claimOf q word) = false → exec (.push id g o) s = .next (s.setCell id (one.next s.ns)))

/-- SIG, WAITS, WAITSR and SEMRD complete, and a wait that does not hold records itself and its word; a grant lowers the
count, needs it, and no waiter is granted twice before a competing one (R63, R64, R65, R114, R537; log entry 134). -/
def Obligations.SemaphoreResults : Prop :=
  ∀ (s : State) (id : CellId) (g : BitVec 4) (o : BitVec 22), cellOk id = true → (s.cell id).Issues g → (s.cell id).Fits →
    let c := s.cell id
    let done (c' : CellState) : Host.Outcome State Fault Refusal := .next (s.setCell id (c'.next s.ns))
    let have' := (c.sem (fD o)).toNat
    let inc := (o.extractLsb' 9 8 : BitVec 8).toNat + 1
    let takes (i : Instr) (w : Word) (n : BitVec 16) : Prop :=
      (c.mayTake (fD o) 0 n.toNat = true → exec i s = done (c.take (fD o) 0 n.toNat)) ∧
      (c.mayTake (fD o) 0 n.toNat = false → exec i s =
        .next (s.setCell id ({ c with core := { c.core with need := n } }.waitsOn w 2 ((fD o).setWidth 8) s.ns)))
    ((o.extractLsb' 0 9 : BitVec 9) = 0 → have' + inc ≤ 0xFFFF →
      exec (.sig id g o) s = done (c.setSem (fD o) (BitVec.ofNat 16 (have' + inc)))) ∧
    (o.getLsbD 16 = false → takes (.waits id g o) (opWaits.word g o) (o.extractLsb' 0 16)) ∧
    ((o.extractLsb' 0 12 : BitVec 12) = 0 → c.FreeS (bit5 (fA o)) 0 →
      takes (.waitsr id g o) (opWaitsr.word g o) ((c.sReg (fA o)).setWidth 16)) ∧
    (∀ (i : BitVec 5) (w n : Nat), n ≤ 0xFFFF →
      ((c.sem i).toNat < n → c.mayTake i w n = false) ∧
      (n ≤ (c.sem i).toNat → (c.rivals i w = [] → c.mayTake i w n = true) ∧
        ∀ r, (((c.take i w n).sem r).toNat = if r = i then (c.sem i).toNat - n else (c.sem r).toNat)) ∧
      (∀ x ∈ c.rivals i w, 0 < n → c.scarce i w n = true →
        x ∈ (c.take i w n).rivals i w → (c.take i w n).scarce i w n = true → (c.take i w n).mayTake i w n = false)) ∧
    ((o.extractLsb' 0 12 : BitVec 12) = 0 → c.FreeS 0 (bit5 (fD o)) →
      exec (.semrd id g o) s = done (c.writeS (fD o) ((c.sem (fA o)).setWidth 32)))

/-- MFS, RDLT, SWB, HALT and ENQ complete: special values, line time, the bank switch, the halt, the handed-over entry
(R70, R71, R115, R116, R118, R119, R120). -/
def Obligations.SpecialInstructionResults : Prop :=
  ∀ (s : State) (id : CellId) (g : BitVec 4) (o : BitVec 22), cellOk id = true → (s.cell id).Issues g →
    let c := s.cell id
    let done (c' : CellState) : Host.Outcome State Fault Refusal := .next (s.setCell id (c'.next s.ns))
    let idle (c' : CellState) : CellState :=
      { c' with core := { c'.core with wait := ⟨0, 0, 0⟩, held := none }, ctr := { c'.ctr with moved := s.ns } }
    let lt := s.cellLt id
    let ae := (c.aReg (o.extractLsb' 10 4)).addr.toNat
    ((o.extractLsb' 8 9 : BitVec 9) = 0 → c.FreeS 0 (bit5 (fD o)) → c.Fits →
      ∀ p ∈ [(0, id.toNat), (1, c.task.id.toNat), (2, c.task.member), (3, c.task.size), (4, c.task.phase.toNat),
          (5, c.banks.active.toNat),
          (6, c.qms.q.length * 2 ^ 24 + c.qlk.q.length * 2 ^ 16 + c.qvx.q.length * 2 ^ 8 + c.qmx.q.length)],
        (o.extractLsb' 0 8 : BitVec 8).toNat = p.1 → exec (.mfs id g o) s = done (c.writeS (fD o) (BitVec.ofNat 32 p.2))) ∧
    ((o.extractLsb' 0 17 : BitVec 17) = 0 → o.getLsbD 17 = false → c.FreeS 0 (bit5 (fD o) ||| bit5 (fD o + 1)) → c.Fits →
      exec (.rdlt id g o) s =
        done ((c.writeS (fD o) (lt.setWidth 32)).writeS (fD o + 1) (lt.extractLsb' 32 32))) ∧
    (o = 0 → c.banks.validInactive = true → c.banks.loadingInactive = false →
      exec (.swb id g o) s = .next (s.setCell id
        (idle { c with banks := { c.banks with active := !c.banks.active }.release s.ns
                       core := { c.core with loops := [], pc := 0 } }))) ∧
    (o = 0 → exec (.halt id g o) s = .next (s.setCell id (idle { c with st := .halted, banks := c.banks.release s.ns }))) ∧
    ((o.extractLsb' 0 10 : BitVec 10) = 0 → c.FreeS 0 (bit5 (fA18 o)) → c.FreeP 0 (bit3 (fPD o)) →
      c.InDmem (c.aReg (o.extractLsb' 10 4)).addr 64 → exec (.enq id g o) s = .next (s.setCell id
        ({ c with core := { c.core with enq := some ⟨s.ns, c.dmem.mem.read 0 ae 64, fPD o, fA18 o, none⟩ } }.waitsOn (opEnq.word g o) 4 0 s.ns)))

/-- An instruction whose guard is false only moves on, whatever it is; a guarded-off LOOP skips its body; an instruction
the core waits in is taken up again and no other one executes before it (R88, R104, R105, R109, R121). -/
def Obligations.GuardedOffInstructions : Prop :=
  ∀ (s : State) (id : CellId) (g : BitVec 4) (o : BitVec 22), cellOk id = true →
    let c := s.cell id
    let gp : BitVec 3 := g.setWidth 3
    let skip := endCheck c.core.pc.toNat (c.core.pc.toNat + 4 * ((fLen o).toNat + 1)) c.core.loops
    c.st = .running → c.core.enq = none →
    (∀ w, c.core.held = some w → ∀ p ∈ coreRows id g o,
      exec p.1 s = if w = p.2.word g o then exec p.1 (s.takeUp id) else .next s) ∧
    (c.core.held = none → c.fetchUe = false → c.fetchIllegal = false → c.core.pClaim &&& bit3 gp = 0 →
    c.core.pMark &&& bit3 gp = 0 → c.pReg gp = g.getLsbD 3 →
      (c.Fits → ∀ p ∈ coreRows id g o, p.2.op ≠ 0x2A → p.2.legal o = true →
        exec p.1 s = .next (s.setCell id (c.next s.ns))) ∧
      ((o.extractLsb' 14 6 : BitVec 6) = 0 → fLen o ≠ 0 → c.core.pc.toNat + 4 * ((fLen o).toNat + 1) ≤ 0xFFFC →
        skip.2 ≤ 0xFFFC → exec (.loop id g o) s = .next (s.setCell id (c.goOn skip.2 skip.1 s.ns))))

/-- Cell core exceptions: the cause of each named instruction, the event, and the faulted cell (R75, R80, R84, R85,
R86, R88, R89, R98, R102, R106, R108, R113, R122, R191, R192). -/
def Obligations.CoreExceptionsFaultTheCell : Prop :=
  ∀ (s : State) (id : CellId) (g : BitVec 4) (o : BitVec 22), cellOk id = true →
    (s.cell id).st = .running → (s.cell id).core.enq = none → (s.cell id).core.held = none →
    s.col.ops = [] → s.col.waiting = [] → s.col.coming = [] → s.pwr.aux = true → s.hif.evBase = 0 →
    let c := s.cell id
    let faults (i : Instr) (code : Nat) : Prop := ∃ t : State, exec i s = .next t ∧
      t.cell id = { c.abandon with st := .faulted, fault := 1, report := true, exc := BitVec.ofNat 8 code } ∧
      (∀ j, j ≠ id → t.cell j = s.cell j) ∧
      t = { s with cells := t.cells, events := t.events, dbg := t.dbg } ∧
      t.dbg = { s.dbg with evtErr := satInc s.dbg.evtErr } ∧
      t.events = ⟨0x0104, .error, if s.ltRuns then s.ns else 0,
        leBytes 2 id.toNat ++ leBytes 1 code ++ leBytes 1 c.banks.active.toNat ++ leBytes 2 c.core.pc.toNat⟩ :: s.events
    let a := (memAddr c o 4).1.toNat
    (c.fetchUe = false → ∀ p ∈ coreRows id g o, c.fetchIllegal = true ∨ p.2.legal o = false → faults p.1 0x01) ∧
    (c.Issues g → (0x16 ≤ (o.extractLsb' 0 7 : BitVec 7).toNat → faults (.alu id g o) 0x01) ∧
    (c.core.sClaim &&& (bit5 (fA o) ||| bit5 (fD o)) = 0 → c.core.sMark &&& bit5 (fA o) ≠ 0 →
      (c.regs.poisonSeen = true → faults (.addi id g o) 0x09) ∧
      (c.regs.poisonSeen = false → ∃ (t : State) (n : Nat), exec (.addi id g o) s = .next t ∧
        t.cell id = { c.abandon with st := .faulted, fault := 1, report := true, exc := 9
                                     regs := { c.regs with poisonSeen := true } } ∧
        (∀ j, j ≠ id → t.cell j = s.cell j) ∧
        t = { s with cells := t.cells, events := t.events, dbg := t.dbg, free := s.free + 1 } ∧
        t.dbg = { s.dbg with evtErr := satInc s.dbg.evtErr, evtWarn := satInc s.dbg.evtWarn } ∧
        t.events =
          ⟨0x0104, .error, if s.ltRuns then s.ns else 0,
            leBytes 2 id.toNat ++ leBytes 1 9 ++ leBytes 1 c.banks.active.toNat ++ leBytes 2 c.core.pc.toNat⟩ ::
          ⟨0x0302, .warning, if s.ltRuns then s.ns else 0,
            leBytes 2 id.toNat ++ leBytes 1 2 ++ leBytes 4 n ++ leBytes 4 c.task.id.toNat⟩ :: s.events)) ∧
    ((o.extractLsb' 14 6 : BitVec 6) = 0 → fLen o ≠ 0 → c.lcReg (fTop2 o) ≠ 0 → 4 ≤ c.core.loops.length →
      faults (.loop id g o) 0x06) ∧
    ((o.extractLsb' 0 20 : BitVec 20) = 0 → c.core.loops.length ≤ (fTop2 o).toNat → faults (.lbrk id g o) 0x08) ∧
    ((o.extractLsb' 0 17 : BitVec 17) = 0 → c.FreeS (bit5 (fD o)) 0 →
      (0xFFFC < (c.sReg (fD o)).toNat ∨ (c.sReg (fD o)).toNat % 4 ≠ 0) → faults (.jr id g o) 0x02) ∧
    (fMode o ≠ 3 → c.FreeS 0 (bit5 (fD o)) →
      ((0x10000 ≤ a ∧ a < 0x1000000) ∨ 0x1400000 ≤ a → faults (.lw id g o) 0x03) ∧
      (0x1300000 ≤ a → a < 0x1400000 → faults (.lw id g o) 0x04) ∧
      (a < 0x10000 ∨ (0x1000000 ≤ a ∧ a < 0x1300000) → a % 4 ≠ 0 → faults (.lw id g o) 0x05)))

/-- What the cell core instructions leave unchanged, by shape: registers, marks, memory bytes, other cells, the
machine (R82, R84, R88, R90, R96, R97, R99, R100, R101, R105, R107, R114). -/
def Obligations.CoreFrames : Prop :=
  ∀ (s t : State) (id : CellId) (g : BitVec 4) (o : BitVec 22),
    let c := s.cell id
    let keeps (i : Instr) (d : CoreDest) : Prop := exec i s = .next t → (t.cell id).st = .running →
      (∀ j, j ≠ id → t.cell j = s.cell j) ∧ t = { s with cells := t.cells } ∧ c.KeepsBut (t.cell id) d
    let plain (i : Instr) (d : CoreDest) : Prop := keeps i d ∧ (exec i s = .next t → (t.cell id).st = .running →
      (t.cell id).dmem = c.dmem ∧ (t.cell id).store = c.store ∧
      ((t.cell id).core.loops = c.core.loops ∨ (t.cell id).core.loops = (endCheck c.core.pc.toNat 0 c.core.loops).1))
    let stored (n : Nat) : Nat → Prop := fun x => (memAddr c o n).1.toNat ≤ x ∧ x < (memAddr c o n).1.toNat + n
    (∀ i ∈ [Instr.alu id g o, .addi id g o, .andi id g o, .ori id g o, .xori id g o, .slli id g o, .srli id g o, .srai id g o,
        .li id g o, .lih id g o, .sel id g o, .ptos id g o, .ato id g o, .tget id g o, .lget id g o, .semrd id g o, .mfs id g o],
      plain i { s := [fD o] }) ∧
    plain (.rdlt id g o) { s := [fD o, fD o + 1] } ∧
    (∀ i ∈ [Instr.cmp id g o, .cmpi id g o, .plog id g o, .pfroms id g o], plain i { p := [fPD o] }) ∧
    (∀ i ∈ [Instr.aadd id g o, .aaddi id g o, .afrom id g o, .astr id g o, .astri id g o, .amov id g o],
      plain i { a := [fAD o] }) ∧
    (∀ i ∈ [Instr.tofs id g o, .tadv id g o, .tset id g o], plain i { t := [fAD o] }) ∧
    (∀ i ∈ [Instr.lcset id g o, .lci id g o], plain i { lc := [fTop2 o] }) ∧
    plain (.nop id g o) {} ∧ plain (.sig id g o) { sem := [fD o] } ∧
    (∀ i ∈ [Instr.loop id g o, .lset id g o, .lbrk id g o, .br id g o, .jr id g o, .bz id g o, .bnz id g o], keeps i {}) ∧
    keeps (.call id g o) { s := [31] } ∧
    (∀ i ∈ [Instr.lb id g o, .lbu id g o, .lh id g o, .lhu id g o, .lw id g o], plain i { s := [fD o], a := [fBase o] }) ∧
    plain (.lda id g o) { a := [fBase o, fAD o] } ∧ plain (.tld id g o) { a := [fBase o], t := [fAD o] } ∧
    keeps (.sb id g o) { a := [fBase o], bytes := stored 1 } ∧ keeps (.sh id g o) { a := [fBase o], bytes := stored 2 } ∧
    keeps (.sw id g o) { a := [fBase o], bytes := stored 4 } ∧ keeps (.sta id g o) { a := [fBase o], bytes := stored 8 } ∧
    keeps (.tst id g o) { a := [fBase o], bytes := stored 16 }

/-- The head of an engine queue starts when its wait holds: the semaphore falls and the command begins; a non-zero
reserved field, an LCELL into another task's cell or a part over a part in progress leaves only its results undefined (R15,
R61, R62, R64, R217, R218, R219, R235, R241, R252). -/
def Obligations.QueueHeadsStart : Prop :=
  ∀ (s : State) (id : CellId) (q : BitVec 2) (h : QCmd) (rest : List QCmd), cellOk id = true →
    let c := s.cell id
    let opc := cOpc h.word
    let t := s.headTaken id q h rest
    let sync := t.begin id q ⟨h, s.ns, 0, [], [], none, false, none, false, false⟩
    let go (u : State) : Host.Outcome State Fault Refusal := .next (u.headUndef s id q h)
    c.HeadReady q h rest →
      (h.word &&& reservedMask q h.word = 0 → (q = 3 → opc = 3 → s.foreign id (lCid h.word) = false) →
        (q = 1 → cFuse h.word = false) → ∀ u, go u = .next u) ∧
      (q = 0 → c.mx.cmds = [] → c.mx.retry = false →
        (opc = 0 → ∀ i ∈ [Instr.mxSync id, .commandWaitSatisfied id 0],
          exec i s = go (sync.modCell id fun c => { c with mx := { c.mx with prev := none } })) ∧
        (opc = 1 → ∀ i ∈ [Instr.mma id, .commandWaitSatisfied id 0], exec i s = go (startMma id h t))) ∧
      (q = 1 →
        (opc = 0 → ∀ i ∈ [Instr.vxSync id, .commandWaitSatisfied id 1], exec i s = go sync) ∧
        ∀ e ∈ [(1, Instr.vbin id), (2, .vun id), (3, .vfma id), (4, .vred id), (5, .vrsc id)], opc = BitVec.ofNat 6 e.1 →
          ∀ i ∈ [e.2, .commandWaitSatisfied id 1], exec i s = go (startVector id h t)) ∧
      (q = 2 →
        (opc = 0 → ∀ i ∈ [Instr.msSync id, .commandWaitSatisfied id 2], exec i s = go sync) ∧
        (opc = 1 → c.freeCtx.isSome = true → ∀ i ∈ [Instr.runwb id, .commandWaitSatisfied id 2],
          exec i s = go (startWaybill id h t))) ∧
      (q = 3 → s.mem.snoop = [] → s.mem.paused = [] →
        (opc = 0 → ∀ i ∈ [Instr.lkSync id, .commandWaitSatisfied id 3], exec i s = go sync) ∧
        ((c.qlk.run.filter fun r => cOpc r.cmd.word ≠ 0).length < 4 →
          ∀ e ∈ [(1, Instr.lread id, startRead), (2, .lwrite id, startWrite), (3, .lcell id, startCell),
              (4, .latom id, startAtom), (5, .lcoll id, startColl)], opc = BitVec.ofNat 6 e.1 →
            ∀ i ∈ [e.2.1, .commandWaitSatisfied id 3], exec i s = go (e.2.2 id h t)))

/-- COMMAND_COMPLETE: the oldest running command lands its effects, sets its flags and signals (R62, R65, R218, R223,
R242, R247, R248, R252). -/
def Obligations.CommandsComplete : Prop :=
  ∀ (s : State) (id : CellId) (q : BitVec 2) (r : RunCmd) (rest : List RunCmd), cellOk id = true →
    let c := s.cell id
    let w := r.cmd.word
    let fin (u : State) : State := (u.dropRun id q).completeCmd id q.toNat w r.flags r.deliver
    c.works = true → (c.queue q).run = r :: rest →
      (cOpc w = 0 → exec (.commandComplete id q) s = .next (fin s)) ∧
      (q = 1 → cOpc w ≠ 0 → r.fuse = false → exec (.commandComplete id 1) s = .next (fin s)) ∧
      (q = 1 → cOpc w ≠ 0 → r.fuse = true → c.handed.length < 4 →
        exec (.commandComplete id 1) s = .next (fin (s.setCell id (c.handOff r.cmd r.cmd.d2)))) ∧
      (q = 2 → cOpc w ≠ 0 → s.mem.snoop = [] → s.mem.paused = [] → r.ended = true →
        exec (.commandComplete id 2) s = .next (fin (s.landAll r.pieces))) ∧
      (q = 3 → cOpc w ≠ 0 → s.mem.snoop = [] → s.mem.paused = [] → r.col = false →
        exec (.commandComplete id 3) s = .next (fin (r.atoms.foldl State.landAtom (s.landAll r.pieces)))) ∧
      (q = 3 → cOpc w ≠ 0 → r.col = true → ∀ o k,
        s.finishedFor (fun k => k.origin = .lcoll id ∧ k.seq = r.cmd.seq) = some (o, k) →
        exec (.commandComplete id 3) s = .next (fin (s.finishPart o k))) ∧
      (let u : State := s.setCell id { c with
         regs := { c.regs with cmdFlags := c.regs.cmdFlags ||| r.flags.setWidth 32 }
         ctr := { c.ctr with moved := s.ns, cmds := c.ctr.cmds + 1 } }
       r.deliver = none →
        (cSen w = false → s.completeCmd id q.toNat w r.flags r.deliver = u) ∧
        (cSen w = true → (c.sem (cSsem w)).toNat < 0xFFFF → s.completeCmd id q.toNat w r.flags r.deliver =
          u.setCell id ((u.cell id).setSem (cSsem w) (c.sem (cSsem w) + 1))))

/-- The check beat of the matrix array: completion, retry, failure, trap, and streaming on (R130, R131, R132, R133,
R134, R135, R136, R139, R185). -/
def Obligations.MatrixCheckBeat : Prop :=
  ∀ (s : State) (id : CellId) (us : List Upset), cellOk id = true → (s.cell id).works = true →
    let c := s.cell id
    let on := settleTail id (streamOn id s)
    let k := on.cell id
    (c.mx.retry = true → exec (.mmaRetryStart id) s =
      .next (settleTail id (streamOn id (s.setCell id { c with mx := { c.mx with retry := false } })))) ∧
    (c.mx.retry = false →
      (∀ n rest, k.qmx.q = n :: rest → cOpc n.word = 1 → chains k.mx.prev n = true → 2 ≤ k.mx.cmds.length →
        exec (.panelFillTaken id) s = .next (finishOldest id on)) ∧
      ((∀ n rest, k.qmx.q = n :: rest → cOpc n.word ≠ 1 ∨ chains k.mx.prev n = false ∨ k.mx.cmds.length < 2) →
        exec (.panelFillTaken id) s = .next on)) ∧
    ∀ m ms r rs, c.mx.cmds = m :: ms → c.qmx.run = r :: rs → r.cmd.seq = m.cmd.seq → spanOf m.cmd ≤ m.rows →
      m.checked = false → c.mx.retry = false →
      let bank := upsetBank (m.tile.getD (c.mx.bank m.bank)) us
      let o := checkTile m.cmd m.config bank
      let m1 : MxCmd := { m with flags := m.flags ||| o.flags, tile := m.tile.map fun _ => bank }
      let mx := if m.tile.isSome then c.mx else c.mx.setBank m.bank bank
      let s0 := s.setCell id { c with store := drainTile m.cmd bank c.store, mx := mx.modCmd m.cmd.seq fun _ => m1 }
      let s1 := if cFuse m.cmd.word then s0.spoilParts id fun p => rowsMeet m.cmd.d1 p.desc else s0
      let bad := s1.mxMismatch id m o
      let good := s1.mxPassed id m1
      let streamed := mPace m.cmd.word && !isHeld m.cmd
      let i := Instr.mmaCheckBeat id us
      (o.kind = 0 → m.trap = false → (cFuse m.cmd.word = false ∨ c.handed.length < 4) →
        exec i s = .next (good.mxComplete id m1)) ∧
      (o.kind = 0 → m.trap = false → cFuse m.cmd.word = true → 4 ≤ c.handed.length →
        exec i s = .next (releasePanels id m.cmd (dRows m.cmd.d0).toNat
          (good.modCell id fun c => { c with mx := c.mx.modCmd m.cmd.seq fun k => { k with checked := true } }))) ∧
      (o.kind ≠ 0 → m.trap = false → streamed = false → m.attempt = 0 →
        exec i s = .next (bad.modCell id fun c => c.mxRetry m)) ∧
      (o.kind ≠ 0 → m.trap = false → streamed = false → m.attempt = 1 → exec i s = .next (bad.mxFailed id m o false)) ∧
      (o.kind ≠ 0 → m.trap = false → streamed = true → exec i s = .next (bad.mxFailed id m o true)) ∧
      (m.trap = true → exec i s =
        .next ((if o.kind = 0 then s1 else bad).cmdFault id 0 1 m.cmd.seq stNanTrap 0))

/-- The collective parts of fused commands: hand-off, start and completion (R241, R242, R243, R424). -/
def Obligations.CollectiveParts : Prop :=
  ∀ (s : State) (id : CellId), cellOk id = true → (s.cell id).works = true →
    let c := s.cell id
    (c.handed.length < 4 → ∀ m, (c.mx.cmds.find? fun m => m.checked) = some m →
      exec (.collectivePartHandoff id) s = .next (s.mxComplete id m)) ∧
    (c.handed.length < 4 → (c.mx.cmds.find? fun m => m.checked) = none → ∀ r rs, c.qvx.run = r :: rs → r.fuse = true →
      exec (.collectivePartHandoff id) s = .next (s.completeOldest id 1)) ∧
    (∀ p rest e st, c.handed = p :: rest → c.parts.length < 4 → s.usableGroup id (cfGroup p.cf).toNat = some (e, st) →
      ((cfCop p.cf).toNat = 2 → (dRows p.desc).toNat % e.ranks st = 0) →
      let s1 := (s.setCell id { c with handed := rest }).markShared id
      let s2 := s1.modCell id fun c => { c with parts := c.parts ++ [{ p with version := e.f 0 31 0 }] }
      exec (.collectivePartStart id) s = .next { s2 with col := { s2.col with coming := s2.col.coming ++
        [⟨.part id, p.seq, (cfCop p.cf).toNat, (cfCfn p.cf).toNat, (cfGroup p.cf).toNat, p.desc, 0, p.desc, 0, c.task.member, p.spoiled⟩] } }) ∧
    (∀ o k p, s.finishedFor (fun k => k.origin = .part id) = some (o, k) → (c.parts.find? fun p => p.seq = k.seq) = some p →
      exec (.collectivePartComplete id) s = .next
        (((s.finishPart o k).modCell id fun c => { c with parts := c.parts.filter fun x => x.seq ≠ k.seq }).signal id
          (cfCsem p.cf) 1 5))

/-- A transfer without an answer, the failure of a die-to-die link and its routes, and the ballast of an array (R32,
R33, R156, R157, R158, R247, R250). -/
def Obligations.TransfersAndBallast : Prop :=
  ∀ (s : State) (id : CellId), cellOk id = true →
    let c := s.cell id
    let cfg := (s.box (boxOf id)).ballastCfg
    (∀ r index landed, c.works = true → c.qlk.run[index]? = some r → cOpc r.cmd.word ≠ 0 → r.start + 1000000 ≤ s.ns →
      exec (.transferAckTimeout id 3 index landed) s =
        .next ((s.landAll (r.pieces.take landed)).cmdFault id 3 (cOpc r.cmd.word).toNat r.cmd.seq stPath 0)) ∧
    (∀ p index landed o, c.works = true → c.parts[index]? = some p →
      (s.col.ops.find? fun o => o.parts.any fun k => k.origin = .part id ∧ k.seq = p.seq) = some o → o.since + 1000000 ≤ s.ns →
      exec (.transferAckTimeout id 5 index landed) s = .next (s.cmdFault id 5 p.opc.toNat p.seq stPath 0)) ∧
    (∀ l : DieLink, (match l with | .ring _ => True | .spoke n => n.toNat % 2 = 1) → s.badLinks.contains l = false →
      (∀ e ∈ s.cells, ∀ r ∈ e.2.qlk.run, s.runCrosses (BitVec.ofNat 11 e.1) l r = false) →
      (∀ k ∈ s.col.coming, ∀ i, k.origin = .part i ∨ k.origin = .lcoll i → l ∉ routeLinks s.badLinks (some (dieOf i)) none) →
      s.segments (s.crosses l) = [] → exec (.dieLinkFailure l) s = .next { s.colSettle with badLinks := s.colSettle.badLinks ++ [l] }) ∧
    (∀ (bad : List DieLink) (n : Nat), n < 8 → n % 2 = 0 →
      (ringLink n ∉ bad → spokeLink (n + 1) ∉ bad → routeLinks bad (some n) none = [ringLink n, spokeLink (n + 1)]) ∧
      (ringLink n ∈ bad ∨ spokeLink (n + 1) ∈ bad → routeLinks bad (some n) none = [ringLink (n + 7), spokeLink (n + 7)]) ∧
      (spokeLink (n + 7) ∉ bad → ringLink (n + 7) ∉ bad → routeLinks bad none (some n) = [spokeLink (n + 7), ringLink (n + 7)]) ∧
      (spokeLink (n + 7) ∈ bad ∨ ringLink (n + 7) ∈ bad → routeLinks bad none (some n) = [spokeLink (n + 1), ringLink n])) ∧
    (∀ duty beats, c.mx.gap = .none → c.arrayIdle = true → cfg.getLsbD 0 = true → c.powered = true →
      exec (.ballastGapStart id duty beats) s = .next (s.setCell id { c with
        mx := { c.mx with gap := .hold, gapSince := s.ns, gapDuty := min 100 duty, gapCfg := cfg }
        ctr := { c.ctr with ballast := c.ctr.ballast + BitVec.ofNat 64 beats } })) ∧
    (∀ beats, c.mx.gap = .hold → c.mx.gapSince + 1000 * min 40 (c.mx.gapCfg.toNat / 256 % 256) ≤ s.ns →
      exec (.ballastHoldEnd id beats) s = .next (s.setCell id { c with
        mx := { c.mx with gap := .ramp, gapSince := s.ns }
        ctr := { c.ctr with ballast := c.ctr.ballast + BitVec.ofNat 64 beats } })) ∧
    (∀ beats, c.mx.gap = .ramp → c.mx.gapSince + 1000 * max 8 (c.mx.gapCfg.toNat / 65536 % 256) ≤ s.ns →
      exec (.ballastRampEnd id beats) s = .next (s.setCell id { c with
        mx := { c.mx with gap := .none, gapDuty := 0 }
        ctr := { c.ctr with ballast := c.ctr.ballast + BitVec.ofNat 64 beats } }))

/-- The integer and the special-number functions of VBIN and VUN (R178, R225, R226, R92). -/
def Obligations.VectorFunctionTable : Prop :=
  (∀ a b : Word,
    binInt 0x00 a.toInt b.toInt = (a + b).toInt ∧ binInt 0x01 a.toInt b.toInt = (a - b).toInt ∧
    binInt 0x02 a.toInt b.toInt = (a * b).toInt ∧ binInt 0x03 a.toInt b.toInt = (aluFn 0x0D a b).toInt ∧
    binInt 0x04 a.toInt b.toInt = min a.toInt b.toInt ∧ binInt 0x05 a.toInt b.toInt = max a.toInt b.toInt ∧
    binInt 0x06 a.toInt b.toInt = (if a.toInt < b.toInt then 1 else 0) ∧
    binInt 0x07 a.toInt b.toInt = (if a = b then 1 else 0) ∧
    binInt 0x08 a.toInt b.toInt = (a &&& b).toInt ∧ binInt 0x09 a.toInt b.toInt = (a ||| b).toInt ∧
    binInt 0x0A a.toInt b.toInt = (a ^^^ b).toInt ∧
    unInt 0x00 a.toInt = a.toInt ∧ unInt 0x01 a.toInt = (if a.toInt < 0 then -a else a).toInt ∧
    unInt 0x02 a.toInt = (-a).toInt) ∧
  (∀ (n k : Bool) (m : Nat) (e f : Int), m ≠ 0 →
    [binNum 3 (.fin n 0 e) (.fin k 0 f), binNum 3 (.inf n) (.inf k), binNum 3 (.fin n m e) (.fin k 0 f)] =
      [.nan, .nan, .inf (n != k)] ∧
    [binNum 6 .nan (.fin k m f), binNum 6 (.fin n m e) .nan, binNum 7 .nan .nan, binNum 7 (.fin n 0 e) (.fin k 0 f)] =
      [.ofInt 0, .ofInt 0, .ofInt 0, .ofInt 1] ∧
    [unNum 3 (.fin n 0 e), unNum 3 (.fin true m e), unNum 3 (.inf n)] = [.fin n 0 0, .nan, if n then .nan else .inf false] ∧
    [unNum 4 (.fin n 0 e), unNum 4 (.inf n)] = [.inf n, .fin n 0 0] ∧
    [unNum 5 (.fin n 0 e), unNum 5 (.inf false), unNum 5 (.fin true m e), unNum 5 (.inf true)] =
      [.inf n, .fin false 0 0, .nan, .nan] ∧
    [unNum 6 (.inf true), unNum 6 (.inf false)] = [.fin false 0 0, .inf false] ∧
    [unNum 7 (.fin n 0 e), unNum 7 (.inf false), unNum 7 (.fin true m e), unNum 7 (.inf true)] =
      [.inf true, .inf false, .nan, .nan] ∧
    unNum 8 (.inf n) = .fin n 1 0 ∧
    [unNum 9 (.inf true), unNum 9 (.inf false)] = [.fin false 0 0, .fin false 1 0])

/-- A vector command on one INT32 element reads both operands and writes the result, and nothing else of the core
(R62, R178, R219, R225). -/
def Obligations.VectorIntegerElement : Prop :=
  ∀ (s : State) (id : CellId) (h : QCmd), IntElem h.d0 → IntElem h.d1 → IntElem h.d2 →
    let c := s.cell id
    let w := h.word
    let fn := (vFn w).toNat
    let at' (d : QWord) : Int := (BitVec.ofNat 32 (c.store.mem.readNat 0 (dOffset d).toNat 4)).toInt
    let y := binInt fn (at' h.d0) (at' h.d1)
    cOpc w = 1 → vCt w = true → vBimm w = false → cFuse w = false → fn ≤ 0xA →
    (∀ l ∈ [(dOffset h.d0).toNat / 8, (dOffset h.d1).toNat / 8],
      l ∉ c.store.ue ∧ l ∉ c.store.ce ∧ l ∉ c.store.poison) →
      ((startVector id h s).cell id).store.mem = c.store.mem.writeNat 0 (dOffset h.d2).toNat 4 (BitVec.ofInt 32 y).toNat ∧
      ((startVector id h s).cell id).qvx.run =
        c.qvx.run ++ [⟨h, s.ns, 0, [], [], none, false, none, false, false⟩] ∧
      ((startVector id h s).cell id).ctr.utilVx = c.ctr.utilVx + 1 ∧
      ((startVector id h s).cell id).core = c.core ∧ ((startVector id h s).cell id).nan = c.nan

/-- Loads of instruction banks, the start of a cell, and its halt, clearing, retirement and replacement (R68, R69,
R70, R72, R73, R74, R75, R78, R79, R83). -/
def Obligations.CellBanksAndStates : Prop :=
  (
    ∀ (s : State) (id : CellId), cellOk id = true →
      let c := s.cell id
      let put (b : BankState) : State := s.setCell id { c with banks := b }
      (∀ task, c.works = false ∨ task = c.task.id → s.mayLoad id task = true) ∧
      (∀ task image, s.mayLoad id task = true → s.boxRuns (boxOf id) = true → s.activeCell id = true → c.st ≠ .stopped → c.banks.load = none →
        image.length ≤ 65536 → exec (.ibankLoadIssue id task image) s =
          .next (put { c.banks with load := some ⟨!c.banks.active, image, .issued, 0, task⟩ })) ∧
      (∀ l, c.banks.load = some l → c.st ≠ .stopped →
        (l.phase = .issued → l.bank = c.banks.active → c.st = .running → exec (.ibankFirstWrite id) s =
          .next (put { c.banks with load := some { l with phase := .held, t0 := s.ns } })) ∧
        (l.phase = .issued → (l.bank ≠ c.banks.active ∨ c.st ≠ .running) → exec (.ibankFirstWrite id) s =
          .next (put (if l.bank then { c.banks with load := some { l with phase := .writing }, valid1 := false }
            else { c.banks with load := some { l with phase := .writing }, valid0 := false }))) ∧
        (l.phase = .writing → l.bank = true → exec (.ibankLoadEnd id) s =
          .next (put { c.banks with
            ib1 := c.banks.ib1.write 0xFF 0 l.image
            ue1 := c.banks.ue1.filter fun w => (l.image.length + 3) / 4 ≤ w
            valid1 := true, load := none, pre := some l.task })) ∧
        (l.phase = .writing → l.bank = false → exec (.ibankLoadEnd id) s =
          .next (put { c.banks with
            ib0 := c.banks.ib0.write 0xFF 0 l.image
            ue0 := c.banks.ue0.filter fun w => (l.image.length + 3) / 4 ≤ w
            valid0 := true, load := none, pre := some l.task })) ∧
        (l.phase = .held → l.t0 + 100000 ≤ s.ns → exec (.ibankHoldTimeout id) s =
          .next (((put { c.banks with load := none }).raise 0x0101 .error
            [(2, id.toNat), (1, if l.bank then 1 else 0), (4, l.task.toNat), (8, l.t0)]).endCause l.task.toNat tsBank))) ∧
      (∀ bank, s.boxRuns (boxOf id) = true → c.st = .idle → c.banks.validOf bank = true →
        ∃ k, exec (.cellTaskStart id bank) s = .next (s.setCell id k) ∧ k.st = .running ∧ k.banks.active = bank ∧
          k.core = { CoreState.zero with t := c.core.t } ∧ k.sems = Vector.replicate _ 0 ∧ k.store = c.store ∧
          k.dmem = c.dmem ∧ k.regs = { CmdRegs.zero with seed := c.regs.seed } ∧ k.nan.latched = false ∧
          k.nan.trapMode = c.nan.trapMode ∧ k.task = c.task)
  ) ∧
  (
    ∀ (s : State) (id : CellId), cellOk id = true →
      let c := s.cell id
      (c.st = .halted → c.drained = true →
        exec (.cellHaltDrained id) s = .next ((s.setCell id { c with st := .idle }).memberDone id)) ∧
      (c.st = .faulted → c.report = false → c.retireFault = false → s.boxRuns (boxOf id) = true →
        ∃ k, exec (.cellFaultHandled id) s = .next (s.setCell id k) ∧ k.st = .idle ∧ k.fault = 0 ∧ k.drained = true ∧
          k.sems = Vector.replicate _ 0 ∧ k.core.sClaim = 0 ∧ k.core.pClaim = 0 ∧ k.core.sMark = 0 ∧ k.core.pMark = 0 ∧
          k.store = c.store ∧ k.dmem = c.dmem ∧ k.banks = c.banks) ∧
      (c.retiring = true → (c.st = .faulted ∧ c.report = false ∧ c.retireFault = true ∨
          c.st = .idle ∧ s.dsp.tasks.all (fun t => !(t.started && t.cells.contains id)) = true) →
        let s1 := s.setCell id { c.clear .retired with retiring := false }
        let s2 := s1.raise 0x0107 .warning [(2, id.toNat), (2, s1.countIn .retired)]
        ∀ ok : Bool,
          let s3 : State := if ok then { s2 with pool := { s2.pool with flashRetired := id :: s2.pool.flashRetired } }
            else s2.raise 0x010A .error [(2, id.toNat)]
          (∀ sp, s3.chooseSpare (dieOf id) = some sp → exec (.cellRetire id ok) s =
            .next { s3 with pool := { s3.pool with joining := s3.pool.joining ++ [(id, sp)] } }) ∧
          (s3.chooseSpare (dieOf id) = none → exec (.cellRetire id ok) s =
            .next ((s3.raise 0x0109 .warning [(2, id.toNat), (2, s3.activeCount)]).bumpGen))) ∧
      (∀ sp, (s.pool.joining.find? fun p => p.1 = id) = some (id, sp) → (s.cell sp).st = .spare →
        let s1 := s.setCell sp (s.cell sp).admitted
        let s2 : State := { s1 with pool := { s1.pool with joining := s1.pool.joining.filter fun p => p.1 ≠ id } }
        exec (.spareAdmitted id) s =
          .next ((s2.raise 0x0108 .info [(2, sp.toNat), (2, id.toNat), (1, dieOf sp)]).bumpGen)) ∧
      (exec (.suspectWindowExpiry id) s = .next (s.setCell id { c with
          ctr := { c.ctr with suspects := c.ctr.suspects.filter fun t => s.ns ≤ t + 86400000000000 } }))
  )

/-- The waybill instructions other than MOVE complete with their results; a word with a reserved opcode or with wrong bits
faults (R252, R253, R254, R256, R257, R258, R259, R260, R261, R262, R263, R274). -/
def Obligations.WaybillInstructions : Prop :=
  ∀ (s : State) (id : CellId) (i : BitVec 2) (w : DWord), cellOk id = true → (s.cell id).CtxRuns i →
    let c := ((s.cell id).fetched i).stamp s.ns
    let x := rget c.wb i
    let done (y : WbCtx) : State := s.setCell id (c.setCtx i y)
    let go (y : WbCtx) : State := done (y.follow (x.pc + 8))
    let spells (n : Nat) (legal : Nat → Bool) : Prop := wbOp w.toNat = n ∧ legal w.toNat = true
    let vd : BitVec 3 := w.extractLsb' 55 3
    let va := rget x.v (w.extractLsb' 52 3)
    let vb := rget x.v (w.extractLsb' 49 3)
    let kd : BitVec 2 := w.extractLsb' 56 2
    let last := x.pc + 8 * (w.extractLsb' 48 8 : BitVec 8).toNat
    let sem : BitVec 5 := w.extractLsb' 53 5
    let cnt : BitVec 16 := w.extractLsb' 32 16
    let w14 := (w.extractLsb' 0 14 : BitVec 14).toNat
    let base := (rget x.v vd).toNat
    let setV (a : BitVec 40) : WbCtx := { x with v := rset x.v vd a }
    let shape : Shape := ⟨(w.extractLsb' 44 12 : BitVec 12).toNat + 1, (w.extractLsb' 32 12 : BitVec 12).toNat + 1,
      (rget x.v (w.extractLsb' 29 3)).setWidth 32, (rget x.v (w.extractLsb' 26 3)).setWidth 32⟩
    let kv : Word := if w.getLsbD 55 then va.setWidth 32 else w.extractLsb' 0 32
    (∀ j ∈ wbRows id i w, exec j s = exec (.wbNop id i w) s) ∧
    ((∀ op, wbOpOf (wbOp w.toNat) = some op → op.legal w.toNat = false) → ∀ j ∈ wbRows id i w,
      exec j s = .next ((done x).wbFault id i wfIllegal)) ∧
    (∀ n < 64, wbOpOf n = none ↔ n = 0x0E ∨ n = 0x0F ∨ 0x11 ≤ n) ∧
    (spells 0x00 legalNone →
      (x.signals ≠ [] → exec (.wbEnd id i w) s = .next (done { x with ended := true })) ∧
      (x.signals = [] →
        let shut (r : RunCmd) : RunCmd := if r.ctx = some i ∧ ¬ r.ended then { r with ended := true, pieces := x.pieces } else r
        exec (.wbEnd id i w) s = .next (s.setCell id { c with
          wb := rset c.wb i WbCtx.idle, qms := { c.qms with run := c.qms.run.map shut } }))) ∧
    (spells 0x01 legalNone → exec (.wbNop id i w) s = .next (go x)) ∧
    (spells 0x02 legalSetv → exec (.wbSetv id i w) s = .next (go (setV (w.extractLsb' 0 40)))) ∧
    (spells 0x03 legalAddv →
      exec (.wbAddv id i w) s = .next (go (setV (va + (w.extractLsb' 0 32 : BitVec 32).signExtend 40)))) ∧
    (spells 0x04 legalAddvv → exec (.wbAddvv id i w) s = .next (go (setV (va + vb)))) ∧
    (spells 0x05 legalGetd →
      let d := x.slotDesc (w.extractLsb' 52 3 : BitVec 3).toNat
      ∀ e ∈ [(0, dOffset d), (1, (dLdim d).setWidth 40), (2, (dRows d).setWidth 40), (3, (dCols d).setWidth 40),
          (4, (dFmt d).setWidth 40)], (w.extractLsb' 49 3 : BitVec 3) = BitVec.ofNat 3 e.1 →
        exec (.wbGetd id i w) s = .next (go (setV e.2))) ∧
    (spells 0x06 legalShape → exec (.wbShape id i w) s = .next (go { x with h := rset x.h kd (some shape) })) ∧
    (spells 0x07 legalSetk → exec (.wbSetk id i w) s = .next (go { x with k := rset x.k kd kv })) ∧
    (spells 0x08 legalLoop →
      (rget x.k kd = 0 → exec (.wbLoop id i w) s = .next (done (x.follow (last + 8)))) ∧
      (rget x.k kd ≠ 0 → x.loops.length < 4 → (∀ e ∈ x.loops.head?, last ≤ e.stop) →
        exec (.wbLoop id i w) s =
          .next (done { x with loops := ⟨x.pc + 8, last, rget x.k kd - 1⟩ :: x.loops, pc := x.pc + 8 }))) ∧
    (spells 0x09 legalWait →
      (c.mayTake sem (5 + i.toNat) cnt.toNat = true → exec (.wbWait id i w) s =
        .next (s.setCell id ((c.take sem (5 + i.toNat) cnt.toNat).setCtx i (x.follow (x.pc + 8))))) ∧
      (c.mayTake sem (5 + i.toNat) cnt.toNat = false →
        exec (.wbWait id i w) s = .next (done { x with waitOn := some (sem, cnt.toNat) }))) ∧
    (spells 0x0A legalSignal → exec (.wbSignal id i w) s = .next (go { x with
      out := x.out ++ [.inr ⟨sem, (w.extractLsb' 32 8 : BitVec 8).toNat + 1⟩] })) ∧
    (spells 0x0B legalNone →
      (x.writesOut = false → exec (.wbFence id i w) s = .next (go x)) ∧
      (x.writesOut = true → exec (.wbFence id i w) s = .next (done { x with fence := true }))) ∧
    (spells 0x0C legalSetring →
      (base % 256 = 0 → base + 256 * w14 ≤ 0x300000 →
        exec (.wbSetring id i w) s = .next (go { x with ringBase := base, ringW := w14 })) ∧
      (base % 256 ≠ 0 ∨ 0x300000 < base + 256 * w14 →
        exec (.wbSetring id i w) s = .next ((done x).wbFault id i wfShape))) ∧
    (spells 0x0D legalSetc → exec (.wbSetc id i w) s = .next (go { x with remote := w.extractLsb' 0 11 }))

/-- MOVE and GATHER complete: what is read, where it goes, and that it leaves the context running; one with a transform
first gets the transform unit (R253, R255, R257, R261, R264, R265, R266, R268, R270). -/
def Obligations.WaybillMoves : Prop :=
  ∀ (s : State) (id : CellId) (i : BitVec 2) (w : DWord) (sh : Shape), cellOk id = true → (s.cell id).CtxRuns i →
    let c := ((s.cell id).fetched i).stamp s.ns
    let x := rget c.wb i
    let m := moveOf w.toNat
    let s0 := s.setCell id c
    let src := (rget x.v m.sa).toNat
    let dst := (rget x.v m.da).toNat
    MoveReady s0 x w sh →
      (∀ u, (m.xf = 0 ∧ u = s0) ∨ (m.xf ≠ 0 ∧ s0.freeUnit id = .inl u) →
        let y := rget (u.cell id).wb i
        ∀ g, moveGather u (u.cellMap id) id y m sh = g → g.fault = none → u.mem.snoop = [] → u.mem.paused = [] →
          exec (.wbMove id i w) s = .next (g.s.setCtx id i
            ((moveAdvance { y with out := y.out ++ g.pieces.map .inl, segs := y.segs + sh.nr } m sh).follow (y.pc + 8)))) ∧
      (m.xf = 0 → m.ssp = 0 → m.dsp = 0 → m.rng = false → sh.nr = 1 → 0 < sh.len → src + sh.len ≤ 0x300000 →
        dst + sh.len ≤ 0x300000 → (src = dst ∨ src + sh.len ≤ dst ∨ dst + sh.len ≤ src) →
        (∀ l ∈ lanesOf src sh.len, l ∉ c.store.ue ∧ l ∉ c.store.ce) →
        let piece : Piece := ⟨.store id.toNat src, .store id.toNat dst, c.store.readP src sh.len, m.pm, x.segs,
          x.segs * 65536, x.pc, s.ns, false⟩
        exec (.wbMove id i w) s = .next (s.setCell id (c.setCtx i
          ((moveAdvance { x with out := x.out ++ [.inl piece], segs := x.segs + 1 } m sh).follow (x.pc + 8)))))

/-- The transforms of a MOVE, and the waits, signals, fences and lost segments of a waybill context (R259, R262, R263,
R265, R272, R275). -/
def Obligations.WaybillTransformsAndEvents : Prop :=
  (
    ∀ (m : MoveOp) (sh : Shape) (row off srow soff n : Nat), shapeOk m sh = true → m.ew = 1 ∨ m.ew = 2 ∨ m.ew = 4 →
      ((row, off, srow, soff, n) ∈ moveWrites m sh ↔
        (m.xf = 0 ∧ row < sh.nr ∧ off = 0 ∧ srow = row ∧ soff = 0 ∧ n = sh.len) ∨
        (∃ i < 64, m.xf = 1 ∧ off = i * m.ew ∧ i ≤ row ∧ row < sh.nr + i ∧ srow = row - i ∧ soff = i * m.ew ∧ n = m.ew) ∨
        (∃ i < sh.nr, m.xf = 2 ∧ row < sh.len / m.ew ∧ off = i * m.ew ∧ srow = i ∧ soff = row * m.ew ∧ n = m.ew) ∨
        (∃ i < 64, 3 ≤ m.xf ∧ off = i * m.ew ∧ i ≤ row ∧ row < sh.len / m.ew + i ∧ srow = i ∧ soff = (row - i) * m.ew ∧
          n = m.ew))
  ) ∧
  (
    ∀ (s : State) (id : CellId) (i : BitVec 2), cellOk id = true → (s.cell id).works = true →
      let c := s.cell id
      let x := rget c.wb i
      (∀ sem cnt, x.waitOn = some (sem, cnt) → c.mayTake sem (5 + i.toNat) cnt = true →
        exec (.wbWaitSatisfied id i) s = .next (s.setCell id ((c.take sem (5 + i.toNat) cnt).setCtx i
          (({ x with waitOn := none } : WbCtx).follow (x.pc + 8))))) ∧
      (∀ sem cnt, x.waitOn = some (sem, cnt) → c.mayTake sem (5 + i.toNat) cnt = false →
        exec (.wbWaitSatisfied id i) s = .next s) ∧
      (∀ ps d rest, x.out = ps.map .inl ++ .inr d :: rest → s.mem.snoop = [] → s.mem.paused = [] →
        exec (.wbSignalEffect id i) s =
          .next ((((s.landAll ps).setCtx id i { x with out := rest }).signal id d.sem d.add 2).wbClose id i)) ∧
      (∀ ps, x.fence = true → x.out = ps.map .inl → s.mem.snoop = [] → s.mem.paused = [] →
        exec (.wbFenceRelease id i) s =
          .next ((s.landAll ps).setCtx id i (({ x with out := [], fence := false } : WbCtx).follow (x.pc + 8)))) ∧
      (∀ p k late, x.out = [.inl p] → p.seg = k → (p.inbound id = true ∨ p.outbound id = true) →
        let lost : Bool := if late then decide (p.since + 1000000 ≤ s.ns) else s.pathLost p
        (lost = false → exec (.wbSegmentLost id i k late) s = .next s) ∧
        (lost = true → p.pm = false ∨ p.outbound id = true →
          exec (.wbSegmentLost id i k late) s = .next (s.wbFaultAt id i wfPath p.iaddr x.seq)) ∧
        (lost = true → p.pm = true → p.outbound id = false → x.marked = true →
          let marked := BitVec.ofNat 32 (min 0xFFFF (c.regs.wbMarked.toNat + 1))
          exec (.wbSegmentLost id i k late) s =
            .next ((s.spoil p).1.setCell id { c with
              wb := rset c.wb i { x with out := [.inl (s.spoil p).2], marked := true }
              regs := { c.regs with wbMarked := marked } })))
  )

/-- Sectors of HBM: clean, corrected and poisoned reads, whole and partial writes, scrubbing and atomics (R290, R291,
R292, R293, R295, R296, R297, R309). -/
def Obligations.MemorySectors : Prop :=
  ∀ (s : State) (sector : Nat), sector < 36000000000 → s.memRuns = true → s.mem.snoop = [] → s.mem.queued = [] →
    Sparse.find s.mem.paused (s.mem.pchOf sector) = none →
    let l := s.mem.locate (32 * sector)
    let st := rget s.mem.stks (BitVec.ofNat 4 l.stack)
    let lane1 (k : Nat) : State :=
      let old := Sparse.at [] s.mem.laneErr (64 * (64 * l.stack + l.u) + k)
      let m1 : MemState :=
        { s.mem with
          stks := rset s.mem.stks (BitVec.ofNat 4 l.stack) { st with ce := satInc st.ce }
          laneErr := Sparse.put s.mem.laneErr (64 * (64 * l.stack + l.u) + k)
            (s.ns :: old.filter fun t => s.ns < t + 1000000) }
      { s with mem := m1 }
    let bad (source : Nat) : State :=
      let m1 : MemState :=
        { s.mem with
          stks := rset s.mem.stks (BitVec.ofNat 4 l.stack) { st with ue := satInc st.ue }
          poison := setIns s.mem.poison sector }
      ({ s with mem := m1 } : State).raise 0x0401 .error [(1, l.stack), (1, l.u), (8, 32 * sector), (1, source)]
    (sector ∉ s.mem.poison →
      let clean := (List.range 32).map fun i => s.mem.hbm.get 0 (32 * sector + i)
      exec (.hbmAccess sector .read []) s = .next (s.reply 2 0 [sector, 0] clean) ∧
      ∀ k, exec (.hbmAccess sector .read [k]) s = .next ((lane1 k).reply 2 0 [sector, 0] clean)) ∧
    (sector ∈ s.mem.poison →
      exec (.hbmAccess sector .read []) s =
        .next ((s.skipFree 32).reply 2 0 [sector, 1] ((List.range 32).map s.freeByte))) ∧
    (∀ bytes poison errs, bytes.length = 32 → exec (.hbmAccess sector (.write 0 bytes poison) errs) s =
      .next { s with mem := s.mem.writeHbm (32 * sector) (bytes.map fun b => (b, poison)) }) ∧
    (∀ (off : BitVec 5) bytes poison, off.toNat + bytes.length ≤ 32 → bytes.length < 32 →
      exec (.hbmAccess sector (.write off bytes poison) []) s =
        .next { s with mem := s.mem.writeHbm (32 * sector + off.toNat) (bytes.map fun b => (b, poison)) }) ∧
    (s.mem.scrubCfg.getLsbD 0 = true → ∀ stack,
      exec (.scrubRead stack sector false []) s = .next s ∧
      (∀ k, exec (.scrubRead stack sector false [k]) s = .next (lane1 k)) ∧
      ∀ a b r, exec (.scrubRead stack sector false (a :: b :: r)) s = .next (bad 2)) ∧
    (∀ (dpa value : Nat) (op : BitVec 3) (poison : Bool), dpa / 32 = sector → op.toNat ≤ 2 →
      ∀ f ∈ [(0, EFmt.fp32), (1, EFmt.bf16), (10, EFmt.int32), (11, EFmt.int64)], dpa % (f.2.width / 8) = 0 →
        exec (.atomicUpdate dpa (BitVec.ofNat 4 f.1) op value poison []) s =
          .next (s.applyAtom ⟨.dev dpa, f.2, op, value, poison⟩))

/-- Host reads and writes of device memory, snoops and their answers, and the repair of a lane (R289, R304, R305,
R306, R308, R309). -/
def Obligations.HostMemoryAndRepair : Prop :=
  (
    ∀ (s : State) (offset : Nat), offset < 1152124977152 → s.hostUndef offset = false → s.hostUp = true →
      s.mem.queued = [] → s.mem.paused = [] →
      let line := offset / 64
      let bytes := (List.range 64).map fun i => s.mem.hbm.get 0 (64 * line + i)
      (offset < 1152000000000 → 2 * line ∉ s.mem.poison → 2 * line + 1 ∉ s.mem.poison →
        let s1 := s.reply 2 1 [64 * line, 0] bytes
        exec (.hostMemRead offset false false [] []) s = .next s1 ∧
        exec (.hostMemRead offset true false [] []) s = .next (s1.trackLine line false) ∧
        ∀ cache, exec (.hostMemRead offset cache true [] []) s = .next (s1.trackLine line true)) ∧
      (1152000000000 ≤ offset →
        (∀ cache own e0 e1, exec (.hostMemRead offset cache own e0 e1) s =
          .next (((s.skipFree 1).reply 2 1 [64 * line, 1] (leBytes 64 (Config.freeNat s.free))).raise 0x0406 .warning
            [(8, offset)])) ∧
        ∀ data poison keep errs, exec (.hostMemWrite offset data poison keep errs) s =
          .next (s.raise 0x0406 .warning [(8, offset)])) ∧
      (offset < 1152000000000 → ∀ data poison, offset % 64 + data.length ≤ 64 →
        let m := s.mem.writeHbm offset (data.map fun b => (b, poison))
        exec (.hostMemWrite offset data poison false []) s =
          .next { s with mem := { m with snoop := m.snoop.filter fun e => e.1 ≠ line } } ∧
        exec (.hostMemWrite offset data poison true []) s = .next (({ s with mem := m } : State).trackLine line true))
  ) ∧
  (
    ∀ (s : State),
      (∀ (line : Nat) (poison : Bool) (w : SnoopWait), s.mem.queued = [] → (s.mem.snoopWait.find? fun w => w.line = line) = some w →
        let waits (m : MemState) := m.snoopWait.filter fun k => !(k.line == line && k.write == w.write)
        let held (m : MemState) := if w.write then m.snoop.filter fun e => e.1 ≠ line
          else m.snoop.map fun e => if e.1 = line then (line, false) else e
        exec (.bisnpResponse line none poison) s =
          .next { s with mem := { s.mem with snoopWait := waits s.mem, snoop := held s.mem } } ∧
        ∀ data, line < 18000000000 → data.length = 64 →
          let m := s.mem.writeHbm (64 * line) (data.map fun b => (b, poison))
          exec (.bisnpResponse line (some data) poison) s =
            .next { s with mem := { m with snoopWait := waits m, snoop := held m } }) ∧
      (∀ (pch : BitVec 10) (lane : Nat), lane < 36 → s.memRuns = true → s.mem.repairCfg.getLsbD 0 = true →
        let key := 64 * pch.toNat + lane
        s.mem.thresh ≤ ((Sparse.at [] s.mem.laneErr key).filter fun t => s.ns < t + 1000000).length →
        Sparse.find s.mem.paused pch.toNat = none →
          (pch.toNat ∉ s.mem.spareUsed → exec (.laneRepairStart pch lane) s =
            .next { s with mem := { s.mem with paused := Sparse.put s.mem.paused pch.toNat lane } }) ∧
          (pch.toNat ∈ s.mem.spareUsed → key ∈ s.mem.noSpare → exec (.laneRepairStart pch lane) s = .next s) ∧
          (pch.toNat ∈ s.mem.spareUsed → key ∉ s.mem.noSpare → exec (.laneRepairStart pch lane) s =
            .next (({ s with mem := { s.mem with noSpare := setIns s.mem.noSpare key } } : State).raise 0x0403 .warning
              [(1, pch.toNat / 64), (1, pch.toNat % 64 / 2), (1, pch.toNat % 2), (1, lane)]))) ∧
      (∀ (pch : BitVec 10) (lane : Nat), Sparse.find s.mem.paused pch.toNat = some lane → s.mem.queued = [] →
        let i := BitVec.ofNat 4 (pch.toNat / 64)
        let st := rget s.mem.stks i
        let m : MemState :=
          { s.mem with
            paused := Sparse.erase s.mem.paused pch.toNat
            spareUsed := setIns s.mem.spareUsed pch.toNat
            laneErr := Sparse.erase s.mem.laneErr (64 * pch.toNat + lane)
            stks := rset s.mem.stks i { st with spares := st.spares - 1, repLive := satInc st.repLive } }
        exec (.laneRepairEnd pch) s = .next (({ s with mem := m } : State).raise 0x0402 .warning
          [(1, pch.toNat / 64), (1, pch.toNat % 64 / 2), (1, pch.toNat % 2), (1, lane), (1, 1), (1, (st.spares - 1).toNat)]))
  )

/-- Scopes, tensors that move between tiers, and the commit of the placement map (R281, R282, R299, R301, R302, R303,
R309, R349). -/
def Obligations.ScopesAndTiers : Prop :=
  ∀ (s : State),
    (∀ v : BitVec 32, v.getLsbD 0 = false → exec (.memScopeCommit v) s = .next s) ∧
    (∀ v : BitVec 32, v.getLsbD 0 = true →
      (∀ c ∈ s.mem.hbm, scopeIn s.mem.scopeAct (c.1 / 4608000000) = scopeIn s.mem.scopeShd (c.1 / 4608000000)) →
      let ver := s.mem.scopeVer + 1
      let moved := (List.range 250).filter fun j => scopeIn s.mem.scopeAct j ≠ scopeIn s.mem.scopeShd j
      let m : MemState := { s.mem with
        scopeAct := s.mem.scopeShd, scopeVer := ver, queued := s.mem.queued.map (MemReq.rescope s.mem.rescope) }
      let cells := if moved = [] then s.cells else s.cells.map fun e => (e.1, e.2.rescope s.mem.rescope)
      exec (.memScopeCommit v) s =
        .next (({ s with mem := m, cells := cells } : State).raise 0x0407 .info [(4, ver.toNat), (1, moved.length)])) ∧
    (∀ k, exec (.tierReclaim k) s = .next { s with mem := { s.mem with reclaim := setIns s.mem.reclaim k.toNat } }) ∧
    (s.hif.fwUp = true → (∀ t ∈ s.dsp.tasks, t.started = true → t.version = s.dsp.pmapVer.toNat) →
      let ver := s.dsp.pmapVer + 1
      let changed := (changedHandles s.mem.tensors s.mem.shadow).length
      exec .pmapCommit s = .next (({ s with
          mem := { s.mem with tensors := s.mem.shadow, previous := s.mem.tensors }
          dsp := { s.dsp with pmapVer := ver } } : State).raise 0x0504 .info [(4, ver.toNat), (4, changed)])) ∧
    (∀ (handle : BitVec 32) (place : Spot) (t : Tensor), tensorIn s.mem.tensors handle.toNat = some t → t.pinned = false →
      s.inUse handle.toNat = false → s.oldMap = false → s.memRuns = true → s.hif.fwUp = true → s.mem.snoop = [] →
      s.mem.paused = [] →
      let loc := TLoc.ofSpot place
      (loc.tier = t.loc.tier + 1 ∧ (s.mustLeave t = true ∨ s.evictOk t = true) ∨ loc.tier = t.loc.tier ∧ loc ≠ t.loc ∨
        t.prefer ≤ loc.tier ∧ loc.tier < t.loc.tier) →
      s.placeOk handle.toNat t.size t.scope loc = true →
        let s1 := s.copyTensor t loc
        let placed := s1.mem.shadow.map fun k => if k.handle = handle.toNat then { k with loc := loc } else k
        exec (.tierMove handle place) s =
          .next ({ s1 with mem := { s1.mem with shadow := placed } } : State).commitPmap) ∧
    (∀ (module : BitVec 15) (handle : BitVec 32), (∀ e ∈ s.cells, e.2.qlk.run = [] ∧ e.2.qms.run = [] ∧ ∀ i, (rget e.2.wb i).out = []) →
      let hit (t : Tensor) : Bool := match t.loc with
        | .lender k _ => module != 0x7FFF && k == module.toNat
        | .host _ => module == 0x7FFF && t.handle == handle.toNat
        | _ => false
      let owner (t : Tensor) : Nat := match t.loc with | .lender k _ => k | _ => 0x7FFF
      let mark (l : List Tensor) : List Tensor := l.map fun t => if hit t then { t with lost := true } else t
      let m : MemState :=
        { s.mem with tensors := mark s.mem.tensors, shadow := mark s.mem.shadow, previous := mark s.mem.previous }
      exec (.tierLost module handle) s =
        .next ((s.mem.tensors.filter fun t => hit t && !t.lost).foldl (fun (s : State) t =>
          s.raise 0x0408 .error [(4, t.handle), (1, t.loc.tier), (2, owner t)]) { s with mem := m }))

/-- The timetable arbiters: decisions by slot, quota and background, grants carried out or withdrawn, and the commit of a
timetable (R310, R311, R312, R313, R314, R315, R316, R319, R321, R322). -/
def Obligations.ArbiterDecisions : Prop :=
  (∀ (a : Arb) (b : BitVec 3) (t : Timetable) (n : BitVec 6) (reqs : BitVec 16),
    let e := eligible b t a reqs
    let pool := if e &&& ~~~t.bg = 0 then e else e &&& ~~~t.bg
    let granted (a : Arb) (r : BitVec 4) : Arb :=
      { a with grant := some r, used := a.used.put r.toNat (a.used.at 0 r.toNat + 1) }
    (∀ r : BitVec 4, e.getLsbD r.toNat = true ↔
      reqs.getLsbD r.toNat = true ∧ (requesters b).getLsbD r.toNat = true ∧
        (t.quota r = 64 ∨ a.used.at 0 r.toNat < t.quota r)) ∧
    (∀ o, t.owner n = some o → e.getLsbD o.toNat = true → a.decide b t n reqs = granted a o) ∧
    ((∀ o, t.owner n = some o → e.getLsbD o.toNat = false) →
      (e = 0 → a.decide b t n reqs = { a with grant := none }) ∧
      ∀ i < 16, pool.getLsbD (a.lastbg + 1 + BitVec.ofNat 4 i).toNat = true →
        (∀ j < i, pool.getLsbD (a.lastbg + 1 + BitVec.ofNat 4 j).toNat = false) →
          let r := a.lastbg + 1 + BitVec.ofNat 4 i
          a.decide b t n reqs = granted { a with lastbg := r } r)) ∧
  ∀ (s : State) (b : BitVec 3), let k := s.arbBlock b
    (∀ (slot x : Nat) (a : Arb) (r : BitVec 4), a.grant = some r →
      (s.arbStalled b x = true → s.carryOut b slot (x, a) =
        ({ a with grant := none, used := a.used.put r.toNat (a.used.at 0 r.toNat - 1) }, none)) ∧
      (s.arbStalled b x = false → s.carryOut b slot (x, a) =
        (a.carry (b == 0) slot r, some ⟨12, b.toNat, [x, r.toNat], []⟩))) ∧
    ((∀ e ∈ k.arbs, e.2.grant = none) → ∀ l,
      let here := registerAll b k.arbs l
      let place (arbs : Sparse Arb) (t : Timetable) (n : BitVec 6) : Sparse Arb :=
        arbs.map fun e => (e.1, e.2.decide b t n (e.2.presents (b == 0) (!s.arbStalled b e.1) (k.count + 2)))
      let fresh : Sparse Arb := here.map fun e => (e.1, { e.2 with used := [] })
      let go (k' : ArbBlock) : Prop := s.slotEdge b l = s.setArbBlock b { k' with slot := k.slot + 1, count := k.count + 1 }
      (k.slot + 2 ≠ 0 → go { k with arbs := place here k.act (k.slot + 2) }) ∧
      (k.slot + 2 = 0 → k.pending = false → go { k with arbs := place fresh k.act 0 }) ∧
      (k.slot + 2 = 0 → k.pending = true →
        go { k with act := k.shd, ver := k.ver + 1, pending := false, arbs := place fresh k.shd 0 })) ∧
    (s.memRuns = true → ∀ requests : List (BitVec 10 × BitVec 4 × BitVec 5 × BitVec 16),
      let l : List (Nat × ArbReq) := requests.map fun q => (q.1.toNat, ⟨q.2.1, q.2.2.1, q.2.2.2⟩)
      (∀ q ∈ requests, q.1.toNat < if b = 0 then 1024 else if b = 7 then 1 else 6) →
        (b = 0 ∨ b = 7 → exec (.arbiterDecide b requests) s = .next (s.slotEdge b l)) ∧
        (b ≠ 0 → b ≠ 7 → exec (.arbiterDecide b requests) s = .next ((List.range 6).foldl (fun s p =>
          s.slotEdge (BitVec.ofNat 3 (p + 1)) ((l.filter fun q => q.1 == p).map fun q => (0, q.2))) s))) ∧
    (s.pwr.main = true → ∀ v : BitVec 32, v.getLsbD 0 = true →
      exec (.ttCommit b v) s = .next (s.setArbBlock b { k with pending := true })) ∧
    ∀ v : BitVec 32, v.getLsbD 0 = false → exec (.ttCommit b v) s = .next s

/-- Doorbells, the wake of the dispatcher, the fetch of an entry and the placement of a task (R330, R331, R332, R333,
R335, R336, R350, R351, R363, R365, R366). -/
def Obligations.DispatchIntake : Prop :=
  ∀ (s : State),
    (∀ (q : BitVec 6) (i : BitVec 16), s.hostUp = true → (s.queue q.toNat).tailOk i = true →
      let h := (s.modQueue q.toNat fun k => { k with tail := i, bellAt := some (k.bellAt.getD s.ns) }).hif
      (s.hif.fifo.length < 256 → exec (.hifSqDb q i) s =
        .next { s with hif := { h with fifo := h.fifo ++ [(q.toNat, i, s.ns)] } }) ∧
      (256 ≤ s.hif.fifo.length → exec (.hifSqDb q i) s =
        .next { s with hif := { h with ovf := h.ovf ||| (1 <<< q.toNat), hwerr := h.hwerr ||| 1 } })) ∧
    (∀ q i, s.hostUp = true → (s.queue q.toNat).tailOk i = false →
      exec (.hifSqDb q i) s = .next (s.undefinedAll.doorbell q.toNat i)) ∧
    (s.dispRuns = true → exec .dispatcherWake s = .next s.takeTurns.drainBells.takeTurns.settleIdle) ∧
    (∀ f, s.hif.fetches = [f] → s.hostUp = true → s.hif.fwUp = true → s.ns ≤ f.issued + 1000000 →
      let s0 : State := ({ s with hif := { s.hif with fetches := [] } } : State).turnOver f
      let e := s.fetchedEntry f
      ((s.queue f.source).state ≠ .active ∨ f.live = false → exec .entryArrive s = .next s0.takeTurns.settleIdle) ∧
      ((s.queue f.source).state = .active → f.live = true →
        let goes (u : State) : Prop :=
          let id := nextId u.dsp.lastTask
          let s1 := u.modQueue f.source fun k => { k with sqHead := BitVec.ofNat 16 ((k.sqHead.toNat + 1) % k.sqSlots) }
          let t := Task.new id.toNat e f.source 0 id.toNat .ready u.dsp.ranks
          let d : DspState := { u.dsp with tasks := u.dsp.tasks ++ [t], lastTask := id, ranks := u.dsp.ranks + 1 }
          exec .entryArrive s = .next ({ s1 with dsp := d } : State).takeTurns.settleIdle
        (e.formed false (s.hif.feat 2) = true → goes s0) ∧ (e.formed false (s.hif.feat 2) = false → goes s0.undefinedAll))) ∧
    (∀ t, s.dispRuns = true → (s.dsp.tasks.filter Task.isReady) = [t] → s.mayStart t = true →
      (t.entry.marker = false →
        let u := if t.entry.pin = 2 then s.touchTensor s.mem.tensors t.entry.plist.toNat 0 (2 * t.entry.size.toNat) else s
        (∀ l, u.findConsist t = .cells l →
          (u.awaitsMoves t l = true → exec .taskPlace s = .next u) ∧
          (u.awaitsMoves t l = false → u.mem.snoop = [] → u.mem.paused = [] →
            exec .taskPlace s = .next ((u.useTensors t.entry.handles).claim t l))) ∧
        (u.findConsist t = .wait → exec .taskPlace s = .next u) ∧
        (u.findConsist t = .never → exec .taskPlace s = .next (((u.raise 0x0503 .error
          [(4, t.id), (2, t.entry.size.toNat), (2, u.activeCount)]).endCause t.id tsNoCells).endTask t.id)) ∧
        (u.findConsist t = .bad → exec .taskPlace s = .next ((u.endCause t.id tsImage).endTask t.id))) ∧
      (t.entry.marker = true →
        exec .taskPlace s = .next ((s.modTask t.id fun t => { t with stage := .ending }).endTask t.id)))

/-- A signal box prepares the members of a placed task and starts them together (R334, R337, R338, R83, R72). -/
def Obligations.MembersOfTasks : Prop :=
  ∀ (s : State) (task : BitVec 32) (die : BitVec 3) (cluster : BitVec 4) (t : Task), cluster.toNat < 9 →
    let b := 16 * die.toNat + cluster.toNat
    let e := t.entry
    s.boxRuns b = true → s.task task.toNat = some t →
    (t.stage = .placed → ∀ mine, mine ≠ [] → (t.cells.filter fun c => boxOf c == b && !t.loaded.contains c) = mine →
      let l := s.pmap t.version
      let s0 := e.parts.foldl (fun s p => s.touchTensor l p.1 0 p.2) s
      let read (h n : Nat) : Option (List Byte) := s0.readClean (some (b / 16)) t.version h n
      s.mem.snoop = [] → s.mem.paused = [] →
      (∀ image arg desc, read e.image.toNat (256 * e.imglen.toNat) = some image →
        read e.arg.toNat e.arglen.toNat = some arg → read e.desc.toNat (16 * e.ndesc.toNat) = some desc →
        let hs := (List.range e.ndesc.toNat).map fun k =>
          (dHandle (BitVec.ofNat 128 (leNat ((desc.drop (16 * k)).take 16)))).toNat
        exec (.signalBoxTask task die cluster) s = .next
          (((mine.foldl (fun s c => s.modCell c fun k => k.prepare t (t.cells.idxOf c) image arg desc) s0).useTensors hs).modTask
            task.toNat fun t => { t with loaded := t.loaded ++ mine, named := hs })) ∧
      ((∃ p ∈ e.parts, read p.1 p.2 = none) →
        exec (.signalBoxTask task die cluster) s = .next (s0.endCause task.toNat tsImage))) ∧
    (t.stage = .running ∨ t.stage = .placed ∧ (∀ c ∈ t.cells, c ∈ t.loaded) → ∀ mine, mine ≠ [] →
      (t.cells.filter fun c => boxOf c == b) = mine →
      (∀ c ∈ mine, c ∈ t.loaded ∧ (s.cell c).st = .idle ∧ (s.cell c).banks.load = none ∧
        (s.cell c).banks.validInactive = true ∧ (s.cell c).banks.pre = some task) →
      exec (.taskMembersStart task die cluster) s = .next
        ((mine.foldl (fun s c => s.startCell c (!(s.cell c).banks.active)) s).modTask task.toNat fun t =>
          { t with stage := .running, loaded := t.loaded.filter (fun c => !mine.contains c), ran := t.ran ++ mine }))

/-- Fault reports, stopped members, ENQ, the end or re-run of a task, and its completion record (R115, R116, R340,
R341, R342, R343, R344, R345, R346, R347, R372, R373). -/
def Obligations.TaskEndsFaultsAndRecords : Prop :=
  (
    ∀ (s : State) (id : CellId), cellOk id = true →
      let c := s.cell id
      (s.dispRuns = true → c.st = .faulted → c.report = true →
        let st := c.faultStatus.1
        let ended (t : Task) : Task :=
          { t with stage := .ending, status := st, faultCell := id
                   faultSeq := if c.fault = 2 then c.regs.faultSeq else 0
                   suspect := if c.faultStatus.2 then some id else none }
        let s1 : State := { s.setCell id { c with report := false } with dsp := { s.dsp with idle := false } }
        exec (.faultReport id) s = .next (s1.modTasks fun l => l.map fun t =>
          if t.cells.contains id ∧ (t.stage = .running ∨ t.stage = .placed) then ended t else t)) ∧
      (s.boxRuns (boxOf id) = true → (∃ t ∈ s.dsp.tasks, t.stage = .ending ∧ id ∈ t.cells) → c.core.enq = none →
        (c.st = .running ∨ c.st = .halted → exec (.memberStop id) s = .next (s.setCell id (c.clear .idle)).colSettle) ∧
        (c.st ≠ .running → c.st ≠ .halted → exec (.memberStop id) s = .next s)) ∧
      (∀ w, c.core.enq = some w → c.st = .running →
        let answered (s' : State) (a : EnqAnswer) : State :=
          ({ s' with dsp := { s'.dsp with idle := false } } : State).setCell id
            { c with core := { c.core with enq := some { w with answer := some a } } }
        let refused (r : Nat) : State :=
          answered { s with dsp := { s.dsp with enqRefused := countRefused s.dsp.enqRefused r } } ⟨false, BitVec.ofNat 32 r⟩
        let e := TaskEntry.ofBytes w.entry
        (w.answer = none → s.dispRuns = true →
          (s.starting = false → exec (.enqRequest id) s = .next (refused 3)) ∧
          ∀ t k, s.task c.task.id.toNat = some t → s.task t.root = some k → s.starting = true →
            (k.credits = 0 → exec (.enqRequest id) s = .next (refused 1)) ∧
            (k.credits ≠ 0 → s.dsp.depth ≤ (s.dsp.tasks.filter fun t => t.stage == .dmq).length →
              exec (.enqRequest id) s = .next (refused 2)) ∧
            (k.credits ≠ 0 → (s.dsp.tasks.filter fun t => t.stage == .dmq).length < s.dsp.depth →
              let tid := nextId s.dsp.lastTask
              let made := { Task.new tid.toNat e 64 c.task.id.toNat t.root .dmq 0 with credits := 0 }
              let charged := s.dsp.tasks.map fun k =>
                let k1 := if k.id = t.root then { k with credits := k.credits - 1 } else k
                if k1.id = c.task.id.toNat then { k1 with enqed := true } else k1
              let taken := answered { s with dsp := { s.dsp with tasks := charged ++ [made], lastTask := tid } } ⟨true, tid⟩
              (e.formed true (s.hif.feat 2) = true → exec (.enqRequest id) s = .next taken) ∧
              (e.formed true (s.hif.feat 2) = false → exec (.enqRequest id) s = .next taken.undefinedAll))) ∧
        (∀ a, w.answer = some a → s.ns ≤ w.issued + 10000 → s.boxRuns (boxOf id) = true →
          exec (.enqAnswer id) s = .next (s.finishEnq id w a.ok a.value)) ∧
        (w.answer = none → exec (.enqAnswer id) s = .next s) ∧
        (w.issued + 10000 < s.ns → s.boxRuns (boxOf id) = true →
          exec (.enqTimeout id) s = .next (({ s with dsp := s.dsp.discardEnq w } : State).finishEnq id w false 4)))
  ) ∧
  (
    (∀ (s : State) (t : Task) (id : BitVec 32), s.dispRuns = true → s.task id.toNat = some t → s.membersLeft t = false →
      let flags := t.ran.foldl (fun (f : BitVec 7) c => f ||| (s.cell c).regs.cmdFlags.setWidth 7) t.flags
      s.dsp.tasks = [t] → t.parent = 0 → t.root = t.id → t.mute = false → t.entry.phase = 0 →
        (t.stage = .running → t.left = [] → t.descFail = false →
          let r := { t with status := 0, stage := .ended, endLt := s.ns, flags := flags }
          exec (.taskEnd id) s = .next { s with dsp := { s.dsp with
            tasks := [], recs := s.dsp.recs ++ [(t.source, r.record 0 (0 ||| flags) false)] } }) ∧
        (t.stage = .running → t.left ≠ [] → exec (.taskEnd id) s = .next s) ∧
        (t.stage = .ending → s.reruns t = true →
          let bad := t.suspect.getD 0x7FF
          let again : Task :=
            { t with stage := .ready, cells := [], loaded := [], ran := [], left := [], named := [], attempt := t.attempt + 1
                     excluded := t.excluded ++ [bad], status := 0, suspect := none, faultCell := 0x7FF
                     faultSeq := 0, flags := flags, rank := -(s.dsp.ranks : Int) - 1 }
          exec (.taskEnd id) s = .next (({ s with dsp := { s.dsp with tasks := [again], ranks := s.dsp.ranks + 1 } } : State).raise
            0x0502 .warning [(4, t.id), (2, bad.toNat), (1, t.attempt + 1)]))) ∧
    ∀ (s : State) (q : BitVec 6), let k := s.queue q.toNat
      (∀ r rest, s.dsp.recs = (q.toNat, r) :: rest → s.dispRuns = true → s.writing q.toNat = false →
        let s1 : State := { s with dsp := { s.dsp with recs := rest } }
        (k.exists' = false → exec (.completionRecordWrite q) s = .next s1) ∧
        (k.exists' = true → k.state ≠ .haltedCpl → k.ring = [] → k.waiting = [] → k.cqFull = false →
          exec (.completionRecordWrite q) s = .next { s1 with hif := { s.hif with writes := s.hif.writes ++
            [⟨q.toNat, k.cqBase + 32 * k.cqTail.toNat, r.bytes k.sqHead false k.phase, s.ns, some r, false, 0, 0, 0⟩] } }) ∧
        (k.exists' = true → k.state = .haltedCpl → k.ring.length < 4096 → k.waiting = [] →
          exec (.completionRecordWrite q) s =
            .next ((s1.modQueue q.toNat fun k => { k with ring := k.ring ++ [r] }).drainRing q.toNat))) ∧
      (∀ w, (s.hif.writes.find? fun w => w.queue = q.toNat) = some w → w.queue = q.toNat → s.hostUp = true →
        s.ns ≤ w.issued + 1000000 → q.toNat ≠ 64 →
        let s1 : State := { s with
          hif := { s.hif with writes := s.hif.writes.eraseP fun w => w.queue = q.toNat }
          mem := s.mem.writeHost w.addr (w.data.map fun b => (b, false)) }
        exec (.recordWriteCompleted (q.setWidth 7)) s = .next (s1.recordLanded w))
  )

/-- Heads, the lease, the CXL link and PERST, and host accesses that fail (R361, R363, R374, R375, R376, R381, R382,
R355, R550). -/
def Obligations.HostHeadsLeaseAndFailures : Prop :=
  (
    ∀ (s : State), s.hostUp = true →
      let h := s.hif
      (∀ (q : BitVec 6) (i : BitVec 16),
        ((s.queue q.toNat).headOk i = true → exec (.hifCqHead q i) s =
          .next ((s.modQueue q.toNat fun k => { k with cqHead := i }).drainRing q.toNat)) ∧
        ((s.queue q.toNat).headOk i = false → exec (.hifCqHead q i) s = .next (s.undefinedAll.cqHeadWrite q.toNat i))) ∧
      (∀ i : BitVec 16,
        let ok := h.evBase = 0 ∨
          ringOk h.evSlots h.evHead.toNat i.toNat ((h.evTail.toNat + h.evSlots - h.evHead.toNat) % h.evSlots) = true
        (ok → exec (.hifEvHead i) s = .next ({ s with hif := { h with evHead := i } } : State).issueEvent) ∧
        (¬ ok → exec (.hifEvHead i) s = .next (s.undefinedAll.evHeadWrite i))) ∧
      (∀ n : BitVec 32,
        (n = h.leaseNo → h.lease = true → s.ns ≤ h.leaseAt + 2000000000 →
          exec (.hifLease n) s = .next { s with hif := { h with leaseAt := s.ns } }) ∧
        (n = h.leaseNo → (h.lease = true ∧ h.leaseAt + 2000000000 < s.ns ∨ h.lease = false ∧ h.expired = true) →
          exec (.hifLease n) s = .next { s with hif := { h with hwerr := h.hwerr ||| 4 } }) ∧
        (n ≠ h.leaseNo → exec (.hifLease n) s = .next s)) ∧
      (s.pwr.main = true → h.lease = true → h.leaseAt + 2000000000 ≤ s.ns → h.attached = true →
        let s1 : State := { s with hif := { h with lease := false, expired := true } }
        (h.fwUp = true → exec .leaseExpiry s = .next (s1.detach 0)) ∧
        (h.fwUp = false → exec .leaseExpiry s = .next s1)) ∧
      (s.portsOn = true → h.linkUp = true → ∀ w r, linkShape w r = true →
        let down : State := { s with hif := { h with linkUp := false, width := w, rate := r } }
        let held : State := { s with hif := { h with perst := true, linkUp := false } }
        exec (.cxlLinkChange false w r) s = .next (down.raise 0x0607 .warning [(1, w), (1, r), (1, 0)]) ∧
        exec .perstAssert s = .next (held.raise 0x0607 .warning [(1, h.width), (1, h.rate), (1, 0)]) ∧
        (h.perst = false → exec (.cxlLinkChange true w r) s = .next
          (({ s with hif := { h with linkUp := true, width := w, rate := r } } : State).raise 0x0607 .warning
            [(1, w), (1, r), (1, 1)]))) ∧
      exec .perstRelease s = .next { s with hif := { h with perst := false } }
  ) ∧
  (
    ∀ (s : State),
      (∀ f noAnswer, s.hif.fetches = [f] → s.hif.fwUp = true → (noAnswer = true → f.issued + 1000000 ≤ s.ns) →
        (noAnswer = false → s.hostUp = true) →
        let s0 : State := ({ s with hif := { s.hif with fetches := [] } } : State).turnOver f
        let k := s.queue f.source
        (k.state = .active → f.live = true → exec (.fetchFailed noAnswer) s = .next ((s0.haltQueue f.source .haltedFetch
          (if noAnswer then 2 else 1) (k.sqBase + 64 * k.sqHead.toNat)).takeTurns.settleIdle)) ∧
        (k.state ≠ .active ∨ f.live = false → exec (.fetchFailed noAnswer) s = .next s0.takeTurns.settleIdle)) ∧
      (∀ (q : BitVec 6) w r noAnswer, (s.hif.writes.find? fun w => w.queue = q.toNat) = some w → w.rcd = some r →
        s.hif.fwUp = true → (noAnswer = true → w.issued + 1000000 ≤ s.ns) → (noAnswer = false → s.hostUp = true) →
        (s.queue q.toNat).ring.length < 4096 → (s.queue q.toNat).state ≠ .haltedCpl → (s.queue q.toNat).waiting = [] →
        let s1 : State := { s with hif := { s.hif with writes := s.hif.writes.eraseP fun w => w.queue = q.toNat } }
        exec (.cplWriteFailed q noAnswer) s = .next ((s1.modQueue q.toNat fun k => { k with ring := r :: k.ring }).haltQueue
          q.toNat .haltedCpl (if noAnswer then 2 else 1) w.addr)) ∧
      (∀ w noAnswer, (s.hif.writes.find? fun w => w.queue = 64) = some w → s.hif.evQueue = [] →
        (noAnswer = true → w.issued + 1000000 ≤ s.ns) → (noAnswer = false → s.hostUp = true) →
        let lt := leNat (w.data.take 8)
        let first := if w.drops ≠ 0 then w.dropLt else if s.hif.evDrops ≠ 0 then min s.hif.evDropLt lt else lt
        exec (.eventWriteFailed noAnswer) s = .next { s with hif := { s.hif with
          writes := s.hif.writes.eraseP (fun w => w.queue = 64), evDrops := s.hif.evDrops + w.drops + 1, evDropLt := first } }) ∧
      (∀ q : BitVec 6, let k := s.queue q.toNat
        s.hif.feat 6 = true → k.count ≠ 0 → k.time ≠ 0 → k.since ≠ 0 → k.firstAt + 1000 * k.time ≤ s.ns →
        s.hif.detached = false → s.dispRuns = true → exec (.msixCoalesceTimeout q) s =
          .next ((s.modQueue q.toNat fun k => { k with since := 0 }).sendVector k.vector))
  )

/-- The mailbox messages about queues, the event ring, rebinding and the placement map (R363, R368, R369, R370, R374,
R375, R349). -/
def Obligations.MailboxQueueMessages : Prop :=
  ∀ (s : State), let q := s.mbArg 0 1
    let k := s.queue q
    let stops (c : Instr) (p : Nat) : Prop := exec c s = .next (s.mbAnswer p [])
    (s.Asked 0x03 34 →
      (64 ≤ q → stops .queueCreate 3) ∧
      (q < 64 → k.exists' = true → stops .queueCreate 4) ∧
      (q < 64 → k.exists' = false → s.queueArgsOk = true → exec .queueCreate s = .next
        ((s.modQueue q fun _ => { s.setQueue HostQueue.init with state := .active }).mbAnswer 0 []))) ∧
    (s.Asked 0x04 1 →
      (64 ≤ q ∨ k.exists' = false → stops .queueDelete 3) ∧
      (q < 64 → k.exists' = true → ∀ n r s1, s.deleteQueue q = (n, r, s1) →
        exec .queueDelete s = .next (s1.mbAnswer 0 (leBytes 2 n ++ leBytes 2 r)))) ∧
    (s.Asked 0x05 34 → q < 64 → k.exists' = true →
      (k.state ≠ .haltedCpl → k.state ≠ .haltedFetch → stops .queueRebind 2) ∧
      (k.state = .haltedCpl ∨ k.state = .haltedFetch → s.queueArgsOk = true →
        (s.writing q = false → exec .queueRebind s = .next ((s.modQueue q s.setQueue).mbAnswer 0 [])) ∧
        (s.writing q = true → exec .queueRebind s = .next s))) ∧
    (s.Asked 0x06 1 → q < 64 → k.exists' = true →
      (k.state = .active → exec .resume s = .next (s.mbAnswer 0 (leBytes 2 0))) ∧
      (k.state ≠ .active →
        let n := k.ring.length + k.waiting.length
        let late := (s.hif.writes.filter fun w => w.queue == q && w.held).length
        let s1 := s.modQueue q fun k =>
          { k with state := .active, replay := if n = 0 then 0 else n + late, replayed := n, fullRaised := false }
        exec .resume s = .next ((s1.drainRing q).takeTurns.mbAnswer 0 (leBytes 2 (min 0xFFFF n))))) ∧
    (s.Asked 0x0F 4 →
      let v : BitVec 32 := BitVec.ofNat 32 (s.mbArg 0 4)
      let kept := if s.hif.feat 7 then v &&& 0x0FFFFF01 else v &&& 0x0FFFFF01 &&& 0x0FFFFF00
      exec .configSet s = .next (({ s with dsp := { s.dsp with cfg := kept } } : State).mbAnswer 0
        (leBytes 4 s.dsp.cfg.toNat))) ∧
    (s.Asked 0x10 11 → s.hif.feat 5 = true → s.writing 64 = false → s.mbArg 0 8 = 0 →
      exec .eventRingSet s = .next (({ s with hif := { s.hif with evBase := 0, evQueue := [], evDrops := 0 } } : State).mbAnswer
        0 [])) ∧
    (∀ c ∈ [(2, Instr.detach), (3, .queueCreate), (4, .queueDelete), (5, .queueRebind), (6, .resume), (7, .taskAbort),
        (9, .tensorFree), (0xB, .tensorUnpin), (0xC, .tensorQuery), (0xF, .configSet), (0x10, .eventRingSet)],
      s.hif.mbBusy = true → s.mbServed = true → Mem.readNat 0 s.hif.mbReq 0 1 = c.1 → s.hif.attached = false →
        stops c.2 2) ∧
    (s.hif.mbBusy = true → s.mbServed = true →
      Mem.readNat 0 s.hif.mbReq 0 1 = 0 ∨ 0x10 < Mem.readNat 0 s.hif.mbReq 0 1 → stops .mbUnknownOpc 1)

/-- The mailbox messages about attachment, tasks, tensors and host grants, and the function-level reset (R303, R369,
R370, R377, R378, R379, R382, R302, R341). -/
def Obligations.MailboxOtherMessages : Prop :=
  ∀ (s : State), let stops (c : Instr) (p : Nat) : Prop := exec c s = .next (s.mbAnswer p [])
    (∀ lease, s.Asked 0x01 8 →
      let h := s.hif
      let level := s.mbArg 0 1
      let agreed := (BitVec.ofNat 32 (s.mbArg 4 4) &&& h.featDev &&& levelMask level) ||| 1
      s.mbArg 2 2 = 0 →
        (level ≠ h.khiCur.toNat → level ≠ h.khiPrev.toNat → stops (.attach lease) 6) ∧
        (level = h.khiCur.toNat ∨ level = h.khiPrev.toNat →
          (h.lease = true → stops (.attach lease) 7) ∧
          (h.lease = false → s.mbArg 1 1 = 1 →
            (agreed.getLsbD 1 = false → stops (.attach lease) 5) ∧
            (agreed.getLsbD 1 = true → h.expired = false →
              let held := if agreed.getLsbD 5 then h.evHeld else []
              let joined : HifState :=
                { h with attached := true, detached := false, lease := true, expired := false, leaseNo := lease, leaseAt := s.ns
                         khiInUse := BitVec.ofNat 8 level, featOn := agreed, evQueue := h.evQueue ++ held
                         evHeld := if agreed.getLsbD 5 then [] else h.evHeld }
              let before := if h.detached then 1 else 0
              exec (.attach lease) s = .next ((({ s with hif := joined } : State).sendPending.issueEvent.raise 0x0604 .info
                [(1, 1), (1, level), (2, agreed.toNat), (1, before)]).mbAnswer 0
                  (leBytes 4 lease.toNat ++ leBytes 4 agreed.toNat ++ leBytes 1 level ++ leBytes 1 before)))))) ∧
    (s.Asked 0x02 0 → exec .detach s = .next ((s.detach 1).mbAnswer 0 [])) ∧
    (s.Asked 0x07 5 → s.mbArg 4 1 = 0 → let id := s.mbArg 0 4
      (s.task id = none → id ≠ 0 → id ≤ s.dsp.lastTask.toNat → exec .taskAbort s = .next (s.mbAnswer 0 [0])) ∧
      (s.task id = none → id = 0 ∨ s.dsp.lastTask.toNat < id → stops .taskAbort 3) ∧
      ∀ t, s.task id = some t →
        let ended := (s.endCause id tsAborted).endTask id
        (t.stage = .ready ∨ t.stage = .dmq → exec .taskAbort s = .next (ended.mbAnswer 0 [1])) ∧
        (t.stage = .placed ∨ t.stage = .running → exec .taskAbort s = .next (ended.mbAnswer 0 [2])) ∧
        (t.stage = .ending ∨ t.stage = .ended → exec .taskAbort s = .next (ended.mbAnswer 0 [0]))) ∧
    (∀ handle scope, s.Asked 0x08 12 → s.mbArg 8 1 ≤ 2 → s.mbArg 9 1 = 0 → s.mbArg 11 1 = 0 →
      let size := s.mbArg 0 8
      ((∀ k, s.mbArg 8 1 ≤ k → k < 4 → s.room k size scope.toNat none = false) → stops (.tensorCreate handle scope none) 4) ∧
      ∀ place, let loc := TLoc.ofSpot place
        (∀ k, s.mbArg 8 1 ≤ k → k < loc.tier → s.room k size scope.toNat none = false) → handle ≠ 0 → (∀ t ∈ s.mem.tensors ++ s.mem.shadow ++ s.mem.previous, t.handle ≠ handle.toNat) → scope.toNat < 2 →
        s.mbArg 8 1 ≤ loc.tier → s.placeOk handle.toNat size scope.toNat loc = true →
          exec (.tensorCreate handle scope (some place)) s = .next (({ s with mem := { s.mem with
            shadow := s.mem.shadow ++ [⟨handle.toNat, loc, size, scope.toNat, s.mbArg 8 1, false, false, false, s.ns⟩] } } : State).mbAnswer 0
              (leBytes 4 handle.toNat))) ∧
    (∀ h, s.mbArg 0 4 = h →
      (s.tensor h = none → (s.Asked 0x09 4 → stops .tensorFree 3) ∧ (s.Asked 0x0A 5 → ∀ p, stops (.tensorPin p) 3) ∧
        (s.Asked 0x0B 4 → stops .tensorUnpin 3) ∧ (s.Asked 0x0C 4 → stops .tensorQuery 3)) ∧
      ∀ t, s.tensor h = some t →
        (s.Asked 0x09 4 → exec .tensorFree s = .next (({ s with mem := { s.mem with
          shadow := s.mem.shadow.filter fun t => t.handle ≠ h } } : State).mbAnswer 0 [])) ∧
        (s.Asked 0x0A 5 → s.mbArg 4 1 = 1 → t.loc.tier = 1 → t.loc.whole = true → ∀ p, exec (.tensorPin p) s =
          .next ((s.modTensor h fun t => { t with pinned := true }).mbAnswer 0 (leBytes 8 t.loc.address))) ∧
        (s.Asked 0x0B 4 → exec .tensorUnpin s = .next ((s.modTensor h fun t => { t with pinned := false }).mbAnswer 0 [])) ∧
        (s.Asked 0x0C 4 → exec .tensorQuery s = .next (s.mbAnswer 0 (leBytes 1 t.loc.tier ++ leBytes 1 (t.scope + 1) ++
          leBytes 1 (if t.pinned then 1 else 0) ++ leBytes 1 0 ++
          leBytes 4 (match t.loc with | .hbm l => l.length | _ => 1) ++ leBytes 8 t.size)))) ∧
    (∀ id, s.Asked 0x0D 16 →
      (s.hif.feat 3 = false → stops (.hostGrant id) 5) ∧
      (s.hif.feat 3 = true → s.mbArg 0 8 % 4096 = 0 → s.mbArg 8 8 % 4096 = 0 → Sparse.find s.mem.grants id.toNat = none →
        exec (.hostGrant id) s = .next (({ s with mem := { s.mem with
          grants := s.mem.grants.put id.toNat (s.mbArg 0 8, s.mbArg 8 8) } } : State).mbAnswer 0 (leBytes 4 id.toNat)))) ∧
    (s.Asked 0x0E 4 →
      (Sparse.find s.mem.grants (s.mbArg 0 4) = none → ∀ m, stops (.hostRevoke m) 3) ∧
      ∀ g, Sparse.find s.mem.grants (s.mbArg 0 4) = some g →
        let inside (t : Tensor) : Bool := t.inGrant g.1 g.2
        let s1 := s.loseTensors inside
        exec (.hostRevoke []) s = .next (({ s1 with mem := { s1.mem with
          grants := Sparse.erase s1.mem.grants (s.mbArg 0 4) } } : State).mbAnswer 0
            (leBytes 4 0 ++ leBytes 4 (s.mem.tensors.filter inside).length))) ∧
    (s.hostUp = true →
      let s1 : State := { s with hif := { s.hif with mbBusy := false, mbDone := false, mbReq := [], mbAns := [] } }
      (s.hif.attached = true → exec .functionLevelReset s = .next (s1.detach 3).discardHost) ∧
      (s.hif.attached = false → exec .functionLevelReset s = .next s1.discardHost))

/-- Frames of a Morgo link in and out, acknowledged or replayed, and the loss and return of a port (R387, R388, R389,
R391, R392, R393, R394, R395, R396). -/
def Obligations.LinkFramesAndLiveness : Prop :=
  (
    ∀ (s : State) (p : BitVec 3), p.toNat < 6 → s.portsOn = true → let k := rget s.lnk.ports p
      (k.trained = true → ∀ (seq : BitVec 12) (flit : List Byte) (mask : BitVec 32) (valid vc : Bool)
          (a b : List (BitVec 4)),
        (seq = k.rxSeq → (if vc then k.rx1 else k.rx0).length < 512 →
          exec (.frameReceive p true vc seq (flit, mask) [] []) s = .next ((s.setPort p
            { k with rxSeq := k.rxSeq + 1
                     rx0 := if vc then k.rx0 else k.rx0 ++ [⟨vc, seq, mask, flit⟩]
                     rx1 := if vc then k.rx1 ++ [⟨vc, seq, mask, flit⟩] else k.rx1 }).reply 3 2 [p.toNat, seq.toNat])) ∧
        (2 ≤ a.length ∨ 2 ≤ b.length ∨ valid = true ∧ seq ≠ k.rxSeq →
          exec (.frameReceive p valid vc seq (flit, mask) a b) s = .next
            ((s.setPort p { k with replay := satInc k.replay }).reply 3 1 [p.toNat, k.rxSeq.toNat]))) ∧
      (k.trained = true → ∀ seq older f newer, k.buf = older ++ f :: newer → (∀ g ∈ older, g.seq ≠ seq) → f.seq = seq →
        exec (.ack p seq) s = .next (s.setPort p { k with buf := newer, replays := 0 }) ∧
        ∀ n, n = (if older = [] then k.replays + 1 else 1) → n < 8 →
          exec (.nak p seq) s = .next ((s.setPort p { k with buf := f :: newer, replays := n }).reply 3 0x100
            (p.toNat :: (f :: newer).map fun g => g.seq.toNat))) ∧
      (∀ n : BitVec 10, exec (.credit p false n) s = .next (s.setPort p { k with cr0 := min 512 (k.cr0 + n.toNat) }) ∧
        exec (.credit p true n) s = .next (s.setPort p { k with cr1 := min 512 (k.cr1 + n.toNat) })) ∧
      (k.trained = true → ∀ (lane : BitVec 4) (seq : BitVec 12),
        (k.failing s.ns lane.toNat = true → k.lostLock < 3 → (∀ m ∈ k.movesRx, m.lane ≠ lane) →
          (k.movesRx.length < k.sparesRx.toNat → 64 ≤ (seq - k.rxSeq).toNat →
            exec (.laneFailing p lane false seq) s = .next ((s.setPort p
              { k with movesRx := addMove k.rxSeq ⟨lane, seq⟩ k.movesRx }).reply 3 0x30 [p.toNat, lane.toNat, seq.toNat])) ∧
          (k.sparesRx.toNat ≤ k.movesRx.length →
            exec (.laneFailing p lane false seq) s = .next ((s.setPort p
              { k with laneErr := k.laneErr.erase lane.toNat }).raise 0x0706 .warning [(1, p.toNat), (1, 0), (1, lane.toNat)]))) ∧
        (k.movesTx.length < k.sparesTx.toNat →
          exec (.laneSwitch p lane seq) s = .next (s.setPort p { k with movesTx := addMove k.txSeq ⟨lane, seq⟩ k.movesTx }))) ∧
      (∀ m rest, k.movesTx = m :: rest → (∀ x ∈ rest, x.lane ≠ m.lane) → (k.txSeq - m.seq).toNat < 2048 →
        exec (.laneSwitchApply p true) s = .next (((s.setPort p
          { k with movesTx := rest, sparesTx := k.sparesTx - 1, laneMapTx := k.laneMapTx ||| (1 <<< m.lane.toNat) }).raise
            0x0705 .warning [(1, p.toNat), (1, 1), (1, m.lane.toNat), (1, (k.sparesTx - 1).toNat)]).reply 3 0x31
            [p.toNat, m.lane.toNat, m.seq.toNat])) ∧
      (∀ m rest, k.movesRx = m :: rest → (∀ x ∈ rest, x.lane ≠ m.lane) →
        let t := (s.setPort p { k with movesRx := rest, sparesRx := k.sparesRx - 1, laneMap := k.laneMap ||| (1 <<< m.lane.toNat)
                                       noLock := setDel k.noLock m.lane.toNat, laneErr := k.laneErr.erase m.lane.toNat }).raise
          0x0705 .warning [(1, p.toNat), (1, 0), (1, m.lane.toNat), (1, (k.sparesRx - 1).toNat)]
        ((k.rxSeq - m.seq).toNat < 2048 → exec (.laneSwitchApply p false) s = .next t) ∧ exec (.laneAck p m.lane) s = .next t)
  ) ∧
  (
    (∀ (s : State) (p : BitVec 3), p.toNat < 6 → s.portsOn = true → let k := rget s.lnk.ports p
      (k.state = 5 →
        (s.lnk.wdExpired = false → k.hbSent + 100000 ≤ s.ns → ∀ d, s.lnk.distance = some d →
          exec (.heartbeatSend p) s = .next
            ((s.setPort p { k with hbSent := s.ns }).reply 3 0x40 [p.toNat, s.modId.toNat, s.rcv.state.toNat, d + 1])) ∧
        (s.lnk.wdExpired = true → exec (.heartbeatSend p) s = .next s) ∧
        (∀ hold dist, exec (.heartbeat p hold dist) s = .next
          (s.setPort p { k with hbAt := s.ns, peerHold := hold, peerDist := dist.map BitVec.toNat }).chooseParent)) ∧
      (k.trained = true → s.rcv.jobId = 0 →
        let gone := (s.setPort p (k.untrain 3 s.ns)).tellPorts
        let out (cause : Nat) := (gone.raise 0x0704 .error [(1, p.toNat), (2, k.peerId), (1, cause)]).colPaths
        (k.state = 5 → k.hbAt + 800000 ≤ s.ns → exec (.heartbeatTimeout p) s = .next (out 2)) ∧
        (k.state = 5 → s.ns < k.hbAt + 800000 → exec (.heartbeatTimeout p) s = .next s) ∧
        (k.state = 5 → exec (.frameLockLoss p) s = .next (out 0)) ∧
        (k.state ≠ 5 → exec (.frameLockLoss p) s = .next (s.setPort p (k.untrain 0 s.ns)).tellPorts))) ∧
    ∀ s : State,
      (s.portsOn = true →
        exec .livenessProbe s = .next { s with lnk := { s.lnk with probes := s.lnk.probes + 1 } } ∧
        ∀ n, s.lnk.probes = n + 1 → exec .probeReturn s = .next
          { s with lnk := { s.lnk with probes := n, wdFed := s.ns, wdExpired := false } }) ∧
      (s.pwr.main = true →
        (s.lnk.wdFed + 100000 ≤ s.ns → exec .watchdogExpiry s = .next { s with lnk := { s.lnk with wdExpired := true } }) ∧
        (s.ns < s.lnk.wdFed + 100000 → exec .watchdogExpiry s = .next s))
  )

/-- Training of a port: widths, lanes, the planned state, and its events (R397, R398, R399, R400, R401, R404). -/
def Obligations.LinkTraining : Prop :=
  ∀ (s : State) (p : BitVec 3), p.toNat < 6 → s.portsOn = true → let k := rget s.lnk.ports p
    (k.state ≠ 5 → s.portUp p.toNat = ((s.setPort p
        { k with state := 5, hbAt := s.ns, hbSent := s.ns, peerDist := none }).raise 0x0701 .info
        [(1, p.toNat), (2, k.peerId), (1, k.level.toNat)]).tellPorts) ∧
    (k.state ≠ 4 → ∀ why, s.portQuarantine p.toNat why = ((s.setPort p
        { k with state := 4, reason := BitVec.ofNat 4 why }).raise 0x0703 .warning
        [(1, p.toNat), (1, why), (2, k.peerId), (1, k.peerPort)]).tellPorts) ∧
    (k.trained = false → ∀ (levels : BitVec 4) (asym : Int),
      let onSpare (m : BitVec 16) : Nat := ((List.range 16).filter fun i => m.getLsbD i).length
      let t := s.setPort p { k.untrain 1 k.trainAt with
        trained := true, level := if levels.getLsbD 3 then 3 else if levels.getLsbD 2 then 2 else 0
        sparesRx := BitVec.ofNat 2 (2 - min 2 (onSpare k.laneMap)), sparesTx := BitVec.ofNat 2 (2 - min 2 (onSpare k.laneMapTx)) }
      exec (.laneTrained p levels asym) s = .next
        (({ t with lnk := { t.lnk with ltAsym := s.lnk.ltAsym.put p.toNat asym } } : State).reply 3 0x50
          [p.toNat, s.modId.toNat, 12, s.lnk.planVer.toNat])) ∧
    (k.trained = true → k.state = 1 ∨ k.state = 4 → ∀ (id : BitVec 15) (port : BitVec 3) (levels : BitVec 4),
      let word := BitVec.ofNat 32 (levels.toNat * 2 ^ 28 + port.toNat * 2 ^ 18 + 2 ^ 15 + id.toNat)
      let why : Nat := if planKind k.planAct = 1 then 3 else if planKind k.planAct ≠ 2 then 4
        else if id.toNat ≠ planId k.planAct then 1 else if port.toNat ≠ planPort k.planAct then 2
        else if k.level = 0 then 5 else 0
      let ok := (s.setPort p { k with peer := word, accepted := true }).reply 3 0x51 [p.toNat]
      (why = 0 → k.peerAccepted = false → exec (.discover p id port levels) s = .next ok) ∧
      (why = 0 → k.peerAccepted = true → exec (.discover p id port levels) s = .next (ok.portUp p.toNat)) ∧
      (why ≠ 0 → exec (.discover p id port levels) s = .next
        (((s.setPort p { k with peer := word, accepted := false }).reply 3 0x52 [p.toNat, why]).portQuarantine p.toNat why))) ∧
    (k.trained = true →
      (k.accepted = false → exec (.accept p) s = .next (s.setPort p { k with peerAccepted := true })) ∧
      (k.accepted = true → exec (.accept p) s = .next ((s.setPort p { k with peerAccepted := true }).portUp p.toNat)) ∧
      exec (.reject p) s = .next ((s.setPort p { k with peerAccepted := false }).portQuarantine p.toNat
        (if k.accepted then 6 else k.reason.toNat))) ∧
    (k.trained = false → k.state = 0 ∨ k.state = 1 → k.trainAt + 100000000 ≤ s.ns →
      (planKind k.planAct = 1 → exec (.trainingTimeout p) s = .next (s.setPort p { k with state := 2 }).tellPorts) ∧
      (planKind k.planAct ≠ 1 → exec (.trainingTimeout p) s = .next ((s.setPort p { k with state := 3 }).raise 0x0702 .warning
        [(1, p.toNat), (2, planId k.planAct)]).tellPorts)) ∧
    (k.state = 2 ∨ k.state = 3 →
      (k.trainAt + 10000000 ≤ s.ns →
        exec (.retrainAttempt p) s = .next ((s.setPort p { k with trainAt := s.ns }).reply 3 0x101 [p.toNat])) ∧
      (s.ns < k.trainAt + 10000000 → exec (.retrainAttempt p) s = .next s)) ∧
    ∀ states, (k.level = 3 → exec (.peerPorts p states) s = .next (s.setPort p { k with peerPorts := states })) ∧
      (k.level ≠ 3 → exec (.peerPorts p states) s = .next s)

/-- Packets and credits, the route and plan tables, and the exchange of line time (R390, R391, R402, R403, R405, R406,
R407, R410, R411, R412, R414, R415). -/
def Obligations.PacketsTablesAndLineTime : Prop :=
  (
    (∀ (s : State) (p : BitVec 3) (vc : Bool), p.toNat < 6 → s.memRuns = true → let k := rget s.lnk.ports p
      k.trained = true → k.state = 5 → ∀ h more rest, (if vc then k.rx1 else k.rx0) = h :: more ++ rest →
      more.length + 1 = h.len →
      let out := (s.setPort p (if vc then { k with rx1 := rest } else { k with rx0 := rest })).reply 3 3
        [p.toNat, if vc then 1 else 0, h.len]
      let run := exec (.packetForward p vc (BitVec.ofNat 16 h.dst) (BitVec.ofNat 16 h.src) (BitVec.ofNat 8 h.cls) h.rtv h.det
        (BitVec.ofNat 8 h.hops) (BitVec.ofNat 16 h.len)) s
      (h.hops = 63 → run = .next (out.dropPacket p.toNat h.dst 2)) ∧
      (h.hops ≠ 63 → s.route h.dst h.rtv h.det = .deliver →
        run = .next (out.reply 3 0x102 [p.toNat, h.dst, h.src, h.cls, h.len] ((h :: more).flatMap Flit.data))) ∧
      (h.hops ≠ 63 → ∀ cause, s.route h.dst h.rtv h.det = .drop cause → run = .next (out.dropPacket p.toNat h.dst cause)) ∧
      (h.hops ≠ 63 → ∀ (q : BitVec 3) (v : Bool), s.route h.dst h.rtv h.det = .send q.toNat v → let j := rget s.lnk.ports q
        (h.len ≤ (if v then j.cr1 else j.cr0) → j.buf.length + h.len ≤ 1024 →
          run = .next ((out.setPort q ((rget out.lnk.ports q).sendFlits v (h.onward v :: more))).reply 3 0x103
            [q.toNat, if v then 1 else 0, h.dst, h.src, h.cls, if h.rtv then 1 else 0, h.hops + 1, h.len])) ∧
        ((if v then j.cr1 else j.cr0) < h.len → run = .next s))) ∧
    ∀ s : State, s.portsOn = true → ∀ v : BitVec 32, v.getLsbD 0 = true →
      ((∀ k ∈ s.lnk.ports.toList, planKind k.planShd ≠ 3) →
        let new : State := { s with lnk := { s.lnk with
          ports := s.lnk.ports.map fun k => { k with planAct := k.planShd }, planVer := s.lnk.planVer + 1 } }
        let t := (List.range 6).foldl State.replan new
        exec (.lnkPlanCommit v) s = .next (t.raise 0x0707 .info [(4, (s.lnk.planVer + 1).toNat),
          (1, ((List.range 6).filter fun p => (t.port p).state ≠ (((List.range 6).map fun p => (s.port p).state)[p]?).getD 0).length)])) ∧
      (s.rcv.releaseDue = false → exec (.lnkRtCommit v) s = .next
        (({ s with lnk := { s.lnk with rtVer := s.lnk.rtVer + 1, rtCopy := !s.lnk.rtCopy } } : State).raise 0x0708 .info
          [(4, (s.lnk.rtVer + 1).toNat), (1, if !s.lnk.rtCopy then 1 else 0)])) ∧
      ∀ p : BitVec 3, p.toNat < 6 → let k := rget s.lnk.ports p
        (k.trained = true → k.seen = true → k.rejects = 0 → k.accepted = true → k.peerAccepted = false → s.replan p.toNat = s) ∧
        (k.trained = true → k.seen = true → k.rejects ≠ 0 → k.accepted = true → s.replan p.toNat =
          ((s.setPort p { k with accepted := false }).reply 3 0x52 [p.toNat, k.rejects]).portQuarantine p.toNat k.rejects)
  ) ∧
  (
    ∀ s : State, s.portsOn = true → let l := s.lnk
      (l.hasParent = true → l.up l.ltParent.toNat = true → (∀ t1, l.ltSent = some t1 → t1 + 128000 ≤ s.lt8) →
        exec .ltSyncSend s = .next (({ s with lnk := { l with ltSent := some s.lt8 } } : State).reply 3 0x20 [l.ltParent.toNat])) ∧
      (∀ p : BitVec 3, p.toNat < 6 → (rget l.ports p).trained = true →
        exec (.ltSyncRequest p) s = .next (s.reply 3 0x21 [p.toNat, s.lt8, s.lt8])) ∧
      (∀ (t1 t2 t3 : Nat) (o : Int), l.hasParent = true → l.ltSent = some t1 →
        o = (((t2 : Int) - t1) - ((s.lt8 : Int) - t3)) / 2 - l.ltAsym.at 0 l.ltParent.toNat →
        -32768 ≤ o → o ≤ 32767 →
        let heard : LnkState := { l with ltRate := max (-200) (min 200 (o * 78125 / 10000)), ltOffset := BitVec.ofInt 16 o }
        (l.ltState = 2 → ∀ b, exec (.ltSyncAnswer t2 t3 b) s = .next { s with lnk := heard }) ∧
        (exec (.ltSyncAnswer t2 t3 false) s = .next { s with lnk := heard }) ∧
        (l.ltState ≠ 2 → -8000 ≤ o → o ≤ 8000 → exec (.ltSyncAnswer t2 t3 true) s = .next
          (({ s with lnk := { heard with ltState := 2 } } : State).raise 0x070A .info
            [(1, l.ltParent.toNat), (1, l.ltDist.toNat), (8, 0)])) ∧
        (l.ltState ≠ 2 → 8000 < o → exec (.ltSyncAnswer t2 t3 true) s = .next
          (({ s with lt8 := s.lt8 + o.toNat, lnk := { heard with ltState := 2, ltRate := 0, ltSent := none } } : State).raise
            0x070A .info [(1, l.ltParent.toNat), (1, l.ltDist.toNat), (8, o.toNat / 8)])) ∧
        (l.ltState ≠ 2 → l.ltState ≠ 4 → o < -8000 → exec (.ltSyncAnswer t2 t3 true) s = .next
          (({ s with lnk := { heard with ltState := 4 } } : State).raise 0x070B .error
            [(1, l.ltParent.toNat), (8, (-o).toNat / 8)]))) ∧
      (l.backupRoot = s.modId.toNat → exec (.ltParentLost true) s = .next
        { s with lnk := { l with ltState := 5, ltParent := 7, ltDist := 0, ltRate := 0, ltSent := none } }) ∧
      (l.hasParent = true → l.up l.ltParent.toNat = false → l.rootId ≠ 0x7FFF →
        (l.bestParent = none → exec (.ltParentLost false) s = .next { s with lnk := { l with ltState := 3, ltParent := 7, ltSent := none } }) ∧
        ∀ p d, l.bestParent = some (p, d) → l.ltParent.toNat ≠ p → exec (.ltParentLost false) s = .next
          (({ s with lnk := { l with ltParent := BitVec.ofNat 3 p, ltDist := BitVec.ofNat 6 (min 63 (d + 1)), ltSent := none } } : State).raise
            0x070C .info [(1, l.ltParent.toNat), (1, p), (1, min 63 (d + 1)), (2, l.rootId)])) ∧
      (∀ (die : BitVec 3) (cluster : BitVec 4) (dev : BitVec 6), cluster.toNat < 9 → -16 ≤ dev.toInt → dev.toInt ≤ 16 →
        let b := 16 * die.toNat + cluster.toNat
        exec (.ltRealign die cluster dev) s = .next (s.setBox b { s.box b with ltDev := dev.toInt })) ∧
      (l.ltState = 5 →
        (∀ v : BitVec 64, (s.lt8 ≤ 8 * v.toNat → exec (.rootLineTimeSet v) s = .next { s with lt8 := 8 * v.toNat }) ∧
          (8 * v.toNat < s.lt8 → exec (.rootLineTimeSet v) s = .next s)) ∧
        ∀ (eth : Bool) (o : Int), (if eth then l.speed1 else l.speed0) ≠ 0 →
          exec (.ieee1588Sync eth o) s = .next { s with lnk := { l with ltRate := max (-200) (min 200 (o * 78125 / 10000)) } })
  )

/-- The Ethernet ports, flow control, queue pairs, memory regions and the RDMA writes of the island stage (R25, R408,
R409, R417, R431, R432). -/
def Obligations.EthernetAndRdma : Prop :=
  (∀ (s : State) (qp addr : Nat) (key : BitVec 32) (q : QueuePair), s.memRuns = true → s.lnk.ethUp = true →
    s.lnk.qps.find qp = some q →
    let refused := ({ s with lnk := { s.lnk with ethRefused := satInc s.lnk.ethRefused } } : State).reply 7 1 [qp]
    let up := q.failed = false ∧ (if q.port then s.lnk.speed1 else s.lnk.speed0) ≠ 0
    let covered (n : Nat) := ∃ r ∈ s.lnk.regions, r.2.key = key ∧ r.2.base ≤ addr ∧ addr + n ≤ r.2.base + r.2.len
    (∀ data : List Byte, (up → covered data.length → s.mem.snoop = [] → s.mem.paused = [] →
        exec (.rdmaRemoteWrite qp key addr data) s = .next
          (({ s with mem := s.mem.writeHbm addr (data.map fun b => (b, false)) } : State).reply 7 0 [qp])) ∧
      (¬ up ∨ ¬ covered data.length → exec (.rdmaRemoteWrite qp key addr data) s = .next refused)) ∧
    ∀ n, (up → covered n → s.mem.snoop = [] → s.mem.paused = [] → (∀ i < n, (addr + i) / 32 ∉ s.mem.poison) →
        exec (.rdmaRemoteRead qp key addr n) s = .next
          (s.reply 7 2 [qp, addr] ((List.range n).map fun i => s.mem.hbm.get 0 (addr + i)))) ∧
      (¬ up ∨ ¬ covered n → exec (.rdmaRemoteRead qp key addr n) s = .next refused)) ∧
  (∀ s : State, s.memRuns = true →
    (∀ dst data, dst + data.length ≤ 1152000000000 → s.mem.snoop = [] → s.mem.paused = [] → exec (.rdmaWorkCompletion none true dst data) s = .next
      { s with mem := s.mem.writeHbm dst (data.map fun b => (b, false)) }) ∧
    ∀ w ∈ s.lnk.work, (∀ v ∈ s.lnk.work, v.id = w.id → v = w) → ∀ o, s.col.find w.group w.n w.slot = some o →
      let t : State := { s with lnk := { s.lnk with work := s.lnk.work.filter fun v => v.id ≠ w.id } }
      ∀ dst data, exec (.rdmaWorkCompletion (some w.id) true dst data) s = .next (t.colPut { o with unacked := o.unacked - 1 }) ∧
        exec (.rdmaWorkCompletion (some w.id) false dst data) s = .next (t.endOp o 4 s.modId.toNat).admitAll) ∧
  (∀ s : State, s.portsOn = true → let l := s.lnk
    (∀ speed : BitVec 2, speed ≠ 3 →
      let t (l' : LnkState) (eth : Nat) := ({ s with lnk := l' } : State).raise 0x070D .warning
        [(1, eth), (1, speed.toNat), (1, if speed = 0 then 0 else 1)]
      let after (u : State) : State := if u.lnk.ethUp then u else u.colPaths
      exec (.ethLinkChange false speed) s = .next (after (t { l with speed0 := speed } 0)) ∧
      exec (.ethLinkChange true speed) s = .next (after (t { l with speed1 := speed } 1))) ∧
    (∀ qp, exec (.congestionNotification qp) s = .next { s with lnk := { l with cnp := l.cnp.put qp (l.cnp.at 0 qp + 1) } }) ∧
    (∀ p : BitVec 3,
      exec (.priorityFlowControl false p true) s = .next { s with lnk := { l with pause0 := l.pause0 ||| (1#8 <<< p.toNat) } } ∧
      exec (.priorityFlowControl true p true) s = .next { s with lnk := { l with pause1 := l.pause1 ||| (1#8 <<< p.toNat) } } ∧
      exec (.priorityFlowControl false p false) s = .next { s with lnk := { l with pause0 := l.pause0 &&& ~~~(1#8 <<< p.toNat) } } ∧
      exec (.priorityFlowControl true p false) s = .next { s with lnk := { l with pause1 := l.pause1 &&& ~~~(1#8 <<< p.toNat) } }) ∧
    ∀ (num base len : Nat) (key : BitVec 32) (eth : Bool) (peer : BitVec 24),
      (num < 16384 → exec (.queuePairSetup false num base len key eth peer) s = .next
        { s with lnk := { l with qps := l.qps.put num ⟨eth, peer.toNat, false⟩ } }) ∧
      (num < 4096 → ∀ t ∈ s.mem.tensors, t.pinned = true → t.lost = false → ∀ ex, t.loc = .hbm ex →
        (∃ e ∈ ex, e.1 ≤ base ∧ base + len ≤ e.1 + e.2) →
        exec (.queuePairSetup true num base len key eth peer) s = .next
          { s with lnk := { l with regions := l.regions.put num ⟨base, len, key⟩ } })) ∧
  (∀ (s : State) (eth : Bool) (src : BitVec 15) (g : BitVec 12) (ver : BitVec 16) (n stage off : BitVec 32) (data : List Byte)
      (bad : List Nat), let run := exec (.islandRdmaWrite eth src g ver n stage off data bad) s
    ((if eth then s.lnk.speed1 else s.lnk.speed0) ≠ 0 → bitsOf stage.toNat 30 29 = 3 →
      (s.lnk.qps.find ((s.group g.toNat).f 7 23 0) ≠ none →
        run = .next (s.colData (ColHdr.of src g ver n stage) off.toNat (lanePoison data bad))) ∧
      (s.lnk.qps.find ((s.group g.toNat).f 7 23 0) = none →
        run = .next { s with lnk := { s.lnk with ethRefused := satInc s.lnk.ethRefused } })) ∧
    ((if eth then s.lnk.speed1 else s.lnk.speed0) = 0 ∨ bitsOf stage.toNat 30 29 ≠ 3 → run = .next s)) ∧
  ∀ (s : State) (id : BitVec 15), exec (.moduleIdAssign id) s = .next { s with modId := id }

/-- Packets of a collective operation: DATA, ACK, ABORT, timeouts, contributions, the group table and the end of an
operation (R423, R424, R425, R427, R428, R432, R433, R435, R437, R438). -/
def Obligations.CollectivePackets : Prop :=
  (∀ (s : State) (src : BitVec 15) (g : BitVec 12) (ver : BitVec 16) (n stage : BitVec 32), s.memRuns = true →
    let slot := bitsOf stage.toNat 10 0
    let v := ver.toNat
    (∀ o, s.col.find g.toNat n.toNat slot = some o → v = o.entry.f 0 15 0 →
      (∀ (off : BitVec 32) data bad,
        let h := ColHdr.of src g ver n stage
        exec (.colData src g ver n stage off data bad) s = .next
          (((s.reply 4 3 [g.toNat, v, n.toNat, stageWord (stage.getLsbD 31) (bitsOf stage.toNat 30 29) (bitsOf stage.toNat 28 16) slot,
            off.toNat, src.toNat]).colPut { o.take ((s.groupStages o.entry).getD []) h off.toNat (lanePoison data bad) with
              since := s.ns }).colPaths)) ∧
      exec (.colAck src g ver n stage) s = .next (s.colPut { o with unacked := o.unacked - 1 })) ∧
    (∀ o, s.col.find g.toNat n.toNat slot = some o → v ≠ o.entry.f 0 15 0 →
      let said := s.raise 0x0804 .warning [(2, g.toNat), (2, v), (2, o.entry.f 0 15 0), (2, src.toNat)]
      ∀ off data bad,
        exec (.colData src g ver n stage off data bad) s = .next (said.endOp o 3 s.modId.toNat).admitAll ∧
        exec (.colAck src g ver n stage) s = .next (said.endOp o 3 s.modId.toNat).admitAll) ∧
    ((s.group g.toNat).mode ≠ 0 →
      (∀ o, s.col.find g.toNat n.toNat slot = some o →
        exec (.colAbort src g ver n stage) s = .next (s.endOp o 1 src.toNat).admitAll) ∧
      (s.opGone g.toNat n.toNat slot = true → ∀ off data bad,
        exec (.colData src g ver n stage off data bad) s = .next s ∧ exec (.colAck src g ver n stage) s = .next s ∧
        exec (.colAbort src g ver n stage) s = .next s) ∧
      (s.opGone g.toNat n.toNat slot = false → s.col.find g.toNat n.toNat slot = none → v = (s.group g.toNat).f 0 15 0 →
        ∀ off data bad, exec (.colData src g ver n stage off data bad) s = .next { s with col := { s.col with
          early := s.col.early ++ [⟨ColHdr.of src g ver n stage, off.toNat, lanePoison data bad⟩] } }))) ∧
  (∀ (o : ColOp) (st : List RingStage) (h : ColHdr) (off : Nat) (bytes : List (Byte × Bool)) (r : RingStage) (i : Nat),
    o.cop ≠ 5 → st.zipIdx.find? (fun x => x.1.code = h.code) = some (r, i) →
    let c := cutShare o.granule (o.region st i) r.n (ringArrival r h.gather h.step)
    let a := max c.1 (256 * off)
    a + bytes.length ≤ min c.2 o.data.length →
      (o.take st h off bytes).data = splice o.data a (if h.gather then bytes
        else combineData o.fmt o.cfn ((o.data.drop a).take bytes.length) bytes)) ∧
  (∀ (s : State) (g : BitVec 12) (n : BitVec 32) (slot : BitVec 11) (o : ColOp), s.memRuns = true →
    s.col.find g.toNat n.toNat slot.toNat = some o →
    (s.ns < o.since + s.col.timeout → exec (.colOpTimeout g n slot) s = .next s) ∧
    (o.since + s.col.timeout ≤ s.ns → o.finished ((s.groupStages o.entry).getD []) = false →
      exec (.colOpTimeout g n slot) s = .next (s.endOp o 2 s.modId.toNat).admitAll)) ∧
  (∀ (s : State) (c : Contribution) (rest : List Contribution), s.memRuns = true → s.col.coming = c :: rest →
    s.mixedGroup = false →
    let key := c.group * 1024 + c.slot
    let n := s.col.issued.at 0 key
    let t : State := { s with col := { s.col with issued := s.col.issued.put key (n + 1), coming := rest } }
    (t.opGone c.group n c.slot = true → exec .colContribution s = .next (t.endPart c stPath)) ∧
    (t.opGone c.group n c.slot = false → exec .colContribution s = .next
      (({ t with col := { t.col with waiting := t.col.waiting ++ [(c, n)] } } : State).admitAll).colPaths)) ∧
  (∀ (s : State) (v : BitVec 32), s.pwr.main = true → v.getLsbD 0 = true →
    (∀ e ∈ s.col.shadow, e.2.fault = none) →
    (s.col.shadow.map fun e => if e.2.mode = 0 then 0 else e.2.nwords).sum ≤ 1048576 →
    (∀ k, GEntry.ver (s.col.active.at [] k) = GEntry.ver (s.col.shadow.at [] k)) →
      exec (.colGtCommit v) s = .next ((({ s with col := { s.col with
        active := s.col.shadow, gtVer := s.col.gtVer + 1 } } : State).raise 0x0802 .info
        [(4, (s.col.gtVer + 1).toNat), (2, 0)]).admitAll)) ∧
  ∀ (s : State) (o : ColOp) (cause source : Nat), s.endOp o cause source = o.parts.foldl (fun s c => s.endPart c stPath)
    ((({ s with col := ColState.countEnd { s.col with
        ops := s.col.ops.filter fun x => ¬(x.group = o.group ∧ x.n = o.n ∧ x.slot = o.slot) } cause } : State).sendAborts o.group o.entry o.n o.slot).raise 0x0801 .error
      [(2, o.group), (4, o.n), (2, o.slot), (1, cause), (2, source)])

/-- Holds: a module's own, those it hears and floods, how its state takes them, and the HELD report (R441, R442, R443,
R444, R445, R446, R457, R466). -/
def Obligations.RecoveryHolds : Prop :=
  (∀ s : State, s.rcv.jobId ≠ 0 → s.rcv.selfFailed = false → s.pwr.main = true →
    let own := s.modId.toNat
    let msg (cause failed : Nat) : HoldMsg := ⟨false, cause, s.rcv.jobId, own, s.rcv.oseq.toNat, 0, failed, 0xFF, 0, s.ns⟩
    let sent (cause failed : Nat) : State :=
      ((({ s with rcv := { s.rcv with oseq := s.rcv.oseq + 1 } } : State).noteKey (msg cause failed)).floodHold
        (msg cause failed) 8).takeHold (msg cause failed)
    (∀ failed : BitVec 15, exec (.holdRequest failed) s = .next (sent 3 failed.toNat)) ∧
    exec .ownFaultHold s = .next { sent 1 own with rcv := { (sent 1 own).rcv with selfFailed := true } }) ∧
  (∀ (s : State) (p : BitVec 3), p.toNat < 6 → s.pwr.main = true → s.lnk.up p.toNat = true →
    ∀ (job : BitVec 16) (origin : BitVec 15) (oseq : BitVec 8) (lt : BitVec 64),
    (∀ (cause : BitVec 4) (failed : BitVec 15) (fport : BitVec 8),
      let m : HoldMsg := ⟨false, cause.toNat, job.toNat, origin.toNat, oseq.toNat, 0, failed.toNat, fport.toNat, 0, lt.toNat⟩
      ((origin.toNat, oseq.toNat) ∉ s.lnk.holdKeys → exec (.hold p job origin oseq cause failed fport lt) s = .next
        (((s.noteKey m).floodHold m p.toNat).takeHold m)) ∧
      ((origin.toNat, oseq.toNat) ∈ s.lnk.holdKeys → exec (.hold p job origin oseq cause failed fport lt) s = .next s)) ∧
    (∀ (round : BitVec 8) (epoch : BitVec 32),
      let m : HoldMsg := ⟨true, 0, job.toNat, origin.toNat, oseq.toNat, round.toNat, 0x7FFF, 0xFF, epoch.toNat, lt.toNat⟩
      ((origin.toNat, oseq.toNat) ∉ s.lnk.holdKeys → exec (.release p job origin oseq round epoch lt) s = .next
        (((s.noteKey m).floodHold m p.toNat).takeRelease m)) ∧
      ((origin.toNat, oseq.toNat) ∈ s.lnk.holdKeys → exec (.release p job origin oseq round epoch lt) s = .next s))) ∧
  (∀ (s : State) (m : HoldMsg),
    (m.job ≠ s.rcv.jobId → s.takeHold m = s ∧ s.takeRelease m = s) ∧
    (m.job = s.rcv.jobId → s.rcv.jobId ≠ 0 → s.dbg.braked = false → s.rcv.selfFailed = false →
      let said := s.raise 0x0901 .error [(2, m.origin), (1, m.oseq), (1, m.cause), (2, m.failed), (1, m.fport)]
      (s.hif.fwUp = false →
        s.takeHold m = { said with rcv := { said.rcv with deferred := said.rcv.deferred ++ [(m.cause, m.failed, m.lt)] } }) ∧
      (s.hif.fwUp = true → s.rcv.state = 0 ∨ s.rcv.state = 4 ∨ s.rcv.state = 5 ∧ m.cause = 3 ∨
          s.rcv.state = 3 ∧ s.planNames m.failed = false →
        s.takeHold m = said.enterHolding m.cause m.failed m.lt) ∧
      (s.hif.fwUp = true → s.rcv.state = 1 ∨ s.rcv.state = 2 → s.takeHold m = said.hearFailed m.failed) ∧
      (s.hif.fwUp = true → s.rcv.state = 3 ∧ s.planNames m.failed = true ∨ s.rcv.state = 5 ∧ m.cause ≠ 3 →
        s.takeHold m = said) ∧
      (m.round = s.rcv.round.toNat → s.takeRelease m = s.release) ∧
      (m.round ≠ s.rcv.round.toNat → s.takeRelease m = s))) ∧
  ∀ s : State, s.rcv.state = 1 → s.rcv.selfFailed = false → (∀ t ∈ s.dsp.tasks, t.started = false) →
    (∀ i : BitVec 3, i.toNat < 6 → (rget s.arbLnk i).pending = false) → s.pwr.main = true → s.hif.fwUp = true →
    s.dbg.braked = false → s.rcv.saved = none → s.rcv.coordId ≠ 0x7FFF → s.rcv.coordId ∉ s.rcv.heard →
    s.rcv.coordId ≠ s.modId.toNat → s.rcv.backupId = s.rcv.coordId ∨ s.rcv.backupId = 0x7FFF →
    s.rcv.backupId ≠ s.modId.toNat →
    let tables := (List.range 6).map fun i => (rget s.arbLnk (BitVec.ofNat 3 i)).act
    let raise2 (t : Timetable) : Timetable :=
      { t with tok := rset t.tok 0 ((rget t.tok 0 &&& 0xFF00FFFF) ||| 0x00400000) }
    ∃ arb : Vector ArbBlock (2 ^ 3),
      (∀ i : BitVec 3, i.toNat < 6 → rget arb i =
        { rget s.arbLnk i with shd := raise2 (rget s.arbLnk i).act, pending := true }) ∧
      (∀ i : BitVec 3, 6 ≤ i.toNat → rget arb i = rget s.arbLnk i) ∧
      exec .heldReached s = .next ((({ s with arbLnk := arb
                                              rcv := { s.rcv with state := 2, saved := some tables, heldLt := s.ns } } : State).raise
        0x0902 .info [(1, s.rcv.round.toNat), (8, s.committed)]).sendRec 1 s.rcv.coordId s.committed
          (s.rcv.heard.length :: s.rcv.heard))

/-- A recovery round: reports, the wait and the backup, the plan, READY, rebuilding, the commit, STOP and the return
(R446, R447, R454, R455, R456, R457, R458, R459, R466). -/
def Obligations.RecoveryRounds : Prop :=
  ∀ (s : State) (job : BitVec 16), s.recRuns job = true → let r := s.rcv
    let own := s.modId.toNat
    let set (r' : RecState) : State := { s with rcv := r' }
    (r.coordId = own ∨ r.backupId = own → r.state = 1 ∨ r.state = 2 → ∀ (src : BitVec 15) (epoch : BitVec 64) heard,
      exec (.heldReport src r.round job epoch heard) s = .next (s.collectReport src.toNat epoch.toNat (heard.map BitVec.toNat))) ∧
    (r.state = 2 → r.planned = false → ∀ t, r.firstReport = some t →
      (t + 50000000 ≤ s.ns → exec .reportWaitTimeout s = .next (set { r with
        failedSet := (s.jobIds.filter fun m => !(r.reports.any fun x => x.1 == m)).foldl setIns r.failedSet }).tryPlan) ∧
      (s.ns < t + 50000000 → exec .reportWaitTimeout s = .next s)) ∧
    (r.state = 2 → r.backupId = own →
      (r.heldLt + 100000000 ≤ s.ns → exec .backupTakeover s = .next (set { r with acting := true }).tryPlan) ∧
      (s.ns < r.heldLt + 100000000 → exec .backupTakeover s = .next s)) ∧
    (r.state = 2 → ∀ (src : BitVec 15) (round : BitVec 8) (epoch : BitVec 64) pairs drops,
      let nat (l : List (BitVec 15 × BitVec 15)) : List (Nat × Nat) := l.map fun p => (p.1.toNat, p.2.toNat)
      let t := ((set { r with state := 3, round := round, epoch := epoch.toNat, pairs := nat pairs, drops := nat drops }).substituteAll
        (nat pairs)).raise 0x0903 .info [(1, round.toNat), (8, epoch.toNat), (2, ((nat pairs).head?.map Prod.fst).getD 0x7FFF),
          (2, ((nat pairs).head?.map Prod.snd).getD 0x7FFF)]
      exec (.plan src round job epoch pairs drops) s = .next (t.sendRec 3 src.toNat epoch.toNat [])) ∧
    (r.planned = true → ∀ src : BitVec 15,
      (src.toNat ∉ r.readys → exec (.ready src r.round job) s = .next
        (set { r with readys := setIns r.readys src.toNat }).whenReady) ∧
      (src.toNat ∈ r.rebuilding → exec (.rebuilt src r.round job) s = .next
        (set { r with rebuilding := r.rebuilding.erase src.toNat }).nextRebuild)) ∧
    (r.state = 3 ∨ r.state = 4 →
      (∀ pos spare : BitVec 15, s.own ∉ s.parIds pos.toNat →
        let t := set { r with state := 4, current := some (pos.toNat, spare.toNat), rebuildAt := s.ns }
        (t.chain true 0).head? ≠ some own → exec (.rebuildGo r.round job pos spare) s = .next t) ∧
      exec (.recCommit r.round job) s = .next s.recCommit ∧
      (r.saved = none → s.protects = true → r.pairs = [] →
        s.recCommit = ((s.setHeader 8 8 r.epoch).setHeader 16 8 r.epoch).setHeader 0 8 r.epoch) ∧
      (s.coordinates = false → ∀ reason : BitVec 8, exec (.stop r.round job reason) s = .next
        ((set { r with state := 5 }).raise 0x0906 .error [(1, r.round.toNat), (1, reason.toNat)])) ∧
      let ms := min 0xFFFF ((s.ns - r.detectLt) / 1000000)
      let back : RecState := { r with
        state := 0, lastMs := BitVec.ofNat 16 ms, count := satInc r.count, saved := none, heard := [], reports := []
        firstReport := none, failedSet := [], readys := [], rebuilding := [], current := none, relays := [], slicesDone := []
        planned := false, acting := false, releaseDue := false }
      s.release = ({ s with rcv := back, col := { s.col with issued := [], turn := [], dead := [], early := [] } } : State).raise 0x0905 .info
        [(1, r.round.toNat), (8, r.epoch), (2, ms)]) ∧
    ∀ (round : BitVec 8), round ≠ r.round → ∀ src epoch heard pos spare reason,
      exec (.heldReport src round job epoch heard) s = .next s ∧ exec (.ready src round job) s = .next s ∧
      exec (.rebuildGo round job pos spare) s = .next s ∧ exec (.rebuilt src round job) s = .next s ∧
      exec (.recCommit round job) s = .next s ∧ exec (.stop round job reason) s = .next s

/-- The relay operations of parity: refreshing, committing and rebuilding an epoch slice by slice (R448, R449, R450,
R451, R452, R453, R459). -/
def Obligations.RelayParity : Prop :=
  ∀ s : State, s.relayRuns = true → let r := s.rcv
    let own := s.modId.toNat
    let next (sl : BitVec 4) (rb : Bool) (k : Nat) : Nat := ((s.chain rb sl.toNat)[k]?).getD 0x7FFF
    let op (sl : BitVec 4) (rb : Bool) (e : Nat) : RelayOp := (s.relay rb sl.toNat).getD ⟨rb, sl.toNat, BitVec.ofNat 32 e, 0, 0⟩
    (r.state = 0 → s.committed < s.written →
      ((s.parIds own).head? = some own → r.relays = [] → s.slotsHeld + r.slices ≤ 32 →
        exec .writtenUpdate s = .next ((List.range r.slices).foldl (fun u q => u.sendFirst false q s.written) s)) ∧
      ((s.parIds own).head? ≠ some own →
        exec .writtenUpdate s = .next (r.early.foldl State.refresh { s with rcv := { r with early := [] } }))) ∧
    (r.state = 0 → s.written ≤ s.committed → exec .writtenUpdate s = .next s) ∧
    (r.state = 0 → ∀ (src : BitVec 15) (sl stage : BitVec 4) (e off : BitVec 32) (fmt : BitVec 8) crcs data bad,
      (s.parIds own)[stage.toNat + 1]? = some own → s.committed < s.fullEpoch e → s.slotsHeld < 32 →
      let c := off.toNat / 256
      let bytes := lanePoison data bad
      let step := exec (.refresh src sl stage e off fmt crcs data bad) s
      (stage = 14 → step = .next ((s.sendRelay 3 sl.toNat 15 (s.fullEpoch e) c src.toNat [] []).holderChunk sl.toNat (s.fullEpoch e) c
        fmt.toNat (crcs.map BitVec.toNat) bytes)) ∧
      (stage ≠ 14 → s.written < s.fullEpoch e → step = .next { s with rcv := { r with early := r.early ++
        [⟨sl.toNat, stage.toNat, e, c, fmt.toNat, crcs.map BitVec.toNat, bytes, src.toNat⟩] } }) ∧
      (stage ≠ 14 → s.fullEpoch e ≤ s.written →
        let mine := s.readChunk (s.fullEpoch e) (s.sliceLo r.slices sl.toNat + c)
        let q := (s.relay false sl.toNat).getD ⟨false, sl.toNat, e, 0, 0⟩
        step = .next (((s.putRelay { q with chunk := q.chunk + 1, unacked := q.unacked + 1 }).sendRelay 3 sl.toNat
          (stage.toNat + 1) (s.fullEpoch e) c src.toNat [] []).sendRelay 1 sl.toNat (stage.toNat + 1) (s.fullEpoch e) c
            (((s.parIds own)[stage.toNat + 2]?).getD 0x7FFF)
            (if fmt = 2 then crcs.map BitVec.toNat ++ [(crc32c mine).toNat] else [])
            (xorRun bytes mine)))) ∧
    (r.state = 0 → ∀ (e : BitVec 32) (fmt : BitVec 8), let ep := s.fullEpoch e
      ∀ t, t = ((s.setHeader 8 8 ep).setHeader (24 + 8 * (ep % 2)) 8 ep).setHeader (40 + ep % 2) 1 fmt.toNat →
      exec (.parityCommit e fmt) s = .next
        { t with rcv := { t.rcv with relays := t.rcv.relays.filter fun q => q.rebuild, slicesDone := [] }
                 col := { t.col with coming := t.col.coming ++ [⟨.epoch, 0, 1, 2, r.epochGroup, 0, 0, 0, 0, 0, false⟩] } }) ∧
    (∀ o c, s.finishedFor (fun c => c.origin == .epoch) = some (o, c) →
      let job := (BitVec.ofInt 64 ((s.jobEpoch : Int) + signedOf 32 (leNat ((o.data.take 4).map Prod.fst)))).toNat
      let t := (s.setHeader 16 8 job).finishPart o c
      exec .jobEpochReduced s = .next
        (t.raise 0x0908 .info [(2, r.parGroup), (4, s.committed % 2 ^ 32), (4, job % 2 ^ 32)])) ∧
    (r.state = 4 → ∀ pos spare, r.current = some (pos, spare) → ∀ (src : BitVec 15) (sl stage : BitVec 4) (off : BitVec 32)
        (fmt : BitVec 8) (ck : BitVec 32) data bad,
      let ids := s.chain true sl.toNat
      ids[stage.toNat + 1]? = some own →
      let c := off.toNat / 256
      let bytes := lanePoison data bad
      let said := s.sendRelay 3 sl.toNat (stage.toNat + 1) r.epoch c src.toNat [] []
      let step := exec (.rebuild src sl stage off fmt ck data bad) s
      (own = spare → stage.toNat + 2 = ids.length → step = .next (said.spareChunk pos sl.toNat c fmt.toNat ck bytes)) ∧
      (stage.toNat + 4 < ids.length → let q := op sl true r.epoch
        step = .next ((said.putRelay { q with chunk := q.chunk + 1, unacked := q.unacked + 1 }).sendRelay 2 sl.toNat
          (stage.toNat + 1) r.epoch c (next sl true (stage.toNat + 2)) [ck.toNat]
          (xorRun bytes (s.readChunk r.epoch (s.sliceLo (s.sliceCount true) sl.toNat + c)))))) ∧
    (∀ (rb : Bool) (sl : BitVec 4) (q : RelayOp), s.relay rb sl.toNat = some q →
      let t := s.putRelay { q with unacked := q.unacked - 1 }
      ((s.chain rb sl.toNat).head? = some own → exec (.relayAck rb sl) s = .next
        (t.sendFirst rb sl.toNat (if rb then r.epoch else s.fullEpoch q.epoch))) ∧
      ((s.chain rb sl.toNat).head? ≠ some own →
        (q.chunk < s.sliceChunks rb sl.toNat ∨ 1 < q.unacked → exec (.relayAck rb sl) s = .next t) ∧
        (s.sliceChunks rb sl.toNat ≤ q.chunk → q.unacked ≤ 1 → exec (.relayAck rb sl) s = .next (t.dropRelay rb sl.toNat))) ∧
      let k := (s.chain rb sl.toNat).idxOf own
      ((s.chain rb sl.toNat)[k + 1]? = none → exec (.relayAbort rb sl) s = .next (s.dropRelay rb sl.toNat)) ∧
      ∀ n, (s.chain rb sl.toNat)[k + 1]? = some n → s.reachable n = true → exec (.relayAbort rb sl) s = .next
        ((s.dropRelay rb sl.toNat).reply 5 5 [r.parGroup, r.fmt, sl.toNat, k, q.epoch.toNat, 0, n, 0])) ∧
    ∀ (t : State) kind slice stage e off dst crcs (data : List (Byte × Bool)), (∀ b ∈ data, b.2 = false) →
      t.reachable dst = true → t.sendRelay kind slice stage e off dst crcs data = t.reply 5 kind
        ([t.rcv.parGroup, t.rcv.fmt, slice, stage, e % 2 ^ 32, 256 * off, dst, crcs.length] ++ crcs) (data.map Prod.fst)

/-- The supplies: presence, inrush, warnings, resets and overvoltage; the temperatures: throttle, warning, trip and
cool-down (R468, R471, R474, R475, R476, R477, R478, R479, R488, R492, R495). -/
def Obligations.PowerInputsAndTemperatures : Prop :=
  (
    ∀ s : State, let p := s.pwr
      (p.aux = false → ∀ slot, exec (.aux12vPresent slot) s = .next
        { s with pwr := { p with aux := true, bandFrom := s.ns }, fw := { s.fw with slotId := slot } }) ∧
      (p.aux = true → (∀ slot, exec (.aux12vPresent slot) s = .next s) ∧
        ∃ t, exec .aux12vAbsent s = .next t ∧ t.pwr.aux = false ∧ t.pwr.main = false ∧ t.pwr.grant = none ∧
          t.pwr.capLocal = p.capLocal ∧ t.pwr.fallback = p.fallback ∧ t.pwr.resets = p.resets ∧ t.mem.hbm = [] ∧
          t.fw.floor = s.fw.floor ∧ t.fw.minKey = s.fw.minKey ∧ t.fw.staged = none ∧ t.fw.activeBad = true ∧
          t.modId = s.modId ∧ t.rcv.coord = s.rcv.coord) ∧
      (p.aux = true → p.inrush = .opened →
        (p.bandFrom + 100000000 ≤ s.ns → exec .mainDwellElapsed s = .next { s with pwr := { p with inrush := .charging } }) ∧
        (s.ns < p.bandFrom + 100000000 → exec .mainDwellElapsed s = .next s)) ∧
      (p.inrush = .charging → ∀ flash found,
        let t : State := { s with pwr := { p with inrush := .closed } }
        (s.fw.run = none → p.main = false → s.fw.depot = false → p.off ≠ .trip → s.fw.retryFrom = none →
          exec (.inrushCharged flash found) s = .next (t.askStart ⟨.cold, false, false, false⟩ flash found)) ∧
        (∀ r, s.fw.run = some r → r.step = 4 → exec (.inrushCharged flash found) s = .next (t.coldOn found))) ∧
      (∀ volt : BitVec 16, p.aux = true → p.inrush ≠ .opened →
        (volt.toNat ≤ 5900 → exec (.overvoltage volt) s = .next s) ∧
        (5900 < volt.toNat → p.main = false → exec (.overvoltage volt) s = .next
          (s.raise 0x0A0F .error [(2, volt.toNat)]).openInrush) ∧
        (5900 < volt.toNat → p.main = true → exec (.overvoltage volt) s = .next
          (s.supplyReset .input 3 volt.toNat 4 0x0A0F [(2, volt.toNat)]).openInrush)) ∧
      (p.main = true → ∀ low : BitVec 16,
        (low.toNat < 3800 → exec (.inputReset low) s = .next (s.supplyReset .input 0 low.toNat 4 0x0A03 [(2, low.toNat)]).openInrush) ∧
        (3800 ≤ low.toNat → exec (.inputReset low) s = .next s)) ∧
      (p.main = true → ∀ (die : BitVec 3) (low : BitVec 10),
        (low.toNat < 420 → exec (.railReset die low) s = .next
          ((s.supplyReset .rail 1 low.toNat 4 0x0A05 [(1, die.toNat), (2, low.toNat)]).nextStart [] .clean)) ∧
        (420 ≤ low.toNat → exec (.railReset die low) s = .next s)) ∧
      (p.off = .rail → p.main = false → s.fw.run = none → p.aux = true → p.offAt + 1000000000 ≤ s.ns → ∀ flash,
        exec (.railResetRestart flash) s = .next (s.askStart ⟨.cold, false, false, false⟩ flash .clean)) ∧
      (p.main = true → p.inWarn = false → ∀ volt : BitVec 16,
        (3800 ≤ volt.toNat → volt.toNat < 4200 → ∃ p' : PwrState,
          p' = { p with inWarn := true, inAt := s.ns, inLow := volt.toNat, dies := p'.dies } ∧
          (∀ n < 8, p'.die n = { p.die n with rail := BitVec.ofNat 10 (min (p.die n).rail.toNat 550) }) ∧
          p'.die 8 = p.die 8 ∧ exec (.inputWarn volt) s = .next
            ((s.setPwr p').raise 0x0A01 .warning [(2, volt.toNat), (2, p.watts.toNat)])) ∧
        (4200 ≤ volt.toNat → exec (.inputWarn volt) s = .next s)) ∧
      (p.inWarn = true → ∀ low : BitVec 16,
        (p.inAt + 1000000 ≤ s.ns → exec (.inputWarnClear low) s = .next ((s.setPwr { p with inWarn := false }).raise 0x0A02 .info
          [(1, 0), (1, 0xFF), (4, (s.ns - p.inAt) / 1000), (2, min p.inLow low.toNat)])) ∧
        (s.ns < p.inAt + 1000000 → exec (.inputWarnClear low) s = .next s)) ∧
      (∀ die : BitVec 3, let d := p.die die.toNat
        (p.main = true → d.railWarn = false → ∀ rail : BitVec 10, 420 ≤ rail.toNat → rail.toNat < 460 →
          exec (.railWarn die rail) s = .next ((s.setPwr (p.modDie die.toNat fun d =>
            { d with railWarn := true, railAt := s.ns, railLow := rail.toNat })).raise 0x0A04 .warning
              [(1, die.toNat), (2, rail.toNat), (2, d.rail.toNat)])) ∧
        (d.railWarn = true → d.railAt + 100000 ≤ s.ns → ∀ low : BitVec 10,
          exec (.railWarnClear die low) s = .next ((s.setPwr (p.modDie die.toNat fun d => { d with railWarn := false })).raise
            0x0A02 .info [(1, 1), (1, die.toNat), (4, (s.ns - d.railAt) / 1000), (2, min d.railLow low.toNat)]))) ∧
      ∀ n, (p.inWarn = true ∨ (p.die n).railWarn = true ∨ (p.die n).thermWarn = true → p.dutyOf n ≤ 25) ∧
        ((p.die n).hwLimit = true → p.dutyOf n ≤ 50) ∧ p.dutyOf n ≤ (p.die n).duty.toNat
  ) ∧
  (
    ∀ (s : State) (die : BitVec 4), die.toNat ≤ 8 → let p := s.pwr
      let n := die.toNat
      let d := p.die n
      (p.main = true → p.pcUp = true → n < 8 → ∀ temp : BitVec 8,
        let down := BitVec.ofNat 10 (max 500 (d.rail.toNat - 5))
        let d' : DiePower := { d with throttle := true, temp := temp, rail := if down.toNat < d.rail.toNat then down else d.rail }
        let t := s.setPwr (p.modDie n fun _ => d')
        (d.throttle = false → 95 ≤ temp.toNat → exec (.thermalThrottle die temp) s = .next
          (t.raise 0x0A06 .info [(1, n), (1, temp.toNat), (2, d'.rail.toNat)])) ∧
        (d.throttle = true → 93 ≤ temp.toNat → exec (.thermalThrottle die temp) s = .next t) ∧
        (temp.toNat < 93 → exec (.thermalThrottle die temp) s = .next s)) ∧
      (p.main = true → p.pcUp = true → ∀ temp : BitVec 8,
        (temp.toNat < 93 → exec (.thermalThrottleEnd die temp) s = .next
          (s.setPwr (p.modDie n fun d => { d with throttle := false, temp := temp }))) ∧
        (93 ≤ temp.toNat → exec (.thermalThrottleEnd die temp) s = .next s)) ∧
      (p.main = true → d.thermWarn = false → ∀ temp : BitVec 8,
        (100 ≤ temp.toNat → exec (.thermalWarn die temp) s = .next ((s.setPwr (p.modDie n fun d =>
          { d with thermWarn := true, temp := temp, thermAt := s.ns, thermHigh := temp.toNat, tripWarned := false })).raise
            0x0A07 .error [(1, n), (1, temp.toNat)])) ∧
        (temp.toNat < 100 → exec (.thermalWarn die temp) s = .next s)) ∧
      (p.aux = true → d.thermWarn = true → ∀ temp high : BitVec 8,
        (temp.toNat < 97 → exec (.thermalWarnClear die temp high) s = .next ((s.setPwr (p.modDie n fun d =>
          { d with thermWarn := false, temp := temp })).raise 0x0A02 .info
            [(1, 2), (1, n), (4, (s.ns - d.thermAt) / 1000), (2, max d.thermHigh high.toNat)])) ∧
        (97 ≤ temp.toNat → exec (.thermalWarnClear die temp high) s = .next s)) ∧
      (p.main = true → p.pcUp = true → s.hif.fwUp = true → d.thermWarn = true → d.tripWarned = false →
        (d.thermAt + 100000000 ≤ s.ns → exec (.thermalTripWarning die) s = .next
          (s.setPwr (p.modDie n fun d => { d with tripWarned := true })).ownFault) ∧
        (s.ns < d.thermAt + 100000000 → exec (.thermalTripWarning die) s = .next s)) ∧
      (p.main = true → ∀ temp : BitVec 8,
        (105 ≤ temp.toNat → exec (.thermalTrip die temp) s = .next ((s.setPwr (p.modDie n fun d => { d with temp := temp })).supplyReset
          .trip 2 temp.toNat 5 0x0A08 [(1, n), (1, temp.toNat)])) ∧
        (temp.toNat < 105 → exec (.thermalTrip die temp) s = .next s)) ∧
      (p.off = .trip → p.main = false → p.aux = true → ∀ (temps : List (BitVec 8)) flash found, temps.length = 9 →
        ((∀ x ∈ temps, x.toNat < 70) → exec (.tripCooldown temps flash found) s = .next ((s.setPwr
          (temps.zipIdx.foldl (fun p x => p.modDie x.2 fun d => { d with temp := x.1 }) p)).nextStart flash found)) ∧
        ((∃ x ∈ temps, 70 ≤ x.toNat) → exec (.tripCooldown temps flash found) s = .next s))
  )

/-- Power grants and their expiry, the control period, cap tables, estimates and the hardware limit (R480, R481, R482,
R483, R485, R486, R487, R488, R494, R495). -/
def Obligations.CapAndController : Prop :=
  ∀ s : State, let p := s.pwr
    (p.aux = true → ∀ watts seq life : BitVec 16,
      (p.grant = none ∨ (∃ g, p.grant = some g ∧ seq ≠ g.seq ∧ (seq - g.seq).toNat < 0x8000) →
        let w := min 2200 (max 600 watts.toNat)
        let ends := if life = 0 then none else some (s.ns + 1000000000 * life.toNat)
        let t := (s.setPwr ({ p with grant := some ⟨BitVec.ofNat 12 w, seq, ends, life.toNat⟩, fallbackOn := false } : PwrState).capChanged).raise
          0x0A0B .info [(2, w), (2, seq.toNat), (2, life.toNat)]
        (600 ≤ watts.toNat → exec (.powerGrant watts seq life) s = .next t) ∧
        (watts.toNat < 600 → exec (.powerGrant watts seq life) s = .next (t.raise 0x0A0C .warning [(2, watts.toNat), (2, w)]))) ∧
      ∀ g, p.grant = some g → 0x8000 ≤ (seq - g.seq).toNat ∨ seq = g.seq → exec (.powerGrant watts seq life) s = .next s) ∧
    (p.aux = true → p.fallbackOn = false → ∀ g e, p.grant = some g → g.ends = some e →
      (e ≤ s.ns → exec .grantExpiry s = .next ((s.setPwr ({ p with fallbackOn := true } : PwrState).capChanged).raise 0x0A0D .warning
        [(2, g.watts.toNat), (2, min 2200 (max 600 p.fallback.toNat))])) ∧
      (s.ns < e → exec .grantExpiry s = .next s)) ∧
    (p.main = true → p.pcUp = true → p.periodAt + 100000 ≤ s.ns → ∀ rails duty hbm temps volt watts,
      let q := s.sumBallast
      ∃ p' : PwrState, p'.volt = volt ∧ p'.watts = watts ∧ p'.hwLimit = false ∧ p'.periodAt = s.ns ∧ p'.grant = p.grant ∧
        p'.capLocal = p.capLocal ∧ p'.capEff = BitVec.ofNat 12 p'.eff.1 ∧
        (∀ n < 9, (p'.die n).hwLimit = false ∧ (p'.die n).temp = (temps[n]?).getD (p.die n).temp ∧
          (p'.die n).duty = ((duty[n]?).map fun x => BitVec.ofNat 7 (min 100 x.toNat)).getD (p.die n).duty ∧
          (p'.die n).hbm = ((hbm[n]?).map fun x => BitVec.ofNat 7 (min 100 x.toNat)).getD (p.die n).hbm ∧
          (n < 8 → ∀ r, rails[n]? = some r → (p'.die n).rail = (p.die n).railTo p.warned r.toNat) ∧
          (n = 8 → (p'.die n).rail = (p.die n).rail)) ∧
        exec (.controlPeriod rails duty hbm temps volt watts) s = .next (q.setPwr p').paceBallast) ∧
    (p.main = true → p.pcUp = true → p.tableAt + 10000000 ≤ s.ns → exec .capTableCommit s = .next
      { s with pwr := { p with table := p.shadow, capVer := p.capVer + 1, tableAt := s.ns } }) ∧
    (p.main = true → p.pcUp = true → p.untrusted = false → ∀ (e m : BitVec 16) (phases : List (BitVec 16)),
      let gap := max e.toNat m.toNat - min e.toNat m.toNat
      let gone := phases.filter fun t => p.shadow.any fun x => x.tag = t
      (p.capEff.toNat * 12 < 100 * gap → exec (.estimateUntrusted e m phases) s = .next ((s.setPwr
        { p with untrusted := true, untrustedAt := s.ns, cleared := gone
                 shadow := p.shadow.filter fun x => !phases.contains x.tag }).raise 0x0A09 .warning
          [(2, e.toNat), (2, m.toNat), (2, p.capEff.toNat), (2, gone.length), (2, ((gone.head?).getD 0).toNat)])) ∧
      (100 * gap ≤ p.capEff.toNat * 12 → exec (.estimateUntrusted e m phases) s = .next s)) ∧
    (p.main = true → p.pcUp = true → p.untrusted = true → ∀ e m : BitVec 16,
      let gap := max e.toNat m.toNat - min e.toNat m.toNat
      (100 * gap ≤ p.capEff.toNat * 6 → p.untrustedAt + 20000000 ≤ s.ns → exec (.estimateTrusted e m) s = .next
        ((s.setPwr { p with untrusted := false, cleared := [] }).raise 0x0A0A .info
          [(2, (p.cleared.filter fun t => p.shadow.any fun x => x.tag = t).length), (4, (s.ns - p.untrustedAt) / 1000000)])) ∧
      (p.capEff.toNat * 6 < 100 * gap ∨ s.ns < p.untrustedAt + 20000000 → exec (.estimateTrusted e m) s = .next s)) ∧
    (p.main = true → p.hwLimit = false → ∀ average : BitVec 16,
      (108 * p.capEff.toNat < average.toNat * 100 → ∃ p' : PwrState, (∀ n < 8, p'.die n = { p.die n with hwLimit := true }) ∧
        p'.hwLimit = true ∧ p'.capEff = p.capEff ∧ exec (.hwLimit average) s = .next
          ((s.setPwr p').raise 0x0A0E .warning [(2, average.toNat), (2, p.capEff.toNat)])) ∧
      (average.toNat * 100 ≤ 108 * p.capEff.toNat → exec (.hwLimit average) s = .next s))

/-- Starts: requests, waiting, completion, failure by reason, time limits and the retry (R505, R507, R508, R509, R511,
R512, R519). -/
def Obligations.StartsOfTheModule : Prop :=
  (∀ s : State, s.sideUp = true → ∀ (clear : Bool) flash found, let f := s.fw
    (∀ code kind, (code, kind) ∈ [(1#2, StartKind.cold), (2#2, StartKind.warm), (3#2, StartKind.reload)] →
      (exec (.startRequest code clear false flash found) s = .next
        ((s.askStart ⟨kind, clear && kind == .warm, false, true⟩ flash found).reply 9 0x10 [kind.code])) ∧
      (f.staged = none ∨ f.stagedBad = true → exec (.startRequest code clear true flash found) s = .next (s.sideError 1)) ∧
      (∀ b, f.staged = some b → f.stagedBad = false → exec (.startRequest code clear true flash found) s = .next
        ((s.askStart ⟨kind, clear && kind == .warm, true, true⟩ flash found).reply 9 0x10 [kind.code]))) ∧
    exec (.startRequest 0 clear false flash found) s = .next (s.sideError 0)) ∧
  (∀ (s : State) (req : StartReq) flash found,
    (s.mayBegin = false → s.askStart req flash found = { s with fw := { s.fw with waiting := s.fw.waiting ++ [req] } }) ∧
    (s.mayBegin = true → s.fw.waiting = [] → s.askStart req flash found =
      ({ s with fw := { s.fw with waiting := [req] } } : State).beginStart req flash found)) ∧
  (∀ (s : State) (r : StartRun), s.fw.run = some r → ∀ flash,
    let next (t : State) : State := t.nextStart flash .clean
    (r.step = 14 → r.bundle = none →
      let f := s.fw
      let ms := (((s.ns : Int) - r.began) / 1000000).toNat
      let t := (({ s with fw := { f with format := f.active.hoCur, run := none, stage := 0x1F, fails := 0, depot := false
                                         lastMs := BitVec.ofNat 16 (min 0xFFFF ms) }
                          hif := { s.hif with fwUp := true, start := BitVec.ofNat 3 r.req.kind.code, depotExit := f.depot } } : State).setPwr
        { s.pwr with pcUp := true, resetEmerg := false }).raise 0x0B04 .info
        [(1, r.req.kind.code), (4, min 0xFFFFFFFF ms), (1, f.fails.toNat)]
      let u := ({ t with pool := { t.pool with levels := t.fw.active.levels } } : State).copyCaps
      exec (.startComplete flash) s = .next (next
        ({ u with pool := { u.pool with measured := [u.capWord 2, u.capWord 3, u.capWord 4] } } : State).lateDetach.deferredHolds)) ∧
    (r.step ≠ 14 → exec (.startComplete flash) s = .next (next s)) ∧
    (∀ (reason step : BitVec 5) (stack : BitVec 4) (channel : BitVec 5) (lane : BitVec 8), let k := r.req.kind
      let at' := s.atStep step.toNat
      let step := exec (.startFailed reason step stack channel lane flash) s
      (reason = 4 ∨ k = .cold ∧ (reason = 3 ∨ reason = 5 ∨ reason = 6) → step = .next (next (at'.failStart reason.toNat))) ∧
      (reason = 7 → k ≠ .reload → step = .next (next ((at'.raise 0x0404 .error
        [(1, stack.toNat), (1, channel.toNat), (1, lane.toNat)]).failStart 7))) ∧
      (reason = 2 → k ≠ .cold → step = .next (next ((({ at' with fw := { at'.fw with
        activeBad := at'.fw.activeBad || r.bundle.isNone } } : State).raise 0x0B02 .error
        [(1, 3), (4, s.fw.active.svn.toNat)]).failStart 2)))) ∧
    (r.began + 120000000000 ≤ (s.ns : Int) → exec (.startTimeout flash) s = .next (next (s.failStart 9))) ∧
    ((s.ns : Int) < r.began + 120000000000 → exec (.startTimeout flash) s = .next (next s)) ∧
    (∀ t, r.loadedAt = some t →
      (t + 5000000000 ≤ s.ns → exec (.coreReadyTimeout flash) s = .next (next ((s.atStep 12).failStart 10))) ∧
      (s.ns < t + 5000000000 → exec (.coreReadyTimeout flash) s = .next (next s))) ∧
    (∀ reason, ∃ t, s.failStart reason = t ∧ t.fw.run = none ∧ t.fw.fails.toNat = min 3 (s.fw.fails.toNat + 1) ∧
      t.fw.lastFail = BitVec.ofNat 5 reason ∧ t.fw.stage = BitVec.ofNat 5 r.step ∧ t.pwr.main = false ∧ t.pwr.off = .failed ∧
      (s.fw.depot = false → s.fw.fails.toNat < 2 → t.fw.retryFrom = some s.ns ∧ t.fw.depot = false) ∧
      (s.fw.depot = false → 2 ≤ s.fw.fails.toNat → t.fw.retryFrom = none ∧ t.fw.depot = true))) ∧
  ∀ (s : State) (t : Nat) flash, s.fw.retryFrom = some t → s.fw.depot = false → s.fw.run = none → s.pwr.aux = true →
    (t + 10000000000 ≤ s.ns → exec (.failedStartRetry flash) s = .next
      (s.askStart ⟨.cold, false, false, false⟩ flash .clean)) ∧
    (s.ns < t + 10000000000 → exec (.failedStartRetry flash) s = .next s)

/-- Bundles are checked and staged, fetched with retries, pushed, and activated component by component or taken back
(R500, R501, R502, R503, R505, R513, R514, R515, R519). -/
def Obligations.FirmwareUpdates : Prop :=
  (∀ (s : State) (b : Bundle) (source : Nat), let f := s.fw
    let why : Nat := if b.badLayout then 1 else if b.badKey ∨ b.keyIdx.toNat < f.minKey.toNat then 5 else if b.badSig then 2
      else if b.svn.toNat < f.floor.toNat then 4 else if b.badImage then 3 else 0
    let kept : FwState := { f with staged := some b, stagedBad := false
                                   updState := if f.act.isSome then f.updState else 1, updReason := 0 }
    let empty : FwState := { f with staged := none, stagedBad := false, updState := 7, updReason := BitVec.ofNat 8 why }
    let good := ({ s with fw := kept } : State).raise 0x0B01 .info [(4, b.svn.toNat), (8, b.version.toNat), (1, source)]
    let bad := ({ s with fw := empty } : State).raise 0x0B02 .error [(1, why), (4, b.svn.toNat)]
    (why = 0 → s.stageBundle b source = (good, true)) ∧ (why ≠ 0 → s.stageBundle b source = (bad, false))) ∧
  (∀ s : State, s.sideUp = true → let f := s.fw
    let set (f' : FwState) : State := { s with fw := f' }
    (∀ r, f.run = some r → r.step = 2 → r.req.kind = .cold → r.failedAt = none → f.act = none → ∀ found,
      let next (t : State) : State := t.nextStart [] .clean
      (r.tries < 2 → exec (.bundleFetchDone none found) s = .next (next (set
        { f with run := some { r with tries := r.tries + 1, failedAt := some s.ns } }))) ∧
      (2 ≤ r.tries → exec (.bundleFetchDone none found) s = .next (next (s.failStart 1))) ∧
      (∀ b, f.reject b ≠ 0 → exec (.bundleFetchDone (some b) found) s = .next (next ((s.stageBundle b 0).1.failStart 2))) ∧
      ∀ b, f.reject b = 0 → exec (.bundleFetchDone (some b) found) s = .next (next
        (((s.stageBundle b 0).1.useBundle b).coldOn found))) ∧
    (∀ r t, f.run = some r → r.failedAt = some t →
      (t + 2000000000 ≤ s.ns → exec .bundleFetchRetry s = .next (set { f with run := some { r with failedAt := none } })) ∧
      (s.ns < t + 2000000000 → exec .bundleFetchRetry s = .next s)) ∧
    (∀ b, (f.run = none → f.act = none → exec (.bundlePush b) s = .next (s.stageBundle b 1).1) ∧
      ∀ a, f.act = some a → a.began.isSome = true → exec (.bundlePush b) s = .next (s.sideError 2)) ∧
    (f.staged = none → exec .activateFirmware s = .next (s.sideError 3)) ∧
    (∀ b, f.staged = some b → f.stagedBad = false → f.act = none → f.depot = false → s.pwr.main = true →
      (f.format ≠ b.hoCur → f.format ≠ b.hoPrev → exec .activateFirmware s = .next
        ((set { f with updState := 7, updReason := 6 }).raise 0x0B02 .error [(1, 6), (4, b.svn.toNat)])) ∧
      (f.format = b.hoCur ∨ f.format = b.hoPrev →
        exec .activateFirmware s = exec .activationBegin (set { f with act := some ⟨s.ns, none, none, 0, none, 0⟩ }))) ∧
    (∀ a b, f.act = some a → f.staged = some b → a.began = none →
      let secs := (((s.ns : Int) - a.asked) / 1000000000).toNat
      (s.pwr.emerg = false → s.pwr.calmFrom + 1000000000 ≤ (s.ns : Int) → s.rcv.state = 0 ∨ s.rcv.jobId = 0 → f.run = none →
        exec .activationBegin s = .next (set { f with
          act := some { a with began := some s.ns, doneTo := 0, inHand := none }
          updState := 3, updComp := 1, deferS := BitVec.ofNat 16 (min 0xFFFF secs) })) ∧
      (a.deferred = none → ∀ c : Nat, (c = 0 ∧ (s.pwr.emerg = true ∨ (s.ns : Int) < s.pwr.calmFrom + 1000000000) ∨
          s.pwr.emerg = false ∧ s.pwr.calmFrom + 1000000000 ≤ (s.ns : Int) ∧
            (c = 1 ∧ s.rcv.state ≠ 0 ∧ s.rcv.jobId ≠ 0 ∨ c = 2 ∧ (s.rcv.state = 0 ∨ s.rcv.jobId = 0) ∧ f.run ≠ none)) →
        exec .activationBegin s = .next ((set { f with
          act := some { a with deferred := some c }, updState := 2, updReason := BitVec.ofNat 8 c }).raise 0x0B08 .info
          [(1, c), (4, b.svn.toNat)])) ∧
      ((s.ns : Int) < a.asked + 60000000000 → exec .activationCancel s = .next s) ∧
      (a.asked + 60000000000 ≤ (s.ns : Int) → s.defers = none → ∀ c, a.deferred = some c → exec .activationCancel s = .next
        ((set { f with act := none, updState := 5, updComp := 0, deferS := BitVec.ofNat 16 (min 0xFFFF secs) }).raise
          0x0B09 .warning [(1, c), (2, min 0xFFFF secs)]))) ∧
    (∀ a, f.act = some a → a.began ≠ none → f.run = none →
      (a.inHand = none → a.doneTo = 2 ∨ a.doneTo = 3 → ∀ ok, exec (.componentHandover ok) s = .next
        (set { f with act := some { a with inHand := some s.ns }, updComp := BitVec.ofNat 4 (a.doneTo + 1) })) ∧
      (a.inHand = none → a.doneTo = 1 → ∀ ok, exec (.componentHandover ok) s = .next
        { s with fw := { f with act := some { a with inHand := some s.ns }, updComp := 2 }, hif := { s.hif with fwUp := false } }) ∧
      (a.inHand = none → a.doneTo = 0 → s.pwr.emerg = true → ∀ ok, exec (.componentHandover ok) s = .next (set
        { f with act := some { a with began := none }, updState := 2, updComp := 0 }).tryActivate) ∧
      (a.inHand = none → a.doneTo = 0 → s.pwr.emerg = false → (∀ t, a.began = some t → s.pwr.calmFrom ≤ (t : Int)) →
        ∀ ok, exec (.componentHandover ok) s = .next
        { s with fw := { f with act := some { a with inHand := some s.ns }, updComp := 1 }, pwr := { s.pwr with pcUp := false } }) ∧
      (∀ t, a.inHand = some t →
        let back (cause : Nat) := ((({ s with
          fw := { f with act := none, stagedBad := true, updState := 6, updComp := 0 }
          hif := { s.hif with fwUp := true }, pwr := { s.pwr with pcUp := true } } : State).raise 0x0B0B .error
          [(2, a.doneTo + 1), (1, cause)]).lateDetach).deferredHolds
        exec (.componentHandover false) s = .next (back 0) ∧
        (t + 2000000000 ≤ s.ns → exec .handoverResumeTimeout s = .next (back 1)) ∧
        (s.ns < t + 2000000000 → exec .handoverResumeTimeout s = .next s) ∧
        (a.doneTo = 2 → exec (.componentHandover true) s = .next
          (set { f with act := some { a with doneTo := 3, inHand := none }, updComp := 4 })) ∧
        ∀ b, f.staged = some b → a.doneTo = 3 → exec (.componentHandover true) s = .next
          ((((set { f with act := some { a with doneTo := 4, inHand := none }, updComp := 0 }).install b |> fun u =>
            ({ u with fw := { u.fw with act := none, updState := 4, updComp := 0 } } : State)).raise 0x0B0A .info
              [(4, b.svn.toNat), (2, min 0xFFFF (a.dspNs / 1000000))]).raiseFloor b)))) ∧
  ∀ (s : State) (b : Bundle), ∃ t, s.raiseFloor b = t ∧ s.fw.floor.toNat ≤ t.fw.floor.toNat ∧ s.fw.minKey.toNat ≤ t.fw.minKey.toNat

/-- Protection faults and reloads of the firmware cores, and the SPDM requests (R497, R498, R441, R517, R519). -/
def Obligations.CoresAndSpdm : Prop :=
  (∀ (s : State) (k : BitVec 7) (addr : BitVec 64), let f := s.fw
    let said (t : State) (core where' : Nat) := t.raise 0x0B0C .error [(1, core), (1, where'), (8, addr.toNat)]
    (s.pwr.aux = true → f.haltSec = false → exec (.protectionFault 0 k addr) s = .next
      (said { s with fw := { f with haltSec := true } } 0 0xFF)) ∧
    (s.pwr.main = true → f.haltPower = false → (∀ t ∈ f.powerHalts, t + 600000000000 < s.ns) →
      exec (.protectionFault 1 k addr) s = .next (said
        { s with fw := { f with haltPower := true, powerHalts := s.ns :: f.powerHalts }, pwr := { s.pwr with pcUp := false } } 1 0xFF)) ∧
    (s.pwr.main = true → f.haltPower = false → s.hif.fwUp = true → (∃ t ∈ f.powerHalts, s.ns ≤ t + 600000000000) →
      exec (.protectionFault 1 k addr) s = .next (said
        { s with fw := { f with haltPower := true, powerHalts := s.ns :: f.powerHalts }, pwr := { s.pwr with pcUp := false } }
        1 0xFF).ownFault) ∧
    (s.pwr.main = true → f.haltDisp = false → exec (.protectionFault 2 k addr) s = .next
      (said { s with fw := { f with haltDisp := true }, hif := { s.hif with fwUp := false } } 2 0xFF)) ∧
    (s.pwr.main = true → k.toNat < 72 → k.toNat ∉ f.haltBox → s.dsp.tasks = [] →
      exec (.protectionFault 3 k addr) s = .next (said { s with fw := { f with haltBox := setIns f.haltBox k.toNat } } 3 k.toNat)) ∧
    (s.sideUp = true → s.pwr.main = true →
      (f.haltPower = true → s.pwr.emerg = false → exec (.coreReload 1 k) s = .next
        { s with fw := { f with haltPower := false }, pwr := { s.pwr with pcUp := true } }) ∧
      (s.pwr.emerg = true → exec (.coreReload 1 k) s = .next s) ∧
      (f.haltDisp = true → exec (.coreReload 2 k) s = .next (s.askStart ⟨.reload, false, false, false⟩ [] .clean)) ∧
      (k.toNat < 72 → exec (.coreReload 3 k) s = .next { s with fw := { f with haltBox := setDel f.haltBox k.toNat } })) ∧
    (s.pwr.aux = true → f.haltSec = true → exec .securityCoreRestart s = .next
      (({ s with fw := { f with haltSec := false } } : State).sideError 4))) ∧
  (∀ s : State, s.sideUp = true →
    let sig := (List.range 4627).map (Config.signByte (Config.freeNat s.free))
    let t : State := { s with free := s.free + 1 }
    let digest (i : Nat) := (List.range 64).map (Config.signByte i)
    exec .getVersion s = .next (s.reply 14 0x04 [0x14]) ∧
    exec .getCapabilities s = .next (s.reply 14 0x61 [1, 1, 1, 0]) ∧
    exec .negotiateAlgorithms s = .next (s.reply 14 0x63 [87, 512]) ∧
    exec .getDigests s = .next (s.reply 14 0x01 [0, 1] (digest 1 ++ digest 2)) ∧
    (∀ (slot : BitVec 8) (off len : BitVec 16) (nonce : List Byte),
      (slot.toNat < 2 → exec (.getCertificate slot off len) s = .next (s.reply 14 0x02 [slot.toNat]
          ((List.range len.toNat).map fun i => Config.signByte (3 + slot.toNat) (off.toNat + i))) ∧
        exec (.challenge slot nonce) s = .next (t.reply 14 0x03 [slot.toNat] (nonce ++ digest (1 + slot.toNat) ++ sig))) ∧
      (2 ≤ slot.toNat → exec (.getCertificate slot off len) s = .next (s.reply 14 0x7F [slot.toNat]) ∧
        exec (.challenge slot nonce) s = .next (s.reply 14 0x7F [slot.toNat]))) ∧
    (∀ (i : BitVec 8) (nonce : List Byte),
      (1 ≤ i.toNat → i.toNat ≤ 8 → exec (.getMeasurements i nonce) s = .next
        (t.reply 14 0x60 [i.toNat] (s.measurement i.toNat ++ nonce ++ sig))) ∧
      (i = 0xFF → exec (.getMeasurements i nonce) s = .next
        (t.reply 14 0x60 [8] ((List.range 8).flatMap (fun k => s.measurement (k + 1)) ++ nonce ++ sig))) ∧
      (i = 0 ∨ 8 < i.toNat ∧ i ≠ 0xFF → exec (.getMeasurements i nonce) s = .next (s.reply 14 0x7F [i.toNat]))) ∧
    s.measurement 7 = leBytes 4 s.fw.floor.toNat ++ leBytes 1 s.fw.minKey.toNat) ∧
  ∀ s : State, s.sideUp = false → ∀ slot off len nonce i,
    exec .getVersion s = .next s ∧ exec .getCapabilities s = .next s ∧ exec .negotiateAlgorithms s = .next s ∧
    exec .getDigests s = .next s ∧ exec (.getCertificate slot off len) s = .next s ∧ exec (.challenge slot nonce) s = .next s ∧
    exec (.getMeasurements i nonce) s = .next s

/-- The emergency brake from the register, JTAG and the side-band: what it stops, what it keeps, and when it has no
effect (R529, R530, R534, R541, R41). -/
def Obligations.EmergencyBrake : Prop :=
  (∀ s : State,
    let braked (t : State) (k : BitVec 3) : Prop :=
      t.dbg.braked = true ∧ t.dbg.source = k ∧ t.dbg.brakeLt.toNat = (if s.ltRuns then s.ns else 0) % 2 ^ 64 ∧
      t.cells = s.cells.map (fun e => (e.1, e.2.stop)) ∧ t.mem = s.mem ∧ t.lnk.qps = s.lnk.qps.map (fun q => (q.1, { q.2 with failed := true }))
    s.pwr.main = true → s.dbg.braked = false →
    (s.servesFe = true ∨ s.sideUp = true → ∃ t, exec (.dbgBrake 0xB8A4) s = .next t ∧ braked t 0) ∧
    (s.dbg.trst = false → ∃ t, exec (.jtagBrake true) s = .next t ∧ braked t 1 ∧ t.dbg.ir = 0x10) ∧
    (s.sideUp = true → ∃ t, exec .sidebandBrake s = .next (t.reply 9 4 []) ∧ braked t 2)) ∧
  (∀ (s : State) (v : BitVec 32), s.pwr.main = false ∨ s.dbg.braked = true ∨ v ≠ 0xB8A4 →
    exec (.dbgBrake v) s = .next s) ∧
  (∀ s : State, s.sideUp = true →
    (s.pwr.main = true → s.dbg.braked = true → exec .sidebandBrake s = .next (s.reply 9 4 [])) ∧
    (s.pwr.main = false → exec .sidebandBrake s = .next (s.reply 9 0xFF [2])))

/-- Scan-out over the side-band and the instructions of the test access port (R532, R533, R534, R548). -/
def Obligations.ScanAndTestPort : Prop :=
  (
    (∀ (s : State) (space : BitVec 8) (cell : BitVec 16) (off : BitVec 32) (len : BitVec 16), s.sideUp = true →
      let c := s.cell (cell.setWidth 11)
      let served := s.pwr.main = true ∧ s.dbg.braked = true ∧ cell.toNat < 2048 ∧ cell.toNat / 16 % 16 < 9 ∧
        ∃ size, scanSize space.toNat = some size ∧ off.toNat + len.toNat ≤ size
      let free (i : Nat) : Byte := BitVec.ofNat 8 (Config.freeNat (s.free + (i - off.toNat)))
      (224 < len.toNat ∨ len.toNat % 8 ≠ 0 → exec (.scanRead space cell off len) s = .next (s.reply 9 0xFF [3])) ∧
      (len.toNat ≤ 224 → len.toNat % 8 = 0 →
        (served → exec (.scanRead space cell off len) s = .next
          (({ s with free := s.free + len.toNat, dbg := { s.dbg with scanOk := true } } : State).reply 9 3
            (1 :: (List.range (len.toNat / 8)).map fun g =>
              if (List.range 8).any fun j => c.scanPoison space.toNat (off.toNat + 8 * g + j) then 1 else 0)
            ((List.range len.toNat).map fun i => c.scanByte space.toNat s.waitNow free (off.toNat + i)))) ∧
        (¬ served → exec (.scanRead space cell off len) s = .next
          (({ s with dbg := { s.dbg with scanOk := false } } : State).reply 9 3 [0])))) ∧
    (∀ (c : CellState) (ns : Nat) (free : Nat → Byte) (i : Nat),
      (i / 8 ∉ c.store.ue → i / 8 ∉ c.store.poison → c.scanByte 0 ns free i = c.store.mem.get 0 i ∧ c.scanPoison 0 i = false) ∧
      (i / 8 ∈ c.store.ue ∨ i / 8 ∈ c.store.poison → c.scanPoison 0 i = true) ∧
      (i / 4 ∉ c.dmem.ue → c.scanByte 1 ns free i = c.dmem.mem.get 0 i ∧ c.scanPoison 1 i = false) ∧
      (i / 4 ∈ c.dmem.ue → c.scanPoison 1 i = true) ∧
      (i / 4 ∉ c.banks.ue0 → c.scanByte 2 ns free i = c.banks.ib0.get 0xFF i) ∧
      (i / 4 ∉ c.banks.ue1 → c.scanByte 3 ns free i = c.banks.ib1.get 0xFF i) ∧
      (∀ (r : BitVec 5) (j : Nat), j < 4 → i = 4 * r.toNat + j → c.core.sMark.getLsbD r.toNat = false →
        c.scanByte 4 ns free i = BitVec.ofNat 8 ((c.sReg r).toNat / 256 ^ j)) ∧
      (i = 0x366 → c.scanByte 4 ns free i = if c.banks.active then 1 else 0))
  ) ∧
  (
    (∀ s : State, s.pwr.main = true → s.dbg.trst = false → let ir (v : BitVec 8) : State := { s with dbg := { s.dbg with ir := v } }
      let seen (v : BitVec 8) : State := { ir v with free := s.free + 1 }
      (∀ (space : BitVec 4) (cell : BitVec 11) (off : BitVec 32) (value : BitVec 64), value.extractLsb' 60 4 = space →
        value.extractLsb' 48 11 = cell → value.setWidth 32 = off → exec (.scanaddr value) s = .next
          { s with dbg := { s.dbg with ir := 0x11, scanSpace := space, scanCell := cell, scanOff := off } }) ∧
      (let d := s.dbg
        let c := s.cell d.scanCell
        let served := d.braked = true ∧ cellOk d.scanCell = true ∧
          ∃ size, scanSize d.scanSpace.toNat = some size ∧ d.scanOff.toNat + 4 ≤ size
        let free (i : Nat) : Byte := BitVec.ofNat 8 (Config.freeNat (s.free + (i - d.scanOff.toNat)))
        let dbg (ok : Bool) : DbgState := { d with ir := 0x12, scanOff := d.scanOff + 4, scanOk := ok }
        (served → exec .scandata s = .next (({ s with free := s.free + 4, dbg := dbg true } : State).reply 10 0x12
          [if (List.range 4).any fun j => c.scanPoison d.scanSpace.toNat (d.scanOff.toNat + j) then 1 else 0, 1,
            leNat ((List.range 4).map fun i => c.scanByte d.scanSpace.toNat s.waitNow free (d.scanOff.toNat + i))])) ∧
        (¬ served → exec .scandata s = .next (({ s with dbg := dbg false } : State).reply 10 0x12 [0, 0, 0]))) ∧
      exec .dbgstat s = .next ((ir 0x13).reply 10 0x13 [(if s.dbg.braked then 2 ^ 31 else 0) + s.dbg.source.toNat * 2 ^ 28 +
        (if s.dbg.scanOk then 2 ^ 27 else 0)]) ∧
      exec .extest s = .next ((seen 0x00).reply 10 0x00 [Config.freeNat s.free]) ∧
      exec .samplePreload s = .next ((seen 0x01).reply 10 0x01 [Config.freeNat s.free]) ∧
      exec (.jtagBrake false) s = .next (ir 0x10) ∧
      (∀ code : BitVec 8, code ≠ 0x00 → code ≠ 0x01 → code ≠ 0x10 → code ≠ 0x11 → code ≠ 0x12 → code ≠ 0x13 →
        exec (.bypass code) s = .next (ir 0xFF))) ∧
    (∀ (s : State) (low : Bool), exec (.jtagTrst low) s = .next
      { s with dbg := { s.dbg with trst := low, ir := if low then 0xFF else s.dbg.ir } }) ∧
    (∀ (s : State) (value : BitVec 64) (bit : Bool) (code : BitVec 8), s.pwr.main = false ∨ s.dbg.trst = true →
      exec (.scanaddr value) s = .next s ∧ exec .scandata s = .next s ∧ exec .dbgstat s = .next s ∧ exec .extest s = .next s ∧
      exec .samplePreload s = .next s ∧ exec (.jtagBrake bit) s = .next s ∧ exec (.bypass code) s = .next s)
  )

/-- Reads and writes of registers by the host, the side-band and firmware: latches, clears, windows, access rights
(R15, R18, R357, R358, R359, R361, R520, R521, R541). -/
def Obligations.RegisterAccesses : Prop :=
  (
    (∀ (s : State) (off : BitVec 32) (count : BitVec 8), s.sideUp = true →
      (count.toNat = 0 ∨ 56 < count.toNat → exec (.windowRead off count) s = .next (s.reply 9 0xFF [1])) ∧
      (1 ≤ count.toNat → count.toNat ≤ 56 → ∃ (at' : Nat → State) (ws : List Nat), at' 0 = s ∧ ws.length = count.toNat ∧
        (∀ k < count.toNat, at' (k + 1) = ((at' k).readSide (off.toNat + 4 * k)).2 ∧
          ws[k]? = some ((at' k).readSide (off.toNat + 4 * k)).1.toNat) ∧
        exec (.windowRead off count) s = .next ((at' count.toNat).reply 9 1 ws))) ∧
    (∀ (s : State) (off count), s.sideUp = false → exec (.windowRead off count) s = .next s) ∧
    (∀ s : State,
      (∀ off, 0x10000 ≤ off → s.readFe off = s.readWin off ∧ (s.pwr.main = true → s.readSide off = s.readWin off) ∧
        (s.pwr.main = false → off / 4096 ≠ 0x85 → off ≠ 0x84018 → off ≠ 0x8401C → s.readSide off = (0, s))) ∧
      s.readWin 0x84018 = (BitVec.ofNat 32 s.pwr.energy.toNat,
        { s with pwr := { s.pwr with energyHi := BitVec.ofNat 32 (s.pwr.energy.toNat / 2 ^ 32) } }) ∧
      s.readWin 0x8401C = (s.pwr.energyHi, s) ∧
      s.readWin 0x83018 = (BitVec.ofNat 32 (s.col.errLocal.toNat * 2 ^ 24 + s.col.errTimeout.toNat * 2 ^ 16 +
          s.col.errVersion.toNat * 2 ^ 8 + s.col.errPath.toNat),
        { s with col := { s.col with errLocal := 0, errTimeout := 0, errVersion := 0, errPath := 0 } }) ∧
      s.readWin 0x86004 = (BitVec.ofNat 32 ((if s.dbg.braked then 2 ^ 31 else 0) + s.dbg.source.toNat * 2 ^ 28), s) ∧
      s.readWin 0x85008 = (s.fw.floor, s) ∧ s.readWin 0x80000 = (s.mem.scopeVer, s) ∧ s.readWin 0x81014 = (s.dsp.lastTask, s) ∧
      s.readWin 0x58000 = (0, s) ∧ s.readWin 0x87000 = (0, s) ∧ s.readWin 0xA0000 = (0, s) ∧ s.readWin 0x84001 = (0, s)) ∧
    (∀ (s : State) (off : BitVec 21), s.hostUp = true →
      (off = 0x10 → exec (.latchingLoRead false off) s = .next
        (({ s with hif := { s.hif with ltHi := BitVec.ofNat 32 (s.ns / 2 ^ 32) } } : State).reply 8 0 [0x10, s.ns % 2 ^ 32])) ∧
      (latches off.toNat = false → exec (.latchingLoRead false off) s = .next s ∧ exec (.latchingLoRead true off) s = .next s) ∧
      (readClears off.toNat = false → exec (.rcRead false off) s = .next s ∧ exec (.rcRead true off) s = .next s) ∧
      (tracePort off.toNat = false → exec (.tracePortRead false off) s = .next s ∧ exec (.tracePortRead true off) s = .next s) ∧
      (s.servesFe = true → s.hif.fe = [] → let read := (s.readFe off.toNat).2.reply 8 0 [off.toNat, (s.readFe off.toNat).1.toNat]
        (feServed off.toNat = true → exec (.feAccess (some (off, none))) s = .next read) ∧
        (latches off.toNat = true → off ≠ 0x10 → exec (.latchingLoRead false off) s = .next read) ∧
        (readClears off.toNat = true → exec (.rcRead false off) s = .next read) ∧
        (tracePort off.toNat = true → exec (.tracePortRead false off) s = .next read)) ∧
      (s.servesFe = false → feServed off.toNat = true → ∀ write, exec (.feAccess (some (off, write))) s = .next
        { s with hif := { s.hif with fe := s.hif.fe ++ [⟨off.toNat, write, s.ns⟩] } })) ∧
    (∀ (s : State) (off : BitVec 21), s.sideUp = true → let read := (s.readSide off.toNat).2.reply 9 1 [(s.readSide off.toNat).1.toNat]
      (latches off.toNat = true → exec (.latchingLoRead true off) s = .next read) ∧
      (readClears off.toNat = true → exec (.rcRead true off) s = .next read) ∧
      (tracePort off.toNat = true → exec (.tracePortRead true off) s = .next read)) ∧
    (∀ s : State, s.servesFe = true → (∀ a ∈ s.hif.fe, s.ns < a.at' + 40000) → exec (.feAccess none) s = .next
      (s.hif.fe.foldl (fun s a => s.serveFe a.offset a.write) { s with hif := { s.hif with fe := [] } })) ∧
    (∀ (s : State) (a : FeAccess) (rest : List FeAccess), s.hif.fe = a :: rest → s.pwr.main = true →
      let late : State := { s with hif := { s.hif with fe := rest, hwerr := s.hif.hwerr ||| 2 } }
      (s.ns < a.at' + 40000 → exec .feTimeout s = .next s) ∧
      (a.at' + 40000 ≤ s.ns → (a.write = none → exec .feTimeout s = .next
          ((late.raise 0x0609 .warning [(4, a.offset), (1, 0)]).reply 8 0 [a.offset, 0xFFFFFFFF])) ∧
        (∀ v, a.write = some v → exec .feTimeout s = .next (late.raise 0x0609 .warning [(4, a.offset), (1, 1)]))))
  ) ∧
  (
    (∀ (s : State) (off : BitVec 32) (v : BitVec 32), s.sideUp = true → ∃ t : State,
      exec (.windowWrite off v) s = .next (t.reply 9 2 [off.toNat]) ∧
      (s.pwr.main = false ∨ off.toNat % 4 ≠ 0 → t = s) ∧
      (s.pwr.main = true →
        (off.toNat < 0x60000 ∨ (0x72000 ≤ off.toNat ∧ off.toNat < 0x82000) ∨ (0x85000 ≤ off.toNat ∧ off.toNat < 0x86000) ∨
          0x87000 ≤ off.toNat → t = s) ∧
        (off = 0x84004 → t = { s with pwr := ({ s.pwr with capLocal := v.setWidth 12 } : PwrState).capChanged }) ∧
        (off = 0x84010 → t = { s with pwr := ({ s.pwr with fallback := v.setWidth 12 } : PwrState).capChanged }) ∧
        (off = 0x83100 → t = { s with rcv := { s.rcv with job := v &&& 0xFFFFCFFF } }) ∧
        (off = 0x82110 → t = { s with lnk := { s.lnk with rtIndex := v.setWidth 10 } }) ∧
        (off = 0x86010 → t = { s with dbg := { s.dbg with traceSel := v &&& 0x7FFFFFFF } }) ∧
        (off = 0x860A0 → t = { s with dbg := { s.dbg with hangCfg := v &&& 0x0000FFFF } }) ∧
        (∀ p : Nat, p < 6 → off.toNat = 0x8200C + 32 * p → t = s.modPort p fun k => { k with planShd := v &&& 0xC01C7FFF }) ∧
        (∀ n : Nat, n < 72 → off.toNat = 0x60100 + 1024 * n → t = s.setBox (16 * (n / 9) + n % 9)
          { s.box (16 * (n / 9) + n % 9) with mxConfig := v &&& 0x00000FF1 }))) ∧
    (∀ (s : State) (off : BitVec 21) (v : BitVec 32), s.hostUp = true →
      (off = 0x04 → exec (.registerWrite .host off v) s = .next (s.renewLease v)) ∧
      (off = 0x0C → exec (.registerWrite .host off v) s = .next
        { s with hif := { s.hif with hwerr := s.hif.hwerr &&& ~~~(v.setWidth 3) } }) ∧
      (off = 0x1000 → exec (.registerWrite .host off v) s = .next
        { s with hif := { s.hif with mbDone := s.hif.mbDone && !v.getLsbD 31, mbBusy := s.hif.mbBusy || v.getLsbD 0 } }) ∧
      (∀ k : Nat, k < 64 → off.toNat = 0x1100 + 4 * k → exec (.registerWrite .host off v) s = .next
        { s with hif := { s.hif with mbReq := Mem.writeNat 0 s.hif.mbReq (4 * k) 4 v.toNat } }) ∧
      (∀ q : Nat, q < 64 → off.toNat = 0x2000 + 8 * q → (s.queue q).tailOk (v.setWidth 16) = true →
        exec (.registerWrite .host off v) s = .next (s.doorbell q (v.setWidth 16))) ∧
      (∀ q : Nat, q < 64 → off.toNat = 0x2004 + 8 * q → (s.queue q).headOk (v.setWidth 16) = true →
        exec (.registerWrite .host off v) s = .next (s.cqHeadWrite q (v.setWidth 16))) ∧
      (s.servesFe = true → s.hif.fe = [] →
        (off = 0x10C → exec (.registerWrite .host off v) s = .next
          { s with hif := { s.hif with cause := s.hif.cause &&& ~~~(v.setWidth 5) } }) ∧
        (off = 0x860A0 → exec (.registerWrite .host off v) s = .next
          { s with dbg := { s.dbg with hangCfg := v &&& 0x0000FFFF } }) ∧
        (off = 0x84004 ∨ off = 0x83100 ∨ off = 0x81004 ∨ off = 0x80008 ∨ off = 0x850FC →
          exec (.registerWrite .host off v) s = .next s)) ∧
      (s.servesFe = false → feServed off.toNat = true → exec (.registerWrite .host off v) s = .next
        { s with hif := { s.hif with fe := s.hif.fe ++ [⟨off.toNat, some v, s.ns⟩] } }) ∧
      (∃ t, exec (.registerWrite .host off v) s = .next t) ∧
      (∀ q : Nat, q < 64 →
        (off.toNat = 0x2000 + 8 * q → (s.queue q).tailOk (v.setWidth 16) = false →
          exec (.registerWrite .host off v) s = .next (s.undefinedAll.doorbell q (v.setWidth 16))) ∧
        (off.toNat = 0x2004 + 8 * q → (s.queue q).headOk (v.setWidth 16) = false →
          exec (.registerWrite .host off v) s = .next (s.undefinedAll.cqHeadWrite q (v.setWidth 16)))) ∧
      (hwServed off.toNat = false → feServed off.toNat = false → exec (.registerWrite .host off v) s = .next s) ∧
      (∀ i : Nat, i < 256 → off.toNat = 4 * i → i % 4 = 1 ∨ i % 4 = 2 → exec (.registerWrite .msix off v) s = .next
        ({ s with hif := { s.hif with msix := Sparse.put s.hif.msix i v } } : State).sendPending) ∧
      (∀ n : Nat, n < 64 → off.toNat = 16 * n + 12 → exec (.registerWrite .msix off v) s = .next
        ({ s with hif := { s.hif with msix := Sparse.put s.hif.msix (4 * n + 3) (v &&& 1) } } : State).sendPending) ∧
      (s.hif.pba = 0 ∨ s.hif.detached = true → s.sendPending = s) ∧
      (∀ n : Nat, n < 64 → s.hif.pba = (1 : BitVec 64) <<< n → s.hif.detached = false → s.hif.linkUp = true →
        ((s.hif.msix.at 1 (4 * n + 3)).getLsbD 0 = true → s.sendPending = s) ∧
        ((s.hif.msix.at 1 (4 * n + 3)).getLsbD 0 = false → s.sendPending =
          ({ s with hif := { s.hif with pba := 0 } } : State).sendVector (BitVec.ofNat 6 n)))) ∧
    (∀ (s : State) (off : BitVec 21) (v : BitVec 32),
      (s.hostUp = false → exec (.registerWrite .host off v) s = .next s ∧ exec (.registerWrite .msix off v) s = .next s) ∧
      exec (.registerWrite .side off v) s = exec (.windowWrite (off.setWidth 32) v) s ∧
      (s.fwWrites = false ∨ off.toNat % 4 ≠ 0 → exec (.registerWrite .firmware off v) s = .next s) ∧
      (s.fwWrites = true →
        (off = 0x80008 → exec (.registerWrite .firmware off v) s = .next { s with mem := { s.mem with scrubCfg := v &&& 0x0000FF01 } }) ∧
        (off = 0x8000C → exec (.registerWrite .firmware off v) s = .next { s with mem := { s.mem with repairCfg := v &&& 0x0000FF01 } }) ∧
        (off = 0x81004 → exec (.registerWrite .firmware off v) s = .next { s with dsp := { s.dsp with cfg := v &&& 0x0FFFFF01 } }) ∧
        (off = 0x83004 → exec (.registerWrite .firmware off v) s = .next { s with col := { s.col with cfg := v &&& 0x000FFFFF } }) ∧
        (∀ (b : BitVec 3) (i : Nat), 1 ≤ b.toNat → b.toNat ≤ 6 → i < 16 → off.toNat = 0x82780 + 256 * b.toNat + 4 * i →
          exec (.registerWrite .firmware off v) s = .next (s.setArbBlock b { s.arbBlock b with
            shd := { (s.arbBlock b).shd with slots := rset (s.arbBlock b).shd.slots (BitVec.ofNat 4 i) (v &&& 0x1F1F1F1F) } }))))
  )

/-- Traces: entries staged, dropped and written, arming and stopping, and the five sources of a trigger (R524, R525,
R526, R527, R528, R540, R542). -/
def Obligations.TraceBlocks : Prop :=
  (
    (∀ (s : State) (die : BitVec 3) (cluster : BitVec 4) (code : BitVec 16) (sev : BitVec 2) (cell : Option (BitVec 4))
        (payload : List Byte), cluster.toNat < 9 → let k := 16 * die.toNat + cluster.toNat
      let t := (s.box k).trace
      let e : TraceEntry := ⟨code, sev.setWidth 8, 0, s.boxLt k, (payload ++ List.replicate 16 0).take 16⟩
      let sent := exec (.traceEntry die cluster code sev cell payload) s
      (s.dbg.braked = true ∨ s.pwr.main = false ∨ t.armed = false ∨ t.stopping = true ∨
        t.enabled code.toNat sev.toNat cell = false → sent = .next s) ∧
      (s.dbg.braked = false → s.pwr.main = true → t.armed = true → t.stopping = false →
        t.enabled code.toNat sev.toNat cell = true →
        (t.staged < 64 → t.pendDrops = 0 → sent = .next (s.modTrace k fun _ => { t with staging := t.staging ++ [e] })) ∧
        (t.staged < 64 → 0 < t.pendDrops → sent = .next (s.modTrace k fun _ =>
          { t with staging := t.staging ++ [overflowEntry t.pendDrops t.pendFirst t.pendLast, e], pendDrops := 0 })) ∧
        (64 ≤ t.staged →
          let lost : State := s.modTrace k fun _ =>
            { t with pendDrops := t.pendDrops + 1, pendFirst := if t.pendDrops = 0 then s.boxLt k else t.pendFirst
                     pendLast := s.boxLt k, dropped := satInc t.dropped, ovfRaised := true }
          (t.ovfRaised = true → sent = .next lost) ∧
          (t.ovfRaised = false → sent = .next
            (lost.raise 0x0C03 .warning [(1, clusterIndex k), (4, (satInc t.dropped).toNat), (8, (s.boxLt k).toNat)]))))) ∧
    (∀ (s : State) (die : BitVec 3) (cluster : BitVec 4), cluster.toNat < 9 → let k := 16 * die.toNat + cluster.toNat
      let t := (s.box k).trace
      (s.pwr.main = false ∨ t.armed = false → exec (.traceWrite die cluster) s = .next s) ∧
      (s.pwr.main = true → t.armed = true → t.stopping = false → (t.staging = [] → exec (.traceWrite die cluster) s = .next s) ∧
        ∀ e rest, t.staging = e :: rest →
          (t.mode = 2 → t.post = none → exec (.traceWrite die cluster) s = .next (s.modTrace k fun _ =>
            { t with staging := rest, slots := Sparse.put t.slots t.wr { e with seq := t.seq }, seq := t.seq + 1
                     wr := (t.wr + 1) % 32768, used := t.used + 1
                     ovwr := if t.wr < 32768 ∧ 32768 ≤ t.used then satInc t.ovwr else t.ovwr })) ∧
          (t.mode = 3 → t.post = none → t.wr < 32768 → e.code = 0xFE → exec (.traceWrite die cluster) s = .next (s.modTrace k fun _ =>
            { t with staging := rest, slots := Sparse.put t.slots t.wr { e with seq := t.seq }, seq := t.seq + 1
                     wr := (t.wr + 1) % 32768, used := t.used + 1, post := some (t.share + t.region - 1)
                     ovwr := if 32768 ≤ t.used then satInc t.ovwr else t.ovwr })) ∧
          (∀ n, t.mode = 3 → t.post = some n → 1 < n → t.region = 0 → t.wr < 32768 →
            exec (.traceWrite die cluster) s = .next (s.modTrace k fun _ =>
            { t with staging := rest, slots := Sparse.put t.slots t.wr { e with seq := t.seq }, seq := t.seq + 1
                     wr := (t.wr + 1) % 32768, used := t.used + 1, post := some (n - 1)
                     ovwr := if 32768 ≤ t.used then satInc t.ovwr else t.ovwr })) ∧
          (∀ a, t.mode = 3 → t.post = some 1 → t.held = some a → t.ovfRaised = true →
            exec (.traceWrite die cluster) s = .next (s.modTrace k fun _ =>
            { t with staging := rest, held := some (a.1, a.2.1 + 1, a.2.2.1, e.lt), dropped := satInc t.dropped
                     slots := Sparse.put t.slots a.1 { overflowEntry (a.2.1 + 1) a.2.2.1 e.lt with
                       seq := (Sparse.at (overflowEntry (a.2.1 + 1) a.2.2.1 e.lt) t.slots a.1).seq } })) ∧
          (t.mode = 1 → t.post = none → t.used + 1 < 32768 + t.region → exec (.traceWrite die cluster) s = .next (s.modTrace k fun _ =>
            { t with staging := rest, slots := Sparse.put t.slots t.wr { e with seq := t.seq }, seq := t.seq + 1, wr := t.wr + 1
                     used := t.used + 1 })) ∧
          (t.mode = 1 → t.held = none → 32768 + t.region ≤ t.used + 1 → t.ovfRaised = true →
            exec (.traceWrite die cluster) s = .next (s.modTrace k fun _ =>
              { t with staging := rest, slots := Sparse.put t.slots t.wr { overflowEntry 1 e.lt e.lt with seq := t.seq }
                       seq := t.seq + 1, held := some (t.wr, 1, e.lt, e.lt), stopped := true, dropped := satInc t.dropped })))) ∧
    (∀ (s : State) (die : BitVec 3) (cluster : BitVec 4), cluster.toNat < 9 → let k := 16 * die.toNat + cluster.toNat
      let t := (s.box k).trace
      (s.pwr.main = true → s.dbg.braked = false → exec (.traceArm die cluster) s = .next (s.modTrace k fun _ =>
        { t with run := t.cfg, armed := decide (bitsOf t.cfg.toNat 31 30 ≠ 0), triggered := false, stopped := false, stopping := false
                 ovfRaised := false, staging := [], pendDrops := 0, pendFirst := 0, pendLast := 0, wr := 0, used := 0
                 post := none, held := none, seq := 0, dropped := 0, ovwr := 0 })) ∧
      (s.pwr.main = false ∨ s.dbg.braked = true → exec (.traceArm die cluster) s = .next s) ∧
      (s.pwr.main = true → t.armed = true → t.staging = [] → t.pendDrops = 0 → exec (.traceStop die cluster) s = .next
        (s.modTrace k fun _ => { t with armed := false, stopped := true, stopping := false })) ∧
      (s.pwr.main = true → t.armed = true → t.staging ≠ [] ∨ 0 < t.pendDrops → exec (.traceStop die cluster) s = .next
        (s.modTrace k fun _ => { t with stopping := true })) ∧
      (s.pwr.main = false → exec (.traceStop die cluster) s = .next s)) ∧
    ∀ (s : State) (die cluster code sev cell payload), 9 ≤ cluster.toNat →
      exec (.traceEntry die cluster code sev cell payload) s = .fault (.noSuchPart 22) ∧
      exec (.traceWrite die cluster) s = .fault (.noSuchPart 22) ∧ exec (.traceArm die cluster) s = .fault (.noSuchPart 22) ∧
      exec (.traceStop die cluster) s = .fault (.noSuchPart 22)
  ) ∧
  (
    ∀ (s : State) (die : BitVec 3) (cluster : BitVec 4), cluster.toNat < 9 → let k := 16 * die.toNat + cluster.toNat
      let t := (s.box k).trace
      let entry (source cell origin : Nat) (lt : BitVec 64) : TraceEntry :=
        ⟨0x00FE, 0, 0, s.boxLt k, pay [(2, cell), (1, source), (1, origin), (8, lt.toNat)]⟩
      let fired (source cell origin : Nat) (lt : BitVec 64) : State :=
        (s.modTrace k fun t => { (t.stage (entry source cell origin lt)) with triggered := true }).raise 0x0C02 .info
          [(1, clusterIndex k), (1, source), (2, cell)]
      let ready := t.armed = true ∧ t.stopping = false ∧ t.mode = 3 ∧ t.triggered = false
      let outcome (o : Out) (source cell origin : Nat) (lt : BitVec 64) : Prop :=
        (¬ ready → o = .next s) ∧ (ready → t.trig.getLsbD 30 = false → o = .next (fired source cell origin lt)) ∧
        (ready → t.trig.getLsbD 30 = true → s.dbg.braked = false → ∃ u, o = .next u ∧ u.dbg.braked = true ∧ u.dbg.source = 3)
      (s.pwr.main = true →
        outcome (exec (.traceSwTrigger die cluster) s) 0 0x7FF (clusterIndex k) (s.boxLt k) ∧
        (∀ (cell : BitVec 4) (code : BitVec 16), let id : CellId := BitVec.ofNat 11 (16 * k + cell.toNat)
          (t.trig.getLsbD 29 = true → (s.cell id).nan.latched = true →
            outcome (exec (.traceTrigger die cluster 1 cell code) s) 1 (16 * k + cell.toNat) (clusterIndex k) (s.boxLt k)) ∧
          (t.trig.getLsbD 28 = true → (s.cell id).st = .faulted →
            outcome (exec (.traceTrigger die cluster 2 cell code) s) 2 (16 * k + cell.toNat) (clusterIndex k) (s.boxLt k)) ∧
          (t.trig.getLsbD 27 = true → (∃ e ∈ s.events, e.code = code) →
            (t.trig.getLsbD 26 = false ∧ code = t.trig.setWidth 16 ∨
              t.trig.getLsbD 26 = true ∧ code.extractLsb' 8 8 = t.trig.extractLsb' 8 8) →
            outcome (exec (.traceTrigger die cluster 3 cell code) s) 3 0x7FF (clusterIndex k) (s.boxLt k)) ∧
          (t.trig.getLsbD 29 = false → exec (.traceTrigger die cluster 1 cell code) s = .next s) ∧
          (t.trig.getLsbD 28 = false → exec (.traceTrigger die cluster 2 cell code) s = .next s) ∧
          (t.trig.getLsbD 27 = false → exec (.traceTrigger die cluster 3 cell code) s = .next s) ∧
          exec (.traceTrigger die cluster 0 cell code) s = .next s)) ∧
      (s.fwWrites = true → ∀ (fromDie : BitVec 3) (fromCluster : BitVec 4) (lt : BitVec 64), fromCluster.toNat < 9 →
        let o := 16 * fromDie.toNat + fromCluster.toNat
        o ≠ k → (s.box o).trace.triggered = true → (s.box o).trace.trig.getLsbD 31 = true →
          outcome (exec (.globalTrigger die cluster fromDie fromCluster lt) s) 4 0x7FF (clusterIndex o) lt) ∧
      (s.pwr.main = false → exec (.traceSwTrigger die cluster) s = .next s ∧ ∀ source cell code fromDie fromCluster lt,
        exec (.traceTrigger die cluster source cell code) s = .next s ∧
        exec (.globalTrigger die cluster fromDie fromCluster lt) s = .next s)
  )

/-- The wait-for graph: two snapshots 100 microseconds apart, the image, its generation, cycles and dead waits (R536,
R537, R538, R541, R542). -/
def Obligations.HangGraph : Prop :=
  (∀ s : State, s.servesFe = true ∨ s.sideUp = true →
    (s.pwr.main = true → s.hif.fwUp = true → s.dbg.snap = none → ∀ v : BitVec 32, v.getLsbD 0 = true →
      exec (.dbgHangBuild v) s = .next { s with free := s.free + 1, dbg := { s.dbg with snap := some (s.ns, s.snapshot) } }) ∧
    (∀ v : BitVec 32, v.getLsbD 0 = false ∨ s.dbg.snap ≠ none ∨ s.hif.fwUp = false → exec (.dbgHangBuild v) s = .next s)) ∧
  (∀ (s : State) (id : BitVec 32) (k : Task), s.task id.toNat = some k →
    let time := bitsOf s.dbg.hangCfg.toNat 15 0
    (time = 0 ∨ k.stage ≠ .running ∨ (∃ c ∈ k.cells, s.ns < (s.cell c).ctr.moved + 1000000 * time) →
      exec (.hangWatchTimeout id) s = .next s) ∧
    (time ≠ 0 → k.stage = .running → (s.dispRuns = true ∨ s.dbg.braked = true) →
      (∀ c ∈ k.cells, (s.cell c).ctr.moved + 1000000 * time ≤ s.ns) → s.fwWrites = true → s.dbg.snap = none →
      exec (.hangWatchTimeout id) s = .next
        { s with free := s.free + 1, dbg := { s.dbg with snap := some (s.ns, s.snapshot) } })) ∧
  (∀ s : State, s.dbg.snap = none → exec .hangSnapshotConfirm s = .next s) ∧
  (∀ (s : State) (t0 : Nat) (first : List SnapWait), s.dbg.snap = some (t0, first) →
    (s.ns < t0 + 100000 → exec .hangSnapshotConfirm s = .next s) ∧
    (t0 + 100000 ≤ s.ns → s.fwWrites = true →
      let g := s.graph (s.snapshot.filter fun w => first.any w.same) (Config.freeNat s.free % 2 ^ 32)
      (g.cycles = [] → g.dead = [] → (g.bytes t0 s.ns (s.dbg.gen + 1).toNat false).length ≤ 65536 →
        exec .hangSnapshotConfirm s = .next
          { s with free := s.free + 1
                   dbg := { s.dbg with snap := none, image := g.bytes t0 s.ns (s.dbg.gen + 1).toNat false
                                       gen := s.dbg.gen + 1, cycles := 0, dead := 0 } }) ∧
      (g.cycles ≠ [] ∨ g.dead ≠ [] → ∃ (img : List Byte) (lead : Nat),
        ((g.bytes t0 s.ns (s.dbg.gen + 1).toNat false).length ≤ 65536 → img = g.bytes t0 s.ns (s.dbg.gen + 1).toNat false) ∧
        (g.cycles = [] → lead = 0x7FF) ∧
        let t : State := { s with free := s.free + 1
                                  dbg := { s.dbg with snap := none, image := img, gen := s.dbg.gen + 1
                                                      cycles := BitVec.ofNat 8 (min 255 g.cycles.length)
                                                      dead := BitVec.ofNat 8 (min 255 g.dead.length) } }
        exec .hangSnapshotConfirm s = .next (t.raise 0x0C04 .error [(4, (s.dbg.gen + 1).toNat), (1, min 255 g.cycles.length),
          (1, min 255 g.dead.length), (2, lead)]))))
end

