-- ==== Sys2Proof/Laws/Events.lean ====
section
/-!
SUPPORT. What raising an event and sending an answer can change (R27, R80, R375): the event log, the counts of the debug
block and the host interface, and nothing else.
-/

namespace Sys2Proof.Machine

/-- Issuing an event record changes the event log, the event counts and the host interface only. -/
theorem State.issueEvent_frame (s : State) :
    ∃ ev a b h, s.issueEvent = { s with events := ev, dbg := { s.dbg with evtErr := a, evtWarn := b }, hif := h } := by
  unfold State.issueEvent
  simp only
  split
  · exact ⟨s.events, s.dbg.evtErr, s.dbg.evtWarn, s.hif, rfl⟩
  · split
    · split
      · exact ⟨s.events, s.dbg.evtErr, s.dbg.evtWarn, s.hif, rfl⟩
      · exact ⟨s.events, s.dbg.evtErr, s.dbg.evtWarn, _, rfl⟩
    · split
      · exact ⟨_, _, _, _, rfl⟩
      · split
        · exact ⟨s.events, s.dbg.evtErr, s.dbg.evtWarn, s.hif, rfl⟩
        · exact ⟨s.events, s.dbg.evtErr, s.dbg.evtWarn, _, rfl⟩

/-- Offering an event to the ring changes the same parts only. -/
theorem State.offerEvent_frame (s : State) (e : Event) :
    ∃ ev a b h, s.offerEvent e = { s with events := ev, dbg := { s.dbg with evtErr := a, evtWarn := b }, hif := h } := by
  unfold State.offerEvent
  simp only
  split
  · exact ⟨s.events, s.dbg.evtErr, s.dbg.evtWarn, s.hif, rfl⟩
  · split
    · exact ⟨s.events, s.dbg.evtErr, s.dbg.evtWarn, _, rfl⟩
    · obtain ⟨ev, a, b, h, e⟩ := State.issueEvent_frame { s with hif := { s.hif with evQueue := s.hif.evQueue ++ [e] } }
      exact ⟨ev, a, b, h, e⟩

/-- Raising an event changes the event log, the event counts and the host interface only. -/
theorem State.raise_frame (s : State) (code : Nat) (sev : Severity) (f : List (Nat × Nat)) :
    ∃ ev a b h, s.raise code sev f = { s with events := ev, dbg := { s.dbg with evtErr := a, evtWarn := b }, hif := h } := by
  unfold State.raise
  split
  · obtain ⟨ev, a, b, h, e⟩ :=
      (s.logEvent ⟨BitVec.ofNat 16 code, sev, if s.ltRuns then s.ns else 0, pay f⟩).offerEvent_frame
        ⟨BitVec.ofNat 16 code, sev, if s.ltRuns then s.ns else 0, pay f⟩
    refine ⟨ev, a, b, h, ?_⟩
    show State.offerEvent _ _ = _
    rw [e]
    unfold State.logEvent
    cases sev <;> rfl
  · exact ⟨s.events, s.dbg.evtErr, s.dbg.evtWarn, s.hif, rfl⟩

@[simp] theorem State.raise_pending (s : State) (c : Nat) (v : Severity) (f : List (Nat × Nat)) :
    (s.raise c v f).pending = s.pending := by obtain ⟨_, _, _, _, e⟩ := s.raise_frame c v f; rw [e]
@[simp] theorem State.raise_free (s : State) (c : Nat) (v : Severity) (f : List (Nat × Nat)) :
    (s.raise c v f).free = s.free := by obtain ⟨_, _, _, _, e⟩ := s.raise_frame c v f; rw [e]
@[simp] theorem State.raise_lt8 (s : State) (c : Nat) (v : Severity) (f : List (Nat × Nat)) :
    (s.raise c v f).lt8 = s.lt8 := by obtain ⟨_, _, _, _, e⟩ := s.raise_frame c v f; rw [e]
@[simp] theorem State.raise_replies (s : State) (c : Nat) (v : Severity) (f : List (Nat × Nat)) :
    (s.raise c v f).replies = s.replies := by obtain ⟨_, _, _, _, e⟩ := s.raise_frame c v f; rw [e]
@[simp] theorem State.raise_cells (s : State) (c : Nat) (v : Severity) (f : List (Nat × Nat)) :
    (s.raise c v f).cells = s.cells := by obtain ⟨_, _, _, _, e⟩ := s.raise_frame c v f; rw [e]
@[simp] theorem State.raise_boxes (s : State) (c : Nat) (v : Severity) (f : List (Nat × Nat)) :
    (s.raise c v f).boxes = s.boxes := by obtain ⟨_, _, _, _, e⟩ := s.raise_frame c v f; rw [e]
@[simp] theorem State.raise_mem (s : State) (c : Nat) (v : Severity) (f : List (Nat × Nat)) :
    (s.raise c v f).mem = s.mem := by obtain ⟨_, _, _, _, e⟩ := s.raise_frame c v f; rw [e]
@[simp] theorem State.raise_dsp (s : State) (c : Nat) (v : Severity) (f : List (Nat × Nat)) :
    (s.raise c v f).dsp = s.dsp := by obtain ⟨_, _, _, _, e⟩ := s.raise_frame c v f; rw [e]
@[simp] theorem State.raise_lnk (s : State) (c : Nat) (v : Severity) (f : List (Nat × Nat)) :
    (s.raise c v f).lnk = s.lnk := by obtain ⟨_, _, _, _, e⟩ := s.raise_frame c v f; rw [e]
@[simp] theorem State.raise_col (s : State) (c : Nat) (v : Severity) (f : List (Nat × Nat)) :
    (s.raise c v f).col = s.col := by obtain ⟨_, _, _, _, e⟩ := s.raise_frame c v f; rw [e]
@[simp] theorem State.raise_rcv (s : State) (c : Nat) (v : Severity) (f : List (Nat × Nat)) :
    (s.raise c v f).rcv = s.rcv := by obtain ⟨_, _, _, _, e⟩ := s.raise_frame c v f; rw [e]
@[simp] theorem State.raise_pwr (s : State) (c : Nat) (v : Severity) (f : List (Nat × Nat)) :
    (s.raise c v f).pwr = s.pwr := by obtain ⟨_, _, _, _, e⟩ := s.raise_frame c v f; rw [e]
@[simp] theorem State.raise_fw (s : State) (c : Nat) (v : Severity) (f : List (Nat × Nat)) :
    (s.raise c v f).fw = s.fw := by obtain ⟨_, _, _, _, e⟩ := s.raise_frame c v f; rw [e]

end Sys2Proof.Machine
end

