-- ==== Sys2Proof/Laws/Kept.lean ====
section
/-!
SUPPORT. What every operation of the machine leaves alone: the queue of commands that wait, and the authenticated
counters of module flash (R505). `State.kept` names the three, and each lemma says that one operation keeps them.
-/

set_option linter.unusedSimpArgs false
set_option maxHeartbeats 400000

namespace Sys2Proof.Machine

/-- The queue, FW_FLOOR and MINKEY. -/
def State.kept (s : State) : List Instr × BitVec 32 × BitVec 4 := (s.pending, s.fw.floor, s.fw.minKey)

/-- What serving a message comes to keeps the three. -/
def MbRes.Keeps (r : MbRes) (s : State) : Prop :=
  match r with
  | .done _ _ t | .wait t => t.kept = s.kept
  | .undef => True

theorem State.kept_congr {s t : State} (h1 : t.pending = s.pending) (h2 : t.fw.floor = s.fw.floor)
    (h3 : t.fw.minKey = s.fw.minKey) : t.kept = s.kept := by
  unfold State.kept; rw [h1, h2, h3]

theorem State.foldl_kept {α : Type} (f : State → α → State) (l : List α) (s : State) (h : ∀ s a, (f s a).kept = s.kept) :
    (l.foldl f s).kept = s.kept := by
  induction l generalizing s with
  | nil => rfl
  | cons a l ih => rw [List.foldl_cons, ih, h]

theorem State.foldl2_kept {α β : Type} (f : State × β → α → State × β) (l : List α) (s : State × β)
    (h : ∀ s a, (f s a).1.kept = s.1.kept) : (l.foldl f s).1.kept = s.1.kept := by
  induction l generalizing s with
  | nil => rfl
  | cons a l ih => rw [List.foldl_cons, ih, h]

theorem State.iterWhile_kept (f : State → Option State) (n : Nat) (s : State)
    (h : ∀ s t, f s = some t → t.kept = s.kept) : (iterWhile f n s).kept = s.kept := by
  induction n generalizing s with
  | zero => rfl
  | succ n ih =>
    unfold iterWhile; split
    · rfl
    · rename_i y hy; rw [ih, h _ _ hy]

theorem withBox_kept (s : State) (die : BitVec 3) (cluster : BitVec 4) (f : Nat → State) (h : ∀ k, (f k).kept = s.kept) : ∀ t, withBox die cluster f = .next t → t.kept = s.kept := by
  intro t ht; unfold withBox at ht; split at ht
  · cases ht; exact h _
  · cases ht

/-! ### Ops -/

theorem State.freshNat_kept (s : State) :
    (State.freshNat s).2.kept = s.kept := by
  unfold State.freshNat; (try dsimp only); (repeat' split) <;> first
    | with_reducible rfl
    | (apply State.kept_congr <;> with_reducible rfl)
    | (grind [State.kept, State.foldl_kept])
    | rfl

theorem State.skipFree_kept (s : State) (n : Nat) :
    (State.skipFree s n).kept = s.kept := by
  unfold State.skipFree; (try dsimp only); (repeat' split) <;> first
    | with_reducible rfl
    | (apply State.kept_congr <;> with_reducible rfl)
    | (grind [State.kept, State.foldl_kept])
    | rfl

theorem State.seenBytes_kept (s : State) (bs : List (Byte × Bool)) :
    (State.seenBytes s bs).2.kept = s.kept := by
  unfold State.seenBytes; (try dsimp only); (repeat' split) <;> first
    | with_reducible rfl
    | (apply State.kept_congr <;> with_reducible rfl)
    | (simp only [State.skipFree_kept]; done)
    | (simp only [State.skipFree_kept]; first | with_reducible rfl | (apply State.kept_congr <;> with_reducible rfl))
    | (grind [State.kept, State.skipFree_kept, State.foldl_kept])
    | rfl

theorem State.setCell_kept (s : State) (id : CellId) (c : CellState) :
    (State.setCell s id c).kept = s.kept := by
  unfold State.setCell; (try dsimp only); (repeat' split) <;> first
    | with_reducible rfl
    | (apply State.kept_congr <;> with_reducible rfl)
    | (grind [State.kept, State.foldl_kept])
    | rfl

theorem State.modCell_kept (s : State) (id : CellId) (f : CellState → CellState) :
    (State.modCell s id f).kept = s.kept := by
  unfold State.modCell; (try dsimp only); (repeat' split) <;> first
    | with_reducible rfl
    | (apply State.kept_congr <;> with_reducible rfl)
    | (simp only [State.setCell_kept]; done)
    | (simp only [State.setCell_kept]; first | with_reducible rfl | (apply State.kept_congr <;> with_reducible rfl))
    | (grind [State.kept, State.setCell_kept, State.foldl_kept])
    | rfl

theorem State.setBox_kept (s : State) (k : Nat) (b : BoxState) :
    (State.setBox s k b).kept = s.kept := by
  unfold State.setBox; (try dsimp only); (repeat' split) <;> first
    | with_reducible rfl
    | (apply State.kept_congr <;> with_reducible rfl)
    | (grind [State.kept, State.foldl_kept])
    | rfl

theorem withCell_kept (id : CellId) (s : State) (f : State → State) (h : (f s).kept = s.kept) : ∀ t, withCell id s f = .next t → t.kept = s.kept := by
  intro t ht; unfold withCell at ht; split at ht
  · cases ht; exact h
  · cases ht

theorem withLive_kept (id : CellId) (s : State) (f : State → State) (h : (f s).kept = s.kept) : ∀ t, withLive id s f = .next t → t.kept = s.kept := by
  unfold withLive
  apply withCell_kept; split
  · exact h
  · rfl

theorem State.logEvent_kept (s : State) (e : Event) :
    (State.logEvent s e).kept = s.kept := by
  unfold State.logEvent; (try dsimp only); (repeat' split) <;> first
    | with_reducible rfl
    | (apply State.kept_congr <;> with_reducible rfl)
    | (grind [State.kept, State.foldl_kept])
    | rfl

theorem State.writeEvent_kept (s : State) (e : Event) (drops : Nat) (dropLt : Nat) :
    (State.writeEvent s e drops dropLt).kept = s.kept := by
  unfold State.writeEvent; (try dsimp only); (repeat' split) <;> first
    | with_reducible rfl
    | (apply State.kept_congr <;> with_reducible rfl)
    | (grind [State.kept, State.foldl_kept])
    | rfl

theorem State.issueEvent_kept (s : State) :
    (State.issueEvent s).kept = s.kept := by
  unfold State.issueEvent; (try dsimp only); (repeat' split) <;> first
    | with_reducible rfl
    | (apply State.kept_congr <;> with_reducible rfl)
    | (simp only [State.writeEvent_kept, State.logEvent_kept]; done)
    | (simp only [State.writeEvent_kept, State.logEvent_kept]; first | with_reducible rfl | (apply State.kept_congr <;> with_reducible rfl))
    | (grind [State.kept, State.writeEvent_kept, State.logEvent_kept, State.foldl_kept])
    | rfl

theorem State.offerEvent_kept (s : State) (e : Event) :
    (State.offerEvent s e).kept = s.kept := by
  unfold State.offerEvent; (try dsimp only); (repeat' split) <;> first
    | with_reducible rfl
    | (apply State.kept_congr <;> with_reducible rfl)
    | (simp only [State.issueEvent_kept]; done)
    | (simp only [State.issueEvent_kept]; first | with_reducible rfl | (apply State.kept_congr <;> with_reducible rfl))
    | (grind [State.kept, State.issueEvent_kept, State.foldl_kept])
    | rfl

theorem State.raise_kept (s : State) (code : Nat) (sev : Severity) (fields : List (Nat × Nat)) :
    (State.raise s code sev fields).kept = s.kept := by
  unfold State.raise; (try dsimp only); (repeat' split) <;> first
    | with_reducible rfl
    | (apply State.kept_congr <;> with_reducible rfl)
    | (simp only [State.offerEvent_kept, State.logEvent_kept]; done)
    | (simp only [State.offerEvent_kept, State.logEvent_kept]; first | with_reducible rfl | (apply State.kept_congr <;> with_reducible rfl))
    | (grind [State.kept, State.offerEvent_kept, State.logEvent_kept, State.foldl_kept])
    | rfl

theorem State.reply_kept (s : State) (port : Nat) (code : Nat) (nums : List Nat) (data : optParam (List Byte) []) :
    (State.reply s port code nums data).kept = s.kept := by
  unfold State.reply; (try dsimp only); (repeat' split) <;> first
    | with_reducible rfl
    | (apply State.kept_congr <;> with_reducible rfl)
    | (grind [State.kept, State.foldl_kept])
    | rfl

theorem State.sendVector_kept (s : State) (v : BitVec 6) :
    (State.sendVector s v).kept = s.kept := by
  unfold State.sendVector; (try dsimp only); (repeat' split) <;> first
    | with_reducible rfl
    | (apply State.kept_congr <;> with_reducible rfl)
    | (simp only [State.reply_kept]; done)
    | (simp only [State.reply_kept]; first | with_reducible rfl | (apply State.kept_congr <;> with_reducible rfl))
    | (grind [State.kept, State.reply_kept, State.foldl_kept])
    | rfl

theorem State.sendPending_kept (s : State) :
    (State.sendPending s).kept = s.kept := by
  unfold State.sendPending; (try dsimp only); (repeat' split) <;> first
    | with_reducible rfl
    | (apply State.kept_congr <;> with_reducible rfl)
    | (simp only [State.sendVector_kept]; done)
    | (simp only [State.sendVector_kept]; first | with_reducible rfl | (apply State.kept_congr <;> with_reducible rfl))
    | (grind [State.kept, State.sendVector_kept, State.foldl_kept])
    | rfl

theorem State.setCause_kept (s : State) (bit : Nat) :
    (State.setCause s bit).kept = s.kept := by
  unfold State.setCause; (try dsimp only); (repeat' split) <;> first
    | with_reducible rfl
    | (apply State.kept_congr <;> with_reducible rfl)
    | (simp only [State.sendVector_kept]; done)
    | (simp only [State.sendVector_kept]; first | with_reducible rfl | (apply State.kept_congr <;> with_reducible rfl))
    | (grind [State.kept, State.sendVector_kept, State.foldl_kept])
    | rfl

theorem State.suspect_kept (s : State) (id : CellId) (cause : Nat) :
    (State.suspect s id cause).kept = s.kept := by
  unfold State.suspect; (try dsimp only); (repeat' split) <;> first
    | with_reducible rfl
    | (apply State.kept_congr <;> with_reducible rfl)
    | (simp only [State.setCell_kept, State.raise_kept]; done)
    | (simp only [State.setCell_kept, State.raise_kept]; first | with_reducible rfl | (apply State.kept_congr <;> with_reducible rfl))
    | (grind [State.kept, State.setCell_kept, State.raise_kept, State.foldl_kept])
    | rfl

theorem State.suspectFault_kept (s : State) (id : CellId) (cause : Nat) :
    (State.suspectFault s id cause).kept = s.kept := by
  unfold State.suspectFault; (try dsimp only); (repeat' split) <;> first
    | with_reducible rfl
    | (apply State.kept_congr <;> with_reducible rfl)
    | (simp only [State.modCell_kept, State.suspect_kept]; done)
    | (simp only [State.modCell_kept, State.suspect_kept]; first | with_reducible rfl | (apply State.kept_congr <;> with_reducible rfl))
    | (grind [State.kept, State.modCell_kept, State.suspect_kept, State.foldl_kept])
    | rfl

theorem State.poisonConsumed_kept (s : State) (id : CellId) (engine : Nat) (seq : BitVec 32) :
    (State.poisonConsumed s id engine seq).kept = s.kept := by
  unfold State.poisonConsumed; (try dsimp only); (repeat' split) <;> first
    | with_reducible rfl
    | (apply State.kept_congr <;> with_reducible rfl)
    | (simp only [State.raise_kept, State.setCell_kept]; done)
    | (simp only [State.raise_kept, State.setCell_kept]; first | with_reducible rfl | (apply State.kept_congr <;> with_reducible rfl))
    | (grind [State.kept, State.raise_kept, State.setCell_kept, State.foldl_kept])
    | rfl

theorem State.dropEnq_kept (s : State) (id : CellId) :
    (State.dropEnq s id).kept = s.kept := by
  unfold State.dropEnq; (try dsimp only); (repeat' split) <;> first
    | with_reducible rfl
    | (apply State.kept_congr <;> with_reducible rfl)
    | (grind [State.kept, State.foldl_kept])
    | rfl

theorem State.rawFault_kept (s : State) (id : CellId) (cause : BitVec 8) :
    (State.rawFault s id cause).kept = s.kept := by
  unfold State.rawFault; (try dsimp only); (repeat' split) <;> first
    | with_reducible rfl
    | (apply State.kept_congr <;> with_reducible rfl)
    | (simp only [State.setCell_kept, State.dropEnq_kept]; done)
    | (simp only [State.setCell_kept, State.dropEnq_kept]; first | with_reducible rfl | (apply State.kept_congr <;> with_reducible rfl))
    | (grind [State.kept, State.setCell_kept, State.dropEnq_kept, State.foldl_kept])
    | rfl

theorem State.storeUe_kept (s : State) (id : CellId) (word : Nat) (mask : Nat) :
    (State.storeUe s id word mask).kept = s.kept := by
  unfold State.storeUe; (try dsimp only); (repeat' split) <;> first
    | with_reducible rfl
    | (apply State.kept_congr <;> with_reducible rfl)
    | (simp only [State.suspect_kept, State.raise_kept]; done)
    | (simp only [State.suspect_kept, State.raise_kept]; first | with_reducible rfl | (apply State.kept_congr <;> with_reducible rfl))
    | (grind [State.kept, State.suspect_kept, State.raise_kept, State.foldl_kept])
    | rfl

theorem State.touchStore_kept (s : State) (id : CellId) (lanes : List Nat) :
    (State.touchStore s id lanes).kept = s.kept := by
  unfold State.touchStore; (try dsimp only); (repeat' split) <;> first
    | with_reducible rfl
    | (apply State.kept_congr <;> with_reducible rfl)
    | (simp only [State.storeUe_kept, State.setCell_kept]; done)
    | (simp only [State.storeUe_kept, State.setCell_kept]; first | with_reducible rfl | (apply State.kept_congr <;> with_reducible rfl))
    | (grind [State.kept, State.storeUe_kept, State.setCell_kept, State.foldl_kept])
    | rfl

theorem State.touchDmem_kept (s : State) (id : CellId) (words : List Nat) :
    (State.touchDmem s id words).kept = s.kept := by
  unfold State.touchDmem; (try dsimp only); (repeat' split) <;> first
    | with_reducible rfl
    | (apply State.kept_congr <;> with_reducible rfl)
    | (simp only [State.setCell_kept]; done)
    | (simp only [State.setCell_kept]; first | with_reducible rfl | (apply State.kept_congr <;> with_reducible rfl))
    | (grind [State.kept, State.setCell_kept, State.foldl_kept])
    | rfl

/-! ### Transfer -/

theorem State.writePlace_kept (s : State) (p : Place) (bs : List (Byte × Bool)) :
    (State.writePlace s p bs).kept = s.kept := by
  unfold State.writePlace; (try dsimp only); (repeat' split) <;> first
    | with_reducible rfl
    | (apply State.kept_congr <;> with_reducible rfl)
    | (simp only [State.modCell_kept]; done)
    | (simp only [State.modCell_kept]; first | with_reducible rfl | (apply State.kept_congr <;> with_reducible rfl))
    | (grind [State.kept, State.modCell_kept, State.foldl_kept])
    | rfl

theorem State.touchPlace_kept (s : State) (p : Place) (n : Nat) :
    (State.touchPlace s p n).kept = s.kept := by
  unfold State.touchPlace; (try dsimp only); (repeat' split) <;> first
    | with_reducible rfl
    | (apply State.kept_congr <;> with_reducible rfl)
    | (simp only [State.touchStore_kept]; done)
    | (simp only [State.touchStore_kept]; first | with_reducible rfl | (apply State.kept_congr <;> with_reducible rfl))
    | (grind [State.kept, State.touchStore_kept, State.foldl_kept])
    | rfl

theorem State.touchTensor_kept (s : State) (l : List Tensor) (h : Nat) (off : Nat) (n : Nat) :
    (State.touchTensor s l h off n).kept = s.kept := by
  unfold State.touchTensor; (try dsimp only); (repeat' split) <;> first
    | with_reducible rfl
    | (apply State.kept_congr <;> with_reducible rfl)
    | (simp only [State.touchPlace_kept]; done)
    | (simp only [State.touchPlace_kept]; first | with_reducible rfl | (apply State.kept_congr <;> with_reducible rfl))
    | (grind [State.kept, State.touchPlace_kept, State.foldl_kept])
    | rfl

theorem State.writeTensor_kept (s : State) (l : List Tensor) (h off : Nat) (bs : List (Byte × Bool)) : ∀ t, s.writeTensor l h off bs = some t → t.kept = s.kept := by
  intro t ht; unfold State.writeTensor at ht; split at ht
  · cases ht
  · rw [Option.map_eq_some_iff] at ht; obtain ⟨rs, _, rfl⟩ := ht
    exact State.foldl_kept _ _ _ fun s a => State.writePlace_kept _ _ _

theorem State.undefined_kept (s : State) (reach : CellId → Bool) :
    (State.undefined s reach).kept = s.kept := by
  unfold State.undefined; (try dsimp only); (repeat' split) <;> first
    | with_reducible rfl
    | (apply State.kept_congr <;> with_reducible rfl)
    | (simp only [State.modCell_kept]; done)
    | (simp only [State.modCell_kept]; first | with_reducible rfl | (apply State.kept_congr <;> with_reducible rfl))
    | (grind [State.kept, State.modCell_kept, State.foldl_kept])
    | rfl

theorem State.undefinedAll_kept (s : State) :
    (State.undefinedAll s).kept = s.kept := by
  unfold State.undefinedAll; (try dsimp only); (repeat' split) <;> first
    | with_reducible rfl
    | (apply State.kept_congr <;> with_reducible rfl)
    | (simp only [State.undefined_kept]; done)
    | (simp only [State.undefined_kept]; first | with_reducible rfl | (apply State.kept_congr <;> with_reducible rfl))
    | (grind [State.kept, State.undefined_kept, State.foldl_kept])
    | rfl

theorem State.undefinedIf_kept (s : State) (p : Bool) :
    (State.undefinedIf s p).kept = s.kept := by
  unfold State.undefinedIf; (try dsimp only); (repeat' split) <;> first
    | with_reducible rfl
    | (apply State.kept_congr <;> with_reducible rfl)
    | (simp only [State.undefinedAll_kept]; done)
    | (simp only [State.undefinedAll_kept]; first | with_reducible rfl | (apply State.kept_congr <;> with_reducible rfl))
    | (grind [State.kept, State.undefinedAll_kept, State.foldl_kept])
    | rfl

theorem State.needSnoops_kept (s : State) (w : Bool) (l : List Nat) : ∀ t, s.needSnoops w l = some t → t.kept = s.kept := by
  intro t ht; unfold State.needSnoops at ht; dsimp only at ht; split at ht
  · split at ht
    · cases ht; rfl
    · cases ht
  · cases ht; exact State.foldl_kept _ _ _ fun s a => rfl

theorem State.applyAtom_kept (s : State) (p : AtomPiece) :
    (State.applyAtom s p).kept = s.kept := by
  unfold State.applyAtom; (try dsimp only); (repeat' split) <;> first
    | with_reducible rfl
    | (apply State.kept_congr <;> with_reducible rfl)
    | (simp only [State.touchPlace_kept, State.writePlace_kept]; done)
    | (simp only [State.touchPlace_kept, State.writePlace_kept]; first | with_reducible rfl | (apply State.kept_congr <;> with_reducible rfl))
    | (grind [State.kept, State.touchPlace_kept, State.writePlace_kept, State.foldl_kept])
    | rfl

theorem State.keepReqs_kept (s : State) (l : List MemReq) :
    (State.keepReqs s l).kept = s.kept := by
  unfold State.keepReqs; (try dsimp only); (repeat' split) <;> first
    | with_reducible rfl
    | (apply State.kept_congr <;> with_reducible rfl)
    | (grind [State.kept, State.foldl_kept])
    | rfl

theorem State.putHbm_kept (s : State) (a : Nat) (bs : List (Byte × Bool)) :
    (State.putHbm s a bs).kept = s.kept := by
  unfold State.putHbm; (try dsimp only); (repeat' split) <;> first
    | with_reducible rfl
    | (apply State.kept_congr <;> with_reducible rfl)
    | (simp only [State.needSnoops_kept, State.writePlace_kept, State.keepReqs_kept]; done)
    | (simp only [State.needSnoops_kept, State.writePlace_kept, State.keepReqs_kept]; first | with_reducible rfl | (apply State.kept_congr <;> with_reducible rfl))
    | (grind [State.kept, State.needSnoops_kept, State.writePlace_kept, State.keepReqs_kept, State.foldl_kept])
    | rfl

theorem State.land_kept (s : State) (p : Piece) :
    (State.land s p).kept = s.kept := by
  unfold State.land; (try dsimp only); (repeat' split) <;> first
    | with_reducible rfl
    | (apply State.kept_congr <;> with_reducible rfl)
    | (simp only [State.putHbm_kept, State.writePlace_kept]; done)
    | (simp only [State.putHbm_kept, State.writePlace_kept]; first | with_reducible rfl | (apply State.kept_congr <;> with_reducible rfl))
    | (grind [State.kept, State.putHbm_kept, State.writePlace_kept, State.foldl_kept])
    | rfl

theorem State.landAtom_kept (s : State) (p : AtomPiece) :
    (State.landAtom s p).kept = s.kept := by
  unfold State.landAtom; (try dsimp only); (repeat' split) <;> first
    | with_reducible rfl
    | (apply State.kept_congr <;> with_reducible rfl)
    | (simp only [State.needSnoops_kept, State.applyAtom_kept, State.keepReqs_kept]; done)
    | (simp only [State.needSnoops_kept, State.applyAtom_kept, State.keepReqs_kept]; first | with_reducible rfl | (apply State.kept_congr <;> with_reducible rfl))
    | (grind [State.kept, State.needSnoops_kept, State.applyAtom_kept, State.keepReqs_kept, State.foldl_kept])
    | rfl

theorem State.landAll_kept (s : State) (l : List Piece) :
    (State.landAll s l).kept = s.kept := by
  unfold State.landAll; (try dsimp only); (repeat' split) <;> first
    | with_reducible rfl
    | (apply State.kept_congr <;> with_reducible rfl)
    | (simp only [State.land_kept]; done)
    | (simp only [State.land_kept]; first | with_reducible rfl | (apply State.kept_congr <;> with_reducible rfl))
    | (grind [State.kept, State.land_kept, State.foldl_kept])
    | rfl

/-! ### Collect -/

theorem State.rawCmdFault_kept (s : State) (id : CellId) (queue : Nat) (opc : Nat) (seq : BitVec 32) (status : Nat) (slot : Nat) :
    (State.rawCmdFault s id queue opc seq status slot).kept = s.kept := by
  unfold State.rawCmdFault; (try dsimp only); (repeat' split) <;> first
    | with_reducible rfl
    | (apply State.kept_congr <;> with_reducible rfl)
    | (simp only [State.rawFault_kept, State.raise_kept, State.setCell_kept]; done)
    | (simp only [State.rawFault_kept, State.raise_kept, State.setCell_kept]; first | with_reducible rfl | (apply State.kept_congr <;> with_reducible rfl))
    | (grind [State.kept, State.rawFault_kept, State.raise_kept, State.setCell_kept, State.foldl_kept])
    | rfl

theorem State.sendData_kept (s : State) (o : ColOp) (d : ColSend) :
    (State.sendData s o d).kept = s.kept := by
  unfold State.sendData; (try dsimp only); (repeat' split) <;> first
    | with_reducible rfl
    | (apply State.kept_congr <;> with_reducible rfl)
    | (simp only [State.seenBytes_kept, State.reply_kept]; done)
    | (simp only [State.seenBytes_kept, State.reply_kept]; first | with_reducible rfl | (apply State.kept_congr <;> with_reducible rfl))
    | (grind [State.kept, State.seenBytes_kept, State.reply_kept, State.foldl_kept])
    | rfl

theorem State.colPut_kept (s : State) (o : ColOp) :
    (State.colPut s o).kept = s.kept := by
  unfold State.colPut; (try dsimp only); (repeat' split) <;> first
    | with_reducible rfl
    | (apply State.kept_congr <;> with_reducible rfl)
    | (simp only [State.sendData_kept]; done)
    | (simp only [State.sendData_kept]; first | with_reducible rfl | (apply State.kept_congr <;> with_reducible rfl))
    | (grind [State.kept, State.sendData_kept, State.foldl_kept])
    | rfl

theorem State.freeBytes_kept (s : State) (n : Nat) :
    (State.freeBytes s n).2.kept = s.kept := by
  unfold State.freeBytes; (try dsimp only); (repeat' split) <;> first
    | with_reducible rfl
    | (apply State.kept_congr <;> with_reducible rfl)
    | (simp only [State.skipFree_kept]; done)
    | (simp only [State.skipFree_kept]; first | with_reducible rfl | (apply State.kept_congr <;> with_reducible rfl))
    | (grind [State.kept, State.skipFree_kept, State.foldl_kept])
    | rfl

theorem State.contribTouch_kept (s : State) (c : Contribution) :
    (State.contribTouch s c).kept = s.kept := by
  unfold State.contribTouch; (try dsimp only); (repeat' split) <;> first
    | with_reducible rfl
    | (apply State.kept_congr <;> with_reducible rfl)
    | (simp only [State.touchStore_kept]; done)
    | (simp only [State.touchStore_kept]; first | with_reducible rfl | (apply State.kept_congr <;> with_reducible rfl))
    | (grind [State.kept, State.touchStore_kept, State.foldl_kept])
    | rfl

theorem State.takeData_kept (s : State) (o : ColOp) (d : EarlyData) :
    (State.takeData s o d).kept = s.kept := by
  unfold State.takeData; (try dsimp only); (repeat' split) <;> first
    | with_reducible rfl
    | (apply State.kept_congr <;> with_reducible rfl)
    | (simp only [State.colPut_kept, State.reply_kept]; done)
    | (simp only [State.colPut_kept, State.reply_kept]; first | with_reducible rfl | (apply State.kept_congr <;> with_reducible rfl))
    | (grind [State.kept, State.colPut_kept, State.reply_kept, State.foldl_kept])
    | rfl

theorem State.verEvent_kept (s : State) (h : ColHdr) (mine : Nat) :
    (State.verEvent s h mine).kept = s.kept := by
  unfold State.verEvent; (try dsimp only); (repeat' split) <;> first
    | with_reducible rfl
    | (apply State.kept_congr <;> with_reducible rfl)
    | (simp only [State.raise_kept]; done)
    | (simp only [State.raise_kept]; first | with_reducible rfl | (apply State.kept_congr <;> with_reducible rfl))
    | (grind [State.kept, State.raise_kept, State.foldl_kept])
    | rfl

theorem State.endPart_kept (s : State) (c : Contribution) (status : Nat) :
    (State.endPart s c status).kept = s.kept := by
  unfold State.endPart; (try dsimp only); (repeat' split) <;> first
    | with_reducible rfl
    | (apply State.kept_congr <;> with_reducible rfl)
    | (simp only [State.rawCmdFault_kept]; done)
    | (simp only [State.rawCmdFault_kept]; first | with_reducible rfl | (apply State.kept_congr <;> with_reducible rfl))
    | (grind [State.kept, State.rawCmdFault_kept, State.foldl_kept])
    | rfl

theorem State.sendAborts_kept (s : State) (g : Nat) (e : GEntry) (n : Nat) (slot : Nat) :
    (State.sendAborts s g e n slot).kept = s.kept := by
  unfold State.sendAborts; (try dsimp only); (repeat' split) <;> first
    | with_reducible rfl
    | (apply State.kept_congr <;> with_reducible rfl)
    | (simp only [State.reply_kept]; done)
    | (simp only [State.reply_kept]; first | with_reducible rfl | (apply State.kept_congr <;> with_reducible rfl))
    | (grind [State.kept, State.reply_kept, State.foldl_kept])
    | rfl

theorem State.endOp_kept (s : State) (o : ColOp) (cause : Nat) (source : Nat) :
    (State.endOp s o cause source).kept = s.kept := by
  unfold State.endOp; (try dsimp only); (repeat' split) <;> first
    | with_reducible rfl
    | (apply State.kept_congr <;> with_reducible rfl)
    | (simp only [State.raise_kept, State.sendAborts_kept, State.endPart_kept]; done)
    | (simp only [State.raise_kept, State.sendAborts_kept, State.endPart_kept]; first | with_reducible rfl | (apply State.kept_congr <;> with_reducible rfl))
    | (grind [State.kept, State.raise_kept, State.sendAborts_kept, State.endPart_kept, State.foldl_kept])
    | rfl

theorem State.endWaiting_kept (s : State) (g : Nat) (n : Nat) (slot : Nat) (cause : Nat) (source : Nat) :
    (State.endWaiting s g n slot cause source).kept = s.kept := by
  unfold State.endWaiting; (try dsimp only); (repeat' split) <;> first
    | with_reducible rfl
    | (apply State.kept_congr <;> with_reducible rfl)
    | (simp only [State.raise_kept, State.sendAborts_kept, State.endPart_kept]; done)
    | (simp only [State.raise_kept, State.sendAborts_kept, State.endPart_kept]; first | with_reducible rfl | (apply State.kept_congr <;> with_reducible rfl))
    | (grind [State.kept, State.raise_kept, State.sendAborts_kept, State.endPart_kept, State.foldl_kept])
    | rfl

theorem State.enterEarly_kept (s : State) (d : EarlyData) :
    (State.enterEarly s d).kept = s.kept := by
  unfold State.enterEarly; (try dsimp only); (repeat' split) <;> first
    | with_reducible rfl
    | (apply State.kept_congr <;> with_reducible rfl)
    | (simp only [State.takeData_kept, State.endOp_kept, State.verEvent_kept]; done)
    | (simp only [State.takeData_kept, State.endOp_kept, State.verEvent_kept]; first | with_reducible rfl | (apply State.kept_congr <;> with_reducible rfl))
    | (grind [State.kept, State.takeData_kept, State.endOp_kept, State.verEvent_kept, State.foldl_kept])
    | rfl

theorem State.takeEarly_kept (s : State) :
    (State.takeEarly s).kept = s.kept := by
  unfold State.takeEarly; (try dsimp only); (repeat' split) <;> first
    | with_reducible rfl
    | (apply State.kept_congr <;> with_reducible rfl)
    | (simp only [State.enterEarly_kept]; done)
    | (simp only [State.enterEarly_kept]; first | with_reducible rfl | (apply State.kept_congr <;> with_reducible rfl))
    | (grind [State.kept, State.enterEarly_kept, State.foldl_kept])
    | rfl

theorem State.admit1_kept (s : State) :
    ∀ u, (State.admit1 s) = some u → u.kept = s.kept := by
  intro t h; unfold State.admit1 at h; grind [State.kept, State.contribTouch_kept, State.freeBytes_kept, State.colPut_kept, State.takeEarly_kept]

theorem State.admitAll_kept (s : State) : s.admitAll.kept = s.kept := by
  unfold State.admitAll
  refine State.iterWhile_kept _ _ _ fun s t ht => ?_
  grind [State.admit1_kept, State.kept]

theorem State.settle1_kept (s : State) :
    ∀ u, (State.settle1 s) = some u → u.kept = s.kept := by
  intro t h; unfold State.settle1 at h; grind [State.kept, State.endOp_kept, State.endWaiting_kept]

theorem State.colSettle_kept (s : State) : s.colSettle.kept = s.kept := by
  unfold State.colSettle; split
  · rfl
  · rw [State.admitAll_kept]; exact State.iterWhile_kept _ _ _ fun s t ht => State.settle1_kept _ _ ht

theorem State.writeResult_kept (s : State) (o : ColOp) (st : List RingStage) (c : Contribution) : (s.writeResult o st c).kept = s.kept := by
  unfold State.writeResult; dsimp only; split
  · rfl
  all_goals
    refine State.foldl_kept _ _ _ fun s r => ?_
    exact State.foldl2_kept _ _ _ fun a x => State.writePlace_kept _ _ _

theorem State.spoilParts_kept (s : State) (id : CellId) (hit : ColPart → Bool) :
    (State.spoilParts s id hit).kept = s.kept := by
  unfold State.spoilParts; (try dsimp only); (repeat' split) <;> first
    | with_reducible rfl
    | (apply State.kept_congr <;> with_reducible rfl)
    | (simp only [State.setCell_kept]; done)
    | (simp only [State.setCell_kept]; first | with_reducible rfl | (apply State.kept_congr <;> with_reducible rfl))
    | (grind [State.kept, State.setCell_kept, State.foldl_kept])
    | rfl

theorem State.wildOp_kept (s : State) (o : ColOp) :
    (State.wildOp s o).2.kept = s.kept := by
  unfold State.wildOp; (try dsimp only); (repeat' split) <;> first
    | with_reducible rfl
    | (apply State.kept_congr <;> with_reducible rfl)
    | (simp only [State.freeBytes_kept]; done)
    | (simp only [State.freeBytes_kept]; first | with_reducible rfl | (apply State.kept_congr <;> with_reducible rfl))
    | (grind [State.kept, State.freeBytes_kept, State.foldl_kept])
    | rfl

theorem State.finishPart_kept (s : State) (o : ColOp) (c : Contribution) :
    (State.finishPart s o c).kept = s.kept := by
  unfold State.finishPart; (try dsimp only); (repeat' split) <;> first
    | with_reducible rfl
    | (apply State.kept_congr <;> with_reducible rfl)
    | (simp only [State.writeResult_kept, State.wildOp_kept, State.admitAll_kept]; done)
    | (simp only [State.writeResult_kept, State.wildOp_kept, State.admitAll_kept]; first | with_reducible rfl | (apply State.kept_congr <;> with_reducible rfl))
    | (grind [State.kept, State.writeResult_kept, State.wildOp_kept, State.admitAll_kept, State.foldl_kept])
    | rfl

/-! ### Fault -/

theorem State.cellFault_kept (s : State) (id : CellId) (cause : BitVec 8) :
    (State.cellFault s id cause).kept = s.kept := by
  unfold State.cellFault; (try dsimp only); (repeat' split) <;> first
    | with_reducible rfl
    | (apply State.kept_congr <;> with_reducible rfl)
    | (simp only [State.colSettle_kept, State.rawFault_kept]; done)
    | (simp only [State.colSettle_kept, State.rawFault_kept]; first | with_reducible rfl | (apply State.kept_congr <;> with_reducible rfl))
    | (grind [State.kept, State.colSettle_kept, State.rawFault_kept, State.foldl_kept])
    | rfl

theorem State.corePoison_kept (s : State) (id : CellId) :
    (State.corePoison s id).kept = s.kept := by
  unfold State.corePoison; (try dsimp only); (repeat' split) <;> first
    | with_reducible rfl
    | (apply State.kept_congr <;> with_reducible rfl)
    | (simp only [State.freshNat_kept, State.poisonConsumed_kept]; done)
    | (simp only [State.freshNat_kept, State.poisonConsumed_kept]; first | with_reducible rfl | (apply State.kept_congr <;> with_reducible rfl))
    | (grind [State.kept, State.freshNat_kept, State.poisonConsumed_kept, State.foldl_kept])
    | rfl

theorem State.coreException_kept (s : State) (id : CellId) (code : BitVec 8) :
    (State.coreException s id code).kept = s.kept := by
  unfold State.coreException; (try dsimp only); (repeat' split) <;> first
    | with_reducible rfl
    | (apply State.kept_congr <;> with_reducible rfl)
    | (simp only [State.corePoison_kept, State.raise_kept, State.suspectFault_kept, State.modCell_kept, State.cellFault_kept]; done)
    | (simp only [State.corePoison_kept, State.raise_kept, State.suspectFault_kept, State.modCell_kept, State.cellFault_kept]; first | with_reducible rfl | (apply State.kept_congr <;> with_reducible rfl))
    | (grind [State.kept, State.corePoison_kept, State.raise_kept, State.suspectFault_kept, State.modCell_kept, State.cellFault_kept, State.foldl_kept])
    | rfl

theorem State.semOverflow_kept (s : State) (id : CellId) (sem : BitVec 5) (queue : Nat) :
    (State.semOverflow s id sem queue).kept = s.kept := by
  unfold State.semOverflow; (try dsimp only); (repeat' split) <;> first
    | with_reducible rfl
    | (apply State.kept_congr <;> with_reducible rfl)
    | (simp only [State.cellFault_kept, State.raise_kept]; done)
    | (simp only [State.cellFault_kept, State.raise_kept]; first | with_reducible rfl | (apply State.kept_congr <;> with_reducible rfl))
    | (grind [State.kept, State.cellFault_kept, State.raise_kept, State.foldl_kept])
    | rfl

theorem State.signal_kept (s : State) (id : CellId) (sem : BitVec 5) (n : Nat) (queue : Nat) :
    (State.signal s id sem n queue).kept = s.kept := by
  unfold State.signal; (try dsimp only); (repeat' split) <;> first
    | with_reducible rfl
    | (apply State.kept_congr <;> with_reducible rfl)
    | (simp only [State.setCell_kept, State.semOverflow_kept]; done)
    | (simp only [State.setCell_kept, State.semOverflow_kept]; first | with_reducible rfl | (apply State.kept_congr <;> with_reducible rfl))
    | (grind [State.kept, State.setCell_kept, State.semOverflow_kept, State.foldl_kept])
    | rfl

theorem State.retire_kept (s : State) (id : CellId) (c : CellState) (f : Flow) :
    (State.retire s id c f).kept = s.kept := by
  unfold State.retire; (try dsimp only); (repeat' split) <;> first
    | with_reducible rfl
    | (apply State.kept_congr <;> with_reducible rfl)
    | (simp only [State.setCell_kept, State.coreException_kept]; done)
    | (simp only [State.setCell_kept, State.coreException_kept]; first | with_reducible rfl | (apply State.kept_congr <;> with_reducible rfl))
    | (grind [State.kept, State.setCell_kept, State.coreException_kept, State.foldl_kept])
    | rfl

theorem State.holdCore_kept (s : State) (id : CellId) (c : CellState) (word : Word) (kind : BitVec 4) (target : BitVec 8) :
    (State.holdCore s id c word kind target).kept = s.kept := by
  unfold State.holdCore; (try dsimp only); (repeat' split) <;> first
    | with_reducible rfl
    | (apply State.kept_congr <;> with_reducible rfl)
    | (simp only [State.setCell_kept]; done)
    | (simp only [State.setCell_kept]; first | with_reducible rfl | (apply State.kept_congr <;> with_reducible rfl))
    | (grind [State.kept, State.setCell_kept, State.foldl_kept])
    | rfl

theorem coreStep_kept (op : CoreOp) (id : CellId) (g : BitVec 4) (o : BitVec 22) (s : State) :
    (coreStep op id g o s).kept = s.kept := by
  unfold coreStep; (try dsimp only); (repeat' split) <;> first
    | with_reducible rfl
    | (apply State.kept_congr <;> with_reducible rfl)
    | (simp only [State.coreException_kept, State.holdCore_kept, State.retire_kept, State.touchDmem_kept, State.touchStore_kept, State.semOverflow_kept, State.setCell_kept, State.cellFault_kept, State.raise_kept]; done)
    | (simp only [State.coreException_kept, State.holdCore_kept, State.retire_kept, State.touchDmem_kept, State.touchStore_kept, State.semOverflow_kept, State.setCell_kept, State.cellFault_kept, State.raise_kept]; first | with_reducible rfl | (apply State.kept_congr <;> with_reducible rfl))
    | (grind [State.kept, State.coreException_kept, State.holdCore_kept, State.retire_kept, State.touchDmem_kept, State.touchStore_kept, State.semOverflow_kept, State.setCell_kept, State.cellFault_kept, State.raise_kept, State.foldl_kept])
    | rfl

theorem State.takeUp_kept (s : State) (id : CellId) :
    (State.takeUp s id).kept = s.kept := by
  unfold State.takeUp; (try dsimp only); (repeat' split) <;> first
    | with_reducible rfl
    | (apply State.kept_congr <;> with_reducible rfl)
    | (simp only [State.modCell_kept]; done)
    | (simp only [State.modCell_kept]; first | with_reducible rfl | (apply State.kept_congr <;> with_reducible rfl))
    | (grind [State.kept, State.modCell_kept, State.foldl_kept])
    | rfl

theorem runCore_kept (op : CoreOp) (id : CellId) (g : BitVec 4) (o : BitVec 22) (s : State) : ∀ t, runCore op id g o s = .next t → t.kept = s.kept := by
  unfold runCore; apply withCell_kept; dsimp only; (repeat' split) <;> first
    | rfl
    | exact coreStep_kept _ _ _ _ _
    | rw [coreStep_kept, State.takeUp_kept]

/-! ### Flags -/

theorem State.cmdFault_kept (s : State) (id : CellId) (queue : Nat) (opc : Nat) (seq : BitVec 32) (status : Nat) (slot : Nat) :
    (State.cmdFault s id queue opc seq status slot).kept = s.kept := by
  unfold State.cmdFault; (try dsimp only); (repeat' split) <;> first
    | with_reducible rfl
    | (apply State.kept_congr <;> with_reducible rfl)
    | (simp only [State.colSettle_kept, State.rawCmdFault_kept]; done)
    | (simp only [State.colSettle_kept, State.rawCmdFault_kept]; first | with_reducible rfl | (apply State.kept_congr <;> with_reducible rfl))
    | (grind [State.kept, State.colSettle_kept, State.rawCmdFault_kept, State.foldl_kept])
    | rfl

theorem State.nanLatch_kept (s : State) (id : CellId) (engine : Nat) (kind : NanKind) (seq : BitVec 32) (row : Nat) (col : Nat) (step : Nat) :
    (State.nanLatch s id engine kind seq row col step).kept = s.kept := by
  unfold State.nanLatch; (try dsimp only); (repeat' split) <;> first
    | with_reducible rfl
    | (apply State.kept_congr <;> with_reducible rfl)
    | (simp only [State.setCell_kept, State.raise_kept]; done)
    | (simp only [State.setCell_kept, State.raise_kept]; first | with_reducible rfl | (apply State.kept_congr <;> with_reducible rfl))
    | (grind [State.kept, State.setCell_kept, State.raise_kept, State.foldl_kept])
    | rfl

theorem State.completeCmd_kept (s : State) (id : CellId) (queue : Nat) (word : QWord) (flags : BitVec 7) (del : Option Delivery) :
    (State.completeCmd s id queue word flags del).kept = s.kept := by
  unfold State.completeCmd; (try dsimp only); (repeat' split) <;> first
    | with_reducible rfl
    | (apply State.kept_congr <;> with_reducible rfl)
    | (simp only [State.setCell_kept, State.signal_kept]; done)
    | (simp only [State.setCell_kept, State.signal_kept]; first | with_reducible rfl | (apply State.kept_congr <;> with_reducible rfl))
    | (grind [State.kept, State.setCell_kept, State.signal_kept, State.foldl_kept])
    | rfl

/-! ### Vector -/

theorem startVector_kept (id : CellId) (q : QCmd) (s : State) : (startVector id q s).kept = s.kept := by
  unfold startVector
  extract_lets w opc
  split
  · exact State.cmdFault_kept _ _ _ _ _ _ _
  · extract_lets lanes s1 c x mixed r a1 traps all done poison ctr n store s2 s3 s4
    have h1 : s1.kept = s.kept := State.touchStore_kept _ _ _
    have h2 : s2.kept = s.kept := ((State.setCell_kept _ _ _).trans (State.skipFree_kept _ _)).trans h1
    clear_value s2
    have h3 : s3.kept = s.kept := by
      simp only [s3]; split
      · rw [State.poisonConsumed_kept, h2]
      · exact h2
    clear_value s3
    have h4 : s4.kept = s.kept := by
      simp only [s4]; split
      · exact h3
      · rw [State.nanLatch_kept, h3]
    clear_value s4
    split
    · rw [State.cmdFault_kept, h4]
    · rw [State.modCell_kept, h4]

/-! ### Matrix -/

theorem workRow_kept (id : CellId) (only : Option (BitVec 32)) (hist : List MxRow) (s : State) (i : Nat) :
    (workRow id only hist s i).kept = s.kept := by
  unfold workRow; (try dsimp only); (repeat' split) <;> first
    | with_reducible rfl
    | (apply State.kept_congr <;> with_reducible rfl)
    | (simp only [State.setCell_kept, State.poisonConsumed_kept, State.nanLatch_kept, State.modCell_kept]; done)
    | (simp only [State.setCell_kept, State.poisonConsumed_kept, State.nanLatch_kept, State.modCell_kept]; first | with_reducible rfl | (apply State.kept_congr <;> with_reducible rfl))
    | (grind [State.kept, State.setCell_kept, State.poisonConsumed_kept, State.nanLatch_kept, State.modCell_kept, State.foldl_kept])
    | rfl

theorem arrayBeat_kept (id : CellId) (only : Option (BitVec 32)) (hist : List MxRow) (s : State) :
    (arrayBeat id only hist s).kept = s.kept := by
  unfold arrayBeat; (try dsimp only); (repeat' split) <;> first
    | with_reducible rfl
    | (apply State.kept_congr <;> with_reducible rfl)
    | (simp only [workRow_kept, State.setCell_kept]; done)
    | (simp only [workRow_kept, State.setCell_kept]; first | with_reducible rfl | (apply State.kept_congr <;> with_reducible rfl))
    | (grind [State.kept, workRow_kept, State.setCell_kept, State.foldl_kept])
    | rfl

theorem releasePanels_kept (id : CellId) (q : QCmd) (n : Nat) (s : State) : (releasePanels id q n s).kept = s.kept := by
  induction n generalizing s with
  | zero => rfl
  | succ n ih =>
    unfold releasePanels; dsimp only; split
    · rw [ih, State.signal_kept]; rfl
    · rfl

theorem State.rowZero_kept (s : State) (id : CellId) :
    (State.rowZero s id).kept = s.kept := by
  unfold State.rowZero; (try dsimp only); (repeat' split) <;> first
    | with_reducible rfl
    | (apply State.kept_congr <;> with_reducible rfl)
    | (simp only [State.setCell_kept, State.raise_kept]; done)
    | (simp only [State.setCell_kept, State.raise_kept]; first | with_reducible rfl | (apply State.kept_congr <;> with_reducible rfl))
    | (grind [State.kept, State.setCell_kept, State.raise_kept, State.foldl_kept])
    | rfl

theorem readRow_kept (id : CellId) (s : State) : ∀ t, readRow id s = some t → t.kept = s.kept := by
  intro t ht; unfold readRow at ht; dsimp only at ht
  split at ht
  · cases ht
  · split at ht
    · cases ht
    · split at ht
      · cases ht
      · cases ht
        rw [releasePanels_kept, arrayBeat_kept, State.setCell_kept, State.touchStore_kept, State.rowZero_kept, State.setCell_kept]

theorem streamOn_kept (id : CellId) (s : State) : (streamOn id s).kept = s.kept := by
  unfold streamOn; split
  · rfl
  · exact State.iterWhile_kept _ _ _ fun s t ht => readRow_kept _ _ _ ht

theorem closeTail_kept (id : CellId) (s : State) :
    (closeTail id s).kept = s.kept := by
  unfold closeTail; (try dsimp only); (repeat' split) <;> first
    | with_reducible rfl
    | (apply State.kept_congr <;> with_reducible rfl)
    | (simp only [streamOn_kept, State.setCell_kept]; done)
    | (simp only [streamOn_kept, State.setCell_kept]; first | with_reducible rfl | (apply State.kept_congr <;> with_reducible rfl))
    | (grind [State.kept, streamOn_kept, State.setCell_kept, State.foldl_kept])
    | rfl

theorem finishOldest_kept (id : CellId) (s : State) : (finishOldest id s).kept = s.kept := by
  unfold finishOldest; split
  · dsimp only
    (repeat' split) <;> first
      | rfl
      | (rw [State.modCell_kept]; exact State.foldl2_kept _ _ _ fun a k => by dsimp only; rw [arrayBeat_kept, State.touchStore_kept])
  · rfl

theorem settleTail_kept (id : CellId) (s : State) :
    (settleTail id s).kept = s.kept := by
  unfold settleTail; (try dsimp only); (repeat' split) <;> first
    | with_reducible rfl
    | (apply State.kept_congr <;> with_reducible rfl)
    | (simp only [closeTail_kept]; done)
    | (simp only [closeTail_kept]; first | with_reducible rfl | (apply State.kept_congr <;> with_reducible rfl))
    | (grind [State.kept, closeTail_kept, State.foldl_kept])
    | rfl

theorem startMma_kept (id : CellId) (q : QCmd) (s : State) :
    (startMma id q s).kept = s.kept := by
  unfold startMma; (try dsimp only); (repeat' split) <;> first
    | with_reducible rfl
    | (apply State.kept_congr <;> with_reducible rfl)
    | (simp only [State.cmdFault_kept, settleTail_kept, streamOn_kept, State.setCell_kept]; done)
    | (simp only [State.cmdFault_kept, settleTail_kept, streamOn_kept, State.setCell_kept]; first | with_reducible rfl | (apply State.kept_congr <;> with_reducible rfl))
    | (grind [State.kept, State.cmdFault_kept, settleTail_kept, streamOn_kept, State.setCell_kept, State.foldl_kept])
    | rfl

theorem State.mxMismatch_kept (s : State) (id : CellId) (m : MxCmd) (o : CheckOut) :
    (State.mxMismatch s id m o).kept = s.kept := by
  unfold State.mxMismatch; (try dsimp only); (repeat' split) <;> first
    | with_reducible rfl
    | (apply State.kept_congr <;> with_reducible rfl)
    | (simp only [State.raise_kept, State.modCell_kept]; done)
    | (simp only [State.raise_kept, State.modCell_kept]; first | with_reducible rfl | (apply State.kept_congr <;> with_reducible rfl))
    | (grind [State.kept, State.raise_kept, State.modCell_kept, State.foldl_kept])
    | rfl

theorem State.mxFailed_kept (s : State) (id : CellId) (m : MxCmd) (o : CheckOut) (streamed : Bool) :
    (State.mxFailed s id m o streamed).kept = s.kept := by
  unfold State.mxFailed; (try dsimp only); (repeat' split) <;> first
    | with_reducible rfl
    | (apply State.kept_congr <;> with_reducible rfl)
    | (simp only [State.modCell_kept, State.raise_kept, State.cmdFault_kept, State.suspect_kept]; done)
    | (simp only [State.modCell_kept, State.raise_kept, State.cmdFault_kept, State.suspect_kept]; first | with_reducible rfl | (apply State.kept_congr <;> with_reducible rfl))
    | (grind [State.kept, State.modCell_kept, State.raise_kept, State.cmdFault_kept, State.suspect_kept, State.foldl_kept])
    | rfl

theorem State.mxPassed_kept (s : State) (id : CellId) (m : MxCmd) :
    (State.mxPassed s id m).kept = s.kept := by
  unfold State.mxPassed; (try dsimp only); (repeat' split) <;> first
    | with_reducible rfl
    | (apply State.kept_congr <;> with_reducible rfl)
    | (simp only [State.raise_kept, State.modCell_kept]; done)
    | (simp only [State.raise_kept, State.modCell_kept]; first | with_reducible rfl | (apply State.kept_congr <;> with_reducible rfl))
    | (grind [State.kept, State.raise_kept, State.modCell_kept, State.foldl_kept])
    | rfl

theorem State.mxComplete_kept (s : State) (id : CellId) (m : MxCmd) : (s.mxComplete id m).kept = s.kept := by
  unfold State.mxComplete; dsimp only
  rw [releasePanels_kept, State.completeCmd_kept, State.setCell_kept]

theorem checkBeat_kept (id : CellId) (us : List Upset) (s : State) :
    (checkBeat id us s).kept = s.kept := by
  unfold checkBeat; (try dsimp only); (repeat' split) <;> first
    | with_reducible rfl
    | (apply State.kept_congr <;> with_reducible rfl)
    | (simp only [State.setCell_kept, State.spoilParts_kept, State.mxMismatch_kept, State.cmdFault_kept, State.mxPassed_kept, releasePanels_kept, State.modCell_kept, State.mxComplete_kept, State.mxFailed_kept]; done)
    | (simp only [State.setCell_kept, State.spoilParts_kept, State.mxMismatch_kept, State.cmdFault_kept, State.mxPassed_kept, releasePanels_kept, State.modCell_kept, State.mxComplete_kept, State.mxFailed_kept]; first | with_reducible rfl | (apply State.kept_congr <;> with_reducible rfl))
    | (grind [State.kept, State.setCell_kept, State.spoilParts_kept, State.mxMismatch_kept, State.cmdFault_kept, State.mxPassed_kept, releasePanels_kept, State.modCell_kept, State.mxComplete_kept, State.mxFailed_kept, State.foldl_kept])
    | rfl

theorem retryStart_kept (id : CellId) (s : State) :
    (retryStart id s).kept = s.kept := by
  unfold retryStart; (try dsimp only); (repeat' split) <;> first
    | with_reducible rfl
    | (apply State.kept_congr <;> with_reducible rfl)
    | (simp only [settleTail_kept, streamOn_kept, State.setCell_kept]; done)
    | (simp only [settleTail_kept, streamOn_kept, State.setCell_kept]; first | with_reducible rfl | (apply State.kept_congr <;> with_reducible rfl))
    | (grind [State.kept, settleTail_kept, streamOn_kept, State.setCell_kept, State.foldl_kept])
    | rfl

theorem panelTaken_kept (id : CellId) (s : State) :
    (panelTaken id s).kept = s.kept := by
  unfold panelTaken; (try dsimp only); (repeat' split) <;> first
    | with_reducible rfl
    | (apply State.kept_congr <;> with_reducible rfl)
    | (simp only [settleTail_kept, streamOn_kept, finishOldest_kept]; done)
    | (simp only [settleTail_kept, streamOn_kept, finishOldest_kept]; first | with_reducible rfl | (apply State.kept_congr <;> with_reducible rfl))
    | (grind [State.kept, settleTail_kept, streamOn_kept, finishOldest_kept, State.foldl_kept])
    | rfl

/-! ### Engine -/

theorem State.begin_kept (s : State) (id : CellId) (q : BitVec 2) (r : RunCmd) :
    (State.begin s id q r).kept = s.kept := by
  unfold State.begin; (try dsimp only); (repeat' split) <;> first
    | with_reducible rfl
    | (apply State.kept_congr <;> with_reducible rfl)
    | (simp only [State.modCell_kept]; done)
    | (simp only [State.modCell_kept]; first | with_reducible rfl | (apply State.kept_congr <;> with_reducible rfl))
    | (grind [State.kept, State.modCell_kept, State.foldl_kept])
    | rfl

theorem gatherCopy_kept (s : State) (pm : List Tensor) (q : QCmd) (a b : Option Nat) : (gatherCopy s pm q a b).s.kept = s.kept := by
  unfold gatherCopy
  have go : ∀ (l : List (Bool × Nat × Nat × Nat)) (f : CopyOut → (Bool × Nat × Nat × Nat) → CopyOut) (c : CopyOut),
      (∀ c x, (f c x).s.kept = c.s.kept) → (l.foldl f c).s.kept = c.s.kept := by
    intro l f c h
    induction l generalizing c with
    | nil => rfl
    | cons x l ih => rw [List.foldl_cons, ih, h]
  refine go _ _ ⟨s, [], none, []⟩ fun c x => ?_
  obtain ⟨sc, so, dOff, n⟩ := x
  dsimp only
  (repeat' split) <;> first | rfl | exact State.foldl_kept _ _ _ fun s a => State.touchPlace_kept _ _ _

theorem startCopy_kept (id : CellId) (q : QCmd) (a b : Option Nat) (s : State) : (startCopy id q a b s).kept = s.kept := by
  unfold startCopy; dsimp only; split
  · rw [State.begin_kept, gatherCopy_kept]
  · rw [State.cmdFault_kept, State.landAll_kept, gatherCopy_kept]

theorem startRead_kept (id : CellId) (q : QCmd) (s : State) :
    (startRead id q s).kept = s.kept := by
  unfold startRead; (try dsimp only); (repeat' split) <;> first
    | with_reducible rfl
    | (apply State.kept_congr <;> with_reducible rfl)
    | (simp only [State.cmdFault_kept, startCopy_kept]; done)
    | (simp only [State.cmdFault_kept, startCopy_kept]; first | with_reducible rfl | (apply State.kept_congr <;> with_reducible rfl))
    | (grind [State.kept, State.cmdFault_kept, startCopy_kept, State.foldl_kept])
    | rfl

theorem startWrite_kept (id : CellId) (q : QCmd) (s : State) :
    (startWrite id q s).kept = s.kept := by
  unfold startWrite; (try dsimp only); (repeat' split) <;> first
    | with_reducible rfl
    | (apply State.kept_congr <;> with_reducible rfl)
    | (simp only [State.cmdFault_kept, startCopy_kept]; done)
    | (simp only [State.cmdFault_kept, startCopy_kept]; first | with_reducible rfl | (apply State.kept_congr <;> with_reducible rfl))
    | (grind [State.kept, State.cmdFault_kept, startCopy_kept, State.foldl_kept])
    | rfl

theorem startCell_kept (id : CellId) (q : QCmd) (s : State) :
    (startCell id q s).kept = s.kept := by
  unfold startCell; (try dsimp only); (repeat' split) <;> first
    | with_reducible rfl
    | (apply State.kept_congr <;> with_reducible rfl)
    | (simp only [State.cmdFault_kept, startCopy_kept]; done)
    | (simp only [State.cmdFault_kept, startCopy_kept]; first | with_reducible rfl | (apply State.kept_congr <;> with_reducible rfl))
    | (grind [State.kept, State.cmdFault_kept, startCopy_kept, State.foldl_kept])
    | rfl

theorem State.markShared_kept (s : State) (id : CellId) :
    (State.markShared s id).kept = s.kept := by
  unfold State.markShared; (try dsimp only); (repeat' split) <;> first
    | with_reducible rfl
    | (apply State.kept_congr <;> with_reducible rfl)
    | (grind [State.kept, State.foldl_kept])
    | rfl

theorem State.markAtomic_kept (s : State) (h : Nat) :
    (State.markAtomic s h).kept = s.kept := by
  unfold State.markAtomic; (try dsimp only); (repeat' split) <;> first
    | with_reducible rfl
    | (apply State.kept_congr <;> with_reducible rfl)
    | (grind [State.kept, State.foldl_kept])
    | rfl

theorem gatherAtoms_kept (s : State) (pm : List Tensor) (id : CellId) (q : QCmd) : (gatherAtoms s pm id q).1.kept = s.kept := by
  unfold gatherAtoms; dsimp only
  refine State.foldl2_kept _ _ _ fun a r => ?_
  (repeat' split) <;> first | rfl | exact State.touchStore_kept _ _ _

theorem startAtom_kept (id : CellId) (q : QCmd) (s : State) :
    (startAtom id q s).kept = s.kept := by
  unfold startAtom; (try dsimp only); (repeat' split) <;> first
    | with_reducible rfl
    | (apply State.kept_congr <;> with_reducible rfl)
    | (simp only [State.cmdFault_kept, gatherAtoms_kept, State.markAtomic_kept, State.markShared_kept, State.begin_kept, State.landAtom_kept]; done)
    | (simp only [State.cmdFault_kept, gatherAtoms_kept, State.markAtomic_kept, State.markShared_kept, State.begin_kept, State.landAtom_kept]; first | with_reducible rfl | (apply State.kept_congr <;> with_reducible rfl))
    | (grind [State.kept, State.cmdFault_kept, gatherAtoms_kept, State.markAtomic_kept, State.markShared_kept, State.begin_kept, State.landAtom_kept, State.foldl_kept])
    | rfl

theorem startColl_kept (id : CellId) (q : QCmd) (s : State) :
    (startColl id q s).kept = s.kept := by
  unfold startColl; (try dsimp only); (repeat' split) <;> first
    | with_reducible rfl
    | (apply State.kept_congr <;> with_reducible rfl)
    | (simp only [State.cmdFault_kept, State.begin_kept, State.markShared_kept]; done)
    | (simp only [State.cmdFault_kept, State.begin_kept, State.markShared_kept]; first | with_reducible rfl | (apply State.kept_congr <;> with_reducible rfl))
    | (grind [State.kept, State.cmdFault_kept, State.begin_kept, State.markShared_kept, State.foldl_kept])
    | rfl

theorem startWaybill_kept (id : CellId) (q : QCmd) (s : State) :
    (startWaybill id q s).kept = s.kept := by
  unfold startWaybill; (try dsimp only); (repeat' split) <;> first
    | with_reducible rfl
    | (apply State.kept_congr <;> with_reducible rfl)
    | (simp only [State.cmdFault_kept, State.begin_kept, State.setCell_kept]; done)
    | (simp only [State.cmdFault_kept, State.begin_kept, State.setCell_kept]; first | with_reducible rfl | (apply State.kept_congr <;> with_reducible rfl))
    | (grind [State.kept, State.cmdFault_kept, State.begin_kept, State.setCell_kept, State.foldl_kept])
    | rfl

theorem State.readyArray_kept (s : State) (id : CellId) (h : QCmd) :
    (State.readyArray s id h).kept = s.kept := by
  unfold State.readyArray; (try dsimp only); (repeat' split) <;> first
    | with_reducible rfl
    | (apply State.kept_congr <;> with_reducible rfl)
    | (simp only [finishOldest_kept, closeTail_kept]; done)
    | (simp only [finishOldest_kept, closeTail_kept]; first | with_reducible rfl | (apply State.kept_congr <;> with_reducible rfl))
    | (grind [State.kept, finishOldest_kept, closeTail_kept, State.foldl_kept])
    | rfl

theorem State.startCmd_kept (s : State) (id : CellId) (q : BitVec 2) (h : QCmd) : (s.startCmd id q h).kept = s.kept := by
  unfold State.startCmd; dsimp only
  split <;> first
    | exact State.begin_kept _ _ _ _
    | exact startMma_kept _ _ _
    | exact startVector_kept _ _ _
    | exact startWaybill_kept _ _ _
    | exact startRead_kept _ _ _
    | exact startWrite_kept _ _ _
    | exact Sys2Proof.Machine.startCell_kept _ _ _
    | exact startAtom_kept _ _ _
    | exact startColl_kept _ _ _
    | rw [State.modCell_kept, State.begin_kept]

theorem State.headUndef_kept (s t : State) (id : CellId) (q : BitVec 2) (h : QCmd) : (s.headUndef t id q h).kept = s.kept := by
  unfold State.headUndef; dsimp only
  (repeat' split) <;> simp only [State.undefined_kept, State.spoilParts_kept]

theorem State.takeHead_kept (s : State) (id : CellId) (q : BitVec 2) (h : QCmd) : (s.takeHead id q h).kept = s.kept := by
  have a : (if q = 0 then s.readyArray id h else s).kept = s.kept := by
    split
    · exact State.readyArray_kept _ _ _
    · rfl
  unfold State.takeHead; dsimp only
  by_cases hc : codeLegal q h.word = true
  case neg => rw [if_pos hc, State.headUndef_kept, State.cmdFault_kept]
  case pos =>
  rw [if_neg (by simp [hc])]
  generalize (if q = 0 then s.readyArray id h else s) = v at a ⊢
  split
  · exact a
  · split
    · exact a
    · split
      · rename_i e
        rw [State.needSnoops_kept _ _ _ _ e]; exact a
      · rw [State.headUndef_kept, State.startCmd_kept, State.setCell_kept]; exact a

theorem runEngine_kept (id : CellId) (q : BitVec 2) (mine : QWord → Bool) (s : State) :
    ∀ t, (runEngine id q mine s) = .next t → t.kept = s.kept := by
  unfold runEngine; (repeat' split) <;> first
    | (intro t h; cases h; done)
    | (refine withCell_kept _ _ _ ?_; first | with_reducible rfl | (apply State.kept_congr <;> with_reducible rfl) | (simp only [withCell_kept, State.takeHead_kept]; done) | (grind [State.kept, withCell_kept, State.takeHead_kept]))
    | (intro t h; grind [State.kept, withCell_kept, State.takeHead_kept])

theorem State.dropRun_kept (s : State) (id : CellId) (q : BitVec 2) :
    (State.dropRun s id q).kept = s.kept := by
  unfold State.dropRun; (try dsimp only); (repeat' split) <;> first
    | with_reducible rfl
    | (apply State.kept_congr <;> with_reducible rfl)
    | (simp only [State.modCell_kept]; done)
    | (simp only [State.modCell_kept]; first | with_reducible rfl | (apply State.kept_congr <;> with_reducible rfl))
    | (grind [State.kept, State.modCell_kept, State.foldl_kept])
    | rfl

theorem State.completeOldest_kept (s : State) (id : CellId) (q : BitVec 2) : (s.completeOldest id q).kept = s.kept := by
  have sn : ∀ b l t, s.needSnoops b l = some t → t.kept = s.kept := fun b l t h => State.needSnoops_kept s b l t h
  have ap : ∀ (l : List AtomPiece) (x : State), (l.foldl State.landAtom x).kept = x.kept := fun l x => State.foldl_kept State.landAtom l x fun s a => State.landAtom_kept s a
  unfold State.completeOldest; dsimp only
  (repeat' split) <;> first
    | rfl
    | (rename_i h; exact sn _ _ _ h)
    | simp only [State.completeCmd_kept, State.dropRun_kept, State.modCell_kept, State.landAll_kept, State.finishPart_kept, ap]

theorem State.handOffOldest_kept (s : State) (id : CellId) :
    (State.handOffOldest s id).kept = s.kept := by
  unfold State.handOffOldest; (try dsimp only); (repeat' split) <;> first
    | with_reducible rfl
    | (apply State.kept_congr <;> with_reducible rfl)
    | (simp only [State.mxComplete_kept, State.completeOldest_kept]; done)
    | (simp only [State.mxComplete_kept, State.completeOldest_kept]; first | with_reducible rfl | (apply State.kept_congr <;> with_reducible rfl))
    | (grind [State.kept, State.mxComplete_kept, State.completeOldest_kept, State.foldl_kept])
    | rfl

theorem State.startPart_kept (s : State) (id : CellId) :
    (State.startPart s id).kept = s.kept := by
  unfold State.startPart; (try dsimp only); (repeat' split) <;> first
    | with_reducible rfl
    | (apply State.kept_congr <;> with_reducible rfl)
    | (simp only [State.markShared_kept, State.setCell_kept, State.cmdFault_kept, State.modCell_kept]; done)
    | (simp only [State.markShared_kept, State.setCell_kept, State.cmdFault_kept, State.modCell_kept]; first | with_reducible rfl | (apply State.kept_congr <;> with_reducible rfl))
    | (grind [State.kept, State.markShared_kept, State.setCell_kept, State.cmdFault_kept, State.modCell_kept, State.foldl_kept])
    | rfl

theorem State.completePart_kept (s : State) (id : CellId) :
    (State.completePart s id).kept = s.kept := by
  unfold State.completePart; (try dsimp only); (repeat' split) <;> first
    | with_reducible rfl
    | (apply State.kept_congr <;> with_reducible rfl)
    | (simp only [State.finishPart_kept, State.modCell_kept, State.signal_kept]; done)
    | (simp only [State.finishPart_kept, State.modCell_kept, State.signal_kept]; first | with_reducible rfl | (apply State.kept_congr <;> with_reducible rfl))
    | (grind [State.kept, State.finishPart_kept, State.modCell_kept, State.signal_kept, State.foldl_kept])
    | rfl

theorem State.ackTimeout_kept (s : State) (id : CellId) (queue : BitVec 3) (index : Nat) (landed : Nat) :
    (State.ackTimeout s id queue index landed).kept = s.kept := by
  unfold State.ackTimeout; (try dsimp only); (repeat' split) <;> first
    | with_reducible rfl
    | (apply State.kept_congr <;> with_reducible rfl)
    | (simp only [State.cmdFault_kept, State.landAll_kept]; done)
    | (simp only [State.cmdFault_kept, State.landAll_kept]; first | with_reducible rfl | (apply State.kept_congr <;> with_reducible rfl))
    | (grind [State.kept, State.cmdFault_kept, State.landAll_kept, State.foldl_kept])
    | rfl

theorem State.gapStart_kept (s : State) (id : CellId) (duty : Nat) (beats : Nat) :
    (State.gapStart s id duty beats).kept = s.kept := by
  unfold State.gapStart; (try dsimp only); (repeat' split) <;> first
    | with_reducible rfl
    | (apply State.kept_congr <;> with_reducible rfl)
    | (simp only [State.setCell_kept]; done)
    | (simp only [State.setCell_kept]; first | with_reducible rfl | (apply State.kept_congr <;> with_reducible rfl))
    | (grind [State.kept, State.setCell_kept, State.foldl_kept])
    | rfl

theorem State.gapHoldEnd_kept (s : State) (id : CellId) (beats : Nat) :
    (State.gapHoldEnd s id beats).kept = s.kept := by
  unfold State.gapHoldEnd; (try dsimp only); (repeat' split) <;> first
    | with_reducible rfl
    | (apply State.kept_congr <;> with_reducible rfl)
    | (simp only [State.setCell_kept]; done)
    | (simp only [State.setCell_kept]; first | with_reducible rfl | (apply State.kept_congr <;> with_reducible rfl))
    | (grind [State.kept, State.setCell_kept, State.foldl_kept])
    | rfl

theorem State.gapRampEnd_kept (s : State) (id : CellId) (beats : Nat) :
    (State.gapRampEnd s id beats).kept = s.kept := by
  unfold State.gapRampEnd; (try dsimp only); (repeat' split) <;> first
    | with_reducible rfl
    | (apply State.kept_congr <;> with_reducible rfl)
    | (simp only [State.setCell_kept]; done)
    | (simp only [State.setCell_kept]; first | with_reducible rfl | (apply State.kept_congr <;> with_reducible rfl))
    | (grind [State.kept, State.setCell_kept, State.foldl_kept])
    | rfl

/-! ### Tasks -/

theorem State.modTasks_kept (s : State) (f : List Task → List Task) :
    (State.modTasks s f).kept = s.kept := by
  unfold State.modTasks; (try dsimp only); (repeat' split) <;> first
    | with_reducible rfl
    | (apply State.kept_congr <;> with_reducible rfl)
    | (grind [State.kept, State.foldl_kept])
    | rfl

theorem State.modTask_kept (s : State) (id : Nat) (f : Task → Task) :
    (State.modTask s id f).kept = s.kept := by
  unfold State.modTask; (try dsimp only); (repeat' split) <;> first
    | with_reducible rfl
    | (apply State.kept_congr <;> with_reducible rfl)
    | (simp only [State.modTasks_kept]; done)
    | (simp only [State.modTasks_kept]; first | with_reducible rfl | (apply State.kept_congr <;> with_reducible rfl))
    | (grind [State.kept, State.modTasks_kept, State.foldl_kept])
    | rfl

theorem State.enterTask_kept (s : State) (source : Nat) (e : TaskEntry) :
    (State.enterTask s source e).kept = s.kept := by
  unfold State.enterTask; (try dsimp only); (repeat' split) <;> first
    | with_reducible rfl
    | (apply State.kept_congr <;> with_reducible rfl)
    | (grind [State.kept, State.foldl_kept])
    | rfl

theorem State.endCause_kept (s : State) (id : Nat) (status : Nat) :
    (State.endCause s id status).kept = s.kept := by
  unfold State.endCause; (try dsimp only); (repeat' split) <;> first
    | with_reducible rfl
    | (apply State.kept_congr <;> with_reducible rfl)
    | (simp only [State.modTask_kept]; done)
    | (simp only [State.modTask_kept]; first | with_reducible rfl | (apply State.kept_congr <;> with_reducible rfl))
    | (grind [State.kept, State.modTask_kept, State.foldl_kept])
    | rfl

theorem State.closeTree_kept (s : State) (root : Nat) :
    (State.closeTree s root).kept = s.kept := by
  unfold State.closeTree; (try dsimp only); (repeat' split) <;> first
    | with_reducible rfl
    | (apply State.kept_congr <;> with_reducible rfl)
    | (grind [State.kept, State.foldl_kept])
    | rfl

theorem State.finishTask_kept (s : State) (t : Task) :
    (State.finishTask s t).kept = s.kept := by
  unfold State.finishTask; (try dsimp only); (repeat' split) <;> first
    | with_reducible rfl
    | (apply State.kept_congr <;> with_reducible rfl)
    | (simp only [State.modTask_kept, State.raise_kept, State.closeTree_kept]; done)
    | (simp only [State.modTask_kept, State.raise_kept, State.closeTree_kept]; first | with_reducible rfl | (apply State.kept_congr <;> with_reducible rfl))
    | (grind [State.kept, State.modTask_kept, State.raise_kept, State.closeTree_kept, State.foldl_kept])
    | rfl

theorem State.endTask_kept (s : State) (id : Nat) :
    (State.endTask s id).kept = s.kept := by
  unfold State.endTask; (try dsimp only); (repeat' split) <;> first
    | with_reducible rfl
    | (apply State.kept_congr <;> with_reducible rfl)
    | (simp only [State.finishTask_kept]; done)
    | (simp only [State.finishTask_kept]; first | with_reducible rfl | (apply State.kept_congr <;> with_reducible rfl))
    | (grind [State.kept, State.finishTask_kept, State.foldl_kept])
    | rfl

theorem State.useTensors_kept (s : State) (hs : List Nat) :
    (State.useTensors s hs).kept = s.kept := by
  unfold State.useTensors; (try dsimp only); (repeat' split) <;> first
    | with_reducible rfl
    | (apply State.kept_congr <;> with_reducible rfl)
    | (grind [State.kept, State.foldl_kept])
    | rfl

theorem State.claim_kept (s : State) (t : Task) (cells : List CellId) :
    (State.claim s t cells).kept = s.kept := by
  unfold State.claim; (try dsimp only); (repeat' split) <;> first
    | with_reducible rfl
    | (apply State.kept_congr <;> with_reducible rfl)
    | (simp only [State.modTask_kept, State.endCause_kept, State.writeTensor_kept]; done)
    | (simp only [State.modTask_kept, State.endCause_kept, State.writeTensor_kept]; first | with_reducible rfl | (apply State.kept_congr <;> with_reducible rfl))
    | (grind [State.kept, State.modTask_kept, State.endCause_kept, State.writeTensor_kept, State.foldl_kept])
    | rfl

theorem State.placeFirst_kept (s : State) (l : List Task) : (s.placeFirst l).kept = s.kept := by
  induction l with
  | nil => rfl
  | cons t l ih =>
    unfold State.placeFirst
    split
    · exact ih
    · split
      · rw [State.endTask_kept, State.modTask_kept]
      · dsimp only
        have a : (if t.entry.pin = 2 then s.touchTensor s.mem.tensors t.entry.plist.toNat 0 (2 * t.entry.size.toNat) else s).kept = s.kept := by
          split
          · exact State.touchTensor_kept _ _ _ _ _
          · rfl
        generalize (if t.entry.pin = 2 then s.touchTensor s.mem.tensors t.entry.plist.toNat 0 (2 * t.entry.size.toNat) else s) = v at a ⊢
        rw [← a]
        split
        · split
          · rfl
          · split
            · rename_i e; exact State.needSnoops_kept _ _ _ _ e
            · rw [State.claim_kept, State.useTensors_kept]
        · rfl
        · rw [State.endTask_kept, State.endCause_kept, State.raise_kept]
        · rw [State.endTask_kept, State.endCause_kept]

theorem State.placeTask_kept (s : State) :
    (State.placeTask s).kept = s.kept := by
  unfold State.placeTask; (try dsimp only); (repeat' split) <;> first
    | with_reducible rfl
    | (apply State.kept_congr <;> with_reducible rfl)
    | (simp only [State.placeFirst_kept]; done)
    | (simp only [State.placeFirst_kept]; first | with_reducible rfl | (apply State.kept_congr <;> with_reducible rfl))
    | (grind [State.kept, State.placeFirst_kept, State.foldl_kept])
    | rfl

theorem State.startCell_kept (s : State) (id : CellId) (bank : Bool) :
    (State.startCell s id bank).kept = s.kept := by
  unfold State.startCell; (try dsimp only); (repeat' split) <;> first
    | with_reducible rfl
    | (apply State.kept_congr <;> with_reducible rfl)
    | (simp only [State.setCell_kept]; done)
    | (simp only [State.setCell_kept]; first | with_reducible rfl | (apply State.kept_congr <;> with_reducible rfl))
    | (grind [State.kept, State.setCell_kept, State.foldl_kept])
    | rfl

theorem State.boxTask_kept (s : State) (task : Nat) (box : Nat) :
    (State.boxTask s task box).kept = s.kept := by
  unfold State.boxTask; (try dsimp only); (repeat' split) <;> first
    | with_reducible rfl
    | (apply State.kept_congr <;> with_reducible rfl)
    | (simp only [State.needSnoops_kept, State.touchTensor_kept, State.modCell_kept, State.modTask_kept, State.useTensors_kept, State.endCause_kept]; done)
    | (simp only [State.needSnoops_kept, State.touchTensor_kept, State.modCell_kept, State.modTask_kept, State.useTensors_kept, State.endCause_kept]; first | with_reducible rfl | (apply State.kept_congr <;> with_reducible rfl))
    | (grind [State.kept, State.needSnoops_kept, State.touchTensor_kept, State.modCell_kept, State.modTask_kept, State.useTensors_kept, State.endCause_kept, State.foldl_kept])
    | rfl

theorem State.boxStart_kept (s : State) (task : Nat) (box : Nat) :
    (State.boxStart s task box).kept = s.kept := by
  unfold State.boxStart; (try dsimp only); (repeat' split) <;> first
    | with_reducible rfl
    | (apply State.kept_congr <;> with_reducible rfl)
    | (simp only [State.startCell_kept, State.modTask_kept]; done)
    | (simp only [State.startCell_kept, State.modTask_kept]; first | with_reducible rfl | (apply State.kept_congr <;> with_reducible rfl))
    | (grind [State.kept, State.startCell_kept, State.modTask_kept, State.foldl_kept])
    | rfl

theorem State.memberDone_kept (s : State) (id : CellId) :
    (State.memberDone s id).kept = s.kept := by
  unfold State.memberDone; (try dsimp only); (repeat' split) <;> first
    | with_reducible rfl
    | (apply State.kept_congr <;> with_reducible rfl)
    | (simp only [State.modTasks_kept]; done)
    | (simp only [State.modTasks_kept]; first | with_reducible rfl | (apply State.kept_congr <;> with_reducible rfl))
    | (grind [State.kept, State.modTasks_kept, State.foldl_kept])
    | rfl

theorem State.takeFault_kept (s : State) (id : CellId) :
    (State.takeFault s id).kept = s.kept := by
  unfold State.takeFault; (try dsimp only); (repeat' split) <;> first
    | with_reducible rfl
    | (apply State.kept_congr <;> with_reducible rfl)
    | (simp only [State.setCell_kept, State.modTasks_kept]; done)
    | (simp only [State.setCell_kept, State.modTasks_kept]; first | with_reducible rfl | (apply State.kept_congr <;> with_reducible rfl))
    | (grind [State.kept, State.setCell_kept, State.modTasks_kept, State.foldl_kept])
    | rfl

theorem State.stopCell_kept (s : State) (id : CellId) :
    (State.stopCell s id).kept = s.kept := by
  unfold State.stopCell; (try dsimp only); (repeat' split) <;> first
    | with_reducible rfl
    | (apply State.kept_congr <;> with_reducible rfl)
    | (simp only [State.colSettle_kept, State.setCell_kept, State.dropEnq_kept]; done)
    | (simp only [State.colSettle_kept, State.setCell_kept, State.dropEnq_kept]; first | with_reducible rfl | (apply State.kept_congr <;> with_reducible rfl))
    | (grind [State.kept, State.colSettle_kept, State.setCell_kept, State.dropEnq_kept, State.foldl_kept])
    | rfl

theorem State.stopMember_kept (s : State) (id : CellId) :
    (State.stopMember s id).kept = s.kept := by
  unfold State.stopMember; (try dsimp only); (repeat' split) <;> first
    | with_reducible rfl
    | (apply State.kept_congr <;> with_reducible rfl)
    | (simp only [State.stopCell_kept]; done)
    | (simp only [State.stopCell_kept]; first | with_reducible rfl | (apply State.kept_congr <;> with_reducible rfl))
    | (grind [State.kept, State.stopCell_kept, State.foldl_kept])
    | rfl

theorem State.killTasks_kept (s : State) (p : Task → Bool) :
    (State.killTasks s p).2.kept = s.kept := by
  unfold State.killTasks; (try dsimp only); (repeat' split) <;> first
    | with_reducible rfl
    | (apply State.kept_congr <;> with_reducible rfl)
    | (simp only [State.stopCell_kept, State.modTasks_kept]; done)
    | (simp only [State.stopCell_kept, State.modTasks_kept]; first | with_reducible rfl | (apply State.kept_congr <;> with_reducible rfl))
    | (grind [State.kept, State.stopCell_kept, State.modTasks_kept, State.foldl_kept])
    | rfl

theorem State.answerEnq_kept (s : State) (id : CellId) :
    (State.answerEnq s id).kept = s.kept := by
  unfold State.answerEnq; (try dsimp only); (repeat' split) <;> first
    | with_reducible rfl
    | (apply State.kept_congr <;> with_reducible rfl)
    | (simp only [State.setCell_kept, State.undefinedIf_kept]; done)
    | (simp only [State.setCell_kept, State.undefinedIf_kept]; first | with_reducible rfl | (apply State.kept_congr <;> with_reducible rfl))
    | (grind [State.kept, State.setCell_kept, State.undefinedIf_kept, State.foldl_kept])
    | rfl

theorem State.finishEnq_kept (s : State) (id : CellId) (w : EnqWait) (ok : Bool) (v : BitVec 32) :
    (State.finishEnq s id w ok v).kept = s.kept := by
  unfold State.finishEnq; (try dsimp only); (repeat' split) <;> first
    | with_reducible rfl
    | (apply State.kept_congr <;> with_reducible rfl)
    | (simp only [State.retire_kept]; done)
    | (simp only [State.retire_kept]; first | with_reducible rfl | (apply State.kept_congr <;> with_reducible rfl))
    | (grind [State.kept, State.retire_kept, State.foldl_kept])
    | rfl

theorem State.observeEnq_kept (s : State) (id : CellId) :
    (State.observeEnq s id).kept = s.kept := by
  unfold State.observeEnq; (try dsimp only); (repeat' split) <;> first
    | with_reducible rfl
    | (apply State.kept_congr <;> with_reducible rfl)
    | (simp only [State.finishEnq_kept]; done)
    | (simp only [State.finishEnq_kept]; first | with_reducible rfl | (apply State.kept_congr <;> with_reducible rfl))
    | (grind [State.kept, State.finishEnq_kept, State.foldl_kept])
    | rfl

theorem State.timeoutEnq_kept (s : State) (id : CellId) :
    (State.timeoutEnq s id).kept = s.kept := by
  unfold State.timeoutEnq; (try dsimp only); (repeat' split) <;> first
    | with_reducible rfl
    | (apply State.kept_congr <;> with_reducible rfl)
    | (simp only [State.finishEnq_kept, State.dropEnq_kept]; done)
    | (simp only [State.finishEnq_kept, State.dropEnq_kept]; first | with_reducible rfl | (apply State.kept_congr <;> with_reducible rfl))
    | (grind [State.kept, State.finishEnq_kept, State.dropEnq_kept, State.foldl_kept])
    | rfl

theorem State.commitPmap_kept (s : State) :
    (State.commitPmap s).kept = s.kept := by
  unfold State.commitPmap; (try dsimp only); (repeat' split) <;> first
    | with_reducible rfl
    | (apply State.kept_congr <;> with_reducible rfl)
    | (simp only [State.raise_kept]; done)
    | (simp only [State.raise_kept]; first | with_reducible rfl | (apply State.kept_congr <;> with_reducible rfl))
    | (grind [State.kept, State.raise_kept, State.foldl_kept])
    | rfl

/-! ### Cells -/

theorem State.issueLoad_kept (s : State) (id : CellId) (task : BitVec 32) (image : List Byte) :
    (State.issueLoad s id task image).kept = s.kept := by
  unfold State.issueLoad; (try dsimp only); (repeat' split) <;> first
    | with_reducible rfl
    | (apply State.kept_congr <;> with_reducible rfl)
    | (simp only [State.setCell_kept]; done)
    | (simp only [State.setCell_kept]; first | with_reducible rfl | (apply State.kept_congr <;> with_reducible rfl))
    | (grind [State.kept, State.setCell_kept, State.foldl_kept])
    | rfl

theorem State.firstWrite_kept (s : State) (id : CellId) :
    (State.firstWrite s id).kept = s.kept := by
  unfold State.firstWrite; (try dsimp only); (repeat' split) <;> first
    | with_reducible rfl
    | (apply State.kept_congr <;> with_reducible rfl)
    | (simp only [State.setCell_kept]; done)
    | (simp only [State.setCell_kept]; first | with_reducible rfl | (apply State.kept_congr <;> with_reducible rfl))
    | (grind [State.kept, State.setCell_kept, State.foldl_kept])
    | rfl

theorem State.endLoad_kept (s : State) (id : CellId) :
    (State.endLoad s id).kept = s.kept := by
  unfold State.endLoad; (try dsimp only); (repeat' split) <;> first
    | with_reducible rfl
    | (apply State.kept_congr <;> with_reducible rfl)
    | (simp only [State.setCell_kept]; done)
    | (simp only [State.setCell_kept]; first | with_reducible rfl | (apply State.kept_congr <;> with_reducible rfl))
    | (grind [State.kept, State.setCell_kept, State.foldl_kept])
    | rfl

theorem State.abortLoad_kept (s : State) (id : CellId) :
    (State.abortLoad s id).kept = s.kept := by
  unfold State.abortLoad; (try dsimp only); (repeat' split) <;> first
    | with_reducible rfl
    | (apply State.kept_congr <;> with_reducible rfl)
    | (simp only [State.setCell_kept, State.endCause_kept, State.raise_kept]; done)
    | (simp only [State.setCell_kept, State.endCause_kept, State.raise_kept]; first | with_reducible rfl | (apply State.kept_congr <;> with_reducible rfl))
    | (grind [State.kept, State.setCell_kept, State.endCause_kept, State.raise_kept, State.foldl_kept])
    | rfl

theorem State.checkNever_kept (s : State) :
    (State.checkNever s).kept = s.kept := by
  unfold State.checkNever; (try dsimp only); (repeat' split) <;> first
    | with_reducible rfl
    | (apply State.kept_congr <;> with_reducible rfl)
    | (simp only [State.endTask_kept, State.endCause_kept, State.raise_kept]; done)
    | (simp only [State.endTask_kept, State.endCause_kept, State.raise_kept]; first | with_reducible rfl | (apply State.kept_congr <;> with_reducible rfl))
    | (grind [State.kept, State.endTask_kept, State.endCause_kept, State.raise_kept, State.foldl_kept])
    | rfl

theorem State.copyCaps_kept (s : State) :
    (State.copyCaps s).kept = s.kept := by
  unfold State.copyCaps; (try dsimp only); (repeat' split) <;> first
    | with_reducible rfl
    | (apply State.kept_congr <;> with_reducible rfl)
    | (grind [State.kept, State.foldl_kept])
    | rfl

theorem State.bumpGen_kept (s : State) :
    (State.bumpGen s).kept = s.kept := by
  unfold State.bumpGen; (try dsimp only); (repeat' split) <;> first
    | with_reducible rfl
    | (apply State.kept_congr <;> with_reducible rfl)
    | (simp only [State.checkNever_kept, State.copyCaps_kept]; done)
    | (simp only [State.checkNever_kept, State.copyCaps_kept]; first | with_reducible rfl | (apply State.kept_congr <;> with_reducible rfl))
    | (grind [State.kept, State.checkNever_kept, State.copyCaps_kept, State.foldl_kept])
    | rfl

theorem State.haltDrained_kept (s : State) (id : CellId) :
    (State.haltDrained s id).kept = s.kept := by
  unfold State.haltDrained; (try dsimp only); (repeat' split) <;> first
    | with_reducible rfl
    | (apply State.kept_congr <;> with_reducible rfl)
    | (simp only [State.memberDone_kept, State.setCell_kept]; done)
    | (simp only [State.memberDone_kept, State.setCell_kept]; first | with_reducible rfl | (apply State.kept_congr <;> with_reducible rfl))
    | (grind [State.kept, State.memberDone_kept, State.setCell_kept, State.foldl_kept])
    | rfl

theorem State.faultHandled_kept (s : State) (id : CellId) :
    (State.faultHandled s id).kept = s.kept := by
  unfold State.faultHandled; (try dsimp only); (repeat' split) <;> first
    | with_reducible rfl
    | (apply State.kept_congr <;> with_reducible rfl)
    | (simp only [State.setCell_kept]; done)
    | (simp only [State.setCell_kept]; first | with_reducible rfl | (apply State.kept_congr <;> with_reducible rfl))
    | (grind [State.kept, State.setCell_kept, State.foldl_kept])
    | rfl

theorem State.retireCell_kept (s : State) (id : CellId) (flashOk : Bool) :
    (State.retireCell s id flashOk).kept = s.kept := by
  unfold State.retireCell; (try dsimp only); (repeat' split) <;> first
    | with_reducible rfl
    | (apply State.kept_congr <;> with_reducible rfl)
    | (simp only [State.setCell_kept, State.raise_kept, State.bumpGen_kept]; done)
    | (simp only [State.setCell_kept, State.raise_kept, State.bumpGen_kept]; first | with_reducible rfl | (apply State.kept_congr <;> with_reducible rfl))
    | (grind [State.kept, State.setCell_kept, State.raise_kept, State.bumpGen_kept, State.foldl_kept])
    | rfl

theorem State.admitSpare_kept (s : State) (retired : CellId) :
    (State.admitSpare s retired).kept = s.kept := by
  unfold State.admitSpare; (try dsimp only); (repeat' split) <;> first
    | with_reducible rfl
    | (apply State.kept_congr <;> with_reducible rfl)
    | (simp only [State.modCell_kept, State.bumpGen_kept, State.raise_kept]; done)
    | (simp only [State.modCell_kept, State.bumpGen_kept, State.raise_kept]; first | with_reducible rfl | (apply State.kept_congr <;> with_reducible rfl))
    | (grind [State.kept, State.modCell_kept, State.bumpGen_kept, State.raise_kept, State.foldl_kept])
    | rfl

theorem State.suspectExpiry_kept (s : State) (id : CellId) :
    (State.suspectExpiry s id).kept = s.kept := by
  unfold State.suspectExpiry; (try dsimp only); (repeat' split) <;> first
    | with_reducible rfl
    | (apply State.kept_congr <;> with_reducible rfl)
    | (simp only [State.modCell_kept]; done)
    | (simp only [State.modCell_kept]; first | with_reducible rfl | (apply State.kept_congr <;> with_reducible rfl))
    | (grind [State.kept, State.modCell_kept, State.foldl_kept])
    | rfl

/-! ### Trace -/

theorem State.modTrace_kept (s : State) (k : Nat) (f : TraceState → TraceState) :
    (State.modTrace s k f).kept = s.kept := by
  unfold State.modTrace; (try dsimp only); (repeat' split) <;> first
    | with_reducible rfl
    | (apply State.kept_congr <;> with_reducible rfl)
    | (simp only [State.setBox_kept]; done)
    | (simp only [State.setBox_kept]; first | with_reducible rfl | (apply State.kept_congr <;> with_reducible rfl))
    | (grind [State.kept, State.setBox_kept, State.foldl_kept])
    | rfl

theorem State.countDrop_kept (s : State) (k : Nat) (lt : BitVec 64) :
    (State.countDrop s k lt).kept = s.kept := by
  unfold State.countDrop; (try dsimp only); (repeat' split) <;> first
    | with_reducible rfl
    | (apply State.kept_congr <;> with_reducible rfl)
    | (simp only [State.modTrace_kept, State.raise_kept]; done)
    | (simp only [State.modTrace_kept, State.raise_kept]; first | with_reducible rfl | (apply State.kept_congr <;> with_reducible rfl))
    | (grind [State.kept, State.modTrace_kept, State.raise_kept, State.foldl_kept])
    | rfl

theorem State.traceEntry_kept (s : State) (k : Nat) (code : Nat) (sev : Nat) (cell : Option (BitVec 4)) (payload : List Byte) :
    (State.traceEntry s k code sev cell payload).kept = s.kept := by
  unfold State.traceEntry; (try dsimp only); (repeat' split) <;> first
    | with_reducible rfl
    | (apply State.kept_congr <;> with_reducible rfl)
    | (simp only [State.modTrace_kept, State.countDrop_kept]; done)
    | (simp only [State.modTrace_kept, State.countDrop_kept]; first | with_reducible rfl | (apply State.kept_congr <;> with_reducible rfl))
    | (grind [State.kept, State.modTrace_kept, State.countDrop_kept, State.foldl_kept])
    | rfl

theorem State.dropHeld_kept (s : State) (k : Nat) (lt : BitVec 64) :
    (State.dropHeld s k lt).kept = s.kept := by
  unfold State.dropHeld; (try dsimp only); (repeat' split) <;> first
    | with_reducible rfl
    | (apply State.kept_congr <;> with_reducible rfl)
    | (simp only [State.countDrop_kept, State.modTrace_kept]; done)
    | (simp only [State.countDrop_kept, State.modTrace_kept]; first | with_reducible rfl | (apply State.kept_congr <;> with_reducible rfl))
    | (grind [State.kept, State.countDrop_kept, State.modTrace_kept, State.foldl_kept])
    | rfl

theorem State.bufferEntry_kept (s : State) (k : Nat) (e : TraceEntry) :
    (State.bufferEntry s k e).kept = s.kept := by
  unfold State.bufferEntry; (try dsimp only); (repeat' split) <;> first
    | with_reducible rfl
    | (apply State.kept_congr <;> with_reducible rfl)
    | (simp only [State.modTrace_kept, State.dropHeld_kept]; done)
    | (simp only [State.modTrace_kept, State.dropHeld_kept]; first | with_reducible rfl | (apply State.kept_congr <;> with_reducible rfl))
    | (grind [State.kept, State.modTrace_kept, State.dropHeld_kept, State.foldl_kept])
    | rfl

theorem State.traceWrite_kept (s : State) (k : Nat) :
    (State.traceWrite s k).kept = s.kept := by
  unfold State.traceWrite; (try dsimp only); (repeat' split) <;> first
    | with_reducible rfl
    | (apply State.kept_congr <;> with_reducible rfl)
    | (simp only [State.modTrace_kept, State.bufferEntry_kept]; done)
    | (simp only [State.modTrace_kept, State.bufferEntry_kept]; first | with_reducible rfl | (apply State.kept_congr <;> with_reducible rfl))
    | (grind [State.kept, State.modTrace_kept, State.bufferEntry_kept, State.foldl_kept])
    | rfl

theorem State.traceArm_kept (s : State) (k : Nat) :
    (State.traceArm s k).kept = s.kept := by
  unfold State.traceArm; (try dsimp only); (repeat' split) <;> first
    | with_reducible rfl
    | (apply State.kept_congr <;> with_reducible rfl)
    | (simp only [State.modTrace_kept]; done)
    | (simp only [State.modTrace_kept]; first | with_reducible rfl | (apply State.kept_congr <;> with_reducible rfl))
    | (grind [State.kept, State.modTrace_kept, State.foldl_kept])
    | rfl

theorem State.trigger_kept (s : State) (k : Nat) (source : Nat) (cell : Nat) (origin : Nat) (lt : BitVec 64) :
    (State.trigger s k source cell origin lt).1.kept = s.kept := by
  unfold State.trigger; (try dsimp only); (repeat' split) <;> first
    | with_reducible rfl
    | (apply State.kept_congr <;> with_reducible rfl)
    | (simp only [State.modTrace_kept, State.raise_kept]; done)
    | (simp only [State.modTrace_kept, State.raise_kept]; first | with_reducible rfl | (apply State.kept_congr <;> with_reducible rfl))
    | (grind [State.kept, State.modTrace_kept, State.raise_kept, State.foldl_kept])
    | rfl

/-! ### Waybill -/

theorem State.setCtx_kept (s : State) (id : CellId) (i : BitVec 2) (x : WbCtx) :
    (State.setCtx s id i x).kept = s.kept := by
  unfold State.setCtx; (try dsimp only); (repeat' split) <;> first
    | with_reducible rfl
    | (apply State.kept_congr <;> with_reducible rfl)
    | (simp only [State.modCell_kept]; done)
    | (simp only [State.modCell_kept]; first | with_reducible rfl | (apply State.kept_congr <;> with_reducible rfl))
    | (grind [State.kept, State.modCell_kept, State.foldl_kept])
    | rfl

theorem State.wbFaultAt_kept (s : State) (id : CellId) (i : BitVec 2) (reason : Nat) (pc : Nat) (seq : BitVec 32) :
    (State.wbFaultAt s id i reason pc seq).kept = s.kept := by
  unfold State.wbFaultAt; (try dsimp only); (repeat' split) <;> first
    | with_reducible rfl
    | (apply State.kept_congr <;> with_reducible rfl)
    | (simp only [State.cmdFault_kept, State.raise_kept, State.setCell_kept]; done)
    | (simp only [State.cmdFault_kept, State.raise_kept, State.setCell_kept]; first | with_reducible rfl | (apply State.kept_congr <;> with_reducible rfl))
    | (grind [State.kept, State.cmdFault_kept, State.raise_kept, State.setCell_kept, State.foldl_kept])
    | rfl

theorem State.wbFault_kept (s : State) (id : CellId) (i : BitVec 2) (reason : Nat) :
    (State.wbFault s id i reason).kept = s.kept := by
  unfold State.wbFault; (try dsimp only); (repeat' split) <;> first
    | with_reducible rfl
    | (apply State.kept_congr <;> with_reducible rfl)
    | (simp only [State.wbFaultAt_kept]; done)
    | (simp only [State.wbFaultAt_kept]; first | with_reducible rfl | (apply State.kept_congr <;> with_reducible rfl))
    | (grind [State.kept, State.wbFaultAt_kept, State.foldl_kept])
    | rfl

theorem State.wbClose_kept (s : State) (id : CellId) (i : BitVec 2) :
    (State.wbClose s id i).kept = s.kept := by
  unfold State.wbClose; (try dsimp only); (repeat' split) <;> first
    | with_reducible rfl
    | (apply State.kept_congr <;> with_reducible rfl)
    | (simp only [State.setCell_kept]; done)
    | (simp only [State.setCell_kept]; first | with_reducible rfl | (apply State.kept_congr <;> with_reducible rfl))
    | (grind [State.kept, State.setCell_kept, State.foldl_kept])
    | rfl

theorem State.wbFetch_kept (s : State) (id : CellId) (i : BitVec 2) :
    (State.wbFetch s id i).kept = s.kept := by
  unfold State.wbFetch; (try dsimp only); (repeat' split) <;> first
    | with_reducible rfl
    | (apply State.kept_congr <;> with_reducible rfl)
    | (simp only [State.touchStore_kept, State.modCell_kept]; done)
    | (simp only [State.touchStore_kept, State.modCell_kept]; first | with_reducible rfl | (apply State.kept_congr <;> with_reducible rfl))
    | (grind [State.kept, State.touchStore_kept, State.modCell_kept, State.foldl_kept])
    | rfl

theorem wbPlain_kept (body : State → WbCtx → Nat → WbResult) (id : CellId) (i : BitVec 2) (n : Nat) (s : State) :
    (wbPlain body id i n s).kept = s.kept := by
  unfold wbPlain; split
  · exact State.setCtx_kept _ _ _ _
  · exact State.wbFault_kept _ _ _ _
  · rw [State.wbClose_kept, State.setCtx_kept]

theorem State.wbTake_kept (s : State) (id : CellId) (i : BitVec 2) (sem : BitVec 5) (cnt : Nat) :
    (State.wbTake s id i sem cnt).kept = s.kept := by
  unfold State.wbTake; (try dsimp only); (repeat' split) <;> first
    | with_reducible rfl
    | (apply State.kept_congr <;> with_reducible rfl)
    | (simp only [State.setCell_kept]; done)
    | (simp only [State.setCell_kept]; first | with_reducible rfl | (apply State.kept_congr <;> with_reducible rfl))
    | (grind [State.kept, State.setCell_kept, State.foldl_kept])
    | rfl

theorem runWait_kept (id : CellId) (i : BitVec 2) (n : Nat) (s : State) :
    (runWait id i n s).kept = s.kept := by
  unfold runWait; (try dsimp only); (repeat' split) <;> first
    | with_reducible rfl
    | (apply State.kept_congr <;> with_reducible rfl)
    | (simp only [State.wbTake_kept, State.setCtx_kept]; done)
    | (simp only [State.wbTake_kept, State.setCtx_kept]; first | with_reducible rfl | (apply State.kept_congr <;> with_reducible rfl))
    | (grind [State.kept, State.wbTake_kept, State.setCtx_kept, State.foldl_kept])
    | rfl

theorem wbWaitDone_kept (id : CellId) (i : BitVec 2) (s : State) :
    (wbWaitDone id i s).kept = s.kept := by
  unfold wbWaitDone; (try dsimp only); (repeat' split) <;> first
    | with_reducible rfl
    | (apply State.kept_congr <;> with_reducible rfl)
    | (simp only [State.wbTake_kept]; done)
    | (simp only [State.wbTake_kept]; first | with_reducible rfl | (apply State.kept_congr <;> with_reducible rfl))
    | (grind [State.kept, State.wbTake_kept, State.foldl_kept])
    | rfl

theorem moveRows_kept (s : State) (pm : List Tensor) (id : CellId) (x : WbCtx) (m : MoveOp) (sh : Shape) : (moveRows s pm id x m sh).1.kept = s.kept := by
  unfold moveRows
  refine State.foldl2_kept _ _ _ fun a r => ?_
  (repeat' split) <;> first | rfl | exact State.foldl_kept _ _ _ fun s a => State.touchPlace_kept _ _ _

theorem State.landIssued_kept (s : State) (x : WbCtx) (more : List Piece) :
    (State.landIssued s x more).kept = s.kept := by
  unfold State.landIssued; (try dsimp only); (repeat' split) <;> first
    | with_reducible rfl
    | (apply State.kept_congr <;> with_reducible rfl)
    | (simp only [State.landAll_kept]; done)
    | (simp only [State.landAll_kept]; first | with_reducible rfl | (apply State.kept_congr <;> with_reducible rfl))
    | (grind [State.kept, State.landAll_kept, State.foldl_kept])
    | rfl

theorem State.landCtx_kept (s : State) (id : CellId) (i : BitVec 2) :
    (State.landCtx s id i).kept = s.kept := by
  unfold State.landCtx; (try dsimp only); (repeat' split) <;> first
    | with_reducible rfl
    | (apply State.kept_congr <;> with_reducible rfl)
    | (simp only [State.setCtx_kept, State.landAll_kept]; done)
    | (simp only [State.setCtx_kept, State.landAll_kept]; first | with_reducible rfl | (apply State.kept_congr <;> with_reducible rfl))
    | (grind [State.kept, State.setCtx_kept, State.landAll_kept, State.foldl_kept])
    | rfl

theorem moveGather_kept (s : State) (pm : List Tensor) (id : CellId) (x : WbCtx) (m : MoveOp) (sh : Shape) :
    (moveGather s pm id x m sh).s.kept = s.kept := by
  have h := moveRows_kept s pm id x m sh
  unfold moveGather; dsimp only
  rw [State.skipFree_kept, h]

theorem issueMove_kept (id : CellId) (i : BitVec 2) (m : MoveOp) (sh : Shape) (s : State) : (issueMove id i m sh s).kept = s.kept := by
  have g := moveGather_kept s (s.cellMap id) id (rget (s.cell id).wb i) m sh
  unfold issueMove; dsimp only
  split
  · rw [State.wbFault_kept, State.landIssued_kept, g]
  · split
    · rename_i e; exact State.needSnoops_kept _ _ _ _ e
    · rw [State.setCtx_kept, g]

theorem State.freeUnit_kept (s : State) (id : CellId) : (∀ t, s.freeUnit id = .inl t → t.kept = s.kept) ∧ ∀ t, s.freeUnit id = .inr t → t.kept = s.kept := by
  unfold State.freeUnit
  dsimp only
  split
  · rename_i e
    refine ⟨fun t h => ?_, fun t h => ?_⟩
    · cases h
    · cases h; exact State.needSnoops_kept _ _ _ _ e
  · refine ⟨fun t h => ?_, fun t h => ?_⟩
    · cases h
      rw [State.foldl_kept _ _ _ fun s r => by rw [State.modCell_kept, State.landAll_kept],
        State.foldl_kept _ _ _ fun s i => State.landCtx_kept _ _ _]
    · cases h

theorem runMove_kept (id : CellId) (i : BitVec 2) (n : Nat) (s : State) : (runMove id i n s).kept = s.kept := by
  unfold runMove; dsimp only
  split
  · exact State.wbFault_kept _ _ _ _
  · split
    · exact State.wbFault_kept _ _ _ _
    · split
      · exact State.wbFault_kept _ _ _ _
      · split
        · exact State.wbFault_kept _ _ _ _
        · split
          · exact issueMove_kept _ _ _ _ _
          · split
            · rename_i e; exact (State.freeUnit_kept s id).2 _ e
            · rename_i e; rw [issueMove_kept, (State.freeUnit_kept s id).1 _ e]

theorem wbOpOf_kept (n : Nat) (op : WbOp) (h : wbOpOf n = some op) (id : CellId) (i : BitVec 2) (w : Nat) (s : State) :
    (op.run id i w s).kept = s.kept := by
  unfold wbOpOf at h
  split at h <;> first
    | (cases h; done)
    | (cases h; first | exact wbPlain_kept _ _ _ _ _ | exact runWait_kept _ _ _ _ | exact runMove_kept _ _ _ _)

theorem wbInstr_kept (id : CellId) (i : BitVec 2) (w : DWord) (s : State) : ∀ t, wbInstr id i w s = .next t → t.kept = s.kept := by
  unfold wbInstr
  refine withCell_kept _ _ _ ?_
  dsimp only
  split
  · rfl
  · split
    · exact State.wbFault_kept _ _ _ _
    · split
      · rw [State.wbFault_kept, State.wbFetch_kept]
      · rename_i op h
        split
        · rw [wbOpOf_kept _ _ h, State.wbFetch_kept]
        · rw [State.wbFault_kept, State.wbFetch_kept]

theorem wbSignalEffect_kept (id : CellId) (i : BitVec 2) (s : State) :
    (wbSignalEffect id i s).kept = s.kept := by
  unfold wbSignalEffect; (try dsimp only); (repeat' split) <;> first
    | with_reducible rfl
    | (apply State.kept_congr <;> with_reducible rfl)
    | (simp only [State.needSnoops_kept, State.wbClose_kept, State.signal_kept, State.setCtx_kept, State.landAll_kept]; done)
    | (simp only [State.needSnoops_kept, State.wbClose_kept, State.signal_kept, State.setCtx_kept, State.landAll_kept]; first | with_reducible rfl | (apply State.kept_congr <;> with_reducible rfl))
    | (grind [State.kept, State.needSnoops_kept, State.wbClose_kept, State.signal_kept, State.setCtx_kept, State.landAll_kept, State.foldl_kept])
    | rfl

theorem wbFenceDone_kept (id : CellId) (i : BitVec 2) (s : State) :
    (wbFenceDone id i s).kept = s.kept := by
  unfold wbFenceDone; (try dsimp only); (repeat' split) <;> first
    | with_reducible rfl
    | (apply State.kept_congr <;> with_reducible rfl)
    | (simp only [State.needSnoops_kept, State.setCtx_kept, State.landAll_kept]; done)
    | (simp only [State.needSnoops_kept, State.setCtx_kept, State.landAll_kept]; first | with_reducible rfl | (apply State.kept_congr <;> with_reducible rfl))
    | (grind [State.kept, State.needSnoops_kept, State.setCtx_kept, State.landAll_kept, State.foldl_kept])
    | rfl

theorem State.spoil_kept (s : State) (p : Piece) :
    (State.spoil s p).1.kept = s.kept := by
  unfold State.spoil; (try dsimp only); (repeat' split) <;> first
    | with_reducible rfl
    | (apply State.kept_congr <;> with_reducible rfl)
    | (grind [State.kept, State.foldl_kept])
    | rfl

theorem State.spoilAll_kept (s : State) (id : CellId) (seg : Nat) (l : List Piece) : (s.spoilAll id seg l).1.kept = s.kept := by
  unfold State.spoilAll
  refine State.foldl2_kept _ _ _ fun a q => ?_
  dsimp only
  split
  · exact State.spoil_kept _ _
  · rfl

theorem State.wbMark_kept (s : State) (id : CellId) (i : BitVec 2) (seq : BitVec 32) (p : Piece) (first : Bool) (late : Bool) :
    (State.wbMark s id i seq p first late).kept = s.kept := by
  unfold State.wbMark; (try dsimp only); (repeat' split) <;> first
    | with_reducible rfl
    | (apply State.kept_congr <;> with_reducible rfl)
    | (simp only [State.setCell_kept, State.raise_kept]; done)
    | (simp only [State.setCell_kept, State.raise_kept]; first | with_reducible rfl | (apply State.kept_congr <;> with_reducible rfl))
    | (grind [State.kept, State.setCell_kept, State.raise_kept, State.foldl_kept])
    | rfl

theorem wbLose_kept (id : CellId) (i : BitVec 2) (seg : Nat) (late : Bool) (ok : Piece → Bool) (s : State) :
    (wbLose id i seg late ok s).kept = s.kept := by
  unfold wbLose; (try dsimp only); (repeat' split) <;> first
    | with_reducible rfl
    | (apply State.kept_congr <;> with_reducible rfl)
    | (simp only [State.wbFaultAt_kept, State.spoilAll_kept, State.wbMark_kept, State.setCtx_kept, State.modCell_kept]; done)
    | (simp only [State.wbFaultAt_kept, State.spoilAll_kept, State.wbMark_kept, State.setCtx_kept, State.modCell_kept]; first | with_reducible rfl | (apply State.kept_congr <;> with_reducible rfl))
    | (grind [State.kept, State.wbFaultAt_kept, State.spoilAll_kept, State.wbMark_kept, State.setCtx_kept, State.modCell_kept, State.foldl_kept])
    | rfl

theorem wbLost_kept (id : CellId) (i : BitVec 2) (index : Nat) (late : Bool) (s : State) :
    (wbLost id i index late s).kept = s.kept := by
  unfold wbLost; (try dsimp only); (repeat' split) <;> first
    | with_reducible rfl
    | (apply State.kept_congr <;> with_reducible rfl)
    | (simp only [wbLose_kept]; done)
    | (simp only [wbLose_kept]; first | with_reducible rfl | (apply State.kept_congr <;> with_reducible rfl))
    | (grind [State.kept, wbLose_kept, State.foldl_kept])
    | rfl

theorem State.linkFails_kept (s : State) (l : DieLink) :
    (State.linkFails s l).kept = s.kept := by
  unfold State.linkFails; (try dsimp only); (repeat' split) <;> first
    | with_reducible rfl
    | (apply State.kept_congr <;> with_reducible rfl)
    | (simp only [State.cmdFault_kept, wbLose_kept, State.colSettle_kept, State.endPart_kept]; done)
    | (simp only [State.cmdFault_kept, wbLose_kept, State.colSettle_kept, State.endPart_kept]; first | with_reducible rfl | (apply State.kept_congr <;> with_reducible rfl))
    | (grind [State.kept, State.cmdFault_kept, wbLose_kept, State.colSettle_kept, State.endPart_kept, State.foldl_kept])
    | rfl

/-! ### Memory -/

theorem State.modStack_kept (s : State) (stack : Nat) (f : StackState → StackState) :
    (State.modStack s stack f).kept = s.kept := by
  unfold State.modStack; (try dsimp only); (repeat' split) <;> first
    | with_reducible rfl
    | (apply State.kept_congr <;> with_reducible rfl)
    | (grind [State.kept, State.foldl_kept])
    | rfl

theorem State.laneError_kept (s : State) (pch : Nat) (lane : Nat) :
    (State.laneError s pch lane).kept = s.kept := by
  unfold State.laneError; (try dsimp only); (repeat' split) <;> first
    | with_reducible rfl
    | (apply State.kept_congr <;> with_reducible rfl)
    | (grind [State.kept, State.foldl_kept])
    | rfl

theorem State.readSector_kept (s : State) (sector : Nat) (errs : List Nat) (source : Nat) :
    (State.readSector s sector errs source).kept = s.kept := by
  unfold State.readSector; (try dsimp only); (repeat' split) <;> first
    | with_reducible rfl
    | (apply State.kept_congr <;> with_reducible rfl)
    | (simp only [State.laneError_kept, State.modStack_kept, State.raise_kept]; done)
    | (simp only [State.laneError_kept, State.modStack_kept, State.raise_kept]; first | with_reducible rfl | (apply State.kept_congr <;> with_reducible rfl))
    | (grind [State.kept, State.laneError_kept, State.modStack_kept, State.raise_kept, State.foldl_kept])
    | rfl

theorem State.trackLine_kept (s : State) (line : Nat) (modified : Bool) :
    (State.trackLine s line modified).kept = s.kept := by
  unfold State.trackLine; (try dsimp only); (repeat' split) <;> first
    | with_reducible rfl
    | (apply State.kept_congr <;> with_reducible rfl)
    | (simp only [State.reply_kept]; done)
    | (simp only [State.reply_kept]; first | with_reducible rfl | (apply State.kept_congr <;> with_reducible rfl))
    | (grind [State.kept, State.reply_kept, State.foldl_kept])
    | rfl

theorem State.serveHostRead_kept (s : State) (offset : Nat) (cache : Bool) (own : Bool) (errs0 : List Nat) (errs1 : List Nat) :
    (State.serveHostRead s offset cache own errs0 errs1).kept = s.kept := by
  unfold State.serveHostRead; (try dsimp only); (repeat' split) <;> first
    | with_reducible rfl
    | (apply State.kept_congr <;> with_reducible rfl)
    | (simp only [State.readSector_kept, State.seenBytes_kept, State.reply_kept, State.raise_kept, State.trackLine_kept]; done)
    | (simp only [State.readSector_kept, State.seenBytes_kept, State.reply_kept, State.raise_kept, State.trackLine_kept]; first | with_reducible rfl | (apply State.kept_congr <;> with_reducible rfl))
    | (grind [State.kept, State.readSector_kept, State.seenBytes_kept, State.reply_kept, State.raise_kept, State.trackLine_kept, State.foldl_kept])
    | rfl

theorem State.serveHostWrite_kept (s : State) (offset : Nat) (data : List Byte) (poison : Bool) (keep : Bool) (errs : List Nat) :
    (State.serveHostWrite s offset data poison keep errs).kept = s.kept := by
  unfold State.serveHostWrite; (try dsimp only); (repeat' split) <;> first
    | with_reducible rfl
    | (apply State.kept_congr <;> with_reducible rfl)
    | (simp only [State.readSector_kept, State.trackLine_kept]; done)
    | (simp only [State.readSector_kept, State.trackLine_kept]; first | with_reducible rfl | (apply State.kept_congr <;> with_reducible rfl))
    | (grind [State.kept, State.readSector_kept, State.trackLine_kept, State.foldl_kept])
    | rfl

theorem State.serve_kept (s : State) (r : MemReq) :
    (State.serve s r).kept = s.kept := by
  unfold State.serve; (try dsimp only); (repeat' split) <;> first
    | with_reducible rfl
    | (apply State.kept_congr <;> with_reducible rfl)
    | (simp only [State.readSector_kept, State.seenBytes_kept, State.reply_kept, State.applyAtom_kept, State.serveHostRead_kept, State.serveHostWrite_kept]; done)
    | (simp only [State.readSector_kept, State.seenBytes_kept, State.reply_kept, State.applyAtom_kept, State.serveHostRead_kept, State.serveHostWrite_kept]; first | with_reducible rfl | (apply State.kept_congr <;> with_reducible rfl))
    | (grind [State.kept, State.readSector_kept, State.seenBytes_kept, State.reply_kept, State.applyAtom_kept, State.serveHostRead_kept, State.serveHostWrite_kept, State.foldl_kept])
    | rfl

theorem State.request_kept (s : State) (r : MemReq) : (s.request r).kept = s.kept := by
  have e : ∀ (x : State) (m : MemState), State.kept { x with mem := m } = x.kept := fun _ _ => rfl
  unfold State.request; dsimp only
  split
  · exact e _ _
  · split
    · exact State.serve_kept _ _
    · split
      · rename_i h; rw [e]; exact State.needSnoops_kept _ _ _ _ h
      · exact State.serve_kept _ _


theorem State.retryQueued_kept (s : State) :
    (State.retryQueued s).kept = s.kept := by
  unfold State.retryQueued; (try dsimp only); (repeat' split) <;> first
    | with_reducible rfl
    | (apply State.kept_congr <;> with_reducible rfl)
    | (simp only [State.request_kept]; done)
    | (simp only [State.request_kept]; first | with_reducible rfl | (apply State.kept_congr <;> with_reducible rfl))
    | (grind [State.kept, State.request_kept, State.foldl_kept])
    | rfl

theorem State.accessSector_kept (s : State) (r : MemReq) :
    (State.accessSector s r).kept = s.kept := by
  unfold State.accessSector; (try dsimp only); (repeat' split) <;> first
    | with_reducible rfl
    | (apply State.kept_congr <;> with_reducible rfl)
    | (simp only [State.request_kept]; done)
    | (simp only [State.request_kept]; first | with_reducible rfl | (apply State.kept_congr <;> with_reducible rfl))
    | (grind [State.kept, State.request_kept, State.foldl_kept])
    | rfl

theorem State.atomicUpdate_kept (s : State) (dpa : Nat) (fmt : BitVec 4) (op : BitVec 3) (value : Nat) (poison : Bool) (errs : List Nat) :
    (State.atomicUpdate s dpa fmt op value poison errs).kept = s.kept := by
  unfold State.atomicUpdate; (try dsimp only); (repeat' split) <;> first
    | with_reducible rfl
    | (apply State.kept_congr <;> with_reducible rfl)
    | (simp only [State.accessSector_kept]; done)
    | (simp only [State.accessSector_kept]; first | with_reducible rfl | (apply State.kept_congr <;> with_reducible rfl))
    | (grind [State.kept, State.accessSector_kept, State.foldl_kept])
    | rfl

theorem State.readReserved_kept (s : State) (stack : BitVec 4) (sector : Nat) (errs : List Nat) :
    (State.readReserved s stack sector errs).kept = s.kept := by
  unfold State.readReserved; (try dsimp only); (repeat' split) <;> first
    | with_reducible rfl
    | (apply State.kept_congr <;> with_reducible rfl)
    | (simp only [State.laneError_kept, State.modStack_kept, State.freshNat_kept, State.raise_kept]; done)
    | (simp only [State.laneError_kept, State.modStack_kept, State.freshNat_kept, State.raise_kept]; first | with_reducible rfl | (apply State.kept_congr <;> with_reducible rfl))
    | (grind [State.kept, State.laneError_kept, State.modStack_kept, State.freshNat_kept, State.raise_kept, State.foldl_kept])
    | rfl

theorem State.scrub_kept (s : State) (stack : BitVec 4) (sector : Nat) (reserved : Bool) (errs : List Nat) :
    (State.scrub s stack sector reserved errs).kept = s.kept := by
  unfold State.scrub; (try dsimp only); (repeat' split) <;> first
    | with_reducible rfl
    | (apply State.kept_congr <;> with_reducible rfl)
    | (simp only [State.readReserved_kept, State.readSector_kept]; done)
    | (simp only [State.readReserved_kept, State.readSector_kept]; first | with_reducible rfl | (apply State.kept_congr <;> with_reducible rfl))
    | (grind [State.kept, State.readReserved_kept, State.readSector_kept, State.foldl_kept])
    | rfl

theorem State.laneRepairStart_kept (s : State) (pch : BitVec 10) (lane : Nat) :
    (State.laneRepairStart s pch lane).kept = s.kept := by
  unfold State.laneRepairStart; (try dsimp only); (repeat' split) <;> first
    | with_reducible rfl
    | (apply State.kept_congr <;> with_reducible rfl)
    | (simp only [State.raise_kept]; done)
    | (simp only [State.raise_kept]; first | with_reducible rfl | (apply State.kept_congr <;> with_reducible rfl))
    | (grind [State.kept, State.raise_kept, State.foldl_kept])
    | rfl

theorem State.laneRepairEnd_kept (s : State) (pch : BitVec 10) :
    (State.laneRepairEnd s pch).kept = s.kept := by
  unfold State.laneRepairEnd; (try dsimp only); (repeat' split) <;> first
    | with_reducible rfl
    | (apply State.kept_congr <;> with_reducible rfl)
    | (simp only [State.modStack_kept, State.raise_kept, State.retryQueued_kept]; done)
    | (simp only [State.modStack_kept, State.raise_kept, State.retryQueued_kept]; first | with_reducible rfl | (apply State.kept_congr <;> with_reducible rfl))
    | (grind [State.kept, State.modStack_kept, State.raise_kept, State.retryQueued_kept, State.foldl_kept])
    | rfl

theorem State.hostRead_kept (s : State) (offset : Nat) (cache : Bool) (own : Bool) (errs0 : List Nat) (errs1 : List Nat) :
    (State.hostRead s offset cache own errs0 errs1).kept = s.kept := by
  unfold State.hostRead; (try dsimp only); (repeat' split) <;> first
    | with_reducible rfl
    | (apply State.kept_congr <;> with_reducible rfl)
    | (simp only [State.freshNat_kept, State.raise_kept, State.reply_kept, State.request_kept]; done)
    | (simp only [State.freshNat_kept, State.raise_kept, State.reply_kept, State.request_kept]; first | with_reducible rfl | (apply State.kept_congr <;> with_reducible rfl))
    | (grind [State.kept, State.freshNat_kept, State.raise_kept, State.reply_kept, State.request_kept, State.foldl_kept])
    | rfl

theorem State.hostWrite_kept (s : State) (offset : Nat) (data : List Byte) (poison : Bool) (keep : Bool) (errs : List Nat) :
    (State.hostWrite s offset data poison keep errs).kept = s.kept := by
  unfold State.hostWrite; (try dsimp only); (repeat' split) <;> first
    | with_reducible rfl
    | (apply State.kept_congr <;> with_reducible rfl)
    | (simp only [State.raise_kept, State.request_kept]; done)
    | (simp only [State.raise_kept, State.request_kept]; first | with_reducible rfl | (apply State.kept_congr <;> with_reducible rfl))
    | (grind [State.kept, State.raise_kept, State.request_kept, State.foldl_kept])
    | rfl

theorem State.snoopAnswer_kept (s : State) (line : Nat) (data : Option (List Byte)) (poison : Bool) :
    (State.snoopAnswer s line data poison).kept = s.kept := by
  unfold State.snoopAnswer; (try dsimp only); (repeat' split) <;> first
    | with_reducible rfl
    | (apply State.kept_congr <;> with_reducible rfl)
    | (simp only [State.retryQueued_kept]; done)
    | (simp only [State.retryQueued_kept]; first | with_reducible rfl | (apply State.kept_congr <;> with_reducible rfl))
    | (grind [State.kept, State.retryQueued_kept, State.foldl_kept])
    | rfl

theorem State.scopeCommit_kept (s : State) :
    (State.scopeCommit s).kept = s.kept := by
  unfold State.scopeCommit; (try dsimp only); (repeat' split) <;> first
    | with_reducible rfl
    | (apply State.kept_congr <;> with_reducible rfl)
    | (simp only [State.freshNat_kept, State.raise_kept]; done)
    | (simp only [State.freshNat_kept, State.raise_kept]; first | with_reducible rfl | (apply State.kept_congr <;> with_reducible rfl))
    | (grind [State.kept, State.freshNat_kept, State.raise_kept, State.foldl_kept])
    | rfl

theorem State.copyTensor_kept (s : State) (t : Tensor) (loc : TLoc) :
    (State.copyTensor s t loc).kept = s.kept := by
  unfold State.copyTensor; (try dsimp only); (repeat' split) <;> first
    | with_reducible rfl
    | (apply State.kept_congr <;> with_reducible rfl)
    | (simp only [State.touchPlace_kept, State.writePlace_kept]; done)
    | (simp only [State.touchPlace_kept, State.writePlace_kept]; first | with_reducible rfl | (apply State.kept_congr <;> with_reducible rfl))
    | (grind [State.kept, State.touchPlace_kept, State.writePlace_kept, State.foldl_kept])
    | rfl

theorem State.copyWaits_kept (s : State) (t : Tensor) (loc : TLoc) : ∀ u, s.copyWaits t loc = some u → u.kept = s.kept := by
  intro u h
  unfold State.copyWaits at h
  grind [State.needSnoops_kept]

theorem State.moveTensor_kept (s : State) (handle : Nat) (loc : TLoc) :
    (State.moveTensor s handle loc).kept = s.kept := by
  unfold State.moveTensor; (try dsimp only); (repeat' split) <;> first
    | with_reducible rfl
    | (apply State.kept_congr <;> with_reducible rfl)
    | (simp only [State.copyWaits_kept, State.copyTensor_kept, State.commitPmap_kept]; done)
    | (simp only [State.copyWaits_kept, State.copyTensor_kept, State.commitPmap_kept]; first | with_reducible rfl | (apply State.kept_congr <;> with_reducible rfl))
    | (grind [State.kept, State.copyWaits_kept, State.copyTensor_kept, State.commitPmap_kept, State.foldl_kept])
    | rfl

theorem State.loseTensors_kept (s : State) (p : Tensor → Bool) :
    (State.loseTensors s p).kept = s.kept := by
  unfold State.loseTensors; (try dsimp only); (repeat' split) <;> first
    | with_reducible rfl
    | (apply State.kept_congr <;> with_reducible rfl)
    | (simp only [State.raise_kept, State.cmdFault_kept, wbLose_kept]; done)
    | (simp only [State.raise_kept, State.cmdFault_kept, wbLose_kept]; first | with_reducible rfl | (apply State.kept_congr <;> with_reducible rfl))
    | (grind [State.kept, State.raise_kept, State.cmdFault_kept, wbLose_kept, State.foldl_kept])
    | rfl

theorem State.tierLost_kept (s : State) (module : BitVec 15) (handle : BitVec 32) :
    (State.tierLost s module handle).kept = s.kept := by
  unfold State.tierLost; (try dsimp only); (repeat' split) <;> first
    | with_reducible rfl
    | (apply State.kept_congr <;> with_reducible rfl)
    | (simp only [State.loseTensors_kept]; done)
    | (simp only [State.loseTensors_kept]; first | with_reducible rfl | (apply State.kept_congr <;> with_reducible rfl))
    | (grind [State.kept, State.loseTensors_kept, State.foldl_kept])
    | rfl

/-! ### Arbiters -/

theorem State.setArbBlock_kept (s : State) (b : BitVec 3) (k : ArbBlock) :
    (State.setArbBlock s b k).kept = s.kept := by
  unfold State.setArbBlock; (try dsimp only); (repeat' split) <;> first
    | with_reducible rfl
    | (apply State.kept_congr <;> with_reducible rfl)
    | (grind [State.kept, State.foldl_kept])
    | rfl

theorem State.slotEdge_kept (s : State) (b : BitVec 3) (reqs : List (Nat × ArbReq)) :
    (State.slotEdge s b reqs).kept = s.kept := by
  unfold State.slotEdge; (try dsimp only); (repeat' split) <;> first
    | with_reducible rfl
    | (apply State.kept_congr <;> with_reducible rfl)
    | (simp only [State.setArbBlock_kept]; done)
    | (simp only [State.setArbBlock_kept]; first | with_reducible rfl | (apply State.kept_congr <;> with_reducible rfl))
    | (grind [State.kept, State.setArbBlock_kept, State.foldl_kept])
    | rfl

theorem State.kindEdge_kept (s : State) (b : BitVec 3) (reqs : List (Nat × ArbReq)) :
    (State.kindEdge s b reqs).kept = s.kept := by
  unfold State.kindEdge; (try dsimp only); (repeat' split) <;> first
    | with_reducible rfl
    | (apply State.kept_congr <;> with_reducible rfl)
    | (simp only [State.slotEdge_kept]; done)
    | (simp only [State.slotEdge_kept]; first | with_reducible rfl | (apply State.kept_congr <;> with_reducible rfl))
    | (grind [State.kept, State.slotEdge_kept, State.foldl_kept])
    | rfl

theorem State.discardGrants_kept (s : State) :
    (State.discardGrants s).kept = s.kept := by
  unfold State.discardGrants; (try dsimp only); (repeat' split) <;> first
    | with_reducible rfl
    | (apply State.kept_congr <;> with_reducible rfl)
    | (grind [State.kept, State.foldl_kept])
    | rfl

/-! ### Brake -/

theorem State.brakeTrace_kept (s : State) (k : Nat) :
    (State.brakeTrace s k).kept = s.kept := by
  unfold State.brakeTrace; (try dsimp only); (repeat' split) <;> first
    | with_reducible rfl
    | (apply State.kept_congr <;> with_reducible rfl)
    | (simp only [State.trigger_kept, State.modTrace_kept]; done)
    | (simp only [State.trigger_kept, State.modTrace_kept]; first | with_reducible rfl | (apply State.kept_congr <;> with_reducible rfl))
    | (grind [State.kept, State.trigger_kept, State.modTrace_kept, State.foldl_kept])
    | rfl

theorem State.brake_kept (s : State) (source : Nat) :
    (State.brake s source).kept = s.kept := by
  unfold State.brake; (try dsimp only); (repeat' split) <;> first
    | with_reducible rfl
    | (apply State.kept_congr <;> with_reducible rfl)
    | (simp only [State.brakeTrace_kept, State.discardGrants_kept, State.raise_kept]; done)
    | (simp only [State.brakeTrace_kept, State.discardGrants_kept, State.raise_kept]; first | with_reducible rfl | (apply State.kept_congr <;> with_reducible rfl))
    | (grind [State.kept, State.brakeTrace_kept, State.discardGrants_kept, State.raise_kept, State.foldl_kept])
    | rfl

theorem State.triggerTrace_kept (s : State) (k : Nat) (source : Nat) (cell : Nat) (origin : Nat) (lt : BitVec 64) :
    (State.triggerTrace s k source cell origin lt).kept = s.kept := by
  unfold State.triggerTrace; (try dsimp only); (repeat' split) <;> first
    | with_reducible rfl
    | (apply State.kept_congr <;> with_reducible rfl)
    | (simp only [State.trigger_kept, State.brake_kept]; done)
    | (simp only [State.trigger_kept, State.brake_kept]; first | with_reducible rfl | (apply State.kept_congr <;> with_reducible rfl))
    | (grind [State.kept, State.trigger_kept, State.brake_kept, State.foldl_kept])
    | rfl

theorem State.setPwr_kept (s : State) (p : PwrState) :
    (State.setPwr s p).kept = s.kept := by
  unfold State.setPwr; (try dsimp only); (repeat' split) <;> first
    | with_reducible rfl
    | (apply State.kept_congr <;> with_reducible rfl)
    | (grind [State.kept, State.foldl_kept])
    | rfl

theorem State.blank_kept (s : State) :
    (State.blank s).kept = s.kept := by
  unfold State.blank; (try dsimp only); (repeat' split) <;> first
    | with_reducible rfl
    | (apply State.kept_congr <;> with_reducible rfl)
    | (grind [State.kept, State.foldl_kept])
    | rfl

theorem State.mainOff_kept (s : State) (off : OffCause) :
    (State.mainOff s off).kept = s.kept := by
  unfold State.mainOff; (try dsimp only); (repeat' split) <;> first
    | with_reducible rfl
    | (apply State.kept_congr <;> with_reducible rfl)
    | (simp only [State.blank_kept, State.setPwr_kept]; done)
    | (simp only [State.blank_kept, State.setPwr_kept]; first | with_reducible rfl | (apply State.kept_congr <;> with_reducible rfl))
    | (grind [State.kept, State.blank_kept, State.setPwr_kept, State.foldl_kept])
    | rfl

/-! ### CellPool -/

theorem State.buildSet_kept (s : State) (kind : StartKind) : (s.buildSet kind).kept = s.kept := by
  unfold State.buildSet; dsimp only
  apply State.kept_congr <;> with_reducible rfl

/-! ### HostIf -/

theorem State.modQueue_kept (s : State) (q : Nat) (f : HostQueue → HostQueue) :
    (State.modQueue s q f).kept = s.kept := by
  unfold State.modQueue; (try dsimp only); (repeat' split) <;> first
    | with_reducible rfl
    | (apply State.kept_congr <;> with_reducible rfl)
    | (grind [State.kept, State.foldl_kept])
    | rfl

theorem State.turnOnce_kept (s : State) :
    ∀ u, (State.turnOnce s) = some u → u.kept = s.kept := by
  intro t h; unfold State.turnOnce at h; grind [State.kept, State.modTask_kept, State.modQueue_kept]

theorem State.takeTurns_kept (s : State) : s.takeTurns.kept = s.kept := by
  unfold State.takeTurns; split
  · exact State.iterWhile_kept _ _ _ fun s t ht => State.turnOnce_kept _ _ ht
  · rfl

theorem State.settleIdle_kept (s : State) :
    (State.settleIdle s).kept = s.kept := by
  unfold State.settleIdle; (try dsimp only); (repeat' split) <;> first
    | with_reducible rfl
    | (apply State.kept_congr <;> with_reducible rfl)
    | (grind [State.kept, State.foldl_kept])
    | rfl

theorem State.ringBell_kept (s : State) (q : Nat) (index : BitVec 16) :
    (State.ringBell s q index).kept = s.kept := by
  unfold State.ringBell; (try dsimp only); (repeat' split) <;> first
    | with_reducible rfl
    | (apply State.kept_congr <;> with_reducible rfl)
    | (simp only [State.modQueue_kept, State.raise_kept]; done)
    | (simp only [State.modQueue_kept, State.raise_kept]; first | with_reducible rfl | (apply State.kept_congr <;> with_reducible rfl))
    | (grind [State.kept, State.modQueue_kept, State.raise_kept, State.foldl_kept])
    | rfl

theorem State.drainBells_kept (s : State) :
    (State.drainBells s).kept = s.kept := by
  unfold State.drainBells; (try dsimp only); (repeat' split) <;> first
    | with_reducible rfl
    | (apply State.kept_congr <;> with_reducible rfl)
    | (simp only [State.ringBell_kept]; done)
    | (simp only [State.ringBell_kept]; first | with_reducible rfl | (apply State.kept_congr <;> with_reducible rfl))
    | (grind [State.kept, State.ringBell_kept, State.foldl_kept])
    | rfl

theorem State.wakeDispatcher_kept (s : State) :
    (State.wakeDispatcher s).kept = s.kept := by
  unfold State.wakeDispatcher; (try dsimp only); (repeat' split) <;> first
    | with_reducible rfl
    | (apply State.kept_congr <;> with_reducible rfl)
    | (simp only [State.settleIdle_kept, State.takeTurns_kept, State.drainBells_kept]; done)
    | (simp only [State.settleIdle_kept, State.takeTurns_kept, State.drainBells_kept]; first | with_reducible rfl | (apply State.kept_congr <;> with_reducible rfl))
    | (grind [State.kept, State.settleIdle_kept, State.takeTurns_kept, State.drainBells_kept, State.foldl_kept])
    | rfl

theorem State.turnOver_kept (s : State) (f : Fetch) :
    (State.turnOver s f).kept = s.kept := by
  unfold State.turnOver; (try dsimp only); (repeat' split) <;> first
    | with_reducible rfl
    | (apply State.kept_congr <;> with_reducible rfl)
    | (grind [State.kept, State.foldl_kept])
    | rfl

theorem State.entryArrive_kept (s : State) :
    (State.entryArrive s).kept = s.kept := by
  unfold State.entryArrive; (try dsimp only); (repeat' split) <;> first
    | with_reducible rfl
    | (apply State.kept_congr <;> with_reducible rfl)
    | (simp only [State.turnOver_kept, State.enterTask_kept, State.modQueue_kept, State.undefinedIf_kept, State.settleIdle_kept, State.takeTurns_kept]; done)
    | (simp only [State.turnOver_kept, State.enterTask_kept, State.modQueue_kept, State.undefinedIf_kept, State.settleIdle_kept, State.takeTurns_kept]; first | with_reducible rfl | (apply State.kept_congr <;> with_reducible rfl))
    | (grind [State.kept, State.turnOver_kept, State.enterTask_kept, State.modQueue_kept, State.undefinedIf_kept, State.settleIdle_kept, State.takeTurns_kept, State.foldl_kept])
    | rfl

theorem State.voidFetches_kept (s : State) (q : Nat) :
    (State.voidFetches s q).kept = s.kept := by
  unfold State.voidFetches; (try dsimp only); (repeat' split) <;> first
    | with_reducible rfl
    | (apply State.kept_congr <;> with_reducible rfl)
    | (grind [State.kept, State.foldl_kept])
    | rfl

theorem State.haltQueue_kept (s : State) (q : Nat) (st : QState) (reason : Nat) (addr : Nat) :
    (State.haltQueue s q st reason addr).kept = s.kept := by
  unfold State.haltQueue; (try dsimp only); (repeat' split) <;> first
    | with_reducible rfl
    | (apply State.kept_congr <;> with_reducible rfl)
    | (simp only [State.modQueue_kept, State.voidFetches_kept, State.setCause_kept, State.raise_kept]; done)
    | (simp only [State.modQueue_kept, State.voidFetches_kept, State.setCause_kept, State.raise_kept]; first | with_reducible rfl | (apply State.kept_congr <;> with_reducible rfl))
    | (grind [State.kept, State.modQueue_kept, State.voidFetches_kept, State.setCause_kept, State.raise_kept, State.foldl_kept])
    | rfl

theorem State.fetchFailed_kept (s : State) (noAnswer : Bool) :
    (State.fetchFailed s noAnswer).kept = s.kept := by
  unfold State.fetchFailed; (try dsimp only); (repeat' split) <;> first
    | with_reducible rfl
    | (apply State.kept_congr <;> with_reducible rfl)
    | (simp only [State.turnOver_kept, State.haltQueue_kept, State.settleIdle_kept, State.takeTurns_kept]; done)
    | (simp only [State.turnOver_kept, State.haltQueue_kept, State.settleIdle_kept, State.takeTurns_kept]; first | with_reducible rfl | (apply State.kept_congr <;> with_reducible rfl))
    | (grind [State.kept, State.turnOver_kept, State.haltQueue_kept, State.settleIdle_kept, State.takeTurns_kept, State.foldl_kept])
    | rfl

theorem State.issueRecord_kept (s : State) (q : Nat) (r : CplRec) (held : Bool) :
    (State.issueRecord s q r held).kept = s.kept := by
  unfold State.issueRecord; (try dsimp only); (repeat' split) <;> first
    | with_reducible rfl
    | (apply State.kept_congr <;> with_reducible rfl)
    | (grind [State.kept, State.foldl_kept])
    | rfl

theorem State.holdRecord_kept (s : State) (q : Nat) (r : CplRec) :
    (State.holdRecord s q r).kept = s.kept := by
  unfold State.holdRecord; (try dsimp only); (repeat' split) <;> first
    | with_reducible rfl
    | (apply State.kept_congr <;> with_reducible rfl)
    | (simp only [State.modQueue_kept, State.raise_kept]; done)
    | (simp only [State.modQueue_kept, State.raise_kept]; first | with_reducible rfl | (apply State.kept_congr <;> with_reducible rfl))
    | (grind [State.kept, State.modQueue_kept, State.raise_kept, State.foldl_kept])
    | rfl

theorem State.drainRing_kept (s : State) (q : Nat) :
    (State.drainRing s q).kept = s.kept := by
  unfold State.drainRing; (try dsimp only); (repeat' split) <;> first
    | with_reducible rfl
    | (apply State.kept_congr <;> with_reducible rfl)
    | (simp only [State.issueRecord_kept, State.modQueue_kept]; done)
    | (simp only [State.issueRecord_kept, State.modQueue_kept]; first | with_reducible rfl | (apply State.kept_congr <;> with_reducible rfl))
    | (grind [State.kept, State.issueRecord_kept, State.modQueue_kept, State.foldl_kept])
    | rfl

theorem State.writeRecord_kept (s : State) (q : Nat) :
    (State.writeRecord s q).kept = s.kept := by
  unfold State.writeRecord; (try dsimp only); (repeat' split) <;> first
    | with_reducible rfl
    | (apply State.kept_congr <;> with_reducible rfl)
    | (simp only [State.drainRing_kept, State.holdRecord_kept, State.issueRecord_kept]; done)
    | (simp only [State.drainRing_kept, State.holdRecord_kept, State.issueRecord_kept]; first | with_reducible rfl | (apply State.kept_congr <;> with_reducible rfl))
    | (grind [State.kept, State.drainRing_kept, State.holdRecord_kept, State.issueRecord_kept, State.foldl_kept])
    | rfl

theorem State.recordLanded_kept (s : State) (w : RecWrite) :
    (State.recordLanded s w).kept = s.kept := by
  unfold State.recordLanded; (try dsimp only); (repeat' split) <;> first
    | with_reducible rfl
    | (apply State.kept_congr <;> with_reducible rfl)
    | (simp only [State.modQueue_kept, State.raise_kept, State.sendVector_kept, State.drainRing_kept]; done)
    | (simp only [State.modQueue_kept, State.raise_kept, State.sendVector_kept, State.drainRing_kept]; first | with_reducible rfl | (apply State.kept_congr <;> with_reducible rfl))
    | (grind [State.kept, State.modQueue_kept, State.raise_kept, State.sendVector_kept, State.drainRing_kept, State.foldl_kept])
    | rfl

theorem State.eventLanded_kept (s : State) (w : RecWrite) :
    (State.eventLanded s w).kept = s.kept := by
  unfold State.eventLanded; (try dsimp only); (repeat' split) <;> first
    | with_reducible rfl
    | (apply State.kept_congr <;> with_reducible rfl)
    | (simp only [State.setCause_kept, State.issueEvent_kept]; done)
    | (simp only [State.setCause_kept, State.issueEvent_kept]; first | with_reducible rfl | (apply State.kept_congr <;> with_reducible rfl))
    | (grind [State.kept, State.setCause_kept, State.issueEvent_kept, State.foldl_kept])
    | rfl

theorem State.writeCompleted_kept (s : State) (q : Nat) :
    (State.writeCompleted s q).kept = s.kept := by
  unfold State.writeCompleted; (try dsimp only); (repeat' split) <;> first
    | with_reducible rfl
    | (apply State.kept_congr <;> with_reducible rfl)
    | (simp only [State.eventLanded_kept, State.recordLanded_kept]; done)
    | (simp only [State.eventLanded_kept, State.recordLanded_kept]; first | with_reducible rfl | (apply State.kept_congr <;> with_reducible rfl))
    | (grind [State.kept, State.eventLanded_kept, State.recordLanded_kept, State.foldl_kept])
    | rfl

theorem State.recordFailed_kept (s : State) (q : Nat) (noAnswer : Bool) :
    (State.recordFailed s q noAnswer).kept = s.kept := by
  unfold State.recordFailed; (try dsimp only); (repeat' split) <;> first
    | with_reducible rfl
    | (apply State.kept_congr <;> with_reducible rfl)
    | (simp only [State.modQueue_kept, State.haltQueue_kept]; done)
    | (simp only [State.modQueue_kept, State.haltQueue_kept]; first | with_reducible rfl | (apply State.kept_congr <;> with_reducible rfl))
    | (grind [State.kept, State.modQueue_kept, State.haltQueue_kept, State.foldl_kept])
    | rfl

theorem State.eventFailed_kept (s : State) (noAnswer : Bool) :
    (State.eventFailed s noAnswer).kept = s.kept := by
  unfold State.eventFailed; (try dsimp only); (repeat' split) <;> first
    | with_reducible rfl
    | (apply State.kept_congr <;> with_reducible rfl)
    | (simp only [State.issueEvent_kept]; done)
    | (simp only [State.issueEvent_kept]; first | with_reducible rfl | (apply State.kept_congr <;> with_reducible rfl))
    | (grind [State.kept, State.issueEvent_kept, State.foldl_kept])
    | rfl

theorem State.coalesceTimeout_kept (s : State) (q : Nat) :
    (State.coalesceTimeout s q).kept = s.kept := by
  unfold State.coalesceTimeout; (try dsimp only); (repeat' split) <;> first
    | with_reducible rfl
    | (apply State.kept_congr <;> with_reducible rfl)
    | (simp only [State.sendVector_kept, State.modQueue_kept]; done)
    | (simp only [State.sendVector_kept, State.modQueue_kept]; first | with_reducible rfl | (apply State.kept_congr <;> with_reducible rfl))
    | (grind [State.kept, State.sendVector_kept, State.modQueue_kept, State.foldl_kept])
    | rfl

theorem State.doorbell_kept (s : State) (q : Nat) (index : BitVec 16) :
    (State.doorbell s q index).kept = s.kept := by
  unfold State.doorbell; (try dsimp only); (repeat' split) <;> first
    | with_reducible rfl
    | (apply State.kept_congr <;> with_reducible rfl)
    | (simp only [State.modQueue_kept]; done)
    | (simp only [State.modQueue_kept]; first | with_reducible rfl | (apply State.kept_congr <;> with_reducible rfl))
    | (grind [State.kept, State.modQueue_kept, State.foldl_kept])
    | rfl

theorem State.cqHeadWrite_kept (s : State) (q : Nat) (index : BitVec 16) :
    (State.cqHeadWrite s q index).kept = s.kept := by
  unfold State.cqHeadWrite; (try dsimp only); (repeat' split) <;> first
    | with_reducible rfl
    | (apply State.kept_congr <;> with_reducible rfl)
    | (simp only [State.drainRing_kept, State.modQueue_kept]; done)
    | (simp only [State.drainRing_kept, State.modQueue_kept]; first | with_reducible rfl | (apply State.kept_congr <;> with_reducible rfl))
    | (grind [State.kept, State.drainRing_kept, State.modQueue_kept, State.foldl_kept])
    | rfl

theorem State.evHeadWrite_kept (s : State) (index : BitVec 16) :
    (State.evHeadWrite s index).kept = s.kept := by
  unfold State.evHeadWrite; (try dsimp only); (repeat' split) <;> first
    | with_reducible rfl
    | (apply State.kept_congr <;> with_reducible rfl)
    | (simp only [State.issueEvent_kept]; done)
    | (simp only [State.issueEvent_kept]; first | with_reducible rfl | (apply State.kept_congr <;> with_reducible rfl))
    | (grind [State.kept, State.issueEvent_kept, State.foldl_kept])
    | rfl

theorem State.renewLease_kept (s : State) (number : BitVec 32) :
    (State.renewLease s number).kept = s.kept := by
  unfold State.renewLease; (try dsimp only); (repeat' split) <;> first
    | with_reducible rfl
    | (apply State.kept_congr <;> with_reducible rfl)
    | (grind [State.kept, State.foldl_kept])
    | rfl

theorem State.dropGrants_kept (s : State) :
    (State.dropGrants s).kept = s.kept := by
  unfold State.dropGrants; (try dsimp only); (repeat' split) <;> first
    | with_reducible rfl
    | (apply State.kept_congr <;> with_reducible rfl)
    | (simp only [State.loseTensors_kept]; done)
    | (simp only [State.loseTensors_kept]; first | with_reducible rfl | (apply State.kept_congr <;> with_reducible rfl))
    | (grind [State.kept, State.loseTensors_kept, State.foldl_kept])
    | rfl

theorem State.detach_kept (s : State) (cause : Nat) :
    (State.detach s cause).kept = s.kept := by
  unfold State.detach; (try dsimp only); (repeat' split) <;> first
    | with_reducible rfl
    | (apply State.kept_congr <;> with_reducible rfl)
    | (simp only [State.freshNat_kept, State.haltQueue_kept, State.setCause_kept, State.dropGrants_kept, State.raise_kept]; done)
    | (simp only [State.freshNat_kept, State.haltQueue_kept, State.setCause_kept, State.dropGrants_kept, State.raise_kept]; first | with_reducible rfl | (apply State.kept_congr <;> with_reducible rfl))
    | (grind [State.kept, State.freshNat_kept, State.haltQueue_kept, State.setCause_kept, State.dropGrants_kept, State.raise_kept, State.foldl_kept])
    | rfl

theorem State.lateDetach_kept (s : State) :
    (State.lateDetach s).kept = s.kept := by
  unfold State.lateDetach; (try dsimp only); (repeat' split) <;> first
    | with_reducible rfl
    | (apply State.kept_congr <;> with_reducible rfl)
    | (simp only [State.detach_kept]; done)
    | (simp only [State.detach_kept]; first | with_reducible rfl | (apply State.kept_congr <;> with_reducible rfl))
    | (grind [State.kept, State.detach_kept, State.foldl_kept])
    | rfl

theorem State.leaseExpiry_kept (s : State) :
    (State.leaseExpiry s).kept = s.kept := by
  unfold State.leaseExpiry; (try dsimp only); (repeat' split) <;> first
    | with_reducible rfl
    | (apply State.kept_congr <;> with_reducible rfl)
    | (simp only [State.lateDetach_kept]; done)
    | (simp only [State.lateDetach_kept]; first | with_reducible rfl | (apply State.kept_congr <;> with_reducible rfl))
    | (grind [State.kept, State.lateDetach_kept, State.foldl_kept])
    | rfl

theorem State.linkChange_kept (s : State) (up : Bool) (width : Nat) (rate : Nat) :
    (State.linkChange s up width rate).kept = s.kept := by
  unfold State.linkChange; (try dsimp only); (repeat' split) <;> first
    | with_reducible rfl
    | (apply State.kept_congr <;> with_reducible rfl)
    | (simp only [State.raise_kept]; done)
    | (simp only [State.raise_kept]; first | with_reducible rfl | (apply State.kept_congr <;> with_reducible rfl))
    | (grind [State.kept, State.raise_kept, State.foldl_kept])
    | rfl

theorem State.perstAssert_kept (s : State) :
    (State.perstAssert s).kept = s.kept := by
  unfold State.perstAssert; (try dsimp only); (repeat' split) <;> first
    | with_reducible rfl
    | (apply State.kept_congr <;> with_reducible rfl)
    | (simp only [State.linkChange_kept]; done)
    | (simp only [State.linkChange_kept]; first | with_reducible rfl | (apply State.kept_congr <;> with_reducible rfl))
    | (grind [State.kept, State.linkChange_kept, State.foldl_kept])
    | rfl

theorem State.sqDb_kept (s : State) (q : Nat) (index : BitVec 16) :
    (State.sqDb s q index).kept = s.kept := by
  unfold State.sqDb; (try dsimp only); (repeat' split) <;> first
    | with_reducible rfl
    | (apply State.kept_congr <;> with_reducible rfl)
    | (simp only [State.doorbell_kept, State.undefinedIf_kept]; done)
    | (simp only [State.doorbell_kept, State.undefinedIf_kept]; first | with_reducible rfl | (apply State.kept_congr <;> with_reducible rfl))
    | (grind [State.kept, State.doorbell_kept, State.undefinedIf_kept, State.foldl_kept])
    | rfl

theorem State.cqHead_kept (s : State) (q : Nat) (index : BitVec 16) :
    (State.cqHead s q index).kept = s.kept := by
  unfold State.cqHead; (try dsimp only); (repeat' split) <;> first
    | with_reducible rfl
    | (apply State.kept_congr <;> with_reducible rfl)
    | (simp only [State.cqHeadWrite_kept, State.undefinedIf_kept]; done)
    | (simp only [State.cqHeadWrite_kept, State.undefinedIf_kept]; first | with_reducible rfl | (apply State.kept_congr <;> with_reducible rfl))
    | (grind [State.kept, State.cqHeadWrite_kept, State.undefinedIf_kept, State.foldl_kept])
    | rfl

theorem State.evHead_kept (s : State) (index : BitVec 16) :
    (State.evHead s index).kept = s.kept := by
  unfold State.evHead; (try dsimp only); (repeat' split) <;> first
    | with_reducible rfl
    | (apply State.kept_congr <;> with_reducible rfl)
    | (simp only [State.evHeadWrite_kept, State.undefinedIf_kept]; done)
    | (simp only [State.evHeadWrite_kept, State.undefinedIf_kept]; first | with_reducible rfl | (apply State.kept_congr <;> with_reducible rfl))
    | (grind [State.kept, State.evHeadWrite_kept, State.undefinedIf_kept, State.foldl_kept])
    | rfl

theorem State.learn_kept (s : State) (tag : BitVec 16) :
    (State.learn s tag).kept = s.kept := by
  unfold State.learn; (try dsimp only); (repeat' split) <;> first
    | with_reducible rfl
    | (apply State.kept_congr <;> with_reducible rfl)
    | (simp only [State.freshNat_kept]; done)
    | (simp only [State.freshNat_kept]; first | with_reducible rfl | (apply State.kept_congr <;> with_reducible rfl))
    | (grind [State.kept, State.freshNat_kept, State.foldl_kept])
    | rfl

/-! ### Mailbox -/

theorem State.mbUndef_kept (s : State) :
    (State.mbUndef s).2.2.kept = s.kept := by
  unfold State.mbUndef; (try dsimp only); (repeat' split) <;> first
    | with_reducible rfl
    | (apply State.kept_congr <;> with_reducible rfl)
    | (simp only [State.freshNat_kept, State.undefinedAll_kept, State.skipFree_kept]; done)
    | (simp only [State.freshNat_kept, State.undefinedAll_kept, State.skipFree_kept]; first | with_reducible rfl | (apply State.kept_congr <;> with_reducible rfl))
    | (grind [State.kept, State.freshNat_kept, State.undefinedAll_kept, State.skipFree_kept, State.foldl_kept])
    | rfl

theorem State.mbAnswer_kept (s : State) (status : Nat) (payload : List Byte) :
    (State.mbAnswer s status payload).kept = s.kept := by
  unfold State.mbAnswer; (try dsimp only); (repeat' split) <;> first
    | with_reducible rfl
    | (apply State.kept_congr <;> with_reducible rfl)
    | (simp only [State.setCause_kept]; done)
    | (simp only [State.setCause_kept]; first | with_reducible rfl | (apply State.kept_congr <;> with_reducible rfl))
    | (grind [State.kept, State.setCause_kept, State.foldl_kept])
    | rfl

theorem mbRow_kept (opc len : Nat) (s : State) (f : State → MbRes) (h : ∀ v, (f v).Keeps v) : ∀ t, mbRow opc len s f = .next t → t.kept = s.kept := by
  intro t ht; unfold mbRow at ht; dsimp only at ht
  split at ht
  · cases ht; rfl
  · split at ht
    · cases ht; exact State.mbAnswer_kept _ _ _
    · have k := h (s.undefinedIf (Mem.readNat 0 s.hif.mbReq 1 1 != 0 || Mem.readNat 0 s.hif.mbReq 2 2 != len))
      split at ht
      · rename_i e; rw [e] at k; cases ht
        rw [State.mbAnswer_kept]; exact Eq.trans k (State.undefinedIf_kept _ _)
      · cases ht
        rw [State.mbAnswer_kept, State.mbUndef_kept]
      · rename_i e; rw [e] at k; cases ht
        exact Eq.trans k (State.undefinedIf_kept _ _)

theorem State.deleteQueue_kept (s : State) (q : Nat) :
    (State.deleteQueue s q).2.2.kept = s.kept := by
  unfold State.deleteQueue; (try dsimp only); (repeat' split) <;> first
    | with_reducible rfl
    | (apply State.kept_congr <;> with_reducible rfl)
    | (simp only [State.killTasks_kept, State.voidFetches_kept, State.modQueue_kept]; done)
    | (simp only [State.killTasks_kept, State.voidFetches_kept, State.modQueue_kept]; first | with_reducible rfl | (apply State.kept_congr <;> with_reducible rfl))
    | (grind [State.kept, State.killTasks_kept, State.voidFetches_kept, State.modQueue_kept, State.foldl_kept])
    | rfl

theorem State.freeAll_kept (s : State) :
    (State.freeAll s).kept = s.kept := by
  unfold State.freeAll; (try dsimp only); (repeat' split) <;> first
    | with_reducible rfl
    | (apply State.kept_congr <;> with_reducible rfl)
    | (simp only [State.commitPmap_kept]; done)
    | (simp only [State.commitPmap_kept]; first | with_reducible rfl | (apply State.kept_congr <;> with_reducible rfl))
    | (grind [State.kept, State.commitPmap_kept, State.foldl_kept])
    | rfl

theorem State.discardHost_kept (s : State) : s.discardHost.kept = s.kept := by
  unfold State.discardHost
  generalize List.range 64 = l
  dsimp only
  rw [State.freeAll_kept, State.killTasks_kept]
  exact State.foldl_kept _ _ _ fun s a => State.deleteQueue_kept _ _

theorem State.attach_kept (s : State) (lease : BitVec 32) : (s.attach lease).Keeps s := by
  have e : ∀ (x : State) (h : HifState), State.kept { x with hif := h } = x.kept := fun _ _ => rfl
  unfold State.attach; dsimp only
  split
  · rfl
  split
  · rfl
  split
  · exact trivial
  split
  · rfl
  show State.kept _ = _
  rw [State.raise_kept, State.issueEvent_kept, State.sendPending_kept, e]
  split
  · rw [State.discardHost_kept, State.lateDetach_kept, State.undefinedIf_kept]
  · rw [State.lateDetach_kept, State.undefinedIf_kept]

theorem State.flr_kept (s : State) : s.flr.kept = s.kept := by
  unfold State.flr; dsimp only
  rw [State.discardHost_kept]; split
  · rw [State.detach_kept]; rfl
  · rfl

theorem State.queueCreate_kept (s : State) :
    MbRes.Keeps (State.queueCreate s) s := by
  unfold State.queueCreate; (try dsimp only); (repeat' split) <;> first
    | exact trivial
    | (show State.kept _ = _; with_reducible rfl)
    | (show State.kept _ = _; apply State.kept_congr <;> with_reducible rfl)
    | (show State.kept _ = _; simp only [State.modQueue_kept, State.undefinedIf_kept]; done)
    | (show State.kept _ = _; simp only [State.modQueue_kept, State.undefinedIf_kept]; first | with_reducible rfl | (apply State.kept_congr <;> with_reducible rfl))
    | (show State.kept _ = _; grind [State.kept, State.modQueue_kept, State.undefinedIf_kept, State.foldl_kept])

theorem State.queueDelete_kept (s : State) :
    MbRes.Keeps (State.queueDelete s) s := by
  unfold State.queueDelete; (try dsimp only); (repeat' split) <;> first
    | exact trivial
    | (show State.kept _ = _; with_reducible rfl)
    | (show State.kept _ = _; apply State.kept_congr <;> with_reducible rfl)
    | (show State.kept _ = _; simp only [State.deleteQueue_kept]; done)
    | (show State.kept _ = _; simp only [State.deleteQueue_kept]; first | with_reducible rfl | (apply State.kept_congr <;> with_reducible rfl))
    | (show State.kept _ = _; grind [State.kept, State.deleteQueue_kept, State.foldl_kept])

theorem State.queueRebind_kept (s : State) :
    MbRes.Keeps (State.queueRebind s) s := by
  unfold State.queueRebind; (try dsimp only); (repeat' split) <;> first
    | exact trivial
    | (show State.kept _ = _; with_reducible rfl)
    | (show State.kept _ = _; apply State.kept_congr <;> with_reducible rfl)
    | (show State.kept _ = _; simp only [State.modQueue_kept, State.undefinedIf_kept]; done)
    | (show State.kept _ = _; simp only [State.modQueue_kept, State.undefinedIf_kept]; first | with_reducible rfl | (apply State.kept_congr <;> with_reducible rfl))
    | (show State.kept _ = _; grind [State.kept, State.modQueue_kept, State.undefinedIf_kept, State.foldl_kept])

theorem State.resume_kept (s : State) :
    MbRes.Keeps (State.resume s) s := by
  unfold State.resume; (try dsimp only); (repeat' split) <;> first
    | exact trivial
    | (show State.kept _ = _; with_reducible rfl)
    | (show State.kept _ = _; apply State.kept_congr <;> with_reducible rfl)
    | (show State.kept _ = _; simp only [State.modQueue_kept, State.takeTurns_kept, State.drainRing_kept]; done)
    | (show State.kept _ = _; simp only [State.modQueue_kept, State.takeTurns_kept, State.drainRing_kept]; first | with_reducible rfl | (apply State.kept_congr <;> with_reducible rfl))
    | (show State.kept _ = _; grind [State.kept, State.modQueue_kept, State.takeTurns_kept, State.drainRing_kept, State.foldl_kept])

theorem State.abortTask_kept (s : State) (id : Nat) :
    (State.abortTask s id).kept = s.kept := by
  unfold State.abortTask; (try dsimp only); (repeat' split) <;> first
    | with_reducible rfl
    | (apply State.kept_congr <;> with_reducible rfl)
    | (simp only [State.endTask_kept, State.endCause_kept]; done)
    | (simp only [State.endTask_kept, State.endCause_kept]; first | with_reducible rfl | (apply State.kept_congr <;> with_reducible rfl))
    | (grind [State.kept, State.endTask_kept, State.endCause_kept, State.foldl_kept])
    | rfl

theorem State.taskAbort_kept (s : State) : s.taskAbort.Keeps s := by
  have f : ∀ (l : List Nat) (x : State), (l.foldl State.abortTask x).kept = x.kept := fun l x => State.foldl_kept _ l x fun s a => State.abortTask_kept s a
  unfold State.taskAbort; dsimp only
  split
  · exact trivial
  · split
    · split <;> rfl
    · show State.kept _ = _
      rw [f, State.abortTask_kept]

theorem State.modTensor_kept (s : State) (h : Nat) (f : Tensor → Tensor) :
    (State.modTensor s h f).kept = s.kept := by
  unfold State.modTensor; (try dsimp only); (repeat' split) <;> first
    | with_reducible rfl
    | (apply State.kept_congr <;> with_reducible rfl)
    | (grind [State.kept, State.foldl_kept])
    | rfl

theorem State.tensorCreate_kept (s : State) (handle : BitVec 32) (scope : BitVec 2) (place : Option Spot) :
    MbRes.Keeps (State.tensorCreate s handle scope place) s := by
  unfold State.tensorCreate; (try dsimp only); (repeat' split) <;> first
    | exact trivial
    | (show State.kept _ = _; with_reducible rfl)
    | (show State.kept _ = _; apply State.kept_congr <;> with_reducible rfl)
    | (show State.kept _ = _; simp only [State.undefinedIf_kept]; done)
    | (show State.kept _ = _; simp only [State.undefinedIf_kept]; first | with_reducible rfl | (apply State.kept_congr <;> with_reducible rfl))
    | (show State.kept _ = _; grind [State.kept, State.undefinedIf_kept, State.foldl_kept])

theorem State.tensorFree_kept (s : State) :
    MbRes.Keeps (State.tensorFree s) s := by
  unfold State.tensorFree; (try dsimp only); (repeat' split) <;> first
    | exact trivial
    | (show State.kept _ = _; with_reducible rfl)
    | (show State.kept _ = _; apply State.kept_congr <;> with_reducible rfl)
    | (show State.kept _ = _; grind [State.kept, State.foldl_kept])

theorem State.relocate_kept (s : State) (t : Tensor) (loc : TLoc) :
    (State.relocate s t loc).kept = s.kept := by
  unfold State.relocate; (try dsimp only); (repeat' split) <;> first
    | with_reducible rfl
    | (apply State.kept_congr <;> with_reducible rfl)
    | (simp only [State.copyTensor_kept, State.commitPmap_kept]; done)
    | (simp only [State.copyTensor_kept, State.commitPmap_kept]; first | with_reducible rfl | (apply State.kept_congr <;> with_reducible rfl))
    | (grind [State.kept, State.copyTensor_kept, State.commitPmap_kept, State.foldl_kept])
    | rfl

theorem State.tensorPin_kept (s : State) (place : Option Spot) :
    MbRes.Keeps (State.tensorPin s place) s := by
  unfold State.tensorPin; (try dsimp only); (repeat' split) <;> first
    | exact trivial
    | (show State.kept _ = _; with_reducible rfl)
    | (show State.kept _ = _; apply State.kept_congr <;> with_reducible rfl)
    | (show State.kept _ = _; simp only [State.modTensor_kept, State.copyWaits_kept, State.relocate_kept]; done)
    | (show State.kept _ = _; simp only [State.modTensor_kept, State.copyWaits_kept, State.relocate_kept]; first | with_reducible rfl | (apply State.kept_congr <;> with_reducible rfl))
    | (show State.kept _ = _; grind [State.kept, State.modTensor_kept, State.copyWaits_kept, State.relocate_kept, State.foldl_kept])

theorem State.tensorUnpin_kept (s : State) :
    MbRes.Keeps (State.tensorUnpin s) s := by
  unfold State.tensorUnpin; (try dsimp only); (repeat' split) <;> first
    | exact trivial
    | (show State.kept _ = _; with_reducible rfl)
    | (show State.kept _ = _; apply State.kept_congr <;> with_reducible rfl)
    | (show State.kept _ = _; simp only [State.modTensor_kept]; done)
    | (show State.kept _ = _; simp only [State.modTensor_kept]; first | with_reducible rfl | (apply State.kept_congr <;> with_reducible rfl))
    | (show State.kept _ = _; grind [State.kept, State.modTensor_kept, State.foldl_kept])

theorem State.tensorQuery_kept (s : State) :
    MbRes.Keeps (State.tensorQuery s) s := by
  unfold State.tensorQuery; (try dsimp only); (repeat' split) <;> first
    | exact trivial
    | (show State.kept _ = _; with_reducible rfl)
    | (show State.kept _ = _; apply State.kept_congr <;> with_reducible rfl)
    | (show State.kept _ = _; grind [State.kept, State.foldl_kept])

theorem State.hostGrant_kept (s : State) (id : BitVec 32) :
    MbRes.Keeps (State.hostGrant s id) s := by
  unfold State.hostGrant; (try dsimp only); (repeat' split) <;> first
    | exact trivial
    | (show State.kept _ = _; with_reducible rfl)
    | (show State.kept _ = _; apply State.kept_congr <;> with_reducible rfl)
    | (show State.kept _ = _; simp only [State.undefinedIf_kept]; done)
    | (show State.kept _ = _; simp only [State.undefinedIf_kept]; first | with_reducible rfl | (apply State.kept_congr <;> with_reducible rfl))
    | (show State.kept _ = _; grind [State.kept, State.undefinedIf_kept, State.foldl_kept])

theorem State.hostRevoke_kept (s : State) (mv : List (BitVec 32 × Spot)) : (s.hostRevoke mv).Keeps s := by
  have f : ∀ (l : List (BitVec 32 × Spot)) (g : Nat × State → BitVec 32 × Spot → Nat × State) (x : Nat × State),
      (∀ a b, (g a b).2.kept = a.2.kept) → (l.foldl g x).2.kept = x.2.kept := by
    intro l g x hg
    induction l generalizing x with
    | nil => rfl
    | cons a l ih => rw [List.foldl_cons, ih, hg]
  unfold State.hostRevoke; dsimp only
  split
  · rfl
  · split
    · rename_i e
      obtain ⟨m, _, hm⟩ := List.exists_of_findSome?_eq_some e
      rw [Option.bind_eq_some_iff] at hm
      obtain ⟨t, _, ht⟩ := hm
      split at ht
      · exact State.copyWaits_kept _ _ _ _ ht
      · cases ht
    · show State.kept (State.loseTensors _ _) = _
      rw [State.loseTensors_kept]; refine f _ _ _ fun a b => ?_
      (repeat' split) <;> first | rfl | exact State.relocate_kept _ _ _

theorem State.configSet_kept (s : State) :
    MbRes.Keeps (State.configSet s) s := by
  unfold State.configSet; (try dsimp only); (repeat' split) <;> first
    | exact trivial
    | (show State.kept _ = _; with_reducible rfl)
    | (show State.kept _ = _; apply State.kept_congr <;> with_reducible rfl)
    | (show State.kept _ = _; grind [State.kept, State.foldl_kept])

theorem State.eventRingSet_kept (s : State) : s.eventRingSet.Keeps s := by
  have e : ∀ (x : State) (h : HifState), State.kept { x with hif := h } = x.kept := fun _ _ => rfl
  have k : ∀ (n : Nat) (t : State), t.kept = s.kept → (MbRes.done n [] t).Keeps s := fun _ _ h => h
  unfold State.eventRingSet
  extract_lets h base slots sev h1 s1
  clear_value base slots sev
  split
  · exact k _ _ rfl
  split
  · exact (rfl : s.kept = s.kept)
  split
  · exact k _ _ (e _ _)
  split
  · exact trivial
  · exact k _ _ ((State.issueEvent_kept s1).trans (e s h1))

/-! ### Recovery -/

theorem State.commitGroups_kept (s : State) :
    (State.commitGroups s).kept = s.kept := by
  unfold State.commitGroups; (try dsimp only); (repeat' split) <;> first
    | with_reducible rfl
    | (apply State.kept_congr <;> with_reducible rfl)
    | (simp only [State.raise_kept]; done)
    | (simp only [State.raise_kept]; first | with_reducible rfl | (apply State.kept_congr <;> with_reducible rfl))
    | (grind [State.kept, State.raise_kept, State.foldl_kept])
    | rfl

theorem State.floodHold_kept (s : State) (m : HoldMsg) (except : Nat) :
    (State.floodHold s m except).kept = s.kept := by
  unfold State.floodHold; (try dsimp only); (repeat' split) <;> first
    | with_reducible rfl
    | (apply State.kept_congr <;> with_reducible rfl)
    | (simp only [State.reply_kept]; done)
    | (simp only [State.reply_kept]; first | with_reducible rfl | (apply State.kept_congr <;> with_reducible rfl))
    | (grind [State.kept, State.reply_kept, State.foldl_kept])
    | rfl

theorem State.noteKey_kept (s : State) (m : HoldMsg) :
    (State.noteKey s m).kept = s.kept := by
  unfold State.noteKey; (try dsimp only); (repeat' split) <;> first
    | with_reducible rfl
    | (apply State.kept_congr <;> with_reducible rfl)
    | (grind [State.kept, State.foldl_kept])
    | rfl

theorem State.holdOps_kept (s : State) :
    (State.holdOps s).kept = s.kept := by
  unfold State.holdOps; (try dsimp only); (repeat' split) <;> first
    | with_reducible rfl
    | (apply State.kept_congr <;> with_reducible rfl)
    | (simp only [State.endPart_kept]; done)
    | (simp only [State.endPart_kept]; first | with_reducible rfl | (apply State.kept_congr <;> with_reducible rfl))
    | (grind [State.kept, State.endPart_kept, State.foldl_kept])
    | rfl

theorem State.holdTasks_kept (s : State) :
    (State.holdTasks s).kept = s.kept := by
  unfold State.holdTasks; (try dsimp only); (repeat' split) <;> first
    | with_reducible rfl
    | (apply State.kept_congr <;> with_reducible rfl)
    | (simp only [State.endCause_kept]; done)
    | (simp only [State.endCause_kept]; first | with_reducible rfl | (apply State.kept_congr <;> with_reducible rfl))
    | (grind [State.kept, State.endCause_kept, State.foldl_kept])
    | rfl

theorem State.enterHolding_kept (s : State) (cause : Nat) (failed : Nat) (lt : Nat) :
    (State.enterHolding s cause failed lt).kept = s.kept := by
  unfold State.enterHolding; (try dsimp only); (repeat' split) <;> first
    | with_reducible rfl
    | (apply State.kept_congr <;> with_reducible rfl)
    | (simp only [State.holdTasks_kept, State.holdOps_kept]; done)
    | (simp only [State.holdTasks_kept, State.holdOps_kept]; first | with_reducible rfl | (apply State.kept_congr <;> with_reducible rfl))
    | (grind [State.kept, State.holdTasks_kept, State.holdOps_kept, State.foldl_kept])
    | rfl

theorem State.hearFailed_kept (s : State) (failed : Nat) :
    (State.hearFailed s failed).kept = s.kept := by
  unfold State.hearFailed; (try dsimp only); (repeat' split) <;> first
    | with_reducible rfl
    | (apply State.kept_congr <;> with_reducible rfl)
    | (grind [State.kept, State.foldl_kept])
    | rfl

theorem State.actOnHold_kept (s : State) (cause : Nat) (failed : Nat) (lt : Nat) :
    (State.actOnHold s cause failed lt).kept = s.kept := by
  unfold State.actOnHold; (try dsimp only); (repeat' split) <;> first
    | with_reducible rfl
    | (apply State.kept_congr <;> with_reducible rfl)
    | (simp only [State.enterHolding_kept, State.hearFailed_kept]; done)
    | (simp only [State.enterHolding_kept, State.hearFailed_kept]; first | with_reducible rfl | (apply State.kept_congr <;> with_reducible rfl))
    | (grind [State.kept, State.enterHolding_kept, State.hearFailed_kept, State.foldl_kept])
    | rfl

theorem State.takeHold_kept (s : State) (m : HoldMsg) :
    (State.takeHold s m).kept = s.kept := by
  unfold State.takeHold; (try dsimp only); (repeat' split) <;> first
    | with_reducible rfl
    | (apply State.kept_congr <;> with_reducible rfl)
    | (simp only [State.raise_kept, State.actOnHold_kept]; done)
    | (simp only [State.raise_kept, State.actOnHold_kept]; first | with_reducible rfl | (apply State.kept_congr <;> with_reducible rfl))
    | (grind [State.kept, State.raise_kept, State.actOnHold_kept, State.foldl_kept])
    | rfl

theorem State.deferredHolds_kept (s : State) :
    (State.deferredHolds s).kept = s.kept := by
  unfold State.deferredHolds; (try dsimp only); (repeat' split) <;> first
    | with_reducible rfl
    | (apply State.kept_congr <;> with_reducible rfl)
    | (simp only [State.actOnHold_kept]; done)
    | (simp only [State.actOnHold_kept]; first | with_reducible rfl | (apply State.kept_congr <;> with_reducible rfl))
    | (grind [State.kept, State.actOnHold_kept, State.foldl_kept])
    | rfl

theorem State.originateHold_kept (s : State) (cause : Nat) (failed : Nat) (fport : Nat) :
    (State.originateHold s cause failed fport).kept = s.kept := by
  unfold State.originateHold; (try dsimp only); (repeat' split) <;> first
    | with_reducible rfl
    | (apply State.kept_congr <;> with_reducible rfl)
    | (simp only [State.takeHold_kept, State.floodHold_kept, State.noteKey_kept]; done)
    | (simp only [State.takeHold_kept, State.floodHold_kept, State.noteKey_kept]; first | with_reducible rfl | (apply State.kept_congr <;> with_reducible rfl))
    | (grind [State.kept, State.takeHold_kept, State.floodHold_kept, State.noteKey_kept, State.foldl_kept])
    | rfl

theorem State.colPaths_kept (s : State) :
    (State.colPaths s).kept = s.kept := by
  unfold State.colPaths; (try dsimp only); (repeat' split) <;> first
    | with_reducible rfl
    | (apply State.kept_congr <;> with_reducible rfl)
    | (simp only [State.originateHold_kept, State.admitAll_kept, State.endOp_kept]; done)
    | (simp only [State.originateHold_kept, State.admitAll_kept, State.endOp_kept]; first | with_reducible rfl | (apply State.kept_congr <;> with_reducible rfl))
    | (grind [State.kept, State.originateHold_kept, State.admitAll_kept, State.endOp_kept, State.foldl_kept])
    | rfl

theorem State.ownFault_kept (s : State) :
    (State.ownFault s).kept = s.kept := by
  unfold State.ownFault; (try dsimp only); (repeat' split) <;> first
    | with_reducible rfl
    | (apply State.kept_congr <;> with_reducible rfl)
    | (simp only [State.originateHold_kept]; done)
    | (simp only [State.originateHold_kept]; first | with_reducible rfl | (apply State.kept_congr <;> with_reducible rfl))
    | (grind [State.kept, State.originateHold_kept, State.foldl_kept])
    | rfl

theorem State.sendRec_kept (s : State) (kind : Nat) (dst : Nat) (epoch : Nat) (words : List Nat) :
    (State.sendRec s kind dst epoch words).kept = s.kept := by
  unfold State.sendRec; (try dsimp only); (repeat' split) <;> first
    | with_reducible rfl
    | (apply State.kept_congr <;> with_reducible rfl)
    | (simp only [State.reply_kept]; done)
    | (simp only [State.reply_kept]; first | with_reducible rfl | (apply State.kept_congr <;> with_reducible rfl))
    | (grind [State.kept, State.reply_kept, State.foldl_kept])
    | rfl

theorem State.setHeader_kept (s : State) (off : Nat) (n : Nat) (v : Nat) :
    (State.setHeader s off n v).kept = s.kept := by
  unfold State.setHeader; (try dsimp only); (repeat' split) <;> first
    | with_reducible rfl
    | (apply State.kept_congr <;> with_reducible rfl)
    | (simp only [State.putHbm_kept]; done)
    | (simp only [State.putHbm_kept]; first | with_reducible rfl | (apply State.kept_congr <;> with_reducible rfl))
    | (grind [State.kept, State.putHbm_kept, State.foldl_kept])
    | rfl

theorem State.stuck_kept (s : State) (reason : Nat) :
    (State.stuck s reason).kept = s.kept := by
  unfold State.stuck; (try dsimp only); (repeat' split) <;> first
    | with_reducible rfl
    | (apply State.kept_congr <;> with_reducible rfl)
    | (simp only [State.raise_kept]; done)
    | (simp only [State.raise_kept]; first | with_reducible rfl | (apply State.kept_congr <;> with_reducible rfl))
    | (grind [State.kept, State.raise_kept, State.foldl_kept])
    | rfl

theorem State.stopRound_kept (s : State) (reason : Nat) :
    (State.stopRound s reason).kept = s.kept := by
  unfold State.stopRound; (try dsimp only); (repeat' split) <;> first
    | with_reducible rfl
    | (apply State.kept_congr <;> with_reducible rfl)
    | (simp only [State.stuck_kept, State.sendRec_kept]; done)
    | (simp only [State.stuck_kept, State.sendRec_kept]; first | with_reducible rfl | (apply State.kept_congr <;> with_reducible rfl))
    | (grind [State.kept, State.stuck_kept, State.sendRec_kept, State.foldl_kept])
    | rfl

theorem State.substituteAll_kept (s : State) (pairs : List (Nat × Nat)) :
    (State.substituteAll s pairs).kept = s.kept := by
  unfold State.substituteAll; (try dsimp only); (repeat' split) <;> first
    | with_reducible rfl
    | (apply State.kept_congr <;> with_reducible rfl)
    | (grind [State.kept, State.foldl_kept])
    | rfl

theorem State.applyPlan_kept (s : State) (round : BitVec 8) (j : Nat) (pairs : List (Nat × Nat)) (drops : List (Nat × Nat)) :
    (State.applyPlan s round j pairs drops).kept = s.kept := by
  unfold State.applyPlan; (try dsimp only); (repeat' split) <;> first
    | with_reducible rfl
    | (apply State.kept_congr <;> with_reducible rfl)
    | (simp only [State.raise_kept, State.substituteAll_kept]; done)
    | (simp only [State.raise_kept, State.substituteAll_kept]; first | with_reducible rfl | (apply State.kept_congr <;> with_reducible rfl))
    | (grind [State.kept, State.raise_kept, State.substituteAll_kept, State.foldl_kept])
    | rfl

theorem State.writeChunk_kept (s : State) (epoch : Nat) (chunk : Nat) (bs : List (Byte × Bool)) :
    (State.writeChunk s epoch chunk bs).kept = s.kept := by
  unfold State.writeChunk; (try dsimp only); (repeat' split) <;> first
    | with_reducible rfl
    | (apply State.kept_congr <;> with_reducible rfl)
    | (simp only [State.putHbm_kept]; done)
    | (simp only [State.putHbm_kept]; first | with_reducible rfl | (apply State.kept_congr <;> with_reducible rfl))
    | (grind [State.kept, State.putHbm_kept, State.foldl_kept])
    | rfl

theorem State.sendRelay_kept (s : State) (kind : Nat) (slice : Nat) (stage : Nat) (epoch : Nat) (chunkOff : Nat) (dst : Nat) (crcs : List Nat) (data : List (Byte × Bool)) :
    (State.sendRelay s kind slice stage epoch chunkOff dst crcs data).kept = s.kept := by
  unfold State.sendRelay; (try dsimp only); (repeat' split) <;> first
    | with_reducible rfl
    | (apply State.kept_congr <;> with_reducible rfl)
    | (simp only [State.seenBytes_kept, State.reply_kept, State.originateHold_kept]; done)
    | (simp only [State.seenBytes_kept, State.reply_kept, State.originateHold_kept]; first | with_reducible rfl | (apply State.kept_congr <;> with_reducible rfl))
    | (grind [State.kept, State.seenBytes_kept, State.reply_kept, State.originateHold_kept, State.foldl_kept])
    | rfl

theorem State.putRelay_kept (s : State) (r : RelayOp) :
    (State.putRelay s r).kept = s.kept := by
  unfold State.putRelay; (try dsimp only); (repeat' split) <;> first
    | with_reducible rfl
    | (apply State.kept_congr <;> with_reducible rfl)
    | (grind [State.kept, State.foldl_kept])
    | rfl

theorem State.dropRelay_kept (s : State) (rebuild : Bool) (slice : Nat) :
    (State.dropRelay s rebuild slice).kept = s.kept := by
  unfold State.dropRelay; (try dsimp only); (repeat' split) <;> first
    | with_reducible rfl
    | (apply State.kept_congr <;> with_reducible rfl)
    | (grind [State.kept, State.foldl_kept])
    | rfl

theorem State.sendFirst_kept (s : State) (rebuild : Bool) (slice : Nat) (epoch : Nat) :
    (State.sendFirst s rebuild slice epoch).kept = s.kept := by
  unfold State.sendFirst; (try dsimp only); (repeat' split) <;> first
    | with_reducible rfl
    | (apply State.kept_congr <;> with_reducible rfl)
    | (simp only [State.dropRelay_kept, State.putRelay_kept, State.sendRelay_kept]; done)
    | (simp only [State.dropRelay_kept, State.putRelay_kept, State.sendRelay_kept]; first | with_reducible rfl | (apply State.kept_congr <;> with_reducible rfl))
    | (grind [State.kept, State.dropRelay_kept, State.putRelay_kept, State.sendRelay_kept, State.foldl_kept])
    | rfl

theorem State.parityCommit_kept (s : State) (e fmt : Nat) : (s.parityCommit e fmt).kept = s.kept := by
  unfold State.parityCommit; dsimp only
  have h : ∀ (x : State) (r : RecState) (c : ColState), State.kept { x with rcv := r, col := c } = x.kept := fun _ _ _ => rfl
  rw [h, State.setHeader_kept, State.setHeader_kept, State.setHeader_kept]

theorem State.jobReduced_kept (s : State) :
    (State.jobReduced s).kept = s.kept := by
  unfold State.jobReduced; (try dsimp only); (repeat' split) <;> first
    | with_reducible rfl
    | (apply State.kept_congr <;> with_reducible rfl)
    | (simp only [State.finishPart_kept, State.setHeader_kept, State.raise_kept]; done)
    | (simp only [State.finishPart_kept, State.setHeader_kept, State.raise_kept]; first | with_reducible rfl | (apply State.kept_congr <;> with_reducible rfl))
    | (grind [State.kept, State.finishPart_kept, State.setHeader_kept, State.raise_kept, State.foldl_kept])
    | rfl

theorem State.holderChunk_kept (s : State) (slice : Nat) (e : Nat) (chunkOff : Nat) (fmt : Nat) (crcs : List Nat) (data : List (Byte × Bool)) :
    (State.holderChunk s slice e chunkOff fmt crcs data).kept = s.kept := by
  unfold State.holderChunk; (try dsimp only); (repeat' split) <;> first
    | with_reducible rfl
    | (apply State.kept_congr <;> with_reducible rfl)
    | (simp only [State.putRelay_kept, State.writeChunk_kept, State.sendRelay_kept, State.parityCommit_kept]; done)
    | (simp only [State.putRelay_kept, State.writeChunk_kept, State.sendRelay_kept, State.parityCommit_kept]; first | with_reducible rfl | (apply State.kept_congr <;> with_reducible rfl))
    | (grind [State.kept, State.putRelay_kept, State.writeChunk_kept, State.sendRelay_kept, State.parityCommit_kept, State.foldl_kept])
    | rfl

theorem State.refresh_kept (s : State) (k : RelayChunk) :
    (State.refresh s k).kept = s.kept := by
  unfold State.refresh; (try dsimp only); (repeat' split) <;> first
    | with_reducible rfl
    | (apply State.kept_congr <;> with_reducible rfl)
    | (simp only [State.holderChunk_kept, State.sendRelay_kept, State.putRelay_kept]; done)
    | (simp only [State.holderChunk_kept, State.sendRelay_kept, State.putRelay_kept]; first | with_reducible rfl | (apply State.kept_congr <;> with_reducible rfl))
    | (grind [State.kept, State.holderChunk_kept, State.sendRelay_kept, State.putRelay_kept, State.foldl_kept])
    | rfl

theorem State.retryRefresh_kept (s : State) :
    (State.retryRefresh s).kept = s.kept := by
  unfold State.retryRefresh; (try dsimp only); (repeat' split) <;> first
    | with_reducible rfl
    | (apply State.kept_congr <;> with_reducible rfl)
    | (simp only [State.refresh_kept]; done)
    | (simp only [State.refresh_kept]; first | with_reducible rfl | (apply State.kept_congr <;> with_reducible rfl))
    | (grind [State.kept, State.refresh_kept, State.foldl_kept])
    | rfl

theorem State.startRefresh_kept (s : State) :
    (State.startRefresh s).kept = s.kept := by
  unfold State.startRefresh; (try dsimp only); (repeat' split) <;> first
    | with_reducible rfl
    | (apply State.kept_congr <;> with_reducible rfl)
    | (simp only [State.retryRefresh_kept, State.sendFirst_kept]; done)
    | (simp only [State.retryRefresh_kept, State.sendFirst_kept]; first | with_reducible rfl | (apply State.kept_congr <;> with_reducible rfl))
    | (grind [State.kept, State.retryRefresh_kept, State.sendFirst_kept, State.foldl_kept])
    | rfl

theorem State.relayAck_kept (s : State) (rebuild : Bool) (slice : Nat) :
    (State.relayAck s rebuild slice).kept = s.kept := by
  unfold State.relayAck; (try dsimp only); (repeat' split) <;> first
    | with_reducible rfl
    | (apply State.kept_congr <;> with_reducible rfl)
    | (simp only [State.putRelay_kept, State.sendFirst_kept, State.dropRelay_kept]; done)
    | (simp only [State.putRelay_kept, State.sendFirst_kept, State.dropRelay_kept]; first | with_reducible rfl | (apply State.kept_congr <;> with_reducible rfl))
    | (grind [State.kept, State.putRelay_kept, State.sendFirst_kept, State.dropRelay_kept, State.foldl_kept])
    | rfl

theorem State.relayAbort_kept (s : State) (rebuild : Bool) (slice : Nat) :
    (State.relayAbort s rebuild slice).kept = s.kept := by
  unfold State.relayAbort; (try dsimp only); (repeat' split) <;> first
    | with_reducible rfl
    | (apply State.kept_congr <;> with_reducible rfl)
    | (simp only [State.dropRelay_kept, State.reply_kept]; done)
    | (simp only [State.dropRelay_kept, State.reply_kept]; first | with_reducible rfl | (apply State.kept_congr <;> with_reducible rfl))
    | (grind [State.kept, State.dropRelay_kept, State.reply_kept, State.foldl_kept])
    | rfl

theorem State.rebuildGo_kept (s : State) (pos : Nat) (spare : Nat) :
    (State.rebuildGo s pos spare).kept = s.kept := by
  unfold State.rebuildGo; (try dsimp only); (repeat' split) <;> first
    | with_reducible rfl
    | (apply State.kept_congr <;> with_reducible rfl)
    | (simp only [State.stuck_kept, State.sendRec_kept, State.sendFirst_kept]; done)
    | (simp only [State.stuck_kept, State.sendRec_kept, State.sendFirst_kept]; first | with_reducible rfl | (apply State.kept_congr <;> with_reducible rfl))
    | (grind [State.kept, State.stuck_kept, State.sendRec_kept, State.sendFirst_kept, State.foldl_kept])
    | rfl

theorem State.spareChunk_kept (s : State) (pos slice chunkOff fmt : Nat) (check : BitVec 32) (data : List (Byte × Bool)) :
    (s.spareChunk pos slice chunkOff fmt check data).kept = s.kept := by
  have h : ∀ (x : State) (r : RecState), State.kept { x with rcv := r } = x.kept := fun _ _ => rfl
  unfold State.spareChunk; dsimp only
  generalize (if (fmt == 2 && crc32c data != check) = true then data.map fun b => (b.1, true) else data) = d
  generalize hv : (if (fmt == 2 && crc32c data != check) = true then State.raise _ _ _ _ else State.writeChunk _ _ _ _) = v
  have a : v.kept = s.kept := by
    rw [← hv]; split
    · rw [State.raise_kept, State.writeChunk_kept]
    · exact State.writeChunk_kept _ _ _ _
  clear hv
  split
  · rw [State.putRelay_kept, a]
  · split
    · rw [h, State.putRelay_kept, a]
    · rw [State.raise_kept, State.sendRec_kept, h, State.setHeader_kept, State.setHeader_kept, h, State.putRelay_kept, a]

theorem State.rebuild_kept (s : State) (slice : Nat) (stage : Nat) (chunkOff : Nat) (fmt : Nat) (check : BitVec 32) (data : List (Byte × Bool)) (src : Nat) :
    (State.rebuild s slice stage chunkOff fmt check data src).kept = s.kept := by
  unfold State.rebuild; (try dsimp only); (repeat' split) <;> first
    | with_reducible rfl
    | (apply State.kept_congr <;> with_reducible rfl)
    | (simp only [State.sendRelay_kept, State.spareChunk_kept, State.putRelay_kept]; done)
    | (simp only [State.sendRelay_kept, State.spareChunk_kept, State.putRelay_kept]; first | with_reducible rfl | (apply State.kept_congr <;> with_reducible rfl))
    | (grind [State.kept, State.sendRelay_kept, State.spareChunk_kept, State.putRelay_kept, State.foldl_kept])
    | rfl

theorem State.recCommit_kept (s : State) : s.recCommit.kept = s.kept := by
  have hp : ∀ (x : State) (a), State.kept { x with arbLnk := a } = x.kept := fun _ _ => rfl
  have a : (if s.rcv.pairs = [] then s else s.commitGroups).kept = s.kept := by
    split
    · rfl
    · exact State.commitGroups_kept _
  unfold State.recCommit
  generalize (if s.rcv.pairs = [] then s else s.commitGroups) = s1 at a ⊢
  have b : (if s.protects then ((s1.setHeader 8 8 s.rcv.epoch).setHeader 16 8 s.rcv.epoch).setHeader 0 8 s.rcv.epoch else s1).kept = s.kept := by
    split
    · rw [State.setHeader_kept, State.setHeader_kept, State.setHeader_kept, a]
    · exact a
  dsimp only
  generalize (if s.protects then ((s1.setHeader 8 8 s.rcv.epoch).setHeader 16 8 s.rcv.epoch).setHeader 0 8 s.rcv.epoch else s1) = s2 at b ⊢
  split
  · exact b
  · rw [hp, b]

theorem State.release_kept (s : State) :
    (State.release s).kept = s.kept := by
  unfold State.release; (try dsimp only); (repeat' split) <;> first
    | with_reducible rfl
    | (apply State.kept_congr <;> with_reducible rfl)
    | (simp only [State.raise_kept]; done)
    | (simp only [State.raise_kept]; first | with_reducible rfl | (apply State.kept_congr <;> with_reducible rfl))
    | (grind [State.kept, State.raise_kept, State.foldl_kept])
    | rfl

theorem State.takeRelease_kept (s : State) (m : HoldMsg) :
    (State.takeRelease s m).kept = s.kept := by
  unfold State.takeRelease; (try dsimp only); (repeat' split) <;> first
    | with_reducible rfl
    | (apply State.kept_congr <;> with_reducible rfl)
    | (simp only [State.release_kept]; done)
    | (simp only [State.release_kept]; first | with_reducible rfl | (apply State.kept_congr <;> with_reducible rfl))
    | (grind [State.kept, State.release_kept, State.foldl_kept])
    | rfl

theorem State.floodRelease_kept (s : State) :
    (State.floodRelease s).kept = s.kept := by
  unfold State.floodRelease; (try dsimp only); (repeat' split) <;> first
    | with_reducible rfl
    | (apply State.kept_congr <;> with_reducible rfl)
    | (simp only [State.release_kept, State.floodHold_kept, State.noteKey_kept]; done)
    | (simp only [State.release_kept, State.floodHold_kept, State.noteKey_kept]; first | with_reducible rfl | (apply State.kept_congr <;> with_reducible rfl))
    | (grind [State.kept, State.release_kept, State.floodHold_kept, State.noteKey_kept, State.foldl_kept])
    | rfl

theorem State.commitRound_kept (s : State) : (State.commitRound s).kept = State.kept s := by
  unfold State.commitRound; dsimp only
  have h : ∀ l : List Nat, State.kept (l.foldl (fun s m => s.sendRec 6 m s.rcv.epoch []) s) = State.kept s :=
    fun l => State.foldl_kept _ _ _ fun s a => State.sendRec_kept _ _ _ _ _
  split
  · rw [State.reply_kept]; exact (State.recCommit_kept _).trans (h _)
  · rw [State.floodRelease_kept, State.recCommit_kept]; exact h _

theorem State.nextRebuild_kept (s : State) :
    (State.nextRebuild s).kept = s.kept := by
  unfold State.nextRebuild; (try dsimp only); (repeat' split) <;> first
    | with_reducible rfl
    | (apply State.kept_congr <;> with_reducible rfl)
    | (simp only [State.commitRound_kept, State.sendRec_kept, State.rebuildGo_kept]; done)
    | (simp only [State.commitRound_kept, State.sendRec_kept, State.rebuildGo_kept]; first | with_reducible rfl | (apply State.kept_congr <;> with_reducible rfl))
    | (grind [State.kept, State.commitRound_kept, State.sendRec_kept, State.rebuildGo_kept, State.foldl_kept])
    | rfl

theorem State.whenReady_kept (s : State) :
    (State.whenReady s).kept = s.kept := by
  unfold State.whenReady; (try dsimp only); (repeat' split) <;> first
    | with_reducible rfl
    | (apply State.kept_congr <;> with_reducible rfl)
    | (simp only [State.nextRebuild_kept]; done)
    | (simp only [State.nextRebuild_kept]; first | with_reducible rfl | (apply State.kept_congr <;> with_reducible rfl))
    | (grind [State.kept, State.nextRebuild_kept, State.foldl_kept])
    | rfl

theorem State.tryPlan_kept (s : State) :
    (State.tryPlan s).kept = s.kept := by
  unfold State.tryPlan; (try dsimp only); (repeat' split) <;> first
    | with_reducible rfl
    | (apply State.kept_congr <;> with_reducible rfl)
    | (simp only [State.stopRound_kept, State.sendRec_kept, State.applyPlan_kept, State.whenReady_kept, State.raise_kept]; done)
    | (simp only [State.stopRound_kept, State.sendRec_kept, State.applyPlan_kept, State.whenReady_kept, State.raise_kept]; first | with_reducible rfl | (apply State.kept_congr <;> with_reducible rfl))
    | (grind [State.kept, State.stopRound_kept, State.sendRec_kept, State.applyPlan_kept, State.whenReady_kept, State.raise_kept, State.foldl_kept])
    | rfl

theorem State.collectReport_kept (s : State) (src : Nat) (committed : Nat) (heard : List Nat) :
    (State.collectReport s src committed heard).kept = s.kept := by
  unfold State.collectReport; (try dsimp only); (repeat' split) <;> first
    | with_reducible rfl
    | (apply State.kept_congr <;> with_reducible rfl)
    | (simp only [State.tryPlan_kept, State.hearFailed_kept]; done)
    | (simp only [State.tryPlan_kept, State.hearFailed_kept]; first | with_reducible rfl | (apply State.kept_congr <;> with_reducible rfl))
    | (grind [State.kept, State.tryPlan_kept, State.hearFailed_kept, State.foldl_kept])
    | rfl

theorem State.reachHeld_kept (s : State) :
    (State.reachHeld s).kept = s.kept := by
  unfold State.reachHeld; (try dsimp only); (repeat' split) <;> first
    | with_reducible rfl
    | (apply State.kept_congr <;> with_reducible rfl)
    | (simp only [State.raise_kept, State.stuck_kept, State.sendRec_kept, State.collectReport_kept]; done)
    | (simp only [State.raise_kept, State.stuck_kept, State.sendRec_kept, State.collectReport_kept]; first | with_reducible rfl | (apply State.kept_congr <;> with_reducible rfl))
    | (grind [State.kept, State.raise_kept, State.stuck_kept, State.sendRec_kept, State.collectReport_kept, State.foldl_kept])
    | rfl

/-! ### Starts -/

theorem State.restoreQuota_kept (s : State) :
    (State.restoreQuota s).kept = s.kept := by
  unfold State.restoreQuota; (try dsimp only); (repeat' split) <;> first
    | with_reducible rfl
    | (apply State.kept_congr <;> with_reducible rfl)
    | (grind [State.kept, State.foldl_kept])
    | rfl

theorem State.startRegs_kept (s : State) :
    (State.startRegs s).kept = s.kept := by
  unfold State.startRegs; (try dsimp only); (repeat' split) <;> first
    | with_reducible rfl
    | (apply State.kept_congr <;> with_reducible rfl)
    | (simp only [State.restoreQuota_kept]; done)
    | (simp only [State.restoreQuota_kept]; first | with_reducible rfl | (apply State.kept_congr <;> with_reducible rfl))
    | (grind [State.kept, State.restoreQuota_kept, State.foldl_kept])
    | rfl

theorem State.abortRunning_kept (s : State) :
    (State.abortRunning s).kept = s.kept := by
  unfold State.abortRunning; (try dsimp only); (repeat' split) <;> first
    | with_reducible rfl
    | (apply State.kept_congr <;> with_reducible rfl)
    | (simp only [State.stopCell_kept, State.endTask_kept, State.endCause_kept]; done)
    | (simp only [State.stopCell_kept, State.endTask_kept, State.endCause_kept]; first | with_reducible rfl | (apply State.kept_congr <;> with_reducible rfl))
    | (grind [State.kept, State.stopCell_kept, State.endTask_kept, State.endCause_kept, State.foldl_kept])
    | rfl

theorem State.reloadReset_kept (s : State) :
    (State.reloadReset s).kept = s.kept := by
  unfold State.reloadReset; (try dsimp only); (repeat' split) <;> first
    | with_reducible rfl
    | (apply State.kept_congr <;> with_reducible rfl)
    | (simp only [State.startRegs_kept, State.abortRunning_kept, State.buildSet_kept]; done)
    | (simp only [State.startRegs_kept, State.abortRunning_kept, State.buildSet_kept]; first | with_reducible rfl | (apply State.kept_congr <;> with_reducible rfl))
    | (grind [State.kept, State.startRegs_kept, State.abortRunning_kept, State.buildSet_kept, State.foldl_kept])
    | rfl

theorem State.warmReset_kept (s : State) (clear : Bool) :
    (State.warmReset s clear).kept = s.kept := by
  unfold State.warmReset; (try dsimp only); (repeat' split) <;> first
    | with_reducible rfl
    | (apply State.kept_congr <;> with_reducible rfl)
    | (simp only [State.startRegs_kept, State.detach_kept, State.buildSet_kept]; done)
    | (simp only [State.startRegs_kept, State.detach_kept, State.buildSet_kept]; first | with_reducible rfl | (apply State.kept_congr <;> with_reducible rfl))
    | (grind [State.kept, State.startRegs_kept, State.detach_kept, State.buildSet_kept, State.foldl_kept])
    | rfl

theorem State.cancelAct_kept (s : State) (cause : Nat) :
    (State.cancelAct s cause).kept = s.kept := by
  unfold State.cancelAct; (try dsimp only); (repeat' split) <;> first
    | with_reducible rfl
    | (apply State.kept_congr <;> with_reducible rfl)
    | (simp only [State.raise_kept]; done)
    | (simp only [State.raise_kept]; first | with_reducible rfl | (apply State.kept_congr <;> with_reducible rfl))
    | (grind [State.kept, State.raise_kept, State.foldl_kept])
    | rfl

theorem State.stageBundle_kept (s : State) (b : Bundle) (source : Nat) :
    (State.stageBundle s b source).1.kept = s.kept := by
  unfold State.stageBundle; (try dsimp only); (repeat' split) <;> first
    | with_reducible rfl
    | (apply State.kept_congr <;> with_reducible rfl)
    | (simp only [State.raise_kept]; done)
    | (simp only [State.raise_kept]; first | with_reducible rfl | (apply State.kept_congr <;> with_reducible rfl))
    | (grind [State.kept, State.raise_kept, State.foldl_kept])
    | rfl

theorem State.install_kept (s : State) (b : Bundle) :
    (State.install s b).kept = s.kept := by
  unfold State.install; (try dsimp only); (repeat' split) <;> first
    | with_reducible rfl
    | (apply State.kept_congr <;> with_reducible rfl)
    | (grind [State.kept, State.foldl_kept])
    | rfl

theorem State.failStart_kept (s : State) (reason : Nat) :
    (State.failStart s reason).kept = s.kept := by
  unfold State.failStart; (try dsimp only); (repeat' split) <;> first
    | with_reducible rfl
    | (apply State.kept_congr <;> with_reducible rfl)
    | (simp only [State.raise_kept, State.mainOff_kept]; done)
    | (simp only [State.raise_kept, State.mainOff_kept]; first | with_reducible rfl | (apply State.kept_congr <;> with_reducible rfl))
    | (grind [State.kept, State.raise_kept, State.mainOff_kept, State.foldl_kept])
    | rfl

theorem State.atStep_kept (s : State) (n : Nat) :
    (State.atStep s n).kept = s.kept := by
  unfold State.atStep; (try dsimp only); (repeat' split) <;> first
    | with_reducible rfl
    | (apply State.kept_congr <;> with_reducible rfl)
    | (grind [State.kept, State.foldl_kept])
    | rfl

theorem State.zeroTime_kept (s : State) :
    (State.zeroTime s).kept = s.kept := by
  unfold State.zeroTime; (try dsimp only); (repeat' split) <;> first
    | with_reducible rfl
    | (apply State.kept_congr <;> with_reducible rfl)
    | (grind [State.kept, State.foldl_kept])
    | rfl

theorem State.trainRepair_kept (s : State) (ch : Nat) (u : Nat) (lane : Nat) :
    (State.trainRepair s ch u lane).kept = s.kept := by
  unfold State.trainRepair; (try dsimp only); (repeat' split) <;> first
    | with_reducible rfl
    | (apply State.kept_congr <;> with_reducible rfl)
    | (simp only [State.modStack_kept, State.raise_kept]; done)
    | (simp only [State.modStack_kept, State.raise_kept]; first | with_reducible rfl | (apply State.kept_congr <;> with_reducible rfl))
    | (grind [State.kept, State.modStack_kept, State.raise_kept, State.foldl_kept])
    | rfl

theorem State.trainFailed_kept (s : State) (ch : Nat) (lane : Nat) :
    (State.trainFailed s ch lane).kept = s.kept := by
  unfold State.trainFailed; (try dsimp only); (repeat' split) <;> first
    | with_reducible rfl
    | (apply State.kept_congr <;> with_reducible rfl)
    | (simp only [State.raise_kept]; done)
    | (simp only [State.raise_kept]; first | with_reducible rfl | (apply State.kept_congr <;> with_reducible rfl))
    | (grind [State.kept, State.raise_kept, State.foldl_kept])
    | rfl

theorem State.trainLane_kept (s : State) (pch : BitVec 10) (lane : Nat) :
    (State.trainLane s pch lane).1.kept = s.kept := by
  unfold State.trainLane; (try dsimp only); (repeat' split) <;> first
    | with_reducible rfl
    | (apply State.kept_congr <;> with_reducible rfl)
    | (simp only [State.trainFailed_kept, State.trainRepair_kept]; done)
    | (simp only [State.trainFailed_kept, State.trainRepair_kept]; first | with_reducible rfl | (apply State.kept_congr <;> with_reducible rfl))
    | (grind [State.kept, State.trainFailed_kept, State.trainRepair_kept, State.foldl_kept])
    | rfl

theorem State.trainCmd_kept (s : State) (ch : BitVec 9) (lane : Nat) :
    (State.trainCmd s ch lane).1.kept = s.kept := by
  unfold State.trainCmd; (try dsimp only); (repeat' split) <;> first
    | with_reducible rfl
    | (apply State.kept_congr <;> with_reducible rfl)
    | (simp only [State.trainFailed_kept, State.trainRepair_kept]; done)
    | (simp only [State.trainFailed_kept, State.trainRepair_kept]; first | with_reducible rfl | (apply State.kept_congr <;> with_reducible rfl))
    | (grind [State.kept, State.trainFailed_kept, State.trainRepair_kept, State.foldl_kept])
    | rfl

theorem State.trainChannels_kept (s : State) (t : Training) (p : Nat → Bool) : (s.trainChannels t p).1.kept = s.kept := by
  unfold State.trainChannels; dsimp only
  rw [State.foldl2_kept _ _ _ (fun a l => by split; exact State.trainCmd_kept _ _ _; rfl),
    State.foldl2_kept _ _ _ (fun a l => by split; exact State.trainLane_kept _ _ _; rfl)]

theorem State.warmTrain_kept (s : State) (t : Training) :
    (State.warmTrain s t).1.kept = s.kept := by
  unfold State.warmTrain; (try dsimp only); (repeat' split) <;> first
    | with_reducible rfl
    | (apply State.kept_congr <;> with_reducible rfl)
    | (simp only [State.trainChannels_kept]; done)
    | (simp only [State.trainChannels_kept]; first | with_reducible rfl | (apply State.kept_congr <;> with_reducible rfl))
    | (grind [State.kept, State.trainChannels_kept, State.foldl_kept])
    | rfl

theorem State.trainLinks_kept (s : State) (t : Training) :
    (State.trainLinks s t).kept = s.kept := by
  unfold State.trainLinks; (try dsimp only); (repeat' split) <;> first
    | with_reducible rfl
    | (apply State.kept_congr <;> with_reducible rfl)
    | (simp only [State.raise_kept]; done)
    | (simp only [State.raise_kept]; first | with_reducible rfl | (apply State.kept_congr <;> with_reducible rfl))
    | (grind [State.kept, State.raise_kept, State.foldl_kept])
    | rfl

theorem State.loadImages_kept (s : State) :
    (State.loadImages s).kept = s.kept := by
  unfold State.loadImages; (try dsimp only); (repeat' split) <;> first
    | with_reducible rfl
    | (apply State.kept_congr <;> with_reducible rfl)
    | (simp only [State.atStep_kept]; done)
    | (simp only [State.atStep_kept]; first | with_reducible rfl | (apply State.kept_congr <;> with_reducible rfl))
    | (grind [State.kept, State.atStep_kept, State.foldl_kept])
    | rfl

theorem State.coldOn_kept (s : State) (t : Training) :
    (State.coldOn s t).kept = s.kept := by
  unfold State.coldOn; (try dsimp only); (repeat' split) <;> first
    | with_reducible rfl
    | (apply State.kept_congr <;> with_reducible rfl)
    | (simp only [State.atStep_kept, State.failStart_kept, State.trainChannels_kept, State.zeroTime_kept, State.trainLinks_kept, State.loadImages_kept, State.buildSet_kept]; done)
    | (simp only [State.atStep_kept, State.failStart_kept, State.trainChannels_kept, State.zeroTime_kept, State.trainLinks_kept, State.loadImages_kept, State.buildSet_kept]; first | with_reducible rfl | (apply State.kept_congr <;> with_reducible rfl))
    | (grind [State.kept, State.atStep_kept, State.failStart_kept, State.trainChannels_kept, State.zeroTime_kept, State.trainLinks_kept, State.loadImages_kept, State.buildSet_kept, State.foldl_kept])
    | rfl

theorem State.useBundle_kept (s : State) (b : Bundle) :
    (State.useBundle s b).kept = s.kept := by
  unfold State.useBundle; (try dsimp only); (repeat' split) <;> first
    | with_reducible rfl
    | (apply State.kept_congr <;> with_reducible rfl)
    | (grind [State.kept, State.foldl_kept])
    | rfl

theorem State.verifyStaged_kept (s : State) (go : State → State) (h : ∀ s, (go s).kept = s.kept) : (s.verifyStaged go).kept = s.kept := by
  unfold State.verifyStaged; split
  · exact State.failStart_kept _ _
  · rename_i b _
    have := State.stageBundle_kept s b 2
    dsimp only; split
    · rw [h, State.useBundle_kept, this]
    · rw [State.failStart_kept, this]

theorem State.flashErrors_kept (s : State) (bad : List (BitVec 4)) : (s.flashErrors bad).kept = s.kept := by
  have h : ∀ s : State, (bad.foldl (fun s i => s.raise 0x0B0D .error [(1, i.toNat), (1, 0)]) s).kept = s.kept :=
    fun s => State.foldl_kept _ _ _ fun s a => State.raise_kept _ _ _ _
  unfold State.flashErrors; dsimp only
  (repeat' split) <;> exact h s

theorem State.coldPwr_kept (s : State) :
    (State.coldPwr s).kept = s.kept := by
  unfold State.coldPwr; (try dsimp only); (repeat' split) <;> first
    | with_reducible rfl
    | (apply State.kept_congr <;> with_reducible rfl)
    | (grind [State.kept, State.foldl_kept])
    | rfl

theorem State.beginCold_kept (s : State) (bad : List (BitVec 4)) (t : Training) (st : Bool) : (s.beginCold bad t st).kept = s.kept := by
  unfold State.beginCold; dsimp only
  have h : ∀ x : State, (({ x.coldPwr with pwr := x.coldPwr.pwr.showCap } : State)).kept = x.kept := fun x => State.coldPwr_kept x
  (repeat' split)
  · rw [State.failStart_kept, State.atStep_kept, h, State.flashErrors_kept, State.blank_kept]
  · rw [State.failStart_kept, State.atStep_kept, h, State.flashErrors_kept, State.blank_kept]
  · rw [State.verifyStaged_kept _ _ fun s => State.coldOn_kept _ _, State.atStep_kept, h, State.flashErrors_kept, State.blank_kept]
  · rw [State.atStep_kept, h, State.flashErrors_kept, State.blank_kept]

theorem State.beginStart_kept (s : State) (req : StartReq) (bad : List (BitVec 4)) (t : Training) : (s.beginStart req bad t).kept = s.kept := by
  unfold State.beginStart
  have h : (if s.fw.act.any fun a => a.began.isSome then s.cancelAct 2 else s).kept = s.kept := by
    split
    · exact State.cancelAct_kept _ _
    · rfl
  generalize (if s.fw.act.any fun a => a.began.isSome then s.cancelAct 2 else s) = s0 at h ⊢
  dsimp only
  generalize hs : ({ s0 with fw := _, hif := _ } : State) = s1
  have h1 : s1.kept = s.kept := by rw [← hs, ← h]; rfl
  clear hs
  rw [← h1]
  split
  · exact State.beginCold_kept _ _ _ _
  · have hw : ((s1.warmReset req.clear).warmTrain t).1.kept = s1.kept := by rw [State.warmTrain_kept, State.warmReset_kept]
    generalize (s1.warmReset req.clear).warmTrain t = w at hw ⊢
    split
    · rw [State.loadImages_kept]; exact hw
    · rw [State.failStart_kept, State.atStep_kept]; exact hw
  · split
    · exact State.verifyStaged_kept _ _ fun s => (State.loadImages_kept _).trans (State.reloadReset_kept _)
    · rw [State.loadImages_kept, State.reloadReset_kept]

theorem State.nextStart_kept (s : State) (bad : List (BitVec 4)) (t : Training) :
    (State.nextStart s bad t).kept = s.kept := by
  unfold State.nextStart; (try dsimp only); (repeat' split) <;> first
    | with_reducible rfl
    | (apply State.kept_congr <;> with_reducible rfl)
    | (simp only [State.beginStart_kept]; done)
    | (simp only [State.beginStart_kept]; first | with_reducible rfl | (apply State.kept_congr <;> with_reducible rfl))
    | (grind [State.kept, State.beginStart_kept, State.foldl_kept])
    | rfl

theorem State.askStart_kept (s : State) (req : StartReq) (bad : List (BitVec 4)) (t : Training) :
    (State.askStart s req bad t).kept = s.kept := by
  unfold State.askStart; (try dsimp only); (repeat' split) <;> first
    | with_reducible rfl
    | (apply State.kept_congr <;> with_reducible rfl)
    | (simp only [State.nextStart_kept]; done)
    | (simp only [State.nextStart_kept]; first | with_reducible rfl | (apply State.kept_congr <;> with_reducible rfl))
    | (grind [State.kept, State.nextStart_kept, State.foldl_kept])
    | rfl

theorem State.openUp_kept (s : State) :
    (State.openUp s).kept = s.kept := by
  unfold State.openUp; (try dsimp only); (repeat' split) <;> first
    | with_reducible rfl
    | (apply State.kept_congr <;> with_reducible rfl)
    | (simp only [State.copyCaps_kept, State.deferredHolds_kept, State.lateDetach_kept]; done)
    | (simp only [State.copyCaps_kept, State.deferredHolds_kept, State.lateDetach_kept]; first | with_reducible rfl | (apply State.kept_congr <;> with_reducible rfl))
    | (grind [State.kept, State.copyCaps_kept, State.deferredHolds_kept, State.lateDetach_kept, State.foldl_kept])
    | rfl

/-! ### Power -/

theorem State.auxOn_kept (s : State) (slot : BitVec 3) :
    (State.auxOn s slot).kept = s.kept := by
  unfold State.auxOn; (try dsimp only); (repeat' split) <;> first
    | with_reducible rfl
    | (apply State.kept_congr <;> with_reducible rfl)
    | (grind [State.kept, State.foldl_kept])
    | rfl

theorem State.auxOff_kept (s : State) :
    (State.auxOff s).kept = s.kept := by
  unfold State.auxOff; (try dsimp only); (repeat' split) <;> first
    | with_reducible rfl
    | (apply State.kept_congr <;> with_reducible rfl)
    | (simp only [State.blank_kept]; done)
    | (simp only [State.blank_kept]; first | with_reducible rfl | (apply State.kept_congr <;> with_reducible rfl))
    | (grind [State.kept, State.blank_kept, State.foldl_kept])
    | rfl

theorem State.dwell_kept (s : State) :
    (State.dwell s).kept = s.kept := by
  unfold State.dwell; (try dsimp only); (repeat' split) <;> first
    | with_reducible rfl
    | (apply State.kept_congr <;> with_reducible rfl)
    | (grind [State.kept, State.foldl_kept])
    | rfl

theorem State.charged_kept (s : State) (bad : List (BitVec 4)) (t : Training) :
    (State.charged s bad t).kept = s.kept := by
  unfold State.charged; (try dsimp only); (repeat' split) <;> first
    | with_reducible rfl
    | (apply State.kept_congr <;> with_reducible rfl)
    | (simp only [State.coldOn_kept, State.askStart_kept]; done)
    | (simp only [State.coldOn_kept, State.askStart_kept]; first | with_reducible rfl | (apply State.kept_congr <;> with_reducible rfl))
    | (grind [State.kept, State.coldOn_kept, State.askStart_kept, State.foldl_kept])
    | rfl

theorem State.supplyReset_kept (s : State) (off : OffCause) (cause : Nat) (low : Nat) (source : Nat) (code : Nat) (fields : List (Nat × Nat)) :
    (State.supplyReset s off cause low source code fields).kept = s.kept := by
  unfold State.supplyReset; (try dsimp only); (repeat' split) <;> first
    | with_reducible rfl
    | (apply State.kept_congr <;> with_reducible rfl)
    | (simp only [State.brake_kept, State.raise_kept, State.failStart_kept, State.mainOff_kept]; done)
    | (simp only [State.brake_kept, State.raise_kept, State.failStart_kept, State.mainOff_kept]; first | with_reducible rfl | (apply State.kept_congr <;> with_reducible rfl))
    | (grind [State.kept, State.brake_kept, State.raise_kept, State.failStart_kept, State.mainOff_kept, State.foldl_kept])
    | rfl

theorem State.openInrush_kept (s : State) :
    (State.openInrush s).kept = s.kept := by
  unfold State.openInrush; (try dsimp only); (repeat' split) <;> first
    | with_reducible rfl
    | (apply State.kept_congr <;> with_reducible rfl)
    | (grind [State.kept, State.foldl_kept])
    | rfl

theorem State.overvoltage_kept (s : State) (volt : BitVec 16) :
    (State.overvoltage s volt).kept = s.kept := by
  unfold State.overvoltage; (try dsimp only); (repeat' split) <;> first
    | with_reducible rfl
    | (apply State.kept_congr <;> with_reducible rfl)
    | (simp only [State.openInrush_kept, State.supplyReset_kept, State.raise_kept]; done)
    | (simp only [State.openInrush_kept, State.supplyReset_kept, State.raise_kept]; first | with_reducible rfl | (apply State.kept_congr <;> with_reducible rfl))
    | (grind [State.kept, State.openInrush_kept, State.supplyReset_kept, State.raise_kept, State.foldl_kept])
    | rfl

theorem State.inputReset_kept (s : State) (low : BitVec 16) :
    (State.inputReset s low).kept = s.kept := by
  unfold State.inputReset; (try dsimp only); (repeat' split) <;> first
    | with_reducible rfl
    | (apply State.kept_congr <;> with_reducible rfl)
    | (simp only [State.openInrush_kept, State.supplyReset_kept]; done)
    | (simp only [State.openInrush_kept, State.supplyReset_kept]; first | with_reducible rfl | (apply State.kept_congr <;> with_reducible rfl))
    | (grind [State.kept, State.openInrush_kept, State.supplyReset_kept, State.foldl_kept])
    | rfl

theorem State.railReset_kept (s : State) (die : BitVec 3) (low : BitVec 10) :
    (State.railReset s die low).kept = s.kept := by
  unfold State.railReset; (try dsimp only); (repeat' split) <;> first
    | with_reducible rfl
    | (apply State.kept_congr <;> with_reducible rfl)
    | (simp only [State.nextStart_kept, State.supplyReset_kept]; done)
    | (simp only [State.nextStart_kept, State.supplyReset_kept]; first | with_reducible rfl | (apply State.kept_congr <;> with_reducible rfl))
    | (grind [State.kept, State.nextStart_kept, State.supplyReset_kept, State.foldl_kept])
    | rfl

theorem State.railRestart_kept (s : State) (bad : List (BitVec 4)) (t : Training) :
    (State.railRestart s bad t).kept = s.kept := by
  unfold State.railRestart; (try dsimp only); (repeat' split) <;> first
    | with_reducible rfl
    | (apply State.kept_congr <;> with_reducible rfl)
    | (simp only [State.askStart_kept]; done)
    | (simp only [State.askStart_kept]; first | with_reducible rfl | (apply State.kept_congr <;> with_reducible rfl))
    | (grind [State.kept, State.askStart_kept, State.foldl_kept])
    | rfl

theorem State.inputWarn_kept (s : State) (volt : BitVec 16) :
    (State.inputWarn s volt).kept = s.kept := by
  unfold State.inputWarn; (try dsimp only); (repeat' split) <;> first
    | with_reducible rfl
    | (apply State.kept_congr <;> with_reducible rfl)
    | (simp only [State.setPwr_kept, State.raise_kept]; done)
    | (simp only [State.setPwr_kept, State.raise_kept]; first | with_reducible rfl | (apply State.kept_congr <;> with_reducible rfl))
    | (grind [State.kept, State.setPwr_kept, State.raise_kept, State.foldl_kept])
    | rfl

theorem State.inputClear_kept (s : State) (low : BitVec 16) :
    (State.inputClear s low).kept = s.kept := by
  unfold State.inputClear; (try dsimp only); (repeat' split) <;> first
    | with_reducible rfl
    | (apply State.kept_congr <;> with_reducible rfl)
    | (simp only [State.setPwr_kept, State.raise_kept]; done)
    | (simp only [State.setPwr_kept, State.raise_kept]; first | with_reducible rfl | (apply State.kept_congr <;> with_reducible rfl))
    | (grind [State.kept, State.setPwr_kept, State.raise_kept, State.foldl_kept])
    | rfl

theorem State.railWarn_kept (s : State) (die : BitVec 3) (rail : BitVec 10) :
    (State.railWarn s die rail).kept = s.kept := by
  unfold State.railWarn; (try dsimp only); (repeat' split) <;> first
    | with_reducible rfl
    | (apply State.kept_congr <;> with_reducible rfl)
    | (simp only [State.setPwr_kept, State.raise_kept]; done)
    | (simp only [State.setPwr_kept, State.raise_kept]; first | with_reducible rfl | (apply State.kept_congr <;> with_reducible rfl))
    | (grind [State.kept, State.setPwr_kept, State.raise_kept, State.foldl_kept])
    | rfl

theorem State.railClear_kept (s : State) (die : BitVec 3) (low : BitVec 10) :
    (State.railClear s die low).kept = s.kept := by
  unfold State.railClear; (try dsimp only); (repeat' split) <;> first
    | with_reducible rfl
    | (apply State.kept_congr <;> with_reducible rfl)
    | (simp only [State.setPwr_kept, State.raise_kept]; done)
    | (simp only [State.setPwr_kept, State.raise_kept]; first | with_reducible rfl | (apply State.kept_congr <;> with_reducible rfl))
    | (grind [State.kept, State.setPwr_kept, State.raise_kept, State.foldl_kept])
    | rfl

theorem State.thermThrottle_kept (s : State) (die : BitVec 4) (temp : BitVec 8) :
    (State.thermThrottle s die temp).kept = s.kept := by
  unfold State.thermThrottle; (try dsimp only); (repeat' split) <;> first
    | with_reducible rfl
    | (apply State.kept_congr <;> with_reducible rfl)
    | (simp only [State.setPwr_kept, State.raise_kept]; done)
    | (simp only [State.setPwr_kept, State.raise_kept]; first | with_reducible rfl | (apply State.kept_congr <;> with_reducible rfl))
    | (grind [State.kept, State.setPwr_kept, State.raise_kept, State.foldl_kept])
    | rfl

theorem State.throttleEnd_kept (s : State) (die : BitVec 4) (temp : BitVec 8) :
    (State.throttleEnd s die temp).kept = s.kept := by
  unfold State.throttleEnd; (try dsimp only); (repeat' split) <;> first
    | with_reducible rfl
    | (apply State.kept_congr <;> with_reducible rfl)
    | (simp only [State.setPwr_kept]; done)
    | (simp only [State.setPwr_kept]; first | with_reducible rfl | (apply State.kept_congr <;> with_reducible rfl))
    | (grind [State.kept, State.setPwr_kept, State.foldl_kept])
    | rfl

theorem State.thermWarn_kept (s : State) (die : BitVec 4) (temp : BitVec 8) :
    (State.thermWarn s die temp).kept = s.kept := by
  unfold State.thermWarn; (try dsimp only); (repeat' split) <;> first
    | with_reducible rfl
    | (apply State.kept_congr <;> with_reducible rfl)
    | (simp only [State.setPwr_kept, State.raise_kept]; done)
    | (simp only [State.setPwr_kept, State.raise_kept]; first | with_reducible rfl | (apply State.kept_congr <;> with_reducible rfl))
    | (grind [State.kept, State.setPwr_kept, State.raise_kept, State.foldl_kept])
    | rfl

theorem State.thermClear_kept (s : State) (die : BitVec 4) (temp : BitVec 8) (high : BitVec 8) :
    (State.thermClear s die temp high).kept = s.kept := by
  unfold State.thermClear; (try dsimp only); (repeat' split) <;> first
    | with_reducible rfl
    | (apply State.kept_congr <;> with_reducible rfl)
    | (simp only [State.setPwr_kept, State.raise_kept]; done)
    | (simp only [State.setPwr_kept, State.raise_kept]; first | with_reducible rfl | (apply State.kept_congr <;> with_reducible rfl))
    | (grind [State.kept, State.setPwr_kept, State.raise_kept, State.foldl_kept])
    | rfl

theorem State.tripWarning_kept (s : State) (die : BitVec 4) :
    (State.tripWarning s die).kept = s.kept := by
  unfold State.tripWarning; (try dsimp only); (repeat' split) <;> first
    | with_reducible rfl
    | (apply State.kept_congr <;> with_reducible rfl)
    | (simp only [State.ownFault_kept, State.setPwr_kept]; done)
    | (simp only [State.ownFault_kept, State.setPwr_kept]; first | with_reducible rfl | (apply State.kept_congr <;> with_reducible rfl))
    | (grind [State.kept, State.ownFault_kept, State.setPwr_kept, State.foldl_kept])
    | rfl

theorem State.thermTrip_kept (s : State) (die : BitVec 4) (temp : BitVec 8) :
    (State.thermTrip s die temp).kept = s.kept := by
  unfold State.thermTrip; (try dsimp only); (repeat' split) <;> first
    | with_reducible rfl
    | (apply State.kept_congr <;> with_reducible rfl)
    | (simp only [State.setPwr_kept, State.supplyReset_kept]; done)
    | (simp only [State.setPwr_kept, State.supplyReset_kept]; first | with_reducible rfl | (apply State.kept_congr <;> with_reducible rfl))
    | (grind [State.kept, State.setPwr_kept, State.supplyReset_kept, State.foldl_kept])
    | rfl

theorem State.cooldown_kept (s : State) (temps : List (BitVec 8)) (bad : List (BitVec 4)) (t : Training) :
    (State.cooldown s temps bad t).kept = s.kept := by
  unfold State.cooldown; (try dsimp only); (repeat' split) <;> first
    | with_reducible rfl
    | (apply State.kept_congr <;> with_reducible rfl)
    | (simp only [State.nextStart_kept, State.setPwr_kept]; done)
    | (simp only [State.nextStart_kept, State.setPwr_kept]; first | with_reducible rfl | (apply State.kept_congr <;> with_reducible rfl))
    | (grind [State.kept, State.nextStart_kept, State.setPwr_kept, State.foldl_kept])
    | rfl

theorem State.takeGrant_kept (s : State) (watts : BitVec 16) (seq : BitVec 16) (life : BitVec 16) :
    (State.takeGrant s watts seq life).kept = s.kept := by
  unfold State.takeGrant; (try dsimp only); (repeat' split) <;> first
    | with_reducible rfl
    | (apply State.kept_congr <;> with_reducible rfl)
    | (simp only [State.raise_kept, State.setPwr_kept]; done)
    | (simp only [State.raise_kept, State.setPwr_kept]; first | with_reducible rfl | (apply State.kept_congr <;> with_reducible rfl))
    | (grind [State.kept, State.raise_kept, State.setPwr_kept, State.foldl_kept])
    | rfl

theorem State.grantExpiry_kept (s : State) :
    (State.grantExpiry s).kept = s.kept := by
  unfold State.grantExpiry; (try dsimp only); (repeat' split) <;> first
    | with_reducible rfl
    | (apply State.kept_congr <;> with_reducible rfl)
    | (simp only [State.raise_kept, State.setPwr_kept]; done)
    | (simp only [State.raise_kept, State.setPwr_kept]; first | with_reducible rfl | (apply State.kept_congr <;> with_reducible rfl))
    | (grind [State.kept, State.raise_kept, State.setPwr_kept, State.foldl_kept])
    | rfl

theorem State.paceBallast_kept (s : State) :
    (State.paceBallast s).kept = s.kept := by
  unfold State.paceBallast; (try dsimp only); (repeat' split) <;> first
    | with_reducible rfl
    | (apply State.kept_congr <;> with_reducible rfl)
    | (simp only [State.setBox_kept]; done)
    | (simp only [State.setBox_kept]; first | with_reducible rfl | (apply State.kept_congr <;> with_reducible rfl))
    | (grind [State.kept, State.setBox_kept, State.foldl_kept])
    | rfl

theorem State.sumBallast_kept (s : State) :
    (State.sumBallast s).kept = s.kept := by
  unfold State.sumBallast; (try dsimp only); (repeat' split) <;> first
    | with_reducible rfl
    | (apply State.kept_congr <;> with_reducible rfl)
    | (grind [State.kept, State.foldl_kept])
    | rfl

theorem State.controlPeriod_kept (s : State) (rails : List (BitVec 10)) (duty : List (BitVec 7)) (hbm : List (BitVec 7)) (temps : List (BitVec 8)) (volt : BitVec 16) (watts : BitVec 12) :
    (State.controlPeriod s rails duty hbm temps volt watts).kept = s.kept := by
  unfold State.controlPeriod; (try dsimp only); (repeat' split) <;> first
    | with_reducible rfl
    | (apply State.kept_congr <;> with_reducible rfl)
    | (simp only [State.sumBallast_kept, State.paceBallast_kept, State.setPwr_kept]; done)
    | (simp only [State.sumBallast_kept, State.paceBallast_kept, State.setPwr_kept]; first | with_reducible rfl | (apply State.kept_congr <;> with_reducible rfl))
    | (grind [State.kept, State.sumBallast_kept, State.paceBallast_kept, State.setPwr_kept, State.foldl_kept])
    | rfl

theorem State.capCommit_kept (s : State) :
    (State.capCommit s).kept = s.kept := by
  unfold State.capCommit; (try dsimp only); (repeat' split) <;> first
    | with_reducible rfl
    | (apply State.kept_congr <;> with_reducible rfl)
    | (grind [State.kept, State.foldl_kept])
    | rfl

theorem State.untrust_kept (s : State) (estimate : BitVec 16) (measured : BitVec 16) (phases : List (BitVec 16)) :
    (State.untrust s estimate measured phases).kept = s.kept := by
  unfold State.untrust; (try dsimp only); (repeat' split) <;> first
    | with_reducible rfl
    | (apply State.kept_congr <;> with_reducible rfl)
    | (simp only [State.raise_kept, State.setPwr_kept]; done)
    | (simp only [State.raise_kept, State.setPwr_kept]; first | with_reducible rfl | (apply State.kept_congr <;> with_reducible rfl))
    | (grind [State.kept, State.raise_kept, State.setPwr_kept, State.foldl_kept])
    | rfl

theorem State.trust_kept (s : State) (estimate : BitVec 16) (measured : BitVec 16) :
    (State.trust s estimate measured).kept = s.kept := by
  unfold State.trust; (try dsimp only); (repeat' split) <;> first
    | with_reducible rfl
    | (apply State.kept_congr <;> with_reducible rfl)
    | (simp only [State.raise_kept, State.setPwr_kept]; done)
    | (simp only [State.raise_kept, State.setPwr_kept]; first | with_reducible rfl | (apply State.kept_congr <;> with_reducible rfl))
    | (grind [State.kept, State.raise_kept, State.setPwr_kept, State.foldl_kept])
    | rfl

theorem State.hwLimit_kept (s : State) (average : BitVec 16) :
    (State.hwLimit s average).kept = s.kept := by
  unfold State.hwLimit; (try dsimp only); (repeat' split) <;> first
    | with_reducible rfl
    | (apply State.kept_congr <;> with_reducible rfl)
    | (simp only [State.raise_kept, State.setPwr_kept]; done)
    | (simp only [State.raise_kept, State.setPwr_kept]; first | with_reducible rfl | (apply State.kept_congr <;> with_reducible rfl))
    | (grind [State.kept, State.raise_kept, State.setPwr_kept, State.foldl_kept])
    | rfl

theorem withDie_kept (die : BitVec 4) (s : State) :
    ∀ t, (withDie die s) = .next t → t.kept = s.kept := by
  intro t h; unfold withDie at h; grind [State.kept]

/-! ### Clock -/

theorem State.tickLine_kept (s : State) :
    (State.tickLine s).kept = s.kept := by
  unfold State.tickLine; (try dsimp only); (repeat' split) <;> first
    | with_reducible rfl
    | (apply State.kept_congr <;> with_reducible rfl)
    | (grind [State.kept, State.foldl_kept])
    | rfl

theorem State.tickBeats_kept (s : State) :
    (State.tickBeats s).kept = s.kept := by
  unfold State.tickBeats; (try dsimp only); (repeat' split) <;> first
    | with_reducible rfl
    | (apply State.kept_congr <;> with_reducible rfl)
    | (grind [State.kept, State.foldl_kept])
    | rfl

theorem State.tick_kept (s : State) :
    (State.tick s).kept = s.kept := by
  unfold State.tick; (try dsimp only); (repeat' split) <;> first
    | with_reducible rfl
    | (apply State.kept_congr <;> with_reducible rfl)
    | (simp only [State.tickLine_kept, State.tickBeats_kept]; done)
    | (simp only [State.tickLine_kept, State.tickBeats_kept]; first | with_reducible rfl | (apply State.kept_congr <;> with_reducible rfl))
    | (grind [State.kept, State.tickLine_kept, State.tickBeats_kept, State.foldl_kept])
    | rfl

/-! ### Collective -/

theorem State.contribution_kept (s : State) :
    (State.contribution s).kept = s.kept := by
  unfold State.contribution; (try dsimp only); (repeat' split) <;> first
    | with_reducible rfl
    | (apply State.kept_congr <;> with_reducible rfl)
    | (simp only [State.endPart_kept, State.colPaths_kept, State.admitAll_kept]; done)
    | (simp only [State.endPart_kept, State.colPaths_kept, State.admitAll_kept]; first | with_reducible rfl | (apply State.kept_congr <;> with_reducible rfl))
    | (grind [State.kept, State.endPart_kept, State.colPaths_kept, State.admitAll_kept, State.foldl_kept])
    | rfl

theorem State.verMismatch_kept (s : State) (h : ColHdr) (mine : Nat) :
    (State.verMismatch s h mine).kept = s.kept := by
  unfold State.verMismatch; (try dsimp only); (repeat' split) <;> first
    | with_reducible rfl
    | (apply State.kept_congr <;> with_reducible rfl)
    | (simp only [State.verEvent_kept, State.admitAll_kept, State.endOp_kept, State.endWaiting_kept]; done)
    | (simp only [State.verEvent_kept, State.admitAll_kept, State.endOp_kept, State.endWaiting_kept]; first | with_reducible rfl | (apply State.kept_congr <;> with_reducible rfl))
    | (grind [State.kept, State.verEvent_kept, State.admitAll_kept, State.endOp_kept, State.endWaiting_kept, State.foldl_kept])
    | rfl

theorem State.withOp_kept (s : State) (h : ColHdr) (w : State) (f : ColOp → State) (hw : w.kept = s.kept) (hf : ∀ o, (f o).kept = s.kept) :
    (s.withOp h w f).kept = s.kept := by
  unfold State.withOp; dsimp only; (repeat' split) <;> first | rfl | exact hf _ | exact hw | exact State.verMismatch_kept _ _ _

theorem State.colData_kept (s : State) (h : ColHdr) (offset : Nat) (bytes : List (Byte × Bool)) : (s.colData h offset bytes).kept = s.kept := by
  unfold State.colData; dsimp only
  split
  · rfl
  · exact State.withOp_kept _ _ _ _ rfl fun o => (State.colPaths_kept _).trans (State.takeData_kept _ _ _)

theorem State.acked_kept (s : State) (o : ColOp) :
    (State.acked s o).kept = s.kept := by
  unfold State.acked; (try dsimp only); (repeat' split) <;> first
    | with_reducible rfl
    | (apply State.kept_congr <;> with_reducible rfl)
    | (simp only [State.colPut_kept]; done)
    | (simp only [State.colPut_kept]; first | with_reducible rfl | (apply State.kept_congr <;> with_reducible rfl))
    | (grind [State.kept, State.colPut_kept, State.foldl_kept])
    | rfl

theorem State.colAck_kept (s : State) (h : ColHdr) : (s.colAck h).kept = s.kept := by
  unfold State.colAck
  (repeat' split) <;> first | rfl | exact State.withOp_kept _ _ _ _ rfl fun o => State.acked_kept _ _

theorem State.colAbort_kept (s : State) (h : ColHdr) :
    (State.colAbort s h).kept = s.kept := by
  unfold State.colAbort; (try dsimp only); (repeat' split) <;> first
    | with_reducible rfl
    | (apply State.kept_congr <;> with_reducible rfl)
    | (simp only [State.admitAll_kept, State.endOp_kept, State.endWaiting_kept]; done)
    | (simp only [State.admitAll_kept, State.endOp_kept, State.endWaiting_kept]; first | with_reducible rfl | (apply State.kept_congr <;> with_reducible rfl))
    | (grind [State.kept, State.admitAll_kept, State.endOp_kept, State.endWaiting_kept, State.foldl_kept])
    | rfl

theorem State.colTimeout_kept (s : State) (g : Nat) (n : Nat) (slot : Nat) :
    (State.colTimeout s g n slot).kept = s.kept := by
  unfold State.colTimeout; (try dsimp only); (repeat' split) <;> first
    | with_reducible rfl
    | (apply State.kept_congr <;> with_reducible rfl)
    | (simp only [State.admitAll_kept, State.endOp_kept]; done)
    | (simp only [State.admitAll_kept, State.endOp_kept]; first | with_reducible rfl | (apply State.kept_congr <;> with_reducible rfl))
    | (grind [State.kept, State.admitAll_kept, State.endOp_kept, State.foldl_kept])
    | rfl

theorem State.islandWrite_kept (s : State) (eth : Bool) (h : ColHdr) (offset : Nat) (bytes : List (Byte × Bool)) :
    (State.islandWrite s eth h offset bytes).kept = s.kept := by
  unfold State.islandWrite; (try dsimp only); (repeat' split) <;> first
    | with_reducible rfl
    | (apply State.kept_congr <;> with_reducible rfl)
    | (simp only [State.colData_kept]; done)
    | (simp only [State.colData_kept]; first | with_reducible rfl | (apply State.kept_congr <;> with_reducible rfl))
    | (grind [State.kept, State.colData_kept, State.foldl_kept])
    | rfl

theorem State.mixed_kept (s : State) :
    (State.mixed s).kept = s.kept := by
  unfold State.mixed; (try dsimp only); (repeat' split) <;> first
    | with_reducible rfl
    | (apply State.kept_congr <;> with_reducible rfl)
    | (grind [State.kept, State.foldl_kept])
    | rfl

/-! ### Firmware -/

theorem State.sideError_kept (s : State) (code : Nat) :
    (State.sideError s code).kept = s.kept := by
  unfold State.sideError; (try dsimp only); (repeat' split) <;> first
    | with_reducible rfl
    | (apply State.kept_congr <;> with_reducible rfl)
    | (simp only [State.reply_kept]; done)
    | (simp only [State.reply_kept]; first | with_reducible rfl | (apply State.kept_congr <;> with_reducible rfl))
    | (grind [State.kept, State.reply_kept, State.foldl_kept])
    | rfl

theorem State.startRequest_kept (s : State) (kind : StartKind) (clear : Bool) (staged : Bool) (bad : List (BitVec 4)) (t : Training) :
    (State.startRequest s kind clear staged bad t).kept = s.kept := by
  unfold State.startRequest; (try dsimp only); (repeat' split) <;> first
    | with_reducible rfl
    | (apply State.kept_congr <;> with_reducible rfl)
    | (simp only [State.sideError_kept, State.reply_kept, State.askStart_kept]; done)
    | (simp only [State.sideError_kept, State.reply_kept, State.askStart_kept]; first | with_reducible rfl | (apply State.kept_congr <;> with_reducible rfl))
    | (grind [State.kept, State.sideError_kept, State.reply_kept, State.askStart_kept, State.foldl_kept])
    | rfl

theorem State.startFailed_kept (s : State) (reason : Nat) (step : Nat) (stack : Nat) (channel : Nat) (lane : Nat) :
    (State.startFailed s reason step stack channel lane).kept = s.kept := by
  unfold State.startFailed; (try dsimp only); (repeat' split) <;> first
    | with_reducible rfl
    | (apply State.kept_congr <;> with_reducible rfl)
    | (simp only [State.atStep_kept, State.raise_kept, State.failStart_kept]; done)
    | (simp only [State.atStep_kept, State.raise_kept, State.failStart_kept]; first | with_reducible rfl | (apply State.kept_congr <;> with_reducible rfl))
    | (grind [State.kept, State.atStep_kept, State.raise_kept, State.failStart_kept, State.foldl_kept])
    | rfl

theorem State.startTimeout_kept (s : State) :
    (State.startTimeout s).kept = s.kept := by
  unfold State.startTimeout; (try dsimp only); (repeat' split) <;> first
    | with_reducible rfl
    | (apply State.kept_congr <;> with_reducible rfl)
    | (simp only [State.failStart_kept]; done)
    | (simp only [State.failStart_kept]; first | with_reducible rfl | (apply State.kept_congr <;> with_reducible rfl))
    | (grind [State.kept, State.failStart_kept, State.foldl_kept])
    | rfl

theorem State.readyTimeout_kept (s : State) :
    (State.readyTimeout s).kept = s.kept := by
  unfold State.readyTimeout; (try dsimp only); (repeat' split) <;> first
    | with_reducible rfl
    | (apply State.kept_congr <;> with_reducible rfl)
    | (simp only [State.failStart_kept, State.atStep_kept]; done)
    | (simp only [State.failStart_kept, State.atStep_kept]; first | with_reducible rfl | (apply State.kept_congr <;> with_reducible rfl))
    | (grind [State.kept, State.failStart_kept, State.atStep_kept, State.foldl_kept])
    | rfl

theorem State.startRetry_kept (s : State) (bad : List (BitVec 4)) :
    (State.startRetry s bad).kept = s.kept := by
  unfold State.startRetry; (try dsimp only); (repeat' split) <;> first
    | with_reducible rfl
    | (apply State.kept_congr <;> with_reducible rfl)
    | (simp only [State.askStart_kept]; done)
    | (simp only [State.askStart_kept]; first | with_reducible rfl | (apply State.kept_congr <;> with_reducible rfl))
    | (grind [State.kept, State.askStart_kept, State.foldl_kept])
    | rfl

theorem State.onStaged_kept (s : State) (go : State → State) (h : ∀ s, (go s).kept = s.kept) : (s.onStaged go).kept = s.kept := by
  unfold State.onStaged; split
  · rw [h, State.useBundle_kept]
  · rfl

theorem State.fetchDone_kept (s : State) (b : Option Bundle) (t : Training) :
    (State.fetchDone s b t).kept = s.kept := by
  unfold State.fetchDone; (try dsimp only); (repeat' split) <;> first
    | with_reducible rfl
    | (apply State.kept_congr <;> with_reducible rfl)
    | (simp only [State.cancelAct_kept, State.stageBundle_kept, State.onStaged_kept, State.coldOn_kept, State.failStart_kept]; done)
    | (simp only [State.cancelAct_kept, State.stageBundle_kept, State.onStaged_kept, State.coldOn_kept, State.failStart_kept]; first | with_reducible rfl | (apply State.kept_congr <;> with_reducible rfl))
    | (grind [State.kept, State.cancelAct_kept, State.stageBundle_kept, State.onStaged_kept, State.coldOn_kept, State.failStart_kept, State.foldl_kept])
    | rfl

theorem State.fetchRetry_kept (s : State) :
    (State.fetchRetry s).kept = s.kept := by
  unfold State.fetchRetry; (try dsimp only); (repeat' split) <;> first
    | with_reducible rfl
    | (apply State.kept_congr <;> with_reducible rfl)
    | (grind [State.kept, State.foldl_kept])
    | rfl

theorem State.push_kept (s : State) (b : Bundle) :
    (State.push s b).kept = s.kept := by
  unfold State.push; (try dsimp only); (repeat' split) <;> first
    | with_reducible rfl
    | (apply State.kept_congr <;> with_reducible rfl)
    | (simp only [State.sideError_kept, State.stageBundle_kept]; done)
    | (simp only [State.sideError_kept, State.stageBundle_kept]; first | with_reducible rfl | (apply State.kept_congr <;> with_reducible rfl))
    | (grind [State.kept, State.sideError_kept, State.stageBundle_kept, State.foldl_kept])
    | rfl

theorem State.tryActivate_kept (s : State) :
    (State.tryActivate s).kept = s.kept := by
  unfold State.tryActivate; (try dsimp only); (repeat' split) <;> first
    | with_reducible rfl
    | (apply State.kept_congr <;> with_reducible rfl)
    | (simp only [State.raise_kept]; done)
    | (simp only [State.raise_kept]; first | with_reducible rfl | (apply State.kept_congr <;> with_reducible rfl))
    | (grind [State.kept, State.raise_kept, State.foldl_kept])
    | rfl

theorem State.activate_kept (s : State) :
    (State.activate s).kept = s.kept := by
  unfold State.activate; (try dsimp only); (repeat' split) <;> first
    | with_reducible rfl
    | (apply State.kept_congr <;> with_reducible rfl)
    | (simp only [State.sideError_kept, State.raise_kept, State.tryActivate_kept]; done)
    | (simp only [State.sideError_kept, State.raise_kept, State.tryActivate_kept]; first | with_reducible rfl | (apply State.kept_congr <;> with_reducible rfl))
    | (grind [State.kept, State.sideError_kept, State.raise_kept, State.tryActivate_kept, State.foldl_kept])
    | rfl

theorem State.activationBegin_kept (s : State) :
    (State.activationBegin s).kept = s.kept := by
  unfold State.activationBegin; (try dsimp only); (repeat' split) <;> first
    | with_reducible rfl
    | (apply State.kept_congr <;> with_reducible rfl)
    | (simp only [State.tryActivate_kept]; done)
    | (simp only [State.tryActivate_kept]; first | with_reducible rfl | (apply State.kept_congr <;> with_reducible rfl))
    | (grind [State.kept, State.tryActivate_kept, State.foldl_kept])
    | rfl

theorem State.activationCancel_kept (s : State) :
    (State.activationCancel s).kept = s.kept := by
  unfold State.activationCancel; (try dsimp only); (repeat' split) <;> first
    | with_reducible rfl
    | (apply State.kept_congr <;> with_reducible rfl)
    | (simp only [State.cancelAct_kept]; done)
    | (simp only [State.cancelAct_kept]; first | with_reducible rfl | (apply State.kept_congr <;> with_reducible rfl))
    | (grind [State.kept, State.cancelAct_kept, State.foldl_kept])
    | rfl

theorem State.revert_kept (s : State) (comp : Nat) (cause : Nat) :
    (State.revert s comp cause).kept = s.kept := by
  unfold State.revert; (try dsimp only); (repeat' split) <;> first
    | with_reducible rfl
    | (apply State.kept_congr <;> with_reducible rfl)
    | (simp only [State.deferredHolds_kept, State.lateDetach_kept, State.raise_kept]; done)
    | (simp only [State.deferredHolds_kept, State.lateDetach_kept, State.raise_kept]; first | with_reducible rfl | (apply State.kept_congr <;> with_reducible rfl))
    | (grind [State.kept, State.deferredHolds_kept, State.lateDetach_kept, State.raise_kept, State.foldl_kept])
    | rfl

theorem State.resumeTimeout_kept (s : State) :
    (State.resumeTimeout s).kept = s.kept := by
  unfold State.resumeTimeout; (try dsimp only); (repeat' split) <;> first
    | with_reducible rfl
    | (apply State.kept_congr <;> with_reducible rfl)
    | (simp only [State.revert_kept]; done)
    | (simp only [State.revert_kept]; first | with_reducible rfl | (apply State.kept_congr <;> with_reducible rfl))
    | (grind [State.kept, State.revert_kept, State.foldl_kept])
    | rfl

theorem State.protectionFault_kept (s : State) (core : Nat) (k : Nat) (addr : BitVec 64) :
    (State.protectionFault s core k addr).kept = s.kept := by
  unfold State.protectionFault; (try dsimp only); (repeat' split) <;> first
    | with_reducible rfl
    | (apply State.kept_congr <;> with_reducible rfl)
    | (simp only [State.raise_kept, State.ownFault_kept, State.endCause_kept]; done)
    | (simp only [State.raise_kept, State.ownFault_kept, State.endCause_kept]; first | with_reducible rfl | (apply State.kept_congr <;> with_reducible rfl))
    | (grind [State.kept, State.raise_kept, State.ownFault_kept, State.endCause_kept, State.foldl_kept])
    | rfl

theorem State.coreReload_kept (s : State) (core : Nat) (k : Nat) (t : Training) :
    (State.coreReload s core k t).kept = s.kept := by
  unfold State.coreReload; (try dsimp only); (repeat' split) <;> first
    | with_reducible rfl
    | (apply State.kept_congr <;> with_reducible rfl)
    | (simp only [State.askStart_kept]; done)
    | (simp only [State.askStart_kept]; first | with_reducible rfl | (apply State.kept_congr <;> with_reducible rfl))
    | (grind [State.kept, State.askStart_kept, State.foldl_kept])
    | rfl

theorem State.securityRestart_kept (s : State) :
    (State.securityRestart s).kept = s.kept := by
  unfold State.securityRestart; (try dsimp only); (repeat' split) <;> first
    | with_reducible rfl
    | (apply State.kept_congr <;> with_reducible rfl)
    | (simp only [State.sideError_kept]; done)
    | (simp only [State.sideError_kept]; first | with_reducible rfl | (apply State.kept_congr <;> with_reducible rfl))
    | (grind [State.kept, State.sideError_kept, State.foldl_kept])
    | rfl

theorem State.signature_kept (s : State) :
    (State.signature s).2.kept = s.kept := by
  unfold State.signature; (try dsimp only); (repeat' split) <;> first
    | with_reducible rfl
    | (apply State.kept_congr <;> with_reducible rfl)
    | (simp only [State.freshNat_kept]; done)
    | (simp only [State.freshNat_kept]; first | with_reducible rfl | (apply State.kept_congr <;> with_reducible rfl))
    | (grind [State.kept, State.freshNat_kept, State.foldl_kept])
    | rfl

theorem State.spdm_kept (s : State) (code : Nat) (nums : List Nat) (data : List Byte) :
    (State.spdm s code nums data).kept = s.kept := by
  unfold State.spdm; (try dsimp only); (repeat' split) <;> first
    | with_reducible rfl
    | (apply State.kept_congr <;> with_reducible rfl)
    | (simp only [State.reply_kept]; done)
    | (simp only [State.reply_kept]; first | with_reducible rfl | (apply State.kept_congr <;> with_reducible rfl))
    | (grind [State.kept, State.reply_kept, State.foldl_kept])
    | rfl

/-! ### Links -/

theorem State.modPort_kept (s : State) (p : Nat) (f : LnkPort → LnkPort) :
    (State.modPort s p f).kept = s.kept := by
  unfold State.modPort; (try dsimp only); (repeat' split) <;> first
    | with_reducible rfl
    | (apply State.kept_congr <;> with_reducible rfl)
    | (grind [State.kept, State.foldl_kept])
    | rfl

theorem State.tellPorts_kept (s : State) :
    (State.tellPorts s).kept = s.kept := by
  unfold State.tellPorts; (try dsimp only); (repeat' split) <;> first
    | with_reducible rfl
    | (apply State.kept_congr <;> with_reducible rfl)
    | (simp only [State.reply_kept]; done)
    | (simp only [State.reply_kept]; first | with_reducible rfl | (apply State.kept_congr <;> with_reducible rfl))
    | (grind [State.kept, State.reply_kept, State.foldl_kept])
    | rfl

theorem State.chooseParent_kept (s : State) :
    (State.chooseParent s).kept = s.kept := by
  unfold State.chooseParent; (try dsimp only); (repeat' split) <;> first
    | with_reducible rfl
    | (apply State.kept_congr <;> with_reducible rfl)
    | (simp only [State.raise_kept]; done)
    | (simp only [State.raise_kept]; first | with_reducible rfl | (apply State.kept_congr <;> with_reducible rfl))
    | (grind [State.kept, State.raise_kept, State.foldl_kept])
    | rfl

theorem State.portUp_kept (s : State) (p : Nat) :
    (State.portUp s p).kept = s.kept := by
  unfold State.portUp; (try dsimp only); (repeat' split) <;> first
    | with_reducible rfl
    | (apply State.kept_congr <;> with_reducible rfl)
    | (simp only [State.modPort_kept, State.tellPorts_kept, State.raise_kept]; done)
    | (simp only [State.modPort_kept, State.tellPorts_kept, State.raise_kept]; first | with_reducible rfl | (apply State.kept_congr <;> with_reducible rfl))
    | (grind [State.kept, State.modPort_kept, State.tellPorts_kept, State.raise_kept, State.foldl_kept])
    | rfl

theorem State.portQuarantine_kept (s : State) (p : Nat) (reason : Nat) :
    (State.portQuarantine s p reason).kept = s.kept := by
  unfold State.portQuarantine; (try dsimp only); (repeat' split) <;> first
    | with_reducible rfl
    | (apply State.kept_congr <;> with_reducible rfl)
    | (simp only [State.modPort_kept, State.tellPorts_kept, State.raise_kept]; done)
    | (simp only [State.modPort_kept, State.tellPorts_kept, State.raise_kept]; first | with_reducible rfl | (apply State.kept_congr <;> with_reducible rfl))
    | (grind [State.kept, State.modPort_kept, State.tellPorts_kept, State.raise_kept, State.foldl_kept])
    | rfl

theorem State.portDown_kept (s : State) (p : Nat) (cause : Nat) :
    (State.portDown s p cause).kept = s.kept := by
  unfold State.portDown; (try dsimp only); (repeat' split) <;> first
    | with_reducible rfl
    | (apply State.kept_congr <;> with_reducible rfl)
    | (simp only [State.tellPorts_kept, State.modPort_kept, State.raise_kept, State.originateHold_kept, State.colPaths_kept]; done)
    | (simp only [State.tellPorts_kept, State.modPort_kept, State.raise_kept, State.originateHold_kept, State.colPaths_kept]; first | with_reducible rfl | (apply State.kept_congr <;> with_reducible rfl))
    | (grind [State.kept, State.tellPorts_kept, State.modPort_kept, State.raise_kept, State.originateHold_kept, State.colPaths_kept, State.foldl_kept])
    | rfl

theorem State.frame_kept (s : State) (p : Nat) (valid : Bool) (vc : Bool) (seq : BitVec 12) (flit : List Byte) (pmask : BitVec 32) (c0 : List (BitVec 4)) (c1 : List (BitVec 4)) :
    (State.frame s p valid vc seq flit pmask c0 c1).kept = s.kept := by
  unfold State.frame; (try dsimp only); (repeat' split) <;> first
    | with_reducible rfl
    | (apply State.kept_congr <;> with_reducible rfl)
    | (simp only [State.reply_kept, State.modPort_kept]; done)
    | (simp only [State.reply_kept, State.modPort_kept]; first | with_reducible rfl | (apply State.kept_congr <;> with_reducible rfl))
    | (grind [State.kept, State.reply_kept, State.modPort_kept, State.foldl_kept])
    | rfl

theorem State.nak_kept (s : State) (p : Nat) (seq : BitVec 12) :
    (State.nak s p seq).kept = s.kept := by
  unfold State.nak; (try dsimp only); (repeat' split) <;> first
    | with_reducible rfl
    | (apply State.kept_congr <;> with_reducible rfl)
    | (simp only [State.modPort_kept, State.portDown_kept, State.reply_kept]; done)
    | (simp only [State.modPort_kept, State.portDown_kept, State.reply_kept]; first | with_reducible rfl | (apply State.kept_congr <;> with_reducible rfl))
    | (grind [State.kept, State.modPort_kept, State.portDown_kept, State.reply_kept, State.foldl_kept])
    | rfl

theorem State.ack_kept (s : State) (p : Nat) (seq : BitVec 12) :
    (State.ack s p seq).kept = s.kept := by
  unfold State.ack; (try dsimp only); (repeat' split) <;> first
    | with_reducible rfl
    | (apply State.kept_congr <;> with_reducible rfl)
    | (simp only [State.modPort_kept]; done)
    | (simp only [State.modPort_kept]; first | with_reducible rfl | (apply State.kept_congr <;> with_reducible rfl))
    | (grind [State.kept, State.modPort_kept, State.foldl_kept])
    | rfl

theorem State.credit_kept (s : State) (p : Nat) (vc : Bool) (n : Nat) :
    (State.credit s p vc n).kept = s.kept := by
  unfold State.credit; (try dsimp only); (repeat' split) <;> first
    | with_reducible rfl
    | (apply State.kept_congr <;> with_reducible rfl)
    | (simp only [State.modPort_kept]; done)
    | (simp only [State.modPort_kept]; first | with_reducible rfl | (apply State.kept_congr <;> with_reducible rfl))
    | (grind [State.kept, State.modPort_kept, State.foldl_kept])
    | rfl

theorem State.laneFailing_kept (s : State) (p : Nat) (lane : BitVec 4) (lost : Bool) (seq : BitVec 12) :
    (State.laneFailing s p lane lost seq).kept = s.kept := by
  unfold State.laneFailing; (try dsimp only); (repeat' split) <;> first
    | with_reducible rfl
    | (apply State.kept_congr <;> with_reducible rfl)
    | (simp only [State.modPort_kept, State.portDown_kept, State.raise_kept, State.reply_kept]; done)
    | (simp only [State.modPort_kept, State.portDown_kept, State.raise_kept, State.reply_kept]; first | with_reducible rfl | (apply State.kept_congr <;> with_reducible rfl))
    | (grind [State.kept, State.modPort_kept, State.portDown_kept, State.raise_kept, State.reply_kept, State.foldl_kept])
    | rfl

theorem State.laneSwitch_kept (s : State) (p : Nat) (lane : BitVec 4) (seq : BitVec 12) :
    (State.laneSwitch s p lane seq).kept = s.kept := by
  unfold State.laneSwitch; (try dsimp only); (repeat' split) <;> first
    | with_reducible rfl
    | (apply State.kept_congr <;> with_reducible rfl)
    | (simp only [State.modPort_kept]; done)
    | (simp only [State.modPort_kept]; first | with_reducible rfl | (apply State.kept_congr <;> with_reducible rfl))
    | (grind [State.kept, State.modPort_kept, State.foldl_kept])
    | rfl

theorem State.moveRx_kept (s : State) (p : Nat) (m : LaneMove) :
    (State.moveRx s p m).kept = s.kept := by
  unfold State.moveRx; (try dsimp only); (repeat' split) <;> first
    | with_reducible rfl
    | (apply State.kept_congr <;> with_reducible rfl)
    | (simp only [State.modPort_kept, State.raise_kept]; done)
    | (simp only [State.modPort_kept, State.raise_kept]; first | with_reducible rfl | (apply State.kept_congr <;> with_reducible rfl))
    | (grind [State.kept, State.modPort_kept, State.raise_kept, State.foldl_kept])
    | rfl

theorem State.moveTx_kept (s : State) (p : Nat) (m : LaneMove) :
    (State.moveTx s p m).kept = s.kept := by
  unfold State.moveTx; (try dsimp only); (repeat' split) <;> first
    | with_reducible rfl
    | (apply State.kept_congr <;> with_reducible rfl)
    | (simp only [State.modPort_kept, State.reply_kept, State.raise_kept]; done)
    | (simp only [State.modPort_kept, State.reply_kept, State.raise_kept]; first | with_reducible rfl | (apply State.kept_congr <;> with_reducible rfl))
    | (grind [State.kept, State.modPort_kept, State.reply_kept, State.raise_kept, State.foldl_kept])
    | rfl

theorem State.laneApply_kept (s : State) (p : Nat) (transmit : Bool) :
    (State.laneApply s p transmit).kept = s.kept := by
  unfold State.laneApply; (try dsimp only); (repeat' split) <;> first
    | with_reducible rfl
    | (apply State.kept_congr <;> with_reducible rfl)
    | (simp only [State.moveTx_kept, State.moveRx_kept]; done)
    | (simp only [State.moveTx_kept, State.moveRx_kept]; first | with_reducible rfl | (apply State.kept_congr <;> with_reducible rfl))
    | (grind [State.kept, State.moveTx_kept, State.moveRx_kept, State.foldl_kept])
    | rfl

theorem State.laneAck_kept (s : State) (p : Nat) (lane : BitVec 4) :
    (State.laneAck s p lane).kept = s.kept := by
  unfold State.laneAck; (try dsimp only); (repeat' split) <;> first
    | with_reducible rfl
    | (apply State.kept_congr <;> with_reducible rfl)
    | (simp only [State.moveRx_kept]; done)
    | (simp only [State.moveRx_kept]; first | with_reducible rfl | (apply State.kept_congr <;> with_reducible rfl))
    | (grind [State.kept, State.moveRx_kept, State.foldl_kept])
    | rfl

theorem State.sendHeartbeat_kept (s : State) (p : Nat) :
    (State.sendHeartbeat s p).kept = s.kept := by
  unfold State.sendHeartbeat; (try dsimp only); (repeat' split) <;> first
    | with_reducible rfl
    | (apply State.kept_congr <;> with_reducible rfl)
    | (simp only [State.reply_kept, State.modPort_kept]; done)
    | (simp only [State.reply_kept, State.modPort_kept]; first | with_reducible rfl | (apply State.kept_congr <;> with_reducible rfl))
    | (grind [State.kept, State.reply_kept, State.modPort_kept, State.foldl_kept])
    | rfl

theorem State.heartbeat_kept (s : State) (p : Nat) (hold : BitVec 4) (dist : Option (BitVec 6)) :
    (State.heartbeat s p hold dist).kept = s.kept := by
  unfold State.heartbeat; (try dsimp only); (repeat' split) <;> first
    | with_reducible rfl
    | (apply State.kept_congr <;> with_reducible rfl)
    | (simp only [State.chooseParent_kept, State.modPort_kept]; done)
    | (simp only [State.chooseParent_kept, State.modPort_kept]; first | with_reducible rfl | (apply State.kept_congr <;> with_reducible rfl))
    | (grind [State.kept, State.chooseParent_kept, State.modPort_kept, State.foldl_kept])
    | rfl

theorem State.watchdog_kept (s : State) :
    (State.watchdog s).kept = s.kept := by
  unfold State.watchdog; (try dsimp only); (repeat' split) <;> first
    | with_reducible rfl
    | (apply State.kept_congr <;> with_reducible rfl)
    | (grind [State.kept, State.foldl_kept])
    | rfl

theorem State.laneTrained_kept (s : State) (p : Nat) (levels : BitVec 4) (asym : Int) :
    (State.laneTrained s p levels asym).kept = s.kept := by
  unfold State.laneTrained; (try dsimp only); (repeat' split) <;> first
    | with_reducible rfl
    | (apply State.kept_congr <;> with_reducible rfl)
    | (simp only [State.modPort_kept, State.reply_kept]; done)
    | (simp only [State.modPort_kept, State.reply_kept]; first | with_reducible rfl | (apply State.kept_congr <;> with_reducible rfl))
    | (grind [State.kept, State.modPort_kept, State.reply_kept, State.foldl_kept])
    | rfl

theorem State.discover_kept (s : State) (p : Nat) (id : BitVec 15) (port : BitVec 3) (levels : BitVec 4) :
    (State.discover s p id port levels).kept = s.kept := by
  unfold State.discover; (try dsimp only); (repeat' split) <;> first
    | with_reducible rfl
    | (apply State.kept_congr <;> with_reducible rfl)
    | (simp only [State.reply_kept, State.modPort_kept, State.portUp_kept, State.portQuarantine_kept]; done)
    | (simp only [State.reply_kept, State.modPort_kept, State.portUp_kept, State.portQuarantine_kept]; first | with_reducible rfl | (apply State.kept_congr <;> with_reducible rfl))
    | (grind [State.kept, State.reply_kept, State.modPort_kept, State.portUp_kept, State.portQuarantine_kept, State.foldl_kept])
    | rfl

theorem State.accept_kept (s : State) (p : Nat) :
    (State.accept s p).kept = s.kept := by
  unfold State.accept; (try dsimp only); (repeat' split) <;> first
    | with_reducible rfl
    | (apply State.kept_congr <;> with_reducible rfl)
    | (simp only [State.modPort_kept, State.portUp_kept]; done)
    | (simp only [State.modPort_kept, State.portUp_kept]; first | with_reducible rfl | (apply State.kept_congr <;> with_reducible rfl))
    | (grind [State.kept, State.modPort_kept, State.portUp_kept, State.foldl_kept])
    | rfl

theorem State.reject_kept (s : State) (p : Nat) :
    (State.reject s p).kept = s.kept := by
  unfold State.reject; (try dsimp only); (repeat' split) <;> first
    | with_reducible rfl
    | (apply State.kept_congr <;> with_reducible rfl)
    | (simp only [State.portQuarantine_kept, State.modPort_kept]; done)
    | (simp only [State.portQuarantine_kept, State.modPort_kept]; first | with_reducible rfl | (apply State.kept_congr <;> with_reducible rfl))
    | (grind [State.kept, State.portQuarantine_kept, State.modPort_kept, State.foldl_kept])
    | rfl

theorem State.trainTimeout_kept (s : State) (p : Nat) :
    (State.trainTimeout s p).kept = s.kept := by
  unfold State.trainTimeout; (try dsimp only); (repeat' split) <;> first
    | with_reducible rfl
    | (apply State.kept_congr <;> with_reducible rfl)
    | (simp only [State.modPort_kept, State.tellPorts_kept, State.raise_kept]; done)
    | (simp only [State.modPort_kept, State.tellPorts_kept, State.raise_kept]; first | with_reducible rfl | (apply State.kept_congr <;> with_reducible rfl))
    | (grind [State.kept, State.modPort_kept, State.tellPorts_kept, State.raise_kept, State.foldl_kept])
    | rfl

theorem State.retrain_kept (s : State) (p : Nat) :
    (State.retrain s p).kept = s.kept := by
  unfold State.retrain; (try dsimp only); (repeat' split) <;> first
    | with_reducible rfl
    | (apply State.kept_congr <;> with_reducible rfl)
    | (simp only [State.reply_kept, State.modPort_kept]; done)
    | (simp only [State.reply_kept, State.modPort_kept]; first | with_reducible rfl | (apply State.kept_congr <;> with_reducible rfl))
    | (grind [State.kept, State.reply_kept, State.modPort_kept, State.foldl_kept])
    | rfl

theorem State.replan_kept (s : State) (p : Nat) :
    (State.replan s p).kept = s.kept := by
  unfold State.replan; (try dsimp only); (repeat' split) <;> first
    | with_reducible rfl
    | (apply State.kept_congr <;> with_reducible rfl)
    | (simp only [State.modPort_kept, State.reply_kept, State.portUp_kept, State.portQuarantine_kept, State.tellPorts_kept, State.raise_kept]; done)
    | (simp only [State.modPort_kept, State.reply_kept, State.portUp_kept, State.portQuarantine_kept, State.tellPorts_kept, State.raise_kept]; first | with_reducible rfl | (apply State.kept_congr <;> with_reducible rfl))
    | (grind [State.kept, State.modPort_kept, State.reply_kept, State.portUp_kept, State.portQuarantine_kept, State.tellPorts_kept, State.raise_kept, State.foldl_kept])
    | rfl

theorem State.commitPlan_kept (s : State) :
    (State.commitPlan s).kept = s.kept := by
  unfold State.commitPlan; (try dsimp only); (repeat' split) <;> first
    | with_reducible rfl
    | (apply State.kept_congr <;> with_reducible rfl)
    | (simp only [State.replan_kept, State.raise_kept]; done)
    | (simp only [State.replan_kept, State.raise_kept]; first | with_reducible rfl | (apply State.kept_congr <;> with_reducible rfl))
    | (grind [State.kept, State.replan_kept, State.raise_kept, State.foldl_kept])
    | rfl

theorem State.commitRoutes_kept (s : State) :
    (State.commitRoutes s).kept = s.kept := by
  unfold State.commitRoutes; (try dsimp only); (repeat' split) <;> first
    | with_reducible rfl
    | (apply State.kept_congr <;> with_reducible rfl)
    | (simp only [State.raise_kept, State.floodRelease_kept]; done)
    | (simp only [State.raise_kept, State.floodRelease_kept]; first | with_reducible rfl | (apply State.kept_congr <;> with_reducible rfl))
    | (grind [State.kept, State.raise_kept, State.floodRelease_kept, State.foldl_kept])
    | rfl

theorem State.dropPacket_kept (s : State) (p : Nat) (dst : Nat) (cause : Nat) :
    (State.dropPacket s p dst cause).kept = s.kept := by
  unfold State.dropPacket; (try dsimp only); (repeat' split) <;> first
    | with_reducible rfl
    | (apply State.kept_congr <;> with_reducible rfl)
    | (simp only [State.modPort_kept, State.raise_kept]; done)
    | (simp only [State.modPort_kept, State.raise_kept]; first | with_reducible rfl | (apply State.kept_congr <;> with_reducible rfl))
    | (grind [State.kept, State.modPort_kept, State.raise_kept, State.foldl_kept])
    | rfl

theorem State.popFlits_kept (s : State) (p : Nat) (vc : Bool) (n : Nat) :
    (State.popFlits s p vc n).kept = s.kept := by
  unfold State.popFlits; (try dsimp only); (repeat' split) <;> first
    | with_reducible rfl
    | (apply State.kept_congr <;> with_reducible rfl)
    | (simp only [State.reply_kept, State.modPort_kept]; done)
    | (simp only [State.reply_kept, State.modPort_kept]; first | with_reducible rfl | (apply State.kept_congr <;> with_reducible rfl))
    | (grind [State.kept, State.reply_kept, State.modPort_kept, State.foldl_kept])
    | rfl

theorem State.forward_kept (s : State) (p : Nat) (vc : Bool) :
    (State.forward s p vc).kept = s.kept := by
  unfold State.forward; (try dsimp only); (repeat' split) <;> first
    | with_reducible rfl
    | (apply State.kept_congr <;> with_reducible rfl)
    | (simp only [State.dropPacket_kept, State.popFlits_kept, State.reply_kept, State.modPort_kept]; done)
    | (simp only [State.dropPacket_kept, State.popFlits_kept, State.reply_kept, State.modPort_kept]; first | with_reducible rfl | (apply State.kept_congr <;> with_reducible rfl))
    | (grind [State.kept, State.dropPacket_kept, State.popFlits_kept, State.reply_kept, State.modPort_kept, State.foldl_kept])
    | rfl

theorem State.forwardNamed_kept (s : State) (p : Nat) (vc : Bool) (named : Flit → Bool) :
    (State.forwardNamed s p vc named).kept = s.kept := by
  unfold State.forwardNamed; split
  · rfl
  · split
    · exact State.forward_kept s p vc
    · rfl

theorem State.syncSend_kept (s : State) :
    (State.syncSend s).kept = s.kept := by
  unfold State.syncSend; (try dsimp only); (repeat' split) <;> first
    | with_reducible rfl
    | (apply State.kept_congr <;> with_reducible rfl)
    | (simp only [State.reply_kept]; done)
    | (simp only [State.reply_kept]; first | with_reducible rfl | (apply State.kept_congr <;> with_reducible rfl))
    | (grind [State.kept, State.reply_kept, State.foldl_kept])
    | rfl

theorem State.showOffset_kept (s : State) (o : Int) :
    (State.showOffset s o).kept = s.kept := by
  unfold State.showOffset; (try dsimp only); (repeat' split) <;> first
    | with_reducible rfl
    | (apply State.kept_congr <;> with_reducible rfl)
    | (simp only [State.freshNat_kept]; done)
    | (simp only [State.freshNat_kept]; first | with_reducible rfl | (apply State.kept_congr <;> with_reducible rfl))
    | (grind [State.kept, State.freshNat_kept, State.foldl_kept])
    | rfl

theorem State.syncAnswer_kept (s : State) (t2 : Nat) (t3 : Nat) (settle : Bool) :
    (State.syncAnswer s t2 t3 settle).kept = s.kept := by
  unfold State.syncAnswer; (try dsimp only); (repeat' split) <;> first
    | with_reducible rfl
    | (apply State.kept_congr <;> with_reducible rfl)
    | (simp only [State.showOffset_kept, State.raise_kept]; done)
    | (simp only [State.showOffset_kept, State.raise_kept]; first | with_reducible rfl | (apply State.kept_congr <;> with_reducible rfl))
    | (grind [State.kept, State.showOffset_kept, State.raise_kept, State.foldl_kept])
    | rfl

theorem State.parentLost_kept (s : State) (rootLost : Bool) :
    (State.parentLost s rootLost).kept = s.kept := by
  unfold State.parentLost; (try dsimp only); (repeat' split) <;> first
    | with_reducible rfl
    | (apply State.kept_congr <;> with_reducible rfl)
    | (simp only [State.chooseParent_kept]; done)
    | (simp only [State.chooseParent_kept]; first | with_reducible rfl | (apply State.kept_congr <;> with_reducible rfl))
    | (grind [State.kept, State.chooseParent_kept, State.foldl_kept])
    | rfl

theorem State.setLtRoot_kept (s : State) (v : BitVec 32) :
    (State.setLtRoot s v).kept = s.kept := by
  unfold State.setLtRoot; (try dsimp only); (repeat' split) <;> first
    | with_reducible rfl
    | (apply State.kept_congr <;> with_reducible rfl)
    | (simp only [State.chooseParent_kept]; done)
    | (simp only [State.chooseParent_kept]; first | with_reducible rfl | (apply State.kept_congr <;> with_reducible rfl))
    | (grind [State.kept, State.chooseParent_kept, State.foldl_kept])
    | rfl

theorem State.refuseRdma_kept (s : State) (qp : Nat) :
    (State.refuseRdma s qp).kept = s.kept := by
  unfold State.refuseRdma; (try dsimp only); (repeat' split) <;> first
    | with_reducible rfl
    | (apply State.kept_congr <;> with_reducible rfl)
    | (simp only [State.reply_kept]; done)
    | (simp only [State.reply_kept]; first | with_reducible rfl | (apply State.kept_congr <;> with_reducible rfl))
    | (grind [State.kept, State.reply_kept, State.foldl_kept])
    | rfl

theorem State.remoteWrite_kept (s : State) (qp : Nat) (key : BitVec 32) (addr : Nat) (data : List Byte) :
    (State.remoteWrite s qp key addr data).kept = s.kept := by
  unfold State.remoteWrite; (try dsimp only); (repeat' split) <;> first
    | with_reducible rfl
    | (apply State.kept_congr <;> with_reducible rfl)
    | (simp only [State.refuseRdma_kept, State.needSnoops_kept, State.reply_kept]; done)
    | (simp only [State.refuseRdma_kept, State.needSnoops_kept, State.reply_kept]; first | with_reducible rfl | (apply State.kept_congr <;> with_reducible rfl))
    | (grind [State.kept, State.refuseRdma_kept, State.needSnoops_kept, State.reply_kept, State.foldl_kept])
    | rfl

theorem State.remoteRead_kept (s : State) (qp : Nat) (key : BitVec 32) (addr : Nat) (n : Nat) :
    (State.remoteRead s qp key addr n).kept = s.kept := by
  unfold State.remoteRead; (try dsimp only); (repeat' split) <;> first
    | with_reducible rfl
    | (apply State.kept_congr <;> with_reducible rfl)
    | (simp only [State.refuseRdma_kept, State.needSnoops_kept, State.seenBytes_kept, State.reply_kept]; done)
    | (simp only [State.refuseRdma_kept, State.needSnoops_kept, State.seenBytes_kept, State.reply_kept]; first | with_reducible rfl | (apply State.kept_congr <;> with_reducible rfl))
    | (grind [State.kept, State.refuseRdma_kept, State.needSnoops_kept, State.seenBytes_kept, State.reply_kept, State.foldl_kept])
    | rfl

theorem State.workDone_kept (s : State) (work : Option Nat) (ok : Bool) (dst : Nat) (data : List Byte) :
    (State.workDone s work ok dst data).kept = s.kept := by
  unfold State.workDone; (try dsimp only); (repeat' split) <;> first
    | with_reducible rfl
    | (apply State.kept_congr <;> with_reducible rfl)
    | (simp only [State.putHbm_kept, State.acked_kept, State.admitAll_kept, State.endOp_kept]; done)
    | (simp only [State.putHbm_kept, State.acked_kept, State.admitAll_kept, State.endOp_kept]; first | with_reducible rfl | (apply State.kept_congr <;> with_reducible rfl))
    | (grind [State.kept, State.putHbm_kept, State.acked_kept, State.admitAll_kept, State.endOp_kept, State.foldl_kept])
    | rfl

theorem State.ethLink_kept (s : State) (eth : Bool) (speed : BitVec 2) :
    (State.ethLink s eth speed).kept = s.kept := by
  unfold State.ethLink; (try dsimp only); (repeat' split) <;> first
    | with_reducible rfl
    | (apply State.kept_congr <;> with_reducible rfl)
    | (simp only [State.raise_kept, State.colPaths_kept]; done)
    | (simp only [State.raise_kept, State.colPaths_kept]; first | with_reducible rfl | (apply State.kept_congr <;> with_reducible rfl))
    | (grind [State.kept, State.raise_kept, State.colPaths_kept, State.foldl_kept])
    | rfl

theorem State.setupRdma_kept (s : State) (region : Bool) (num : Nat) (base : Nat) (len : Nat) (key : BitVec 32) (eth : Bool) (peer : Nat) :
    (State.setupRdma s region num base len key eth peer).kept = s.kept := by
  unfold State.setupRdma; (try dsimp only); (repeat' split) <;> first
    | with_reducible rfl
    | (apply State.kept_congr <;> with_reducible rfl)
    | (grind [State.kept, State.foldl_kept])
    | rfl

theorem withPort_kept (p : BitVec 3) (s : State) (f : Nat → State) (h : ∀ k, (f k).kept = s.kept) : ∀ t, withPort p s f = .next t → t.kept = s.kept := by
  intro t ht; unfold withPort at ht; split at ht
  · cases ht
  · cases ht; split
    · exact h _
    · rfl

/-! ### Registers -/

theorem State.show_kept (s : State) (w : Word) : (s.show w).2.kept = s.kept := rfl

theorem State.modCtr_kept (s : State) (id : CellId) (f : CellCtr → CellCtr) :
    (State.modCtr s id f).kept = s.kept := by
  unfold State.modCtr; (try dsimp only); (repeat' split) <;> first
    | with_reducible rfl
    | (apply State.kept_congr <;> with_reducible rfl)
    | (simp only [State.modCell_kept]; done)
    | (simp only [State.modCell_kept]; first | with_reducible rfl | (apply State.kept_congr <;> with_reducible rfl))
    | (grind [State.kept, State.modCell_kept, State.foldl_kept])
    | rfl

theorem State.readCell_kept (s : State) (id : CellId) (off : Nat) :
    (State.readCell s id off).2.kept = s.kept := by
  unfold State.readCell; (try dsimp only); (repeat' split) <;> first
    | with_reducible rfl
    | (apply State.kept_congr <;> with_reducible rfl)
    | (simp only [State.show_kept, State.modCtr_kept]; done)
    | (simp only [State.show_kept, State.modCtr_kept]; first | with_reducible rfl | (apply State.kept_congr <;> with_reducible rfl))
    | (grind [State.kept, State.show_kept, State.modCtr_kept, State.foldl_kept])
    | rfl

theorem State.readBox_kept (s : State) (k : Nat) (off : Nat) :
    (State.readBox s k off).2.kept = s.kept := by
  unfold State.readBox; (try dsimp only); (repeat' split) <;> first
    | with_reducible rfl
    | (apply State.kept_congr <;> with_reducible rfl)
    | (simp only [State.show_kept, State.modCtr_kept]; done)
    | (simp only [State.show_kept, State.modCtr_kept]; first | with_reducible rfl | (apply State.kept_congr <;> with_reducible rfl))
    | (grind [State.kept, State.show_kept, State.modCtr_kept, State.foldl_kept])
    | rfl

theorem State.ttStatus_kept (s : State) (b : BitVec 3) :
    (State.ttStatus s b).2.kept = s.kept := by
  unfold State.ttStatus; (try dsimp only); (repeat' split) <;> first
    | with_reducible rfl
    | (apply State.kept_congr <;> with_reducible rfl)
    | (simp only [State.show_kept, State.freshNat_kept]; done)
    | (simp only [State.show_kept, State.freshNat_kept]; first | with_reducible rfl | (apply State.kept_congr <;> with_reducible rfl))
    | (grind [State.kept, State.show_kept, State.freshNat_kept, State.foldl_kept])
    | rfl

theorem State.readArb_kept (s : State) (b : BitVec 3) (off : Nat) :
    (State.readArb s b off).2.kept = s.kept := by
  unfold State.readArb; (try dsimp only); (repeat' split) <;> first
    | with_reducible rfl
    | (apply State.kept_congr <;> with_reducible rfl)
    | (simp only [State.show_kept, State.ttStatus_kept]; done)
    | (simp only [State.show_kept, State.ttStatus_kept]; first | with_reducible rfl | (apply State.kept_congr <;> with_reducible rfl))
    | (grind [State.kept, State.show_kept, State.ttStatus_kept, State.foldl_kept])
    | rfl

theorem State.readMem_kept (s : State) (off : Nat) :
    (State.readMem s off).2.kept = s.kept := by
  unfold State.readMem; (try dsimp only); (repeat' split) <;> first
    | with_reducible rfl
    | (apply State.kept_congr <;> with_reducible rfl)
    | (simp only [State.readArb_kept, State.show_kept]; done)
    | (simp only [State.readArb_kept, State.show_kept]; first | with_reducible rfl | (apply State.kept_congr <;> with_reducible rfl))
    | (grind [State.kept, State.readArb_kept, State.show_kept, State.foldl_kept])
    | rfl

theorem State.readDsp_kept (s : State) (off : Nat) :
    (State.readDsp s off).2.kept = s.kept := by
  unfold State.readDsp; (try dsimp only); (repeat' split) <;> first
    | with_reducible rfl
    | (apply State.kept_congr <;> with_reducible rfl)
    | (simp only [State.show_kept]; done)
    | (simp only [State.show_kept]; first | with_reducible rfl | (apply State.kept_congr <;> with_reducible rfl))
    | (grind [State.kept, State.show_kept, State.foldl_kept])
    | rfl

theorem State.readLnk_kept (s : State) (off : Nat) :
    (State.readLnk s off).2.kept = s.kept := by
  unfold State.readLnk; (try dsimp only); (repeat' split) <;> first
    | with_reducible rfl
    | (apply State.kept_congr <;> with_reducible rfl)
    | (simp only [State.readArb_kept, State.show_kept, State.modPort_kept]; done)
    | (simp only [State.readArb_kept, State.show_kept, State.modPort_kept]; first | with_reducible rfl | (apply State.kept_congr <;> with_reducible rfl))
    | (grind [State.kept, State.readArb_kept, State.show_kept, State.modPort_kept, State.foldl_kept])
    | rfl

theorem State.readCol_kept (s : State) (off : Nat) :
    (State.readCol s off).2.kept = s.kept := by
  unfold State.readCol; (try dsimp only); (repeat' split) <;> first
    | with_reducible rfl
    | (apply State.kept_congr <;> with_reducible rfl)
    | (simp only [State.readArb_kept, State.show_kept]; done)
    | (simp only [State.readArb_kept, State.show_kept]; first | with_reducible rfl | (apply State.kept_congr <;> with_reducible rfl))
    | (grind [State.kept, State.readArb_kept, State.show_kept, State.foldl_kept])
    | rfl

theorem State.readPwr_kept (s : State) (off : Nat) :
    (State.readPwr s off).2.kept = s.kept := by
  unfold State.readPwr; (try dsimp only); (repeat' split) <;> first
    | with_reducible rfl
    | (apply State.kept_congr <;> with_reducible rfl)
    | (simp only [State.show_kept]; done)
    | (simp only [State.show_kept]; first | with_reducible rfl | (apply State.kept_congr <;> with_reducible rfl))
    | (grind [State.kept, State.show_kept, State.foldl_kept])
    | rfl

theorem State.readFw_kept (s : State) (off : Nat) :
    (State.readFw s off).2.kept = s.kept := by
  unfold State.readFw; (try dsimp only); (repeat' split) <;> first
    | with_reducible rfl
    | (apply State.kept_congr <;> with_reducible rfl)
    | (simp only [State.show_kept]; done)
    | (simp only [State.show_kept]; first | with_reducible rfl | (apply State.kept_congr <;> with_reducible rfl))
    | (grind [State.kept, State.show_kept, State.foldl_kept])
    | rfl

theorem State.readTrace_kept (s : State) (w : Nat) : (s.readTrace w).2.kept = s.kept := by
  have d : ∀ x : DbgState, State.kept { s with dbg := x } = s.kept := fun _ => rfl
  unfold State.readTrace
  generalize s.tracePick = bs
  by_cases h : w = 0
  · subst h; exact d _
  · have e : ∀ (a b : Word × State), (if w = 0 then a else b) = b := fun a b => if_neg h
    dsimp only; rw [e]
    by_cases h7 : w = 7
    · rw [if_pos h7]; exact d _
    · rw [if_neg h7]; rfl

theorem State.readDbg_kept (s : State) (off : Nat) :
    (State.readDbg s off).2.kept = s.kept := by
  unfold State.readDbg; (try dsimp only); (repeat' split) <;> first
    | with_reducible rfl
    | (apply State.kept_congr <;> with_reducible rfl)
    | (simp only [State.show_kept, State.readTrace_kept]; done)
    | (simp only [State.show_kept, State.readTrace_kept]; first | with_reducible rfl | (apply State.kept_congr <;> with_reducible rfl))
    | (grind [State.kept, State.show_kept, State.readTrace_kept, State.foldl_kept])
    | rfl

theorem State.readWin_kept (s : State) (off : Nat) :
    (State.readWin s off).2.kept = s.kept := by
  unfold State.readWin; (try dsimp only); (repeat' split) <;> first
    | with_reducible rfl
    | (apply State.kept_congr <;> with_reducible rfl)
    | (simp only [State.show_kept, State.readCell_kept, State.readBox_kept, State.readMem_kept, State.readDsp_kept, State.readLnk_kept, State.readCol_kept, State.readPwr_kept, State.readFw_kept, State.readDbg_kept]; done)
    | (simp only [State.show_kept, State.readCell_kept, State.readBox_kept, State.readMem_kept, State.readDsp_kept, State.readLnk_kept, State.readCol_kept, State.readPwr_kept, State.readFw_kept, State.readDbg_kept]; first | with_reducible rfl | (apply State.kept_congr <;> with_reducible rfl))
    | (grind [State.kept, State.show_kept, State.readCell_kept, State.readBox_kept, State.readMem_kept, State.readDsp_kept, State.readLnk_kept, State.readCol_kept, State.readPwr_kept, State.readFw_kept, State.readDbg_kept, State.foldl_kept])
    | rfl

theorem State.readSide_kept (s : State) (off : Nat) :
    (State.readSide s off).2.kept = s.kept := by
  unfold State.readSide; (try dsimp only); (repeat' split) <;> first
    | with_reducible rfl
    | (apply State.kept_congr <;> with_reducible rfl)
    | (simp only [State.show_kept, State.readWin_kept]; done)
    | (simp only [State.show_kept, State.readWin_kept]; first | with_reducible rfl | (apply State.kept_congr <;> with_reducible rfl))
    | (grind [State.kept, State.show_kept, State.readWin_kept, State.foldl_kept])
    | rfl

/-! ### Writes -/

theorem State.traceCtrl_kept (s : State) (k : Nat) (v : Word) :
    (State.traceCtrl s k v).kept = s.kept := by
  unfold State.traceCtrl; (try dsimp only); (repeat' split) <;> first
    | with_reducible rfl
    | (apply State.kept_congr <;> with_reducible rfl)
    | (simp only [State.traceArm_kept, State.triggerTrace_kept, State.modTrace_kept]; done)
    | (simp only [State.traceArm_kept, State.triggerTrace_kept, State.modTrace_kept]; first | with_reducible rfl | (apply State.kept_congr <;> with_reducible rfl))
    | (grind [State.kept, State.traceArm_kept, State.triggerTrace_kept, State.modTrace_kept, State.foldl_kept])
    | rfl

theorem State.writeBox_kept (s : State) (k : Nat) (off : Nat) (v : Word) :
    (State.writeBox s k off v).kept = s.kept := by
  unfold State.writeBox; (try dsimp only); (repeat' split) <;> first
    | with_reducible rfl
    | (apply State.kept_congr <;> with_reducible rfl)
    | (simp only [State.setBox_kept, State.modTrace_kept, State.traceCtrl_kept]; done)
    | (simp only [State.setBox_kept, State.modTrace_kept, State.traceCtrl_kept]; first | with_reducible rfl | (apply State.kept_congr <;> with_reducible rfl))
    | (grind [State.kept, State.setBox_kept, State.modTrace_kept, State.traceCtrl_kept, State.foldl_kept])
    | rfl

theorem State.beginGraph_kept (s : State) :
    (State.beginGraph s).kept = s.kept := by
  unfold State.beginGraph; (try dsimp only); (repeat' split) <;> first
    | with_reducible rfl
    | (apply State.kept_congr <;> with_reducible rfl)
    | (grind [State.kept, State.foldl_kept])
    | rfl

theorem State.writeDbg_kept (s : State) (off : Nat) (v : Word) :
    (State.writeDbg s off v).kept = s.kept := by
  unfold State.writeDbg; (try dsimp only); (repeat' split) <;> first
    | with_reducible rfl
    | (apply State.kept_congr <;> with_reducible rfl)
    | (simp only [State.brake_kept, State.beginGraph_kept]; done)
    | (simp only [State.brake_kept, State.beginGraph_kept]; first | with_reducible rfl | (apply State.kept_congr <;> with_reducible rfl))
    | (grind [State.kept, State.brake_kept, State.beginGraph_kept, State.foldl_kept])
    | rfl

theorem State.writeLnk_kept (s : State) (off : Nat) (v : Word) :
    (State.writeLnk s off v).kept = s.kept := by
  unfold State.writeLnk; (try dsimp only); (repeat' split) <;> first
    | with_reducible rfl
    | (apply State.kept_congr <;> with_reducible rfl)
    | (simp only [State.modPort_kept, State.commitPlan_kept, State.commitRoutes_kept, State.setLtRoot_kept]; done)
    | (simp only [State.modPort_kept, State.commitPlan_kept, State.commitRoutes_kept, State.setLtRoot_kept]; first | with_reducible rfl | (apply State.kept_congr <;> with_reducible rfl))
    | (grind [State.kept, State.modPort_kept, State.commitPlan_kept, State.commitRoutes_kept, State.setLtRoot_kept, State.foldl_kept])
    | rfl

theorem State.writeCol_kept (s : State) (off : Nat) (v : Word) :
    (State.writeCol s off v).kept = s.kept := by
  unfold State.writeCol; (try dsimp only); (repeat' split) <;> first
    | with_reducible rfl
    | (apply State.kept_congr <;> with_reducible rfl)
    | (simp only [State.commitGroups_kept]; done)
    | (simp only [State.commitGroups_kept]; first | with_reducible rfl | (apply State.kept_congr <;> with_reducible rfl))
    | (grind [State.kept, State.commitGroups_kept, State.foldl_kept])
    | rfl

theorem State.writePwr_kept (s : State) (off : Nat) (v : Word) :
    (State.writePwr s off v).kept = s.kept := by
  unfold State.writePwr; (try dsimp only); (repeat' split) <;> first
    | with_reducible rfl
    | (apply State.kept_congr <;> with_reducible rfl)
    | (grind [State.kept, State.foldl_kept])
    | rfl

theorem State.writeArb_kept (s : State) (b : BitVec 3) (off : Nat) (v : Word) :
    (State.writeArb s b off v).kept = s.kept := by
  unfold State.writeArb; (try dsimp only); (repeat' split) <;> first
    | with_reducible rfl
    | (apply State.kept_congr <;> with_reducible rfl)
    | (simp only [State.setArbBlock_kept]; done)
    | (simp only [State.setArbBlock_kept]; first | with_reducible rfl | (apply State.kept_congr <;> with_reducible rfl))
    | (grind [State.kept, State.setArbBlock_kept, State.foldl_kept])
    | rfl

theorem State.writeMem_kept (s : State) (off : Nat) (v : Word) :
    (State.writeMem s off v).kept = s.kept := by
  unfold State.writeMem; (try dsimp only); (repeat' split) <;> first
    | with_reducible rfl
    | (apply State.kept_congr <;> with_reducible rfl)
    | (simp only [State.writeArb_kept, State.scopeCommit_kept]; done)
    | (simp only [State.writeArb_kept, State.scopeCommit_kept]; first | with_reducible rfl | (apply State.kept_congr <;> with_reducible rfl))
    | (grind [State.kept, State.writeArb_kept, State.scopeCommit_kept, State.foldl_kept])
    | rfl

theorem State.writeFirmware_kept (s : State) (off : Nat) (v : Word) :
    (State.writeFirmware s off v).kept = s.kept := by
  unfold State.writeFirmware; (try dsimp only); (repeat' split) <;> first
    | with_reducible rfl
    | (apply State.kept_congr <;> with_reducible rfl)
    | (simp only [State.setBox_kept, State.writeBox_kept, State.writeMem_kept, State.writeArb_kept, State.writeLnk_kept, State.writeCol_kept, State.writePwr_kept, State.writeDbg_kept]; done)
    | (simp only [State.setBox_kept, State.writeBox_kept, State.writeMem_kept, State.writeArb_kept, State.writeLnk_kept, State.writeCol_kept, State.writePwr_kept, State.writeDbg_kept]; first | with_reducible rfl | (apply State.kept_congr <;> with_reducible rfl))
    | (grind [State.kept, State.setBox_kept, State.writeBox_kept, State.writeMem_kept, State.writeArb_kept, State.writeLnk_kept, State.writeCol_kept, State.writePwr_kept, State.writeDbg_kept, State.foldl_kept])
    | rfl

theorem State.writeHostWin_kept (s : State) (off : Nat) (v : Word) :
    (State.writeHostWin s off v).kept = s.kept := by
  unfold State.writeHostWin; (try dsimp only); (repeat' split) <;> first
    | with_reducible rfl
    | (apply State.kept_congr <;> with_reducible rfl)
    | (simp only [State.writeBox_kept, State.writeDbg_kept]; done)
    | (simp only [State.writeBox_kept, State.writeDbg_kept]; first | with_reducible rfl | (apply State.kept_congr <;> with_reducible rfl))
    | (grind [State.kept, State.writeBox_kept, State.writeDbg_kept, State.foldl_kept])
    | rfl

theorem State.writeSide_kept (s : State) (off : Nat) (v : Word) :
    (State.writeSide s off v).kept = s.kept := by
  unfold State.writeSide; (try dsimp only); (repeat' split) <;> first
    | with_reducible rfl
    | (apply State.kept_congr <;> with_reducible rfl)
    | (simp only [State.writeLnk_kept, State.writeCol_kept, State.writePwr_kept, State.writeHostWin_kept]; done)
    | (simp only [State.writeLnk_kept, State.writeCol_kept, State.writePwr_kept, State.writeHostWin_kept]; first | with_reducible rfl | (apply State.kept_congr <;> with_reducible rfl))
    | (grind [State.kept, State.writeLnk_kept, State.writeCol_kept, State.writePwr_kept, State.writeHostWin_kept, State.foldl_kept])
    | rfl

/-! ### Hang -/

theorem State.confirmGraph_kept (s : State) :
    (State.confirmGraph s).kept = s.kept := by
  unfold State.confirmGraph; (try dsimp only); (repeat' split) <;> first
    | with_reducible rfl
    | (apply State.kept_congr <;> with_reducible rfl)
    | (simp only [State.raise_kept]; done)
    | (simp only [State.raise_kept]; first | with_reducible rfl | (apply State.kept_congr <;> with_reducible rfl))
    | (grind [State.kept, State.raise_kept, State.foldl_kept])
    | rfl

theorem State.hangWatch_kept (s : State) (task : Nat) :
    (State.hangWatch s task).kept = s.kept := by
  unfold State.hangWatch; (try dsimp only); (repeat' split) <;> first
    | with_reducible rfl
    | (apply State.kept_congr <;> with_reducible rfl)
    | (simp only [State.beginGraph_kept]; done)
    | (simp only [State.beginGraph_kept]; first | with_reducible rfl | (apply State.kept_congr <;> with_reducible rfl))
    | (grind [State.kept, State.beginGraph_kept, State.foldl_kept])
    | rfl

/-! ### HostRegs -/

theorem State.readHw_kept (s : State) (off : Nat) :
    (State.readHw s off).2.kept = s.kept := by
  unfold State.readHw; (try dsimp only); (repeat' split) <;> first
    | with_reducible rfl
    | (apply State.kept_congr <;> with_reducible rfl)
    | (simp only [State.show_kept]; done)
    | (simp only [State.show_kept]; first | with_reducible rfl | (apply State.kept_congr <;> with_reducible rfl))
    | (grind [State.kept, State.show_kept, State.foldl_kept])
    | rfl

theorem State.writeHw_kept (s : State) (off : Nat) (v : Word) :
    (State.writeHw s off v).kept = s.kept := by
  unfold State.writeHw; (try dsimp only); (repeat' split) <;> first
    | with_reducible rfl
    | (apply State.kept_congr <;> with_reducible rfl)
    | (simp only [State.sqDb_kept, State.cqHead_kept, State.renewLease_kept, State.evHead_kept]; done)
    | (simp only [State.sqDb_kept, State.cqHead_kept, State.renewLease_kept, State.evHead_kept]; first | with_reducible rfl | (apply State.kept_congr <;> with_reducible rfl))
    | (grind [State.kept, State.sqDb_kept, State.cqHead_kept, State.renewLease_kept, State.evHead_kept, State.foldl_kept])
    | rfl

theorem State.readFe_kept (s : State) (off : Nat) :
    (State.readFe s off).2.kept = s.kept := by
  unfold State.readFe; (try dsimp only); (repeat' split) <;> first
    | with_reducible rfl
    | (apply State.kept_congr <;> with_reducible rfl)
    | (simp only [State.readWin_kept, State.show_kept]; done)
    | (simp only [State.readWin_kept, State.show_kept]; first | with_reducible rfl | (apply State.kept_congr <;> with_reducible rfl))
    | (grind [State.kept, State.readWin_kept, State.show_kept, State.foldl_kept])
    | rfl

theorem State.writeFe_kept (s : State) (off : Nat) (v : Word) :
    (State.writeFe s off v).kept = s.kept := by
  unfold State.writeFe; (try dsimp only); (repeat' split) <;> first
    | with_reducible rfl
    | (apply State.kept_congr <;> with_reducible rfl)
    | (simp only [State.writeHostWin_kept]; done)
    | (simp only [State.writeHostWin_kept]; first | with_reducible rfl | (apply State.kept_congr <;> with_reducible rfl))
    | (grind [State.kept, State.writeHostWin_kept, State.foldl_kept])
    | rfl

theorem State.writeMsix_kept (s : State) (off : Nat) (v : Word) :
    (State.writeMsix s off v).kept = s.kept := by
  unfold State.writeMsix; (try dsimp only); (repeat' split) <;> first
    | with_reducible rfl
    | (apply State.kept_congr <;> with_reducible rfl)
    | (simp only [State.sendPending_kept]; done)
    | (simp only [State.sendPending_kept]; first | with_reducible rfl | (apply State.kept_congr <;> with_reducible rfl))
    | (grind [State.kept, State.sendPending_kept, State.foldl_kept])
    | rfl

theorem State.serveFe_kept (s : State) (off : Nat) (write : Option Word) :
    (State.serveFe s off write).kept = s.kept := by
  unfold State.serveFe; (try dsimp only); (repeat' split) <;> first
    | with_reducible rfl
    | (apply State.kept_congr <;> with_reducible rfl)
    | (simp only [State.writeFe_kept, State.readFe_kept, State.reply_kept]; done)
    | (simp only [State.writeFe_kept, State.readFe_kept, State.reply_kept]; first | with_reducible rfl | (apply State.kept_congr <;> with_reducible rfl))
    | (grind [State.kept, State.writeFe_kept, State.readFe_kept, State.reply_kept, State.foldl_kept])
    | rfl

theorem State.feTimeout_kept (s : State) :
    (State.feTimeout s).kept = s.kept := by
  unfold State.feTimeout; (try dsimp only); (repeat' split) <;> first
    | with_reducible rfl
    | (apply State.kept_congr <;> with_reducible rfl)
    | (simp only [State.raise_kept, State.reply_kept]; done)
    | (simp only [State.raise_kept, State.reply_kept]; first | with_reducible rfl | (apply State.kept_congr <;> with_reducible rfl))
    | (grind [State.kept, State.raise_kept, State.reply_kept, State.foldl_kept])
    | rfl

theorem State.serveWaiting_kept (s : State) :
    (State.serveWaiting s).kept = s.kept := by
  unfold State.serveWaiting; (try dsimp only); (repeat' split) <;> first
    | with_reducible rfl
    | (apply State.kept_congr <;> with_reducible rfl)
    | (simp only [State.feTimeout_kept, State.serveFe_kept]; done)
    | (simp only [State.feTimeout_kept, State.serveFe_kept]; first | with_reducible rfl | (apply State.kept_congr <;> with_reducible rfl))
    | (grind [State.kept, State.feTimeout_kept, State.serveFe_kept, State.foldl_kept])
    | rfl

theorem State.feAccess_kept (s : State) (off : Nat) (write : Option Word) :
    (State.feAccess s off write).kept = s.kept := by
  unfold State.feAccess; (try dsimp only); (repeat' split) <;> first
    | with_reducible rfl
    | (apply State.kept_congr <;> with_reducible rfl)
    | (simp only [State.serveFe_kept, State.serveWaiting_kept]; done)
    | (simp only [State.serveFe_kept, State.serveWaiting_kept]; first | with_reducible rfl | (apply State.kept_congr <;> with_reducible rfl))
    | (grind [State.kept, State.serveFe_kept, State.serveWaiting_kept, State.foldl_kept])
    | rfl

theorem State.hostReadReg_kept (s : State) (off : Nat) :
    (State.hostReadReg s off).kept = s.kept := by
  unfold State.hostReadReg; (try dsimp only); (repeat' split) <;> first
    | with_reducible rfl
    | (apply State.kept_congr <;> with_reducible rfl)
    | (simp only [State.feAccess_kept, State.readHw_kept, State.show_kept, State.reply_kept]; done)
    | (simp only [State.feAccess_kept, State.readHw_kept, State.show_kept, State.reply_kept]; first | with_reducible rfl | (apply State.kept_congr <;> with_reducible rfl))
    | (grind [State.kept, State.feAccess_kept, State.readHw_kept, State.show_kept, State.reply_kept, State.foldl_kept])
    | rfl

theorem State.hostWriteReg_kept (s : State) (off : Nat) (v : Word) :
    (State.hostWriteReg s off v).kept = s.kept := by
  unfold State.hostWriteReg; (try dsimp only); (repeat' split) <;> first
    | with_reducible rfl
    | (apply State.kept_congr <;> with_reducible rfl)
    | (simp only [State.writeHw_kept, State.feAccess_kept]; done)
    | (simp only [State.writeHw_kept, State.feAccess_kept]; first | with_reducible rfl | (apply State.kept_congr <;> with_reducible rfl))
    | (grind [State.kept, State.writeHw_kept, State.feAccess_kept, State.foldl_kept])
    | rfl

theorem State.readRun_kept (off n : Nat) (s : State) : (State.readRun off n s).2.kept = s.kept := by
  induction n generalizing off s with
  | zero => rfl
  | succ n ih => show (State.readRun (off + 4) n (s.readSide off).2).2.kept = _; rw [ih, State.readSide_kept]

theorem State.sideRead_kept (s : State) (off : Nat) (count : Nat) :
    (State.sideRead s off count).kept = s.kept := by
  unfold State.sideRead; (try dsimp only); (repeat' split) <;> first
    | with_reducible rfl
    | (apply State.kept_congr <;> with_reducible rfl)
    | (simp only [State.sideError_kept, State.readRun_kept, State.reply_kept]; done)
    | (simp only [State.sideError_kept, State.readRun_kept, State.reply_kept]; first | with_reducible rfl | (apply State.kept_congr <;> with_reducible rfl))
    | (grind [State.kept, State.sideError_kept, State.readRun_kept, State.reply_kept, State.foldl_kept])
    | rfl

theorem State.sideWrite_kept (s : State) (off : Nat) (v : Word) :
    (State.sideWrite s off v).kept = s.kept := by
  unfold State.sideWrite; (try dsimp only); (repeat' split) <;> first
    | with_reducible rfl
    | (apply State.kept_congr <;> with_reducible rfl)
    | (simp only [State.reply_kept, State.writeSide_kept]; done)
    | (simp only [State.reply_kept, State.writeSide_kept]; first | with_reducible rfl | (apply State.kept_congr <;> with_reducible rfl))
    | (grind [State.kept, State.reply_kept, State.writeSide_kept, State.foldl_kept])
    | rfl

theorem State.readClass_kept (s : State) (is : Nat → Bool) (side : Bool) (off : Nat) :
    (State.readClass s is side off).kept = s.kept := by
  unfold State.readClass; (try dsimp only); (repeat' split) <;> first
    | with_reducible rfl
    | (apply State.kept_congr <;> with_reducible rfl)
    | (simp only [State.sideRead_kept, State.hostReadReg_kept]; done)
    | (simp only [State.sideRead_kept, State.hostReadReg_kept]; first | with_reducible rfl | (apply State.kept_congr <;> with_reducible rfl))
    | (grind [State.kept, State.sideRead_kept, State.hostReadReg_kept, State.foldl_kept])
    | rfl

/-! ### Scan -/

theorem State.scan_kept (s : State) (space : Nat) (id : CellId) (off : Nat) (n : Nat) (g : Nat) :
    (State.scan s space id off n g).2.2.kept = s.kept := by
  unfold State.scan; (try dsimp only); (repeat' split) <;> first
    | with_reducible rfl
    | (apply State.kept_congr <;> with_reducible rfl)
    | (grind [State.kept, State.foldl_kept])
    | rfl

/-! ### Debug -/

theorem jtagRow_kept (c : BitVec 8) (s : State) (f : State → State) (h : ∀ u, (f u).kept = u.kept) : ∀ t, jtagRow c s f = .next t → t.kept = s.kept := by
  intro t ht; unfold jtagRow at ht; cases ht; split
  · rw [h]; rfl
  · rfl

theorem State.boundary_kept (s : State) (code : Nat) :
    (State.boundary s code).kept = s.kept := by
  unfold State.boundary; (try dsimp only); (repeat' split) <;> first
    | with_reducible rfl
    | (apply State.kept_congr <;> with_reducible rfl)
    | (simp only [State.freshNat_kept, State.reply_kept]; done)
    | (simp only [State.freshNat_kept, State.reply_kept]; first | with_reducible rfl | (apply State.kept_congr <;> with_reducible rfl))
    | (grind [State.kept, State.freshNat_kept, State.reply_kept, State.foldl_kept])
    | rfl

/-! ### RecoveryCmds -/

theorem State.holdArrives_kept (s : State) (port : BitVec 3) (m : HoldMsg) :
    (State.holdArrives s port m).kept = s.kept := by
  unfold State.holdArrives; (try dsimp only); (repeat' split) <;> first
    | with_reducible rfl
    | (apply State.kept_congr <;> with_reducible rfl)
    | (simp only [State.floodHold_kept, State.noteKey_kept, State.takeRelease_kept, State.takeHold_kept]; done)
    | (simp only [State.floodHold_kept, State.noteKey_kept, State.takeRelease_kept, State.takeHold_kept]; first | with_reducible rfl | (apply State.kept_congr <;> with_reducible rfl))
    | (grind [State.kept, State.floodHold_kept, State.noteKey_kept, State.takeRelease_kept, State.takeHold_kept, State.foldl_kept])
    | rfl

end Sys2Proof.Machine
end

