-- ==== Sys2Proof/Laws/Commands.lean ====
section
/-!
SUPPORT. For each command: a next state it answers keeps the queue of commands and the rollback counters, or, for a start
that completes and a component that is handed over, keeps the queue and lowers no counter.
-/

set_option linter.unusedSimpArgs false
set_option linter.unusedTactic false
set_option linter.unreachableTactic false
set_option linter.unnecessarySeqFocus false
set_option maxHeartbeats 400000

namespace Sys2Proof.Machine
theorem execIbankLoadIssue_kept (cell : CellId) (task : BitVec 32) (image : List Byte) (s : State) :
    ∀ t, (execIbankLoadIssue cell task image s) = .next t → t.kept = s.kept := by
  unfold execIbankLoadIssue; (repeat' split) <;> first
    | (intro t h; cases h; done)
    | (refine withCell_kept _ _ _ ?_; first | with_reducible rfl | (apply State.kept_congr <;> with_reducible rfl) | (simp only [withCell_kept, State.issueLoad_kept]; done) | (grind [State.kept, withCell_kept, State.issueLoad_kept]))
    | (intro t h; grind [State.kept, withCell_kept, State.issueLoad_kept])

theorem execIbankFirstWrite_kept (cell : CellId) (s : State) :
    ∀ t, (execIbankFirstWrite cell s) = .next t → t.kept = s.kept := by
  unfold execIbankFirstWrite; (repeat' split) <;> first
    | (intro t h; cases h; done)
    | (refine withCell_kept _ _ _ ?_; first | with_reducible rfl | (apply State.kept_congr <;> with_reducible rfl) | (simp only [withCell_kept, State.firstWrite_kept]; done) | (grind [State.kept, withCell_kept, State.firstWrite_kept]))
    | (intro t h; grind [State.kept, withCell_kept, State.firstWrite_kept])

theorem execIbankLoadEnd_kept (cell : CellId) (s : State) :
    ∀ t, (execIbankLoadEnd cell s) = .next t → t.kept = s.kept := by
  unfold execIbankLoadEnd; (repeat' split) <;> first
    | (intro t h; cases h; done)
    | (refine withCell_kept _ _ _ ?_; first | with_reducible rfl | (apply State.kept_congr <;> with_reducible rfl) | (simp only [withCell_kept, State.endLoad_kept]; done) | (grind [State.kept, withCell_kept, State.endLoad_kept]))
    | (intro t h; grind [State.kept, withCell_kept, State.endLoad_kept])

theorem execIbankHoldTimeout_kept (cell : CellId) (s : State) :
    ∀ t, (execIbankHoldTimeout cell s) = .next t → t.kept = s.kept := by
  unfold execIbankHoldTimeout; (repeat' split) <;> first
    | (intro t h; cases h; done)
    | (refine withCell_kept _ _ _ ?_; first | with_reducible rfl | (apply State.kept_congr <;> with_reducible rfl) | (simp only [withCell_kept, State.abortLoad_kept]; done) | (grind [State.kept, withCell_kept, State.abortLoad_kept]))
    | (intro t h; grind [State.kept, withCell_kept, State.abortLoad_kept])

theorem execCellTaskStart_kept (cell : CellId) (bank : Bool) (s : State) :
    ∀ t, (execCellTaskStart cell bank s) = .next t → t.kept = s.kept := by
  unfold execCellTaskStart; (repeat' split) <;> first
    | (intro t h; cases h; done)
    | (refine withCell_kept _ _ _ ?_; first | with_reducible rfl | (apply State.kept_congr <;> with_reducible rfl) | (simp only [withCell_kept, State.startCell_kept]; done) | (grind [State.kept, withCell_kept, State.startCell_kept]))
    | (intro t h; grind [State.kept, withCell_kept, State.startCell_kept])

theorem execCellHaltDrained_kept (cell : CellId) (s : State) :
    ∀ t, (execCellHaltDrained cell s) = .next t → t.kept = s.kept := by
  unfold execCellHaltDrained; (repeat' split) <;> first
    | (intro t h; cases h; done)
    | (refine withCell_kept _ _ _ ?_; first | with_reducible rfl | (apply State.kept_congr <;> with_reducible rfl) | (simp only [withCell_kept, State.haltDrained_kept]; done) | (grind [State.kept, withCell_kept, State.haltDrained_kept]))
    | (intro t h; grind [State.kept, withCell_kept, State.haltDrained_kept])

theorem execCellFaultHandled_kept (cell : CellId) (s : State) :
    ∀ t, (execCellFaultHandled cell s) = .next t → t.kept = s.kept := by
  unfold execCellFaultHandled; (repeat' split) <;> first
    | (intro t h; cases h; done)
    | (refine withCell_kept _ _ _ ?_; first | with_reducible rfl | (apply State.kept_congr <;> with_reducible rfl) | (simp only [withCell_kept, State.faultHandled_kept]; done) | (grind [State.kept, withCell_kept, State.faultHandled_kept]))
    | (intro t h; grind [State.kept, withCell_kept, State.faultHandled_kept])

theorem execCellRetire_kept (cell : CellId) (flashOk : Bool) (s : State) :
    ∀ t, (execCellRetire cell flashOk s) = .next t → t.kept = s.kept := by
  unfold execCellRetire; (repeat' split) <;> first
    | (intro t h; cases h; done)
    | (refine withCell_kept _ _ _ ?_; first | with_reducible rfl | (apply State.kept_congr <;> with_reducible rfl) | (simp only [withCell_kept, State.retireCell_kept]; done) | (grind [State.kept, withCell_kept, State.retireCell_kept]))
    | (intro t h; grind [State.kept, withCell_kept, State.retireCell_kept])

theorem execSpareAdmitted_kept (cell : CellId) (s : State) :
    ∀ t, (execSpareAdmitted cell s) = .next t → t.kept = s.kept := by
  unfold execSpareAdmitted; (repeat' split) <;> first
    | (intro t h; cases h; done)
    | (refine withCell_kept _ _ _ ?_; first | with_reducible rfl | (apply State.kept_congr <;> with_reducible rfl) | (simp only [withCell_kept, State.admitSpare_kept]; done) | (grind [State.kept, withCell_kept, State.admitSpare_kept]))
    | (intro t h; grind [State.kept, withCell_kept, State.admitSpare_kept])

theorem execSuspectWindowExpiry_kept (cell : CellId) (s : State) :
    ∀ t, (execSuspectWindowExpiry cell s) = .next t → t.kept = s.kept := by
  unfold execSuspectWindowExpiry; (repeat' split) <;> first
    | (intro t h; cases h; done)
    | (refine withCell_kept _ _ _ ?_; first | with_reducible rfl | (apply State.kept_congr <;> with_reducible rfl) | (simp only [withCell_kept, State.suspectExpiry_kept]; done) | (grind [State.kept, withCell_kept, State.suspectExpiry_kept]))
    | (intro t h; grind [State.kept, withCell_kept, State.suspectExpiry_kept])

theorem execTraceEntry_kept (die : BitVec 3) (cluster : BitVec 4) (code : BitVec 16) (sev : BitVec 2) (cell : Option (BitVec 4)) (payload : List Byte) (s : State) :
    ∀ t, (execTraceEntry die cluster code sev cell payload s) = .next t → t.kept = s.kept := by
  intro t h; unfold execTraceEntry at h; (repeat' split at h) <;> first
    | (cases h; done)
    | (cases h; first | with_reducible rfl | (apply State.kept_congr <;> with_reducible rfl) | (simp only [State.traceEntry_kept]; done) | (simp only [State.traceEntry_kept]; first | with_reducible rfl | (apply State.kept_congr <;> with_reducible rfl)) | grind [State.kept, State.traceEntry_kept, State.foldl_kept])
    | grind [State.kept, State.traceEntry_kept]

theorem execTraceWrite_kept (die : BitVec 3) (cluster : BitVec 4) (s : State) :
    ∀ t, (execTraceWrite die cluster s) = .next t → t.kept = s.kept := by
  intro t h; unfold execTraceWrite at h; (repeat' split at h) <;> first
    | (cases h; done)
    | (cases h; first | with_reducible rfl | (apply State.kept_congr <;> with_reducible rfl) | (simp only [State.traceWrite_kept]; done) | (simp only [State.traceWrite_kept]; first | with_reducible rfl | (apply State.kept_congr <;> with_reducible rfl)) | grind [State.kept, State.traceWrite_kept, State.foldl_kept])
    | grind [State.kept, State.traceWrite_kept]

theorem execTraceArm_kept (die : BitVec 3) (cluster : BitVec 4) (s : State) :
    ∀ t, (execTraceArm die cluster s) = .next t → t.kept = s.kept := by
  intro t h; unfold execTraceArm at h; (repeat' split at h) <;> first
    | (cases h; done)
    | (cases h; first | with_reducible rfl | (apply State.kept_congr <;> with_reducible rfl) | (simp only [State.traceArm_kept]; done) | (simp only [State.traceArm_kept]; first | with_reducible rfl | (apply State.kept_congr <;> with_reducible rfl)) | grind [State.kept, State.traceArm_kept, State.foldl_kept])
    | grind [State.kept, State.traceArm_kept]

theorem execTraceStop_kept (die : BitVec 3) (cluster : BitVec 4) (s : State) :
    ∀ t, (execTraceStop die cluster s) = .next t → t.kept = s.kept := by
  intro t h; unfold execTraceStop at h; (repeat' split at h) <;> first
    | (cases h; done)
    | (cases h; first | with_reducible rfl | (apply State.kept_congr <;> with_reducible rfl) | (simp only [State.modTrace_kept]; done) | (simp only [State.modTrace_kept]; first | with_reducible rfl | (apply State.kept_congr <;> with_reducible rfl)) | grind [State.kept, State.modTrace_kept, State.foldl_kept])
    | grind [State.kept, State.modTrace_kept]

theorem execHbmAccess_kept (sector : Nat) (op : HbmOp) (errs : List Nat) (s : State) :
    ∀ t, (execHbmAccess sector op errs s) = .next t → t.kept = s.kept := by
  intro t h; unfold execHbmAccess at h; (repeat' split at h) <;> first
    | (cases h; done)
    | (cases h; first | with_reducible rfl | (apply State.kept_congr <;> with_reducible rfl) | (simp only [State.accessSector_kept]; done) | (simp only [State.accessSector_kept]; first | with_reducible rfl | (apply State.kept_congr <;> with_reducible rfl)) | grind [State.kept, State.accessSector_kept, State.foldl_kept])
    | grind [State.kept, State.accessSector_kept]

theorem execAtomicUpdate_kept (dpa : Nat) (fmt : BitVec 4) (op : BitVec 3) (value : Nat) (poison : Bool) (errs : List Nat) (s : State) :
    ∀ t, (execAtomicUpdate dpa fmt op value poison errs s) = .next t → t.kept = s.kept := by
  intro t h; unfold execAtomicUpdate at h; (repeat' split at h) <;> first
    | (cases h; done)
    | (cases h; first | with_reducible rfl | (apply State.kept_congr <;> with_reducible rfl) | (simp only [State.atomicUpdate_kept]; done) | (simp only [State.atomicUpdate_kept]; first | with_reducible rfl | (apply State.kept_congr <;> with_reducible rfl)) | grind [State.kept, State.atomicUpdate_kept, State.foldl_kept])
    | grind [State.kept, State.atomicUpdate_kept]

theorem execHostMemRead_kept (offset : Nat) (cache : Bool) (own : Bool) (errs0 : List Nat) (errs1 : List Nat) (s : State) :
    ∀ t, (execHostMemRead offset cache own errs0 errs1 s) = .next t → t.kept = s.kept := by
  intro t h; unfold execHostMemRead at h; (repeat' split at h) <;> first
    | (cases h; done)
    | (cases h; first | with_reducible rfl | (apply State.kept_congr <;> with_reducible rfl) | (simp only [State.hostRead_kept, State.undefinedIf_kept]; done) | (simp only [State.hostRead_kept, State.undefinedIf_kept]; first | with_reducible rfl | (apply State.kept_congr <;> with_reducible rfl)) | grind [State.kept, State.hostRead_kept, State.undefinedIf_kept, State.foldl_kept])
    | grind [State.kept, State.hostRead_kept, State.undefinedIf_kept]

theorem execHostMemWrite_kept (offset : Nat) (data : List Byte) (poison : Bool) (keep : Bool) (errs : List Nat) (s : State) :
    ∀ t, (execHostMemWrite offset data poison keep errs s) = .next t → t.kept = s.kept := by
  intro t h; unfold execHostMemWrite at h; (repeat' split at h) <;> first
    | (cases h; done)
    | (cases h; first | with_reducible rfl | (apply State.kept_congr <;> with_reducible rfl) | (simp only [State.hostWrite_kept, State.undefinedIf_kept]; done) | (simp only [State.hostWrite_kept, State.undefinedIf_kept]; first | with_reducible rfl | (apply State.kept_congr <;> with_reducible rfl)) | grind [State.kept, State.hostWrite_kept, State.undefinedIf_kept, State.foldl_kept])
    | grind [State.kept, State.hostWrite_kept, State.undefinedIf_kept]

theorem execBisnpResponse_kept (line : Nat) (data : Option (List Byte)) (poison : Bool) (s : State) :
    ∀ t, (execBisnpResponse line data poison s) = .next t → t.kept = s.kept := by
  intro t h; unfold execBisnpResponse at h; (repeat' split at h) <;> first
    | (cases h; done)
    | (cases h; first | with_reducible rfl | (apply State.kept_congr <;> with_reducible rfl) | (simp only [State.snoopAnswer_kept]; done) | (simp only [State.snoopAnswer_kept]; first | with_reducible rfl | (apply State.kept_congr <;> with_reducible rfl)) | grind [State.kept, State.snoopAnswer_kept, State.foldl_kept])
    | grind [State.kept, State.snoopAnswer_kept]

theorem execScrubRead_kept (stack : BitVec 4) (sector : Nat) (reserved : Bool) (errs : List Nat) (s : State) :
    ∀ t, (execScrubRead stack sector reserved errs s) = .next t → t.kept = s.kept := by
  intro t h; unfold execScrubRead at h; (repeat' split at h) <;> first
    | (cases h; done)
    | (cases h; first | with_reducible rfl | (apply State.kept_congr <;> with_reducible rfl) | (simp only [State.scrub_kept]; done) | (simp only [State.scrub_kept]; first | with_reducible rfl | (apply State.kept_congr <;> with_reducible rfl)) | grind [State.kept, State.scrub_kept, State.foldl_kept])
    | grind [State.kept, State.scrub_kept]

theorem execLaneRepairStart_kept (pch : BitVec 10) (lane : Nat) (s : State) :
    ∀ t, (execLaneRepairStart pch lane s) = .next t → t.kept = s.kept := by
  intro t h; unfold execLaneRepairStart at h; (repeat' split at h) <;> first
    | (cases h; done)
    | (cases h; first | with_reducible rfl | (apply State.kept_congr <;> with_reducible rfl) | (simp only [State.laneRepairStart_kept]; done) | (simp only [State.laneRepairStart_kept]; first | with_reducible rfl | (apply State.kept_congr <;> with_reducible rfl)) | grind [State.kept, State.laneRepairStart_kept, State.foldl_kept])
    | grind [State.kept, State.laneRepairStart_kept]

theorem execLaneRepairEnd_kept (pch : BitVec 10) (s : State) :
    ∀ t, (execLaneRepairEnd pch s) = .next t → t.kept = s.kept := by
  intro t h; unfold execLaneRepairEnd at h; (repeat' split at h) <;> first
    | (cases h; done)
    | (cases h; first | with_reducible rfl | (apply State.kept_congr <;> with_reducible rfl) | (simp only [State.laneRepairEnd_kept]; done) | (simp only [State.laneRepairEnd_kept]; first | with_reducible rfl | (apply State.kept_congr <;> with_reducible rfl)) | grind [State.kept, State.laneRepairEnd_kept, State.foldl_kept])
    | grind [State.kept, State.laneRepairEnd_kept]

theorem execMemScopeCommit_kept (value : BitVec 32) (s : State) :
    ∀ t, (execMemScopeCommit value s) = .next t → t.kept = s.kept := by
  intro t h; unfold execMemScopeCommit at h; (repeat' split at h) <;> first
    | (cases h; done)
    | (cases h; first | with_reducible rfl | (apply State.kept_congr <;> with_reducible rfl) | (simp only [State.scopeCommit_kept]; done) | (simp only [State.scopeCommit_kept]; first | with_reducible rfl | (apply State.kept_congr <;> with_reducible rfl)) | grind [State.kept, State.scopeCommit_kept, State.foldl_kept])
    | grind [State.kept, State.scopeCommit_kept]

theorem execTierMove_kept (handle : BitVec 32) (dest : Spot) (s : State) :
    ∀ t, (execTierMove handle dest s) = .next t → t.kept = s.kept := by
  intro t h; unfold execTierMove at h; (repeat' split at h) <;> first
    | (cases h; done)
    | (cases h; first | with_reducible rfl | (apply State.kept_congr <;> with_reducible rfl) | (simp only [State.moveTensor_kept]; done) | (simp only [State.moveTensor_kept]; first | with_reducible rfl | (apply State.kept_congr <;> with_reducible rfl)) | grind [State.kept, State.moveTensor_kept, State.foldl_kept])
    | grind [State.kept, State.moveTensor_kept]

theorem execTierReclaim_kept (module : BitVec 15) (s : State) :
    ∀ t, (execTierReclaim module s) = .next t → t.kept = s.kept := by
  intro t h; unfold execTierReclaim at h; (repeat' split at h) <;> first
    | (cases h; done)
    | (cases h; first | with_reducible rfl | (apply State.kept_congr <;> with_reducible rfl) | grind [State.kept, State.foldl_kept])
    | grind [State.kept]

theorem execTierLost_kept (module : BitVec 15) (handle : BitVec 32) (s : State) :
    ∀ t, (execTierLost module handle s) = .next t → t.kept = s.kept := by
  intro t h; unfold execTierLost at h; (repeat' split at h) <;> first
    | (cases h; done)
    | (cases h; first | with_reducible rfl | (apply State.kept_congr <;> with_reducible rfl) | (simp only [State.tierLost_kept]; done) | (simp only [State.tierLost_kept]; first | with_reducible rfl | (apply State.kept_congr <;> with_reducible rfl)) | grind [State.kept, State.tierLost_kept, State.foldl_kept])
    | grind [State.kept, State.tierLost_kept]

theorem execArbiterDecide_kept (block : BitVec 3) (requests : List (BitVec 10 × BitVec 4 × BitVec 5 × BitVec 16)) (s : State) :
    ∀ t, (execArbiterDecide block requests s) = .next t → t.kept = s.kept := by
  intro t h; unfold execArbiterDecide at h; (repeat' split at h) <;> first
    | (cases h; done)
    | (cases h; first | with_reducible rfl | (apply State.kept_congr <;> with_reducible rfl) | (simp only [State.kindEdge_kept]; done) | (simp only [State.kindEdge_kept]; first | with_reducible rfl | (apply State.kept_congr <;> with_reducible rfl)) | grind [State.kept, State.kindEdge_kept, State.foldl_kept])
    | grind [State.kept, State.kindEdge_kept]

theorem execTtCommit_kept (block : BitVec 3) (value : BitVec 32) (s : State) :
    ∀ t, (execTtCommit block value s) = .next t → t.kept = s.kept := by
  intro t h; unfold execTtCommit at h; (repeat' split at h) <;> first
    | (cases h; done)
    | (cases h; first | with_reducible rfl | (apply State.kept_congr <;> with_reducible rfl) | (simp only [State.setArbBlock_kept]; done) | (simp only [State.setArbBlock_kept]; first | with_reducible rfl | (apply State.kept_congr <;> with_reducible rfl)) | grind [State.kept, State.setArbBlock_kept, State.foldl_kept])
    | grind [State.kept, State.setArbBlock_kept]

theorem execHifSqDb_kept (queue : BitVec 6) (index : BitVec 16) (s : State) :
    ∀ t, (execHifSqDb queue index s) = .next t → t.kept = s.kept := by
  intro t h; unfold execHifSqDb at h; (repeat' split at h) <;> first
    | (cases h; done)
    | (cases h; first | with_reducible rfl | (apply State.kept_congr <;> with_reducible rfl) | (simp only [State.sqDb_kept]; done) | (simp only [State.sqDb_kept]; first | with_reducible rfl | (apply State.kept_congr <;> with_reducible rfl)) | grind [State.kept, State.sqDb_kept, State.foldl_kept])
    | grind [State.kept, State.sqDb_kept]

theorem execDispatcherWake_kept (s : State) :
    ∀ t, (execDispatcherWake s) = .next t → t.kept = s.kept := by
  intro t h; unfold execDispatcherWake at h; (repeat' split at h) <;> first
    | (cases h; done)
    | (cases h; first | with_reducible rfl | (apply State.kept_congr <;> with_reducible rfl) | (simp only [State.wakeDispatcher_kept]; done) | (simp only [State.wakeDispatcher_kept]; first | with_reducible rfl | (apply State.kept_congr <;> with_reducible rfl)) | grind [State.kept, State.wakeDispatcher_kept, State.foldl_kept])
    | grind [State.kept, State.wakeDispatcher_kept]

theorem execEntryArrive_kept (s : State) :
    ∀ t, (execEntryArrive s) = .next t → t.kept = s.kept := by
  intro t h; unfold execEntryArrive at h; (repeat' split at h) <;> first
    | (cases h; done)
    | (cases h; first | with_reducible rfl | (apply State.kept_congr <;> with_reducible rfl) | (simp only [State.entryArrive_kept]; done) | (simp only [State.entryArrive_kept]; first | with_reducible rfl | (apply State.kept_congr <;> with_reducible rfl)) | grind [State.kept, State.entryArrive_kept, State.foldl_kept])
    | grind [State.kept, State.entryArrive_kept]

theorem execTaskPlace_kept (s : State) :
    ∀ t, (execTaskPlace s) = .next t → t.kept = s.kept := by
  intro t h; unfold execTaskPlace at h; (repeat' split at h) <;> first
    | (cases h; done)
    | (cases h; first | with_reducible rfl | (apply State.kept_congr <;> with_reducible rfl) | (simp only [State.placeTask_kept]; done) | (simp only [State.placeTask_kept]; first | with_reducible rfl | (apply State.kept_congr <;> with_reducible rfl)) | grind [State.kept, State.placeTask_kept, State.foldl_kept])
    | grind [State.kept, State.placeTask_kept]

theorem execSignalBoxTask_kept (task : BitVec 32) (die : BitVec 3) (cluster : BitVec 4) (s : State) :
    ∀ t, (execSignalBoxTask task die cluster s) = .next t → t.kept = s.kept := by
  unfold execSignalBoxTask; (repeat' split) <;> first
    | (intro t h; cases h; done)
    | (refine withBox_kept _ _ _ _ ?_; intro k; first | with_reducible rfl | (apply State.kept_congr <;> with_reducible rfl) | (simp only [State.boxTask_kept]; done) | (grind [State.kept, State.boxTask_kept]))
    | (intro t h; grind [State.kept, State.boxTask_kept])

theorem execTaskMembersStart_kept (task : BitVec 32) (die : BitVec 3) (cluster : BitVec 4) (s : State) :
    ∀ t, (execTaskMembersStart task die cluster s) = .next t → t.kept = s.kept := by
  unfold execTaskMembersStart; (repeat' split) <;> first
    | (intro t h; cases h; done)
    | (refine withBox_kept _ _ _ _ ?_; intro k; first | with_reducible rfl | (apply State.kept_congr <;> with_reducible rfl) | (simp only [State.boxStart_kept]; done) | (grind [State.kept, State.boxStart_kept]))
    | (intro t h; grind [State.kept, State.boxStart_kept])

theorem execFaultReport_kept (cell : CellId) (s : State) :
    ∀ t, (execFaultReport cell s) = .next t → t.kept = s.kept := by
  unfold execFaultReport; (repeat' split) <;> first
    | (intro t h; cases h; done)
    | (refine withCell_kept _ _ _ ?_; first | with_reducible rfl | (apply State.kept_congr <;> with_reducible rfl) | (simp only [withCell_kept, State.takeFault_kept]; done) | (grind [State.kept, withCell_kept, State.takeFault_kept]))
    | (intro t h; grind [State.kept, withCell_kept, State.takeFault_kept])

theorem execMemberStop_kept (cell : CellId) (s : State) :
    ∀ t, (execMemberStop cell s) = .next t → t.kept = s.kept := by
  unfold execMemberStop; (repeat' split) <;> first
    | (intro t h; cases h; done)
    | (refine withCell_kept _ _ _ ?_; first | with_reducible rfl | (apply State.kept_congr <;> with_reducible rfl) | (simp only [withCell_kept, State.stopMember_kept]; done) | (grind [State.kept, withCell_kept, State.stopMember_kept]))
    | (intro t h; grind [State.kept, withCell_kept, State.stopMember_kept])

theorem execTaskEnd_kept (task : BitVec 32) (s : State) :
    ∀ t, (execTaskEnd task s) = .next t → t.kept = s.kept := by
  intro t h; unfold execTaskEnd at h; (repeat' split at h) <;> first
    | (cases h; done)
    | (cases h; first | with_reducible rfl | (apply State.kept_congr <;> with_reducible rfl) | (simp only [State.endTask_kept, State.learn_kept]; done) | (simp only [State.endTask_kept, State.learn_kept]; first | with_reducible rfl | (apply State.kept_congr <;> with_reducible rfl)) | grind [State.kept, State.endTask_kept, State.learn_kept, State.foldl_kept])
    | grind [State.kept, State.endTask_kept, State.learn_kept]

theorem execCompletionRecordWrite_kept (queue : BitVec 6) (s : State) :
    ∀ t, (execCompletionRecordWrite queue s) = .next t → t.kept = s.kept := by
  intro t h; unfold execCompletionRecordWrite at h; (repeat' split at h) <;> first
    | (cases h; done)
    | (cases h; first | with_reducible rfl | (apply State.kept_congr <;> with_reducible rfl) | (simp only [State.writeRecord_kept]; done) | (simp only [State.writeRecord_kept]; first | with_reducible rfl | (apply State.kept_congr <;> with_reducible rfl)) | grind [State.kept, State.writeRecord_kept, State.foldl_kept])
    | grind [State.kept, State.writeRecord_kept]

theorem execEnqRequest_kept (cell : CellId) (s : State) :
    ∀ t, (execEnqRequest cell s) = .next t → t.kept = s.kept := by
  unfold execEnqRequest; (repeat' split) <;> first
    | (intro t h; cases h; done)
    | (refine withCell_kept _ _ _ ?_; first | with_reducible rfl | (apply State.kept_congr <;> with_reducible rfl) | (simp only [withCell_kept, State.answerEnq_kept]; done) | (grind [State.kept, withCell_kept, State.answerEnq_kept]))
    | (intro t h; grind [State.kept, withCell_kept, State.answerEnq_kept])

theorem execEnqAnswer_kept (cell : CellId) (s : State) :
    ∀ t, (execEnqAnswer cell s) = .next t → t.kept = s.kept := by
  unfold execEnqAnswer; (repeat' split) <;> first
    | (intro t h; cases h; done)
    | (refine withCell_kept _ _ _ ?_; first | with_reducible rfl | (apply State.kept_congr <;> with_reducible rfl) | (simp only [withCell_kept, State.observeEnq_kept]; done) | (grind [State.kept, withCell_kept, State.observeEnq_kept]))
    | (intro t h; grind [State.kept, withCell_kept, State.observeEnq_kept])

theorem execEnqTimeout_kept (cell : CellId) (s : State) :
    ∀ t, (execEnqTimeout cell s) = .next t → t.kept = s.kept := by
  unfold execEnqTimeout; (repeat' split) <;> first
    | (intro t h; cases h; done)
    | (refine withCell_kept _ _ _ ?_; first | with_reducible rfl | (apply State.kept_congr <;> with_reducible rfl) | (simp only [withCell_kept, State.timeoutEnq_kept]; done) | (grind [State.kept, withCell_kept, State.timeoutEnq_kept]))
    | (intro t h; grind [State.kept, withCell_kept, State.timeoutEnq_kept])

theorem execPmapCommit_kept (s : State) :
    ∀ t, (execPmapCommit s) = .next t → t.kept = s.kept := by
  intro t h; unfold execPmapCommit at h; (repeat' split at h) <;> first
    | (cases h; done)
    | (cases h; first | with_reducible rfl | (apply State.kept_congr <;> with_reducible rfl) | (simp only [State.commitPmap_kept]; done) | (simp only [State.commitPmap_kept]; first | with_reducible rfl | (apply State.kept_congr <;> with_reducible rfl)) | grind [State.kept, State.commitPmap_kept, State.foldl_kept])
    | grind [State.kept, State.commitPmap_kept]

theorem execHifCqHead_kept (queue : BitVec 6) (index : BitVec 16) (s : State) :
    ∀ t, (execHifCqHead queue index s) = .next t → t.kept = s.kept := by
  intro t h; unfold execHifCqHead at h; (repeat' split at h) <;> first
    | (cases h; done)
    | (cases h; first | with_reducible rfl | (apply State.kept_congr <;> with_reducible rfl) | (simp only [State.cqHead_kept]; done) | (simp only [State.cqHead_kept]; first | with_reducible rfl | (apply State.kept_congr <;> with_reducible rfl)) | grind [State.kept, State.cqHead_kept, State.foldl_kept])
    | grind [State.kept, State.cqHead_kept]

theorem execHifEvHead_kept (index : BitVec 16) (s : State) :
    ∀ t, (execHifEvHead index s) = .next t → t.kept = s.kept := by
  intro t h; unfold execHifEvHead at h; (repeat' split at h) <;> first
    | (cases h; done)
    | (cases h; first | with_reducible rfl | (apply State.kept_congr <;> with_reducible rfl) | (simp only [State.evHead_kept]; done) | (simp only [State.evHead_kept]; first | with_reducible rfl | (apply State.kept_congr <;> with_reducible rfl)) | grind [State.kept, State.evHead_kept, State.foldl_kept])
    | grind [State.kept, State.evHead_kept]

theorem execHifLease_kept (number : BitVec 32) (s : State) :
    ∀ t, (execHifLease number s) = .next t → t.kept = s.kept := by
  intro t h; unfold execHifLease at h; (repeat' split at h) <;> first
    | (cases h; done)
    | (cases h; first | with_reducible rfl | (apply State.kept_congr <;> with_reducible rfl) | (simp only [State.renewLease_kept]; done) | (simp only [State.renewLease_kept]; first | with_reducible rfl | (apply State.kept_congr <;> with_reducible rfl)) | grind [State.kept, State.renewLease_kept, State.foldl_kept])
    | grind [State.kept, State.renewLease_kept]

theorem execLeaseExpiry_kept (s : State) :
    ∀ t, (execLeaseExpiry s) = .next t → t.kept = s.kept := by
  intro t h; unfold execLeaseExpiry at h; (repeat' split at h) <;> first
    | (cases h; done)
    | (cases h; first | with_reducible rfl | (apply State.kept_congr <;> with_reducible rfl) | (simp only [State.leaseExpiry_kept]; done) | (simp only [State.leaseExpiry_kept]; first | with_reducible rfl | (apply State.kept_congr <;> with_reducible rfl)) | grind [State.kept, State.leaseExpiry_kept, State.foldl_kept])
    | grind [State.kept, State.leaseExpiry_kept]

theorem execCplWriteFailed_kept (queue : BitVec 6) (noAnswer : Bool) (s : State) :
    ∀ t, (execCplWriteFailed queue noAnswer s) = .next t → t.kept = s.kept := by
  intro t h; unfold execCplWriteFailed at h; (repeat' split at h) <;> first
    | (cases h; done)
    | (cases h; first | with_reducible rfl | (apply State.kept_congr <;> with_reducible rfl) | (simp only [State.recordFailed_kept]; done) | (simp only [State.recordFailed_kept]; first | with_reducible rfl | (apply State.kept_congr <;> with_reducible rfl)) | grind [State.kept, State.recordFailed_kept, State.foldl_kept])
    | grind [State.kept, State.recordFailed_kept]

theorem execFetchFailed_kept (noAnswer : Bool) (s : State) :
    ∀ t, (execFetchFailed noAnswer s) = .next t → t.kept = s.kept := by
  intro t h; unfold execFetchFailed at h; (repeat' split at h) <;> first
    | (cases h; done)
    | (cases h; first | with_reducible rfl | (apply State.kept_congr <;> with_reducible rfl) | (simp only [State.fetchFailed_kept]; done) | (simp only [State.fetchFailed_kept]; first | with_reducible rfl | (apply State.kept_congr <;> with_reducible rfl)) | grind [State.kept, State.fetchFailed_kept, State.foldl_kept])
    | grind [State.kept, State.fetchFailed_kept]

theorem execEventWriteFailed_kept (noAnswer : Bool) (s : State) :
    ∀ t, (execEventWriteFailed noAnswer s) = .next t → t.kept = s.kept := by
  intro t h; unfold execEventWriteFailed at h; (repeat' split at h) <;> first
    | (cases h; done)
    | (cases h; first | with_reducible rfl | (apply State.kept_congr <;> with_reducible rfl) | (simp only [State.eventFailed_kept]; done) | (simp only [State.eventFailed_kept]; first | with_reducible rfl | (apply State.kept_congr <;> with_reducible rfl)) | grind [State.kept, State.eventFailed_kept, State.foldl_kept])
    | grind [State.kept, State.eventFailed_kept]

theorem execMsixCoalesceTimeout_kept (queue : BitVec 6) (s : State) :
    ∀ t, (execMsixCoalesceTimeout queue s) = .next t → t.kept = s.kept := by
  intro t h; unfold execMsixCoalesceTimeout at h; (repeat' split at h) <;> first
    | (cases h; done)
    | (cases h; first | with_reducible rfl | (apply State.kept_congr <;> with_reducible rfl) | (simp only [State.coalesceTimeout_kept]; done) | (simp only [State.coalesceTimeout_kept]; first | with_reducible rfl | (apply State.kept_congr <;> with_reducible rfl)) | grind [State.kept, State.coalesceTimeout_kept, State.foldl_kept])
    | grind [State.kept, State.coalesceTimeout_kept]

theorem execRecordWriteCompleted_kept (queue : BitVec 7) (s : State) :
    ∀ t, (execRecordWriteCompleted queue s) = .next t → t.kept = s.kept := by
  intro t h; unfold execRecordWriteCompleted at h; (repeat' split at h) <;> first
    | (cases h; done)
    | (cases h; first | with_reducible rfl | (apply State.kept_congr <;> with_reducible rfl) | (simp only [State.writeCompleted_kept]; done) | (simp only [State.writeCompleted_kept]; first | with_reducible rfl | (apply State.kept_congr <;> with_reducible rfl)) | grind [State.kept, State.writeCompleted_kept, State.foldl_kept])
    | grind [State.kept, State.writeCompleted_kept]

theorem execCxlLinkChange_kept (up : Bool) (width : Nat) (rate : Nat) (s : State) :
    ∀ t, (execCxlLinkChange up width rate s) = .next t → t.kept = s.kept := by
  intro t h; unfold execCxlLinkChange at h; (repeat' split at h) <;> first
    | (cases h; done)
    | (cases h; first | with_reducible rfl | (apply State.kept_congr <;> with_reducible rfl) | (simp only [State.linkChange_kept]; done) | (simp only [State.linkChange_kept]; first | with_reducible rfl | (apply State.kept_congr <;> with_reducible rfl)) | grind [State.kept, State.linkChange_kept, State.foldl_kept])
    | grind [State.kept, State.linkChange_kept]

theorem execPerstAssert_kept (s : State) :
    ∀ t, (execPerstAssert s) = .next t → t.kept = s.kept := by
  intro t h; unfold execPerstAssert at h; (repeat' split at h) <;> first
    | (cases h; done)
    | (cases h; first | with_reducible rfl | (apply State.kept_congr <;> with_reducible rfl) | (simp only [State.perstAssert_kept]; done) | (simp only [State.perstAssert_kept]; first | with_reducible rfl | (apply State.kept_congr <;> with_reducible rfl)) | grind [State.kept, State.perstAssert_kept, State.foldl_kept])
    | grind [State.kept, State.perstAssert_kept]

theorem execPerstRelease_kept (s : State) :
    ∀ t, (execPerstRelease s) = .next t → t.kept = s.kept := by
  intro t h; unfold execPerstRelease at h; (repeat' split at h) <;> first
    | (cases h; done)
    | (cases h; first | with_reducible rfl | (apply State.kept_congr <;> with_reducible rfl) | grind [State.kept, State.foldl_kept])
    | grind [State.kept]

theorem execAttach_kept (lease : BitVec 32) (s : State) :
    ∀ t, (execAttach lease s) = .next t → t.kept = s.kept := by
  unfold execAttach; exact mbRow_kept _ _ _ _ fun v => State.attach_kept _ _

theorem execDetach_kept (s : State) :
    ∀ t, (execDetach s) = .next t → t.kept = s.kept := by
  unfold execDetach; refine mbRow_kept _ _ _ _ fun v => ?_; (try dsimp only); (repeat' split) <;> first
    | exact trivial
    | (show State.kept _ = _; first | with_reducible rfl | (apply State.kept_congr <;> with_reducible rfl) | (simp only [State.detach_kept]; done) | (simp only [State.detach_kept]; first | with_reducible rfl | (apply State.kept_congr <;> with_reducible rfl)) | grind [State.kept, State.detach_kept, State.foldl_kept])

theorem execQueueCreate_kept (s : State) :
    ∀ t, (execQueueCreate s) = .next t → t.kept = s.kept := by
  unfold execQueueCreate; exact mbRow_kept _ _ _ _ fun v => State.queueCreate_kept _

theorem execQueueDelete_kept (s : State) :
    ∀ t, (execQueueDelete s) = .next t → t.kept = s.kept := by
  unfold execQueueDelete; exact mbRow_kept _ _ _ _ fun v => State.queueDelete_kept _

theorem execQueueRebind_kept (s : State) :
    ∀ t, (execQueueRebind s) = .next t → t.kept = s.kept := by
  unfold execQueueRebind; exact mbRow_kept _ _ _ _ fun v => State.queueRebind_kept _

theorem execResume_kept (s : State) :
    ∀ t, (execResume s) = .next t → t.kept = s.kept := by
  unfold execResume; exact mbRow_kept _ _ _ _ fun v => State.resume_kept _

theorem execTaskAbort_kept (s : State) :
    ∀ t, (execTaskAbort s) = .next t → t.kept = s.kept := by
  unfold execTaskAbort; exact mbRow_kept _ _ _ _ fun v => State.taskAbort_kept _

theorem execTensorCreate_kept (handle : BitVec 32) (scope : BitVec 2) (place : Option Spot) (s : State) :
    ∀ t, (execTensorCreate handle scope place s) = .next t → t.kept = s.kept := by
  unfold execTensorCreate; exact mbRow_kept _ _ _ _ fun v => State.tensorCreate_kept _ _ _ _

theorem execTensorFree_kept (s : State) :
    ∀ t, (execTensorFree s) = .next t → t.kept = s.kept := by
  unfold execTensorFree; exact mbRow_kept _ _ _ _ fun v => State.tensorFree_kept _

theorem execTensorPin_kept (place : Option Spot) (s : State) :
    ∀ t, (execTensorPin place s) = .next t → t.kept = s.kept := by
  unfold execTensorPin; exact mbRow_kept _ _ _ _ fun v => State.tensorPin_kept _ _

theorem execTensorUnpin_kept (s : State) :
    ∀ t, (execTensorUnpin s) = .next t → t.kept = s.kept := by
  unfold execTensorUnpin; exact mbRow_kept _ _ _ _ fun v => State.tensorUnpin_kept _

theorem execTensorQuery_kept (s : State) :
    ∀ t, (execTensorQuery s) = .next t → t.kept = s.kept := by
  unfold execTensorQuery; exact mbRow_kept _ _ _ _ fun v => State.tensorQuery_kept _

theorem execHostGrant_kept (id : BitVec 32) (s : State) :
    ∀ t, (execHostGrant id s) = .next t → t.kept = s.kept := by
  unfold execHostGrant; exact mbRow_kept _ _ _ _ fun v => State.hostGrant_kept _ _

theorem execHostRevoke_kept (moves : List (BitVec 32 × Spot)) (s : State) :
    ∀ t, (execHostRevoke moves s) = .next t → t.kept = s.kept := by
  unfold execHostRevoke; exact mbRow_kept _ _ _ _ fun v => State.hostRevoke_kept _ _

theorem execConfigSet_kept (s : State) :
    ∀ t, (execConfigSet s) = .next t → t.kept = s.kept := by
  unfold execConfigSet; exact mbRow_kept _ _ _ _ fun v => State.configSet_kept _

theorem execEventRingSet_kept (s : State) :
    ∀ t, (execEventRingSet s) = .next t → t.kept = s.kept := by
  unfold execEventRingSet; exact mbRow_kept _ _ _ _ fun v => State.eventRingSet_kept _

theorem execMbUnknownOpc_kept (s : State) :
    ∀ t, (execMbUnknownOpc s) = .next t → t.kept = s.kept := by
  intro t h; unfold execMbUnknownOpc at h; (repeat' split at h) <;> first
    | (cases h; done)
    | (cases h; first | with_reducible rfl | (apply State.kept_congr <;> with_reducible rfl) | (simp only [State.mbAnswer_kept]; done) | (simp only [State.mbAnswer_kept]; first | with_reducible rfl | (apply State.kept_congr <;> with_reducible rfl)) | grind [State.kept, State.mbAnswer_kept, State.foldl_kept])
    | grind [State.kept, State.mbAnswer_kept]

theorem execFunctionLevelReset_kept (s : State) :
    ∀ t, (execFunctionLevelReset s) = .next t → t.kept = s.kept := by
  intro t h; unfold execFunctionLevelReset at h; cases h; split
  · exact State.flr_kept _
  · rfl

theorem execAux12vPresent_kept (slot : BitVec 3) (s : State) :
    ∀ t, (execAux12vPresent slot s) = .next t → t.kept = s.kept := by
  intro t h; unfold execAux12vPresent at h; (repeat' split at h) <;> first
    | (cases h; done)
    | (cases h; first | with_reducible rfl | (apply State.kept_congr <;> with_reducible rfl) | (simp only [State.auxOn_kept]; done) | (simp only [State.auxOn_kept]; first | with_reducible rfl | (apply State.kept_congr <;> with_reducible rfl)) | grind [State.kept, State.auxOn_kept, State.foldl_kept])
    | grind [State.kept, State.auxOn_kept]

theorem execAux12vAbsent_kept (s : State) :
    ∀ t, (execAux12vAbsent s) = .next t → t.kept = s.kept := by
  intro t h; unfold execAux12vAbsent at h; (repeat' split at h) <;> first
    | (cases h; done)
    | (cases h; first | with_reducible rfl | (apply State.kept_congr <;> with_reducible rfl) | (simp only [State.auxOff_kept]; done) | (simp only [State.auxOff_kept]; first | with_reducible rfl | (apply State.kept_congr <;> with_reducible rfl)) | grind [State.kept, State.auxOff_kept, State.foldl_kept])
    | grind [State.kept, State.auxOff_kept]

theorem execMainDwellElapsed_kept (s : State) :
    ∀ t, (execMainDwellElapsed s) = .next t → t.kept = s.kept := by
  intro t h; unfold execMainDwellElapsed at h; (repeat' split at h) <;> first
    | (cases h; done)
    | (cases h; first | with_reducible rfl | (apply State.kept_congr <;> with_reducible rfl) | (simp only [State.dwell_kept]; done) | (simp only [State.dwell_kept]; first | with_reducible rfl | (apply State.kept_congr <;> with_reducible rfl)) | grind [State.kept, State.dwell_kept, State.foldl_kept])
    | grind [State.kept, State.dwell_kept]

theorem execInrushCharged_kept (flash : List (BitVec 4)) (found : Training) (s : State) :
    ∀ t, (execInrushCharged flash found s) = .next t → t.kept = s.kept := by
  intro t h; unfold execInrushCharged at h; (repeat' split at h) <;> first
    | (cases h; done)
    | (cases h; first | with_reducible rfl | (apply State.kept_congr <;> with_reducible rfl) | (simp only [State.charged_kept]; done) | (simp only [State.charged_kept]; first | with_reducible rfl | (apply State.kept_congr <;> with_reducible rfl)) | grind [State.kept, State.charged_kept, State.foldl_kept])
    | grind [State.kept, State.charged_kept]

theorem execOvervoltage_kept (volt : BitVec 16) (s : State) :
    ∀ t, (execOvervoltage volt s) = .next t → t.kept = s.kept := by
  intro t h; unfold execOvervoltage at h; (repeat' split at h) <;> first
    | (cases h; done)
    | (cases h; first | with_reducible rfl | (apply State.kept_congr <;> with_reducible rfl) | (simp only [State.overvoltage_kept]; done) | (simp only [State.overvoltage_kept]; first | with_reducible rfl | (apply State.kept_congr <;> with_reducible rfl)) | grind [State.kept, State.overvoltage_kept, State.foldl_kept])
    | grind [State.kept, State.overvoltage_kept]

theorem execInputWarn_kept (volt : BitVec 16) (s : State) :
    ∀ t, (execInputWarn volt s) = .next t → t.kept = s.kept := by
  intro t h; unfold execInputWarn at h; (repeat' split at h) <;> first
    | (cases h; done)
    | (cases h; first | with_reducible rfl | (apply State.kept_congr <;> with_reducible rfl) | (simp only [State.inputWarn_kept]; done) | (simp only [State.inputWarn_kept]; first | with_reducible rfl | (apply State.kept_congr <;> with_reducible rfl)) | grind [State.kept, State.inputWarn_kept, State.foldl_kept])
    | grind [State.kept, State.inputWarn_kept]

theorem execInputWarnClear_kept (low : BitVec 16) (s : State) :
    ∀ t, (execInputWarnClear low s) = .next t → t.kept = s.kept := by
  intro t h; unfold execInputWarnClear at h; (repeat' split at h) <;> first
    | (cases h; done)
    | (cases h; first | with_reducible rfl | (apply State.kept_congr <;> with_reducible rfl) | (simp only [State.inputClear_kept]; done) | (simp only [State.inputClear_kept]; first | with_reducible rfl | (apply State.kept_congr <;> with_reducible rfl)) | grind [State.kept, State.inputClear_kept, State.foldl_kept])
    | grind [State.kept, State.inputClear_kept]

theorem execInputReset_kept (low : BitVec 16) (s : State) :
    ∀ t, (execInputReset low s) = .next t → t.kept = s.kept := by
  intro t h; unfold execInputReset at h; (repeat' split at h) <;> first
    | (cases h; done)
    | (cases h; first | with_reducible rfl | (apply State.kept_congr <;> with_reducible rfl) | (simp only [State.inputReset_kept]; done) | (simp only [State.inputReset_kept]; first | with_reducible rfl | (apply State.kept_congr <;> with_reducible rfl)) | grind [State.kept, State.inputReset_kept, State.foldl_kept])
    | grind [State.kept, State.inputReset_kept]

theorem execRailWarn_kept (die : BitVec 3) (rail : BitVec 10) (s : State) :
    ∀ t, (execRailWarn die rail s) = .next t → t.kept = s.kept := by
  intro t h; unfold execRailWarn at h; (repeat' split at h) <;> first
    | (cases h; done)
    | (cases h; first | with_reducible rfl | (apply State.kept_congr <;> with_reducible rfl) | (simp only [State.railWarn_kept]; done) | (simp only [State.railWarn_kept]; first | with_reducible rfl | (apply State.kept_congr <;> with_reducible rfl)) | grind [State.kept, State.railWarn_kept, State.foldl_kept])
    | grind [State.kept, State.railWarn_kept]

theorem execRailWarnClear_kept (die : BitVec 3) (low : BitVec 10) (s : State) :
    ∀ t, (execRailWarnClear die low s) = .next t → t.kept = s.kept := by
  intro t h; unfold execRailWarnClear at h; (repeat' split at h) <;> first
    | (cases h; done)
    | (cases h; first | with_reducible rfl | (apply State.kept_congr <;> with_reducible rfl) | (simp only [State.railClear_kept]; done) | (simp only [State.railClear_kept]; first | with_reducible rfl | (apply State.kept_congr <;> with_reducible rfl)) | grind [State.kept, State.railClear_kept, State.foldl_kept])
    | grind [State.kept, State.railClear_kept]

theorem execRailReset_kept (die : BitVec 3) (low : BitVec 10) (s : State) :
    ∀ t, (execRailReset die low s) = .next t → t.kept = s.kept := by
  intro t h; unfold execRailReset at h; (repeat' split at h) <;> first
    | (cases h; done)
    | (cases h; first | with_reducible rfl | (apply State.kept_congr <;> with_reducible rfl) | (simp only [State.railReset_kept]; done) | (simp only [State.railReset_kept]; first | with_reducible rfl | (apply State.kept_congr <;> with_reducible rfl)) | grind [State.kept, State.railReset_kept, State.foldl_kept])
    | grind [State.kept, State.railReset_kept]

theorem execRailResetRestart_kept (flash : List (BitVec 4)) (s : State) :
    ∀ t, (execRailResetRestart flash s) = .next t → t.kept = s.kept := by
  intro t h; unfold execRailResetRestart at h; (repeat' split at h) <;> first
    | (cases h; done)
    | (cases h; first | with_reducible rfl | (apply State.kept_congr <;> with_reducible rfl) | (simp only [State.railRestart_kept]; done) | (simp only [State.railRestart_kept]; first | with_reducible rfl | (apply State.kept_congr <;> with_reducible rfl)) | grind [State.kept, State.railRestart_kept, State.foldl_kept])
    | grind [State.kept, State.railRestart_kept]

theorem execThermalThrottle_kept (die : BitVec 4) (temp : BitVec 8) (s : State) :
    ∀ t, (execThermalThrottle die temp s) = .next t → t.kept = s.kept := by
  intro t h; unfold execThermalThrottle at h; (repeat' split at h) <;> first
    | (cases h; done)
    | (cases h; first | with_reducible rfl | (apply State.kept_congr <;> with_reducible rfl) | (simp only [withDie_kept, State.thermThrottle_kept]; done) | (simp only [withDie_kept, State.thermThrottle_kept]; first | with_reducible rfl | (apply State.kept_congr <;> with_reducible rfl)) | grind [State.kept, withDie_kept, State.thermThrottle_kept, State.foldl_kept])
    | grind [State.kept, withDie_kept, State.thermThrottle_kept]

theorem execThermalThrottleEnd_kept (die : BitVec 4) (temp : BitVec 8) (s : State) :
    ∀ t, (execThermalThrottleEnd die temp s) = .next t → t.kept = s.kept := by
  intro t h; unfold execThermalThrottleEnd at h; (repeat' split at h) <;> first
    | (cases h; done)
    | (cases h; first | with_reducible rfl | (apply State.kept_congr <;> with_reducible rfl) | (simp only [withDie_kept, State.throttleEnd_kept]; done) | (simp only [withDie_kept, State.throttleEnd_kept]; first | with_reducible rfl | (apply State.kept_congr <;> with_reducible rfl)) | grind [State.kept, withDie_kept, State.throttleEnd_kept, State.foldl_kept])
    | grind [State.kept, withDie_kept, State.throttleEnd_kept]

theorem execThermalWarn_kept (die : BitVec 4) (temp : BitVec 8) (s : State) :
    ∀ t, (execThermalWarn die temp s) = .next t → t.kept = s.kept := by
  intro t h; unfold execThermalWarn at h; (repeat' split at h) <;> first
    | (cases h; done)
    | (cases h; first | with_reducible rfl | (apply State.kept_congr <;> with_reducible rfl) | (simp only [withDie_kept, State.thermWarn_kept]; done) | (simp only [withDie_kept, State.thermWarn_kept]; first | with_reducible rfl | (apply State.kept_congr <;> with_reducible rfl)) | grind [State.kept, withDie_kept, State.thermWarn_kept, State.foldl_kept])
    | grind [State.kept, withDie_kept, State.thermWarn_kept]

theorem execThermalWarnClear_kept (die : BitVec 4) (temp : BitVec 8) (high : BitVec 8) (s : State) :
    ∀ t, (execThermalWarnClear die temp high s) = .next t → t.kept = s.kept := by
  intro t h; unfold execThermalWarnClear at h; (repeat' split at h) <;> first
    | (cases h; done)
    | (cases h; first | with_reducible rfl | (apply State.kept_congr <;> with_reducible rfl) | (simp only [withDie_kept, State.thermClear_kept]; done) | (simp only [withDie_kept, State.thermClear_kept]; first | with_reducible rfl | (apply State.kept_congr <;> with_reducible rfl)) | grind [State.kept, withDie_kept, State.thermClear_kept, State.foldl_kept])
    | grind [State.kept, withDie_kept, State.thermClear_kept]

theorem execThermalTripWarning_kept (die : BitVec 4) (s : State) :
    ∀ t, (execThermalTripWarning die s) = .next t → t.kept = s.kept := by
  intro t h; unfold execThermalTripWarning at h; (repeat' split at h) <;> first
    | (cases h; done)
    | (cases h; first | with_reducible rfl | (apply State.kept_congr <;> with_reducible rfl) | (simp only [withDie_kept, State.tripWarning_kept]; done) | (simp only [withDie_kept, State.tripWarning_kept]; first | with_reducible rfl | (apply State.kept_congr <;> with_reducible rfl)) | grind [State.kept, withDie_kept, State.tripWarning_kept, State.foldl_kept])
    | grind [State.kept, withDie_kept, State.tripWarning_kept]

theorem execThermalTrip_kept (die : BitVec 4) (temp : BitVec 8) (s : State) :
    ∀ t, (execThermalTrip die temp s) = .next t → t.kept = s.kept := by
  intro t h; unfold execThermalTrip at h; (repeat' split at h) <;> first
    | (cases h; done)
    | (cases h; first | with_reducible rfl | (apply State.kept_congr <;> with_reducible rfl) | (simp only [withDie_kept, State.thermTrip_kept]; done) | (simp only [withDie_kept, State.thermTrip_kept]; first | with_reducible rfl | (apply State.kept_congr <;> with_reducible rfl)) | grind [State.kept, withDie_kept, State.thermTrip_kept, State.foldl_kept])
    | grind [State.kept, withDie_kept, State.thermTrip_kept]

theorem execTripCooldown_kept (temps : List (BitVec 8)) (flash : List (BitVec 4)) (found : Training) (s : State) :
    ∀ t, (execTripCooldown temps flash found s) = .next t → t.kept = s.kept := by
  intro t h; unfold execTripCooldown at h; (repeat' split at h) <;> first
    | (cases h; done)
    | (cases h; first | with_reducible rfl | (apply State.kept_congr <;> with_reducible rfl) | (simp only [State.cooldown_kept]; done) | (simp only [State.cooldown_kept]; first | with_reducible rfl | (apply State.kept_congr <;> with_reducible rfl)) | grind [State.kept, State.cooldown_kept, State.foldl_kept])
    | grind [State.kept, State.cooldown_kept]

theorem execPowerGrant_kept (watts : BitVec 16) (seq : BitVec 16) (life : BitVec 16) (s : State) :
    ∀ t, (execPowerGrant watts seq life s) = .next t → t.kept = s.kept := by
  intro t h; unfold execPowerGrant at h; (repeat' split at h) <;> first
    | (cases h; done)
    | (cases h; first | with_reducible rfl | (apply State.kept_congr <;> with_reducible rfl) | (simp only [State.takeGrant_kept]; done) | (simp only [State.takeGrant_kept]; first | with_reducible rfl | (apply State.kept_congr <;> with_reducible rfl)) | grind [State.kept, State.takeGrant_kept, State.foldl_kept])
    | grind [State.kept, State.takeGrant_kept]

theorem execGrantExpiry_kept (s : State) :
    ∀ t, (execGrantExpiry s) = .next t → t.kept = s.kept := by
  intro t h; unfold execGrantExpiry at h; (repeat' split at h) <;> first
    | (cases h; done)
    | (cases h; first | with_reducible rfl | (apply State.kept_congr <;> with_reducible rfl) | (simp only [State.grantExpiry_kept]; done) | (simp only [State.grantExpiry_kept]; first | with_reducible rfl | (apply State.kept_congr <;> with_reducible rfl)) | grind [State.kept, State.grantExpiry_kept, State.foldl_kept])
    | grind [State.kept, State.grantExpiry_kept]

theorem execControlPeriod_kept (rails : List (BitVec 10)) (duty : List (BitVec 7)) (hbm : List (BitVec 7)) (temps : List (BitVec 8)) (volt : BitVec 16) (watts : BitVec 12) (s : State) :
    ∀ t, (execControlPeriod rails duty hbm temps volt watts s) = .next t → t.kept = s.kept := by
  intro t h; unfold execControlPeriod at h; (repeat' split at h) <;> first
    | (cases h; done)
    | (cases h; first | with_reducible rfl | (apply State.kept_congr <;> with_reducible rfl) | (simp only [State.controlPeriod_kept]; done) | (simp only [State.controlPeriod_kept]; first | with_reducible rfl | (apply State.kept_congr <;> with_reducible rfl)) | grind [State.kept, State.controlPeriod_kept, State.foldl_kept])
    | grind [State.kept, State.controlPeriod_kept]

theorem execCapTableCommit_kept (s : State) :
    ∀ t, (execCapTableCommit s) = .next t → t.kept = s.kept := by
  intro t h; unfold execCapTableCommit at h; (repeat' split at h) <;> first
    | (cases h; done)
    | (cases h; first | with_reducible rfl | (apply State.kept_congr <;> with_reducible rfl) | (simp only [State.capCommit_kept]; done) | (simp only [State.capCommit_kept]; first | with_reducible rfl | (apply State.kept_congr <;> with_reducible rfl)) | grind [State.kept, State.capCommit_kept, State.foldl_kept])
    | grind [State.kept, State.capCommit_kept]

theorem execEstimateUntrusted_kept (estimate : BitVec 16) (measured : BitVec 16) (phases : List (BitVec 16)) (s : State) :
    ∀ t, (execEstimateUntrusted estimate measured phases s) = .next t → t.kept = s.kept := by
  intro t h; unfold execEstimateUntrusted at h; (repeat' split at h) <;> first
    | (cases h; done)
    | (cases h; first | with_reducible rfl | (apply State.kept_congr <;> with_reducible rfl) | (simp only [State.untrust_kept]; done) | (simp only [State.untrust_kept]; first | with_reducible rfl | (apply State.kept_congr <;> with_reducible rfl)) | grind [State.kept, State.untrust_kept, State.foldl_kept])
    | grind [State.kept, State.untrust_kept]

theorem execEstimateTrusted_kept (estimate : BitVec 16) (measured : BitVec 16) (s : State) :
    ∀ t, (execEstimateTrusted estimate measured s) = .next t → t.kept = s.kept := by
  intro t h; unfold execEstimateTrusted at h; (repeat' split at h) <;> first
    | (cases h; done)
    | (cases h; first | with_reducible rfl | (apply State.kept_congr <;> with_reducible rfl) | (simp only [State.trust_kept]; done) | (simp only [State.trust_kept]; first | with_reducible rfl | (apply State.kept_congr <;> with_reducible rfl)) | grind [State.kept, State.trust_kept, State.foldl_kept])
    | grind [State.kept, State.trust_kept]

theorem execHwLimit_kept (average : BitVec 16) (s : State) :
    ∀ t, (execHwLimit average s) = .next t → t.kept = s.kept := by
  intro t h; unfold execHwLimit at h; (repeat' split at h) <;> first
    | (cases h; done)
    | (cases h; first | with_reducible rfl | (apply State.kept_congr <;> with_reducible rfl) | (simp only [State.hwLimit_kept]; done) | (simp only [State.hwLimit_kept]; first | with_reducible rfl | (apply State.kept_congr <;> with_reducible rfl)) | grind [State.kept, State.hwLimit_kept, State.foldl_kept])
    | grind [State.kept, State.hwLimit_kept]

theorem execColContribution_kept (s : State) :
    ∀ t, (execColContribution s) = .next t → t.kept = s.kept := by
  intro t h; unfold execColContribution at h; (repeat' split at h) <;> first
    | (cases h; done)
    | (cases h; first | with_reducible rfl | (apply State.kept_congr <;> with_reducible rfl) | (simp only [State.contribution_kept, State.mixed_kept]; done) | (simp only [State.contribution_kept, State.mixed_kept]; first | with_reducible rfl | (apply State.kept_congr <;> with_reducible rfl)) | grind [State.kept, State.contribution_kept, State.mixed_kept, State.foldl_kept])
    | grind [State.kept, State.contribution_kept, State.mixed_kept]

theorem execColData_kept (src : BitVec 15) (group : BitVec 12) (ver : BitVec 16) (opseq : BitVec 32) (stage : BitVec 32) (offset : BitVec 32) (data : List Byte) (poison : List Nat) (s : State) :
    ∀ t, (execColData src group ver opseq stage offset data poison s) = .next t → t.kept = s.kept := by
  intro t h; unfold execColData at h; (repeat' split at h) <;> first
    | (cases h; done)
    | (cases h; first | with_reducible rfl | (apply State.kept_congr <;> with_reducible rfl) | (simp only [State.colData_kept]; done) | (simp only [State.colData_kept]; first | with_reducible rfl | (apply State.kept_congr <;> with_reducible rfl)) | grind [State.kept, State.colData_kept, State.foldl_kept])
    | grind [State.kept, State.colData_kept]

theorem execColAck_kept (src : BitVec 15) (group : BitVec 12) (ver : BitVec 16) (opseq : BitVec 32) (stage : BitVec 32) (s : State) :
    ∀ t, (execColAck src group ver opseq stage s) = .next t → t.kept = s.kept := by
  intro t h; unfold execColAck at h; (repeat' split at h) <;> first
    | (cases h; done)
    | (cases h; first | with_reducible rfl | (apply State.kept_congr <;> with_reducible rfl) | (simp only [State.colAck_kept]; done) | (simp only [State.colAck_kept]; first | with_reducible rfl | (apply State.kept_congr <;> with_reducible rfl)) | grind [State.kept, State.colAck_kept, State.foldl_kept])
    | grind [State.kept, State.colAck_kept]

theorem execColAbort_kept (src : BitVec 15) (group : BitVec 12) (ver : BitVec 16) (opseq : BitVec 32) (stage : BitVec 32) (s : State) :
    ∀ t, (execColAbort src group ver opseq stage s) = .next t → t.kept = s.kept := by
  intro t h; unfold execColAbort at h; (repeat' split at h) <;> first
    | (cases h; done)
    | (cases h; first | with_reducible rfl | (apply State.kept_congr <;> with_reducible rfl) | (simp only [State.colAbort_kept]; done) | (simp only [State.colAbort_kept]; first | with_reducible rfl | (apply State.kept_congr <;> with_reducible rfl)) | grind [State.kept, State.colAbort_kept, State.foldl_kept])
    | grind [State.kept, State.colAbort_kept]

theorem execColOpTimeout_kept (group : BitVec 12) (opseq : BitVec 32) (slot : BitVec 11) (s : State) :
    ∀ t, (execColOpTimeout group opseq slot s) = .next t → t.kept = s.kept := by
  intro t h; unfold execColOpTimeout at h; (repeat' split at h) <;> first
    | (cases h; done)
    | (cases h; first | with_reducible rfl | (apply State.kept_congr <;> with_reducible rfl) | (simp only [State.colTimeout_kept]; done) | (simp only [State.colTimeout_kept]; first | with_reducible rfl | (apply State.kept_congr <;> with_reducible rfl)) | grind [State.kept, State.colTimeout_kept, State.foldl_kept])
    | grind [State.kept, State.colTimeout_kept]

theorem execColGtCommit_kept (value : BitVec 32) (s : State) :
    ∀ t, (execColGtCommit value s) = .next t → t.kept = s.kept := by
  intro t h; unfold execColGtCommit at h; (repeat' split at h) <;> first
    | (cases h; done)
    | (cases h; first | with_reducible rfl | (apply State.kept_congr <;> with_reducible rfl) | (simp only [State.admitAll_kept, State.commitGroups_kept]; done) | (simp only [State.admitAll_kept, State.commitGroups_kept]; first | with_reducible rfl | (apply State.kept_congr <;> with_reducible rfl)) | grind [State.kept, State.admitAll_kept, State.commitGroups_kept, State.foldl_kept])
    | grind [State.kept, State.admitAll_kept, State.commitGroups_kept]

theorem execIslandRdmaWrite_kept (eth : Bool) (src : BitVec 15) (group : BitVec 12) (ver : BitVec 16) (opseq : BitVec 32) (stage : BitVec 32) (offset : BitVec 32) (data : List Byte) (poison : List Nat) (s : State) :
    ∀ t, (execIslandRdmaWrite eth src group ver opseq stage offset data poison s) = .next t → t.kept = s.kept := by
  intro t h; unfold execIslandRdmaWrite at h; (repeat' split at h) <;> first
    | (cases h; done)
    | (cases h; first | with_reducible rfl | (apply State.kept_congr <;> with_reducible rfl) | (simp only [State.islandWrite_kept]; done) | (simp only [State.islandWrite_kept]; first | with_reducible rfl | (apply State.kept_congr <;> with_reducible rfl)) | grind [State.kept, State.islandWrite_kept, State.foldl_kept])
    | grind [State.kept, State.islandWrite_kept]

theorem execNop_kept (cell : CellId) (g : BitVec 4) (o : BitVec 22) (s : State) :
    ∀ t, (execNop cell g o s) = .next t → t.kept = s.kept := by
  unfold execNop; exact runCore_kept _ _ _ _ _

theorem execAlu_kept (cell : CellId) (g : BitVec 4) (o : BitVec 22) (s : State) :
    ∀ t, (execAlu cell g o s) = .next t → t.kept = s.kept := by
  unfold execAlu; exact runCore_kept _ _ _ _ _

theorem execAddi_kept (cell : CellId) (g : BitVec 4) (o : BitVec 22) (s : State) :
    ∀ t, (execAddi cell g o s) = .next t → t.kept = s.kept := by
  unfold execAddi; exact runCore_kept _ _ _ _ _

theorem execAndi_kept (cell : CellId) (g : BitVec 4) (o : BitVec 22) (s : State) :
    ∀ t, (execAndi cell g o s) = .next t → t.kept = s.kept := by
  unfold execAndi; exact runCore_kept _ _ _ _ _

theorem execOri_kept (cell : CellId) (g : BitVec 4) (o : BitVec 22) (s : State) :
    ∀ t, (execOri cell g o s) = .next t → t.kept = s.kept := by
  unfold execOri; exact runCore_kept _ _ _ _ _

theorem execXori_kept (cell : CellId) (g : BitVec 4) (o : BitVec 22) (s : State) :
    ∀ t, (execXori cell g o s) = .next t → t.kept = s.kept := by
  unfold execXori; exact runCore_kept _ _ _ _ _

theorem execSlli_kept (cell : CellId) (g : BitVec 4) (o : BitVec 22) (s : State) :
    ∀ t, (execSlli cell g o s) = .next t → t.kept = s.kept := by
  unfold execSlli; exact runCore_kept _ _ _ _ _

theorem execSrli_kept (cell : CellId) (g : BitVec 4) (o : BitVec 22) (s : State) :
    ∀ t, (execSrli cell g o s) = .next t → t.kept = s.kept := by
  unfold execSrli; exact runCore_kept _ _ _ _ _

theorem execSrai_kept (cell : CellId) (g : BitVec 4) (o : BitVec 22) (s : State) :
    ∀ t, (execSrai cell g o s) = .next t → t.kept = s.kept := by
  unfold execSrai; exact runCore_kept _ _ _ _ _

theorem execLi_kept (cell : CellId) (g : BitVec 4) (o : BitVec 22) (s : State) :
    ∀ t, (execLi cell g o s) = .next t → t.kept = s.kept := by
  unfold execLi; exact runCore_kept _ _ _ _ _

theorem execLih_kept (cell : CellId) (g : BitVec 4) (o : BitVec 22) (s : State) :
    ∀ t, (execLih cell g o s) = .next t → t.kept = s.kept := by
  unfold execLih; exact runCore_kept _ _ _ _ _

theorem execCmp_kept (cell : CellId) (g : BitVec 4) (o : BitVec 22) (s : State) :
    ∀ t, (execCmp cell g o s) = .next t → t.kept = s.kept := by
  unfold execCmp; exact runCore_kept _ _ _ _ _

theorem execCmpi_kept (cell : CellId) (g : BitVec 4) (o : BitVec 22) (s : State) :
    ∀ t, (execCmpi cell g o s) = .next t → t.kept = s.kept := by
  unfold execCmpi; exact runCore_kept _ _ _ _ _

theorem execPlog_kept (cell : CellId) (g : BitVec 4) (o : BitVec 22) (s : State) :
    ∀ t, (execPlog cell g o s) = .next t → t.kept = s.kept := by
  unfold execPlog; exact runCore_kept _ _ _ _ _

theorem execPfroms_kept (cell : CellId) (g : BitVec 4) (o : BitVec 22) (s : State) :
    ∀ t, (execPfroms cell g o s) = .next t → t.kept = s.kept := by
  unfold execPfroms; exact runCore_kept _ _ _ _ _

theorem execPtos_kept (cell : CellId) (g : BitVec 4) (o : BitVec 22) (s : State) :
    ∀ t, (execPtos cell g o s) = .next t → t.kept = s.kept := by
  unfold execPtos; exact runCore_kept _ _ _ _ _

theorem execSel_kept (cell : CellId) (g : BitVec 4) (o : BitVec 22) (s : State) :
    ∀ t, (execSel cell g o s) = .next t → t.kept = s.kept := by
  unfold execSel; exact runCore_kept _ _ _ _ _

theorem execLcset_kept (cell : CellId) (g : BitVec 4) (o : BitVec 22) (s : State) :
    ∀ t, (execLcset cell g o s) = .next t → t.kept = s.kept := by
  unfold execLcset; exact runCore_kept _ _ _ _ _

theorem execLci_kept (cell : CellId) (g : BitVec 4) (o : BitVec 22) (s : State) :
    ∀ t, (execLci cell g o s) = .next t → t.kept = s.kept := by
  unfold execLci; exact runCore_kept _ _ _ _ _

theorem execLoop_kept (cell : CellId) (g : BitVec 4) (o : BitVec 22) (s : State) :
    ∀ t, (execLoop cell g o s) = .next t → t.kept = s.kept := by
  unfold execLoop; exact runCore_kept _ _ _ _ _

theorem execLset_kept (cell : CellId) (g : BitVec 4) (o : BitVec 22) (s : State) :
    ∀ t, (execLset cell g o s) = .next t → t.kept = s.kept := by
  unfold execLset; exact runCore_kept _ _ _ _ _

theorem execLbrk_kept (cell : CellId) (g : BitVec 4) (o : BitVec 22) (s : State) :
    ∀ t, (execLbrk cell g o s) = .next t → t.kept = s.kept := by
  unfold execLbrk; exact runCore_kept _ _ _ _ _

theorem execLget_kept (cell : CellId) (g : BitVec 4) (o : BitVec 22) (s : State) :
    ∀ t, (execLget cell g o s) = .next t → t.kept = s.kept := by
  unfold execLget; exact runCore_kept _ _ _ _ _

theorem execBr_kept (cell : CellId) (g : BitVec 4) (o : BitVec 22) (s : State) :
    ∀ t, (execBr cell g o s) = .next t → t.kept = s.kept := by
  unfold execBr; exact runCore_kept _ _ _ _ _

theorem execCall_kept (cell : CellId) (g : BitVec 4) (o : BitVec 22) (s : State) :
    ∀ t, (execCall cell g o s) = .next t → t.kept = s.kept := by
  unfold execCall; exact runCore_kept _ _ _ _ _

theorem execJr_kept (cell : CellId) (g : BitVec 4) (o : BitVec 22) (s : State) :
    ∀ t, (execJr cell g o s) = .next t → t.kept = s.kept := by
  unfold execJr; exact runCore_kept _ _ _ _ _

theorem execBz_kept (cell : CellId) (g : BitVec 4) (o : BitVec 22) (s : State) :
    ∀ t, (execBz cell g o s) = .next t → t.kept = s.kept := by
  unfold execBz; exact runCore_kept _ _ _ _ _

theorem execBnz_kept (cell : CellId) (g : BitVec 4) (o : BitVec 22) (s : State) :
    ∀ t, (execBnz cell g o s) = .next t → t.kept = s.kept := by
  unfold execBnz; exact runCore_kept _ _ _ _ _

theorem execPush_kept (cell : CellId) (g : BitVec 4) (o : BitVec 22) (s : State) :
    ∀ t, (execPush cell g o s) = .next t → t.kept = s.kept := by
  unfold execPush; exact runCore_kept _ _ _ _ _

theorem execSig_kept (cell : CellId) (g : BitVec 4) (o : BitVec 22) (s : State) :
    ∀ t, (execSig cell g o s) = .next t → t.kept = s.kept := by
  unfold execSig; exact runCore_kept _ _ _ _ _

theorem execWaits_kept (cell : CellId) (g : BitVec 4) (o : BitVec 22) (s : State) :
    ∀ t, (execWaits cell g o s) = .next t → t.kept = s.kept := by
  unfold execWaits; exact runCore_kept _ _ _ _ _

theorem execWaitsr_kept (cell : CellId) (g : BitVec 4) (o : BitVec 22) (s : State) :
    ∀ t, (execWaitsr cell g o s) = .next t → t.kept = s.kept := by
  unfold execWaitsr; exact runCore_kept _ _ _ _ _

theorem execSemrd_kept (cell : CellId) (g : BitVec 4) (o : BitVec 22) (s : State) :
    ∀ t, (execSemrd cell g o s) = .next t → t.kept = s.kept := by
  unfold execSemrd; exact runCore_kept _ _ _ _ _

theorem execEnq_kept (cell : CellId) (g : BitVec 4) (o : BitVec 22) (s : State) :
    ∀ t, (execEnq cell g o s) = .next t → t.kept = s.kept := by
  unfold execEnq; exact runCore_kept _ _ _ _ _

theorem execMfs_kept (cell : CellId) (g : BitVec 4) (o : BitVec 22) (s : State) :
    ∀ t, (execMfs cell g o s) = .next t → t.kept = s.kept := by
  unfold execMfs; exact runCore_kept _ _ _ _ _

theorem execRdlt_kept (cell : CellId) (g : BitVec 4) (o : BitVec 22) (s : State) :
    ∀ t, (execRdlt cell g o s) = .next t → t.kept = s.kept := by
  unfold execRdlt; exact runCore_kept _ _ _ _ _

theorem execSwb_kept (cell : CellId) (g : BitVec 4) (o : BitVec 22) (s : State) :
    ∀ t, (execSwb cell g o s) = .next t → t.kept = s.kept := by
  unfold execSwb; exact runCore_kept _ _ _ _ _

theorem execHalt_kept (cell : CellId) (g : BitVec 4) (o : BitVec 22) (s : State) :
    ∀ t, (execHalt cell g o s) = .next t → t.kept = s.kept := by
  unfold execHalt; exact runCore_kept _ _ _ _ _

theorem execLb_kept (cell : CellId) (g : BitVec 4) (o : BitVec 22) (s : State) :
    ∀ t, (execLb cell g o s) = .next t → t.kept = s.kept := by
  unfold execLb; exact runCore_kept _ _ _ _ _

theorem execLbu_kept (cell : CellId) (g : BitVec 4) (o : BitVec 22) (s : State) :
    ∀ t, (execLbu cell g o s) = .next t → t.kept = s.kept := by
  unfold execLbu; exact runCore_kept _ _ _ _ _

theorem execLh_kept (cell : CellId) (g : BitVec 4) (o : BitVec 22) (s : State) :
    ∀ t, (execLh cell g o s) = .next t → t.kept = s.kept := by
  unfold execLh; exact runCore_kept _ _ _ _ _

theorem execLhu_kept (cell : CellId) (g : BitVec 4) (o : BitVec 22) (s : State) :
    ∀ t, (execLhu cell g o s) = .next t → t.kept = s.kept := by
  unfold execLhu; exact runCore_kept _ _ _ _ _

theorem execLw_kept (cell : CellId) (g : BitVec 4) (o : BitVec 22) (s : State) :
    ∀ t, (execLw cell g o s) = .next t → t.kept = s.kept := by
  unfold execLw; exact runCore_kept _ _ _ _ _

theorem execSb_kept (cell : CellId) (g : BitVec 4) (o : BitVec 22) (s : State) :
    ∀ t, (execSb cell g o s) = .next t → t.kept = s.kept := by
  unfold execSb; exact runCore_kept _ _ _ _ _

theorem execSh_kept (cell : CellId) (g : BitVec 4) (o : BitVec 22) (s : State) :
    ∀ t, (execSh cell g o s) = .next t → t.kept = s.kept := by
  unfold execSh; exact runCore_kept _ _ _ _ _

theorem execSw_kept (cell : CellId) (g : BitVec 4) (o : BitVec 22) (s : State) :
    ∀ t, (execSw cell g o s) = .next t → t.kept = s.kept := by
  unfold execSw; exact runCore_kept _ _ _ _ _

theorem execLda_kept (cell : CellId) (g : BitVec 4) (o : BitVec 22) (s : State) :
    ∀ t, (execLda cell g o s) = .next t → t.kept = s.kept := by
  unfold execLda; exact runCore_kept _ _ _ _ _

theorem execSta_kept (cell : CellId) (g : BitVec 4) (o : BitVec 22) (s : State) :
    ∀ t, (execSta cell g o s) = .next t → t.kept = s.kept := by
  unfold execSta; exact runCore_kept _ _ _ _ _

theorem execTld_kept (cell : CellId) (g : BitVec 4) (o : BitVec 22) (s : State) :
    ∀ t, (execTld cell g o s) = .next t → t.kept = s.kept := by
  unfold execTld; exact runCore_kept _ _ _ _ _

theorem execTst_kept (cell : CellId) (g : BitVec 4) (o : BitVec 22) (s : State) :
    ∀ t, (execTst cell g o s) = .next t → t.kept = s.kept := by
  unfold execTst; exact runCore_kept _ _ _ _ _

theorem execAadd_kept (cell : CellId) (g : BitVec 4) (o : BitVec 22) (s : State) :
    ∀ t, (execAadd cell g o s) = .next t → t.kept = s.kept := by
  unfold execAadd; exact runCore_kept _ _ _ _ _

theorem execAaddi_kept (cell : CellId) (g : BitVec 4) (o : BitVec 22) (s : State) :
    ∀ t, (execAaddi cell g o s) = .next t → t.kept = s.kept := by
  unfold execAaddi; exact runCore_kept _ _ _ _ _

theorem execAfrom_kept (cell : CellId) (g : BitVec 4) (o : BitVec 22) (s : State) :
    ∀ t, (execAfrom cell g o s) = .next t → t.kept = s.kept := by
  unfold execAfrom; exact runCore_kept _ _ _ _ _

theorem execAto_kept (cell : CellId) (g : BitVec 4) (o : BitVec 22) (s : State) :
    ∀ t, (execAto cell g o s) = .next t → t.kept = s.kept := by
  unfold execAto; exact runCore_kept _ _ _ _ _

theorem execAstr_kept (cell : CellId) (g : BitVec 4) (o : BitVec 22) (s : State) :
    ∀ t, (execAstr cell g o s) = .next t → t.kept = s.kept := by
  unfold execAstr; exact runCore_kept _ _ _ _ _

theorem execAstri_kept (cell : CellId) (g : BitVec 4) (o : BitVec 22) (s : State) :
    ∀ t, (execAstri cell g o s) = .next t → t.kept = s.kept := by
  unfold execAstri; exact runCore_kept _ _ _ _ _

theorem execAmov_kept (cell : CellId) (g : BitVec 4) (o : BitVec 22) (s : State) :
    ∀ t, (execAmov cell g o s) = .next t → t.kept = s.kept := by
  unfold execAmov; exact runCore_kept _ _ _ _ _

theorem execTofs_kept (cell : CellId) (g : BitVec 4) (o : BitVec 22) (s : State) :
    ∀ t, (execTofs cell g o s) = .next t → t.kept = s.kept := by
  unfold execTofs; exact runCore_kept _ _ _ _ _

theorem execTadv_kept (cell : CellId) (g : BitVec 4) (o : BitVec 22) (s : State) :
    ∀ t, (execTadv cell g o s) = .next t → t.kept = s.kept := by
  unfold execTadv; exact runCore_kept _ _ _ _ _

theorem execTget_kept (cell : CellId) (g : BitVec 4) (o : BitVec 22) (s : State) :
    ∀ t, (execTget cell g o s) = .next t → t.kept = s.kept := by
  unfold execTget; exact runCore_kept _ _ _ _ _

theorem execTset_kept (cell : CellId) (g : BitVec 4) (o : BitVec 22) (s : State) :
    ∀ t, (execTset cell g o s) = .next t → t.kept = s.kept := by
  unfold execTset; exact runCore_kept _ _ _ _ _

theorem execStartRequest_kept (kind : BitVec 2) (clear : Bool) (staged : Bool) (flash : List (BitVec 4)) (found : Training) (s : State) :
    ∀ t, (execStartRequest kind clear staged flash found s) = .next t → t.kept = s.kept := by
  intro t h; unfold execStartRequest at h; (repeat' split at h) <;> first
    | (cases h; done)
    | (cases h; first | with_reducible rfl | (apply State.kept_congr <;> with_reducible rfl) | (simp only [State.startRequest_kept, State.sideError_kept]; done) | (simp only [State.startRequest_kept, State.sideError_kept]; first | with_reducible rfl | (apply State.kept_congr <;> with_reducible rfl)) | grind [State.kept, State.startRequest_kept, State.sideError_kept, State.foldl_kept])
    | grind [State.kept, State.startRequest_kept, State.sideError_kept]

theorem execStartFailed_kept (reason : BitVec 5) (step : BitVec 5) (stack : BitVec 4) (channel : BitVec 5) (lane : BitVec 8) (flash : List (BitVec 4)) (s : State) :
    ∀ t, (execStartFailed reason step stack channel lane flash s) = .next t → t.kept = s.kept := by
  intro t h; unfold execStartFailed at h; (repeat' split at h) <;> first
    | (cases h; done)
    | (cases h; first | with_reducible rfl | (apply State.kept_congr <;> with_reducible rfl) | (simp only [State.nextStart_kept, State.startFailed_kept]; done) | (simp only [State.nextStart_kept, State.startFailed_kept]; first | with_reducible rfl | (apply State.kept_congr <;> with_reducible rfl)) | grind [State.kept, State.nextStart_kept, State.startFailed_kept, State.foldl_kept])
    | grind [State.kept, State.nextStart_kept, State.startFailed_kept]

theorem execStartTimeout_kept (flash : List (BitVec 4)) (s : State) :
    ∀ t, (execStartTimeout flash s) = .next t → t.kept = s.kept := by
  intro t h; unfold execStartTimeout at h; (repeat' split at h) <;> first
    | (cases h; done)
    | (cases h; first | with_reducible rfl | (apply State.kept_congr <;> with_reducible rfl) | (simp only [State.nextStart_kept, State.startTimeout_kept]; done) | (simp only [State.nextStart_kept, State.startTimeout_kept]; first | with_reducible rfl | (apply State.kept_congr <;> with_reducible rfl)) | grind [State.kept, State.nextStart_kept, State.startTimeout_kept, State.foldl_kept])
    | grind [State.kept, State.nextStart_kept, State.startTimeout_kept]

theorem execCoreReadyTimeout_kept (flash : List (BitVec 4)) (s : State) :
    ∀ t, (execCoreReadyTimeout flash s) = .next t → t.kept = s.kept := by
  intro t h; unfold execCoreReadyTimeout at h; (repeat' split at h) <;> first
    | (cases h; done)
    | (cases h; first | with_reducible rfl | (apply State.kept_congr <;> with_reducible rfl) | (simp only [State.nextStart_kept, State.readyTimeout_kept]; done) | (simp only [State.nextStart_kept, State.readyTimeout_kept]; first | with_reducible rfl | (apply State.kept_congr <;> with_reducible rfl)) | grind [State.kept, State.nextStart_kept, State.readyTimeout_kept, State.foldl_kept])
    | grind [State.kept, State.nextStart_kept, State.readyTimeout_kept]

theorem execFailedStartRetry_kept (flash : List (BitVec 4)) (s : State) :
    ∀ t, (execFailedStartRetry flash s) = .next t → t.kept = s.kept := by
  intro t h; unfold execFailedStartRetry at h; (repeat' split at h) <;> first
    | (cases h; done)
    | (cases h; first | with_reducible rfl | (apply State.kept_congr <;> with_reducible rfl) | (simp only [State.startRetry_kept]; done) | (simp only [State.startRetry_kept]; first | with_reducible rfl | (apply State.kept_congr <;> with_reducible rfl)) | grind [State.kept, State.startRetry_kept, State.foldl_kept])
    | grind [State.kept, State.startRetry_kept]

theorem execBundleFetchDone_kept (bundle : Option Bundle) (found : Training) (s : State) :
    ∀ t, (execBundleFetchDone bundle found s) = .next t → t.kept = s.kept := by
  intro t h; unfold execBundleFetchDone at h; (repeat' split at h) <;> first
    | (cases h; done)
    | (cases h; first | with_reducible rfl | (apply State.kept_congr <;> with_reducible rfl) | (simp only [State.nextStart_kept, State.fetchDone_kept]; done) | (simp only [State.nextStart_kept, State.fetchDone_kept]; first | with_reducible rfl | (apply State.kept_congr <;> with_reducible rfl)) | grind [State.kept, State.nextStart_kept, State.fetchDone_kept, State.foldl_kept])
    | grind [State.kept, State.nextStart_kept, State.fetchDone_kept]

theorem execBundleFetchRetry_kept (s : State) :
    ∀ t, (execBundleFetchRetry s) = .next t → t.kept = s.kept := by
  intro t h; unfold execBundleFetchRetry at h; (repeat' split at h) <;> first
    | (cases h; done)
    | (cases h; first | with_reducible rfl | (apply State.kept_congr <;> with_reducible rfl) | (simp only [State.fetchRetry_kept]; done) | (simp only [State.fetchRetry_kept]; first | with_reducible rfl | (apply State.kept_congr <;> with_reducible rfl)) | grind [State.kept, State.fetchRetry_kept, State.foldl_kept])
    | grind [State.kept, State.fetchRetry_kept]

theorem execBundlePush_kept (bundle : Bundle) (s : State) :
    ∀ t, (execBundlePush bundle s) = .next t → t.kept = s.kept := by
  intro t h; unfold execBundlePush at h; (repeat' split at h) <;> first
    | (cases h; done)
    | (cases h; first | with_reducible rfl | (apply State.kept_congr <;> with_reducible rfl) | (simp only [State.push_kept]; done) | (simp only [State.push_kept]; first | with_reducible rfl | (apply State.kept_congr <;> with_reducible rfl)) | grind [State.kept, State.push_kept, State.foldl_kept])
    | grind [State.kept, State.push_kept]

theorem execActivateFirmware_kept (s : State) :
    ∀ t, (execActivateFirmware s) = .next t → t.kept = s.kept := by
  intro t h; unfold execActivateFirmware at h; (repeat' split at h) <;> first
    | (cases h; done)
    | (cases h; first | with_reducible rfl | (apply State.kept_congr <;> with_reducible rfl) | (simp only [State.activate_kept]; done) | (simp only [State.activate_kept]; first | with_reducible rfl | (apply State.kept_congr <;> with_reducible rfl)) | grind [State.kept, State.activate_kept, State.foldl_kept])
    | grind [State.kept, State.activate_kept]

theorem execActivationBegin_kept (s : State) :
    ∀ t, (execActivationBegin s) = .next t → t.kept = s.kept := by
  intro t h; unfold execActivationBegin at h; (repeat' split at h) <;> first
    | (cases h; done)
    | (cases h; first | with_reducible rfl | (apply State.kept_congr <;> with_reducible rfl) | (simp only [State.activationBegin_kept]; done) | (simp only [State.activationBegin_kept]; first | with_reducible rfl | (apply State.kept_congr <;> with_reducible rfl)) | grind [State.kept, State.activationBegin_kept, State.foldl_kept])
    | grind [State.kept, State.activationBegin_kept]

theorem execActivationCancel_kept (s : State) :
    ∀ t, (execActivationCancel s) = .next t → t.kept = s.kept := by
  intro t h; unfold execActivationCancel at h; (repeat' split at h) <;> first
    | (cases h; done)
    | (cases h; first | with_reducible rfl | (apply State.kept_congr <;> with_reducible rfl) | (simp only [State.activationCancel_kept]; done) | (simp only [State.activationCancel_kept]; first | with_reducible rfl | (apply State.kept_congr <;> with_reducible rfl)) | grind [State.kept, State.activationCancel_kept, State.foldl_kept])
    | grind [State.kept, State.activationCancel_kept]

theorem execHandoverResumeTimeout_kept (s : State) :
    ∀ t, (execHandoverResumeTimeout s) = .next t → t.kept = s.kept := by
  intro t h; unfold execHandoverResumeTimeout at h; (repeat' split at h) <;> first
    | (cases h; done)
    | (cases h; first | with_reducible rfl | (apply State.kept_congr <;> with_reducible rfl) | (simp only [State.resumeTimeout_kept]; done) | (simp only [State.resumeTimeout_kept]; first | with_reducible rfl | (apply State.kept_congr <;> with_reducible rfl)) | grind [State.kept, State.resumeTimeout_kept, State.foldl_kept])
    | grind [State.kept, State.resumeTimeout_kept]

theorem execProtectionFault_kept (core : BitVec 2) (cluster : BitVec 7) (addr : BitVec 64) (s : State) :
    ∀ t, (execProtectionFault core cluster addr s) = .next t → t.kept = s.kept := by
  intro t h; unfold execProtectionFault at h; (repeat' split at h) <;> first
    | (cases h; done)
    | (cases h; first | with_reducible rfl | (apply State.kept_congr <;> with_reducible rfl) | (simp only [State.protectionFault_kept]; done) | (simp only [State.protectionFault_kept]; first | with_reducible rfl | (apply State.kept_congr <;> with_reducible rfl)) | grind [State.kept, State.protectionFault_kept, State.foldl_kept])
    | grind [State.kept, State.protectionFault_kept]

theorem execCoreReload_kept (core : BitVec 2) (cluster : BitVec 7) (s : State) :
    ∀ t, (execCoreReload core cluster s) = .next t → t.kept = s.kept := by
  intro t h; unfold execCoreReload at h; (repeat' split at h) <;> first
    | (cases h; done)
    | (cases h; first | with_reducible rfl | (apply State.kept_congr <;> with_reducible rfl) | (simp only [State.coreReload_kept]; done) | (simp only [State.coreReload_kept]; first | with_reducible rfl | (apply State.kept_congr <;> with_reducible rfl)) | grind [State.kept, State.coreReload_kept, State.foldl_kept])
    | grind [State.kept, State.coreReload_kept]

theorem execSecurityCoreRestart_kept (s : State) :
    ∀ t, (execSecurityCoreRestart s) = .next t → t.kept = s.kept := by
  intro t h; unfold execSecurityCoreRestart at h; (repeat' split at h) <;> first
    | (cases h; done)
    | (cases h; first | with_reducible rfl | (apply State.kept_congr <;> with_reducible rfl) | (simp only [State.securityRestart_kept]; done) | (simp only [State.securityRestart_kept]; first | with_reducible rfl | (apply State.kept_congr <;> with_reducible rfl)) | grind [State.kept, State.securityRestart_kept, State.foldl_kept])
    | grind [State.kept, State.securityRestart_kept]

theorem execGetVersion_kept (s : State) :
    ∀ t, (execGetVersion s) = .next t → t.kept = s.kept := by
  intro t h; unfold execGetVersion at h; (repeat' split at h) <;> first
    | (cases h; done)
    | (cases h; first | with_reducible rfl | (apply State.kept_congr <;> with_reducible rfl) | (simp only [State.spdm_kept]; done) | (simp only [State.spdm_kept]; first | with_reducible rfl | (apply State.kept_congr <;> with_reducible rfl)) | grind [State.kept, State.spdm_kept, State.foldl_kept])
    | grind [State.kept, State.spdm_kept]

theorem execGetCapabilities_kept (s : State) :
    ∀ t, (execGetCapabilities s) = .next t → t.kept = s.kept := by
  intro t h; unfold execGetCapabilities at h; (repeat' split at h) <;> first
    | (cases h; done)
    | (cases h; first | with_reducible rfl | (apply State.kept_congr <;> with_reducible rfl) | (simp only [State.spdm_kept]; done) | (simp only [State.spdm_kept]; first | with_reducible rfl | (apply State.kept_congr <;> with_reducible rfl)) | grind [State.kept, State.spdm_kept, State.foldl_kept])
    | grind [State.kept, State.spdm_kept]

theorem execNegotiateAlgorithms_kept (s : State) :
    ∀ t, (execNegotiateAlgorithms s) = .next t → t.kept = s.kept := by
  intro t h; unfold execNegotiateAlgorithms at h; (repeat' split at h) <;> first
    | (cases h; done)
    | (cases h; first | with_reducible rfl | (apply State.kept_congr <;> with_reducible rfl) | (simp only [State.spdm_kept]; done) | (simp only [State.spdm_kept]; first | with_reducible rfl | (apply State.kept_congr <;> with_reducible rfl)) | grind [State.kept, State.spdm_kept, State.foldl_kept])
    | grind [State.kept, State.spdm_kept]

theorem execGetDigests_kept (s : State) :
    ∀ t, (execGetDigests s) = .next t → t.kept = s.kept := by
  intro t h; unfold execGetDigests at h; (repeat' split at h) <;> first
    | (cases h; done)
    | (cases h; first | with_reducible rfl | (apply State.kept_congr <;> with_reducible rfl) | (simp only [State.spdm_kept]; done) | (simp only [State.spdm_kept]; first | with_reducible rfl | (apply State.kept_congr <;> with_reducible rfl)) | grind [State.kept, State.spdm_kept, State.foldl_kept])
    | grind [State.kept, State.spdm_kept]

theorem execGetCertificate_kept (slot : BitVec 8) (offset : BitVec 16) (length : BitVec 16) (s : State) :
    ∀ t, (execGetCertificate slot offset length s) = .next t → t.kept = s.kept := by
  intro t h; unfold execGetCertificate at h; (repeat' split at h) <;> first
    | (cases h; done)
    | (cases h; first | with_reducible rfl | (apply State.kept_congr <;> with_reducible rfl) | (simp only [State.spdm_kept, State.reply_kept]; done) | (simp only [State.spdm_kept, State.reply_kept]; first | with_reducible rfl | (apply State.kept_congr <;> with_reducible rfl)) | grind [State.kept, State.spdm_kept, State.reply_kept, State.foldl_kept])
    | grind [State.kept, State.spdm_kept, State.reply_kept]

theorem execChallenge_kept (slot : BitVec 8) (nonce : List Byte) (s : State) :
    ∀ t, (execChallenge slot nonce s) = .next t → t.kept = s.kept := by
  intro t h; unfold execChallenge at h; (repeat' split at h) <;> first
    | (cases h; done)
    | (cases h; first | with_reducible rfl | (apply State.kept_congr <;> with_reducible rfl) | (simp only [State.signature_kept, State.spdm_kept, State.reply_kept]; done) | (simp only [State.signature_kept, State.spdm_kept, State.reply_kept]; first | with_reducible rfl | (apply State.kept_congr <;> with_reducible rfl)) | grind [State.kept, State.signature_kept, State.spdm_kept, State.reply_kept, State.foldl_kept])
    | grind [State.kept, State.signature_kept, State.spdm_kept, State.reply_kept]

theorem execGetMeasurements_kept (index : BitVec 8) (nonce : List Byte) (s : State) :
    ∀ t, (execGetMeasurements index nonce s) = .next t → t.kept = s.kept := by
  intro t h; unfold execGetMeasurements at h; (repeat' split at h) <;> first
    | (cases h; done)
    | (cases h; first | with_reducible rfl | (apply State.kept_congr <;> with_reducible rfl) | (simp only [State.signature_kept, State.spdm_kept, State.reply_kept]; done) | (simp only [State.signature_kept, State.spdm_kept, State.reply_kept]; first | with_reducible rfl | (apply State.kept_congr <;> with_reducible rfl)) | grind [State.kept, State.signature_kept, State.spdm_kept, State.reply_kept, State.foldl_kept])
    | grind [State.kept, State.signature_kept, State.spdm_kept, State.reply_kept]

theorem execFrameReceive_kept (port : BitVec 3) (valid : Bool) (vc : Bool) (seq : BitVec 12) (flit : List Byte × BitVec 32) (c0 : List (BitVec 4)) (c1 : List (BitVec 4)) (s : State) :
    ∀ t, (execFrameReceive port valid vc seq flit c0 c1 s) = .next t → t.kept = s.kept := by
  unfold execFrameReceive; (repeat' split) <;> first
    | (intro t h; cases h; done)
    | (refine withPort_kept _ _ _ ?_; intro k; first | with_reducible rfl | (apply State.kept_congr <;> with_reducible rfl) | (simp only [withPort_kept, State.frame_kept]; done) | (grind [State.kept, withPort_kept, State.frame_kept]))
    | (intro t h; grind [State.kept, withPort_kept, State.frame_kept])

theorem execNak_kept (port : BitVec 3) (seq : BitVec 12) (s : State) :
    ∀ t, (execNak port seq s) = .next t → t.kept = s.kept := by
  unfold execNak; (repeat' split) <;> first
    | (intro t h; cases h; done)
    | (refine withPort_kept _ _ _ ?_; intro k; first | with_reducible rfl | (apply State.kept_congr <;> with_reducible rfl) | (simp only [withPort_kept, State.nak_kept]; done) | (grind [State.kept, withPort_kept, State.nak_kept]))
    | (intro t h; grind [State.kept, withPort_kept, State.nak_kept])

theorem execAck_kept (port : BitVec 3) (seq : BitVec 12) (s : State) :
    ∀ t, (execAck port seq s) = .next t → t.kept = s.kept := by
  unfold execAck; (repeat' split) <;> first
    | (intro t h; cases h; done)
    | (refine withPort_kept _ _ _ ?_; intro k; first | with_reducible rfl | (apply State.kept_congr <;> with_reducible rfl) | (simp only [withPort_kept, State.ack_kept]; done) | (grind [State.kept, withPort_kept, State.ack_kept]))
    | (intro t h; grind [State.kept, withPort_kept, State.ack_kept])

theorem execCredit_kept (port : BitVec 3) (vc : Bool) (count : BitVec 10) (s : State) :
    ∀ t, (execCredit port vc count s) = .next t → t.kept = s.kept := by
  unfold execCredit; (repeat' split) <;> first
    | (intro t h; cases h; done)
    | (refine withPort_kept _ _ _ ?_; intro k; first | with_reducible rfl | (apply State.kept_congr <;> with_reducible rfl) | (simp only [withPort_kept, State.credit_kept]; done) | (grind [State.kept, withPort_kept, State.credit_kept]))
    | (intro t h; grind [State.kept, withPort_kept, State.credit_kept])

theorem execLaneFailing_kept (port : BitVec 3) (lane : BitVec 4) (lost : Bool) (seq : BitVec 12) (s : State) :
    ∀ t, (execLaneFailing port lane lost seq s) = .next t → t.kept = s.kept := by
  unfold execLaneFailing; (repeat' split) <;> first
    | (intro t h; cases h; done)
    | (refine withPort_kept _ _ _ ?_; intro k; first | with_reducible rfl | (apply State.kept_congr <;> with_reducible rfl) | (simp only [withPort_kept, State.laneFailing_kept]; done) | (grind [State.kept, withPort_kept, State.laneFailing_kept]))
    | (intro t h; grind [State.kept, withPort_kept, State.laneFailing_kept])

theorem execLaneSwitch_kept (port : BitVec 3) (lane : BitVec 4) (seq : BitVec 12) (s : State) :
    ∀ t, (execLaneSwitch port lane seq s) = .next t → t.kept = s.kept := by
  unfold execLaneSwitch; (repeat' split) <;> first
    | (intro t h; cases h; done)
    | (refine withPort_kept _ _ _ ?_; intro k; first | with_reducible rfl | (apply State.kept_congr <;> with_reducible rfl) | (simp only [withPort_kept, State.laneSwitch_kept]; done) | (grind [State.kept, withPort_kept, State.laneSwitch_kept]))
    | (intro t h; grind [State.kept, withPort_kept, State.laneSwitch_kept])

theorem execLaneSwitchApply_kept (port : BitVec 3) (transmit : Bool) (s : State) :
    ∀ t, (execLaneSwitchApply port transmit s) = .next t → t.kept = s.kept := by
  unfold execLaneSwitchApply; (repeat' split) <;> first
    | (intro t h; cases h; done)
    | (refine withPort_kept _ _ _ ?_; intro k; first | with_reducible rfl | (apply State.kept_congr <;> with_reducible rfl) | (simp only [withPort_kept, State.laneApply_kept]; done) | (grind [State.kept, withPort_kept, State.laneApply_kept]))
    | (intro t h; grind [State.kept, withPort_kept, State.laneApply_kept])

theorem execLaneAck_kept (port : BitVec 3) (lane : BitVec 4) (s : State) :
    ∀ t, (execLaneAck port lane s) = .next t → t.kept = s.kept := by
  unfold execLaneAck; (repeat' split) <;> first
    | (intro t h; cases h; done)
    | (refine withPort_kept _ _ _ ?_; intro k; first | with_reducible rfl | (apply State.kept_congr <;> with_reducible rfl) | (simp only [withPort_kept, State.laneAck_kept]; done) | (grind [State.kept, withPort_kept, State.laneAck_kept]))
    | (intro t h; grind [State.kept, withPort_kept, State.laneAck_kept])

theorem execHeartbeatSend_kept (port : BitVec 3) (s : State) :
    ∀ t, (execHeartbeatSend port s) = .next t → t.kept = s.kept := by
  unfold execHeartbeatSend; (repeat' split) <;> first
    | (intro t h; cases h; done)
    | (refine withPort_kept _ _ _ ?_; intro k; first | with_reducible rfl | (apply State.kept_congr <;> with_reducible rfl) | (simp only [withPort_kept, State.sendHeartbeat_kept]; done) | (grind [State.kept, withPort_kept, State.sendHeartbeat_kept]))
    | (intro t h; grind [State.kept, withPort_kept, State.sendHeartbeat_kept])

theorem execHeartbeat_kept (port : BitVec 3) (hold : BitVec 4) (dist : Option (BitVec 6)) (s : State) :
    ∀ t, (execHeartbeat port hold dist s) = .next t → t.kept = s.kept := by
  unfold execHeartbeat; (repeat' split) <;> first
    | (intro t h; cases h; done)
    | (refine withPort_kept _ _ _ ?_; intro k; first | with_reducible rfl | (apply State.kept_congr <;> with_reducible rfl) | (simp only [withPort_kept, State.heartbeat_kept]; done) | (grind [State.kept, withPort_kept, State.heartbeat_kept]))
    | (intro t h; grind [State.kept, withPort_kept, State.heartbeat_kept])

theorem execHeartbeatTimeout_kept (port : BitVec 3) (s : State) :
    ∀ t, (execHeartbeatTimeout port s) = .next t → t.kept = s.kept := by
  unfold execHeartbeatTimeout; (repeat' split) <;> first
    | (intro t h; cases h; done)
    | (refine withPort_kept _ _ _ ?_; intro k; first | with_reducible rfl | (apply State.kept_congr <;> with_reducible rfl) | (simp only [withPort_kept, State.portDown_kept]; done) | (grind [State.kept, withPort_kept, State.portDown_kept]))
    | (intro t h; grind [State.kept, withPort_kept, State.portDown_kept])

theorem execFrameLockLoss_kept (port : BitVec 3) (s : State) :
    ∀ t, (execFrameLockLoss port s) = .next t → t.kept = s.kept := by
  unfold execFrameLockLoss; (repeat' split) <;> first
    | (intro t h; cases h; done)
    | (refine withPort_kept _ _ _ ?_; intro k; first | with_reducible rfl | (apply State.kept_congr <;> with_reducible rfl) | (simp only [withPort_kept, State.portDown_kept]; done) | (grind [State.kept, withPort_kept, State.portDown_kept]))
    | (intro t h; grind [State.kept, withPort_kept, State.portDown_kept])

theorem execLivenessProbe_kept (s : State) :
    ∀ t, (execLivenessProbe s) = .next t → t.kept = s.kept := by
  intro t h; unfold execLivenessProbe at h; (repeat' split at h) <;> first
    | (cases h; done)
    | (cases h; first | with_reducible rfl | (apply State.kept_congr <;> with_reducible rfl) | grind [State.kept, State.foldl_kept])
    | grind [State.kept]

theorem execProbeReturn_kept (s : State) :
    ∀ t, (execProbeReturn s) = .next t → t.kept = s.kept := by
  intro t h; unfold execProbeReturn at h; (repeat' split at h) <;> first
    | (cases h; done)
    | (cases h; first | with_reducible rfl | (apply State.kept_congr <;> with_reducible rfl) | grind [State.kept, State.foldl_kept])
    | grind [State.kept]

theorem execWatchdogExpiry_kept (s : State) :
    ∀ t, (execWatchdogExpiry s) = .next t → t.kept = s.kept := by
  intro t h; unfold execWatchdogExpiry at h; (repeat' split at h) <;> first
    | (cases h; done)
    | (cases h; first | with_reducible rfl | (apply State.kept_congr <;> with_reducible rfl) | (simp only [State.watchdog_kept]; done) | (simp only [State.watchdog_kept]; first | with_reducible rfl | (apply State.kept_congr <;> with_reducible rfl)) | grind [State.kept, State.watchdog_kept, State.foldl_kept])
    | grind [State.kept, State.watchdog_kept]

theorem execLaneTrained_kept (port : BitVec 3) (levels : BitVec 4) (asym : Int) (s : State) :
    ∀ t, (execLaneTrained port levels asym s) = .next t → t.kept = s.kept := by
  unfold execLaneTrained; (repeat' split) <;> first
    | (intro t h; cases h; done)
    | (refine withPort_kept _ _ _ ?_; intro k; first | with_reducible rfl | (apply State.kept_congr <;> with_reducible rfl) | (simp only [withPort_kept, State.laneTrained_kept]; done) | (grind [State.kept, withPort_kept, State.laneTrained_kept]))
    | (intro t h; grind [State.kept, withPort_kept, State.laneTrained_kept])

theorem execDiscover_kept (port : BitVec 3) (id : BitVec 15) (peer : BitVec 3) (levels : BitVec 4) (s : State) :
    ∀ t, (execDiscover port id peer levels s) = .next t → t.kept = s.kept := by
  unfold execDiscover; (repeat' split) <;> first
    | (intro t h; cases h; done)
    | (refine withPort_kept _ _ _ ?_; intro k; first | with_reducible rfl | (apply State.kept_congr <;> with_reducible rfl) | (simp only [withPort_kept, State.discover_kept]; done) | (grind [State.kept, withPort_kept, State.discover_kept]))
    | (intro t h; grind [State.kept, withPort_kept, State.discover_kept])

theorem execAccept_kept (port : BitVec 3) (s : State) :
    ∀ t, (execAccept port s) = .next t → t.kept = s.kept := by
  unfold execAccept; (repeat' split) <;> first
    | (intro t h; cases h; done)
    | (refine withPort_kept _ _ _ ?_; intro k; first | with_reducible rfl | (apply State.kept_congr <;> with_reducible rfl) | (simp only [withPort_kept, State.accept_kept]; done) | (grind [State.kept, withPort_kept, State.accept_kept]))
    | (intro t h; grind [State.kept, withPort_kept, State.accept_kept])

theorem execReject_kept (port : BitVec 3) (s : State) :
    ∀ t, (execReject port s) = .next t → t.kept = s.kept := by
  unfold execReject; (repeat' split) <;> first
    | (intro t h; cases h; done)
    | (refine withPort_kept _ _ _ ?_; intro k; first | with_reducible rfl | (apply State.kept_congr <;> with_reducible rfl) | (simp only [withPort_kept, State.reject_kept]; done) | (grind [State.kept, withPort_kept, State.reject_kept]))
    | (intro t h; grind [State.kept, withPort_kept, State.reject_kept])

theorem execTrainingTimeout_kept (port : BitVec 3) (s : State) :
    ∀ t, (execTrainingTimeout port s) = .next t → t.kept = s.kept := by
  unfold execTrainingTimeout; (repeat' split) <;> first
    | (intro t h; cases h; done)
    | (refine withPort_kept _ _ _ ?_; intro k; first | with_reducible rfl | (apply State.kept_congr <;> with_reducible rfl) | (simp only [withPort_kept, State.trainTimeout_kept]; done) | (grind [State.kept, withPort_kept, State.trainTimeout_kept]))
    | (intro t h; grind [State.kept, withPort_kept, State.trainTimeout_kept])

theorem execRetrainAttempt_kept (port : BitVec 3) (s : State) :
    ∀ t, (execRetrainAttempt port s) = .next t → t.kept = s.kept := by
  unfold execRetrainAttempt; (repeat' split) <;> first
    | (intro t h; cases h; done)
    | (refine withPort_kept _ _ _ ?_; intro k; first | with_reducible rfl | (apply State.kept_congr <;> with_reducible rfl) | (simp only [withPort_kept, State.retrain_kept]; done) | (grind [State.kept, withPort_kept, State.retrain_kept]))
    | (intro t h; grind [State.kept, withPort_kept, State.retrain_kept])

theorem execPeerPorts_kept (port : BitVec 3) (states : List (BitVec 4)) (s : State) :
    ∀ t, (execPeerPorts port states s) = .next t → t.kept = s.kept := by
  unfold execPeerPorts; (repeat' split) <;> first
    | (intro t h; cases h; done)
    | (refine withPort_kept _ _ _ ?_; intro k; first | with_reducible rfl | (apply State.kept_congr <;> with_reducible rfl) | (simp only [withPort_kept, State.modPort_kept]; done) | (grind [State.kept, withPort_kept, State.modPort_kept]))
    | (intro t h; grind [State.kept, withPort_kept, State.modPort_kept])

theorem execPacketForward_kept (port : BitVec 3) (vc : Bool) (dst src : BitVec 16) (cls : BitVec 8) (rtv det : Bool)
    (hops : BitVec 8) (len : BitVec 16) (s : State) :
    ∀ t, (execPacketForward port vc dst src cls rtv det hops len s) = .next t → t.kept = s.kept := by
  unfold execPacketForward; (repeat' split) <;> first
    | (intro t h; cases h; done)
    | (refine withPort_kept _ _ _ ?_; intro k; first | with_reducible rfl | (apply State.kept_congr <;> with_reducible rfl) | (simp only [withPort_kept, State.forwardNamed_kept]; done) | (grind [State.kept, withPort_kept, State.forwardNamed_kept]))
    | (intro t h; grind [State.kept, withPort_kept, State.forwardNamed_kept])

theorem execLnkPlanCommit_kept (value : BitVec 32) (s : State) :
    ∀ t, (execLnkPlanCommit value s) = .next t → t.kept = s.kept := by
  intro t h; unfold execLnkPlanCommit at h; cases h; split
  · rw [State.commitPlan_kept, State.undefinedIf_kept]
  · rfl

theorem execLnkRtCommit_kept (value : BitVec 32) (s : State) :
    ∀ t, (execLnkRtCommit value s) = .next t → t.kept = s.kept := by
  intro t h; unfold execLnkRtCommit at h; (repeat' split at h) <;> first
    | (cases h; done)
    | (cases h; first | with_reducible rfl | (apply State.kept_congr <;> with_reducible rfl) | (simp only [State.commitRoutes_kept]; done) | (simp only [State.commitRoutes_kept]; first | with_reducible rfl | (apply State.kept_congr <;> with_reducible rfl)) | grind [State.kept, State.commitRoutes_kept, State.foldl_kept])
    | grind [State.kept, State.commitRoutes_kept]

theorem execLtSyncSend_kept (s : State) :
    ∀ t, (execLtSyncSend s) = .next t → t.kept = s.kept := by
  intro t h; unfold execLtSyncSend at h; (repeat' split at h) <;> first
    | (cases h; done)
    | (cases h; first | with_reducible rfl | (apply State.kept_congr <;> with_reducible rfl) | (simp only [State.syncSend_kept]; done) | (simp only [State.syncSend_kept]; first | with_reducible rfl | (apply State.kept_congr <;> with_reducible rfl)) | grind [State.kept, State.syncSend_kept, State.foldl_kept])
    | grind [State.kept, State.syncSend_kept]

theorem execLtSyncRequest_kept (port : BitVec 3) (s : State) :
    ∀ t, (execLtSyncRequest port s) = .next t → t.kept = s.kept := by
  unfold execLtSyncRequest; (repeat' split) <;> first
    | (intro t h; cases h; done)
    | (refine withPort_kept _ _ _ ?_; intro k; first | with_reducible rfl | (apply State.kept_congr <;> with_reducible rfl) | (simp only [withPort_kept, State.reply_kept]; done) | (grind [State.kept, withPort_kept, State.reply_kept]))
    | (intro t h; grind [State.kept, withPort_kept, State.reply_kept])

theorem execLtSyncAnswer_kept (t2 : Nat) (t3 : Nat) (settle : Bool) (s : State) :
    ∀ t, (execLtSyncAnswer t2 t3 settle s) = .next t → t.kept = s.kept := by
  intro t h; unfold execLtSyncAnswer at h; (repeat' split at h) <;> first
    | (cases h; done)
    | (cases h; first | with_reducible rfl | (apply State.kept_congr <;> with_reducible rfl) | (simp only [State.syncAnswer_kept]; done) | (simp only [State.syncAnswer_kept]; first | with_reducible rfl | (apply State.kept_congr <;> with_reducible rfl)) | grind [State.kept, State.syncAnswer_kept, State.foldl_kept])
    | grind [State.kept, State.syncAnswer_kept]

theorem execLtParentLost_kept (rootLost : Bool) (s : State) :
    ∀ t, (execLtParentLost rootLost s) = .next t → t.kept = s.kept := by
  intro t h; unfold execLtParentLost at h; (repeat' split at h) <;> first
    | (cases h; done)
    | (cases h; first | with_reducible rfl | (apply State.kept_congr <;> with_reducible rfl) | (simp only [State.parentLost_kept]; done) | (simp only [State.parentLost_kept]; first | with_reducible rfl | (apply State.kept_congr <;> with_reducible rfl)) | grind [State.kept, State.parentLost_kept, State.foldl_kept])
    | grind [State.kept, State.parentLost_kept]

theorem execLtRealign_kept (die : BitVec 3) (cluster : BitVec 4) (dev : BitVec 6) (s : State) :
    ∀ t, (execLtRealign die cluster dev s) = .next t → t.kept = s.kept := by
  intro t h; unfold execLtRealign at h; (repeat' split at h) <;> first
    | (cases h; done)
    | (cases h; first | with_reducible rfl | (apply State.kept_congr <;> with_reducible rfl) | (simp only [State.setBox_kept]; done) | (simp only [State.setBox_kept]; first | with_reducible rfl | (apply State.kept_congr <;> with_reducible rfl)) | grind [State.kept, State.setBox_kept, State.foldl_kept])
    | grind [State.kept, State.setBox_kept]

theorem execRootLineTimeSet_kept (value : BitVec 64) (s : State) :
    ∀ t, (execRootLineTimeSet value s) = .next t → t.kept = s.kept := by
  intro t h; unfold execRootLineTimeSet at h; (repeat' split at h) <;> first
    | (cases h; done)
    | (cases h; first | with_reducible rfl | (apply State.kept_congr <;> with_reducible rfl) | grind [State.kept, State.foldl_kept])
    | grind [State.kept]

theorem execIeee1588Sync_kept (eth : Bool) (offset8 : Int) (s : State) :
    ∀ t, (execIeee1588Sync eth offset8 s) = .next t → t.kept = s.kept := by
  intro t h; unfold execIeee1588Sync at h; (repeat' split at h) <;> first
    | (cases h; done)
    | (cases h; first | with_reducible rfl | (apply State.kept_congr <;> with_reducible rfl) | grind [State.kept, State.foldl_kept])
    | grind [State.kept]

theorem execEthLinkChange_kept (eth : Bool) (speed : BitVec 2) (s : State) :
    ∀ t, (execEthLinkChange eth speed s) = .next t → t.kept = s.kept := by
  intro t h; unfold execEthLinkChange at h; (repeat' split at h) <;> first
    | (cases h; done)
    | (cases h; first | with_reducible rfl | (apply State.kept_congr <;> with_reducible rfl) | (simp only [State.ethLink_kept]; done) | (simp only [State.ethLink_kept]; first | with_reducible rfl | (apply State.kept_congr <;> with_reducible rfl)) | grind [State.kept, State.ethLink_kept, State.foldl_kept])
    | grind [State.kept, State.ethLink_kept]

theorem execRdmaRemoteWrite_kept (qp : Nat) (key : BitVec 32) (addr : Nat) (data : List Byte) (s : State) :
    ∀ t, (execRdmaRemoteWrite qp key addr data s) = .next t → t.kept = s.kept := by
  intro t h; unfold execRdmaRemoteWrite at h; (repeat' split at h) <;> first
    | (cases h; done)
    | (cases h; first | with_reducible rfl | (apply State.kept_congr <;> with_reducible rfl) | (simp only [State.remoteWrite_kept]; done) | (simp only [State.remoteWrite_kept]; first | with_reducible rfl | (apply State.kept_congr <;> with_reducible rfl)) | grind [State.kept, State.remoteWrite_kept, State.foldl_kept])
    | grind [State.kept, State.remoteWrite_kept]

theorem execRdmaRemoteRead_kept (qp : Nat) (key : BitVec 32) (addr : Nat) (len : Nat) (s : State) :
    ∀ t, (execRdmaRemoteRead qp key addr len s) = .next t → t.kept = s.kept := by
  intro t h; unfold execRdmaRemoteRead at h; (repeat' split at h) <;> first
    | (cases h; done)
    | (cases h; first | with_reducible rfl | (apply State.kept_congr <;> with_reducible rfl) | (simp only [State.remoteRead_kept]; done) | (simp only [State.remoteRead_kept]; first | with_reducible rfl | (apply State.kept_congr <;> with_reducible rfl)) | grind [State.kept, State.remoteRead_kept, State.foldl_kept])
    | grind [State.kept, State.remoteRead_kept]

theorem execRdmaWorkCompletion_kept (work : Option Nat) (ok : Bool) (dst : Nat) (data : List Byte) (s : State) :
    ∀ t, (execRdmaWorkCompletion work ok dst data s) = .next t → t.kept = s.kept := by
  intro t h; unfold execRdmaWorkCompletion at h; (repeat' split at h) <;> first
    | (cases h; done)
    | (cases h; first | with_reducible rfl | (apply State.kept_congr <;> with_reducible rfl) | (simp only [State.workDone_kept]; done) | (simp only [State.workDone_kept]; first | with_reducible rfl | (apply State.kept_congr <;> with_reducible rfl)) | grind [State.kept, State.workDone_kept, State.foldl_kept])
    | grind [State.kept, State.workDone_kept]

theorem execCongestionNotification_kept (qp : Nat) (s : State) :
    ∀ t, (execCongestionNotification qp s) = .next t → t.kept = s.kept := by
  intro t h; unfold execCongestionNotification at h; (repeat' split at h) <;> first
    | (cases h; done)
    | (cases h; first | with_reducible rfl | (apply State.kept_congr <;> with_reducible rfl) | grind [State.kept, State.foldl_kept])
    | grind [State.kept]

theorem execPriorityFlowControl_kept (eth : Bool) (priority : BitVec 3) (pause : Bool) (s : State) :
    ∀ t, (execPriorityFlowControl eth priority pause s) = .next t → t.kept = s.kept := by
  intro t h; unfold execPriorityFlowControl at h; (repeat' split at h) <;> first
    | (cases h; done)
    | (cases h; first | with_reducible rfl | (apply State.kept_congr <;> with_reducible rfl) | grind [State.kept, State.foldl_kept])
    | grind [State.kept]

theorem execQueuePairSetup_kept (region : Bool) (num : Nat) (base : Nat) (len : Nat) (key : BitVec 32) (eth : Bool) (peer : BitVec 24) (s : State) :
    ∀ t, (execQueuePairSetup region num base len key eth peer s) = .next t → t.kept = s.kept := by
  intro t h; unfold execQueuePairSetup at h; (repeat' split at h) <;> first
    | (cases h; done)
    | (cases h; first | with_reducible rfl | (apply State.kept_congr <;> with_reducible rfl) | (simp only [State.setupRdma_kept]; done) | (simp only [State.setupRdma_kept]; first | with_reducible rfl | (apply State.kept_congr <;> with_reducible rfl)) | grind [State.kept, State.setupRdma_kept, State.foldl_kept])
    | grind [State.kept, State.setupRdma_kept]

theorem execModuleIdAssign_kept (id : BitVec 15) (s : State) :
    ∀ t, (execModuleIdAssign id s) = .next t → t.kept = s.kept := by
  intro t h; unfold execModuleIdAssign at h; (repeat' split at h) <;> first
    | (cases h; done)
    | (cases h; first | with_reducible rfl | (apply State.kept_congr <;> with_reducible rfl) | grind [State.kept, State.foldl_kept])
    | grind [State.kept]

theorem execFeAccess_kept (access : Option (BitVec 21 × Option (BitVec 32))) (s : State) :
    ∀ t, (execFeAccess access s) = .next t → t.kept = s.kept := by
  intro t h; unfold execFeAccess at h; (repeat' split at h) <;> first
    | (cases h; done)
    | (cases h; first | with_reducible rfl | (apply State.kept_congr <;> with_reducible rfl) | (simp only [State.serveWaiting_kept, State.feAccess_kept]; done) | (simp only [State.serveWaiting_kept, State.feAccess_kept]; first | with_reducible rfl | (apply State.kept_congr <;> with_reducible rfl)) | grind [State.kept, State.serveWaiting_kept, State.feAccess_kept, State.foldl_kept])
    | grind [State.kept, State.serveWaiting_kept, State.feAccess_kept]

theorem execFeTimeout_kept (s : State) :
    ∀ t, (execFeTimeout s) = .next t → t.kept = s.kept := by
  intro t h; unfold execFeTimeout at h; (repeat' split at h) <;> first
    | (cases h; done)
    | (cases h; first | with_reducible rfl | (apply State.kept_congr <;> with_reducible rfl) | (simp only [State.feTimeout_kept]; done) | (simp only [State.feTimeout_kept]; first | with_reducible rfl | (apply State.kept_congr <;> with_reducible rfl)) | grind [State.kept, State.feTimeout_kept, State.foldl_kept])
    | grind [State.kept, State.feTimeout_kept]

theorem execWindowRead_kept (offset : BitVec 32) (count : BitVec 8) (s : State) :
    ∀ t, (execWindowRead offset count s) = .next t → t.kept = s.kept := by
  intro t h; unfold execWindowRead at h; (repeat' split at h) <;> first
    | (cases h; done)
    | (cases h; first | with_reducible rfl | (apply State.kept_congr <;> with_reducible rfl) | (simp only [State.sideRead_kept]; done) | (simp only [State.sideRead_kept]; first | with_reducible rfl | (apply State.kept_congr <;> with_reducible rfl)) | grind [State.kept, State.sideRead_kept, State.foldl_kept])
    | grind [State.kept, State.sideRead_kept]

theorem execWindowWrite_kept (offset : BitVec 32) (value : BitVec 32) (s : State) :
    ∀ t, (execWindowWrite offset value s) = .next t → t.kept = s.kept := by
  intro t h; unfold execWindowWrite at h; (repeat' split at h) <;> first
    | (cases h; done)
    | (cases h; first | with_reducible rfl | (apply State.kept_congr <;> with_reducible rfl) | (simp only [State.sideWrite_kept]; done) | (simp only [State.sideWrite_kept]; first | with_reducible rfl | (apply State.kept_congr <;> with_reducible rfl)) | grind [State.kept, State.sideWrite_kept, State.foldl_kept])
    | grind [State.kept, State.sideWrite_kept]

theorem execLatchingLoRead_kept (side : Bool) (offset : BitVec 21) (s : State) :
    ∀ t, (execLatchingLoRead side offset s) = .next t → t.kept = s.kept := by
  intro t h; unfold execLatchingLoRead at h; (repeat' split at h) <;> first
    | (cases h; done)
    | (cases h; first | with_reducible rfl | (apply State.kept_congr <;> with_reducible rfl) | (simp only [State.readClass_kept]; done) | (simp only [State.readClass_kept]; first | with_reducible rfl | (apply State.kept_congr <;> with_reducible rfl)) | grind [State.kept, State.readClass_kept, State.foldl_kept])
    | grind [State.kept, State.readClass_kept]

theorem execRcRead_kept (side : Bool) (offset : BitVec 21) (s : State) :
    ∀ t, (execRcRead side offset s) = .next t → t.kept = s.kept := by
  intro t h; unfold execRcRead at h; (repeat' split at h) <;> first
    | (cases h; done)
    | (cases h; first | with_reducible rfl | (apply State.kept_congr <;> with_reducible rfl) | (simp only [State.readClass_kept]; done) | (simp only [State.readClass_kept]; first | with_reducible rfl | (apply State.kept_congr <;> with_reducible rfl)) | grind [State.kept, State.readClass_kept, State.foldl_kept])
    | grind [State.kept, State.readClass_kept]

theorem execTracePortRead_kept (side : Bool) (offset : BitVec 21) (s : State) :
    ∀ t, (execTracePortRead side offset s) = .next t → t.kept = s.kept := by
  intro t h; unfold execTracePortRead at h; (repeat' split at h) <;> first
    | (cases h; done)
    | (cases h; first | with_reducible rfl | (apply State.kept_congr <;> with_reducible rfl) | (simp only [State.readClass_kept]; done) | (simp only [State.readClass_kept]; first | with_reducible rfl | (apply State.kept_congr <;> with_reducible rfl)) | grind [State.kept, State.readClass_kept, State.foldl_kept])
    | grind [State.kept, State.readClass_kept]

theorem execRegisterWrite_kept (writer : Writer) (offset : BitVec 21) (value : BitVec 32) (s : State) :
    ∀ t, (execRegisterWrite writer offset value s) = .next t → t.kept = s.kept := by
  intro t h; unfold execRegisterWrite at h; (repeat' split at h) <;> first
    | (cases h; done)
    | (cases h; first | with_reducible rfl | (apply State.kept_congr <;> with_reducible rfl) | (simp only [State.hostWriteReg_kept, State.writeMsix_kept, State.sideWrite_kept, State.writeFirmware_kept]; done) | (simp only [State.hostWriteReg_kept, State.writeMsix_kept, State.sideWrite_kept, State.writeFirmware_kept]; first | with_reducible rfl | (apply State.kept_congr <;> with_reducible rfl)) | grind [State.kept, State.hostWriteReg_kept, State.writeMsix_kept, State.sideWrite_kept, State.writeFirmware_kept, State.foldl_kept])
    | grind [State.kept, State.hostWriteReg_kept, State.writeMsix_kept, State.sideWrite_kept, State.writeFirmware_kept]

theorem execTraceSwTrigger_kept (die : BitVec 3) (cluster : BitVec 4) (s : State) :
    ∀ t, (execTraceSwTrigger die cluster s) = .next t → t.kept = s.kept := by
  unfold execTraceSwTrigger; (repeat' split) <;> first
    | (intro t h; cases h; done)
    | (refine withBox_kept _ _ _ _ ?_; intro k; first | with_reducible rfl | (apply State.kept_congr <;> with_reducible rfl) | (simp only [State.triggerTrace_kept]; done) | (grind [State.kept, State.triggerTrace_kept]))
    | (intro t h; grind [State.kept, State.triggerTrace_kept])

theorem execTraceTrigger_kept (die : BitVec 3) (cluster : BitVec 4) (source : BitVec 2) (cell : BitVec 4) (code : BitVec 16) (s : State) :
    ∀ t, (execTraceTrigger die cluster source cell code s) = .next t → t.kept = s.kept := by
  unfold execTraceTrigger; (repeat' split) <;> first
    | (intro t h; cases h; done)
    | (refine withBox_kept _ _ _ _ ?_; intro k; first | with_reducible rfl | (apply State.kept_congr <;> with_reducible rfl) | (simp only [State.triggerTrace_kept]; done) | (grind [State.kept, State.triggerTrace_kept]))
    | (intro t h; grind [State.kept, State.triggerTrace_kept])

theorem execGlobalTrigger_kept (die : BitVec 3) (cluster : BitVec 4) (fromDie : BitVec 3) (fromCluster : BitVec 4) (lt : BitVec 64) (s : State) :
    ∀ t, (execGlobalTrigger die cluster fromDie fromCluster lt s) = .next t → t.kept = s.kept := by
  unfold execGlobalTrigger; (repeat' split) <;> first
    | (intro t h; cases h; done)
    | (refine withBox_kept _ _ _ _ ?_; intro k; first | with_reducible rfl | (apply State.kept_congr <;> with_reducible rfl) | (simp only [State.triggerTrace_kept]; done) | (grind [State.kept, State.triggerTrace_kept]))
    | (intro t h; grind [State.kept, State.triggerTrace_kept])

theorem execDbgBrake_kept (value : BitVec 32) (s : State) :
    ∀ t, (execDbgBrake value s) = .next t → t.kept = s.kept := by
  intro t h; unfold execDbgBrake at h; (repeat' split at h) <;> first
    | (cases h; done)
    | (cases h; first | with_reducible rfl | (apply State.kept_congr <;> with_reducible rfl) | (simp only [State.writeDbg_kept]; done) | (simp only [State.writeDbg_kept]; first | with_reducible rfl | (apply State.kept_congr <;> with_reducible rfl)) | grind [State.kept, State.writeDbg_kept, State.foldl_kept])
    | grind [State.kept, State.writeDbg_kept]

theorem execSidebandBrake_kept (s : State) :
    ∀ t, (execSidebandBrake s) = .next t → t.kept = s.kept := by
  intro t h; unfold execSidebandBrake at h; (repeat' split at h) <;> first
    | (cases h; done)
    | (cases h; first | with_reducible rfl | (apply State.kept_congr <;> with_reducible rfl) | (simp only [State.reply_kept, State.brake_kept, State.sideError_kept]; done) | (simp only [State.reply_kept, State.brake_kept, State.sideError_kept]; first | with_reducible rfl | (apply State.kept_congr <;> with_reducible rfl)) | grind [State.kept, State.reply_kept, State.brake_kept, State.sideError_kept, State.foldl_kept])
    | grind [State.kept, State.reply_kept, State.brake_kept, State.sideError_kept]

theorem execScanRead_kept (space : BitVec 8) (cell : BitVec 16) (offset : BitVec 32) (length : BitVec 16) (s : State) :
    ∀ t, (execScanRead space cell offset length s) = .next t → t.kept = s.kept := by
  intro t h; unfold execScanRead at h; (repeat' split at h) <;> first
    | (cases h; done)
    | (cases h; first | with_reducible rfl | (apply State.kept_congr <;> with_reducible rfl) | (simp only [State.sideError_kept, State.scan_kept, State.reply_kept]; done) | (simp only [State.sideError_kept, State.scan_kept, State.reply_kept]; first | with_reducible rfl | (apply State.kept_congr <;> with_reducible rfl)) | grind [State.kept, State.sideError_kept, State.scan_kept, State.reply_kept, State.foldl_kept])
    | grind [State.kept, State.sideError_kept, State.scan_kept, State.reply_kept]

theorem execExtest_kept (s : State) :
    ∀ t, (execExtest s) = .next t → t.kept = s.kept := by
  unfold execExtest; (repeat' split) <;> first
    | (intro t h; cases h; done)
    | (refine jtagRow_kept _ _ _ ?_; intro u; first | with_reducible rfl | (apply State.kept_congr <;> with_reducible rfl) | (simp only [jtagRow_kept, State.boundary_kept]; done) | (grind [State.kept, jtagRow_kept, State.boundary_kept]))
    | (intro t h; grind [State.kept, jtagRow_kept, State.boundary_kept])

theorem execSamplePreload_kept (s : State) :
    ∀ t, (execSamplePreload s) = .next t → t.kept = s.kept := by
  unfold execSamplePreload; (repeat' split) <;> first
    | (intro t h; cases h; done)
    | (refine jtagRow_kept _ _ _ ?_; intro u; first | with_reducible rfl | (apply State.kept_congr <;> with_reducible rfl) | (simp only [jtagRow_kept, State.boundary_kept]; done) | (grind [State.kept, jtagRow_kept, State.boundary_kept]))
    | (intro t h; grind [State.kept, jtagRow_kept, State.boundary_kept])

theorem execJtagBrake_kept (bit : Bool) (s : State) :
    ∀ t, (execJtagBrake bit s) = .next t → t.kept = s.kept := by
  unfold execJtagBrake; (repeat' split) <;> first
    | (intro t h; cases h; done)
    | (refine jtagRow_kept _ _ _ ?_; intro u; first | with_reducible rfl | (apply State.kept_congr <;> with_reducible rfl) | (simp only [jtagRow_kept, State.brake_kept]; done) | (grind [State.kept, jtagRow_kept, State.brake_kept]))
    | (intro t h; grind [State.kept, jtagRow_kept, State.brake_kept])

theorem execScanaddr_kept (value : BitVec 64) (s : State) :
    ∀ t, (execScanaddr value s) = .next t → t.kept = s.kept := by
  unfold execScanaddr; (repeat' split) <;> first
    | (intro t h; cases h; done)
    | (refine jtagRow_kept _ _ _ ?_; intro u; first | with_reducible rfl | (apply State.kept_congr <;> with_reducible rfl) | (simp only [jtagRow_kept]; done) | (grind [State.kept, jtagRow_kept]))
    | (intro t h; grind [State.kept, jtagRow_kept])

theorem execScandata_kept (s : State) :
    ∀ t, (execScandata s) = .next t → t.kept = s.kept := by
  unfold execScandata; (repeat' split) <;> first
    | (intro t h; cases h; done)
    | (refine jtagRow_kept _ _ _ ?_; intro u; first | with_reducible rfl | (apply State.kept_congr <;> with_reducible rfl) | (simp only [jtagRow_kept, State.scan_kept, State.reply_kept]; done) | (grind [State.kept, jtagRow_kept, State.scan_kept, State.reply_kept]))
    | (intro t h; grind [State.kept, jtagRow_kept, State.scan_kept, State.reply_kept])

theorem execDbgstat_kept (s : State) :
    ∀ t, (execDbgstat s) = .next t → t.kept = s.kept := by
  unfold execDbgstat; (repeat' split) <;> first
    | (intro t h; cases h; done)
    | (refine jtagRow_kept _ _ _ ?_; intro u; first | with_reducible rfl | (apply State.kept_congr <;> with_reducible rfl) | (simp only [jtagRow_kept, State.reply_kept]; done) | (grind [State.kept, jtagRow_kept, State.reply_kept]))
    | (intro t h; grind [State.kept, jtagRow_kept, State.reply_kept])

theorem execBypass_kept (code : BitVec 8) (s : State) :
    ∀ t, (execBypass code s) = .next t → t.kept = s.kept := by
  unfold execBypass; (repeat' split) <;> first
    | (intro t h; cases h; done)
    | (refine jtagRow_kept _ _ _ ?_; intro u; first | with_reducible rfl | (apply State.kept_congr <;> with_reducible rfl) | (simp only [jtagRow_kept]; done) | (grind [State.kept, jtagRow_kept]))
    | (intro t h; grind [State.kept, jtagRow_kept])

theorem execJtagTrst_kept (low : Bool) (s : State) :
    ∀ t, (execJtagTrst low s) = .next t → t.kept = s.kept := by
  intro t h; unfold execJtagTrst at h; (repeat' split at h) <;> first
    | (cases h; done)
    | (cases h; first | with_reducible rfl | (apply State.kept_congr <;> with_reducible rfl) | grind [State.kept, State.foldl_kept])
    | grind [State.kept]

theorem execHangWatchTimeout_kept (task : BitVec 32) (s : State) :
    ∀ t, (execHangWatchTimeout task s) = .next t → t.kept = s.kept := by
  intro t h; unfold execHangWatchTimeout at h; (repeat' split at h) <;> first
    | (cases h; done)
    | (cases h; first | with_reducible rfl | (apply State.kept_congr <;> with_reducible rfl) | (simp only [State.hangWatch_kept]; done) | (simp only [State.hangWatch_kept]; first | with_reducible rfl | (apply State.kept_congr <;> with_reducible rfl)) | grind [State.kept, State.hangWatch_kept, State.foldl_kept])
    | grind [State.kept, State.hangWatch_kept]

theorem execDbgHangBuild_kept (value : BitVec 32) (s : State) :
    ∀ t, (execDbgHangBuild value s) = .next t → t.kept = s.kept := by
  intro t h; unfold execDbgHangBuild at h; (repeat' split at h) <;> first
    | (cases h; done)
    | (cases h; first | with_reducible rfl | (apply State.kept_congr <;> with_reducible rfl) | (simp only [State.writeDbg_kept]; done) | (simp only [State.writeDbg_kept]; first | with_reducible rfl | (apply State.kept_congr <;> with_reducible rfl)) | grind [State.kept, State.writeDbg_kept, State.foldl_kept])
    | grind [State.kept, State.writeDbg_kept]

theorem execHangSnapshotConfirm_kept (s : State) :
    ∀ t, (execHangSnapshotConfirm s) = .next t → t.kept = s.kept := by
  intro t h; unfold execHangSnapshotConfirm at h; (repeat' split at h) <;> first
    | (cases h; done)
    | (cases h; first | with_reducible rfl | (apply State.kept_congr <;> with_reducible rfl) | (simp only [State.confirmGraph_kept]; done) | (simp only [State.confirmGraph_kept]; first | with_reducible rfl | (apply State.kept_congr <;> with_reducible rfl)) | grind [State.kept, State.confirmGraph_kept, State.foldl_kept])
    | grind [State.kept, State.confirmGraph_kept]

theorem execMxSync_kept (cell : CellId) (s : State) :
    ∀ t, (execMxSync cell s) = .next t → t.kept = s.kept := by
  intro t h; unfold execMxSync at h; (repeat' split at h) <;> first
    | (cases h; done)
    | (cases h; first | with_reducible rfl | (apply State.kept_congr <;> with_reducible rfl) | (simp only [runEngine_kept]; done) | (simp only [runEngine_kept]; first | with_reducible rfl | (apply State.kept_congr <;> with_reducible rfl)) | grind [State.kept, runEngine_kept, State.foldl_kept])
    | grind [State.kept, runEngine_kept]

theorem execMma_kept (cell : CellId) (s : State) :
    ∀ t, (execMma cell s) = .next t → t.kept = s.kept := by
  intro t h; unfold execMma at h; (repeat' split at h) <;> first
    | (cases h; done)
    | (cases h; first | with_reducible rfl | (apply State.kept_congr <;> with_reducible rfl) | (simp only [runEngine_kept]; done) | (simp only [runEngine_kept]; first | with_reducible rfl | (apply State.kept_congr <;> with_reducible rfl)) | grind [State.kept, runEngine_kept, State.foldl_kept])
    | grind [State.kept, runEngine_kept]

theorem execVxSync_kept (cell : CellId) (s : State) :
    ∀ t, (execVxSync cell s) = .next t → t.kept = s.kept := by
  intro t h; unfold execVxSync at h; (repeat' split at h) <;> first
    | (cases h; done)
    | (cases h; first | with_reducible rfl | (apply State.kept_congr <;> with_reducible rfl) | (simp only [runEngine_kept]; done) | (simp only [runEngine_kept]; first | with_reducible rfl | (apply State.kept_congr <;> with_reducible rfl)) | grind [State.kept, runEngine_kept, State.foldl_kept])
    | grind [State.kept, runEngine_kept]

theorem execVbin_kept (cell : CellId) (s : State) :
    ∀ t, (execVbin cell s) = .next t → t.kept = s.kept := by
  intro t h; unfold execVbin at h; (repeat' split at h) <;> first
    | (cases h; done)
    | (cases h; first | with_reducible rfl | (apply State.kept_congr <;> with_reducible rfl) | (simp only [runEngine_kept]; done) | (simp only [runEngine_kept]; first | with_reducible rfl | (apply State.kept_congr <;> with_reducible rfl)) | grind [State.kept, runEngine_kept, State.foldl_kept])
    | grind [State.kept, runEngine_kept]

theorem execVun_kept (cell : CellId) (s : State) :
    ∀ t, (execVun cell s) = .next t → t.kept = s.kept := by
  intro t h; unfold execVun at h; (repeat' split at h) <;> first
    | (cases h; done)
    | (cases h; first | with_reducible rfl | (apply State.kept_congr <;> with_reducible rfl) | (simp only [runEngine_kept]; done) | (simp only [runEngine_kept]; first | with_reducible rfl | (apply State.kept_congr <;> with_reducible rfl)) | grind [State.kept, runEngine_kept, State.foldl_kept])
    | grind [State.kept, runEngine_kept]

theorem execVfma_kept (cell : CellId) (s : State) :
    ∀ t, (execVfma cell s) = .next t → t.kept = s.kept := by
  intro t h; unfold execVfma at h; (repeat' split at h) <;> first
    | (cases h; done)
    | (cases h; first | with_reducible rfl | (apply State.kept_congr <;> with_reducible rfl) | (simp only [runEngine_kept]; done) | (simp only [runEngine_kept]; first | with_reducible rfl | (apply State.kept_congr <;> with_reducible rfl)) | grind [State.kept, runEngine_kept, State.foldl_kept])
    | grind [State.kept, runEngine_kept]

theorem execVred_kept (cell : CellId) (s : State) :
    ∀ t, (execVred cell s) = .next t → t.kept = s.kept := by
  intro t h; unfold execVred at h; (repeat' split at h) <;> first
    | (cases h; done)
    | (cases h; first | with_reducible rfl | (apply State.kept_congr <;> with_reducible rfl) | (simp only [runEngine_kept]; done) | (simp only [runEngine_kept]; first | with_reducible rfl | (apply State.kept_congr <;> with_reducible rfl)) | grind [State.kept, runEngine_kept, State.foldl_kept])
    | grind [State.kept, runEngine_kept]

theorem execVrsc_kept (cell : CellId) (s : State) :
    ∀ t, (execVrsc cell s) = .next t → t.kept = s.kept := by
  intro t h; unfold execVrsc at h; (repeat' split at h) <;> first
    | (cases h; done)
    | (cases h; first | with_reducible rfl | (apply State.kept_congr <;> with_reducible rfl) | (simp only [runEngine_kept]; done) | (simp only [runEngine_kept]; first | with_reducible rfl | (apply State.kept_congr <;> with_reducible rfl)) | grind [State.kept, runEngine_kept, State.foldl_kept])
    | grind [State.kept, runEngine_kept]

theorem execMsSync_kept (cell : CellId) (s : State) :
    ∀ t, (execMsSync cell s) = .next t → t.kept = s.kept := by
  intro t h; unfold execMsSync at h; (repeat' split at h) <;> first
    | (cases h; done)
    | (cases h; first | with_reducible rfl | (apply State.kept_congr <;> with_reducible rfl) | (simp only [runEngine_kept]; done) | (simp only [runEngine_kept]; first | with_reducible rfl | (apply State.kept_congr <;> with_reducible rfl)) | grind [State.kept, runEngine_kept, State.foldl_kept])
    | grind [State.kept, runEngine_kept]

theorem execRunwb_kept (cell : CellId) (s : State) :
    ∀ t, (execRunwb cell s) = .next t → t.kept = s.kept := by
  intro t h; unfold execRunwb at h; (repeat' split at h) <;> first
    | (cases h; done)
    | (cases h; first | with_reducible rfl | (apply State.kept_congr <;> with_reducible rfl) | (simp only [runEngine_kept]; done) | (simp only [runEngine_kept]; first | with_reducible rfl | (apply State.kept_congr <;> with_reducible rfl)) | grind [State.kept, runEngine_kept, State.foldl_kept])
    | grind [State.kept, runEngine_kept]

theorem execLkSync_kept (cell : CellId) (s : State) :
    ∀ t, (execLkSync cell s) = .next t → t.kept = s.kept := by
  intro t h; unfold execLkSync at h; (repeat' split at h) <;> first
    | (cases h; done)
    | (cases h; first | with_reducible rfl | (apply State.kept_congr <;> with_reducible rfl) | (simp only [runEngine_kept]; done) | (simp only [runEngine_kept]; first | with_reducible rfl | (apply State.kept_congr <;> with_reducible rfl)) | grind [State.kept, runEngine_kept, State.foldl_kept])
    | grind [State.kept, runEngine_kept]

theorem execLread_kept (cell : CellId) (s : State) :
    ∀ t, (execLread cell s) = .next t → t.kept = s.kept := by
  intro t h; unfold execLread at h; (repeat' split at h) <;> first
    | (cases h; done)
    | (cases h; first | with_reducible rfl | (apply State.kept_congr <;> with_reducible rfl) | (simp only [runEngine_kept]; done) | (simp only [runEngine_kept]; first | with_reducible rfl | (apply State.kept_congr <;> with_reducible rfl)) | grind [State.kept, runEngine_kept, State.foldl_kept])
    | grind [State.kept, runEngine_kept]

theorem execLwrite_kept (cell : CellId) (s : State) :
    ∀ t, (execLwrite cell s) = .next t → t.kept = s.kept := by
  intro t h; unfold execLwrite at h; (repeat' split at h) <;> first
    | (cases h; done)
    | (cases h; first | with_reducible rfl | (apply State.kept_congr <;> with_reducible rfl) | (simp only [runEngine_kept]; done) | (simp only [runEngine_kept]; first | with_reducible rfl | (apply State.kept_congr <;> with_reducible rfl)) | grind [State.kept, runEngine_kept, State.foldl_kept])
    | grind [State.kept, runEngine_kept]

theorem execLcell_kept (cell : CellId) (s : State) :
    ∀ t, (execLcell cell s) = .next t → t.kept = s.kept := by
  intro t h; unfold execLcell at h; (repeat' split at h) <;> first
    | (cases h; done)
    | (cases h; first | with_reducible rfl | (apply State.kept_congr <;> with_reducible rfl) | (simp only [runEngine_kept]; done) | (simp only [runEngine_kept]; first | with_reducible rfl | (apply State.kept_congr <;> with_reducible rfl)) | grind [State.kept, runEngine_kept, State.foldl_kept])
    | grind [State.kept, runEngine_kept]

theorem execLatom_kept (cell : CellId) (s : State) :
    ∀ t, (execLatom cell s) = .next t → t.kept = s.kept := by
  intro t h; unfold execLatom at h; (repeat' split at h) <;> first
    | (cases h; done)
    | (cases h; first | with_reducible rfl | (apply State.kept_congr <;> with_reducible rfl) | (simp only [runEngine_kept]; done) | (simp only [runEngine_kept]; first | with_reducible rfl | (apply State.kept_congr <;> with_reducible rfl)) | grind [State.kept, runEngine_kept, State.foldl_kept])
    | grind [State.kept, runEngine_kept]

theorem execLcoll_kept (cell : CellId) (s : State) :
    ∀ t, (execLcoll cell s) = .next t → t.kept = s.kept := by
  intro t h; unfold execLcoll at h; (repeat' split at h) <;> first
    | (cases h; done)
    | (cases h; first | with_reducible rfl | (apply State.kept_congr <;> with_reducible rfl) | (simp only [runEngine_kept]; done) | (simp only [runEngine_kept]; first | with_reducible rfl | (apply State.kept_congr <;> with_reducible rfl)) | grind [State.kept, runEngine_kept, State.foldl_kept])
    | grind [State.kept, runEngine_kept]

theorem execCommandWaitSatisfied_kept (cell : CellId) (queue : BitVec 2) (s : State) :
    ∀ t, (execCommandWaitSatisfied cell queue s) = .next t → t.kept = s.kept := by
  intro t h; unfold execCommandWaitSatisfied at h; (repeat' split at h) <;> first
    | (cases h; done)
    | (cases h; first | with_reducible rfl | (apply State.kept_congr <;> with_reducible rfl) | (simp only [runEngine_kept]; done) | (simp only [runEngine_kept]; first | with_reducible rfl | (apply State.kept_congr <;> with_reducible rfl)) | grind [State.kept, runEngine_kept, State.foldl_kept])
    | grind [State.kept, runEngine_kept]

theorem execCommandComplete_kept (cell : CellId) (queue : BitVec 2) (s : State) :
    ∀ t, (execCommandComplete cell queue s) = .next t → t.kept = s.kept := by
  unfold execCommandComplete; (repeat' split) <;> first
    | (intro t h; cases h; done)
    | (refine withLive_kept _ _ _ ?_; first | with_reducible rfl | (apply State.kept_congr <;> with_reducible rfl) | (simp only [withLive_kept, State.completeOldest_kept]; done) | (grind [State.kept, withLive_kept, State.completeOldest_kept]))
    | (intro t h; grind [State.kept, withLive_kept, State.completeOldest_kept])

theorem execMmaCheckBeat_kept (cell : CellId) (upsets : List Upset) (s : State) :
    ∀ t, (execMmaCheckBeat cell upsets s) = .next t → t.kept = s.kept := by
  unfold execMmaCheckBeat; (repeat' split) <;> first
    | (intro t h; cases h; done)
    | (refine withLive_kept _ _ _ ?_; first | with_reducible rfl | (apply State.kept_congr <;> with_reducible rfl) | (simp only [withLive_kept, checkBeat_kept]; done) | (grind [State.kept, withLive_kept, checkBeat_kept]))
    | (intro t h; grind [State.kept, withLive_kept, checkBeat_kept])

theorem execMmaRetryStart_kept (cell : CellId) (s : State) :
    ∀ t, (execMmaRetryStart cell s) = .next t → t.kept = s.kept := by
  unfold execMmaRetryStart; (repeat' split) <;> first
    | (intro t h; cases h; done)
    | (refine withLive_kept _ _ _ ?_; first | with_reducible rfl | (apply State.kept_congr <;> with_reducible rfl) | (simp only [withLive_kept, retryStart_kept]; done) | (grind [State.kept, withLive_kept, retryStart_kept]))
    | (intro t h; grind [State.kept, withLive_kept, retryStart_kept])

theorem execPanelFillTaken_kept (cell : CellId) (s : State) :
    ∀ t, (execPanelFillTaken cell s) = .next t → t.kept = s.kept := by
  unfold execPanelFillTaken; (repeat' split) <;> first
    | (intro t h; cases h; done)
    | (refine withLive_kept _ _ _ ?_; first | with_reducible rfl | (apply State.kept_congr <;> with_reducible rfl) | (simp only [withLive_kept, panelTaken_kept]; done) | (grind [State.kept, withLive_kept, panelTaken_kept]))
    | (intro t h; grind [State.kept, withLive_kept, panelTaken_kept])

theorem execCollectivePartHandoff_kept (cell : CellId) (s : State) :
    ∀ t, (execCollectivePartHandoff cell s) = .next t → t.kept = s.kept := by
  unfold execCollectivePartHandoff; (repeat' split) <;> first
    | (intro t h; cases h; done)
    | (refine withLive_kept _ _ _ ?_; first | with_reducible rfl | (apply State.kept_congr <;> with_reducible rfl) | (simp only [withLive_kept, State.handOffOldest_kept]; done) | (grind [State.kept, withLive_kept, State.handOffOldest_kept]))
    | (intro t h; grind [State.kept, withLive_kept, State.handOffOldest_kept])

theorem execCollectivePartStart_kept (cell : CellId) (s : State) :
    ∀ t, (execCollectivePartStart cell s) = .next t → t.kept = s.kept := by
  unfold execCollectivePartStart; (repeat' split) <;> first
    | (intro t h; cases h; done)
    | (refine withLive_kept _ _ _ ?_; first | with_reducible rfl | (apply State.kept_congr <;> with_reducible rfl) | (simp only [withLive_kept, State.startPart_kept]; done) | (grind [State.kept, withLive_kept, State.startPart_kept]))
    | (intro t h; grind [State.kept, withLive_kept, State.startPart_kept])

theorem execCollectivePartComplete_kept (cell : CellId) (s : State) :
    ∀ t, (execCollectivePartComplete cell s) = .next t → t.kept = s.kept := by
  unfold execCollectivePartComplete; (repeat' split) <;> first
    | (intro t h; cases h; done)
    | (refine withLive_kept _ _ _ ?_; first | with_reducible rfl | (apply State.kept_congr <;> with_reducible rfl) | (simp only [withLive_kept, State.completePart_kept]; done) | (grind [State.kept, withLive_kept, State.completePart_kept]))
    | (intro t h; grind [State.kept, withLive_kept, State.completePart_kept])

theorem execTransferAckTimeout_kept (cell : CellId) (queue : BitVec 3) (index : Nat) (landed : Nat) (s : State) :
    ∀ t, (execTransferAckTimeout cell queue index landed s) = .next t → t.kept = s.kept := by
  unfold execTransferAckTimeout; (repeat' split) <;> first
    | (intro t h; cases h; done)
    | (refine withLive_kept _ _ _ ?_; first | with_reducible rfl | (apply State.kept_congr <;> with_reducible rfl) | (simp only [withLive_kept, State.ackTimeout_kept]; done) | (grind [State.kept, withLive_kept, State.ackTimeout_kept]))
    | (intro t h; grind [State.kept, withLive_kept, State.ackTimeout_kept])

theorem execDieLinkFailure_kept (link : DieLink) (s : State) :
    ∀ t, (execDieLinkFailure link s) = .next t → t.kept = s.kept := by
  intro t h; unfold execDieLinkFailure at h; (repeat' split at h) <;> first
    | (cases h; done)
    | (cases h; first | with_reducible rfl | (apply State.kept_congr <;> with_reducible rfl) | (simp only [State.linkFails_kept]; done) | (simp only [State.linkFails_kept]; first | with_reducible rfl | (apply State.kept_congr <;> with_reducible rfl)) | grind [State.kept, State.linkFails_kept, State.foldl_kept])
    | grind [State.kept, State.linkFails_kept]

theorem execBallastGapStart_kept (cell : CellId) (duty : Nat) (beats : Nat) (s : State) :
    ∀ t, (execBallastGapStart cell duty beats s) = .next t → t.kept = s.kept := by
  unfold execBallastGapStart; (repeat' split) <;> first
    | (intro t h; cases h; done)
    | (refine withCell_kept _ _ _ ?_; first | with_reducible rfl | (apply State.kept_congr <;> with_reducible rfl) | (simp only [withCell_kept, State.gapStart_kept]; done) | (grind [State.kept, withCell_kept, State.gapStart_kept]))
    | (intro t h; grind [State.kept, withCell_kept, State.gapStart_kept])

theorem execBallastHoldEnd_kept (cell : CellId) (beats : Nat) (s : State) :
    ∀ t, (execBallastHoldEnd cell beats s) = .next t → t.kept = s.kept := by
  unfold execBallastHoldEnd; (repeat' split) <;> first
    | (intro t h; cases h; done)
    | (refine withCell_kept _ _ _ ?_; first | with_reducible rfl | (apply State.kept_congr <;> with_reducible rfl) | (simp only [withCell_kept, State.gapHoldEnd_kept]; done) | (grind [State.kept, withCell_kept, State.gapHoldEnd_kept]))
    | (intro t h; grind [State.kept, withCell_kept, State.gapHoldEnd_kept])

theorem execBallastRampEnd_kept (cell : CellId) (beats : Nat) (s : State) :
    ∀ t, (execBallastRampEnd cell beats s) = .next t → t.kept = s.kept := by
  unfold execBallastRampEnd; (repeat' split) <;> first
    | (intro t h; cases h; done)
    | (refine withCell_kept _ _ _ ?_; first | with_reducible rfl | (apply State.kept_congr <;> with_reducible rfl) | (simp only [withCell_kept, State.gapRampEnd_kept]; done) | (grind [State.kept, withCell_kept, State.gapRampEnd_kept]))
    | (intro t h; grind [State.kept, withCell_kept, State.gapRampEnd_kept])

theorem execHold_kept (port : BitVec 3) (job : BitVec 16) (origin : BitVec 15) (oseq : BitVec 8) (cause : BitVec 4) (failed : BitVec 15) (fport : BitVec 8) (lt : BitVec 64) (s : State) :
    ∀ t, (execHold port job origin oseq cause failed fport lt s) = .next t → t.kept = s.kept := by
  intro t h; unfold execHold at h; (repeat' split at h) <;> first
    | (cases h; done)
    | (cases h; first | with_reducible rfl | (apply State.kept_congr <;> with_reducible rfl) | (simp only [State.holdArrives_kept]; done) | (simp only [State.holdArrives_kept]; first | with_reducible rfl | (apply State.kept_congr <;> with_reducible rfl)) | grind [State.kept, State.holdArrives_kept, State.foldl_kept])
    | grind [State.kept, State.holdArrives_kept]

theorem execRelease_kept (port : BitVec 3) (job : BitVec 16) (origin : BitVec 15) (oseq : BitVec 8) (round : BitVec 8) (epoch : BitVec 32) (lt : BitVec 64) (s : State) :
    ∀ t, (execRelease port job origin oseq round epoch lt s) = .next t → t.kept = s.kept := by
  intro t h; unfold execRelease at h; (repeat' split at h) <;> first
    | (cases h; done)
    | (cases h; first | with_reducible rfl | (apply State.kept_congr <;> with_reducible rfl) | (simp only [State.holdArrives_kept]; done) | (simp only [State.holdArrives_kept]; first | with_reducible rfl | (apply State.kept_congr <;> with_reducible rfl)) | grind [State.kept, State.holdArrives_kept, State.foldl_kept])
    | grind [State.kept, State.holdArrives_kept]

theorem execHoldRequest_kept (failed : BitVec 15) (s : State) :
    ∀ t, (execHoldRequest failed s) = .next t → t.kept = s.kept := by
  intro t h; unfold execHoldRequest at h; (repeat' split at h) <;> first
    | (cases h; done)
    | (cases h; first | with_reducible rfl | (apply State.kept_congr <;> with_reducible rfl) | (simp only [State.originateHold_kept]; done) | (simp only [State.originateHold_kept]; first | with_reducible rfl | (apply State.kept_congr <;> with_reducible rfl)) | grind [State.kept, State.originateHold_kept, State.foldl_kept])
    | grind [State.kept, State.originateHold_kept]

theorem execOwnFaultHold_kept (s : State) :
    ∀ t, (execOwnFaultHold s) = .next t → t.kept = s.kept := by
  intro t h; unfold execOwnFaultHold at h; (repeat' split at h) <;> first
    | (cases h; done)
    | (cases h; first | with_reducible rfl | (apply State.kept_congr <;> with_reducible rfl) | (simp only [State.ownFault_kept]; done) | (simp only [State.ownFault_kept]; first | with_reducible rfl | (apply State.kept_congr <;> with_reducible rfl)) | grind [State.kept, State.ownFault_kept, State.foldl_kept])
    | grind [State.kept, State.ownFault_kept]

theorem execHeldReached_kept (s : State) :
    ∀ t, (execHeldReached s) = .next t → t.kept = s.kept := by
  intro t h; unfold execHeldReached at h; (repeat' split at h) <;> first
    | (cases h; done)
    | (cases h; first | with_reducible rfl | (apply State.kept_congr <;> with_reducible rfl) | (simp only [State.reachHeld_kept]; done) | (simp only [State.reachHeld_kept]; first | with_reducible rfl | (apply State.kept_congr <;> with_reducible rfl)) | grind [State.kept, State.reachHeld_kept, State.foldl_kept])
    | grind [State.kept, State.reachHeld_kept]

theorem execHeldReport_kept (src : BitVec 15) (round : BitVec 8) (job : BitVec 16) (epoch : BitVec 64) (heard : List (BitVec 15)) (s : State) :
    ∀ t, (execHeldReport src round job epoch heard s) = .next t → t.kept = s.kept := by
  intro t h; unfold execHeldReport at h; (repeat' split at h) <;> first
    | (cases h; done)
    | (cases h; first | with_reducible rfl | (apply State.kept_congr <;> with_reducible rfl) | (simp only [State.collectReport_kept]; done) | (simp only [State.collectReport_kept]; first | with_reducible rfl | (apply State.kept_congr <;> with_reducible rfl)) | grind [State.kept, State.collectReport_kept, State.foldl_kept])
    | grind [State.kept, State.collectReport_kept]

theorem execReportWaitTimeout_kept (s : State) :
    ∀ t, (execReportWaitTimeout s) = .next t → t.kept = s.kept := by
  intro t h; unfold execReportWaitTimeout at h; (repeat' split at h) <;> first
    | (cases h; done)
    | (cases h; first | with_reducible rfl | (apply State.kept_congr <;> with_reducible rfl) | (simp only [State.tryPlan_kept]; done) | (simp only [State.tryPlan_kept]; first | with_reducible rfl | (apply State.kept_congr <;> with_reducible rfl)) | grind [State.kept, State.tryPlan_kept, State.foldl_kept])
    | grind [State.kept, State.tryPlan_kept]

theorem execBackupTakeover_kept (s : State) :
    ∀ t, (execBackupTakeover s) = .next t → t.kept = s.kept := by
  intro t h; unfold execBackupTakeover at h; (repeat' split at h) <;> first
    | (cases h; done)
    | (cases h; first | with_reducible rfl | (apply State.kept_congr <;> with_reducible rfl) | (simp only [State.tryPlan_kept]; done) | (simp only [State.tryPlan_kept]; first | with_reducible rfl | (apply State.kept_congr <;> with_reducible rfl)) | grind [State.kept, State.tryPlan_kept, State.foldl_kept])
    | grind [State.kept, State.tryPlan_kept]

theorem execPlan_kept (src : BitVec 15) (round : BitVec 8) (job : BitVec 16) (epoch : BitVec 64) (pairs : List (BitVec 15 × BitVec 15)) (drops : List (BitVec 15 × BitVec 15)) (s : State) :
    ∀ t, (execPlan src round job epoch pairs drops s) = .next t → t.kept = s.kept := by
  intro t h; unfold execPlan at h; (repeat' split at h) <;> first
    | (cases h; done)
    | (cases h; first | with_reducible rfl | (apply State.kept_congr <;> with_reducible rfl) | (simp only [State.sendRec_kept, State.applyPlan_kept]; done) | (simp only [State.sendRec_kept, State.applyPlan_kept]; first | with_reducible rfl | (apply State.kept_congr <;> with_reducible rfl)) | grind [State.kept, State.sendRec_kept, State.applyPlan_kept, State.foldl_kept])
    | grind [State.kept, State.sendRec_kept, State.applyPlan_kept]

theorem execReady_kept (src : BitVec 15) (round : BitVec 8) (job : BitVec 16) (s : State) :
    ∀ t, (execReady src round job s) = .next t → t.kept = s.kept := by
  intro t h; unfold execReady at h; (repeat' split at h) <;> first
    | (cases h; done)
    | (cases h; first | with_reducible rfl | (apply State.kept_congr <;> with_reducible rfl) | (simp only [State.whenReady_kept]; done) | (simp only [State.whenReady_kept]; first | with_reducible rfl | (apply State.kept_congr <;> with_reducible rfl)) | grind [State.kept, State.whenReady_kept, State.foldl_kept])
    | grind [State.kept, State.whenReady_kept]

theorem execRebuildGo_kept (round : BitVec 8) (job : BitVec 16) (position : BitVec 15) (spare : BitVec 15) (s : State) :
    ∀ t, (execRebuildGo round job position spare s) = .next t → t.kept = s.kept := by
  intro t h; unfold execRebuildGo at h; (repeat' split at h) <;> first
    | (cases h; done)
    | (cases h; first | with_reducible rfl | (apply State.kept_congr <;> with_reducible rfl) | (simp only [State.rebuildGo_kept]; done) | (simp only [State.rebuildGo_kept]; first | with_reducible rfl | (apply State.kept_congr <;> with_reducible rfl)) | grind [State.kept, State.rebuildGo_kept, State.foldl_kept])
    | grind [State.kept, State.rebuildGo_kept]

theorem execRebuilt_kept (src : BitVec 15) (round : BitVec 8) (job : BitVec 16) (s : State) :
    ∀ t, (execRebuilt src round job s) = .next t → t.kept = s.kept := by
  intro t h; unfold execRebuilt at h; (repeat' split at h) <;> first
    | (cases h; done)
    | (cases h; first | with_reducible rfl | (apply State.kept_congr <;> with_reducible rfl) | (simp only [State.nextRebuild_kept]; done) | (simp only [State.nextRebuild_kept]; first | with_reducible rfl | (apply State.kept_congr <;> with_reducible rfl)) | grind [State.kept, State.nextRebuild_kept, State.foldl_kept])
    | grind [State.kept, State.nextRebuild_kept]

theorem execRecCommit_kept (round : BitVec 8) (job : BitVec 16) (s : State) :
    ∀ t, (execRecCommit round job s) = .next t → t.kept = s.kept := by
  intro t h; unfold execRecCommit at h; (repeat' split at h) <;> first
    | (cases h; done)
    | (cases h; first | with_reducible rfl | (apply State.kept_congr <;> with_reducible rfl) | (simp only [State.recCommit_kept]; done) | (simp only [State.recCommit_kept]; first | with_reducible rfl | (apply State.kept_congr <;> with_reducible rfl)) | grind [State.kept, State.recCommit_kept, State.foldl_kept])
    | grind [State.kept, State.recCommit_kept]

theorem execStop_kept (round : BitVec 8) (job : BitVec 16) (reason : BitVec 8) (s : State) :
    ∀ t, (execStop round job reason s) = .next t → t.kept = s.kept := by
  intro t h; unfold execStop at h; (repeat' split at h) <;> first
    | (cases h; done)
    | (cases h; first | with_reducible rfl | (apply State.kept_congr <;> with_reducible rfl) | (simp only [State.stopRound_kept, State.stuck_kept]; done) | (simp only [State.stopRound_kept, State.stuck_kept]; first | with_reducible rfl | (apply State.kept_congr <;> with_reducible rfl)) | grind [State.kept, State.stopRound_kept, State.stuck_kept, State.foldl_kept])
    | grind [State.kept, State.stopRound_kept, State.stuck_kept]

theorem execWrittenUpdate_kept (s : State) :
    ∀ t, (execWrittenUpdate s) = .next t → t.kept = s.kept := by
  intro t h; unfold execWrittenUpdate at h; (repeat' split at h) <;> first
    | (cases h; done)
    | (cases h; first | with_reducible rfl | (apply State.kept_congr <;> with_reducible rfl) | (simp only [State.startRefresh_kept]; done) | (simp only [State.startRefresh_kept]; first | with_reducible rfl | (apply State.kept_congr <;> with_reducible rfl)) | grind [State.kept, State.startRefresh_kept, State.foldl_kept])
    | grind [State.kept, State.startRefresh_kept]

theorem execRefresh_kept (src : BitVec 15) (slice : BitVec 4) (stage : BitVec 4) (epoch : BitVec 32) (offset : BitVec 32) (fmt : BitVec 8) (crcs : List (BitVec 32)) (data : List Byte) (poison : List Nat) (s : State) :
    ∀ t, (execRefresh src slice stage epoch offset fmt crcs data poison s) = .next t → t.kept = s.kept := by
  intro t h; unfold execRefresh at h; (repeat' split at h) <;> first
    | (cases h; done)
    | (cases h; first | with_reducible rfl | (apply State.kept_congr <;> with_reducible rfl) | (simp only [State.refresh_kept]; done) | (simp only [State.refresh_kept]; first | with_reducible rfl | (apply State.kept_congr <;> with_reducible rfl)) | grind [State.kept, State.refresh_kept, State.foldl_kept])
    | grind [State.kept, State.refresh_kept]

theorem execParityCommit_kept (epoch : BitVec 32) (fmt : BitVec 8) (s : State) :
    ∀ t, (execParityCommit epoch fmt s) = .next t → t.kept = s.kept := by
  intro t h; unfold execParityCommit at h; (repeat' split at h) <;> first
    | (cases h; done)
    | (cases h; first | with_reducible rfl | (apply State.kept_congr <;> with_reducible rfl) | (simp only [State.parityCommit_kept]; done) | (simp only [State.parityCommit_kept]; first | with_reducible rfl | (apply State.kept_congr <;> with_reducible rfl)) | grind [State.kept, State.parityCommit_kept, State.foldl_kept])
    | grind [State.kept, State.parityCommit_kept]

theorem execJobEpochReduced_kept (s : State) :
    ∀ t, (execJobEpochReduced s) = .next t → t.kept = s.kept := by
  intro t h; unfold execJobEpochReduced at h; (repeat' split at h) <;> first
    | (cases h; done)
    | (cases h; first | with_reducible rfl | (apply State.kept_congr <;> with_reducible rfl) | (simp only [State.jobReduced_kept]; done) | (simp only [State.jobReduced_kept]; first | with_reducible rfl | (apply State.kept_congr <;> with_reducible rfl)) | grind [State.kept, State.jobReduced_kept, State.foldl_kept])
    | grind [State.kept, State.jobReduced_kept]

theorem execRebuild_kept (src : BitVec 15) (slice : BitVec 4) (stage : BitVec 4) (offset : BitVec 32) (fmt : BitVec 8) (check : BitVec 32) (data : List Byte) (poison : List Nat) (s : State) :
    ∀ t, (execRebuild src slice stage offset fmt check data poison s) = .next t → t.kept = s.kept := by
  intro t h; unfold execRebuild at h; (repeat' split at h) <;> first
    | (cases h; done)
    | (cases h; first | with_reducible rfl | (apply State.kept_congr <;> with_reducible rfl) | (simp only [State.rebuild_kept]; done) | (simp only [State.rebuild_kept]; first | with_reducible rfl | (apply State.kept_congr <;> with_reducible rfl)) | grind [State.kept, State.rebuild_kept, State.foldl_kept])
    | grind [State.kept, State.rebuild_kept]

theorem execRelayAck_kept (rebuild : Bool) (slice : BitVec 4) (s : State) :
    ∀ t, (execRelayAck rebuild slice s) = .next t → t.kept = s.kept := by
  intro t h; unfold execRelayAck at h; (repeat' split at h) <;> first
    | (cases h; done)
    | (cases h; first | with_reducible rfl | (apply State.kept_congr <;> with_reducible rfl) | (simp only [State.relayAck_kept]; done) | (simp only [State.relayAck_kept]; first | with_reducible rfl | (apply State.kept_congr <;> with_reducible rfl)) | grind [State.kept, State.relayAck_kept, State.foldl_kept])
    | grind [State.kept, State.relayAck_kept]

theorem execRelayAbort_kept (rebuild : Bool) (slice : BitVec 4) (s : State) :
    ∀ t, (execRelayAbort rebuild slice s) = .next t → t.kept = s.kept := by
  intro t h; unfold execRelayAbort at h; (repeat' split at h) <;> first
    | (cases h; done)
    | (cases h; first | with_reducible rfl | (apply State.kept_congr <;> with_reducible rfl) | (simp only [State.relayAbort_kept]; done) | (simp only [State.relayAbort_kept]; first | with_reducible rfl | (apply State.kept_congr <;> with_reducible rfl)) | grind [State.kept, State.relayAbort_kept, State.foldl_kept])
    | grind [State.kept, State.relayAbort_kept]

theorem execWbEnd_kept (cell : CellId) (ctx : BitVec 2) (w : DWord) (s : State) :
    ∀ t, (execWbEnd cell ctx w s) = .next t → t.kept = s.kept := by
  unfold execWbEnd; exact wbInstr_kept _ _ _ _

theorem execWbNop_kept (cell : CellId) (ctx : BitVec 2) (w : DWord) (s : State) :
    ∀ t, (execWbNop cell ctx w s) = .next t → t.kept = s.kept := by
  unfold execWbNop; exact wbInstr_kept _ _ _ _

theorem execWbSetv_kept (cell : CellId) (ctx : BitVec 2) (w : DWord) (s : State) :
    ∀ t, (execWbSetv cell ctx w s) = .next t → t.kept = s.kept := by
  unfold execWbSetv; exact wbInstr_kept _ _ _ _

theorem execWbAddv_kept (cell : CellId) (ctx : BitVec 2) (w : DWord) (s : State) :
    ∀ t, (execWbAddv cell ctx w s) = .next t → t.kept = s.kept := by
  unfold execWbAddv; exact wbInstr_kept _ _ _ _

theorem execWbAddvv_kept (cell : CellId) (ctx : BitVec 2) (w : DWord) (s : State) :
    ∀ t, (execWbAddvv cell ctx w s) = .next t → t.kept = s.kept := by
  unfold execWbAddvv; exact wbInstr_kept _ _ _ _

theorem execWbGetd_kept (cell : CellId) (ctx : BitVec 2) (w : DWord) (s : State) :
    ∀ t, (execWbGetd cell ctx w s) = .next t → t.kept = s.kept := by
  unfold execWbGetd; exact wbInstr_kept _ _ _ _

theorem execWbShape_kept (cell : CellId) (ctx : BitVec 2) (w : DWord) (s : State) :
    ∀ t, (execWbShape cell ctx w s) = .next t → t.kept = s.kept := by
  unfold execWbShape; exact wbInstr_kept _ _ _ _

theorem execWbSetk_kept (cell : CellId) (ctx : BitVec 2) (w : DWord) (s : State) :
    ∀ t, (execWbSetk cell ctx w s) = .next t → t.kept = s.kept := by
  unfold execWbSetk; exact wbInstr_kept _ _ _ _

theorem execWbLoop_kept (cell : CellId) (ctx : BitVec 2) (w : DWord) (s : State) :
    ∀ t, (execWbLoop cell ctx w s) = .next t → t.kept = s.kept := by
  unfold execWbLoop; exact wbInstr_kept _ _ _ _

theorem execWbSignal_kept (cell : CellId) (ctx : BitVec 2) (w : DWord) (s : State) :
    ∀ t, (execWbSignal cell ctx w s) = .next t → t.kept = s.kept := by
  unfold execWbSignal; exact wbInstr_kept _ _ _ _

theorem execWbFence_kept (cell : CellId) (ctx : BitVec 2) (w : DWord) (s : State) :
    ∀ t, (execWbFence cell ctx w s) = .next t → t.kept = s.kept := by
  unfold execWbFence; exact wbInstr_kept _ _ _ _

theorem execWbSetring_kept (cell : CellId) (ctx : BitVec 2) (w : DWord) (s : State) :
    ∀ t, (execWbSetring cell ctx w s) = .next t → t.kept = s.kept := by
  unfold execWbSetring; exact wbInstr_kept _ _ _ _

theorem execWbSetc_kept (cell : CellId) (ctx : BitVec 2) (w : DWord) (s : State) :
    ∀ t, (execWbSetc cell ctx w s) = .next t → t.kept = s.kept := by
  unfold execWbSetc; exact wbInstr_kept _ _ _ _

theorem execWbWait_kept (cell : CellId) (ctx : BitVec 2) (w : DWord) (s : State) :
    ∀ t, (execWbWait cell ctx w s) = .next t → t.kept = s.kept := by
  unfold execWbWait; exact wbInstr_kept _ _ _ _

theorem execWbMove_kept (cell : CellId) (ctx : BitVec 2) (w : DWord) (s : State) :
    ∀ t, (execWbMove cell ctx w s) = .next t → t.kept = s.kept := by
  unfold execWbMove; exact wbInstr_kept _ _ _ _

theorem execWbWaitSatisfied_kept (cell : CellId) (ctx : BitVec 2) (s : State) :
    ∀ t, (execWbWaitSatisfied cell ctx s) = .next t → t.kept = s.kept := by
  unfold execWbWaitSatisfied; (repeat' split) <;> first
    | (intro t h; cases h; done)
    | (refine withLive_kept _ _ _ ?_; first | with_reducible rfl | (apply State.kept_congr <;> with_reducible rfl) | (simp only [withLive_kept, wbWaitDone_kept]; done) | (grind [State.kept, withLive_kept, wbWaitDone_kept]))
    | (intro t h; grind [State.kept, withLive_kept, wbWaitDone_kept])

theorem execWbSignalEffect_kept (cell : CellId) (ctx : BitVec 2) (s : State) :
    ∀ t, (execWbSignalEffect cell ctx s) = .next t → t.kept = s.kept := by
  unfold execWbSignalEffect; (repeat' split) <;> first
    | (intro t h; cases h; done)
    | (refine withLive_kept _ _ _ ?_; first | with_reducible rfl | (apply State.kept_congr <;> with_reducible rfl) | (simp only [withLive_kept, wbSignalEffect_kept]; done) | (grind [State.kept, withLive_kept, wbSignalEffect_kept]))
    | (intro t h; grind [State.kept, withLive_kept, wbSignalEffect_kept])

theorem execWbFenceRelease_kept (cell : CellId) (ctx : BitVec 2) (s : State) :
    ∀ t, (execWbFenceRelease cell ctx s) = .next t → t.kept = s.kept := by
  unfold execWbFenceRelease; (repeat' split) <;> first
    | (intro t h; cases h; done)
    | (refine withLive_kept _ _ _ ?_; first | with_reducible rfl | (apply State.kept_congr <;> with_reducible rfl) | (simp only [withLive_kept, wbFenceDone_kept]; done) | (grind [State.kept, withLive_kept, wbFenceDone_kept]))
    | (intro t h; grind [State.kept, withLive_kept, wbFenceDone_kept])

theorem execWbSegmentLost_kept (cell : CellId) (ctx : BitVec 2) (index : Nat) (cause : Bool) (s : State) :
    ∀ t, (execWbSegmentLost cell ctx index cause s) = .next t → t.kept = s.kept := by
  unfold execWbSegmentLost; (repeat' split) <;> first
    | (intro t h; cases h; done)
    | (refine withLive_kept _ _ _ ?_; first | with_reducible rfl | (apply State.kept_congr <;> with_reducible rfl) | (simp only [withLive_kept, wbLost_kept]; done) | (grind [State.kept, withLive_kept, wbLost_kept]))
    | (intro t h; grind [State.kept, withLive_kept, wbLost_kept])

/-- The queue is kept and neither rollback counter falls (R505). -/
structure Rises (s t : State) : Prop where
  q : t.pending = s.pending
  f : s.fw.floor.toNat ≤ t.fw.floor.toNat
  k : s.fw.minKey.toNat ≤ t.fw.minKey.toNat
theorem Rises.of_kept (s t : State) (h : t.kept = s.kept) : Rises s t := by
  unfold State.kept at h; injection h with h1 h2; injection h2 with h2 h3
  exact ⟨h1, by rw [h2], by rw [h3]⟩
theorem Rises.trans {s t u : State} (a : Rises s t) (b : Rises t u) : Rises s u := ⟨b.q.trans a.q, a.f.trans b.f, a.k.trans b.k⟩
theorem raiseFloor_rises (s : State) (b : Bundle) : Rises s (s.raiseFloor b) := by
  unfold State.raiseFloor; dsimp only
  split
  · have h1 := s.fw.floor.isLt; have h2 := b.svn.isLt; have h3 := s.fw.minKey.isLt; have h4 := b.keyIdx.isLt
    constructor
    · rw [State.raise_pending]
    · rw [State.raise_fw]; simp only [BitVec.toNat_ofNat]; split <;> omega
    · rw [State.raise_fw]; simp only [BitVec.toNat_ofNat]; split <;> omega
  · exact .of_kept _ _ rfl
theorem completeStart_rises (s : State) : Rises s s.completeStart := by
  unfold State.completeStart; split
  · exact .of_kept _ _ rfl
  · rename_i r _
    split
    · exact .of_kept _ _ rfl
    · dsimp only
      split
      · refine Rises.trans (Rises.trans ?_ (raiseFloor_rises _ _)) (.of_kept _ _ (State.openUp_kept _))
        refine .of_kept _ _ ?_
        rename_i bb _; rw [State.raise_kept, State.setPwr_kept]; exact State.install_kept _ bb
      · refine Rises.trans ?_ (.of_kept _ _ (State.openUp_kept _))
        refine .of_kept _ _ ?_
        rw [State.raise_kept, State.setPwr_kept]; rfl
theorem updateDone_rises (s : State) (a : Activation) : Rises s (s.updateDone a) := by
  unfold State.updateDone; split
  · exact .of_kept _ _ rfl
  · dsimp only
    refine Rises.trans (.of_kept _ _ ?_) (raiseFloor_rises _ _)
    rename_i bb _; rw [State.raise_kept]; exact State.install_kept _ bb
theorem handover_rises (s : State) (b : Bool) : Rises s (s.handover b) := by
  unfold State.handover; dsimp only
  (repeat' split) <;> first
    | exact .of_kept _ _ rfl
    | exact .of_kept _ _ (State.revert_kept _ _ _)
    | (refine .of_kept _ _ ?_; rw [State.tryActivate_kept]; rfl)
    | (refine .of_kept _ _ ?_; rw [State.deferredHolds_kept, State.lateDetach_kept]; rfl)
    | (refine Rises.trans (.of_kept _ _ ?_) (updateDone_rises _ _); rfl)
theorem execStartComplete_rises (l : List (BitVec 4)) (s : State) : ∀ t, execStartComplete l s = .next t → Rises s t := by
  intro t h; cases h; exact (completeStart_rises s).trans (.of_kept _ _ (State.nextStart_kept _ _ _))
theorem execComponentHandover_rises (b : Bool) (s : State) : ∀ t, execComponentHandover b s = .next t → Rises s t := by
  intro t h; cases h; split
  · exact handover_rises _ _
  · exact .of_kept _ _ rfl

end Sys2Proof.Machine
end

