-- ==== Sys2Proof/Laws/Mem.lean ====
section
/-! SUPPORT. Memories and sparse maps: a read after a write, and the canonical form every operation keeps. -/

namespace Sys2Proof.Machine

/-! ### One byte -/

theorem Mem.get_put_same (d : Byte) (m : Mem) (k : Nat) (v : Byte) : (m.put d k v).get d k = v := by
  induction m with
  | nil => by_cases hv : v = d <;> simp [Mem.put, Mem.get, hv]
  | cons e rest ih =>
    obtain ⟨a, b⟩ := e
    by_cases h1 : k < a ∧ v ≠ d
    · rw [Mem.put, if_pos h1, Mem.get, if_pos rfl]
    · by_cases h2 : k = a
      · by_cases hv : v = d
        · rw [Mem.put, if_neg h1, if_pos h2, if_pos hv, ih]
        · rw [Mem.put, if_neg h1, if_pos h2, if_neg hv, Mem.get, if_pos rfl]
      · rw [Mem.put, if_neg h1, if_neg h2, Mem.get, if_neg (Ne.symm h2), ih]

theorem Mem.get_put_other (d : Byte) (m : Mem) (k j : Nat) (v : Byte) (h : j ≠ k) :
    (m.put d k v).get d j = m.get d j := by
  induction m with
  | nil =>
    by_cases hv : v = d
    · rw [Mem.put, if_pos hv]
    · simp [Mem.put, hv, Mem.get, Ne.symm h]
  | cons e rest ih =>
    obtain ⟨a, b⟩ := e
    by_cases h1 : k < a ∧ v ≠ d
    · rw [Mem.put, if_pos h1, Mem.get, if_neg (Ne.symm h)]
    · by_cases h2 : k = a
      · by_cases hv : v = d
        · rw [Mem.put, if_neg h1, if_pos h2, if_pos hv, ih, Mem.get, if_neg (by omega)]
        · rw [Mem.put, if_neg h1, if_pos h2, if_neg hv, Mem.get, if_neg (Ne.symm h), Mem.get, if_neg (by omega)]
      · rw [Mem.put, if_neg h1, if_neg h2, Mem.get, Mem.get, ih]

/-! ### The canonical form -/

theorem Mem.wfFrom_mono (d : Byte) (lo lo' : Nat) (m : Mem) (h : Mem.wfFrom d lo m = true) (hle : lo' ≤ lo) :
    Mem.wfFrom d lo' m = true := by
  cases m with
  | nil => rfl
  | cons e rest =>
    obtain ⟨a, b⟩ := e
    simp only [Mem.wfFrom, Bool.and_eq_true, decide_eq_true_eq] at h ⊢
    exact ⟨⟨by omega, h.1.2⟩, h.2⟩

theorem Mem.put_wfFrom (d : Byte) (lo : Nat) (m : Mem) (k : Nat) (v : Byte) (h : Mem.wfFrom d lo m = true)
    (hk : lo ≤ k ∨ v = d) : Mem.wfFrom d lo (m.put d k v) = true := by
  induction m generalizing lo with
  | nil =>
    by_cases hv : v = d
    · rw [Mem.put, if_pos hv]; rfl
    · rw [Mem.put, if_neg hv]; simp [Mem.wfFrom, hv]; exact hk.resolve_right hv
  | cons e rest ih =>
    obtain ⟨a, b⟩ := e
    simp only [Mem.wfFrom, Bool.and_eq_true, decide_eq_true_eq] at h
    obtain ⟨⟨h1, h2⟩, h3⟩ := h
    by_cases hka : k < a ∧ v ≠ d
    · have := hk.resolve_right hka.2
      rw [Mem.put, if_pos hka]; simp [Mem.wfFrom, this, hka.2, h2, h3]; omega
    · by_cases hke : k = a
      · by_cases hv : v = d
        · rw [Mem.put, if_neg hka, if_pos hke, if_pos hv]
          exact Mem.wfFrom_mono d (a + 1) lo _ (ih (a + 1) h3 (Or.inr hv)) (by omega)
        · rw [Mem.put, if_neg hka, if_pos hke, if_neg hv]
          simp only [Mem.wfFrom, Bool.and_eq_true, decide_eq_true_eq]
          exact ⟨⟨by omega, hv⟩, by rw [hke]; exact h3⟩
      · rw [Mem.put, if_neg hka, if_neg hke]
        simp only [Mem.wfFrom, Bool.and_eq_true, decide_eq_true_eq]
        refine ⟨⟨h1, h2⟩, ih (a + 1) h3 ?_⟩
        by_cases hv : v = d
        · exact Or.inr hv
        · exact Or.inl (by have : ¬ k < a := fun x => hka ⟨x, hv⟩
                           omega)

/-- Writing one byte keeps the canonical form. -/
theorem Mem.put_wf (d : Byte) (m : Mem) (k : Nat) (v : Byte) (h : m.wf d = true) : (m.put d k v).wf d = true :=
  Mem.put_wfFrom d 0 m k v h (Or.inl (Nat.zero_le k))

/-- Writing a run of bytes keeps the canonical form. -/
theorem Mem.write_wf (d : Byte) (m : Mem) (a : Nat) (bs : List Byte) (h : m.wf d = true) : (m.write d a bs).wf d = true := by
  induction bs generalizing m a with
  | nil => exact h
  | cons b bs ih => exact ih (m.put d a b) (a + 1) (Mem.put_wf d m a b h)

/-- Writing a number keeps the canonical form. -/
theorem Mem.writeNat_wf (d : Byte) (m : Mem) (a n v : Nat) (h : m.wf d = true) : (m.writeNat d a n v).wf d = true :=
  Mem.write_wf d m a (leBytes n v) h

/-! ### Runs of bytes -/

theorem Mem.get_write_other (d : Byte) (m : Mem) (a : Nat) (bs : List Byte) (j : Nat) (h : j < a ∨ a + bs.length ≤ j) :
    (m.write d a bs).get d j = m.get d j := by
  induction bs generalizing m a with
  | nil => rfl
  | cons b bs ih =>
    have hl : (b :: bs).length = bs.length + 1 := rfl
    rw [Mem.write, ih (m.put d a b) (a + 1) (by omega), Mem.get_put_other d m a j b (by omega)]

theorem Mem.get_write_in (d : Byte) (m : Mem) (a : Nat) (bs : List Byte) (i : Nat) (hi : i < bs.length) :
    (m.write d a bs).get d (a + i) = bs[i] := by
  induction bs generalizing m a i with
  | nil => simp at hi
  | cons b bs ih =>
    cases i with
    | zero =>
      rw [Mem.write, Mem.get_write_other d _ (a + 1) bs (a + 0) (by omega)]
      exact Mem.get_put_same d m a b
    | succ i =>
      rw [Mem.write, show a + (i + 1) = a + 1 + i by omega]
      have hl : i < bs.length := by simpa using hi
      exact ih (m.put d a b) (a + 1) i hl

@[simp] theorem leBytes_length (n v : Nat) : (leBytes n v).length = n := by
  induction n generalizing v with
  | zero => rfl
  | succ n ih => simp [leBytes, ih]

theorem leBytes_get (n v i : Nat) (h : i < (leBytes n v).length) : (leBytes n v)[i] = BitVec.ofNat 8 (v / 256 ^ i) := by
  induction n generalizing v i with
  | zero => simp at h
  | succ n ih =>
    cases i with
    | zero => simp [leBytes]
    | succ i =>
      have hi : i < (leBytes n (v / 256)).length := by simpa [leBytes] using h
      have := ih (v / 256) i hi
      simp only [leBytes, List.getElem_cons_succ]
      rw [this, Nat.div_div_eq_div_mul, Nat.pow_succ']

/-- The byte an address holds after a number is written: one of the number's, or the one it held. -/
theorem Mem.get_writeNat (d : Byte) (m : Mem) (a n v k : Nat) :
    (m.writeNat d a n v).get d k =
      if a ≤ k ∧ k < a + n then BitVec.ofNat 8 (v / 256 ^ (k - a)) else m.get d k := by
  by_cases hk : a ≤ k ∧ k < a + n
  · rw [if_pos hk]
    have hi : k - a < (leBytes n v).length := by rw [leBytes_length]; omega
    have := Mem.get_write_in d m a (leBytes n v) (k - a) hi
    rw [show a + (k - a) = k by omega] at this
    rw [Mem.writeNat, this, leBytes_get]
  · rw [if_neg hk]
    exact Mem.get_write_other d m a (leBytes n v) k (by rw [leBytes_length]; omega)

/-! ### Sparse maps -/

theorem Sparse.at_put_same {α : Type} (d : α) (m : Sparse α) (k : Nat) (v : α) : (m.put k v).at d k = v := by
  induction m with
  | nil => simp [Sparse.put, Sparse.at]
  | cons e rest ih =>
    obtain ⟨a, w⟩ := e
    by_cases h1 : k < a
    · simp [Sparse.put, h1, Sparse.at]
    · by_cases h2 : k = a
      · simp [Sparse.put, h2, Sparse.at]
      · rw [Sparse.put, if_neg h1, if_neg h2, Sparse.at, if_neg (by omega), ih]

theorem Sparse.at_put_other {α : Type} (d : α) (m : Sparse α) (k j : Nat) (v : α) (h : j ≠ k) :
    (m.put k v).at d j = m.at d j := by
  induction m with
  | nil => simp [Sparse.put, Sparse.at, Ne.symm h]
  | cons e rest ih =>
    obtain ⟨a, w⟩ := e
    by_cases h1 : k < a
    · rw [Sparse.put, if_pos h1, Sparse.at, if_neg (Ne.symm h)]
    · by_cases h2 : k = a
      · rw [Sparse.put, if_neg h1, if_pos h2, Sparse.at, if_neg (Ne.symm h), Sparse.at, if_neg (by omega)]
      · rw [Sparse.put, if_neg h1, if_neg h2, Sparse.at, Sparse.at, ih]

/-! ### Register files -/

@[simp] theorem rget_rset_same {α : Type} {n : Nat} (v : Vector α (2 ^ n)) (i : BitVec n) (x : α) :
    rget (rset v i x) i = x := by
  simp [rget, rset]

theorem rget_rset_other {α : Type} {n : Nat} (v : Vector α (2 ^ n)) (i j : BitVec n) (x : α) (h : j ≠ i) :
    rget (rset v i x) j = rget v j := by
  have h' : i.toNat ≠ j.toNat := fun e => h (BitVec.eq_of_toNat_eq e.symm)
  simp only [rget, rset]
  rw [Vector.getElem_set_ne _ _ h']

end Sys2Proof.Machine
end

