-- ==== Sys2Proof/Laws/Parts.lean ====
section
/-!
SUPPORT. Reading and writing the parts of the machine: cells, signal boxes, ports and stacks of traces. A part read after
it was written is what was written, and a part written twice keeps the second value.
-/

namespace Sys2Proof.Machine

theorem Sparse.put_put {α : Type} (l : Sparse α) (k : Nat) (a b : α) : (l.put k a).put k b = l.put k b := by
  induction l with
  | nil => simp [Sparse.put]
  | cons e rest ih =>
    obtain ⟨j, w⟩ := e
    by_cases h1 : k < j
    · simp [Sparse.put, h1]
    · by_cases h2 : k = j
      · simp [Sparse.put, h2]
      · simp [Sparse.put, h1, h2, ih]

/-! ### Cells -/

@[simp] theorem State.cell_setCell (s : State) (id : CellId) (c : CellState) : (s.setCell id c).cell id = c := by
  simp only [State.cell, State.setCell]
  exact Sparse.at_put_same _ _ _ _

@[simp] theorem State.setCell_setCell (s : State) (id : CellId) (a b : CellState) :
    (s.setCell id a).setCell id b = s.setCell id b := by
  simp only [State.setCell, Sparse.put_put]

theorem State.cell_setCell_other (s : State) (id j : CellId) (c : CellState) (h : j ≠ id) :
    (s.setCell id c).cell j = s.cell j := by
  have h' : j.toNat ≠ id.toNat := fun e => h (BitVec.eq_of_toNat_eq e)
  simp only [State.cell, State.setCell]
  exact Sparse.at_put_other _ _ _ _ _ h'

/-! ### Signal boxes and traces -/

@[simp] theorem State.box_setBox (s : State) (k : Nat) (b : BoxState) : (s.setBox k b).box k = b := by
  simp only [State.box, State.setBox]
  exact Sparse.at_put_same _ _ _ _

@[simp] theorem State.setBox_setBox (s : State) (k : Nat) (a b : BoxState) : (s.setBox k a).setBox k b = s.setBox k b := by
  simp only [State.setBox, Sparse.put_put]

theorem State.box_setBox_other (s : State) (k j : Nat) (b : BoxState) (h : j ≠ k) : (s.setBox k b).box j = s.box j := by
  simp only [State.box, State.setBox]
  exact Sparse.at_put_other _ _ _ _ _ h

@[simp] theorem State.box_modTrace (s : State) (k : Nat) (f : TraceState → TraceState) :
    ((s.modTrace k f).box k).trace = f (s.box k).trace := by
  simp [State.modTrace]

@[simp] theorem State.modTrace_modTrace (s : State) (k : Nat) (f g : TraceState → TraceState) :
    (s.modTrace k f).modTrace k g = s.modTrace k fun t => g (f t) := by
  simp [State.modTrace]

/-- Changing a trace depends only on what the change makes of the trace there. -/
theorem State.modTrace_congr (s : State) (k : Nat) (f g : TraceState → TraceState) (h : f (s.box k).trace = g (s.box k).trace) :
    s.modTrace k f = s.modTrace k g := by
  simp only [State.modTrace, h]

end Sys2Proof.Machine
end

