-- ==== Sys2Proof/Laws/Core.lean ====
section
/-! SUPPORT. What the frame of a cell core instruction does, once for every instruction. -/

namespace Sys2Proof.Machine

@[simp] theorem State.touchStore_nil (s : State) (id : CellId) : s.touchStore id [] = s := by
  simp [State.touchStore]

@[simp] theorem State.touchDmem_nil (s : State) (id : CellId) : s.touchDmem id [] = s := by
  simp [State.touchDmem]

/-- Clear the poison marks of the registers an instruction writes. -/
def CellState.unmark (c : CellState) (ws : BitVec 32) (wp : BitVec 8) : CellState :=
  { c with core := { c.core with sMark := c.core.sMark &&& ~~~ws, pMark := c.core.pMark &&& ~~~wp } }

theorem CellState.unmark_zero (c : CellState) : c.unmark 0 0 = c := by
  have h1 : c.core.sMark &&& ~~~(0#32) = c.core.sMark := by rw [BitVec.not_zero, BitVec.and_allOnes]
  have h2 : c.core.pMark &&& ~~~(0#8) = c.core.pMark := by rw [BitVec.not_zero, BitVec.and_allOnes]
  simp only [CellState.unmark, show (0 : BitVec 32) = 0#32 from rfl, show (0 : BitVec 8) = 0#8 from rfl, h1, h2]

theorem CellState.flow_seq (c : CellState) (ns : Nat) (h : c.Fits) :
    ((c.setWait ⟨0, 0, 0⟩ none).stamp ns).flow .seq = (c.next ns, false) := by
  have h' : ¬ 0xFFFC < (endCheck c.core.pc.toNat (c.core.pc.toNat + 4) c.core.loops).2 := by
    simpa using h
  simp only [CellState.flow, CellState.setWait, CellState.stamp, CellState.next, CellState.goOn, CellState.setLoops, CellState.setPc]
  simp [h']

/-- The instruction a core waits in goes on as if it had not waited, and no other one executes before it (R109, R121). -/
theorem runCore_held (op : CoreOp) (id : CellId) (g : BitVec 4) (o : BitVec 22) (s : State) (w : Word)
    (hok : cellOk id = true) (hr : (s.cell id).st = .running) (he : (s.cell id).core.enq = none)
    (hh : (s.cell id).core.held = some w) :
    runCore op id g o s = if w = op.word g o then runCore op id g o (s.takeUp id) else .next s := by
  have h1 : (s.takeUp id).cell id = { s.cell id with core := { (s.cell id).core with held := none } } := by
    rw [State.takeUp, State.modCell, State.cell_setCell]
  unfold runCore withCell
  simp only [hok, if_true, hr, he, hh, h1, ne_eq, not_true, or_self, if_false, reduceCtorEq, Option.some.injEq]
  split <;> simp [*]

/-- What an instruction does whose operands are free and that reads no memory: its body runs on the cell. -/
theorem runCore_body (op : CoreOp) (id : CellId) (g : BitVec 4) (o : BitVec 22) (s : State)
    (hok : cellOk id = true) (hi : (s.cell id).Issues g) (hl : op.legal o = true)
    (hs : (s.cell id).FreeS (op.rs o) (op.ws o)) (hp : (s.cell id).FreeP (op.rp o) (op.wp o))
    (ht : op.touch o (s.cell id) = ([], [])) (c' : CellState) (f : Flow)
    (hb : op.body ⟨id, s.cellLt id, s.ns⟩ o (s.cell id) = .done c' f) :
    runCore op id g o s = .next (s.retire id (c'.unmark (op.ws o) (op.wp o)) f) := by
  obtain ⟨h1, h2, h0, h3, h3i, h4, h5, h6⟩ := hi
  obtain ⟨hs1, hs2⟩ := hs
  obtain ⟨hp1, hp2⟩ := hp
  unfold runCore withCell coreStep
  simp only [hok, if_true, h1, h2, h0, ne_eq, not_true, or_self, if_false, h3, h3i, Bool.false_or, Bool.false_eq_true, if_false, hl, Bool.not_true, h4, h5, h6,
    bne_self_eq_false, hs1, hs2, hp1, hp2, Bool.or_self, ht, State.touchStore_nil, State.touchDmem_nil, hb]
  rfl

theorem runCore_seq (op : CoreOp) (id : CellId) (g : BitVec 4) (o : BitVec 22) (s : State)
    (hok : cellOk id = true) (hi : (s.cell id).Issues g) (hl : op.legal o = true)
    (hs : (s.cell id).FreeS (op.rs o) (op.ws o)) (hp : (s.cell id).FreeP (op.rp o) (op.wp o))
    (ht : op.touch o (s.cell id) = ([], [])) (c' : CellState)
    (hb : op.body ⟨id, s.cellLt id, s.ns⟩ o (s.cell id) = .done c' .seq) (hf : c'.Fits) :
    runCore op id g o s = .next (s.setCell id ((c'.unmark (op.ws o) (op.wp o)).next s.ns)) := by
  rw [runCore_body op id g o s hok hi hl hs hp ht c' .seq hb, State.retire,
    CellState.flow_seq _ _ (show (c'.unmark (op.ws o) (op.wp o)).Fits from hf)]

theorem and_not_zero8 (x : BitVec 8) : x &&& ~~~(0:BitVec 8) = x := by
  show x &&& ~~~(0#8) = x
  rw [BitVec.not_zero, BitVec.and_allOnes]

theorem and_not_zero32 (x : BitVec 32) : x &&& ~~~(0:BitVec 32) = x := by
  show x &&& ~~~(0#32) = x
  rw [BitVec.not_zero, BitVec.and_allOnes]

/-- An instruction that writes one s register and falls through (R82, R105). -/
theorem runCore_writeS (op : CoreOp) (id : CellId) (g : BitVec 4) (o : BitVec 22) (s : State) (d : BitVec 5) (x : Word)
    (hok : cellOk id = true) (hi : (s.cell id).Issues g) (hf : (s.cell id).Fits) (hl : op.legal o = true)
    (hw : op.ws o = bit5 d) (hwp : op.wp o = 0)
    (hs : (s.cell id).FreeS (op.rs o) (op.ws o)) (hp : (s.cell id).FreeP (op.rp o) (op.wp o))
    (ht : op.touch o (s.cell id) = ([], []))
    (hb : op.body ⟨id, s.cellLt id, s.ns⟩ o (s.cell id) = .done ((s.cell id).setS d x) .seq) :
    runCore op id g o s = .next (s.setCell id (((s.cell id).writeS d x).next s.ns)) := by
  rw [runCore_seq op id g o s hok hi hl hs hp ht _ hb hf]
  congr 3
  simp only [CellState.unmark, hw, hwp, CellState.writeS, CellState.setS]
  rw [and_not_zero8]

theorem Mem.read_eq_map (m : Mem) (a n : Nat) : m.read 0 a n = (List.range n).map fun i => m.get 0 (a + i) := by
  induction n generalizing a with
  | zero => rfl
  | succ n ih =>
    rw [Mem.read, ih, List.range_succ_eq_map, List.map_cons, List.map_map]
    simp [Function.comp_def, Nat.add_assoc, Nat.add_comm 1]

theorem mem_lanesOf (a n l : Nat) (hn : 0 < n) : l ∈ lanesOf a n ↔ a / 8 ≤ l ∧ l ≤ (a + n - 1) / 8 := by
  simp only [lanesOf, List.mem_map, List.mem_range]
  constructor
  · rintro ⟨i, hi, rfl⟩; omega
  · intro h; exact ⟨l - a / 8, by omega, by omega⟩

theorem State.touchStore_clean (s : State) (id : CellId) (l : List Nat)
   (h : ∀ x ∈ l, x ∉ (s.cell id).store.ue ∧ x ∉ (s.cell id).store.ce) : s.touchStore id l = s := by
  have h1 : l.filter (fun l => (s.cell id).store.ue.contains l) = [] := by
    rw [List.filter_eq_nil_iff]; intro a ha; simp [(h a ha).1]
  have h2 : l.filter (fun l => (s.cell id).store.ce.contains l) = [] := by
    rw [List.filter_eq_nil_iff]; intro a ha; simp [(h a ha).2]
  simp only [State.touchStore, h1, h2]; simp

theorem State.touchDmem_clean (s : State) (id : CellId) (l : List Nat)
   (h : ∀ x ∈ l, x ∉ (s.cell id).dmem.ce) : s.touchDmem id l = s := by
  have h2 : l.filter (fun l => (s.cell id).dmem.ce.contains l) = [] := by
    rw [List.filter_eq_nil_iff]; intro a ha; simp [h a ha]
  simp only [State.touchDmem, h2]; simp

/-- As `runCore_body` for one that falls through, where what it reads of the memories is without errors. -/
theorem runCore_touch (op : CoreOp) (id : CellId) (g : BitVec 4) (o : BitVec 22) (s : State)
    (hok : cellOk id = true) (hi : (s.cell id).Issues g) (hl : op.legal o = true)
    (hs : (s.cell id).FreeS (op.rs o) (op.ws o)) (hp : (s.cell id).FreeP (op.rp o) (op.wp o))
    (ht : (s.touchStore id (op.touch o (s.cell id)).1).touchDmem id (op.touch o (s.cell id)).2 = s) (c' : CellState) 
    (hb : op.body ⟨id, s.cellLt id, s.ns⟩ o (s.cell id) = .done c' .seq) (hf : c'.Fits) :
    runCore op id g o s = .next (s.setCell id ((c'.unmark (op.ws o) (op.wp o)).next s.ns)) := by
  obtain ⟨h1, h2, h0, h3, h3i, h4, h5, h6⟩ := hi
  obtain ⟨hs1, hs2⟩ := hs
  obtain ⟨hp1, hp2⟩ := hp
  unfold runCore withCell coreStep
  simp only [hok, if_true, h1, h2, h0, ne_eq, not_true, or_self, if_false, h3, h3i, Bool.false_or, Bool.false_eq_true, if_false, hl, Bool.not_true, h4, h5, h6,
    bne_self_eq_false, hs1, hs2, hp1, hp2, Bool.or_self, ht, hb]
  show Host.Outcome.next (State.retire _ _ (c'.unmark (op.ws o) (op.wp o)) _) = _
  rw [State.retire,
    CellState.flow_seq _ _ (show (c'.unmark (op.ws o) (op.wp o)).Fits from hf)]

/-- A load that raises nothing reads the number at its address and leaves the machine as it is. -/
theorem coreLoad_clean (s : State) (id : CellId) (a : BitVec 40) (n : Nat) (hn : 0 < n) (h4 : n = 1 ∨ n = 2 ∨ n = 4 ∨ n = 8 ∨ n = 16) (h : (s.cell id).MayLoad a n) :
   coreLoad (s.cell id) a n = .inl ((s.cell id).numAt a.toNat n) ∧
   (s.touchStore id (loadTouch a n).1).touchDmem id (loadTouch a n).2 = s := by
  rcases h with ⟨h1, h2, h3⟩ | ⟨h1, h2, h2', h3⟩
  · have e : accessTarget a n = .dmem a.toNat := by simp [accessTarget, addrTarget, h1, h2]
    constructor
    · simp only [coreLoad, e]
      have : (wordsOf a.toNat n).any (fun w => (s.cell id).dmem.ue.contains w) = false := by
        rw [List.any_eq_false]; intro w hw; simp [(h3 w hw).1]
      rw [this]
      simp only [Mem.readNat, Mem.read_eq_map, CellState.numAt, Bool.false_eq_true, if_false]
      congr 2
      apply List.map_congr_left
      intro i hi
      have := List.mem_range.1 hi
      have : a.toNat + i < 0x10000 := by rcases h4 with rfl|rfl|rfl|rfl|rfl <;> omega
      simp [CellState.byteAt, this]
    · simp only [loadTouch, e]
      rw [State.touchStore_nil]
      exact State.touchDmem_clean s id _ fun w hw => (h3 w hw).2
  · have e : accessTarget a n = .store (a.toNat - 0x1000000) := by
      have : ¬ a.toNat < 0x10000 := by omega
      simp [accessTarget, addrTarget, h1, h2, h2', this]
    constructor
    · simp only [coreLoad, e]
      have : (lanesOf (a.toNat - 0x1000000) n).any (fun w => (s.cell id).store.poison.contains w || (s.cell id).store.ue.contains w) = false := by
        rw [List.any_eq_false]; intro w hw; simp [(h3 w hw).1, (h3 w hw).2.1]
      rw [this]
      simp only [Mem.readNat, Mem.read_eq_map, CellState.numAt, Bool.false_eq_true, if_false]
      congr 2
      apply List.map_congr_left
      intro i hi
      have : ¬ a.toNat + i < 0x10000 := by omega
      have e2 : a.toNat - 0x1000000 + i = a.toNat + i - 0x1000000 := by omega
      simp [CellState.byteAt, this, e2]
    · simp only [loadTouch, e]
      rw [State.touchDmem_nil]
      exact State.touchStore_clean s id _ fun w hw => (h3 w hw).2

/-- A scalar load (R96, R98). -/
theorem runCore_load (op : BitVec 6) (n : Nat) (ext : Nat → Word) (id : CellId) (g : BitVec 4) (o : BitVec 22) (s : State)
    (h4 : n = 1 ∨ n = 2 ∨ n = 4 ∨ n = 8 ∨ n = 16)
    (hok : cellOk id = true) (hi : (s.cell id).Issues g) (hf : (s.cell id).Fits) (hm : fMode o ≠ 3)
    (hs : (s.cell id).FreeS 0 (bit5 (fD o))) (h : (s.cell id).MayLoad (memAddr (s.cell id) o n).1 n) :
    runCore (loadOp op n ext) id g o s = .next (s.setCell id ((((s.cell id).writeA (fBase o) (memAddr (s.cell id) o n).2).writeS (fD o) (ext ((s.cell id).numAt (memAddr (s.cell id) o n).1.toNat n))).next s.ns)) := by
  have hn : 0 < n := by omega
  have hl := coreLoad_clean s id _ n hn h4 h
  rw [runCore_touch (loadOp op n ext) id g o s hok hi (by simpa [loadOp, memLegal] using hm) hs ⟨by simp [loadOp], by simp [loadOp]⟩ hl.2
     ((((s.cell id).setAddr (fBase o) (memAddr (s.cell id) o n).2).setS (fD o) (ext ((s.cell id).numAt (memAddr (s.cell id) o n).1.toNat n)))) (by simp only [loadOp, hl.1]) hf]
  simp only [CellState.unmark, loadOp, CellState.writeS, CellState.setS, CellState.writeA, CellState.setAddr, CellState.setA, CellState.aReg]
  rw [and_not_zero8]

/-- An instruction that writes one predicate and falls through. -/
theorem runCore_writeP (op : CoreOp) (id : CellId) (g : BitVec 4) (o : BitVec 22) (s : State) (d : BitVec 3) (x : Bool)
    (hok : cellOk id = true) (hi : (s.cell id).Issues g) (hf : (s.cell id).Fits) (hl : op.legal o = true)
    (hw : op.ws o = 0) (hwp : op.wp o = bit3 d)
    (hs : (s.cell id).FreeS (op.rs o) (op.ws o)) (hp : (s.cell id).FreeP (op.rp o) (op.wp o))
    (ht : op.touch o (s.cell id) = ([], []))
    (hb : op.body ⟨id, s.cellLt id, s.ns⟩ o (s.cell id) = .done ((s.cell id).setP d x) .seq) :
    runCore op id g o s = .next (s.setCell id (((s.cell id).writeP d x).next s.ns)) := by
  rw [runCore_seq op id g o s hok hi hl hs hp ht _ hb (by unfold CellState.setP; split; exact hf; exact hf)]
  congr 3
  by_cases h : d = 0
  · simp only [CellState.unmark, hw, hwp, CellState.writeP, CellState.setP, if_pos h]
    rw [and_not_zero32]
  · simp only [CellState.unmark, hw, hwp, CellState.writeP, CellState.setP, if_neg h]
    rw [and_not_zero32]

/-- An instruction that writes neither an s register nor a predicate and falls through. -/
theorem runCore_plain (op : CoreOp) (id : CellId) (g : BitVec 4) (o : BitVec 22) (s : State)
    (hok : cellOk id = true) (hi : (s.cell id).Issues g) (hl : op.legal o = true)
    (hw : op.ws o = 0) (hwp : op.wp o = 0)
    (hs : (s.cell id).FreeS (op.rs o) (op.ws o)) (hp : (s.cell id).FreeP (op.rp o) (op.wp o))
    (ht : op.touch o (s.cell id) = ([], [])) (c' : CellState)
    (hb : op.body ⟨id, s.cellLt id, s.ns⟩ o (s.cell id) = .done c' .seq) (hf : c'.Fits) :
    runCore op id g o s = .next (s.setCell id (c'.next s.ns)) := by
  rw [runCore_seq op id g o s hok hi hl hs hp ht _ hb hf, hw, hwp, CellState.unmark_zero]

end Sys2Proof.Machine
end

