-- ==== Sys2Proof/Laws/Frames.lean ====
section
/-!
SUPPORT. What an instruction of the cell core leaves unchanged: the lemmas that take a body, a load or a store to the
frame of a run of `runCore`.
-/

namespace Sys2Proof.Machine.CoreFrame

/-- The cell does not run. -/
def NR (id : CellId) (s : State) : Prop := (s.cell id).st ≠ .running

theorem cells_eq {id : CellId} {s t : State} (h : t.cells = s.cells) (hb : t.dbg.braked = s.dbg.braked) (hs : NR id s) : NR id t := by
  unfold NR State.cell at *; rw [h, hb]; exact hs
theorem raise_nr {id : CellId} (s : State) (a b c) (h : NR id s) : NR id (s.raise a b c) := by
  obtain ⟨_, _, _, _, e⟩ := s.raise_frame a b c; rw [e]; exact cells_eq (s := s) rfl rfl h
theorem set_nr {id j : CellId} (s : State) (c : CellState) (h : NR id s) (hc : c.st ≠ .running ∨ c.st = (s.cell j).st) : NR id (s.setCell j c) := by
  unfold NR
  by_cases e : id = j
  · subst e; rw [State.cell_setCell]
    rcases hc with h1 | h1
    · exact h1
    · rw [h1]; exact h
  · rw [State.cell_setCell_other _ _ _ _ e]; exact h
theorem suspect_nr {id j : CellId} (s : State) (k) (h : NR id s) : NR id (s.suspect j k) := by
  unfold State.suspect
  apply raise_nr
  refine cells_eq (s := s.setCell j _) rfl rfl (set_nr s _ h (.inr rfl))
theorem foldl_nr {α : Type} {id : CellId} (f : State → α → State) (l : List α) (s : State) (hf : ∀ s a, NR id s → NR id (f s a)) (h : NR id s) : NR id (l.foldl f s) := by
  induction l generalizing s with
  | nil => exact h
  | cons a l ih => exact ih _ (hf _ _ h)
theorem touchStore_nr {id j : CellId} (s : State) (l) (h : NR id s) : NR id (s.touchStore j l) := by
  unfold State.touchStore
  dsimp only
  split
  · exact h
  · apply foldl_nr
    · intro s a hs; unfold State.storeUe; exact suspect_nr _ _ (raise_nr _ _ _ _ hs)
    · exact set_nr s _ h (.inr rfl)
theorem dropEnq_nr {id j : CellId} (s : State) (h : NR id s) : NR id (s.dropEnq j) := by
  unfold State.dropEnq
  split
  · exact h
  · exact cells_eq rfl rfl h
theorem rawFault_nr {id j : CellId} (s : State) (k) (h : NR id s) : NR id (s.rawFault j k) := by
  unfold State.rawFault
  dsimp only
  split
  · exact set_nr _ _ (dropEnq_nr _ h) (.inl (by simp))
  · exact set_nr _ _ (dropEnq_nr _ h) (.inl (by simp))
  · exact h
theorem reply_nr {id : CellId} (s : State) (a b c d) (h : NR id s) : NR id (s.reply a b c d) := cells_eq (s := s) rfl rfl h
theorem sendData_nr {id : CellId} (s : State) (o d) (h : NR id s) : NR id (s.sendData o d) := by
  unfold State.sendData
  dsimp only
  split
  · exact h
  · apply reply_nr
    have e1 : ∀ b, (s.seenBytes b).2.cells = s.cells ∧ (s.seenBytes b).2.dbg = s.dbg := by
      intro b; unfold State.seenBytes; split <;> exact ⟨rfl, rfl⟩
    split
    · exact cells_eq (s := s) (e1 _).1 (congrArg _ (e1 _).2) h
    · exact cells_eq (s := s) (e1 _).1 (congrArg _ (e1 _).2) h
theorem colPut_nr {id : CellId} (s : State) (o) (h : NR id s) : NR id (s.colPut o) := by
  unfold State.colPut
  dsimp only
  apply foldl_nr
  · intro s d hs; exact sendData_nr _ _ _ hs
  · exact cells_eq (s := s) rfl rfl h
theorem contribTouch_nr {id : CellId} (s : State) (c) (h : NR id s) : NR id (s.contribTouch c) := by
  unfold State.contribTouch
  split
  · exact touchStore_nr _ _ h
  · exact touchStore_nr _ _ h
  · exact h
theorem sendAborts_nr {id : CellId} (s : State) (a b c d) (h : NR id s) : NR id (s.sendAborts a b c d) := by
  unfold State.sendAborts
  apply foldl_nr _ _ _ _ h
  intro s r hs
  split
  · exact hs
  · exact reply_nr _ _ _ _ _ hs
theorem rawCmdFault_nr {id j : CellId} (s : State) (a b c d e) (h : NR id s) : NR id (s.rawCmdFault j a b c d e) := by
  unfold State.rawCmdFault
  dsimp only
  apply rawFault_nr; apply raise_nr
  apply set_nr _ _ h
  split <;> exact .inr rfl
theorem endPart_nr {id : CellId} (s : State) (a b) (h : NR id s) : NR id (s.endPart a b) := by
  unfold State.endPart
  split
  · split
    · exact rawCmdFault_nr _ _ _ _ _ _ h
    · exact rawCmdFault_nr _ _ _ _ _ _ h
    · exact h
  · exact h
theorem endOp_nr {id : CellId} (s : State) (a b c) (h : NR id s) : NR id (s.endOp a b c) := by
  unfold State.endOp
  dsimp only
  apply foldl_nr
  · intro s c hs; exact endPart_nr _ _ _ hs
  · apply raise_nr; apply sendAborts_nr; exact cells_eq (s := s) rfl rfl h
theorem endWaiting_nr {id : CellId} (s : State) (a b c d e) (h : NR id s) : NR id (s.endWaiting a b c d e) := by
  unfold State.endWaiting
  dsimp only
  apply foldl_nr
  · intro s c hs; exact endPart_nr _ _ _ hs
  · apply raise_nr; apply sendAborts_nr; exact cells_eq (s := s) rfl rfl h
theorem freeBytes_nr {id : CellId} (s : State) (n) (h : NR id s) : NR id (s.freeBytes n).2 := cells_eq (s := s) rfl rfl h
theorem takeData_nr {id : CellId} (s : State) (o d) (h : NR id s) : NR id (s.takeData o d) :=
  colPut_nr _ _ (reply_nr _ _ _ _ _ h)
theorem enterEarly_nr {id : CellId} (s : State) (d) (h : NR id s) : NR id (s.enterEarly d) := by
  unfold State.enterEarly
  split
  · exact h
  · split
    · exact takeData_nr _ _ _ h
    · exact endOp_nr _ _ _ _ (raise_nr _ _ _ _ h)
theorem takeEarly_nr {id : CellId} (s : State) (h : NR id s) : NR id s.takeEarly := by
  unfold State.takeEarly
  exact foldl_nr _ _ _ (fun s d hs => enterEarly_nr s d hs) (cells_eq (s := s) rfl rfl h)
theorem admit1_nr {id : CellId} (s t : State) (e : s.admit1 = some t) (h : NR id s) : NR id t := by
  unfold State.admit1 at e
  dsimp only at e
  split at e
  · cases e
  · rename_i w _
    have h0 : NR id (if s.contribRead w.1 = true then State.contribTouch { s with col := { s.col with waiting := s.col.waiting.erase w } } w.1
        else { s with col := { s.col with waiting := s.col.waiting.erase w } }) := by
      split
      · exact contribTouch_nr _ _ (cells_eq (s := s) rfl rfl h)
      · exact cells_eq (s := s) rfl rfl h
    generalize (if s.contribRead w.1 = true then State.contribTouch { s with col := { s.col with waiting := s.col.waiting.erase w } } w.1
        else { s with col := { s.col with waiting := s.col.waiting.erase w } }) = u at e h0
    have h1 : NR id (if w.1.wild = true then u.freeBytes (u.contribBytes w.1).length else (u.contribBytes w.1, u)).2 := by
      split
      · exact freeBytes_nr _ _ h0
      · exact h0
    generalize (if w.1.wild = true then u.freeBytes (u.contribBytes w.1).length else (u.contribBytes w.1, u)) = r at e h1
    split at e
    · cases e; exact colPut_nr _ _ h1
    · cases e; exact takeEarly_nr _ (colPut_nr _ _ (cells_eq rfl rfl h1))
theorem settle1_nr {id : CellId} (s t : State) (e : s.settle1 = some t) (h : NR id s) : NR id t := by
  unfold State.settle1 at e
  split at e
  · cases e; exact endOp_nr _ _ _ _ h
  · split at e
    · cases e; exact endWaiting_nr _ _ _ _ _ _ h
    · split at e
      · rename_i c _
        have h1 : NR id ({ s with col := { (s.col.number c).1 with coming := (s.col.number c).1.coming.erase c } } : State) := cells_eq (s := s) rfl rfl h
        dsimp only at e
        cases e
        split
        · exact endOp_nr _ _ _ _ h1
        · exact endWaiting_nr _ _ _ _ _ _ h1
      · cases e
theorem iter_nr {id : CellId} (f : State → Option State) (n) (s : State) (hf : ∀ s t, f s = some t → NR id s → NR id t) (h : NR id s) : NR id (iterWhile f n s) := by
  induction n generalizing s with
  | zero => exact h
  | succ n ih =>
    unfold iterWhile
    split
    · exact h
    · rename_i e; exact ih _ (hf _ _ e h)
theorem colSettle_nr {id : CellId} (s : State) (h : NR id s) : NR id s.colSettle := by
  unfold State.colSettle
  split
  · exact h
  · unfold State.admitAll
    refine iter_nr _ _ _ (fun s t e hs => ?_) (iter_nr _ _ _ settle1_nr h)
    split at e
    · rename_i e'; cases e; exact admit1_nr _ _ e' hs
    · split at e
      · cases e; exact cells_eq (s := s) rfl rfl hs
      · cases e
theorem cellFault_nr (id : CellId) (s : State) (k) : NR id (s.cellFault id k) := by
  unfold State.cellFault
  apply colSettle_nr
  unfold State.rawFault
  dsimp only
  split
  · unfold NR; rw [State.cell_setCell]; simp
  · unfold NR; rw [State.cell_setCell]; simp
  · rename_i h1 h2; exact h1
theorem mod_exc_nr (id : CellId) (s : State) (k) (h : NR id s) : NR id (s.modCell id fun c => if c.st = .faulted then { c with exc := k } else c) := by
  unfold State.modCell
  generalize hc : s.cell id = c
  refine set_nr _ _ h (.inl ?_)
  unfold NR at h
  rw [hc] at h
  dsimp only
  split <;> exact h
theorem coreException_nr (id : CellId) (s : State) (k) : NR id (s.coreException id k) := by
  unfold State.coreException
  dsimp only
  exact mod_exc_nr _ _ _ (cellFault_nr _ _ _)

/-- What a flow leaves. -/
def Rel (id : CellId) (s t : State) (Q : CellState → Prop) : Prop := NR id t ∨ ∃ c', t = s.setCell id c' ∧ Q c'

theorem keeps_refl (c : CellState) (d) : c.KeepsBut c d := ⟨by simp, by simp, by simp, by simp, by simp, by simp, by simp, rfl⟩
theorem keeps_trans {c c1 c2 : CellState} {d} (h : c.KeepsBut c1 d) (h' : c1.KeepsBut c2 d) : c.KeepsBut c2 d := by
  obtain ⟨a1, a2, a3, a4, a5, a6, a7, a8⟩ := h
  obtain ⟨b1, b2, b3, b4, b5, b6, b7, b8⟩ := h'
  refine ⟨fun r h => ⟨(b1 r h).1.trans (a1 r h).1, (b1 r h).2.trans (a1 r h).2⟩, fun r h => (b2 r h).trans (a2 r h), fun r h => (b3 r h).trans (a3 r h),
    fun r h => ⟨(b4 r h).1.trans (a4 r h).1, (b4 r h).2.trans (a4 r h).2⟩, fun r h => (b5 r h).trans (a5 r h), fun r h => (b6 r h).trans (a6 r h), fun r h h' => (b7 r h h').trans (a7 r h h'), ?_⟩
  rw [b8, a8]

/-- A change of the core's PC, loops and record of a wait and of the cell's counts only. -/
theorem keeps_core {c c' : CellState} {d} (h : c' = { c with core := { c.core with pc := c'.core.pc, loops := c'.core.loops, wait := c'.core.wait, held := c'.core.held }, ctr := { c.ctr with moved := c'.ctr.moved, ceStore := c'.ctr.ceStore, ceDmem := c'.ctr.ceDmem } }) : c.KeepsBut c' d := by
  rw [h]
  exact ⟨by intros; exact ⟨rfl, rfl⟩, by intros; rfl, by intros; rfl, by intros; exact ⟨rfl, rfl⟩, by intros; rfl, by intros; rfl, by intros; rfl, rfl⟩

/-- Plain: memory kept and loops kept or counted. -/
def Plain (c c' : CellState) : Prop := c'.dmem = c.dmem ∧ c'.store = c.store ∧ (c'.core.loops = c.core.loops ∨ c'.core.loops = (endCheck c.core.pc.toNat 0 c.core.loops).1)

theorem endCheck_fst (pc a b : Nat) (l) : (endCheck pc a l).1 = (endCheck pc b l).1 := by
  induction l with
  | nil => rfl
  | cons e l ih => unfold endCheck; split; split; exact ih; rfl; rfl

theorem retire_rel (id : CellId) (s : State) (c : CellState) (f : Flow) (d) : Rel id s (s.retire id c f) fun c' => c.KeepsBut c' d ∧ (f = .seq → Plain c c') := by
  unfold State.retire
  split
  · rename_i c' e
    refine .inr ⟨c', rfl, ?_⟩
    unfold CellState.flow at e
    cases f with
    | seq =>
      dsimp only at e
      split at e
      · cases e
      · cases e
        refine ⟨keeps_core rfl, fun _ => ⟨rfl, rfl, .inr ?_⟩⟩
        show (endCheck c.core.pc.toNat (c.core.pc.toNat + 4) c.core.loops).1 = _
        exact endCheck_fst _ _ _ _
    | skip a =>
      dsimp only at e
      split at e
      · cases e
      · split at e
        · cases e
        · cases e
          exact ⟨keeps_core rfl, fun h => by cases h⟩
    | jump a p =>
      dsimp only at e
      cases p <;> cases e
      · exact ⟨keeps_core rfl, fun h => by cases h⟩
      · exact ⟨keeps_core rfl, fun h => by cases h⟩
    | stay => cases e; exact ⟨keeps_core rfl, fun h => by cases h⟩
  · exact .inl (coreException_nr _ _ _)

/-- What a body answers from a cell. -/
def Good (c : CellState) (d : CoreDest) (plain : Bool) : CoreResult → Prop
  | .done c' f => c.KeepsBut c' d ∧ (plain = true → f = .seq ∧ c'.dmem = c.dmem ∧ c'.store = c.store ∧ c'.core.loops = c.core.loops ∧ c'.core.pc = c.core.pc)
  | .hold c' _ _ => c.KeepsBut c' d ∧ (plain = true → c'.dmem = c.dmem ∧ c'.store = c.store ∧ c'.core.loops = c.core.loops)
  | _ => True

/-- An instruction writes only what `d` names of its cell, by the masks it claims and by its body. -/
structure Ok (op : CoreOp) (o : BitVec 22) (id : CellId) (d : CoreDest) (plain : Bool) (s : State) : Prop where
  ws : ∀ r, r ∉ d.s → (op.ws o).getLsbD r.toNat = false
  wp : ∀ r, r ∉ d.p → (op.wp o).getLsbD r.toNat = false
  off : plain = true → ∀ c, op.off o c = .seq
  go : ∀ (s1 : State), s1 = (s.touchStore id (op.touch o (s.cell id)).1).touchDmem id (op.touch o (s.cell id)).2 →
    (∃ e, op.body ⟨id, s.cellLt id, s.ns⟩ o (s1.cell id) = .exc e) ∨
    ((s1 = s ∨ ∃ c1, s1 = s.setCell id c1 ∧ (s.cell id).KeepsBut c1 d ∧ c1.core = (s.cell id).core ∧ c1.dmem = (s.cell id).dmem ∧ c1.store = (s.cell id).store) ∧
      Good (s1.cell id) d plain (op.body ⟨id, s.cellLt id, s.ns⟩ o (s1.cell id)))

/-- Where a run ends: the cell no longer runs, or only what `d` names of it has changed. -/
def End (id : CellId) (s t : State) (d : CoreDest) (plain : Bool) : Prop :=
  (t.cell id).st = .running → (∀ j, j ≠ id → t.cell j = s.cell j) ∧ t = { s with cells := t.cells } ∧
    (s.cell id).KeepsBut (t.cell id) d ∧ (plain = true → Plain (s.cell id) (t.cell id))

theorem end_self (id : CellId) (s : State) (d p) : End id s s d p := fun _ => ⟨fun _ _ => rfl, rfl, keeps_refl _ _, fun _ => ⟨rfl, rfl, .inl rfl⟩⟩
theorem end_nr {id : CellId} {s t : State} {d p} (h : NR id t) : End id s t d p := fun h' => absurd h' h
theorem end_set {id : CellId} {s : State} {c'} {d p} (h : (s.cell id).KeepsBut c' d) (hp : p = true → Plain (s.cell id) c') : End id s (s.setCell id c') d p := by
  intro _
  rw [State.cell_setCell]
  exact ⟨fun j hj => State.cell_setCell_other _ _ _ _ hj, rfl, h, hp⟩
theorem end_rel {id : CellId} {s s1 t : State} {c d p} (h1 : s1 = s ∨ ∃ c1, s1 = s.setCell id c1)
    (h : Rel id s1 t fun c' => c.KeepsBut c' d ∧ (p = true → Plain c c')) (hk : (s.cell id).KeepsBut c d) (hp : p = true → c.dmem = (s.cell id).dmem ∧ c.store = (s.cell id).store ∧ c.core.loops = (s.cell id).core.loops ∧ c.core.pc = (s.cell id).core.pc) : End id s t d p := by
  rcases h with h | ⟨c', rfl, hc, hc'⟩
  · exact end_nr h
  · have e : s1.setCell id c' = s.setCell id c' := by
      rcases h1 with rfl | ⟨c1, rfl⟩
      · rfl
      · rw [State.setCell_setCell]
    rw [e]
    refine end_set (keeps_trans hk hc) fun h => ?_
    obtain ⟨p1, p2, p3, p4⟩ := hp h
    obtain ⟨q1, q2, q3⟩ := hc' h
    refine ⟨q1.trans p1, q2.trans p2, ?_⟩
    rw [p3, p4] at q3; exact q3

theorem unmark_keeps {op : CoreOp} {o id d p s} (h : Ok op o id d p s) (c : CellState) : c.KeepsBut { c with core := { c.core with sMark := c.core.sMark &&& ~~~(op.ws o), pMark := c.core.pMark &&& ~~~(op.wp o) } } d := by
  refine ⟨fun r hr => ⟨rfl, ?_⟩, by intros; rfl, by intros; rfl, fun r hr => ⟨rfl, ?_⟩, by intros; rfl, by intros; rfl, by intros; rfl, rfl⟩
  · have := h.ws r hr; simp only [BitVec.getLsbD_and, BitVec.getLsbD_not, this]; simp; intro _; omega
  · have := h.wp r hr; simp only [BitVec.getLsbD_and, BitVec.getLsbD_not, this]; simp; intro _; omega

theorem hold_end {id : CellId} {s s1 : State} {c d p} (h1 : s1 = s ∨ ∃ c1, s1 = s.setCell id c1) (wd k t)
    (hk : (s.cell id).KeepsBut c d) (hp : p = true → c.dmem = (s.cell id).dmem ∧ c.store = (s.cell id).store ∧ c.core.loops = (s.cell id).core.loops) : End id s (s1.holdCore id c wd k t) d p := by
  unfold State.holdCore
  dsimp only
  have e : ∀ c', s1.setCell id c' = s.setCell id c' := by
      intro c'
      rcases h1 with rfl | ⟨c1, rfl⟩
      · rfl
      · rw [State.setCell_setCell]
  rw [e]
  refine end_set (keeps_trans hk (keeps_core rfl)) fun h => ?_
  obtain ⟨p1, p2, p3⟩ := hp h
  exact ⟨p1, p2, .inl p3⟩

theorem step_end {op : CoreOp} {o id d p} {s : State} (h : Ok op o id d p s) (g) : End id s (coreStep op id g o s) d p := by
      unfold coreStep
      dsimp only
      split
      · exact end_nr (coreException_nr _ _ _)
      · split
        · exact end_nr (coreException_nr _ _ _)
        · split
          · exact hold_end (.inl rfl) _ _ _ (keeps_refl _ _) fun _ => ⟨rfl, rfl, rfl⟩
          · split
            · exact end_nr (coreException_nr _ _ _)
            · split
              · refine end_rel (.inl rfl) (?_ : Rel id s _ fun c' => (s.cell id).KeepsBut c' d ∧ (p = true → Plain (s.cell id) c')) (keeps_refl _ _) fun _ => ⟨rfl, rfl, rfl, rfl⟩
                rcases retire_rel id s (s.cell id) (op.off o (s.cell id)) d with h1 | ⟨c', h1, h2, h3⟩
                · exact .inl h1
                · exact .inr ⟨c', h1, h2, fun hp => h3 (h.off hp _)⟩
              · split
                · exact hold_end (.inl rfl) _ _ _ (keeps_refl _ _) fun _ => ⟨rfl, rfl, rfl⟩
                · split
                  · exact end_nr (coreException_nr _ _ _)
                  · have hg := h.go _ rfl
                    generalize ((s.touchStore id (op.touch o (s.cell id)).1).touchDmem id (op.touch o (s.cell id)).2) = s1 at hg ⊢
                    generalize op.body ⟨id, s.cellLt id, s.ns⟩ o (s1.cell id) = r at hg ⊢
                    rcases hg with ⟨x, rfl⟩ | ⟨h1, hb⟩
                    · exact end_nr (coreException_nr _ _ _)
                    · have h1' : s1 = s ∨ ∃ c1, s1 = s.setCell id c1 := by
                        rcases h1 with h1 | ⟨c1, h1, _⟩
                        · exact .inl h1
                        · exact .inr ⟨c1, h1⟩
                      have hk : (s.cell id).KeepsBut (s1.cell id) d ∧ (s1.cell id).core = (s.cell id).core ∧ (s1.cell id).dmem = (s.cell id).dmem ∧ (s1.cell id).store = (s.cell id).store := by
                        rcases h1 with rfl | ⟨c1, rfl, h2, h3, h4, h5⟩
                        · exact ⟨keeps_refl _ _, rfl, rfl, rfl⟩
                        · rw [State.cell_setCell]; exact ⟨h2, h3, h4, h5⟩
                      obtain ⟨k1, k2, k3, k4⟩ := hk
                      cases r with
                      | done c' f =>
                        obtain ⟨b1, b2⟩ := hb
                        dsimp only
                        refine end_rel h1' (?_ : Rel id s1 _ fun c'' => CellState.KeepsBut { c' with core := { c'.core with sMark := c'.core.sMark &&& ~~~(op.ws o), pMark := c'.core.pMark &&& ~~~(op.wp o) } } c'' d ∧ (p = true → Plain _ c'')) (keeps_trans k1 (keeps_trans b1 (unmark_keeps h _))) ?_
                        · rcases retire_rel id s1 { c' with core := { c'.core with sMark := c'.core.sMark &&& ~~~(op.ws o), pMark := c'.core.pMark &&& ~~~(op.wp o) } } f d with h1 | ⟨c'', h1, h2, h3⟩
                          · exact .inl h1
                          · exact .inr ⟨c'', h1, h2, fun hp => h3 (b2 hp).1⟩
                        · intro hp
                          obtain ⟨q0, q1, q2, q3, q4⟩ := b2 hp
                          exact ⟨q1.trans k3, q2.trans k4, by show c'.core.loops = _; rw [q3, k2], by show c'.core.pc = _; rw [q4, k2]⟩
                      | hold c' k tt =>
                        obtain ⟨b1, b2⟩ := hb
                        refine hold_end h1' _ _ _ (keeps_trans k1 b1) fun hp => ?_
                        obtain ⟨q1, q2, q3⟩ := b2 hp
                        exact ⟨q1.trans k3, q2.trans k4, by rw [q3, k2]⟩
                      | exc x => exact end_nr (coreException_nr _ _ _)
                      | semOver c' x => exact end_nr (by dsimp only; unfold State.semOverflow; exact cellFault_nr _ _ _)
                      | badBank c' => exact end_nr (by dsimp only; exact cellFault_nr _ _ _)
/-- Taking up the instruction a core waits in changes nothing but the record of it (R121). -/
theorem takeUp_end (id : CellId) (s : State) (d p) : End id s (s.takeUp id) d p :=
  end_set (keeps_core rfl) fun _ => ⟨rfl, rfl, .inl rfl⟩

theorem end_trans {id : CellId} {s u t : State} {d p} (h : End id s u d p) (hu : u = s.takeUp id) (h' : End id u t d p) :
    End id s t d p := by
  intro hr
  obtain ⟨a1, a2, a3, a4⟩ := h' hr
  subst hu
  have k1 : ∀ j, j ≠ id → (s.takeUp id).cell j = s.cell j := fun j hj => State.cell_setCell_other _ _ _ _ hj
  have k2 : (s.takeUp id).cell id = { s.cell id with core := { (s.cell id).core with held := none } } := State.cell_setCell _ _ _
  refine ⟨fun j hj => (a1 j hj).trans (k1 j hj), a2, keeps_trans (by rw [k2]; exact keeps_core rfl) a3, fun hp => ?_⟩
  obtain ⟨b1, b2, b3⟩ := a4 hp
  rw [k2] at b1 b2 b3
  exact ⟨b1, b2, b3⟩

theorem main {op : CoreOp} {o id d p} {s : State} (h : ∀ u : State, (u.cell id).core.a = (s.cell id).core.a → Ok op o id d p u)
    (t : State) (g) (e : runCore op id g o s = .next t) : End id s t d p := by
  unfold runCore withCell at e
  split at e
  · cases e
    dsimp only
    split
    · exact end_self _ _ _ _
    · split
      · exact step_end (h s rfl) g
      · split
        · refine end_trans (takeUp_end id s d p) rfl (step_end (h _ ?_) g)
          show ((s.takeUp id).cell id).core.a = _
          unfold State.takeUp State.modCell
          rw [State.cell_setCell]
        · exact end_self _ _ _ _
  · cases e

theorem bit5_other (d r : BitVec 5) (h : r ≠ d) : (bit5 d).getLsbD r.toNat = false := by
  have h' : r.toNat ≠ d.toNat := fun e => h (BitVec.eq_of_toNat_eq e)
  unfold bit5
  simp only [BitVec.getLsbD_shiftLeft]
  by_cases h1 : r.toNat < d.toNat
  · simp [h1]
  · have : 0 < r.toNat - d.toNat := by omega
    simp [h1]
    intro _; omega
theorem bit3_other (d r : BitVec 3) (h : r ≠ d) : (bit3 d).getLsbD r.toNat = false := by
  have h' : r.toNat ≠ d.toNat := fun e => h (BitVec.eq_of_toNat_eq e)
  unfold bit3
  simp only [BitVec.getLsbD_shiftLeft]
  by_cases h1 : r.toNat < d.toNat
  · simp [h1]
  · have : 0 < r.toNat - d.toNat := by omega
    simp [h1]
    intro _; omega

theorem ok_plain {op : CoreOp} {o id d p s} (hws : ∀ r, r ∉ d.s → (op.ws o).getLsbD r.toNat = false)
    (hwp : ∀ r, r ∉ d.p → (op.wp o).getLsbD r.toNat = false) (ho : p = true → ∀ c, op.off o c = .seq) (ht : ∀ c, op.touch o c = ([], []))
    (hb : ∀ env c, Good c d p (op.body env o c)) : Ok op o id d p s :=
  ⟨hws, hwp, ho, fun s1 e => .inr ⟨.inl (by rw [e, ht]; simp), hb _ _⟩⟩

theorem setS_keeps (c : CellState) (r x) (d : CoreDest) (h : r ∈ d.s) : c.KeepsBut (c.setS r x) d := by
  refine ⟨fun q hq => ⟨?_, rfl⟩, by intros; rfl, by intros; rfl, by intros; exact ⟨rfl, rfl⟩, by intros; rfl, by intros; rfl, by intros; rfl, rfl⟩
  show rget (rset c.core.s r x) q = rget c.core.s q
  exact rget_rset_other _ _ _ _ fun e => hq (e ▸ h)
theorem setA_keeps (c : CellState) (r x) (d : CoreDest) (h : r ∈ d.a) : c.KeepsBut (c.setA r x) d := by
  refine ⟨by intros; exact ⟨rfl, rfl⟩, fun q hq => ?_, by intros; rfl, by intros; exact ⟨rfl, rfl⟩, by intros; rfl, by intros; rfl, by intros; rfl, rfl⟩
  show rget (rset c.core.a r x) q = rget c.core.a q
  exact rget_rset_other _ _ _ _ fun e => hq (e ▸ h)
theorem setT_keeps (c : CellState) (r x) (d : CoreDest) (h : r ∈ d.t) : c.KeepsBut (c.setT r x) d := by
  refine ⟨by intros; exact ⟨rfl, rfl⟩, by intros; rfl, fun q hq => ?_, by intros; exact ⟨rfl, rfl⟩, by intros; rfl, by intros; rfl, by intros; rfl, rfl⟩
  show rget (rset c.core.t r x) q = rget c.core.t q
  exact rget_rset_other _ _ _ _ fun e => hq (e ▸ h)
theorem setLc_keeps (c : CellState) (r x) (d : CoreDest) (h : r ∈ d.lc) : c.KeepsBut (c.setLc r x) d := by
  refine ⟨by intros; exact ⟨rfl, rfl⟩, by intros; rfl, by intros; rfl, by intros; exact ⟨rfl, rfl⟩, fun q hq => ?_, by intros; rfl, by intros; rfl, rfl⟩
  show rget (rset c.core.lc r x) q = rget c.core.lc q
  exact rget_rset_other _ _ _ _ fun e => hq (e ▸ h)
theorem setSem_keeps (c : CellState) (r x) (d : CoreDest) (h : r ∈ d.sem) : c.KeepsBut (c.setSem r x) d := by
  refine ⟨by intros; exact ⟨rfl, rfl⟩, by intros; rfl, by intros; rfl, by intros; exact ⟨rfl, rfl⟩, by intros; rfl, fun q hq => ?_, by intros; rfl, rfl⟩
  show rget (rset c.sems r x) q = rget c.sems q
  exact rget_rset_other _ _ _ _ fun e => hq (e ▸ h)
theorem setP_keeps (c : CellState) (r x) (d : CoreDest) (h : r ∈ d.p) : c.KeepsBut (c.setP r x) d := by
  unfold CellState.setP
  split
  · exact keeps_refl _ _
  · refine ⟨by intros; exact ⟨rfl, rfl⟩, by intros; rfl, by intros; rfl, fun q hq => ⟨?_, rfl⟩, by intros; rfl, by intros; rfl, by intros; rfl, rfl⟩
    show (q == 0 || BitVec.getLsbD _ q.toNat) = (q == 0 || BitVec.getLsbD _ q.toNat)
    congr 1
    have := bit3_other r q fun e => hq (e ▸ h)
    have : (if x = true then bit3 r else 0).getLsbD q.toNat = false := by split; exact this; simp
    simp only [BitVec.getLsbD_or, BitVec.getLsbD_and, BitVec.getLsbD_not, this, bit3_other r q fun e => hq (e ▸ h)]
    simp; intro _; omega
theorem setLoops_keeps (c : CellState) (x) (d : CoreDest) : c.KeepsBut (c.setLoops x) d := keeps_core rfl

theorem none5 (d : CoreDest) : ∀ r : BitVec 5, r ∉ d.s → (0 : BitVec 32).getLsbD r.toNat = false := by intros; simp
theorem none3 (d : CoreDest) : ∀ r : BitVec 3, r ∉ d.p → (0 : BitVec 8).getLsbD r.toNat = false := by intros; simp
theorem one5 (d : CoreDest) (x : BitVec 5) (h : x ∈ d.s) : ∀ r : BitVec 5, r ∉ d.s → (bit5 x).getLsbD r.toNat = false :=
  fun r hr => bit5_other _ _ fun e => hr (e ▸ h)
theorem one3 (d : CoreDest) (x : BitVec 3) (h : x ∈ d.p) : ∀ r : BitVec 3, r ∉ d.p → (bit3 x).getLsbD r.toNat = false :=
  fun r hr => bit3_other _ _ fun e => hr (e ▸ h)

theorem pl {op : CoreOp} {o : BitVec 22} {id : CellId} {d} (s t : State)
    (h : ∀ u : State, (u.cell id).core.a = (s.cell id).core.a → Ok op o id d true u) (g : BitVec 4) :
    ((runCore op id g o s = .next t → (t.cell id).st = .running → (∀ j, j ≠ id → t.cell j = s.cell j) ∧ t = { s with cells := t.cells } ∧ (s.cell id).KeepsBut (t.cell id) d) ∧
     (runCore op id g o s = .next t → (t.cell id).st = .running →
      (t.cell id).dmem = (s.cell id).dmem ∧ (t.cell id).store = (s.cell id).store ∧
      ((t.cell id).core.loops = (s.cell id).core.loops ∨ (t.cell id).core.loops = (endCheck (s.cell id).core.pc.toNat 0 (s.cell id).core.loops).1))) := by
  refine ⟨fun e hr => ?_, fun e hr => ?_⟩
  · obtain ⟨a, b, c, _⟩ := main h t g e hr; exact ⟨a, b, c⟩
  · obtain ⟨_, _, _, c⟩ := main h t g e hr; exact c rfl
theorem kp {op : CoreOp} {o : BitVec 22} {id : CellId} {d} (s t : State)
    (h : ∀ u : State, (u.cell id).core.a = (s.cell id).core.a → Ok op o id d false u) (g : BitVec 4) :
    (runCore op id g o s = .next t → (t.cell id).st = .running → (∀ j, j ≠ id → t.cell j = s.cell j) ∧ t = { s with cells := t.cells } ∧ (s.cell id).KeepsBut (t.cell id) d) := by
  intro e hr
  obtain ⟨a, b, c, _⟩ := main h t g e hr; exact ⟨a, b, c⟩

theorem okS {op : CoreOp} {o id s} (hws : op.ws o = bit5 (fD o)) (hwp : op.wp o = 0) (ho : ∀ c, op.off o c = .seq) (ht : ∀ c, op.touch o c = ([], []))
    (hb : ∀ env c, ∃ x, op.body env o c = .done (c.setS (fD o) x) .seq ∨ ∃ e, op.body env o c = .exc e) : Ok op o id { s := [fD o] } true s := by
  refine ok_plain (by rw [hws]; exact one5 _ _ (by simp)) (by rw [hwp]; exact none3 _) (fun _ => ho) ht fun env c => ?_
  obtain ⟨x, e | ⟨k, e⟩⟩ := hb env c
  · rw [e]; exact ⟨setS_keeps _ _ _ _ (by simp), fun _ => ⟨rfl, rfl, rfl, rfl, rfl⟩⟩
  · rw [e]; exact trivial
theorem okP {op : CoreOp} {o id s} (hws : op.ws o = 0) (hwp : op.wp o = bit3 (fPD o)) (ho : ∀ c, op.off o c = .seq) (ht : ∀ c, op.touch o c = ([], []))
    (hb : ∀ env c, ∃ x, op.body env o c = .done (c.setP (fPD o) x) .seq) : Ok op o id { p := [fPD o] } true s := by
  refine ok_plain (by rw [hws]; exact none5 _) (by rw [hwp]; exact one3 _ _ (by simp)) (fun _ => ho) ht fun env c => ?_
  obtain ⟨x, e⟩ := hb env c
  rw [e]; refine ⟨setP_keeps _ _ _ _ (by simp), fun _ => ?_⟩
  unfold CellState.setP; split <;> exact ⟨rfl, rfl, rfl, rfl, rfl⟩
theorem okN {op : CoreOp} {o id d p s} (hws : op.ws o = 0) (hwp : op.wp o = 0) (ho : p = true → ∀ c, op.off o c = .seq) (ht : ∀ c, op.touch o c = ([], []))
    (hb : ∀ env c, Good c d p (op.body env o c)) : Ok op o id d p s :=
  ok_plain (by rw [hws]; exact none5 _) (by rw [hwp]; exact none3 _) ho ht hb

theorem storeUe_cell (s : State) (id : CellId) (w m) : ((s.storeUe id w m).cell id).core = (s.cell id).core ∧ ((s.storeUe id w m).cell id).store = (s.cell id).store ∧ ((s.storeUe id w m).cell id).dmem = (s.cell id).dmem := by
  have hr : ∀ (s : State) a b c, (s.raise a b c).cell id = s.cell id := by
    intro s a b c
    obtain ⟨_, _, _, _, e⟩ := s.raise_frame a b c; rw [e]; rfl
  unfold State.storeUe State.suspect
  dsimp only
  rw [hr]
  have : ∀ (s : State) p, State.cell { s with pool := p } id = s.cell id := fun _ _ => rfl
  rw [this, State.cell_setCell, hr]
  exact ⟨rfl, rfl, rfl⟩
theorem fold_cell (l : List (Nat × Nat)) (s : State) (id : CellId) : ((l.foldl (fun s w => s.storeUe id w.1 w.2) s).cell id).core = (s.cell id).core ∧ ((l.foldl (fun s w => s.storeUe id w.1 w.2) s).cell id).store = (s.cell id).store ∧ ((l.foldl (fun s w => s.storeUe id w.1 w.2) s).cell id).dmem = (s.cell id).dmem := by
  induction l generalizing s with
  | nil => exact ⟨rfl, rfl, rfl⟩
  | cons a l ih =>
    rw [List.foldl_cons]
    obtain ⟨h1, h2, h3⟩ := ih (s.storeUe id a.1 a.2)
    obtain ⟨g1, g2, g3⟩ := storeUe_cell s id a.1 a.2
    exact ⟨h1.trans g1, h2.trans g2, h3.trans g3⟩
theorem mem_setIns (l : List Nat) (x y : Nat) : y ∈ setIns l x ↔ y = x ∨ y ∈ l := by
  induction l with
  | nil => simp [setIns]
  | cons a l ih =>
    unfold setIns
    split
    · simp
    · split
      · rename_i h; simp [h]
      · simp only [List.mem_cons, ih]; constructor <;> rintro (h | h | h) <;> simp [h]
theorem mem_fold_setIns (l p : List Nat) (y : Nat) : y ∈ l.foldl setIns p ↔ y ∈ l ∨ y ∈ p := by
  induction l generalizing p with
  | nil => simp
  | cons a l ih => rw [List.foldl_cons, ih, mem_setIns, List.mem_cons, ← or_assoc, or_comm (a := y ∈ l), ]

/-- Reading words with corrected errors changes counts and error marks only. -/
def Soft (id : CellId) (s s1 : State) : Prop := s1 = s ∨ ∃ c1, s1 = s.setCell id c1 ∧ (∀ d, (s.cell id).KeepsBut c1 d) ∧ c1.core = (s.cell id).core ∧ c1.dmem = (s.cell id).dmem ∧ c1.store = (s.cell id).store

theorem touchDmem_soft (s : State) (id : CellId) (l) : Soft id s (s.touchDmem id l) := by
  unfold State.touchDmem
  dsimp only
  split
  · exact .inl rfl
  · exact .inr ⟨_, rfl, fun d => keeps_core rfl, rfl, rfl, rfl⟩
theorem touchStore_soft (s : State) (id : CellId) (l) : ((s.touchStore id l).cell id).core = (s.cell id).core ∧ (Soft id s (s.touchStore id l) ∨ ∃ x ∈ l, x ∈ ((s.touchStore id l).cell id).store.poison) := by
  unfold State.touchStore
  dsimp only
  split
  · exact ⟨rfl, .inl (.inl rfl)⟩
  · obtain ⟨h1, h2, h3⟩ := fold_cell (laneWords (l.filter fun l => (s.cell id).store.ue.contains l)) (s.setCell id
      { s.cell id with
        store := { (s.cell id).store with ue := (s.cell id).store.ue.filter fun x => !(l.filter fun l => (s.cell id).store.ue.contains l).contains x
                                          poison := (l.filter fun l => (s.cell id).store.ue.contains l).foldl setIns (s.cell id).store.poison }
        ctr := { (s.cell id).ctr with ceStore := satAdd16 (s.cell id).ctr.ceStore (l.filter fun l => (s.cell id).store.ce.contains l).length } }) id
    rw [State.cell_setCell] at h1 h2
    refine ⟨h1, ?_⟩
    by_cases hb : (l.filter fun l => (s.cell id).store.ue.contains l) = []
    · left; right
      rw [hb]
      refine ⟨_, rfl, ?_, rfl, rfl, ?_⟩
      · intro d
        have : ((s.cell id).store.ue.filter fun x => !([] : List Nat).contains x) = (s.cell id).store.ue := by simp
        rw [this]
        exact keeps_core rfl
      · have : ((s.cell id).store.ue.filter fun x => !([] : List Nat).contains x) = (s.cell id).store.ue := by simp
        show StoreState.mk _ _ _ _ = _
        rw [this]; rfl
    · right
      obtain ⟨x, hx⟩ := List.exists_mem_of_ne_nil _ hb
      refine ⟨x, (List.mem_filter.1 hx).1, ?_⟩
      rw [h2]
      exact (mem_fold_setIns _ _ _).2 (.inl hx)

theorem load_touch (s : State) (id : CellId) (a : BitVec 40) (n : Nat) (s1 : State) (e : s1 = (s.touchStore id (loadTouch a n).1).touchDmem id (loadTouch a n).2) :
    (s1.cell id).core = (s.cell id).core ∧ (Soft id s s1 ∨ ∃ k, coreLoad (s1.cell id) a n = .inr k) := by
  unfold loadTouch at e
  unfold coreLoad
  split at e
  · rw [State.touchStore_nil, State.touchDmem_nil] at e; subst e; exact ⟨rfl, .inl (.inl rfl)⟩
  · rename_i off h
    subst e
    rw [State.touchStore_nil]
    have := touchDmem_soft s id (wordsOf off n)
    refine ⟨?_, .inl this⟩
    rcases this with h | ⟨c1, h, _, h2, _⟩
    · rw [h]
    · rw [h, State.cell_setCell, h2]
  · rename_i off h
    subst e
    rw [State.touchDmem_nil]
    obtain ⟨h1, h2⟩ := touchStore_soft s id (lanesOf off n)
    refine ⟨h1, ?_⟩
    rcases h2 with h2 | ⟨x, hx, hp⟩
    · exact .inl h2
    · right
      refine ⟨0x09, ?_⟩
      rw [if_pos]
      rw [List.any_eq_true]
      exact ⟨x, hx, by simp [hp]⟩

theorem memAddr_core (c c' : CellState) (h : c'.core = c.core) (o n) : memAddr c' o n = memAddr c o n := by
  unfold memAddr CellState.aReg; rw [h]

theorem okLoad {op : CoreOp} {o id d n} {s : State} (fin : CellState → Nat → CellState)
    (hws : ∀ r, r ∉ d.s → (op.ws o).getLsbD r.toNat = false) (hwp : op.wp o = 0) (ho : ∀ c, op.off o c = .seq)
    (ht : ∀ c, op.touch o c = loadTouch (memAddr c o n).1 n)
    (hb : ∀ env c, op.body env o c = match coreLoad c (memAddr c o n).1 n with
      | .inr e => .exc e
      | .inl v => .done (fin (c.setAddr (fBase o) (memAddr c o n).2) v) .seq)
    (hA : fBase o ∈ d.a)
    (hfin : ∀ c v, c.KeepsBut (fin c v) d ∧ (fin c v).dmem = c.dmem ∧ (fin c v).store = c.store ∧ (fin c v).core.loops = c.core.loops ∧ (fin c v).core.pc = c.core.pc) : Ok op o id d true s := by
  refine ⟨hws, by rw [hwp]; exact none3 _, fun _ => ho, fun s1 e => ?_⟩
  rw [ht] at e
  obtain ⟨h1, h2⟩ := load_touch s id _ n s1 e
  rw [hb, memAddr_core _ _ h1]
  rcases h2 with h2 | ⟨k, h2⟩
  · right
    refine ⟨?_, ?_⟩
    · rcases h2 with h2 | ⟨c1, h2, h3, h4⟩
      · exact .inl h2
      · exact .inr ⟨c1, h2, h3 _, h4⟩
    · split
      · trivial
      · obtain ⟨f1, f2, f3, f4, f5⟩ := hfin ((s1.cell id).setAddr (fBase o) (memAddr (s.cell id) o n).2) ‹_›
        exact ⟨keeps_trans (setA_keeps _ _ _ _ hA) f1, fun _ => ⟨rfl, f2, f3, f4, f5⟩⟩
  · left; rw [h2]; exact ⟨_, rfl⟩

theorem byteAt_dmem (c : CellState) (d : DmemState) (off n v x : Nat) (hoff : off + n ≤ 0x10000) (hx : x < 0x10000 ∨ 0x1000000 ≤ x)
    (h : ¬ (off ≤ x ∧ x < off + n)) (hd : d.mem = c.dmem.mem.writeNat 0 off n v) : ({ c with dmem := d } : CellState).byteAt x = c.byteAt x := by
  unfold CellState.byteAt
  split
  · show Mem.get 0 d.mem x = _
    rw [hd, Mem.get_writeNat, if_neg h]
  · rfl

theorem store_keeps (c c' : CellState) (a : BitVec 40) (n v : Nat) (d : CoreDest) (hn : n = 1 ∨ n = 2 ∨ n = 4 ∨ n = 8 ∨ n = 16) (hd : d.bytes = fun x => a.toNat ≤ x ∧ x < a.toNat + n)
   (e : coreStore c a n v = .inl c') : c.KeepsBut c' d ∧ c'.core = c.core := by
  unfold coreStore at e
  split at e
  · cases e
  · rename_i off h
    have ho : off = a.toNat ∧ off < 0x10000 ∧ off % n = 0 := by
      unfold accessTarget addrTarget at h
      dsimp only at h
      split at h
      · cases h
      · split at h
        · rename_i h1 h2
          have : a.toNat < 0x10000 := by
            apply Classical.byContradiction; intro hh
            rw [if_neg hh] at h
            split at h
            · cases h
            · split at h <;> cases h
          rw [if_pos this] at h
          cases h
          exact ⟨rfl, this, h2⟩
        · cases h
    split at e
    · cases e
    · cases e
      obtain ⟨rfl, h1, h2⟩ := ho
      refine ⟨⟨by intros; exact ⟨rfl, rfl⟩, by intros; rfl, by intros; rfl, by intros; exact ⟨rfl, rfl⟩, by intros; rfl, by intros; rfl, fun x hx hB => ?_, rfl⟩, rfl⟩
      rw [hd] at hB
      refine byteAt_dmem c _ a.toNat n v x ?_ hx hB rfl
      rcases hn with rfl | rfl | rfl | rfl | rfl <;> omega
  · rename_i off h
    have ho : off + 0x1000000 = a.toNat := by
      unfold accessTarget addrTarget at h
      dsimp only at h
      split at h
      · cases h
      · split at h
        · by_cases hh : a.toNat < 0x10000
          · rw [if_pos hh] at h; cases h
          · rw [if_neg hh] at h
            split at h
            · have h3 := Target.store.inj h; rename_i hr; have h4 := hr.1; clear h; omega
            · split at h <;> cases h
        · cases h
    cases e
    refine ⟨⟨by intros; exact ⟨rfl, rfl⟩, by intros; rfl, by intros; rfl, by intros; exact ⟨rfl, rfl⟩, by intros; rfl, by intros; rfl, fun x hx hB => ?_, rfl⟩, rfl⟩
    rw [hd] at hB
    unfold CellState.byteAt
    split
    · rfl
    · show Mem.get 0 (Mem.write 0 c.store.mem off (leBytes n v)) _ = _
      apply Mem.get_write_other
      rw [leBytes_length]
      omega

theorem okStore {op : CoreOp} {o id d n} {s0 s : State} (src : CellState → Nat) (hn : n = 1 ∨ n = 2 ∨ n = 4 ∨ n = 8 ∨ n = 16)
    (hws : op.ws o = 0) (hwp : op.wp o = 0)
    (ht : ∀ c, ∃ w, op.touch o c = ([], w))
    (hb : ∀ env c, op.body env o c = match coreStore c (memAddr c o n).1 n (src c) with
      | .inr e => .exc e
      | .inl c' => .done (c'.setAddr (fBase o) (memAddr c o n).2) .seq)
    (hA : fBase o ∈ d.a) (hd : d.bytes = fun x => (memAddr (s0.cell id) o n).1.toNat ≤ x ∧ x < (memAddr (s0.cell id) o n).1.toNat + n)
    (hs : (s.cell id).core.a = (s0.cell id).core.a) : Ok op o id d false s := by
  have hm : memAddr (s0.cell id) o n = memAddr (s.cell id) o n := by unfold memAddr CellState.aReg; rw [hs]
  rw [hm] at hd
  refine ⟨by rw [hws]; exact none5 _, by rw [hwp]; exact none3 _, fun h => by simp at h, fun s1 e => ?_⟩
  obtain ⟨w, hw⟩ := ht (s.cell id)
  rw [hw, State.touchStore_nil] at e
  have h2 : Soft id s s1 := e ▸ touchDmem_soft _ _ _
  have hc : (s1.cell id).core = (s.cell id).core := by
    rcases h2 with h | ⟨c1, h, _, h2, _⟩
    · rw [h]
    · rw [h, State.cell_setCell, h2]
  right
  refine ⟨?_, ?_⟩
  · rcases h2 with h2 | ⟨c1, h2, h3, h4⟩
    · exact .inl h2
    · exact .inr ⟨c1, h2, h3 _, h4⟩
  · rw [hb, memAddr_core _ _ hc]
    split
    · trivial
    · rename_i c' h
      refine ⟨keeps_trans (store_keeps _ _ _ n _ d hn hd h).1 (setA_keeps _ _ _ _ hA), fun h => by simp at h⟩

theorem storeTouch_nil (a n) : ∃ w, storeTouch a n = ([], w) := by
  unfold storeTouch; split
  · split <;> exact ⟨_, rfl⟩
  · exact ⟨_, rfl⟩

theorem branch_good (c : CellState) (off : Int) (pops) : Good c {} false (branchTo c off pops) := by
  unfold branchTo; dsimp only; split
  · trivial
  · exact ⟨keeps_refl _ _, fun h => by simp at h⟩

end Sys2Proof.Machine.CoreFrame
end

