-- ==== Sys2Proof/Laws/Ops.lean ====
section
/-!
SUPPORT. What the shared operations do: lemmas that say once when each completes and what it leaves, for proofs to cite.
-/

set_option linter.unusedSimpArgs false

namespace Sys2Proof.Machine

/-! ### Cell core rows (R90) -/

/-- The rows of the cell core are the frame around their bodies. -/
theorem coreRows_run (id : CellId) (g : BitVec 4) (o : BitVec 22) (s : State) :
    ∀ p ∈ coreRows id g o, exec p.1 s = runCore p.2 id g o s := by
  simp only [coreRows, List.forall_mem_cons]
  repeat' first | exact fun _ h => absurd h List.not_mem_nil | refine ⟨rfl, ?_⟩

/-! ### Stores (R96, R190) -/

theorem stores (op : CoreOp) (n v : Nat) (id : CellId) (g : BitVec 4) (o : BitVec 22) (s : State) (i : Instr)
    (hi' : exec i s = runCore op id g o s)
    (hn : n = 1 ∨ n = 2 ∨ n = 4 ∨ n = 8 ∨ n = 16)
    (hok : cellOk id = true) (hi : (s.cell id).Issues g) (hf : (s.cell id).Fits) (hl : op.legal o = true)
    (hs : (s.cell id).FreeS (op.rs o) (op.ws o)) (hw : op.ws o = 0) (hwp : op.wp o = 0) (hrp : op.rp o = 0)
    (htouch : op.touch o (s.cell id) = ([],[]) ∨ op.touch o (s.cell id) = storeTouch (memAddr (s.cell id) o n).1 n)
    (hbody : ∀ e, op.body e o (s.cell id) = match coreStore (s.cell id) (memAddr (s.cell id) o n).1 n v with
        | .inr e => .exc e
        | .inl c' => .done (c'.setAddr (fBase o) (memAddr (s.cell id) o n).2) .seq) :
    let c := s.cell id
    let at' : BitVec 40 := (memAddr c o n).1
    let base : CellState := c.writeA (fBase o) (memAddr c o n).2
    (c.InDmem (at') n → ∃ d : DmemState,
        exec i s = .next (s.setCell id ({ base with dmem := d }.next s.ns)) ∧
          Stored c.dmem.mem d.mem (at').toNat n v) ∧
    ((at').toNat % n = 0 → 0x1000000 ≤ (at').toNat → (at').toNat < 0x1300000 →
        ∃ m : StoreState, exec i s = .next (s.setCell id ({ base with store := m }.next s.ns)) ∧
          Stored c.store.mem m.mem ((at').toNat - 0x1000000) n v ∧
          ∀ l, l ∈ m.poison ↔ l ∈ c.store.poison ∧ ¬ ((at').toNat - 0x1000000 ≤ 8 * l ∧ 8 * l + 8 ≤ (at').toNat - 0x1000000 + n)) := by
  intro c a base
  have hp : (s.cell id).FreeP (op.rp o) (op.wp o) := by rw [hwp, hrp]; constructor <;> simp
  constructor
  · rintro ⟨h1, h2, h3⟩
    have e : accessTarget a n = .dmem a.toNat := by simp [accessTarget, addrTarget, h1, h2]
    have ht : (s.touchStore id (op.touch o (s.cell id)).1).touchDmem id (op.touch o (s.cell id)).2 = s := by
      rcases htouch with h | h
      · rw [h]; simp
      · rw [h]; simp only [storeTouch]; rw [show accessTarget (memAddr (s.cell id) o n).1 n = .dmem a.toNat from e]
        simp only
        split
        · rw [State.touchStore_nil]
          exact State.touchDmem_clean s id _ fun w hw => (h3 w hw).2
        · simp
    have hany : (wordsOf a.toNat n).any (fun w => c.dmem.ue.contains w) = false := by
        rw [List.any_eq_false]; intro w hw; simp [(h3 w hw).1]
    have hst : ∃ d : DmemState, coreStore c a n v = .inl { c with dmem := d } ∧ d.mem = c.dmem.mem.writeNat 0 a.toNat n v := by
      refine ⟨⟨c.dmem.mem.writeNat 0 a.toNat n v, if n < 4 then c.dmem.ue else c.dmem.ue.filter fun w => !(wordsOf a.toNat n).contains w, if n < 4 then c.dmem.ce else c.dmem.ce.filter fun w => !(wordsOf a.toNat n).contains w⟩, ?_, rfl⟩
      simp only [coreStore, e, hany, Bool.false_eq_true, and_false, if_false]
    obtain ⟨d, hst, hd⟩ := hst
    have hst' : coreStore (s.cell id) (memAddr (s.cell id) o n).1 n v = .inl { c with dmem := d } := hst
    refine ⟨d, ?_, ?_⟩
    · rw [hi', runCore_touch op id g o s hok hi hl hs hp ht (({ s.cell id with dmem := d } : CellState).setAddr (fBase o) (memAddr (s.cell id) o n).2) (by rw [hbody, hst']) hf]
      simp only [CellState.unmark, hw, hwp]
      rw [and_not_zero8, and_not_zero32]
      rfl
    · intro k
      rw [hd, Mem.get_writeNat _ _ _ _ _]
  · intro h1 h2 h3
    have e : accessTarget a n = .store (a.toNat - 0x1000000) := by
      have : ¬ a.toNat < 0x10000 := by omega
      simp [accessTarget, addrTarget, h1, h2, h3, this]
    have ht : (s.touchStore id (op.touch o (s.cell id)).1).touchDmem id (op.touch o (s.cell id)).2 = s := by
      rcases htouch with h | h
      · rw [h]; simp
      · rw [h]; simp only [storeTouch]; rw [show accessTarget (memAddr (s.cell id) o n).1 n = _ from e]; simp
    have hst : coreStore c a n v = .inl { c with store := c.store.writeClean (a.toNat - 0x1000000) (leBytes n v) } := by
      simp only [coreStore, e]
    have hst' : coreStore (s.cell id) (memAddr (s.cell id) o n).1 n v = .inl { c with store := c.store.writeClean (a.toNat - 0x1000000) (leBytes n v) } := hst
    refine ⟨c.store.writeClean (a.toNat - 0x1000000) (leBytes n v), ?_, ?_, ?_⟩
    · rw [hi', runCore_touch op id g o s hok hi hl hs hp ht (({ s.cell id with store := c.store.writeClean (a.toNat - 0x1000000) (leBytes n v) } : CellState).setAddr (fBase o) (memAddr (s.cell id) o n).2) (by rw [hbody, hst']) hf]
      simp only [CellState.unmark, hw, hwp]
      rw [and_not_zero8, and_not_zero32]
      rfl
    · intro k
      exact Mem.get_writeNat _ _ _ _ _ _
    · intro l
      have hn0 : 0 < n := by omega
      simp only [StoreState.writeClean, leBytes_length, List.mem_filter, Bool.not_eq_eq_eq_not, Bool.not_true, List.contains_eq_mem, decide_eq_false_iff_not, mem_lanesOf _ _ _ hn0, decide_eq_true_eq, Bool.decide_and, Bool.and_eq_true]
      rw [← Bool.not_eq_true]
      simp only [Bool.and_eq_true, decide_eq_true_eq]
      constructor
      · rintro ⟨ha, hb⟩; refine ⟨ha, fun hc => hb ⟨⟨?_, ?_⟩, hc⟩⟩ <;> omega
      · rintro ⟨ha, hb⟩; exact ⟨ha, fun hc => hb hc.2⟩

/-! ### Loops and branches (R102, R104, R107) -/

theorem lmod_get {α} (l : List α) (i : Nat) (f : α → α) (k : Nat) :
    (lmod l i f)[k]? = if k = i then (l[k]?).map f else l[k]? := by
  induction l generalizing i k with
  | nil => simp [lmod]
  | cons a l ih =>
    cases i with
    | zero => cases k <;> simp [lmod]
    | succ i => cases k with
      | zero => simp [lmod]
      | succ k => simp [lmod, ih]

theorem flow_skip (c : CellState) (ns dest : Nat) (h : dest ≤ 0xFFFC) (h2 : (endCheck c.core.pc.toNat dest c.core.loops).2 ≤ 0xFFFC) :
    ((c.setWait ⟨0, 0, 0⟩ none).stamp ns).flow (.skip dest) = (c.goOn (endCheck c.core.pc.toNat dest c.core.loops).2 (endCheck c.core.pc.toNat dest c.core.loops).1 ns, false) := by
  have h' : ¬ 0xFFFC < (endCheck c.core.pc.toNat dest c.core.loops).2 := by omega
  have h'' : ¬ 0xFFFC < dest := by omega
  simp only [CellState.flow, CellState.setWait, CellState.stamp, CellState.goOn, CellState.setLoops, CellState.setPc, if_neg h'']
  simp [h']

theorem branchTo_ok (c : CellState) (off : Int) (p : Bool) (dest : Nat) (h : (dest : Int) = c.core.pc.toNat + 4 * off) (h2 : dest ≤ 0xFFFC) :
    branchTo c off p = .done c (.jump dest p) := by
  unfold branchTo
  simp only []
  rw [if_neg (by omega), ← h]; rfl

theorem retire_jump (s : State) (id : CellId) (c : CellState) (dest : Nat) : s.retire id c (.jump dest true) = s.setCell id (c.goOn dest (leaveLoops c.core.pc.toNat dest c.core.loops) s.ns) := rfl

theorem retire_call (s : State) (id : CellId) (c : CellState) (dest : Nat) : s.retire id c (.jump dest false) = s.setCell id (c.goOn dest c.core.loops s.ns) := rfl

/-! ### Holds -/

theorem runCore_hold (op : CoreOp) (id : CellId) (g : BitVec 4) (o : BitVec 22) (s : State)
    (hok : cellOk id = true) (hi : (s.cell id).Issues g) (hl : op.legal o = true)
    (hs : (s.cell id).FreeS (op.rs o) (op.ws o)) (hp : (s.cell id).FreeP (op.rp o) (op.wp o))
    (ht : (s.touchStore id (op.touch o (s.cell id)).1).touchDmem id (op.touch o (s.cell id)).2 = s) (c' : CellState) (k t)
    (hb : op.body ⟨id, s.cellLt id, s.ns⟩ o (s.cell id) = .hold c' k t) :
    runCore op id g o s = .next (s.holdCore id c' (op.word g o) k t) := by
  obtain ⟨h1, h2, h0, h3, h3i, h4, h5, h6⟩ := hi
  obtain ⟨hs1, hs2⟩ := hs
  obtain ⟨hp1, hp2⟩ := hp
  unfold runCore withCell coreStep
  simp only [hok, if_true, h1, h2, h0, ne_eq, not_true, or_self, if_false, h3, h3i, Bool.false_or, Bool.false_eq_true, if_false, hl, Bool.not_true, h4, h5, h6,
    bne_self_eq_false, hs1, hs2, hp1, hp2, Bool.or_self, ht, hb]

/-! ### PUSH (R109) -/

theorem q4 (q : BitVec 2) : q = 0 ∨ q = 1 ∨ q = 2 ∨ q = 3 := by revert q; decide

theorem one_eq (c : CellState) (o : BitVec 22) :
    let q := fTop2 o
    let r (i : BitVec 2) : Word := c.sReg ((o.extractLsb' 17 3 : BitVec 3) ++ i)
    let a := c.aReg (o.extractLsb' 10 4)
    let cmd : QWord := r 3 ++ r 2 ++ r 1 ++ r 0
    let word : QWord := if o.getLsbD 16 then setWord cmd (o.extractLsb' 14 2) (a.addr.setWidth 32) else cmd
    let d := descRegs q word
    let slot : QCmd := ⟨word, c.tReg d.1, c.tReg (d.1 + 1), c.tReg d.2.1, c.tReg (d.2.1 + 1), c.tReg d.2.2,
      c.tReg (d.2.2 + 1), c.regs.cmdSeq + 1, false, Past.none⟩
    let one : CellState :=
      let c1 := (c.setQueue q { c.queue q with q := (c.queue q).q ++ [slot] }).claim (claimOf q word)
      let c2 : CellState := { c1 with regs := { c1.regs with cmdSeq := c.regs.cmdSeq + 1 } }
      if o.getLsbD 16 then c2.writeA (o.extractLsb' 10 4) (a.addr + a.stride.signExtend 40) else c2
    one = pushOne c o := by
  intro q r a cmd word d slot one
  have hw : pushWord c o = word := rfl
  have hs : pushSlot c q word = slot := rfl
  unfold pushOne
  simp only [hw]
  show (if o.getLsbD 16 then _ else _) = _
  simp only [show fTop2 o = q from rfl, hs]
  generalize claimOf q word = cl
  generalize ({ c.queue q with q := (c.queue q).q ++ [slot]} : EngQueue) = e
  have hreg : ∀ x, (({ (c.setQueue q e).claim cl with regs := x } : CellState).aReg (o.extractLsb' 10 4)) = a := by
    intro x
    rcases q4 q with h | h | h | h <;> rw [h] <;> (rcases cl with _ | ⟨b, r⟩ <;> first | rfl | (cases b <;> rfl))
  have hregs : ((c.setQueue q e).claim cl).regs = c.regs := by
    rcases q4 q with h | h | h | h <;> rw [h] <;> (rcases cl with _ | ⟨b, r⟩ <;> first | rfl | (cases b <;> rfl))
  split
  · simp only [hreg]
    rfl
  · rfl

/-! ### Exceptions (R122) -/

theorem cell_setCell (s : State) (id j : CellId) (c : CellState) : (s.setCell id c).cell j = if j = id then c else s.cell j := by
  unfold State.cell State.setCell
  by_cases h : j = id
  · subst h; simp [Sparse.at_put_same]
  · have : j.toNat ≠ id.toNat := fun e => h (BitVec.eq_of_toNat_eq e)
    simp [h, Sparse.at_put_other _ _ _ _ _ this]

theorem exc_idle (s : State) (id : CellId) (code : BitVec 8) (h1 : s.col.ops = []) (h2 : s.col.waiting = []) (h3 : s.col.coming = []) (h4 : s.pwr.aux = true) (h5 : s.hif.evBase = 0)
   (hr : (s.cell id).st = .running) (he : (s.cell id).core.enq = none) (hc : code ≠ 0x0B)
   (hp : code ≠ 0x09 ∨ (s.cell id).regs.poisonSeen = true) :
   s.coreException id code = 
     (({ s with events := ⟨0x0104, .error, if s.ltRuns then s.ns else 0,
        leBytes 2 id.toNat ++ (leBytes 1 code.toNat ++ (leBytes 1 (if (s.cell id).banks.active then 1 else 0) ++ (leBytes 2 (s.cell id).core.pc.toNat ++ [])))⟩ :: s.events, dbg := { s.dbg with evtErr := satInc s.dbg.evtErr } } : State).setCell id { (s.cell id).abandon with st := .faulted, fault := 1, report := true, exc := 0 }).setCell id { (s.cell id).abandon with st := .faulted, fault := 1, report := true, exc := code } := by
  have h9 : (if code = 0x09 then s.corePoison id else s) = s := by
    split
    · rename_i h
      rcases hp with h' | h'
      · exact absurd h h'
      · simp [State.corePoison, h']
    · rfl
  unfold State.coreException
  simp only [h9, State.raise, h4, if_true, if_neg hc]
  have e1 : ∀ e, (s.logEvent e).hif = s.hif := fun _ => rfl
  have e0 : ∀ e, (s.logEvent e).offerEvent e = s.logEvent e := by
    intro e
    unfold State.offerEvent
    simp only [e1]
    rw [if_pos (Or.inl h5)]
  rw [e0]
  unfold State.cellFault State.rawFault
  have hcell : ∀ e, (s.logEvent e).cell id = s.cell id := by
    intro e; unfold State.cell State.logEvent; cases e.sev <;> rfl
  simp only [hcell, hr]
  unfold State.dropEnq
  simp only [hcell, he]
  unfold State.colSettle
  rw [if_pos]
  · unfold State.modCell
    rw [cell_setCell]
    simp only [if_true]
    rfl
  · unfold State.colSound
    show (List.all s.col.ops _ && List.all s.col.waiting _ && List.all s.col.coming _) = true
    rw [h1, h2, h3]; rfl

theorem fl (s : State) (id : CellId) (i : Instr) (code : Nat) (hcode : code < 256) (h1 : s.col.ops = []) (h2 : s.col.waiting = []) (h3 : s.col.coming = []) (h4 : s.pwr.aux = true) (h5 : s.hif.evBase = 0)
   (hr : (s.cell id).st = .running) (he : (s.cell id).core.enq = none) (hc : BitVec.ofNat 8 code ≠ 0x0B) (hp : BitVec.ofNat 8 code ≠ 0x09 ∨ (s.cell id).regs.poisonSeen = true) (h : exec i s = .next (s.coreException id (BitVec.ofNat 8 code))) :
   ∃ t : State, exec i s = .next t ∧
      t.cell id = { (s.cell id).abandon with st := .faulted, fault := 1, report := true, exc := BitVec.ofNat 8 code } ∧
      (∀ j, j ≠ id → t.cell j = s.cell j) ∧
      t = { s with cells := t.cells, events := t.events, dbg := t.dbg } ∧
      t.dbg = { s.dbg with evtErr := satInc s.dbg.evtErr } ∧
      t.events = ⟨0x0104, .error, if s.ltRuns then s.ns else 0,
        leBytes 2 id.toNat ++ leBytes 1 code ++ leBytes 1 (s.cell id).banks.active.toNat ++ leBytes 2 (s.cell id).core.pc.toNat⟩ :: s.events := by
  refine ⟨_, h, ?_⟩
  rw [exc_idle s id _ h1 h2 h3 h4 h5 hr he hc hp]
  refine ⟨by rw [cell_setCell, if_pos rfl], fun j hj => ?_, rfl, rfl, ?_⟩
  · rw [cell_setCell, if_neg hj, cell_setCell, if_neg hj]; rfl
  · show (_ :: _ : List Event) = _
    congr 2
    rw [BitVec.toNat_ofNat, Nat.mod_eq_of_lt hcode]
    cases (s.cell id).banks.active <;> simp

theorem runCore_exc (op : CoreOp) (id : CellId) (g : BitVec 4) (o : BitVec 22) (s : State)
    (hok : cellOk id = true) (hi : (s.cell id).Issues g) (hl : op.legal o = true)
    (hs : (s.cell id).FreeS (op.rs o) (op.ws o)) (hp : (s.cell id).FreeP (op.rp o) (op.wp o))
    (ht : op.touch o (s.cell id) = ([],[])) (k)
    (hb : op.body ⟨id, s.cellLt id, s.ns⟩ o (s.cell id) = .exc k) :
    runCore op id g o s = .next (s.coreException id k) := by
  obtain ⟨h1, h2, h0, h3, h3i, h4, h5, h6⟩ := hi
  obtain ⟨hs1, hs2⟩ := hs
  obtain ⟨hp1, hp2⟩ := hp
  unfold runCore withCell coreStep
  simp only [hok, if_true, h1, h2, h0, ne_eq, not_true, or_self, if_false, h3, h3i, Bool.false_or, Bool.false_eq_true, if_false, hl, Bool.not_true, h4, h5, h6,
    bne_self_eq_false, hs1, hs2, hp1, hp2, Bool.or_self, ht, State.touchStore_nil, State.touchDmem_nil, hb]

/-! ### Guards that are false (R88) -/

theorem runCore_off (op : CoreOp) (id : CellId) (g : BitVec 4) (o : BitVec 22) (s : State)
    (hok : cellOk id = true) (h1 : (s.cell id).st = .running) (h2 : (s.cell id).core.enq = none) (h0 : (s.cell id).core.held = none)
    (h3 : (s.cell id).fetchUe = false) (h3i : (s.cell id).fetchIllegal = false)
    (h4 : (s.cell id).core.pClaim &&& bit3 (g.setWidth 3) = 0) (h5 : (s.cell id).core.pMark &&& bit3 (g.setWidth 3) = 0)
    (h6 : (s.cell id).pReg (g.setWidth 3) = g.getLsbD 3) (hl : op.legal o = true) :
    runCore op id g o s = .next (s.retire id (s.cell id) (op.off o (s.cell id))) := by
  have hg : guardTrue (s.cell id) g = false := by unfold guardTrue; rw [h6]; simp
  unfold runCore withCell coreStep
  simp only [hok, if_true, h1, h2, h0, ne_eq, not_true, or_self, if_false, h3, h3i, Bool.false_or, Bool.false_eq_true, hl, Bool.not_true, h4, h5, hg,
    bne_self_eq_false, Bool.not_false]

/-! ### Address registers -/

theorem writeA_stride (c : CellState) (i r x) : ((c.writeA i x).aReg r).stride = (c.aReg r).stride := by
  show (rget (rset c.core.a i ⟨x, (rget c.core.a i).stride⟩) r).stride = (rget c.core.a r).stride
  by_cases h : r = i
  · subst h; rw [rget_rset_same]
  · rw [rget_rset_other _ _ _ _ h]

theorem writeA_same (c : CellState) (i x) : ((c.writeA i x).aReg i).addr = x := by
  show (rget (rset c.core.a i ⟨x, (rget c.core.a i).stride⟩) i).addr = x
  rw [rget_rset_same]

theorem writeA_other (c : CellState) (i j x) (h : j ≠ i) : ((c.writeA i x).aReg j) = c.aReg j := by
  show (rget (rset c.core.a i ⟨x, (rget c.core.a i).stride⟩) j) = _
  rw [rget_rset_other _ _ _ _ h]; rfl

/-! ### Heads of engine queues (R219) -/

theorem pausedAt_nil (m : MemState) (h : m.paused = []) (k : Nat) : m.pausedAt k = false := by
  simp [MemState.pausedAt, h, Sparse.find]

/-- Sectors of one 256-byte block lie in one pseudo-channel (R281). -/
theorem pchOf_block (m : MemState) (k j : Nat) (h : k / 8 = j / 8) : m.pchOf k = m.pchOf j := by
  unfold MemState.pchOf MemState.locate locateIn
  have e1 : 32 * k / 4608000000 = 32 * j / 4608000000 := by omega
  have e2 : 32 * k % 4608000000 / 256 = 32 * j % 4608000000 / 256 := by omega
  have e3 : 32 * k % 4608000000 / 576000000 = 32 * j % 4608000000 / 576000000 := by omega
  have e4 : 32 * k % 4608000000 % 576000000 / 256 = 32 * j % 4608000000 % 576000000 / 256 := by omega
  have e5 : 32 * k % 4608000000 / 288000000 = 32 * j % 4608000000 / 288000000 := by omega
  have e6 : 32 * k % 4608000000 % 288000000 / 256 = 32 * j % 4608000000 % 288000000 / 256 := by omega
  simp only [e1, e2, e3, e4, e5, e6]

/-- An access with no copy at the host and no repair in the way needs nothing (R289, R305). -/
theorem needSnoops_one (s : State) (w : Bool) (k : Nat) (h : s.mem.snoop = [])
    (hp : Sparse.find s.mem.paused (s.mem.pchOf k) = none) : s.needSnoops w [k / 2] = none := by
  have h1 : s.mem.pausedAt (2 * (k / 2)) = false := by
    unfold MemState.pausedAt
    rw [pchOf_block s.mem (2 * (k / 2)) k (by omega), hp]; rfl
  have h2 : [k / 2].filter (fun l => s.mem.snooped w l) = [] := by simp [MemState.snooped, h]
  simp only [State.needSnoops, h2, if_true, List.any_cons, List.any_nil, h1]
  rfl

theorem needSnoops_nil (s : State) (w : Bool) (l : List Nat) (h : s.mem.snoop = []) (hp : s.mem.paused = []) :
    s.needSnoops w l = none := by
  have : l.filter (fun l => s.mem.snooped w l) = [] := by
    rw [List.filter_eq_nil_iff]; intro a _; simp [MemState.snooped, h]
  simp only [State.needSnoops, this, if_true, pausedAt_nil _ hp]
  simp

theorem queue_take (c : CellState) (i : BitVec 5) (w n : Nat) (q : BitVec 2) : (c.take i w n).queue q = c.queue q := by
  rfl

theorem takeHead_ready (s : State) (id : CellId) (q : BitVec 2) (h : QCmd) (rest : List QCmd)
   (hr : (s.cell id).HeadReady q h rest) (h0 : q = 0 → (s.cell id).mx.cmds = []) (he : engineFree (s.cell id) q h = true)
   (hs : q = 3 → s.mem.snoop = [] ∧ s.mem.paused = []) :
   s.takeHead id q h = ((s.headTaken id q h rest).startCmd id q h).headUndef s id q h := by
  obtain ⟨h1, h2, h3, h5, h6⟩ := hr
  have ha : (if q = 0 then s.readyArray id h else s) = s := by
    split
    · rename_i h7
      have := h0 h7
      simp [State.readyArray, closeTail, this]
    · rfl
  have hn : s.needSnoops false (s.headReads id q h) = none := by
    by_cases hq : q = 3
    · exact needSnoops_nil _ _ _ (hs hq).1 (hs hq).2
    · have : s.headReads id q h = [] := by unfold State.headReads; rw [if_neg (fun x => hq x.1)]
      rw [this]; simp [State.needSnoops]
  unfold State.takeHead
  simp only [h5, not_true, if_false, ha, h1, he, or_self, hn, h3, h6, Bool.false_eq_true, and_false, queue_take, h2,
    List.drop_succ_cons, List.drop_zero]
  rfl

/-- A command whose reserved fields are zero leaves nothing undefined, unless it is an LCELL into a cell of another task or
a compute part that writes into the region of a part in progress (R15, R235, R241). -/
theorem headUndef_none (s t : State) (id : CellId) (q : BitVec 2) (h : QCmd) (hz : h.word &&& reservedMask q h.word = 0)
   (hf : q = 3 → cOpc h.word = 3 → t.foreign id (lCid h.word) = false)
   (hp : q = 1 → cFuse h.word = false) : s.headUndef t id q h = s := by
  unfold State.headUndef
  simp only [if_pos hz]
  rw [if_neg (by rintro ⟨a, b, _, _, d⟩; rw [hf a b] at d; cases d),
    if_neg (by rintro ⟨a, _, c⟩; rw [hp a] at c; cases c)]

theorem runEngine_ready (s : State) (id : CellId) (q : BitVec 2) (h : QCmd) (rest : List QCmd) (mine : QWord → Bool)
   (hok : cellOk id = true) (hm : mine h.word = true)
   (hr : (s.cell id).HeadReady q h rest) (h0 : q = 0 → (s.cell id).mx.cmds = []) (he : engineFree (s.cell id) q h = true)
   (hs : q = 3 → s.mem.snoop = [] ∧ s.mem.paused = []) :
   runEngine id q mine s = .next (((s.headTaken id q h rest).startCmd id q h).headUndef s id q h) := by
  have := takeHead_ready s id q h rest hr h0 he hs
  obtain ⟨h1, h2, h3, h5, h6⟩ := hr
  unfold runEngine withCell
  simp only [hok, if_true, h2, h1, hm, this]
  simp

/-! ### Integer elements (R178) -/

theorem view_int (d e : QWord) (odd : Bool) (h : IntElem d) :
   vectorView d e odd = .inl ⟨(dOffset d).toNat, (dLdim d).toNat, .int32, 1, 1, (dOffset e).toNat, (dLdim e).toNat⟩ := by
  obtain ⟨h1, h2, h3, h4, h5, h6, h7⟩ := h
  unfold vectorView
  simp only [h2, h3, h4, h1]
  simp [EFmt.ofCode, EFmt.width, EFmt.rowBytes, EFmt.scaled, h5, TView.inStore, TView.top, h7]
  omega

theorem setCell_ns (s : State) (id : CellId) (c : CellState) : (s.setCell id c).ns = s.ns := rfl

theorem binInt_range (fn : Nat) (a b : Word) : ∃ z : Word, binInt fn a.toInt b.toInt = z.toInt := by
  have hs : ∀ n : Nat, ∃ z : Word, signedOf 32 n = z.toInt := fun n => ⟨BitVec.ofNat 32 n, by
    unfold signedOf
    rw [BitVec.toInt_eq_toNat_cond, BitVec.toNat_ofNat]
    have : n % 2^32 < 2^32 := Nat.mod_lt _ (by norm_num)
    split <;> split <;> norm_num at * <;> omega⟩
  unfold binInt
  split
  · exact hs _
  · exact hs _
  · exact hs _
  · split
    · exact ⟨-1, by decide⟩
    · exact hs _
  · rcases min_choice a.toInt b.toInt with e | e <;> rw [e]; exact ⟨a, rfl⟩; exact ⟨b, rfl⟩
  · rcases max_choice a.toInt b.toInt with e | e <;> rw [e]; exact ⟨a, rfl⟩; exact ⟨b, rfl⟩
  · split; exact ⟨1, by decide⟩; exact ⟨0, by decide⟩
  · split; exact ⟨1, by decide⟩; exact ⟨0, by decide⟩
  · exact hs _
  · exact hs _
  · exact hs _

theorem write_int (x : VCtx) (sat : Bool) (lane : Nat) (z : Word) (i : Int) :
   writeElem x sat .int32 lane ⟨.ofInt z.toInt, i, false, none⟩ = (⟨z.toNat, false, none⟩, x) := by
  have hz := z.isLt
  have h1 := z.toInt_lt
  have h2 := z.le_toInt
  norm_num at h1 h2
  unfold writeElem
  simp only [EFmt.ffmt, EFmt.width, Sys2Proof.Machine.Num.ofInt, roundInt, roundAt]
  have e1 : (max (-(2 ^ (32 - 1) : Int)) (min (2 ^ (32 - 1) - 1) (if decide (z.toInt < 0) = true then -((z.toInt.natAbs * 2 ^ (0 - 0 : Int).toNat : Nat) : Int) else ((z.toInt.natAbs * 2 ^ (0 - 0 : Int).toNat : Nat) : Int)))) = z.toInt := by
    by_cases hn : z.toInt < 0
    · simp only [hn, decide_true, if_true]; norm_num; rw [abs_of_neg hn]; omega
    · simp only [hn, decide_false]; norm_num; rw [abs_of_nonneg (by omega)]; omega
  simp only [le_refl, if_true] 
  rw [e1]
  have e2 : unsignedOf 32 z.toInt = z.toNat := by
    unfold unsignedOf
    rw [BitVec.toInt_eq_toNat_cond]; split <;> norm_num <;> omega
  rw [e2]
  simp [VCtx.took, firstNan]

theorem sgn (n : Nat) : signedOf 32 n = (BitVec.ofNat 32 n).toInt := by
  unfold signedOf
  rw [BitVec.toInt_eq_toNat_cond, BitVec.toNat_ofNat]
  have : n % 2^32 < 2^32 := Nat.mod_lt _ (by norm_num)
  split <;> split <;> norm_num at * <;> omega

theorem signedRead (m : StoreState) (a : Nat) : signedOf 32 (leNat ((m.readP a 4).map Prod.fst)) = (BitVec.ofNat 32 (m.mem.readNat 0 a 4)).toInt := by
  rw [sgn]
  unfold StoreState.readP Mem.readNat
  rw [Mem.read_eq_map, List.map_map]
  rfl

theorem readElem_int (x : VCtx) (t : TView) (m : StoreState) (lane : Nat) (hf : t.fmt = .int32) (ha : t.off % 4 = 0)
   (hp : t.off / 8 ∉ m.poison) :
   readElem x true t m 0 0 lane = (⟨.ofInt ((BitVec.ofNat 32 (m.mem.readNat 0 t.off 4)).toInt), (BitVec.ofNat 32 (m.mem.readNat 0 t.off 4)).toInt, false, none⟩, x) := by
  unfold readElem TView.bits
  simp only [hf, EFmt.width, EFmt.ffmt]
  have hpo : (m.readP (t.off + 0 * t.ldim + 0 * (32/8)) (32/8)).any Prod.snd = false := by
    simp only [StoreState.readP, List.any_map, List.any_eq_false, List.mem_range]
    intro i hi
    have : (t.off + 0 * t.ldim + 0 * (32/8) + i) / 8 = t.off / 8 := by omega
    simpa [show (t.off + i) / 8 = t.off / 8 by omega] using hp
  simp only [if_true, if_neg (show ¬ (32 = 4) by decide), hpo]
  have : t.off + 0 * t.ldim + 0 * (32/8) = t.off := by omega
  rw [this, show 32 / 8 = 4 from rfl, signedRead]

/-! ### Waybill contexts (R252) -/

theorem bitsOf_ext (w : DWord) (hi lo k : Nat) (h : hi + 1 - lo = k) : BitVec.ofNat k (bitsOf w.toNat hi lo) = w.extractLsb' lo k := by
  apply BitVec.eq_of_toNat_eq
  subst h
  simp [bitsOf, Nat.shiftRight_eq_div_pow]

theorem bitsOf_nat (w : DWord) (hi lo k : Nat) (h : hi + 1 - lo = k) : bitsOf w.toNat hi lo = (w.extractLsb' lo k : BitVec k).toNat := by
  subst h
  simp [bitsOf, Nat.shiftRight_eq_div_pow]

theorem put_put : ∀ (l : Sparse CellState) (k : Nat) (a b : CellState), (l.put k a).put k b = l.put k b := by
      intro l k a b
      induction l with
      | nil => simp [Sparse.put]
      | cons e rest ih =>
        obtain ⟨i, v⟩ := e
        by_cases h1 : k < i
        · simp [Sparse.put, h1]
        · by_cases h2 : k = i
          · simp [Sparse.put, h2]
          · simp [Sparse.put, h1, h2, ih]

theorem setCell_setCell (s : State) (id : CellId) (a b : CellState) : (s.setCell id a).setCell id b = s.setCell id b := by
  unfold State.setCell; simp only [put_put]

/-- A context that runs an instruction whose bits are right fetches it and does what it says (R253, R258). -/
theorem wb_eq (s : State) (id : CellId) (i : BitVec 2) (w : DWord) (op : WbOp) (hok : cellOk id = true)
   (hr : (s.cell id).CtxRuns i) (ho : wbOpOf (wbOp w.toNat) = some op) (hl : op.legal w.toNat = true) :
   wbInstr id i w s = .next (op.run id i w.toNat (s.setCell id (((s.cell id).fetched i).stamp s.ns))) := by
  obtain ⟨h1, h2, h3, h4, h5, h6, h7⟩ := hr
  have ht : s.wbFetch id i = s.setCell id (((s.cell id).fetched i).stamp s.ns) := by
    have hb : (if (rget (s.cell id).wb i).buf.contains ((rget (s.cell id).wb i).pc / 32) = true then s
        else s.touchStore id [4 * ((rget (s.cell id).wb i).pc / 32), 4 * ((rget (s.cell id).wb i).pc / 32) + 1,
          4 * ((rget (s.cell id).wb i).pc / 32) + 2, 4 * ((rget (s.cell id).wb i).pc / 32) + 3]) = s := by
      rcases h7 with h7 | h7
      · simp [h7]
      · rw [State.touchStore_clean s id _ (by
          have h0 := h7 0 (by omega); have h1 := h7 1 (by omega); have h2 := h7 2 (by omega); have h3 := h7 3 (by omega)
          simp only [Nat.add_zero] at h0
          simp only [List.mem_cons, List.not_mem_nil, or_false]
          rintro x (rfl | rfl | rfl | rfl) <;> assumption)]
        simp
    unfold State.wbFetch
    simp only [hb]
    rfl
  unfold wbInstr withCell
  simp only [hok, if_true]
  rw [if_neg (by simp [CellState.ctxHeld, h1, h2, h3, h4, h5]), if_neg (by omega), ht]
  simp only [ho, hl, if_true]

/-! ### Sectors of HBM (R290) -/

theorem readHbm_clean (m : MemState) (k : Nat) (h : k ∉ m.poison) : m.readHbm (32 * k) 32 = (List.range 32).map fun i => (m.hbm.get 0 (32 * k + i), false) := by
  unfold MemState.readHbm
  apply List.map_congr_left
  intro i hi
  have : (32 * k + i) / 32 = k := by have := List.mem_range.1 hi; omega
  simp [this, h]

theorem readHbm_bad (m : MemState) (k : Nat) (h : k ∈ m.poison) : m.readHbm (32 * k) 32 = (List.range 32).map fun i => (m.hbm.get 0 (32 * k + i), true) := by
  unfold MemState.readHbm
  apply List.map_congr_left
  intro i hi
  have : (32 * k + i) / 32 = k := by have := List.mem_range.1 hi; omega
  simp [this, h]

/-! ### Host reads (R306) -/

theorem freshNat_eq (s : State) : s.freshNat = (Config.freeNat s.free, s.skipFree 1) := rfl

theorem readSector_fold (l : List Nat) (src : Nat) (s : State) : (l.foldl (fun s k => s.readSector k [] src) s) = s := by
  induction l generalizing s with
  | nil => rfl
  | cons a r ih => simp [State.readSector, ih]

theorem rget_rset {α : Type} {n : Nat} (v : Vector α (2 ^ n)) (i : BitVec n) (a : α) : rget (rset v i a) i = a := by
  unfold rget rset; simp

/-! ### Arbiter decisions (R314) -/

theorem elig (b : BitVec 3) (t : Timetable) (a : Arb) (reqs : BitVec 16) (r : BitVec 4) :
   (eligible b t a reqs).getLsbD r.toNat = true ↔
      reqs.getLsbD r.toNat = true ∧ (requesters b).getLsbD r.toNat = true ∧ (t.quota r = 64 ∨ a.used.at 0 r.toNat < t.quota r) := by
  have gen : ∀ (l : List Nat) (m : BitVec 16) (i : Nat), i < 16 → ((l.foldl (fun (m : BitVec 16) r => m ||| (1 <<< r)) m).getLsbD i = true ↔ m.getLsbD i = true ∨ i ∈ l) := by
    intro l
    induction l with
    | nil => simp
    | cons c rest ih =>
      intro m i hi
      rw [List.foldl_cons, ih _ _ hi]
      simp only [BitVec.getLsbD_or, Bool.or_eq_true, List.mem_cons]
      have : (((1 <<< c : Nat) : BitVec 16)).getLsbD i = true ↔ i = c := by
        show (BitVec.ofNat 16 (1 <<< c)).getLsbD i = true ↔ i = c
        rw [BitVec.getLsbD_ofNat, Nat.one_shiftLeft, Nat.testBit_two_pow]
        simp [hi]; omega
      rw [this, or_assoc]
  unfold eligible
  rw [gen _ _ _ (by have := r.isLt; omega)]
  simp only [List.mem_filter, List.mem_range, BitVec.getLsbD_and, Bool.and_eq_true, Timetable.token, decide_eq_true_eq]
  have := r.isLt
  have h1 : BitVec.ofNat 4 r.toNat = r := by simp
  rw [h1]
  have h0 : (0 : BitVec 16).getLsbD r.toNat = false := by simp
  rw [h0]
  constructor
  · rintro (h | h); · cases h
    exact ⟨h.2.1.1, h.2.1.2, h.2.2⟩
  · rintro ⟨h1, h2, h3⟩; right; exact ⟨by omega, ⟨h1, h2⟩, h3⟩

theorem decide_bg (a : Arb) (b : BitVec 3) (t : Timetable) (n : BitVec 6) (reqs : BitVec 16) 
   (h : ∀ o, t.owner n = some o → (eligible b t a reqs).getLsbD o.toNat = false) :
   a.decide b t n reqs = match rankFirst a.lastbg (if eligible b t a reqs &&& ~~~t.bg = 0 then eligible b t a reqs else eligible b t a reqs &&& ~~~t.bg) with
    | some r => { a with lastbg := r, grant := some r, used := a.used.put r.toNat (a.used.at 0 r.toNat + 1) }
    | none => { a with grant := none } := by
  unfold Arb.decide
  cases ho : t.owner n with
  | none => rfl
  | some o => simp only [h o ho]; rfl

theorem find_first {α : Type} (f : Nat → α) (p : α → Bool) (i : Nat) : ∀ n, i < n → p (f i) = true → (∀ j < i, p (f j) = false) → ((List.range n).map f).find? p = some (f i) := by
  intro n hn hp hj
  rw [List.find?_eq_some_iff_getElem]
  refine ⟨hp, i, by simpa using hn, by simp, ?_⟩
  intro j hj'
  simp [hj j hj']

/-! ### Starts that fail (R511) -/

theorem issueEvent_frame (s : State) : ∃ ev d h, s.issueEvent = { s with events := ev, dbg := d, hif := h } := by
  unfold State.issueEvent
  simp only
  split
  · exact ⟨s.events, s.dbg, s.hif, rfl⟩
  · split
    · split
      · exact ⟨s.events, s.dbg, s.hif, rfl⟩
      · exact ⟨s.events, s.dbg, _, rfl⟩
    · split
      · exact ⟨_, _, _, rfl⟩
      · split
        · exact ⟨s.events, s.dbg, s.hif, rfl⟩
        · exact ⟨s.events, s.dbg, _, rfl⟩

theorem offerEvent_frame (s : State) (e : Event) : ∃ ev d h, s.offerEvent e = { s with events := ev, dbg := d, hif := h } := by
  unfold State.offerEvent
  simp only
  split
  · exact ⟨s.events, s.dbg, s.hif, rfl⟩
  · split
    · exact ⟨s.events, s.dbg, _, rfl⟩
    · obtain ⟨ev, d, h, e⟩ := issueEvent_frame { s with hif := { s.hif with evQueue := s.hif.evQueue ++ [e] } }
      exact ⟨ev, d, h, e⟩

theorem raise_frame (s : State) (code : Nat) (sev : Severity) (f : List (Nat × Nat)) :
    ∃ ev d h, s.raise code sev f = { s with events := ev, dbg := d, hif := h } := by
  unfold State.raise
  split
  · obtain ⟨ev, d, h, e⟩ := offerEvent_frame (s.logEvent ⟨BitVec.ofNat 16 code, sev, if s.ltRuns then s.ns else 0, pay f⟩) ⟨BitVec.ofNat 16 code, sev, if s.ltRuns then s.ns else 0, pay f⟩
    exact ⟨ev, d, h, e⟩
  · exact ⟨s.events, s.dbg, s.hif, rfl⟩

theorem failStart_facts (s : State) (r : StartRun) (hr : s.fw.run = some r) (reason : Nat) :
   ∃ t, s.failStart reason = t ∧ t.fw.run = none ∧ t.fw.fails.toNat = min 3 (s.fw.fails.toNat + 1) ∧
      t.fw.lastFail = BitVec.ofNat 5 reason ∧ t.fw.stage = BitVec.ofNat 5 r.step ∧ t.pwr.main = false ∧ t.pwr.off = .failed ∧
      (s.fw.depot = false → s.fw.fails.toNat < 2 → t.fw.retryFrom = some s.ns ∧ t.fw.depot = false) ∧
      (s.fw.depot = false → 2 ≤ s.fw.fails.toNat → t.fw.retryFrom = none ∧ t.fw.depot = true) := by
  obtain ⟨s1, hs1⟩ : ∃ s1, s1 = s.raise 0x0B05 .error [(1, r.req.kind.code), (1, reason), (1, r.step), (1, min 3 (s.fw.fails.toNat + 1))] := ⟨_, rfl⟩
  have hs1fw : s1.fw = s.fw := by obtain ⟨_, _, _, e⟩ := raise_frame s 0x0B05 .error [(1, r.req.kind.code), (1, reason), (1, r.step), (1, min 3 (s.fw.fails.toNat + 1))]; rw [hs1, e]
  have hs1ns : s1.ns = s.ns := by obtain ⟨_, _, _, e⟩ := raise_frame s 0x0B05 .error [(1, r.req.kind.code), (1, reason), (1, r.step), (1, min 3 (s.fw.fails.toNat + 1))]; rw [hs1, e]; rfl
  obtain ⟨s2, hs2⟩ : ∃ s2, s2 = s1.mainOff .failed := ⟨_, rfl⟩
  have hd2 : s2.fw.depot = s.fw.depot := by rw [hs2, ← hs1fw]; rfl
  have hsp : ∀ (x : State) (q : PwrState), (x.setPwr q).pwr.main = q.main ∧ (x.setPwr q).pwr.off = q.off := by
    intro x q; unfold State.setPwr; dsimp only; split <;> exact ⟨rfl, rfl⟩
  have hm2 : s2.pwr.main = false ∧ s2.pwr.off = .failed := by
    rw [hs2]; unfold State.mainOff; dsimp only
    exact hsp _ _
  have hf : (BitVec.ofNat 2 (min 3 (s.fw.fails.toNat + 1))).toNat = min 3 (s.fw.fails.toNat + 1) := by
    simp
  refine ⟨_, rfl, ?_⟩
  unfold State.failStart
  split
  · next h => rw [hr] at h; cases h
  rename_i r' h
  obtain rfl : r' = r := by rw [hr] at h; cases h; rfl
  dsimp only
  rw [← hs1, ← hs2]
  split
  · next hd => refine ⟨rfl, hf, rfl, rfl, hm2.1, hm2.2, fun h => ?_, fun h => ?_⟩ <;> (rw [← hd2] at h; exact absurd hd (by simp [h]))
  · split
    · next h3 =>
      obtain ⟨ev, d, hh, e⟩ := raise_frame { s2 with fw := { s2.fw with run := none, fails := BitVec.ofNat 2 (min 3 (s.fw.fails.toNat + 1)), lastFail := BitVec.ofNat 5 reason, stage := BitVec.ofNat 5 r'.step, depot := true, retryFrom := none } } 0x0B06 .error [(1, reason)]
      rw [e]
      exact ⟨rfl, hf, rfl, rfl, hm2.1, hm2.2, fun _ h => by omega, fun _ _ => ⟨rfl, rfl⟩⟩
    · next hd h3 =>
      refine ⟨rfl, hf, rfl, rfl, hm2.1, hm2.2, fun h _ => ⟨?_, ?_⟩, fun _ h => by omega⟩
      · rfl
      · show s2.fw.depot = false
        rw [hd2, h]

/-! ### Updates (R513) -/

theorem stage_fst (s : State) (b : Bundle) (src : Nat) : (s.stageBundle b src).2 = true ↔ s.fw.reject b = 0 := by
  unfold State.stageBundle; dsimp only; split
  · next h => simp [h]
  · next h => simp [h]

theorem act_match (s : State) (a : Activation) (b : Bundle) (h : s.fw.act = some a) (hb : s.fw.staged = some b) (hn : a.began = none) :
  s.tryActivate = match s.defers with
      | none =>
        { s with fw := { s.fw with act := some { a with began := some s.ns, doneTo := 0, inHand := none }, updState := 3
                                   updComp := 1, deferS := BitVec.ofNat 16 (min 0xFFFF (((s.ns : Int) - a.asked) / 1000000000).toNat) } }
      | some c =>
        if a.deferred.isSome then s
        else ({ s with fw := { s.fw with act := some { a with deferred := some c }, updState := 2, updReason := BitVec.ofNat 8 c } } : State).raise 0x0B08 .info [(1, c), (4, b.svn.toNat)] := by
  unfold State.tryActivate
  split
  · next a' b' h1 h2 =>
    rw [h] at h1; rw [hb] at h2
    obtain rfl := Option.some.inj h1
    obtain rfl := Option.some.inj h2
    rw [if_neg (by rw [hn]; simp)]
    try rfl
  · next hx => exact absurd hb (by intro h2; exact hx _ _ h h2)

/-! ### Events and collectives -/

theorem raise_col (s : State) (code : Nat) (sev : Severity) (f : List (Nat × Nat)) : (s.raise code sev f).col = s.col := by
  obtain ⟨_, _, _, e⟩ := raise_frame s code sev f; rw [e]

/-! ### Ports (R386) -/

theorem modPort_set (s : State) (p : BitVec 3) (f) : s.modPort p.toNat f = s.setPort p (f (rget s.lnk.ports p)) := by
  unfold State.modPort State.setPort
  simp only [BitVec.ofNat_toNat, BitVec.setWidth_eq]

theorem port_get (s : State) (p : BitVec 3) : s.port p.toNat = rget s.lnk.ports p := by
  unfold State.port LnkState.port
  simp only [BitVec.ofNat_toNat, BitVec.setWidth_eq]

theorem withPort_run (s : State) (p : BitVec 3) (f) (h : p.toNat < 6) (ho : s.portsOn = true) : withPort p s f = .next (f p.toNat) := by
  unfold withPort; rw [if_neg (by omega), if_pos ho]

theorem portsOn_main (s : State) (h : s.portsOn = true) : s.pwr.main = true := by
  unfold State.portsOn at h; simp only [Bool.and_eq_true] at h; exact h.1

theorem drop_to {α} (pr : α → Bool) (older : List α) (f : α) (newer : List α) (h : ∀ g ∈ older, pr g = true) (hf : pr f = false) :
    (older ++ f :: newer).dropWhile pr = f :: newer := by
  induction older with
  | nil => simp [hf]
  | cons c r ih => simp [h c (by simp)]; exact ih (fun g hg => h g (by simp [hg]))

/-! ### Ports and tables -/

theorem rset_rget {α} {n} (v : Vector α (2^n)) (i : BitVec n) : rset v i (rget v i) = v := by
  unfold rset rget; simp

theorem setPort_self (s : State) (p : BitVec 3) (k : LnkPort) (h : k = rget s.lnk.ports p) : s.setPort p k = s := by
  unfold State.setPort; rw [h, rset_rget]

/-! ### Queue pairs and regions (R409) -/

theorem qpUp_iff (l : LnkState) (qp : Nat) (q : QueuePair) (h : l.qps.find qp = some q) :
    l.qpUp qp = true ↔ q.failed = false ∧ (if q.port then l.speed1 else l.speed0) ≠ 0 := by
  unfold LnkState.qpUp; rw [h]; simp

theorem region_iff (l : LnkState) (key : BitVec 32) (addr n : Nat) :
    l.region key addr n = true ↔ ∃ r ∈ l.regions, r.2.key = key ∧ r.2.base ≤ addr ∧ addr + n ≤ r.2.base + r.2.len := by
  unfold LnkState.region; rw [List.any_eq_true]; simp

/-! ### Dies (R478) -/

theorem modDie_congr (p : PwrState) (n : Nat) (f g : DiePower → DiePower) (h : f (p.die n) = g (p.die n)) : p.modDie n f = p.modDie n g := by
  unfold PwrState.modDie; unfold PwrState.die at h; dsimp only; rw [h]

theorem rget_rset_iff {α} {n} (v : Vector α (2^n)) (i j : BitVec n) (x : α) : rget (rset v i x) j = if i = j then x else rget v j := by
  unfold rget rset
  rw [Vector.getElem_set]
  by_cases h : i = j
  · subst h; simp
  · rw [if_neg (by intro h'; exact h (BitVec.eq_of_toNat_eq h')), if_neg h]

theorem die_modDie (p : PwrState) (n m : Nat) (f) (hn : n < 16) (hm : m < 16) : (p.modDie n f).die m = if n = m then f (p.die m) else p.die m := by
  unfold PwrState.modDie PwrState.die; dsimp only; rw [rget_rset_iff]
  by_cases h : n = m
  · subst h; simp
  · rw [if_neg (by intro h'; have := congrArg BitVec.toNat h'; simp at this; omega), if_neg h]

theorem withDie_ok (die : BitVec 4) (s : State) (h : die.toNat ≤ 8) : withDie die s = .next s := if_pos h

theorem foldl_modDie (f : Nat → DiePower → DiePower) : ∀ (l : List Nat) (p : PwrState), l.Nodup → (∀ n ∈ l, n < 16) → ∀ m < 16,
   (l.foldl (fun p n => p.modDie n (f n)) p).die m = if m ∈ l then f m (p.die m) else p.die m := by
  intro l
  induction l with
  | nil => intro p _ _ m _; simp
  | cons a r ih =>
    intro p hn hl m hm
    rw [List.foldl_cons, ih _ (List.nodup_cons.1 hn).2 (fun n h => hl n (by simp [h])) m hm]
    rw [die_modDie _ _ _ _ (hl a (by simp)) hm]
    have ha := (List.nodup_cons.1 hn).1
    by_cases h1 : m ∈ r
    · have : a ≠ m := by rintro rfl; exact ha h1
      simp [h1, this]
    · by_cases h2 : a = m
      · subst h2; simp [h1]
      · have : ¬ m = a := fun h => h2 h.symm
        simp [h1, h2, this]

theorem foldl_other (f : Nat → DiePower → DiePower) (l : List Nat) (p : PwrState) : ∃ d, l.foldl (fun p n => p.modDie n (f n)) p = { p with dies := d } := by
  induction l generalizing p with
  | nil => exact ⟨p.dies, rfl⟩
  | cons a r ih =>
    obtain ⟨d, e⟩ := ih (p.modDie a (f a))
    exact ⟨d, by rw [List.foldl_cons, e]; rfl⟩

/-- The parity commit (R449, R452), over the state with its header written. -/
theorem parityCommit_eq (s : State) (e f : Nat) (t : State)
    (h : t = ((s.setHeader 8 8 e).setHeader (24 + 8 * (e % 2)) 8 e).setHeader (40 + e % 2) 1 f) :
    s.parityCommit e f = { t with
      rcv := { t.rcv with relays := t.rcv.relays.filter fun q => q.rebuild, slicesDone := [] }
      col := { t.col with coming := t.col.coming ++ [⟨.epoch, 0, 1, 2, s.rcv.epochGroup, 0, 0, 0, 0, 0, false⟩] } } := by
  unfold State.parityCommit
  rw [← h]

/-! ### The brake (R529) -/

theorem raise_dbg (s : State) (code : Nat) (sev : Severity) (f : List (Nat × Nat)) :
    ∃ ev d h, s.raise code sev f = { s with events := ev, dbg := d, hif := h } ∧
      d.braked = s.dbg.braked ∧ d.source = s.dbg.source ∧ d.brakeLt = s.dbg.brakeLt ∧ d.ir = s.dbg.ir := by
  obtain ⟨ev, a, b, h, e⟩ := s.raise_frame code sev f
  exact ⟨ev, _, h, e, rfl, rfl, rfl, rfl⟩

/-- What triggering a trace changes. -/
theorem trigger_frame (s : State) (k a b c : Nat) (lt : BitVec 64) :
    ∃ bx ev d h, (s.trigger k a b c lt).1 = { s with boxes := bx, events := ev, dbg := d, hif := h } ∧
      d.braked = s.dbg.braked ∧ d.source = s.dbg.source ∧ d.brakeLt = s.dbg.brakeLt ∧ d.ir = s.dbg.ir := by
  unfold State.trigger
  dsimp only
  split
  · obtain ⟨bx, d, h, e, a, b, c, g⟩ := raise_dbg (s.modTrace k fun t => { (t.stage ⟨0x00FE, 0, 0, s.boxLt k, pay [(2, b), (1, a), (1, c), (8, lt.toNat)]⟩) with triggered := true }) 0x0C02 .info [(1, clusterIndex k), (1, a), (2, b)]
    exact ⟨_, bx, d, h, e, a, b, c, g⟩
  · exact ⟨s.boxes, s.events, s.dbg, s.hif, rfl, rfl, rfl, rfl, rfl⟩

theorem brakeTrace_frame (s : State) (k : Nat) :
    ∃ bx ev d h, s.brakeTrace k = { s with boxes := bx, events := ev, dbg := d, hif := h } ∧
      d.braked = s.dbg.braked ∧ d.source = s.dbg.source ∧ d.brakeLt = s.dbg.brakeLt ∧ d.ir = s.dbg.ir := by
  obtain ⟨bx, ev, d, h, e, a⟩ := trigger_frame s k 5 0x7FF (clusterIndex k) (s.boxLt k)
  unfold State.brakeTrace
  dsimp only
  rw [e]
  exact ⟨_, ev, d, h, rfl, a⟩

theorem foldBrake (l : List Nat) (s : State) :
    ∃ bx ev d h, l.foldl State.brakeTrace s = { s with boxes := bx, events := ev, dbg := d, hif := h } ∧
      d.braked = s.dbg.braked ∧ d.source = s.dbg.source ∧ d.brakeLt = s.dbg.brakeLt ∧ d.ir = s.dbg.ir := by
  induction l generalizing s with
  | nil => exact ⟨s.boxes, s.events, s.dbg, s.hif, rfl, rfl, rfl, rfl, rfl⟩
  | cons k l ih =>
    obtain ⟨_, _, _, _, e, a1, a2, a3, a4⟩ := brakeTrace_frame s k
    obtain ⟨bx, ev, d, h, e2, b1, b2, b3, b4⟩ := ih (s.brakeTrace k)
    refine ⟨bx, ev, d, h, ?_, ?_, ?_, ?_, ?_⟩
    · rw [List.foldl_cons, e2, e]
    all_goals (rw [e] at b1 b2 b3 b4; simp_all)

theorem brake_facts (s : State) (k : Nat) (h1 : s.pwr.main = true) (h2 : s.dbg.braked = false) :
    (s.brake k).dbg.braked = true ∧ (s.brake k).dbg.source = BitVec.ofNat 3 k ∧
    (s.brake k).dbg.brakeLt.toNat = (if s.ltRuns then s.ns else 0) % 2 ^ 64 ∧
    (s.brake k).cells = s.cells.map (fun e => (e.1, e.2.stop)) ∧ (s.brake k).mem = s.mem ∧
    (s.brake k).lnk.qps = s.lnk.qps.map (fun q => (q.1, { q.2 with failed := true })) ∧
    (s.brake k).dbg.ir = s.dbg.ir := by
  unfold State.brake
  rw [if_neg (by simp [h1, h2])]
  dsimp only
  generalize hs1 : ({ s with cells := _, dbg := _, lnk := _ } : State) = s1
  have e1 : s1.discardGrants.dbg.braked = true ∧ s1.discardGrants.dbg.source = BitVec.ofNat 3 k ∧
      s1.discardGrants.dbg.brakeLt = BitVec.ofNat 64 (if s.ltRuns then s.ns else 0) ∧
      s1.discardGrants.cells = s.cells.map (fun e => (e.1, e.2.stop)) ∧ s1.discardGrants.mem = s.mem ∧
      s1.discardGrants.lnk.qps = s.lnk.qps.map (fun q => (q.1, { q.2 with failed := true })) ∧
      s1.discardGrants.dbg.ir = s.dbg.ir := by
    subst hs1; exact ⟨rfl, rfl, rfl, rfl, rfl, rfl, rfl⟩
  obtain ⟨a1, a2, a3, a4, a5, a6, a7⟩ := e1
  obtain ⟨bx, ev, d, h, e, b1, b2, b3, b4⟩ := foldBrake s1.boxKeys s1.discardGrants
  rw [e]
  obtain ⟨ev2, d2, h2', e2, c1, c2, c3, c4⟩ := raise_dbg
    { s1.discardGrants with boxes := bx, events := ev, dbg := d, hif := h } 0x0C01 .error [(1, k), (8, if s.ltRuns then s.ns else 0)]
  rw [e2]
  refine ⟨?_, ?_, ?_, a4, a5, a6, ?_⟩
  · exact c1.trans (b1.trans a1)
  · exact c2.trans (b2.trans a2)
  · show d2.brakeLt.toNat = _
    rw [c3]; show d.brakeLt.toNat = _; rw [b3, a3]; simp
  · exact c4.trans (b4.trans a7)

theorem served_iff (s : State) (space : Nat) (id : CellId) (off n : Nat) :
    s.scanServed space id off n = true ↔ s.pwr.main = true ∧ s.dbg.braked = true ∧ cellOk id = true ∧
      ∃ size, scanSize space = some size ∧ off + n ≤ size := by
  unfold State.scanServed
  cases h : scanSize space <;> simp [and_assoc]

/-! ### Register reads (R521) -/

theorem readRun_steps (n off : Nat) (s : State) : ∃ at' : Nat → State, at' 0 = s ∧ (State.readRun off n s).1.length = n ∧
    (∀ k < n, at' (k + 1) = ((at' k).readSide (off + 4 * k)).2 ∧
      (State.readRun off n s).1[k]? = some ((at' k).readSide (off + 4 * k)).1.toNat) ∧ at' n = (State.readRun off n s).2 := by
  induction n generalizing off s with
  | zero => exact ⟨fun _ => s, rfl, rfl, fun k hk => absurd hk (by omega), rfl⟩
  | succ n ih =>
    obtain ⟨f, f0, fl, fk, fe⟩ := ih (off + 4) (s.readSide off).2
    refine ⟨fun k => match k with | 0 => s | k + 1 => f k, rfl, ?_, ?_, ?_⟩
    · simp [State.readRun, fl]
    · rintro (_ | k) hk
      · exact ⟨f0, by simp [State.readRun]⟩
      · obtain ⟨a, b⟩ := fk k (by omega)
        have e : off + 4 + 4 * k = off + 4 * (k + 1) := by omega
        rw [e] at a b
        exact ⟨a, by simpa [State.readRun] using b⟩
    · simpa [State.readRun] using fe

/-! ### Traces (R524) -/

theorem modTrace_self (s : State) (k : Nat) (c : TraceState) (f : TraceState → TraceState) (h : c = f (s.box k).trace) :
    s.modTrace k f = s.modTrace k fun _ => c := State.modTrace_congr s k _ _ (by rw [h])

theorem traceEntry_eq (s : State) (die cluster code sev cell payload) (h : cluster.toNat < 9) :
    exec (.traceEntry die cluster code sev cell payload) s =
      .next (if s.dbg.braked then s else s.traceEntry (16 * die.toNat + cluster.toNat) code.toNat sev.toNat cell payload) := by
  show (if cluster.toNat < 9 then _ else _) = _; rw [if_pos h]

theorem traceWrite_eq (s : State) (die cluster) (h : cluster.toNat < 9) :
    exec (.traceWrite die cluster) s = .next (s.traceWrite (16 * die.toNat + cluster.toNat)) := by
  show (if cluster.toNat < 9 then _ else _) = _; rw [if_pos h]

theorem traceWrite_cons (s : State) (k : Nat) (e : TraceEntry) (rest) (h1 : s.pwr.main = true) (h2 : (s.box k).trace.armed = true)
    (h3 : (s.box k).trace.staging = e :: rest) (f : TraceState → TraceState)
    (hb : (s.modTrace k fun t => { t with staging := rest }).bufferEntry k e = s.modTrace k f)
    (hs : (f (s.box k).trace).stopping = false) :
    s.traceWrite k = s.modTrace k f := by
  unfold State.traceWrite; dsimp only
  rw [if_neg (by simp [h1, h2])]
  split
  · rename_i e' r' h
    rw [h3] at h; cases h
    rw [hb, State.modTrace_modTrace]
    apply State.modTrace_congr
    unfold TraceState.settle; rw [if_neg (by simp [hs])]
  · rename_i h; rw [h3] at h; cases h

theorem dropHeld_some (s : State) (k : Nat) (e : TraceEntry) (rest : List TraceEntry) (a : Nat × Nat × BitVec 64 × BitVec 64)
    (h1 : (s.box k).trace.held = some a) (h2 : (s.box k).trace.ovfRaised = true) :
    (s.modTrace k fun t => { t with staging := rest }).dropHeld k e.lt = s.modTrace k fun _ =>
      { (s.box k).trace with staging := rest, held := some (a.1, a.2.1 + 1, a.2.2.1, e.lt), dropped := satInc (s.box k).trace.dropped
                             slots := Sparse.put (s.box k).trace.slots a.1 { overflowEntry (a.2.1 + 1) a.2.2.1 e.lt with
                               seq := (Sparse.at (overflowEntry (a.2.1 + 1) a.2.2.1 e.lt) (s.box k).trace.slots a.1).seq } } := by
  obtain ⟨i, n, a, b⟩ := a
  unfold State.dropHeld State.countDrop; dsimp only
  simp only [State.box_modTrace, State.modTrace_modTrace, h1, h2, if_true]

theorem dropHeld_none (s : State) (k : Nat) (e : TraceEntry) (rest : List TraceEntry)
    (hm : (s.box k).trace.mode = 1) (h1 : (s.box k).trace.held = none) (h2 : (s.box k).trace.ovfRaised = true) :
    (s.modTrace k fun t => { t with staging := rest }).dropHeld k e.lt = s.modTrace k fun _ =>
      { (s.box k).trace with staging := rest, stopped := true, dropped := satInc (s.box k).trace.dropped
                             slots := Sparse.put (s.box k).trace.slots (s.box k).trace.wr
                               { overflowEntry 1 e.lt e.lt with seq := (s.box k).trace.seq }
                             seq := (s.box k).trace.seq + 1, held := some ((s.box k).trace.wr, 1, e.lt, e.lt) } := by
  have hm' : TraceState.mode { (s.box k).trace with staging := rest } = 1 := hm
  unfold State.dropHeld State.countDrop; dsimp only
  simp only [State.box_modTrace, State.modTrace_modTrace, h1, h2, if_true, hm']
  apply State.modTrace_congr
  simp [← h2]
  intro _ _ h; exact absurd hm h

theorem raise_braked (s : State) (c : Nat) (v : Severity) (f : List (Nat × Nat)) :
    (s.raise c v f).dbg.braked = s.dbg.braked ∧ (s.raise c v f).dbg.source = s.dbg.source := by
  obtain ⟨_, _, _, _, e⟩ := s.raise_frame c v f; rw [e]; exact ⟨rfl, rfl⟩

theorem trigger_braked (s : State) (k a b c : Nat) (lt : BitVec 64) :
    (s.trigger k a b c lt).1.dbg.braked = s.dbg.braked ∧ (s.trigger k a b c lt).1.dbg.source = s.dbg.source ∧
    (s.trigger k a b c lt).1.pwr = s.pwr := by
  unfold State.trigger; dsimp only; split
  · rw [State.raise_pwr]; exact ⟨(raise_braked _ _ _ _).1, (raise_braked _ _ _ _).2, rfl⟩
  · exact ⟨rfl, rfl, rfl⟩

theorem fold_braked (l : List Nat) (s : State) :
    (l.foldl State.brakeTrace s).dbg.braked = s.dbg.braked ∧ (l.foldl State.brakeTrace s).dbg.source = s.dbg.source := by
  induction l generalizing s with
  | nil => exact ⟨rfl, rfl⟩
  | cons k l ih =>
    obtain ⟨a, b⟩ := ih (s.brakeTrace k)
    obtain ⟨c, d, _⟩ := trigger_braked s k 5 0x7FF (clusterIndex k) (s.boxLt k)
    exact ⟨a.trans c, b.trans d⟩

theorem brake_braked (s : State) (k : Nat) (h1 : s.pwr.main = true) (h2 : s.dbg.braked = false) :
    (s.brake k).dbg.braked = true ∧ (s.brake k).dbg.source = BitVec.ofNat 3 k := by
  unfold State.brake; rw [if_neg (by simp [h1, h2])]; dsimp only
  refine ⟨(raise_braked _ _ _ _).1.trans ((fold_braked _ _).1.trans rfl), (raise_braked _ _ _ _).2.trans ((fold_braked _ _).2.trans rfl)⟩

theorem trig_outcome (s : State) (k : Nat) (source cell origin : Nat) (lt : BitVec 64) (hm : s.pwr.main = true) :
    let t := (s.box k).trace
    let ready := t.armed = true ∧ t.stopping = false ∧ t.mode = 3 ∧ t.triggered = false
    (¬ ready → s.triggerTrace k source cell origin lt = s) ∧
    (ready → t.trig.getLsbD 30 = false → s.triggerTrace k source cell origin lt =
      (s.modTrace k fun t => { (t.stage ⟨0x00FE, 0, 0, s.boxLt k, pay [(2, cell), (1, source), (1, origin), (8, lt.toNat)]⟩) with triggered := true }).raise 0x0C02 .info
        [(1, clusterIndex k), (1, source), (2, cell)]) ∧
    (ready → t.trig.getLsbD 30 = true → s.dbg.braked = false →
      (s.triggerTrace k source cell origin lt).dbg.braked = true ∧ (s.triggerTrace k source cell origin lt).dbg.source = 3) := by
  intro t ready
  have e1 : ready → s.trigger k source cell origin lt = ((s.modTrace k fun t => { (t.stage ⟨0x00FE, 0, 0, s.boxLt k, pay [(2, cell), (1, source), (1, origin), (8, lt.toNat)]⟩) with triggered := true }).raise 0x0C02 .info
        [(1, clusterIndex k), (1, source), (2, cell)], true) := by
    rintro ⟨a, b, c, d⟩; unfold State.trigger; dsimp only
    rw [if_pos ⟨a, by rw [show (s.box k).trace.stopping = false from b]; simp, c, by rw [show (s.box k).trace.triggered = false from d]; simp⟩]
  have e2 : ¬ ready → s.trigger k source cell origin lt = (s, false) := by
    intro h; unfold State.trigger; dsimp only
    rw [if_neg (by rintro ⟨a, b, c, d⟩; exact h ⟨a, by simpa using b, c, by simpa using d⟩)]
  refine ⟨fun h => ?_, fun h h2 => ?_, fun h h2 h3 => ?_⟩
  · unfold State.triggerTrace; rw [e2 h]; rfl
  · unfold State.triggerTrace; rw [e1 h]; dsimp only
    rw [if_neg (by rintro ⟨_, x⟩; rw [show (s.box k).trace.trig.getLsbD 30 = false from h2] at x; cases x)]
  · obtain ⟨a, b, c⟩ := trigger_braked s k source cell origin lt
    have : s.triggerTrace k source cell origin lt = (s.trigger k source cell origin lt).1.brake 3 := by
      unfold State.triggerTrace; rw [e1 h]; dsimp only; rw [if_pos ⟨rfl, h2⟩]
    rw [this]
    exact brake_braked _ 3 (by rw [c]; exact hm) (by rw [a]; exact h3)

/-! ### What the brake, events and supplies leave of power and firmware -/

theorem raise_mr (s : State) (a b c) : (s.raise a b c).modReady = s.modReady := by
  obtain ⟨_, _, _, _, e⟩ := s.raise_frame a b c; rw [e]; rfl

/-- Power and firmware are as before. -/
def PF (s t : State) : Prop := t.pwr = s.pwr ∧ t.fw = s.fw

theorem pf_mr {s t : State} (h : PF s t) : t.modReady = s.modReady := by
  unfold State.modReady; rw [h.1, h.2]

theorem raise_pf (s : State) (a b c) : PF s (s.raise a b c) := by
  obtain ⟨_, _, _, _, e⟩ := s.raise_frame a b c; rw [e]; exact ⟨rfl, rfl⟩

theorem pf_trans {a b c : State} (h : PF a b) (h' : PF b c) : PF a c := ⟨h'.1.trans h.1, h'.2.trans h.2⟩

theorem brakeTrace_pf (s : State) (k : Nat) : PF s (s.brakeTrace k) := by
  unfold State.brakeTrace State.trigger
  dsimp only
  split
  · exact raise_pf _ _ _ _
  · exact ⟨rfl, rfl⟩

theorem fold_pf (l : List Nat) (s : State) : PF s (l.foldl State.brakeTrace s) := by
  induction l generalizing s with
  | nil => exact ⟨rfl, rfl⟩
  | cons a l ih => exact pf_trans (brakeTrace_pf s a) (ih _)

theorem brake_pf (s : State) (k : Nat) : PF s (s.brake k) := by
  unfold State.brake
  split
  · exact ⟨rfl, rfl⟩
  · refine pf_trans ?_ (raise_pf _ _ _ _)
    exact fold_pf _ _

theorem mainOff_main (s : State) (o) : (s.mainOff o).pwr.main = false := by
  unfold State.mainOff State.setPwr
  dsimp only
  split <;> rfl

theorem low_main (s : State) (h : s.pwr.main = false) : s.modReady = false := by
  unfold State.modReady; rw [h]; simp

theorem failStart_main (s : State) (k) (r) (h : s.fw.run = some r) : (s.failStart k).pwr.main = false := by
  unfold State.failStart
  rw [h]
  dsimp only
  split
  · exact mainOff_main _ _
  · split
    · obtain ⟨_, _, _, _, e⟩ := State.raise_frame ({ (s.raise 0x0B05 .error [(1, r.req.kind.code), (1, k), (1, r.step), (1, min 3 (s.fw.fails.toNat + 1))]).mainOff .failed with fw := { ((s.raise 0x0B05 .error [(1, r.req.kind.code), (1, k), (1, r.step), (1, min 3 (s.fw.fails.toNat + 1))]).mainOff .failed).fw with run := none, fails := BitVec.ofNat 2 (min 3 (s.fw.fails.toNat + 1)), lastFail := BitVec.ofNat 5 k, stage := BitVec.ofNat 5 r.step, depot := true, retryFrom := none } } : State) 0x0B06 .error [(1, k)]
      rw [e]
      exact mainOff_main _ _
    · exact mainOff_main _ _

theorem supply_main (s : State) (o a b c d e) : (s.supplyReset o a b c d e).pwr.main = false := by
  unfold State.supplyReset
  dsimp only
  split
  · exact failStart_main _ _ _ ‹_›
  · exact mainOff_main _ _
  · exact mainOff_main _ _

theorem issue_exp (s : State) : s.issueEvent.hif.expired = s.hif.expired := by
  unfold State.issueEvent
  dsimp only
  repeat' split
  all_goals rfl

theorem raise_exp (s : State) (a b c) : (s.raise a b c).hif.expired = s.hif.expired := by
  have off : ∀ (s : State) e, (s.offerEvent e).hif.expired = s.hif.expired := by
    intro s e
    unfold State.offerEvent
    dsimp only
    split
    · rfl
    · split
      · rfl
      · exact (issue_exp _)
  unfold State.raise
  split
  · dsimp only; rw [off]; rfl
  · rfl

theorem setPwr_ready (s : State) (p : PwrState) (h1 : s.fw.run = none) (h2 : s.fw.stage = 0x1F) (h3 : s.fw.depot = false)
    (h4 : p.main = true) (h5 : p.aux = true) : (s.setPwr p).modReady = true := by
  unfold State.setPwr State.modReady
  dsimp only
  split <;> simp [h1, h2, h3, h4, h5]

/-- What follows the last event of a start leaves a ready module ready, where no detach or hold waited (R511). -/
theorem openUp_ready (v : State) (v1 : v.modReady = true) (v3 : v.hif.expired = false) (v4 : v.rcv.deferred = []) :
    v.openUp.modReady = true ∧ v.openUp.fw.waiting = v.fw.waiting := by
  have key : ∀ p : PoolState, ({ v with pool := p } : State).lateDetach.deferredHolds.modReady = true ∧
      ({ v with pool := p } : State).lateDetach.deferredHolds.fw.waiting = v.fw.waiting := by
    intro p
    have e2 : ({ v with pool := p } : State).lateDetach = { v with pool := p } := by
      unfold State.lateDetach
      rw [if_neg (fun h => by have := h.1; simp only [v3] at this; simp at this)]
    rw [e2]
    unfold State.deferredHolds
    dsimp only
    rw [v4, List.foldl_nil]
    exact ⟨v1, rfl⟩
  unfold State.openUp State.copyCaps
  exact key _

/-- A start at its last stage, of no staged update, completes (R505, R511, R512). -/
theorem complete_facts (s : State) (r) (h1 : s.fw.run = some r) (h2 : r.step = 14) (h3 : r.bundle = none)
    (h5 : s.hif.expired = false) (h6 : s.rcv.deferred = []) (h7 : s.pwr.main = true) (h8 : s.pwr.aux = true) :
    s.completeStart.modReady = true ∧ s.completeStart.fw.waiting = s.fw.waiting := by
  have key : ∀ (x : State) (p : PwrState) (n : Nat) (f : List (Nat × Nat)), x.fw.run = none → x.fw.stage = 0x1F →
      x.fw.depot = false → p.main = true → p.aux = true → x.hif.expired = false → x.rcv.deferred = [] →
      ((x.setPwr p).raise n .info f).openUp.modReady = true ∧
        ((x.setPwr p).raise n .info f).openUp.fw.waiting = x.fw.waiting := by
    intro x p n f a1 a2 a3 a4 a5 a6 a7
    have k := openUp_ready ((x.setPwr p).raise n .info f)
      ((pf_mr (raise_pf _ _ _ _)).trans (setPwr_ready x p a1 a2 a3 a4 a5)) ((raise_exp _ _ _ _).trans a6)
      (by rw [State.raise_rcv]; exact a7)
    refine ⟨k.1, k.2.trans ?_⟩
    rw [(raise_pf _ _ _ _).2]
    rfl
  unfold State.completeStart
  rw [h1]
  dsimp only
  rw [if_neg (by simp [h2]), h3]
  exact key _ _ _ _ rfl rfl rfl h7 h8 h5 h6

/-! ### Host queues -/

theorem modQueue_congr (s : State) (q : Nat) (f g : HostQueue → HostQueue) (h : f (s.queue q) = g (s.queue q)) :
    s.modQueue q f = s.modQueue q g := by
  unfold State.modQueue
  unfold State.queue at h
  dsimp only
  rw [h]

/-! ### Mailbox rows (R370) -/

theorem mbRow_eq (opc len : Nat) (s : State) (f : State → MbRes) (h : s.Asked opc len) :
   mbRow opc len s f = (match f s with
    | .done st p s' => .next (s'.mbAnswer st p)
    | .undef => .next (s.mbUndef.2.2.mbAnswer s.mbUndef.1 s.mbUndef.2.1)
    | .wait s' => .next s') := by
  obtain ⟨h1, h2, h3, h4, h5, h6⟩ := h
  have hu : s.undefinedIf (Mem.readNat 0 s.hif.mbReq 1 1 != 0 || Mem.readNat 0 s.hif.mbReq 2 2 != len) = s := by
    rw [h4, h5]; simp [State.undefinedIf]
  unfold mbRow; dsimp only
  rw [if_neg (by rw [h1, h2, h3]; simp), if_neg (by rintro ⟨a, b⟩; rcases h6 with h | h; exact a h; exact b h), hu]
  all_goals (cases f s <;> rfl)

end Sys2Proof.Machine
end

