-- ==== Sys2Proof/Laws/State.lean ====
section
/-!
SUPPORT. What each named update of the state does to each of its fields, true by definition.
-/

namespace Sys2Proof.Machine

variable (s : State)

/-! ### State.setCell -/

@[simp] theorem State.setCell_pending (id : CellId) (c : CellState) : (s.setCell id c).pending = s.pending := rfl
@[simp] theorem State.setCell_free (id : CellId) (c : CellState) : (s.setCell id c).free = s.free := rfl
@[simp] theorem State.setCell_lt8 (id : CellId) (c : CellState) : (s.setCell id c).lt8 = s.lt8 := rfl
@[simp] theorem State.setCell_quantum (id : CellId) (c : CellState) : (s.setCell id c).quantum = s.quantum := rfl
@[simp] theorem State.setCell_events (id : CellId) (c : CellState) : (s.setCell id c).events = s.events := rfl
@[simp] theorem State.setCell_replies (id : CellId) (c : CellState) : (s.setCell id c).replies = s.replies := rfl
@[simp] theorem State.setCell_cells (id : CellId) (c : CellState) :
    (s.setCell id c).cells = s.cells.put id.toNat c := rfl
@[simp] theorem State.setCell_boxes (id : CellId) (c : CellState) : (s.setCell id c).boxes = s.boxes := rfl
@[simp] theorem State.setCell_mem (id : CellId) (c : CellState) : (s.setCell id c).mem = s.mem := rfl
@[simp] theorem State.setCell_dsp (id : CellId) (c : CellState) : (s.setCell id c).dsp = s.dsp := rfl
@[simp] theorem State.setCell_arbHbm (id : CellId) (c : CellState) : (s.setCell id c).arbHbm = s.arbHbm := rfl
@[simp] theorem State.setCell_arbLnk (id : CellId) (c : CellState) : (s.setCell id c).arbLnk = s.arbLnk := rfl
@[simp] theorem State.setCell_arbCol (id : CellId) (c : CellState) : (s.setCell id c).arbCol = s.arbCol := rfl
@[simp] theorem State.setCell_lnk (id : CellId) (c : CellState) : (s.setCell id c).lnk = s.lnk := rfl
@[simp] theorem State.setCell_col (id : CellId) (c : CellState) : (s.setCell id c).col = s.col := rfl
@[simp] theorem State.setCell_rcv (id : CellId) (c : CellState) : (s.setCell id c).rcv = s.rcv := rfl
@[simp] theorem State.setCell_modId (id : CellId) (c : CellState) : (s.setCell id c).modId = s.modId := rfl
@[simp] theorem State.setCell_badLinks (id : CellId) (c : CellState) : (s.setCell id c).badLinks = s.badLinks := rfl
@[simp] theorem State.setCell_pool (id : CellId) (c : CellState) : (s.setCell id c).pool = s.pool := rfl
@[simp] theorem State.setCell_hif (id : CellId) (c : CellState) : (s.setCell id c).hif = s.hif := rfl
@[simp] theorem State.setCell_pwr (id : CellId) (c : CellState) : (s.setCell id c).pwr = s.pwr := rfl
@[simp] theorem State.setCell_fw (id : CellId) (c : CellState) : (s.setCell id c).fw = s.fw := rfl
@[simp] theorem State.setCell_dbg (id : CellId) (c : CellState) : (s.setCell id c).dbg = s.dbg := rfl

/-! ### State.modCell -/

@[simp] theorem State.modCell_pending (id : CellId) (f : CellState → CellState) :
    (s.modCell id f).pending = s.pending := rfl
@[simp] theorem State.modCell_free (id : CellId) (f : CellState → CellState) : (s.modCell id f).free = s.free := rfl
@[simp] theorem State.modCell_lt8 (id : CellId) (f : CellState → CellState) : (s.modCell id f).lt8 = s.lt8 := rfl
@[simp] theorem State.modCell_quantum (id : CellId) (f : CellState → CellState) :
    (s.modCell id f).quantum = s.quantum := rfl
@[simp] theorem State.modCell_events (id : CellId) (f : CellState → CellState) :
    (s.modCell id f).events = s.events := rfl
@[simp] theorem State.modCell_replies (id : CellId) (f : CellState → CellState) :
    (s.modCell id f).replies = s.replies := rfl
@[simp] theorem State.modCell_cells (id : CellId) (f : CellState → CellState) :
    (s.modCell id f).cells = s.cells.put id.toNat (f (s.cell id)) := rfl
@[simp] theorem State.modCell_boxes (id : CellId) (f : CellState → CellState) :
    (s.modCell id f).boxes = s.boxes := rfl
@[simp] theorem State.modCell_mem (id : CellId) (f : CellState → CellState) : (s.modCell id f).mem = s.mem := rfl
@[simp] theorem State.modCell_dsp (id : CellId) (f : CellState → CellState) : (s.modCell id f).dsp = s.dsp := rfl
@[simp] theorem State.modCell_arbHbm (id : CellId) (f : CellState → CellState) :
    (s.modCell id f).arbHbm = s.arbHbm := rfl
@[simp] theorem State.modCell_arbLnk (id : CellId) (f : CellState → CellState) :
    (s.modCell id f).arbLnk = s.arbLnk := rfl
@[simp] theorem State.modCell_arbCol (id : CellId) (f : CellState → CellState) :
    (s.modCell id f).arbCol = s.arbCol := rfl
@[simp] theorem State.modCell_lnk (id : CellId) (f : CellState → CellState) : (s.modCell id f).lnk = s.lnk := rfl
@[simp] theorem State.modCell_col (id : CellId) (f : CellState → CellState) : (s.modCell id f).col = s.col := rfl
@[simp] theorem State.modCell_rcv (id : CellId) (f : CellState → CellState) : (s.modCell id f).rcv = s.rcv := rfl
@[simp] theorem State.modCell_modId (id : CellId) (f : CellState → CellState) :
    (s.modCell id f).modId = s.modId := rfl
@[simp] theorem State.modCell_badLinks (id : CellId) (f : CellState → CellState) :
    (s.modCell id f).badLinks = s.badLinks := rfl
@[simp] theorem State.modCell_pool (id : CellId) (f : CellState → CellState) : (s.modCell id f).pool = s.pool := rfl
@[simp] theorem State.modCell_hif (id : CellId) (f : CellState → CellState) : (s.modCell id f).hif = s.hif := rfl
@[simp] theorem State.modCell_pwr (id : CellId) (f : CellState → CellState) : (s.modCell id f).pwr = s.pwr := rfl
@[simp] theorem State.modCell_fw (id : CellId) (f : CellState → CellState) : (s.modCell id f).fw = s.fw := rfl
@[simp] theorem State.modCell_dbg (id : CellId) (f : CellState → CellState) : (s.modCell id f).dbg = s.dbg := rfl

/-! ### State.setBox -/

@[simp] theorem State.setBox_pending (k : Nat) (b : BoxState) : (s.setBox k b).pending = s.pending := rfl
@[simp] theorem State.setBox_free (k : Nat) (b : BoxState) : (s.setBox k b).free = s.free := rfl
@[simp] theorem State.setBox_lt8 (k : Nat) (b : BoxState) : (s.setBox k b).lt8 = s.lt8 := rfl
@[simp] theorem State.setBox_quantum (k : Nat) (b : BoxState) : (s.setBox k b).quantum = s.quantum := rfl
@[simp] theorem State.setBox_events (k : Nat) (b : BoxState) : (s.setBox k b).events = s.events := rfl
@[simp] theorem State.setBox_replies (k : Nat) (b : BoxState) : (s.setBox k b).replies = s.replies := rfl
@[simp] theorem State.setBox_cells (k : Nat) (b : BoxState) : (s.setBox k b).cells = s.cells := rfl
@[simp] theorem State.setBox_boxes (k : Nat) (b : BoxState) : (s.setBox k b).boxes = s.boxes.put k b := rfl
@[simp] theorem State.setBox_mem (k : Nat) (b : BoxState) : (s.setBox k b).mem = s.mem := rfl
@[simp] theorem State.setBox_dsp (k : Nat) (b : BoxState) : (s.setBox k b).dsp = s.dsp := rfl
@[simp] theorem State.setBox_arbHbm (k : Nat) (b : BoxState) : (s.setBox k b).arbHbm = s.arbHbm := rfl
@[simp] theorem State.setBox_arbLnk (k : Nat) (b : BoxState) : (s.setBox k b).arbLnk = s.arbLnk := rfl
@[simp] theorem State.setBox_arbCol (k : Nat) (b : BoxState) : (s.setBox k b).arbCol = s.arbCol := rfl
@[simp] theorem State.setBox_lnk (k : Nat) (b : BoxState) : (s.setBox k b).lnk = s.lnk := rfl
@[simp] theorem State.setBox_col (k : Nat) (b : BoxState) : (s.setBox k b).col = s.col := rfl
@[simp] theorem State.setBox_rcv (k : Nat) (b : BoxState) : (s.setBox k b).rcv = s.rcv := rfl
@[simp] theorem State.setBox_modId (k : Nat) (b : BoxState) : (s.setBox k b).modId = s.modId := rfl
@[simp] theorem State.setBox_badLinks (k : Nat) (b : BoxState) : (s.setBox k b).badLinks = s.badLinks := rfl
@[simp] theorem State.setBox_pool (k : Nat) (b : BoxState) : (s.setBox k b).pool = s.pool := rfl
@[simp] theorem State.setBox_hif (k : Nat) (b : BoxState) : (s.setBox k b).hif = s.hif := rfl
@[simp] theorem State.setBox_pwr (k : Nat) (b : BoxState) : (s.setBox k b).pwr = s.pwr := rfl
@[simp] theorem State.setBox_fw (k : Nat) (b : BoxState) : (s.setBox k b).fw = s.fw := rfl
@[simp] theorem State.setBox_dbg (k : Nat) (b : BoxState) : (s.setBox k b).dbg = s.dbg := rfl

/-! ### State.skipFree -/

@[simp] theorem State.skipFree_pending (n : Nat) : (s.skipFree n).pending = s.pending := rfl
@[simp] theorem State.skipFree_free (n : Nat) : (s.skipFree n).free = s.free + n := rfl
@[simp] theorem State.skipFree_lt8 (n : Nat) : (s.skipFree n).lt8 = s.lt8 := rfl
@[simp] theorem State.skipFree_quantum (n : Nat) : (s.skipFree n).quantum = s.quantum := rfl
@[simp] theorem State.skipFree_events (n : Nat) : (s.skipFree n).events = s.events := rfl
@[simp] theorem State.skipFree_replies (n : Nat) : (s.skipFree n).replies = s.replies := rfl
@[simp] theorem State.skipFree_cells (n : Nat) : (s.skipFree n).cells = s.cells := rfl
@[simp] theorem State.skipFree_boxes (n : Nat) : (s.skipFree n).boxes = s.boxes := rfl
@[simp] theorem State.skipFree_mem (n : Nat) : (s.skipFree n).mem = s.mem := rfl
@[simp] theorem State.skipFree_dsp (n : Nat) : (s.skipFree n).dsp = s.dsp := rfl
@[simp] theorem State.skipFree_arbHbm (n : Nat) : (s.skipFree n).arbHbm = s.arbHbm := rfl
@[simp] theorem State.skipFree_arbLnk (n : Nat) : (s.skipFree n).arbLnk = s.arbLnk := rfl
@[simp] theorem State.skipFree_arbCol (n : Nat) : (s.skipFree n).arbCol = s.arbCol := rfl
@[simp] theorem State.skipFree_lnk (n : Nat) : (s.skipFree n).lnk = s.lnk := rfl
@[simp] theorem State.skipFree_col (n : Nat) : (s.skipFree n).col = s.col := rfl
@[simp] theorem State.skipFree_rcv (n : Nat) : (s.skipFree n).rcv = s.rcv := rfl
@[simp] theorem State.skipFree_modId (n : Nat) : (s.skipFree n).modId = s.modId := rfl
@[simp] theorem State.skipFree_badLinks (n : Nat) : (s.skipFree n).badLinks = s.badLinks := rfl
@[simp] theorem State.skipFree_pool (n : Nat) : (s.skipFree n).pool = s.pool := rfl
@[simp] theorem State.skipFree_hif (n : Nat) : (s.skipFree n).hif = s.hif := rfl
@[simp] theorem State.skipFree_pwr (n : Nat) : (s.skipFree n).pwr = s.pwr := rfl
@[simp] theorem State.skipFree_fw (n : Nat) : (s.skipFree n).fw = s.fw := rfl
@[simp] theorem State.skipFree_dbg (n : Nat) : (s.skipFree n).dbg = s.dbg := rfl

/-! ### State.reply -/

@[simp] theorem State.reply_pending (port code : Nat) (nums : List Nat) (data : List Byte) :
    (s.reply port code nums data).pending = s.pending := rfl
@[simp] theorem State.reply_free (port code : Nat) (nums : List Nat) (data : List Byte) :
    (s.reply port code nums data).free = s.free := rfl
@[simp] theorem State.reply_lt8 (port code : Nat) (nums : List Nat) (data : List Byte) :
    (s.reply port code nums data).lt8 = s.lt8 := rfl
@[simp] theorem State.reply_quantum (port code : Nat) (nums : List Nat) (data : List Byte) :
    (s.reply port code nums data).quantum = s.quantum := rfl
@[simp] theorem State.reply_events (port code : Nat) (nums : List Nat) (data : List Byte) :
    (s.reply port code nums data).events = s.events := rfl
@[simp] theorem State.reply_replies (port code : Nat) (nums : List Nat) (data : List Byte) :
    (s.reply port code nums data).replies = ⟨port, code, nums, data⟩ :: s.replies := rfl
@[simp] theorem State.reply_cells (port code : Nat) (nums : List Nat) (data : List Byte) :
    (s.reply port code nums data).cells = s.cells := rfl
@[simp] theorem State.reply_boxes (port code : Nat) (nums : List Nat) (data : List Byte) :
    (s.reply port code nums data).boxes = s.boxes := rfl
@[simp] theorem State.reply_mem (port code : Nat) (nums : List Nat) (data : List Byte) :
    (s.reply port code nums data).mem = s.mem := rfl
@[simp] theorem State.reply_dsp (port code : Nat) (nums : List Nat) (data : List Byte) :
    (s.reply port code nums data).dsp = s.dsp := rfl
@[simp] theorem State.reply_arbHbm (port code : Nat) (nums : List Nat) (data : List Byte) :
    (s.reply port code nums data).arbHbm = s.arbHbm := rfl
@[simp] theorem State.reply_arbLnk (port code : Nat) (nums : List Nat) (data : List Byte) :
    (s.reply port code nums data).arbLnk = s.arbLnk := rfl
@[simp] theorem State.reply_arbCol (port code : Nat) (nums : List Nat) (data : List Byte) :
    (s.reply port code nums data).arbCol = s.arbCol := rfl
@[simp] theorem State.reply_lnk (port code : Nat) (nums : List Nat) (data : List Byte) :
    (s.reply port code nums data).lnk = s.lnk := rfl
@[simp] theorem State.reply_col (port code : Nat) (nums : List Nat) (data : List Byte) :
    (s.reply port code nums data).col = s.col := rfl
@[simp] theorem State.reply_rcv (port code : Nat) (nums : List Nat) (data : List Byte) :
    (s.reply port code nums data).rcv = s.rcv := rfl
@[simp] theorem State.reply_modId (port code : Nat) (nums : List Nat) (data : List Byte) :
    (s.reply port code nums data).modId = s.modId := rfl
@[simp] theorem State.reply_badLinks (port code : Nat) (nums : List Nat) (data : List Byte) :
    (s.reply port code nums data).badLinks = s.badLinks := rfl
@[simp] theorem State.reply_pool (port code : Nat) (nums : List Nat) (data : List Byte) :
    (s.reply port code nums data).pool = s.pool := rfl
@[simp] theorem State.reply_hif (port code : Nat) (nums : List Nat) (data : List Byte) :
    (s.reply port code nums data).hif = s.hif := rfl
@[simp] theorem State.reply_pwr (port code : Nat) (nums : List Nat) (data : List Byte) :
    (s.reply port code nums data).pwr = s.pwr := rfl
@[simp] theorem State.reply_fw (port code : Nat) (nums : List Nat) (data : List Byte) :
    (s.reply port code nums data).fw = s.fw := rfl
@[simp] theorem State.reply_dbg (port code : Nat) (nums : List Nat) (data : List Byte) :
    (s.reply port code nums data).dbg = s.dbg := rfl

/-! ### State.modTasks -/

@[simp] theorem State.modTasks_pending (f : List Task → List Task) : (s.modTasks f).pending = s.pending := rfl
@[simp] theorem State.modTasks_free (f : List Task → List Task) : (s.modTasks f).free = s.free := rfl
@[simp] theorem State.modTasks_lt8 (f : List Task → List Task) : (s.modTasks f).lt8 = s.lt8 := rfl
@[simp] theorem State.modTasks_quantum (f : List Task → List Task) : (s.modTasks f).quantum = s.quantum := rfl
@[simp] theorem State.modTasks_events (f : List Task → List Task) : (s.modTasks f).events = s.events := rfl
@[simp] theorem State.modTasks_replies (f : List Task → List Task) : (s.modTasks f).replies = s.replies := rfl
@[simp] theorem State.modTasks_cells (f : List Task → List Task) : (s.modTasks f).cells = s.cells := rfl
@[simp] theorem State.modTasks_boxes (f : List Task → List Task) : (s.modTasks f).boxes = s.boxes := rfl
@[simp] theorem State.modTasks_mem (f : List Task → List Task) : (s.modTasks f).mem = s.mem := rfl
@[simp] theorem State.modTasks_dsp (f : List Task → List Task) :
    (s.modTasks f).dsp = { s.dsp with tasks := f s.dsp.tasks } := rfl
@[simp] theorem State.modTasks_arbHbm (f : List Task → List Task) : (s.modTasks f).arbHbm = s.arbHbm := rfl
@[simp] theorem State.modTasks_arbLnk (f : List Task → List Task) : (s.modTasks f).arbLnk = s.arbLnk := rfl
@[simp] theorem State.modTasks_arbCol (f : List Task → List Task) : (s.modTasks f).arbCol = s.arbCol := rfl
@[simp] theorem State.modTasks_lnk (f : List Task → List Task) : (s.modTasks f).lnk = s.lnk := rfl
@[simp] theorem State.modTasks_col (f : List Task → List Task) : (s.modTasks f).col = s.col := rfl
@[simp] theorem State.modTasks_rcv (f : List Task → List Task) : (s.modTasks f).rcv = s.rcv := rfl
@[simp] theorem State.modTasks_modId (f : List Task → List Task) : (s.modTasks f).modId = s.modId := rfl
@[simp] theorem State.modTasks_badLinks (f : List Task → List Task) : (s.modTasks f).badLinks = s.badLinks := rfl
@[simp] theorem State.modTasks_pool (f : List Task → List Task) : (s.modTasks f).pool = s.pool := rfl
@[simp] theorem State.modTasks_hif (f : List Task → List Task) : (s.modTasks f).hif = s.hif := rfl
@[simp] theorem State.modTasks_pwr (f : List Task → List Task) : (s.modTasks f).pwr = s.pwr := rfl
@[simp] theorem State.modTasks_fw (f : List Task → List Task) : (s.modTasks f).fw = s.fw := rfl
@[simp] theorem State.modTasks_dbg (f : List Task → List Task) : (s.modTasks f).dbg = s.dbg := rfl

/-! ### State.modTask -/

@[simp] theorem State.modTask_pending (id : Nat) (f : Task → Task) : (s.modTask id f).pending = s.pending := rfl
@[simp] theorem State.modTask_free (id : Nat) (f : Task → Task) : (s.modTask id f).free = s.free := rfl
@[simp] theorem State.modTask_lt8 (id : Nat) (f : Task → Task) : (s.modTask id f).lt8 = s.lt8 := rfl
@[simp] theorem State.modTask_quantum (id : Nat) (f : Task → Task) : (s.modTask id f).quantum = s.quantum := rfl
@[simp] theorem State.modTask_events (id : Nat) (f : Task → Task) : (s.modTask id f).events = s.events := rfl
@[simp] theorem State.modTask_replies (id : Nat) (f : Task → Task) : (s.modTask id f).replies = s.replies := rfl
@[simp] theorem State.modTask_cells (id : Nat) (f : Task → Task) : (s.modTask id f).cells = s.cells := rfl
@[simp] theorem State.modTask_boxes (id : Nat) (f : Task → Task) : (s.modTask id f).boxes = s.boxes := rfl
@[simp] theorem State.modTask_mem (id : Nat) (f : Task → Task) : (s.modTask id f).mem = s.mem := rfl
@[simp] theorem State.modTask_dsp (id : Nat) (f : Task → Task) :
    (s.modTask id f).dsp = { s.dsp with tasks := s.dsp.tasks.map fun t => if t.id = id then f t else t } := rfl
@[simp] theorem State.modTask_arbHbm (id : Nat) (f : Task → Task) : (s.modTask id f).arbHbm = s.arbHbm := rfl
@[simp] theorem State.modTask_arbLnk (id : Nat) (f : Task → Task) : (s.modTask id f).arbLnk = s.arbLnk := rfl
@[simp] theorem State.modTask_arbCol (id : Nat) (f : Task → Task) : (s.modTask id f).arbCol = s.arbCol := rfl
@[simp] theorem State.modTask_lnk (id : Nat) (f : Task → Task) : (s.modTask id f).lnk = s.lnk := rfl
@[simp] theorem State.modTask_col (id : Nat) (f : Task → Task) : (s.modTask id f).col = s.col := rfl
@[simp] theorem State.modTask_rcv (id : Nat) (f : Task → Task) : (s.modTask id f).rcv = s.rcv := rfl
@[simp] theorem State.modTask_modId (id : Nat) (f : Task → Task) : (s.modTask id f).modId = s.modId := rfl
@[simp] theorem State.modTask_badLinks (id : Nat) (f : Task → Task) : (s.modTask id f).badLinks = s.badLinks := rfl
@[simp] theorem State.modTask_pool (id : Nat) (f : Task → Task) : (s.modTask id f).pool = s.pool := rfl
@[simp] theorem State.modTask_hif (id : Nat) (f : Task → Task) : (s.modTask id f).hif = s.hif := rfl
@[simp] theorem State.modTask_pwr (id : Nat) (f : Task → Task) : (s.modTask id f).pwr = s.pwr := rfl
@[simp] theorem State.modTask_fw (id : Nat) (f : Task → Task) : (s.modTask id f).fw = s.fw := rfl
@[simp] theorem State.modTask_dbg (id : Nat) (f : Task → Task) : (s.modTask id f).dbg = s.dbg := rfl

/-! ### State.modQueue -/

@[simp] theorem State.modQueue_pending (q : Nat) (f : HostQueue → HostQueue) :
    (s.modQueue q f).pending = s.pending := rfl
@[simp] theorem State.modQueue_free (q : Nat) (f : HostQueue → HostQueue) : (s.modQueue q f).free = s.free := rfl
@[simp] theorem State.modQueue_lt8 (q : Nat) (f : HostQueue → HostQueue) : (s.modQueue q f).lt8 = s.lt8 := rfl
@[simp] theorem State.modQueue_quantum (q : Nat) (f : HostQueue → HostQueue) :
    (s.modQueue q f).quantum = s.quantum := rfl
@[simp] theorem State.modQueue_events (q : Nat) (f : HostQueue → HostQueue) :
    (s.modQueue q f).events = s.events := rfl
@[simp] theorem State.modQueue_replies (q : Nat) (f : HostQueue → HostQueue) :
    (s.modQueue q f).replies = s.replies := rfl
@[simp] theorem State.modQueue_cells (q : Nat) (f : HostQueue → HostQueue) : (s.modQueue q f).cells = s.cells := rfl
@[simp] theorem State.modQueue_boxes (q : Nat) (f : HostQueue → HostQueue) : (s.modQueue q f).boxes = s.boxes := rfl
@[simp] theorem State.modQueue_mem (q : Nat) (f : HostQueue → HostQueue) : (s.modQueue q f).mem = s.mem := rfl
@[simp] theorem State.modQueue_dsp (q : Nat) (f : HostQueue → HostQueue) : (s.modQueue q f).dsp = s.dsp := rfl
@[simp] theorem State.modQueue_arbHbm (q : Nat) (f : HostQueue → HostQueue) :
    (s.modQueue q f).arbHbm = s.arbHbm := rfl
@[simp] theorem State.modQueue_arbLnk (q : Nat) (f : HostQueue → HostQueue) :
    (s.modQueue q f).arbLnk = s.arbLnk := rfl
@[simp] theorem State.modQueue_arbCol (q : Nat) (f : HostQueue → HostQueue) :
    (s.modQueue q f).arbCol = s.arbCol := rfl
@[simp] theorem State.modQueue_lnk (q : Nat) (f : HostQueue → HostQueue) : (s.modQueue q f).lnk = s.lnk := rfl
@[simp] theorem State.modQueue_col (q : Nat) (f : HostQueue → HostQueue) : (s.modQueue q f).col = s.col := rfl
@[simp] theorem State.modQueue_rcv (q : Nat) (f : HostQueue → HostQueue) : (s.modQueue q f).rcv = s.rcv := rfl
@[simp] theorem State.modQueue_modId (q : Nat) (f : HostQueue → HostQueue) : (s.modQueue q f).modId = s.modId := rfl
@[simp] theorem State.modQueue_badLinks (q : Nat) (f : HostQueue → HostQueue) :
    (s.modQueue q f).badLinks = s.badLinks := rfl
@[simp] theorem State.modQueue_pool (q : Nat) (f : HostQueue → HostQueue) : (s.modQueue q f).pool = s.pool := rfl
@[simp] theorem State.modQueue_hif (q : Nat) (f : HostQueue → HostQueue) :
    (s.modQueue q f).hif =
      { s.hif with queues := rset s.hif.queues (BitVec.ofNat 6 q) (f (rget s.hif.queues (BitVec.ofNat 6 q))) } := rfl
@[simp] theorem State.modQueue_pwr (q : Nat) (f : HostQueue → HostQueue) : (s.modQueue q f).pwr = s.pwr := rfl
@[simp] theorem State.modQueue_fw (q : Nat) (f : HostQueue → HostQueue) : (s.modQueue q f).fw = s.fw := rfl
@[simp] theorem State.modQueue_dbg (q : Nat) (f : HostQueue → HostQueue) : (s.modQueue q f).dbg = s.dbg := rfl

/-! ### State.setPwr -/

@[simp] theorem State.setPwr_pending (p : PwrState) : (s.setPwr p).pending = s.pending := rfl
@[simp] theorem State.setPwr_free (p : PwrState) : (s.setPwr p).free = s.free := rfl
@[simp] theorem State.setPwr_lt8 (p : PwrState) : (s.setPwr p).lt8 = s.lt8 := rfl
@[simp] theorem State.setPwr_quantum (p : PwrState) : (s.setPwr p).quantum = s.quantum := rfl
@[simp] theorem State.setPwr_events (p : PwrState) : (s.setPwr p).events = s.events := rfl
@[simp] theorem State.setPwr_replies (p : PwrState) : (s.setPwr p).replies = s.replies := rfl
@[simp] theorem State.setPwr_cells (p : PwrState) : (s.setPwr p).cells = s.cells := rfl
@[simp] theorem State.setPwr_boxes (p : PwrState) : (s.setPwr p).boxes = s.boxes := rfl
@[simp] theorem State.setPwr_mem (p : PwrState) : (s.setPwr p).mem = s.mem := rfl
@[simp] theorem State.setPwr_dsp (p : PwrState) : (s.setPwr p).dsp = s.dsp := rfl
@[simp] theorem State.setPwr_arbHbm (p : PwrState) : (s.setPwr p).arbHbm = s.arbHbm := rfl
@[simp] theorem State.setPwr_arbLnk (p : PwrState) : (s.setPwr p).arbLnk = s.arbLnk := rfl
@[simp] theorem State.setPwr_arbCol (p : PwrState) : (s.setPwr p).arbCol = s.arbCol := rfl
@[simp] theorem State.setPwr_lnk (p : PwrState) : (s.setPwr p).lnk = s.lnk := rfl
@[simp] theorem State.setPwr_col (p : PwrState) : (s.setPwr p).col = s.col := rfl
@[simp] theorem State.setPwr_rcv (p : PwrState) : (s.setPwr p).rcv = s.rcv := rfl
@[simp] theorem State.setPwr_modId (p : PwrState) : (s.setPwr p).modId = s.modId := rfl
@[simp] theorem State.setPwr_badLinks (p : PwrState) : (s.setPwr p).badLinks = s.badLinks := rfl
@[simp] theorem State.setPwr_pool (p : PwrState) : (s.setPwr p).pool = s.pool := rfl
@[simp] theorem State.setPwr_hif (p : PwrState) : (s.setPwr p).hif = s.hif := rfl
@[simp] theorem State.setPwr_pwr (p : PwrState) :
    (s.setPwr p).pwr = if s.pwr.emerg && !p.emerg then { p with calmFrom := s.ns } else p := rfl
@[simp] theorem State.setPwr_fw (p : PwrState) : (s.setPwr p).fw = s.fw := rfl
@[simp] theorem State.setPwr_dbg (p : PwrState) : (s.setPwr p).dbg = s.dbg := rfl

/-! ### State.setPort -/

@[simp] theorem State.setPort_pending (p : BitVec 3) (k : LnkPort) : (s.setPort p k).pending = s.pending := rfl
@[simp] theorem State.setPort_free (p : BitVec 3) (k : LnkPort) : (s.setPort p k).free = s.free := rfl
@[simp] theorem State.setPort_lt8 (p : BitVec 3) (k : LnkPort) : (s.setPort p k).lt8 = s.lt8 := rfl
@[simp] theorem State.setPort_quantum (p : BitVec 3) (k : LnkPort) : (s.setPort p k).quantum = s.quantum := rfl
@[simp] theorem State.setPort_events (p : BitVec 3) (k : LnkPort) : (s.setPort p k).events = s.events := rfl
@[simp] theorem State.setPort_replies (p : BitVec 3) (k : LnkPort) : (s.setPort p k).replies = s.replies := rfl
@[simp] theorem State.setPort_cells (p : BitVec 3) (k : LnkPort) : (s.setPort p k).cells = s.cells := rfl
@[simp] theorem State.setPort_boxes (p : BitVec 3) (k : LnkPort) : (s.setPort p k).boxes = s.boxes := rfl
@[simp] theorem State.setPort_mem (p : BitVec 3) (k : LnkPort) : (s.setPort p k).mem = s.mem := rfl
@[simp] theorem State.setPort_dsp (p : BitVec 3) (k : LnkPort) : (s.setPort p k).dsp = s.dsp := rfl
@[simp] theorem State.setPort_arbHbm (p : BitVec 3) (k : LnkPort) : (s.setPort p k).arbHbm = s.arbHbm := rfl
@[simp] theorem State.setPort_arbLnk (p : BitVec 3) (k : LnkPort) : (s.setPort p k).arbLnk = s.arbLnk := rfl
@[simp] theorem State.setPort_arbCol (p : BitVec 3) (k : LnkPort) : (s.setPort p k).arbCol = s.arbCol := rfl
@[simp] theorem State.setPort_lnk (p : BitVec 3) (k : LnkPort) :
    (s.setPort p k).lnk = { s.lnk with ports := rset s.lnk.ports p k } := rfl
@[simp] theorem State.setPort_col (p : BitVec 3) (k : LnkPort) : (s.setPort p k).col = s.col := rfl
@[simp] theorem State.setPort_rcv (p : BitVec 3) (k : LnkPort) : (s.setPort p k).rcv = s.rcv := rfl
@[simp] theorem State.setPort_modId (p : BitVec 3) (k : LnkPort) : (s.setPort p k).modId = s.modId := rfl
@[simp] theorem State.setPort_badLinks (p : BitVec 3) (k : LnkPort) : (s.setPort p k).badLinks = s.badLinks := rfl
@[simp] theorem State.setPort_pool (p : BitVec 3) (k : LnkPort) : (s.setPort p k).pool = s.pool := rfl
@[simp] theorem State.setPort_hif (p : BitVec 3) (k : LnkPort) : (s.setPort p k).hif = s.hif := rfl
@[simp] theorem State.setPort_pwr (p : BitVec 3) (k : LnkPort) : (s.setPort p k).pwr = s.pwr := rfl
@[simp] theorem State.setPort_fw (p : BitVec 3) (k : LnkPort) : (s.setPort p k).fw = s.fw := rfl
@[simp] theorem State.setPort_dbg (p : BitVec 3) (k : LnkPort) : (s.setPort p k).dbg = s.dbg := rfl

end Sys2Proof.Machine
end

