-- ==== Sys2Proof/WellFormed.lean ====
section
/-!
DEFINITION. Which commands name parts that the module has and carry as many bytes as their rows say. A command that is not
well formed is no event of this hardware; the machine answers it with a fault where it names a missing part.
-/

namespace Sys2Proof

/-- A cell of the module (R20, R21): nine clusters on each die. -/
def physical (id : CellId) : Bool := (id.toNat / 16) % 16 < 9

/-- A cluster of a die (R21). -/
def box (cluster : BitVec 4) : Bool := cluster.toNat < 9

/-- A Morgo port (R386). -/
def morgo (port : BitVec 3) : Bool := port.toNat < 6

/-- The bytes the HDM decoder presents (R304). -/
def decoder : Nat := 1152124977152

/-- A working site of the matrix array (R124). -/
def Upset.wf (u : Upset) : Bool := u.row < 64 && u.col < 64

/-- A die-to-die link of the package (R32): only odd dies have a spoke. -/
def DieLink.wf : DieLink → Bool
  | .ring _ => true
  | .spoke n => n.toNat % 2 = 1

/-- A write of bytes inside one sector (R284). -/
def HbmOp.wf : HbmOp → Bool
  | .read => true
  | .write off bytes _ => off.toNat + bytes.length ≤ 32

/-- A place inside what the module has or borrows (R280, R299): a cell's store, HBM, a lender or host memory. -/
def Spot.wf : Spot → Bool
  | .store cell addr => physical cell && addr < 0x300000
  | .hbm extents => extents.all fun e => e.1 + e.2 ≤ 1152000000000
  | .lender _ addr => addr < 1152000000000
  | .host addr => addr < 2 ^ 64

/-- A command names parts the module has. -/
def Instr.wf : Instr → Bool
  | .nop cell _ _ | .alu cell _ _ | .addi cell _ _ | .andi cell _ _ | .ori cell _ _ | .xori cell _ _ | .slli cell _ _
  | .srli cell _ _ | .srai cell _ _ | .li cell _ _ | .lih cell _ _ | .cmp cell _ _ | .cmpi cell _ _ | .plog cell _ _
  | .pfroms cell _ _ | .ptos cell _ _ | .sel cell _ _ | .lb cell _ _ | .lbu cell _ _ | .lh cell _ _ | .lhu cell _ _
  | .lw cell _ _ | .sb cell _ _ | .sh cell _ _ | .sw cell _ _ | .lda cell _ _ | .sta cell _ _ | .tld cell _ _
  | .tst cell _ _ | .aadd cell _ _ | .aaddi cell _ _ | .afrom cell _ _ | .ato cell _ _ | .astr cell _ _
  | .astri cell _ _ | .amov cell _ _ | .tofs cell _ _ | .tadv cell _ _ | .tget cell _ _ | .tset cell _ _
  | .lcset cell _ _ | .lci cell _ _ | .loop cell _ _ | .lset cell _ _ | .lbrk cell _ _ | .lget cell _ _
  | .br cell _ _ | .call cell _ _ | .jr cell _ _ | .bz cell _ _ | .bnz cell _ _ | .push cell _ _ | .sig cell _ _
  | .waits cell _ _ | .waitsr cell _ _ | .semrd cell _ _ | .enq cell _ _ | .mfs cell _ _ | .rdlt cell _ _
  | .swb cell _ _ | .halt cell _ _ | .mxSync cell | .mma cell | .vxSync cell | .vbin cell | .vun cell | .vfma cell
  | .vred cell | .vrsc cell | .msSync cell | .runwb cell | .lkSync cell | .lread cell | .lwrite cell | .lcell cell
  | .latom cell | .lcoll cell | .commandWaitSatisfied cell _ | .commandComplete cell _ | .mmaRetryStart cell
  | .panelFillTaken cell | .collectivePartHandoff cell | .collectivePartStart cell | .collectivePartComplete cell
  | .transferAckTimeout cell _ _ _ | .ballastGapStart cell _ _ | .ballastHoldEnd cell _ | .ballastRampEnd cell _
  | .ibankLoadIssue cell _ _ | .ibankFirstWrite cell | .ibankLoadEnd cell | .ibankHoldTimeout cell
  | .cellTaskStart cell _ | .cellHaltDrained cell | .cellFaultHandled cell | .cellRetire cell _ | .spareAdmitted cell
  | .wbEnd cell _ _ | .wbNop cell _ _ | .wbSetv cell _ _ | .wbAddv cell _ _ | .wbAddvv cell _ _ | .wbGetd cell _ _
  | .wbShape cell _ _ | .wbSetk cell _ _ | .wbLoop cell _ _ | .wbWait cell _ _ | .wbWaitSatisfied cell _
  | .wbSignal cell _ _ | .wbSignalEffect cell _ | .wbFence cell _ _ | .wbFenceRelease cell _ | .wbSetring cell _ _
  | .wbSetc cell _ _ | .wbMove cell _ _ | .wbSegmentLost cell _ _ _ | .faultReport cell | .memberStop cell
  | .enqRequest cell | .enqAnswer cell | .enqTimeout cell | .suspectWindowExpiry cell => physical cell
  | .mmaCheckBeat cell upsets => physical cell && upsets.all Upset.wf
  | .dieLinkFailure link => link.wf
  | .hbmAccess sector op errs => sector < 36000000000 && op.wf && errs.all (· < 36)
  | .atomicUpdate dpa _ _ _ _ errs => dpa < 1152000000000 && errs.all (· < 36)
  | .hostMemRead offset _ _ errs0 errs1 => offset < decoder && errs0.all (· < 36) && errs1.all (· < 36)
  | .hostMemWrite offset data _ _ errs => offset < decoder && offset % 64 + data.length ≤ 64 && errs.all (· < 36)
  | .bisnpResponse line data _ => line < decoder / 64 && (data.all fun d => d.length = 64)
  | .scrubRead _ sector reserved errs => decide (sector < (if reserved then 165871616 else 36000000000)) && errs.all (· < 36)
  | .laneRepairStart _ lane => lane < 36
  | .tierMove _ dest => dest.wf
  | .arbiterDecide block requests =>
    requests.all fun q => decide (q.1.toNat < (if block = 0 then 1024 else if block = 7 then 1 else 6))
  | .signalBoxTask _ _ cluster | .taskMembersStart _ _ cluster | .ltRealign _ cluster _
  | .traceEntry _ cluster _ _ _ _ | .traceWrite _ cluster | .traceArm _ cluster | .traceStop _ cluster
  | .traceSwTrigger _ cluster | .traceTrigger _ cluster _ _ _ => box cluster
  | .tensorCreate _ _ place | .tensorPin place => place.all Spot.wf
  | .hostRevoke moves => moves.all fun m => m.2.wf
  | .cxlLinkChange _ width rate => (width = 16 || width = 8 || width = 4) && (rate = 64 || rate = 32 || rate = 16 || rate = 8)
  | .frameReceive port _ _ _ flit _ _ => morgo port && flit.1.length = 256
  | .nak port _ | .ack port _ | .credit port _ _ | .laneFailing port _ _ _
  | .laneSwitch port _ _ | .laneSwitchApply port _ | .laneAck port _ | .heartbeatSend port | .heartbeat port _ _
  | .heartbeatTimeout port | .frameLockLoss port | .laneTrained port _ _ | .accept port | .reject port
  | .trainingTimeout port | .retrainAttempt port | .packetForward port _ _ _ _ _ _ _ _ | .ltSyncRequest port
  | .hold port _ _ _ _ _ _ _ | .release port _ _ _ _ _ _ => morgo port
  | .discover port _ peer _ => morgo port && morgo peer
  | .peerPorts port states => morgo port && states.length = 6
  | .ethLinkChange _ speed => speed ≠ 3
  | .thermalThrottle die _ | .thermalThrottleEnd die _ | .thermalWarn die _ | .thermalWarnClear die _ _
  | .thermalTripWarning die | .thermalTrip die _ => die.toNat ≤ 8
  | .startRequest kind _ _ _ _ => kind ≠ 0
  | .protectionFault core cluster _ | .coreReload core cluster => core ≠ 3 || cluster.toNat < 72
  | .globalTrigger _ cluster _ fromCluster _ => box cluster && box fromCluster
  | .tripCooldown temps _ _ => temps.length = 9
  | .queuePairSetup region num _ _ _ _ _ => num < if region then 4096 else 16384
  | .recordWriteCompleted queue => queue.toNat ≤ 64
  | .laneRepairEnd _ | .memScopeCommit _ | .tierReclaim _ | .tierLost _ _ | .ttCommit _ _ | .hifSqDb _ _
  | .dispatcherWake | .entryArrive | .taskPlace | .taskEnd _ | .completionRecordWrite _ | .pmapCommit
  | .hifCqHead _ _ | .hifEvHead _ | .hifLease _ | .leaseExpiry | .feAccess _ | .feTimeout | .attach _ | .detach
  | .queueCreate | .queueDelete | .queueRebind | .resume | .taskAbort | .tensorFree | .tensorUnpin | .tensorQuery
  | .hostGrant _ | .configSet | .eventRingSet | .mbUnknownOpc | .functionLevelReset | .cplWriteFailed _ _
  | .fetchFailed _ | .eventWriteFailed _ | .msixCoalesceTimeout _ | .perstAssert | .perstRelease | .livenessProbe
  | .probeReturn | .watchdogExpiry | .lnkPlanCommit _ | .lnkRtCommit _ | .ltSyncSend | .ltSyncAnswer _ _ _
  | .ltParentLost _ | .rdmaRemoteWrite _ _ _ _ | .rdmaRemoteRead _ _ _ _ | .islandRdmaWrite _ _ _ _ _ _ _ _ _
  | .colContribution | .colData _ _ _ _ _ _ _ _ | .colAck _ _ _ _ _ | .colAbort _ _ _ _ _ | .colOpTimeout _ _ _
  | .colGtCommit _ | .holdRequest _ | .ownFaultHold | .heldReached | .heldReport _ _ _ _ _ | .reportWaitTimeout
  | .backupTakeover | .plan _ _ _ _ _ _ | .ready _ _ _ | .rebuildGo _ _ _ _ | .rebuilt _ _ _ | .recCommit _ _
  | .stop _ _ _ | .writtenUpdate | .refresh _ _ _ _ _ _ _ _ _ | .parityCommit _ _ | .jobEpochReduced
  | .rebuild _ _ _ _ _ _ _ _ | .relayAck _ _ | .relayAbort _ _ | .aux12vPresent _ | .aux12vAbsent | .mainDwellElapsed
  | .inrushCharged _ _ | .overvoltage _ | .inputWarn _ | .inputWarnClear _ | .inputReset _ | .railWarn _ _
  | .railWarnClear _ _ | .railReset _ _ | .railResetRestart _ | .powerGrant _ _ _ | .grantExpiry
  | .controlPeriod _ _ _ _ _ _ | .capTableCommit | .estimateUntrusted _ _ _ | .estimateTrusted _ _ | .hwLimit _
  | .startComplete _ | .startFailed _ _ _ _ _ _ | .startTimeout _ | .coreReadyTimeout _ | .failedStartRetry _
  | .bundleFetchDone _ _ | .bundlePush _ | .activateFirmware | .activationBegin | .activationCancel
  | .componentHandover _ | .handoverResumeTimeout | .securityCoreRestart | .getVersion | .getCapabilities
  | .negotiateAlgorithms | .getDigests | .getCertificate _ _ _ | .challenge _ _ | .getMeasurements _ _
  | .windowRead _ _ | .windowWrite _ _ | .scanRead _ _ _ _ | .sidebandBrake | .dbgBrake _ | .extest | .samplePreload
  | .jtagBrake _ | .scanaddr _ | .scandata | .dbgstat | .bypass _ | .hangWatchTimeout _ | .dbgHangBuild _
  | .hangSnapshotConfirm | .latchingLoRead _ _ | .rcRead _ _ | .tracePortRead _ _ | .registerWrite _ _ _
  | .ieee1588Sync _ _ | .rootLineTimeSet _ | .congestionNotification _ | .priorityFlowControl _ _ _
  | .rdmaWorkCompletion _ _ _ _ | .bundleFetchRetry | .moduleIdAssign _ | .jtagTrst _ => true

end Sys2Proof
end

