-- ==== Sys2Proof/Tests/Slice0.lean ====
section
/-!
SUPPORT. Small tests of the model. The first part shows for each check of `Instr.wf` a command it refuses; the second runs
single commands and checks them against the worked examples and tables of the specification, which each comment names.
-/

open Sys2Proof Sys2Proof.Machine

namespace Sys2Proof.Tests
set_option Elab.async false

/-! ### Well-formedness: an ill-formed command for each check -/

theorem test_wf_cell : (Instr.nop 0x090 0 0).wf = false ∧ (Instr.nop 0x78F 0 0).wf = true := by decide
theorem test_wf_upset : (Instr.mmaCheckBeat 0 [⟨64, 0, 0⟩]).wf = false := by decide
theorem test_wf_die_link : (Instr.dieLinkFailure (.spoke 2)).wf = false ∧ (Instr.dieLinkFailure (.spoke 1)).wf = true := by decide
theorem test_wf_sector : (Instr.hbmAccess 36000000000 .read []).wf = false := by decide
theorem test_wf_sector_write : (Instr.hbmAccess 0 (.write 31 [0, 0] false) []).wf = false := by decide
theorem test_wf_symbol : (Instr.hbmAccess 0 .read [36]).wf = false := by decide
theorem test_wf_atomic : (Instr.atomicUpdate 1152000000000 0 0 0 false []).wf = false := by decide
theorem test_wf_decoder : (Instr.hostMemRead 1152124977152 false false [] []).wf = false := by decide
theorem test_wf_line_write : (Instr.hostMemWrite 63 [0, 0] false false []).wf = false := by decide
theorem test_wf_snoop_data : (Instr.bisnpResponse 0 (some [0]) false).wf = false := by decide
theorem test_wf_snoop_line : (Instr.bisnpResponse 18001952768 none false).wf = false := by decide
theorem test_wf_scrub : (Instr.scrubRead 0 36000000000 false []).wf = false := by decide
theorem test_wf_lane : (Instr.laneRepairStart 0 36).wf = false := by decide
theorem test_wf_store : (Instr.tierMove 0 (.store 0 0x300000)).wf = false := by decide
theorem test_wf_extent : (Instr.tierMove 0 (.hbm [(1152000000000, 1)])).wf = false := by decide
theorem test_wf_lender : (Instr.tierMove 0 (.lender 0 1152000000000)).wf = false := by decide
theorem test_wf_host_place : (Instr.tensorCreate 0 0 (some (.host 0x10000000000000000))).wf = false := by decide
theorem test_wf_moves : (Instr.hostRevoke [(0, .store 0x090 0)]).wf = false := by decide
theorem test_wf_arbiter : (Instr.arbiterDecide 1 [(6, 0, 0, 0)]).wf = false ∧ (Instr.arbiterDecide 7 [(1, 0, 0, 0)]).wf = false ∧
    (Instr.arbiterDecide 0 [(1023, 0, 0, 0)]).wf = true := by decide
theorem test_wf_cluster : (Instr.signalBoxTask 0 0 9).wf = false := by decide
theorem test_wf_trigger_source : (Instr.globalTrigger 0 0 0 9 0).wf = false := by decide
theorem test_wf_cxl_width : (Instr.cxlLinkChange true 2 64).wf = false := by decide
theorem test_wf_cxl_rate : (Instr.cxlLinkChange true 16 4).wf = false := by decide
theorem test_wf_port : (Instr.accept 6).wf = false := by decide
theorem test_wf_peer_port : (Instr.discover 0 0 6 0).wf = false := by decide
theorem test_wf_peer_states : (Instr.peerPorts 0 [0]).wf = false := by decide
theorem test_wf_speed : (Instr.ethLinkChange false 3).wf = false := by decide
theorem test_wf_die : (Instr.thermalTrip 9 0).wf = false := by decide
theorem test_wf_start : (Instr.startRequest 0 false false [] .clean).wf = false := by decide
theorem test_wf_core : (Instr.coreReload 3 72).wf = false := by decide
theorem test_wf_temperatures : (Instr.tripCooldown [0] [] .clean).wf = false := by decide
theorem test_wf_queue_pair : (Instr.queuePairSetup false 16384 0 0 0 false 0).wf = false := by decide
theorem test_wf_region : (Instr.queuePairSetup true 4096 0 0 0 false 0).wf = false := by decide
theorem test_wf_record : (Instr.recordWriteCompleted 65).wf = false := by decide

/-! ### Instruction words -/

/-- R88 to R90, R109 (the PUSH example): words of the cell core, their fields written from bit 31 down. -/
theorem test_decode_core :
    decodeCore 5 0x00000000 = some (.nop 5 0 0) ∧
    decodeCore 5 (0b000001#6 ++ 0#4 ++ 3#5 ++ 1#5 ++ 2#5 ++ 0x00#7) = some (.alu 5 0 (3#5 ++ 1#5 ++ 2#5 ++ 0x00#7)) ∧
    decodeCore 5 (0b010111#6 ++ 8#4 ++ 1#5 ++ 3#4 ++ 0#2 ++ 0#11) = some (.sh 5 8 (1#5 ++ 3#4 ++ 0#2 ++ 0#11)) ∧
    decodeCore 5 (0b101010#6 ++ 0#4 ++ 2#2 ++ 0#6 ++ 3#14) = some (.loop 5 0 (2#2 ++ 0#6 ++ 3#14)) ∧
    decodeCore 5 0xCC234C00 = some (.push 5 0 0x234C00) ∧ decodeCore 5 (0b111100#6 ++ 0#26) = some (.halt 5 0 0) ∧
    decodeCore 5 (0b111101#6 ++ 0#26) = none ∧ decodeCore 5 0xFFFFFFFF = none := by decide

/-- R258: words of a waybill. -/
theorem test_decode_waybill :
    decodeWaybill 5 1 0 = some (.wbEnd 5 1 0) ∧
    decodeWaybill 5 1 (0b000010#6 ++ 7#3 ++ 0#15 ++ 0x123456789A#40) = some (.wbSetv 5 1 (0b000010#6 ++ 7#3 ++ 0#15 ++ 0x123456789A#40)) ∧
    decodeWaybill 5 1 (0b010000#6 ++ 0#58) = some (.wbMove 5 1 (0b010000#6 ++ 0#58)) ∧
    decodeWaybill 5 1 (0b001110#6 ++ 0#58) = none ∧ decodeWaybill 5 1 (0b111111#6 ++ 0#58) = none := by decide

/-! ### Single commands -/

/-- Reset, with cell 0 running and changed by `f`. -/
def core1 (f : CellState → CellState) : State := State.reset.setCell 0 (f { State.reset.cell 0 with st := .running })

/-- What holds of cell 0 after a command. -/
def after (o : Out) (p : CellState → Bool) : Bool :=
  match o with
  | .next t => p (t.cell 0)
  | _ => false

/-- What holds of the machine after a command. -/
def then' (o : Out) (p : State → Bool) : Bool :=
  match o with
  | .next t => p t
  | _ => false

/-- R26: the module at x = 5, y = 12, z = 20 has module ID 0x54C5. -/
theorem test_module_id : idX 0x54C5 = 5 ∧ idY 0x54C5 = 12 ∧ idZ 0x54C5 = 20 ∧ 0x54C5 / 8192 = 2 := by decide

/-- R90, R91: ALU ADD s3, s1, s2 wraps: 0xFFFF_FFFF + 2 = 1. -/
theorem test_add_wraps :
    after (exec (.alu 0 0 (3#5 ++ 1#5 ++ 2#5 ++ 0x00#7)) (core1 fun c => (c.writeS 1 0xFFFFFFFF).writeS 2 2)) (fun c => c.sReg 3 == 1) := by
  decide +kernel

/-- R91: SRA reads five bits of its count, and its destination may be its source. -/
theorem test_sra_count :
    after (exec (.alu 0 0 (1#5 ++ 1#5 ++ 2#5 ++ 0x07#7)) (core1 fun c => (c.writeS 1 0x80000000).writeS 2 33)) (fun c => c.sReg 1 == 0xC0000000) := by
  decide +kernel

/-- R90: ADDI s2, s1, -1. -/
theorem test_addi_negative :
    after (exec (.addi 0 0 (2#5 ++ 1#5 ++ 0xFFF#12)) (core1 fun c => c.writeS 1 5)) (fun c => c.sReg 2 == 4) := by decide +kernel

/-- R92: DIV of 0x8000_0000 by 0xFFFF_FFFF gives 0x8000_0000, and REM gives 0. -/
theorem test_division_overflow :
    let s := core1 fun c => (c.writeS 1 0x80000000).writeS 2 0xFFFFFFFF
    after (exec (.alu 0 0 (3#5 ++ 1#5 ++ 2#5 ++ 0x0D#7)) s) (fun c => c.sReg 3 == 0x80000000) ∧
    after (exec (.alu 0 0 (3#5 ++ 1#5 ++ 2#5 ++ 0x0E#7)) (s.setCell 0 ((s.cell 0).writeS 3 7))) (fun c => c.sReg 3 == 0) := by decide +kernel

/-- R93: LI of 0x8000 gives -32,768, and LIH then replaces the upper half. -/
theorem test_li_lih :
    after (exec (.li 0 0 (1#5 ++ 0#1 ++ 0x8000#16)) (core1 id)) (fun c => c.sReg 1 == 0xFFFF8000) ∧
    after (exec (.lih 0 0 (1#5 ++ 0#1 ++ 0x1234#16)) (core1 fun c => c.writeS 1 0xFFFF8000)) (fun c => c.sReg 1 == 0x12348000) := by
  decide +kernel

/-- R88: a guard that is false leaves the destination alone and goes to the next instruction. -/
theorem test_guard_off :
    after (exec (.li 0 8 (1#5 ++ 0#1 ++ 0x0007#16)) (core1 id)) (fun c => c.sReg 1 == 0 && c.core.pc == 4) := by decide +kernel

/-- R94: CMPI sign-extends its immediate for an unsigned condition too: 5 is below 0xFFFF_FFFF. -/
theorem test_cmpi_unsigned :
    after (exec (.cmpi 0 0 (2#3 ++ 1#5 ++ 0b100#3 ++ 0x7FF#11)) (core1 fun c => c.writeS 1 5)) (fun c => c.pReg 2) := by decide +kernel

/-- R86, R90: SB at the last byte of the data memory, then LB sign-extends it. -/
theorem test_byte_store_load :
    after (exec (.sb 0 0 (1#5 ++ 3#4 ++ 0#2 ++ 0#11)) (core1 fun c => (c.writeS 1 0x180).writeA 3 0xFFFF))
      (fun c => after (exec (.lb 0 0 (2#5 ++ 3#4 ++ 0#2 ++ 0#11)) (core1 fun _ => c)) (fun d => d.sReg 2 == 0xFFFFFF80)) := by decide +kernel

/-- R102, R90: CALL -1 at 8 links 12 in s31 and goes to 4. -/
theorem test_call_back :
    after (exec (.call 0 0 0x3FFFFF) (core1 fun c => { c with core := { c.core with pc := 8 } })) (fun c => c.core.pc == 4 && c.sReg 31 == 12) := by
  decide +kernel

/-- R104 (the example after R108): lc2 holds 10 and LOOP lc2, 3 enters with HC = 9; with 0 the body is skipped. -/
theorem test_loop_enters :
    after (exec (.loop 0 0 (2#2 ++ 0#6 ++ 3#14)) (core1 fun c => { c with core := { c.core with lc := rset c.core.lc 2 10 } }))
      (fun c => c.core.loops.map (fun l => l.hc) == [9] && c.core.pc == 4) ∧
    after (exec (.loop 0 0 (2#2 ++ 0#6 ++ 3#14)) (core1 id)) (fun c => c.core.loops.isEmpty && c.core.pc == 16) := by decide +kernel

/-- R111: SIG adds N + 1. -/
theorem test_sig : after (exec (.sig 0 0 (3#5 ++ 4#8 ++ 0#9)) (core1 id)) (fun c => c.sem 3 == 5) := by decide +kernel

/-- R90, R102: a branch out of the instruction memory is a fault of the cell, not a stop of the machine. -/
theorem test_branch_out : after (exec (.br 0 0 0x3FFFFF) (core1 id)) (fun c => c.st == .faulted && c.core.pc == 0) := by decide +kernel

/-- R109: the word 0xCC23_4C00 pushes to q.ms group 1 with a patch of word 1 through a3, once. -/
theorem test_push_word : let o : BitVec 22 := (0xCC234C00 : BitVec 32).extractLsb' 0 22
    (0xCC234C00 : BitVec 32).extractLsb' 26 6 = (0b110011 : BitVec 6) ∧ o.extractLsb' 20 2 = (2 : BitVec 2) ∧
    o.extractLsb' 17 3 = (1 : BitVec 3) := by decide

/-- R217 (the example of a fused matrix command): the fields of word 0. -/
theorem test_command_word : let w : QWord := 0x40014800#32 ++ 0x12000000#32 ++ 0x000001FF#32 ++ 0x042022C4#32
    cOpc w = 1 ∧ cWsem w = 1 ∧ cWcnt w = 1 ∧ cSsem w = 2 ∧ cSen w = true ∧ mAcc w = true ∧ cFuse w = true ∧
    cfCop 0x40014800 = 2 ∧ cfGroup 0x40014800 = 5 ∧ cfCsem 0x40014800 = 4 := by decide

/-- R175 (the example of a block-scaled write): 250, 0.075, 0.00025 and -4.25 as E4M3. -/
theorem test_e4m3_rounding :
    (e4m3.round .rne false 24 0 (.fin false 250 0)).bits = 0x78 ∧ (e4m3.round .rne false 24 0 (.fin true 17 (-2))).bits = 0xC8 := by
  decide

/-- R284 (the example that locates a DPA): stack 8, channel 28, pseudo-channel 0 and bank 16. -/
theorem test_locate : let l := locateIn 0 14080001344
    l.stack = 8 ∧ l.u = 56 ∧ l.bank = 16 ∧ l.col = 256 * (53710 % 4) + 64 ∧ l.row = 53710 / 128 := by decide

/-- R411 (the example after it): 305.250 and 303.750 ns with an asymmetry of 0.125 ns give 0.625 ns and 39 ppm. -/
theorem test_line_time_offset :
    then' (exec (.ltSyncAnswer 10442 10482 false)
      { State.reset with lt8 := 12912, lnk := { State.reset.lnk with ltState := 2, ltParent := 0, ltSent := some 8000, ltAsym := [(0, 1)] } })
      (fun t => t.lnk.ltRate == 39 && t.lnk.ltOffset == 5) := by decide +kernel

/-- R313 to R320 (the example of one pseudo-channel): slots 6 to 11 go to die 3, die 1, the host (its own slot), scrub, die 1
and die 5, in this order. Every request is to the open row of one bank. -/
theorem test_pseudo_channel :
    let s : State := { State.reset with arbHbm := { State.reset.arbHbm with slot := 4, arbs := [(0, { Arb.init with lastbg := 2 })] } }
    let edge (l : List (BitVec 4)) (r lastbg : BitVec 4) (o : Out) : Out :=
      match o with
      | .next t =>
        match exec (.arbiterDecide 0 (l.map fun q => (0, q, 0, 0))) t with
        | .next u =>
          let a := Sparse.at Arb.init u.arbHbm.arbs 0
          if a.grant = some r ∧ a.lastbg = lastbg then .next u else .fault (.noSuchPart 0)
        | x => x
      | x => x
    then' (.next s |> edge [1, 3, 13] 3 3 |> edge [] 1 1 |> edge [8] 8 1 |> edge [] 13 13 |> edge [1, 5] 1 1 |> edge [] 5 5)
      (fun t => t.arbHbm.slot == 10) := by decide +kernel

/-- R471, R474 (the example of a busbar sag): below 42.0 V the rails go to 0.55 V and the duty to 25 %. -/
theorem test_busbar_sag :
    then' (exec (.inputWarn 4199) State.reset) (fun t => t.pwr.inWarn && t.pwr.dutyOf 0 == 25 && (t.pwr.die 0).rail == 550) := by
  decide +kernel

/-- R442, R444: a hold request of the rack manager in a job takes an origin sequence number and enters HOLDING. -/
theorem test_hold_request :
    then' (exec (.holdRequest 0x1193) { State.reset with rcv := { State.reset.rcv with job := 0x00050000 }
                                                         hif := { State.reset.hif with fwUp := true } })
      (fun t => t.rcv.oseq == 1 && t.rcv.state == 1) := by decide +kernel

/-- R22: arming the trace of a cluster the module does not have is no event of it. -/
theorem test_no_such_cluster : exec (.traceArm 0 9) State.reset = .fault (.noSuchPart 22) := by rfl

end Sys2Proof.Tests
end

