-- ==== Sys2Proof/Tests/Witnesses.lean ====
section
/-!
SUPPORT. For each obligation with hypotheses, concrete states and operands that meet them, at the bounds its clauses name:
`witness_<obligation>`, with a suffix where an obligation has several. They are plain data, and nothing here runs for many
steps.
-/

open Sys2Proof Sys2Proof.Machine
namespace Sys2Proof.Tests
set_option Elab.async false

/-- Reset, with cell 0 running and changed by `f`. -/
def runs (f : CellState → CellState) : State := State.reset.setCell 0 (f { State.reset.cell 0 with st := .running })

/-- A cell that runs from its bank, nothing else. -/
def base0 : State := runs id

/-- A command with word `w` and no descriptors. -/
def cmd (w : QWord) : QCmd := ⟨w, 0, 0, 0, 0, 0, 0, 1, false, Past.none⟩

/-- It started at 0 and has nothing on its way. -/
def going (w : QWord) : RunCmd := ⟨cmd w, 0, 0, [], [], none, false, none, false, false⟩

theorem witness_CommandsWaitInOrder : ∃ s t : State, s.pending = [.moduleIdAssign 5] ∧ step s = .next t ∧ t.modId = 5 :=
  ⟨{ State.reset with pending := [.moduleIdAssign 5] }, _, rfl, rfl, rfl⟩
theorem witness_RollbackCountersNeverFall : ∃ s t : State, s.fw.floor = 3 ∧ step s = .next t :=
  ⟨{ State.reset with fw := { State.reset.fw with floor := 3 } }, _, rfl, rfl⟩
theorem witness_StepTakesTheFrontCommand : State.reset.pending = [] := rfl
theorem witness_ModuleReady : (∃ r, State.reset.fw.run = some r ∧ r.step = 14 ∧ r.bundle = none) ∧
    State.reset.fw.waiting = [] ∧ State.reset.hif.expired = false ∧ State.reset.rcv.deferred = [] ∧
    State.reset.pwr.main = true ∧ State.reset.pwr.aux = true ∧ State.reset.pwr.inrush ≠ .opened ∧
    (8 : BitVec 4).toNat ≤ 8 ∧ 105 ≤ (105 : BitVec 8).toNat ∧ (3799 : BitVec 16).toNat < 3800 ∧ 5900 < (5901 : BitVec 16).toNat := by
  refine ⟨⟨_, rfl, ?_⟩, ?_⟩ <;> decide
theorem witness_CoreHypotheses : let c := base0.cell 0
    cellOk 0 = true ∧ cellOk 0x78F = true ∧ c.Issues 0 ∧ c.Fits ∧ c.core.pushed = 0 ∧ c.core.pClaim &&& 1 = 0 ∧
    c.FreeS 0xFFFFFFFF 0xFFFFFFFF ∧ c.FreeP 0xFF 0xFF := by decide +kernel
theorem witness_ScalarArithmeticResults : let f (o : BitVec 22) : BitVec 7 := o.extractLsb' 0 7
    (f 0x12).toNat ≤ 0x12 ∧ 0x13 ≤ (f 0x13).toNat ∧ (f 0x15).toNat ≤ 0x15 ∧ fB 0x15 = 0 ∧
    ((31#22).extractLsb' 5 7 : BitVec 7) = 0 ∧ (0xFFFF#22).getLsbD 16 = false := by decide +kernel
theorem witness_DivisionCorners : let s := runs fun c => c.writeS 1 0x80000000 |>.writeS 2 0xFFFFFFFF
    let c := s.cell 0
    let o : BitVec 22 := 0x0B#22 + (1 <<< 12) + (3 <<< 7)
    let p : BitVec 22 := 0x0D#22 + (1 <<< 12) + (2 <<< 7)
    c.Issues 0 ∧ c.Fits ∧ c.FreeS (bit5 (fA o) ||| bit5 (fB o)) (bit5 (fD o)) ∧ c.sReg (fB o) = 0 ∧
    c.FreeS (bit5 (fA p) ||| bit5 (fB p)) (bit5 (fD p)) ∧ c.sReg (fA p) = 0x80000000 ∧ c.sReg (fB p) = 0xFFFFFFFF ∧
    (o.extractLsb' 0 7 : BitVec 7) = 0x0B ∧ (p.extractLsb' 0 7 : BitVec 7) = 0x0D := by decide +kernel
/-- A running cell whose base register holds `x`. -/
def at' (o : BitVec 22) (x : BitVec 40) : CellState := (runs fun c => c.writeA (fBase o) x).cell 0
/-- The last `size` bytes of the data memory and of the cell store may be loaded. -/
def lastOf (d : BitVec 40) (size : Nat) (o : BitVec 22) : Bool := decide <|
  (at' o (0x10000 - d)).Issues 0 ∧ (at' o (0x10000 - d)).InDmem (memAddr (at' o (0x10000 - d)) o size).1 size ∧
  (at' o (0x1300000 - d)).Issues 0 ∧ (at' o (0x1300000 - d)).InStore (memAddr (at' o (0x1300000 - d)) o size).1 size
theorem witness_LoadResults : lastOf 1 1 0 && lastOf 2 2 0x800 && lastOf 4 4 0x1000 := by decide +kernel
theorem witness_AddressLoadsAndStores : fMode 0 ≠ 3 ∧ (0#22).getLsbD 17 = false ∧ lastOf 8 8 0 = true ∧ lastOf 16 16 0 = true := by
  decide +kernel

theorem witness_StoreResults : lastOf 1 1 0 = true ∧ lastOf 2 2 0x1000 = true ∧ lastOf 4 4 0x800 = true ∧
    lastOf 8 8 0 = true ∧ lastOf 16 16 0 = true ∧ (memAddr (at' 0 0x12FFFF0) 0 16).1.toNat % 16 = 0 ∧
    0x1000000 ≤ (memAddr (at' 0 0x1000000) 0 16).1.toNat ∧ (memAddr (at' 0 0x12FFFF0) 0 16).1.toNat < 0x1300000 := by
  decide +kernel
theorem witness_PredicateResults : ((5#22 <<< 6).extractLsb' 0 6 : BitVec 6) = 0 ∧
    ((5#22 <<< 6).extractLsb' 6 3 : BitVec 3).toNat ≤ 5 ∧ ((5#22 <<< 11).extractLsb' 11 3 : BitVec 3).toNat ≤ 5 ∧
    ((4#22 <<< 10).extractLsb' 0 10 : BitVec 10) = 0 ∧ (fField (4#22 <<< 10)).toNat ≤ 4 ∧ fField (5#22 <<< 10) = 5 ∧
    (base0.cell 0).FreeS (bit5 (fA18 0) ||| bit5 (fB13 0)) 0 ∧ (base0.cell 0).FreeP 0 (bit3 (fPD 0)) := by decide +kernel
theorem witness_PredicateZero : let c := (runs fun c => c.writeP 1 true).cell 0
    c.Issues 0 ∧ c.Fits ∧ fPD 0 = 0 ∧ c.core.pClaim &&& 1 = 0 ∧ c.pReg 1 = true ∧ (fField (4#22 <<< 10)).toNat ≤ 4 := by
  decide +kernel
theorem witness_AddressRegisterResults : let c := (base0.cell 0)
    c.Issues 0 ∧ c.Fits ∧ c.FreeS (bit5 (fB17 0) ||| bit5 (fHi 0)) 0 ∧ c.FreeS 0 (bit5 (fD 0)) ∧
    fField (6#22 <<< 10) ≠ 7 ∧ ((6#22 <<< 10).extractLsb' 0 10 : BitVec 10) = 0 := by decide +kernel
/-- A running cell at byte offset `pc` of its bank, with loop counter `n` and a loop stack. -/
def looping (pc : BitVec 16) (n : Word) (l : List LoopEntry) : CellState :=
  (runs fun c => { c with core := { c.core with pc := pc, lc := rset c.core.lc 0 n, loops := l } }).cell 0
theorem witness_LoopAndBranchResults_loops :
    ((looping 0xFFF4 0 []).Issues 0 ∧ fLen 1 ≠ 0 ∧ (looping 0xFFF4 0 []).lcReg (fTop2 1) = 0 ∧
      0xFFF4 + 4 * ((fLen 1).toNat + 1) ≤ 0xFFFC ∧ (endCheck 0xFFF4 0xFFFC []).2 ≤ 0xFFFC) ∧
    ((looping 0 2 [⟨0, 8, 1⟩, ⟨0, 8, 1⟩, ⟨0, 8, 1⟩]).Issues 0 ∧ (looping 0 2 [⟨0, 8, 1⟩]).lcReg (fTop2 2) ≠ 0 ∧
      0 + 4 * (fLen 2).toNat ≤ 0xFFFC ∧ 0 + 4 * (fLen 2).toNat ≤ 8) ∧
    ((fTop2 (3#22 <<< 20)).toNat < 4 ∧ ((looping 0 2 [⟨0, 8, 1⟩]).setLoops [⟨0, 8, 0⟩]).Fits) ∧ (looping 0xFFF8 0 []).Fits := by
  decide +kernel
theorem witness_LoopAndBranchResults_branches : (looping 0xFFFC 0 []).Issues 0 ∧ (0 : Int) = 0xFFFC + 4 * (-16383#22).toInt ∧
    (0xFFFC : Int) = 0 + 4 * (16383#22).toInt ∧ (0xFFFC#32).toNat ≤ 0xFFFC ∧ (0xFFFC#32).toNat % 4 = 0 ∧
    (0xFFFC : Int) = 0 + 4 * ((16383#22).extractLsb' 0 17 : BitVec 17).toInt := by decide +kernel
theorem witness_PushResults : let c := (base0.cell 0)
    let o : BitVec 22 := 0x0003C0#22
    let p : BitVec 22 := 0x2083C0#22
    c.Issues 0 ∧ c.Fits ∧ (o.extractLsb' 0 6 : BitVec 6) = 0 ∧ (o.extractLsb' 10 6 : BitVec 6) = 0 ∧ c.core.pushed = 0 ∧
    c.FreeS (0xF#32 <<< (4 * (o.extractLsb' 17 3 : BitVec 3).toNat)) 0 ∧ (c.queue 0).q.length + 16 ≤ queueDepth 0 ∧
    (o.extractLsb' 6 4 : BitVec 4).toNat + 1 = 16 ∧ fTop2 p = 2 ∧ c.claimed (claimOf 2 0) = false := by decide +kernel
theorem witness_SemaphoreResults : let c := (runs fun c => c.setSem 1 0xFEFF).cell 0
    let o : BitVec 22 := (1#22 <<< 17) + (255#22 <<< 9)
    c.Issues 0 ∧ c.Fits ∧ (o.extractLsb' 0 9 : BitVec 9) = 0 ∧ (c.sem (fD o)).toNat + ((o.extractLsb' 9 8 : BitVec 8).toNat + 1) ≤ 0xFFFF ∧
    c.mayTake 1 0 0xFEFF = true ∧ c.mayTake 1 0 0xFF00 = false ∧ c.rivals 1 0 = [] ∧ ((1#22 <<< 17) + 0xFFFF#22).getLsbD 16 = false := by
  decide +kernel
/-- Semaphore 1 holds 5; the core and the heads of the array's and the vector queue each wait for 2 of it. -/
def contended : CellState := (runs fun c =>
  let w : QWord := (1 <<< 21) + (2 <<< 13)
  { (c.setSem 1 5).setQueue 0 ⟨[cmd w], []⟩ |>.setQueue 1 ⟨[cmd w], []⟩ with
    core := { c.core with wait := ⟨2, 1, 0⟩, need := 2 } }).cell 0
theorem witness_SemaphoreResults_turns : let c := contended
    c.rivals 1 1 = [(0, 2), (2, 2)] ∧ c.scarce 1 1 2 = true ∧ c.mayTake 1 1 2 = true ∧ (0, 2) ∈ (c.take 1 1 2).rivals 1 1 ∧
    (c.take 1 1 2).scarce 1 1 2 = true ∧ (c.sem 1).toNat < 6 ∧ 5 ≤ (c.sem 1).toNat := by decide +kernel
theorem witness_SpecialInstructionResults : let c := (runs fun c => { c with banks := { c.banks with valid1 := true } }).cell 0
    c.Issues 0 ∧ c.Fits ∧ c.banks.validInactive = true ∧ c.banks.loadingInactive = false ∧
    c.FreeS 0 (bit5 (fD 0) ||| bit5 (fD 0 + 1)) ∧ c.FreeS 0 (bit5 (fA18 0)) ∧ c.FreeP 0 (bit3 (fPD 0)) ∧
    c.InDmem (c.aReg 0).addr 64 ∧ ((6#22).extractLsb' 0 8 : BitVec 8).toNat = 6 ∧ ((6#22).extractLsb' 8 9 : BitVec 9) = 0 := by
  decide +kernel
theorem witness_GuardedOffInstructions : let c := base0.cell 0
    let g : BitVec 4 := 1
    let gp : BitVec 3 := g.setWidth 3
    c.st = .running ∧ c.core.enq = none ∧ c.core.held = none ∧ c.fetchUe = false ∧ c.fetchIllegal = false ∧ c.core.pClaim &&& bit3 gp = 0 ∧ c.core.pMark &&& bit3 gp = 0 ∧
    c.pReg gp = g.getLsbD 3 ∧ c.Fits ∧ (endCheck 0 (0 + 4 * ((fLen 0x3FFE).toNat + 1)) c.core.loops).2 ≤ 0xFFFC ∧ fLen 0x3FFE ≠ 0 := by
  decide +kernel
theorem witness_GuardedOffInstructions_held :
    let c := (runs fun c => { c with core := { c.core with held := some (opWaits.word 0 0x21FFFF) } }).cell 0
    c.st = .running ∧ c.core.enq = none ∧ c.core.held = some (opWaits.word 0 0x21FFFF) ∧ opNop.word 0 0x21FFFF ≠ opWaits.word 0 0x21FFFF := by
  decide +kernel
theorem witness_CoreExceptionsFaultTheCell :
    (State.reset.col.ops = [] ∧ State.reset.col.waiting = [] ∧ State.reset.col.coming = [] ∧ State.reset.pwr.aux = true ∧
      State.reset.hif.evBase = 0) ∧
    (base0.cell 0).core.held = none ∧ (base0.cell 0).fetchUe = false ∧ (base0.cell 0).fetchIllegal = false ∧
    ((runs fun c => { c with banks := { c.banks with valid0 := true } }).cell 0).fetchIllegal = true ∧
    ((runs fun c => { c with banks := { c.banks with valid0 := true, ib0 := [] } }).cell 0).fetchUe = false ∧
    (base0.cell 0).regs.poisonSeen = false ∧ opNop.legal 1 = false ∧
    0x16 ≤ ((0x16#22).extractLsb' 0 7 : BitVec 7).toNat ∧
    ((runs fun c => { c with core := { c.core with sMark := 1 } }).cell 0).core.sMark &&& bit5 (fA 0) ≠ 0 ∧
    4 ≤ (looping 0 1 [⟨0, 8, 1⟩, ⟨0, 8, 1⟩, ⟨0, 8, 1⟩, ⟨0, 8, 1⟩]).core.loops.length ∧
    (looping 0 1 []).core.loops.length ≤ (fTop2 0).toNat ∧ 0xFFFC < (0xFFFD#32).toNat ∧
    (memAddr (at' 0 0x10000) 0 4).1 = 0x10000 ∧ (memAddr (at' 0 0xFFFFFC) 0 4).1 = 0xFFFFFC ∧
    (memAddr (at' 0 0x1400000) 0 4).1 = 0x1400000 ∧ (memAddr (at' 0 0x1300000) 0 4).1 = 0x1300000 ∧
    (memAddr (at' 0 0x13FFFFC) 0 4).1 = 0x13FFFFC ∧ (memAddr (at' 0 0xFFFE) 0 4).1 = 0xFFFE ∧
    (memAddr (at' 0 0x12FFFFE) 0 4).1 = 0x12FFFFE := by decide +kernel
theorem witness_CoreFrames :
    (match exec (.addi 0 0 0x3FF) base0 with | .next t => decide ((t.cell 0).st = .running) | _ => false) = true ∧
    (match exec (.sw 0 0 0) base0 with | .next t => decide ((t.cell 0).st = .running) | _ => false) = true := by decide +kernel

/-- A word whose opcode is 1. -/
def opc1 : QWord := 0x4000000

/-- Cell 0 with one command at the head of queue `q`. -/
def headed (q : BitVec 2) (w : QWord) : CellState := (runs fun c => c.setQueue q { c.queue q with q := [cmd w] }).cell 0
theorem witness_QueueHeadsStart :
    (∀ q ∈ [0#2, 1#2, 2#2, 3#2], (headed q 0).HeadReady q (cmd 0) []) ∧ (headed 2 opc1).HeadReady 2 (cmd opc1) [] ∧
    (headed 0 0).mx.cmds = [] ∧ (headed 0 0).mx.retry = false ∧ (headed 2 opc1).freeCtx.isSome = true ∧
    State.reset.mem.snoop = [] ∧ State.reset.mem.paused = [] ∧ (headed 3 0).qlk.run = [] := by decide +kernel
theorem witness_QueueHeadsStart_reserved :
    (∀ q ∈ [0#2, 1#2, 2#2, 3#2], (0 : QWord) &&& reservedMask q 0 = 0) ∧ (opc1 &&& reservedMask 3 opc1 = 0 ∧ cFuse opc1 = false) ∧
    base0.foreign 0 (lCid ((3 : QWord) <<< 26)) = false ∧
    (let s : State := { base0 with dsp := { base0.dsp with tasks := [{ Task.new 1 (TaskEntry.ofBytes []) 0 0 1 .running 0 with cells := [1] }] } }
     s.foreign 0 1 = true ∧ s.foreign 0 0 = false) := by decide +kernel
/-- Cell 0 with one command in progress on queue `q`. -/
def running (q : BitVec 2) (r : RunCmd) (f : CellState → CellState) : State :=
  runs fun c => f (c.setQueue q { c.queue q with run := [r] })
theorem witness_CommandsComplete :
    ((running 1 { going opc1 with fuse := true } id).cell 0).works = true ∧
    ((running 1 { going opc1 with fuse := true } id).cell 0).handed.length < 4 ∧
    ((running 2 { going opc1 with ended := true } id).cell 0).qms.run = [{ going opc1 with ended := true }] ∧
    (base0.mem.snoop = [] ∧ base0.mem.paused = []) ∧ cOpc opc1 ≠ 0 ∧ cSen (0 : QWord) = false ∧ (((base0.cell 0).setSem 0 0xFFFE).sem 0).toNat < 0xFFFF ∧
    (going opc1).col = false ∧ (going opc1).deliver = none := by decide +kernel

/-- A command of one INT8 step on the array, its rows read. -/
def mx1 (attempt : Nat) (config : BitVec 32) (word : QWord) (trap : Bool) : MxCmd :=
  ⟨{ cmd word with d0 := 3 <<< 28 }, false, attempt, 0, 0, 64, false, true, 0, config, 0, none, trap, false, none⟩
/-- Cell 0 with that command at its check beat. -/
def checking (m : MxCmd) (handed : List ColPart) : State :=
  runs fun c => { c with qmx := ⟨[], [{ going 0 with cmd := m.cmd }]⟩, mx := { c.mx with cmds := [m] }, handed := handed }
/-- The command may be checked: the conditions of R151 and R184 hold. -/
def mayCheck (s : State) (m : MxCmd) : Bool := decide <|
  (s.cell 0).works = true ∧ spanOf m.cmd ≤ m.rows ∧ m.checked = false ∧ (s.cell 0).mx.retry = false
def kindOf (m : MxCmd) (us : List Upset) : Nat := (checkTile m.cmd m.config (upsetBank [] us)).kind
def part0 : ColPart := ⟨1, 0x20000000, 0, 1, 0, false⟩
def streams : QWord := opc1 + 8
theorem witness_MatrixCheckBeat :
    ((runs fun c => { c with mx := { c.mx with retry := true } }).cell 0).mx.retry = true ∧
    (mayCheck (checking (mx1 0 0 opc1 false) []) (mx1 0 0 opc1 false) = true ∧ kindOf (mx1 0 0 opc1 false) [] = 0) ∧
    (mayCheck (checking (mx1 0 0 (opc1 + 4) false) [part0, part0, part0, part0]) (mx1 0 0 (opc1 + 4) false) = true ∧
      cFuse (opc1 + 4) = true) ∧
    (kindOf (mx1 0 1 opc1 false) [⟨63, 63, 1⟩] ≠ 0 ∧ mayCheck (checking (mx1 1 1 opc1 false) []) (mx1 1 1 opc1 false) = true) ∧
    (mPace streams = true ∧ isHeld (mx1 0 1 streams false).cmd = false ∧ kindOf (mx1 0 1 streams false) [⟨63, 63, 1⟩] ≠ 0) ∧
    mayCheck (checking (mx1 0 0 opc1 true) []) (mx1 0 0 opc1 true) = true := by decide +kernel

/-- A chain that waits for the fill of a panel, `n` of its commands in the array. -/
def chained (n : Nat) : State :=
  let m : MxCmd := mx1 0 0 (opc1 + 0x30) false
  runs fun c => { c with qmx := ⟨[m.cmd], []⟩, mx := { c.mx with prev := some m, cmds := List.replicate n m } }
theorem witness_MatrixCheckBeat_fill :
    (let k := (settleTail 0 (streamOn 0 (chained 2))).cell 0;
     ((chained 2).cell 0).mx.retry = false ∧ (∃ n, k.qmx.q = n :: [] ∧ cOpc n.word = 1 ∧ chains k.mx.prev n = true) ∧ 2 ≤ k.mx.cmds.length) ∧
    (let k := (settleTail 0 (streamOn 0 (chained 1))).cell 0; k.mx.cmds.length < 2) ∧
    ((settleTail 0 (streamOn 0 base0)).cell 0).qmx.q = [] := by
  refine ⟨⟨by decide +kernel, ⟨_, rfl, ?_⟩, ?_⟩, ?_⟩ <;> decide +kernel

/-- A group of this module alone, and an operation on it that is complete but for its local parts. -/
def solo : GEntry := [(1, 0x10022), (2, 1), (16, 0)]
def op1 (parts : List Contribution) : ColOp := ⟨0, solo, 0, 1, 1, 0, 0xA, 1, 4, parts, 1, [], [], 9, 0, [], 0, 0⟩
def made (o : Origin) : Contribution := ⟨o, 1, 1, 0, 0, 0, 0, 0, 0, 0, false⟩
/-- Cell 0 runs and the group table lists that group. -/
def grouped (f : CellState → CellState) (ops : List ColOp) : State :=
  { runs f with col := { State.reset.col with active := [(0, solo)], ops := ops } }
theorem witness_CollectiveParts :
    ((grouped (fun c => { c with mx := { c.mx with cmds := [{ mx1 0 0 opc1 false with checked := true }] } }) []).cell 0).works = true ∧
    ((grouped (fun c => { c with qvx := ⟨[], [{ going opc1 with fuse := true }]⟩ }) []).cell 0).qvx.run ≠ [] ∧
    (((grouped (fun c => { c with handed := [part0] }) []).usableGroup 0 (cfGroup part0.cf).toNat).isSome = true ∧
      (cfCop part0.cf).toNat ≠ 2) ∧
    ((grouped (fun c => { c with parts := [part0] }) [op1 [made (.part 0)]]).finishedFor fun k => k.origin = .part 0).isSome = true := by
  decide +kernel
theorem witness_CommandsComplete_collective :
    ((grouped (fun c => { c with qlk := ⟨[], [{ going opc1 with col := true }]⟩ }) [op1 [made (.lcoll 0)]]).finishedFor
      fun k => k.origin = .lcoll 0 ∧ k.seq = 1).isSome = true := by decide +kernel
theorem witness_TransfersAndBallast :
    let late : State := { running 3 (going opc1) id with lt8 := 8000000 }
    (late.cell 0).works = true ∧ (going opc1).start + 1000000 ≤ late.ns ∧ cOpc (going opc1).cmd.word ≠ 0 ∧
    (∀ e ∈ base0.cells, e.2.qlk.run = []) ∧ base0.col.coming = [] ∧ base0.badLinks = [] ∧ (7 : BitVec 3).toNat % 2 = 1 ∧
    (ringLink 6 ∉ ([] : List DieLink) ∧ spokeLink 7 ∈ [spokeLink 7] ∧ ringLink 6 ∈ [ringLink 6]) ∧
    ((base0.cell 0).mx.gap = .none ∧ (base0.cell 0).arrayIdle = true ∧ (base0.box (boxOf 0)).ballastCfg.getLsbD 0 = true ∧
      (base0.cell 0).powered = true) := by decide +kernel
/-- Cell 0 in a ballast gap since 0 ns, at line time `ns`. -/
def gapped (g : Gap) (ns : Nat) (cfg : BitVec 32) : State :=
  { runs (fun c => { c with mx := { c.mx with gap := g, gapSince := 0, gapCfg := cfg } }) with lt8 := 8 * ns }
theorem witness_TransfersAndBallast_ballast :
    (let s := gapped .hold 40000 0xFF01; (s.cell 0).mx.gap = .hold ∧
      (s.cell 0).mx.gapSince + 1000 * min 40 ((s.cell 0).mx.gapCfg.toNat / 256 % 256) ≤ s.ns) ∧
    (let s := gapped .ramp 8000 0x0101; (s.cell 0).mx.gap = .ramp ∧
      (s.cell 0).mx.gapSince + 1000 * max 8 ((s.cell 0).mx.gapCfg.toNat / 65536 % 256) ≤ s.ns) := by decide +kernel
/-- One INT32 element at `offset` of this cell's store. -/
def elem (offset : Nat) : QWord := BitVec.ofNat 128 (offset * 2 ^ 56 + 4 * 2 ^ 32 + 0xA * 2 ^ 28 + 2 ^ 14 + 1)
theorem witness_VectorIntegerElement : IntElem (elem 0) ∧ IntElem (elem 4) ∧ IntElem (elem 0x2FFFFC) ∧
    (let w : QWord := opc1 + (0xA <<< 78) + 8; cOpc w = 1 ∧ vCt w = true ∧ vBimm w = false ∧ cFuse w = false ∧ (vFn w).toNat ≤ 0xA) := by
  decide +kernel
theorem witness_CellBanksAndStates_loads :
    (let s := base0; s.boxRuns (boxOf 0) = true ∧ s.activeCell 0 = true ∧ (s.cell 0).st ≠ .stopped ∧ (s.cell 0).banks.load = none ∧
      (List.replicate 16 (0 : Byte)).length ≤ 65536) ∧
    (let c := (base0.cell 0).banks; c.active = false) ∧
    (let s : State := { State.reset with lt8 := 800000 }; 0 + 100000 ≤ s.ns) ∧
    (let s := State.reset.setCell 0 { base0.cell 0 with st := .idle, banks := { (base0.cell 0).banks with valid0 := true } }
     s.boxRuns (boxOf 0) = true ∧ (s.cell 0).st = .idle ∧ (s.cell 0).banks.validOf false = true) := by decide +kernel
theorem witness_CellBanksAndStates_states :
    (let c := (runs fun c => { c with st := .halted }).cell 0; c.st = .halted ∧ c.drained = true) ∧
    (let s := runs fun c => { c with st := .faulted }
     (s.cell 0).report = false ∧ (s.cell 0).retiring = false ∧ s.boxRuns (boxOf 0) = true) ∧
    (let s := runs fun c => { c with st := .idle, retiring := true }
     s.dsp.tasks.all (fun t => !(t.started && t.cells.contains 0)) = true ∧ (s.chooseSpare (dieOf 0)).isSome = true) ∧
    (let s : State := { State.reset with pool := { State.reset.pool with joining := [(0, 0x08F)] } }
     (s.pool.joining.find? fun p => p.1 = 0) = some (0, 0x08F) ∧ (s.cell 0x08F).st = .spare) := by decide +kernel

/-- Cell 0 with context 0 running at address 0, changed by `f`. -/
def marshals (f : WbCtx → WbCtx) : State :=
  runs fun c => { c with wb := rset c.wb 0 (f { WbCtx.idle with busy := true, k := rset WbCtx.idle.k 1 5 }) }
/-- A waybill word with opcode `n`. -/
def wb (n : Nat) (w : Nat) : Nat := n * 2 ^ 58 + w
theorem witness_WaybillInstructions :
    ((marshals id).cell 0).CtxRuns 0 ∧ (rget ((marshals id).cell 0).wb 0).signals = [] ∧
    (rget ((marshals fun x => { x with out := [.inr ⟨1, 1⟩] }).cell 0).wb 0).signals ≠ [] ∧
    (rget ((marshals id).cell 0).wb 0).writesOut = false ∧
    (rget ((marshals fun x => { x with out := [.inl ⟨.dev 0, .store 0 0, [], false, 0, 0, 0, 0, false⟩] }).cell 0).wb 0).writesOut = true ∧
    rget (rget ((marshals id).cell 0).wb 0).k 1 ≠ 0 ∧ rget (rget ((marshals id).cell 0).wb 0).k 0 = 0 ∧
    ((marshals id).cell 0).mayTake 0 5 0 = true ∧ ((marshals id).cell 0).mayTake 0 5 1 = false ∧
    0 + 256 * 0x3000 ≤ 0x300000 ∧ 0x300000 < 256 + 256 * 0x3000 ∧ 255 % 256 ≠ 0 := by decide +kernel
theorem witness_WaybillInstructions_words :
    ∀ e ∈ [(0x00, legalNone, 0), (0x01, legalNone, 0), (0x02, legalSetv, 0xFFFFFFFFFF), (0x03, legalAddv, 0xFFFFFFFF), (0x04, legalAddvv, 0),
      (0x05, legalGetd, 6 * 2 ^ 52 + 4 * 2 ^ 49), (0x06, legalShape, 0), (0x07, legalSetk, 0xFFFFFFFF), (0x07, legalSetk, 2 ^ 55),
      (0x08, legalLoop, 255 * 2 ^ 48), (0x09, legalWait, 0), (0x0A, legalSignal, 0), (0x0B, legalNone, 0), (0x0C, legalSetring, 0x3000),
      (0x0D, legalSetc, 0x7FF)], wbOp (wb e.1 e.2.2) = e.1 ∧ e.2.1 (wb e.1 e.2.2) = true := by decide +kernel
theorem witness_WaybillInstructions_illegal :
    (∀ n ∈ [0x0E, 0x0F, 0x11, 0x3F], wbOpOf (wbOp (wb n 0)) = none) ∧ legalNone (wb 0 1) = false := by decide +kernel
/-- A straight MOVE of one row of 16 bytes from v0 to v1 of this cell's store. -/
def mv : DWord := 0x10 <<< 58 ||| 1 <<< 44
def sh1 : Shape := ⟨1, 16, 0, 0⟩
def moves : State := marshals fun x => { x with h := rset x.h 0 (some sh1), v := rset x.v 1 0x2FFFF0 }
theorem witness_WaybillMoves : (moves.cell 0).CtxRuns 0 ∧
    (let m := moveOf mv.toNat; (m.xf = 0 ∧ m.ssp = 0 ∧ m.dsp = 0 ∧ m.rng = false ∧ sh1.nr = 1 ∧ 0 < sh1.len ∧
      (rget (rget (moves.cell 0).wb 0).v m.sa).toNat + sh1.len ≤ 0x300000 ∧
      (rget (rget (moves.cell 0).wb 0).v m.da).toNat + sh1.len ≤ 0x300000)) ∧ moves.mem.snoop = [] ∧ moves.mem.paused = [] := by
  decide +kernel
/-- Cell 0 once its context 0 has fetched. -/
def fetched' (s : State) : State := s.setCell 0 (((s.cell 0).fetched 0).stamp s.ns)
theorem witness_WaybillMoves_ready : MoveReady (fetched' moves) (rget ((fetched' moves).cell 0).wb 0) mv sh1 := by decide +kernel
theorem witness_WaybillMoves_gather :
    (moveGather (fetched' moves) ((fetched' moves).cellMap 0) 0 (rget ((fetched' moves).cell 0).wb 0) (moveOf mv.toNat) sh1).fault =
      none := by decide +kernel
/-- A MOVE with transform 1 of one-byte elements, of four rows of 64 bytes. -/
def mvx : DWord := mv ||| 1 <<< 42
def sh4 : Shape := ⟨4, 64, 64, 64⟩
def turns : State := marshals fun x => { x with h := rset x.h 0 (some sh4), v := rset x.v 1 0x1000 }
theorem witness_WaybillMoves_transform : let s := fetched' turns
    MoveReady s (rget (s.cell 0).wb 0) mvx sh4 ∧ (moveOf mvx.toNat).xf ≠ 0 ∧
    (match s.freeUnit 0 with
      | .inl u => (moveGather u (u.cellMap 0) 0 (rget (u.cell 0).wb 0) (moveOf mvx.toNat) sh4).fault.isNone && u.mem.snoop.isEmpty &&
          u.mem.paused.isEmpty
      | .inr _ => false) = true := by decide +kernel
theorem witness_WaybillTransformsAndEvents_transforms :
    shapeOk { moveOf 0 with xf := 0, ew := 1 } ⟨4, 256, 0, 0⟩ = true ∧ shapeOk { moveOf 0 with xf := 1, ew := 2 } ⟨3, 128, 0, 0⟩ = true ∧
    shapeOk { moveOf 0 with xf := 2, ew := 4 } ⟨64, 128, 0, 0⟩ = true ∧ shapeOk { moveOf 0 with xf := 3, ew := 1 } ⟨64, 128, 0, 0⟩ = true := by
  decide +kernel
/-- A row on its way between HBM and this cell's store. -/
def row (inward pm : Bool) : Piece :=
  if inward then ⟨.dev 0, .store 0 0, [(0, false)], pm, 0, 0, 0, 0, false⟩ else ⟨.store 0 0, .dev 0, [(0, false)], pm, 0, 0, 0, 0, false⟩
theorem witness_WaybillTransformsAndEvents_events :
    ((marshals fun x => { x with waitOn := some (3, 1) }).cell 0).works = true ∧
    (((marshals id).cell 0).setSem 3 1).mayTake 3 5 1 = true ∧ ((marshals id).cell 0).mayTake 3 5 1 = false ∧
    (marshals id).mem.snoop = [] ∧ (marshals id).mem.paused = [] ∧
    ((row true true).inbound 0 = true ∧ (row true true).outbound 0 = false ∧ (row true true).pm = true) ∧
    ((row false false).outbound 0 = true ∧ (row false false).pm = false) := by decide +kernel
theorem witness_WaybillTransformsAndEvents_lost :
    let far : Piece := ⟨.dev 0x1EC3000000, .store 0 0, [(0, false)], true, 0, 0, 0, 0, false⟩
    let s (l : List DieLink) (ns : Nat) : State :=
      { marshals fun x => { x with out := [.inl far], marked := true } with badLinks := l, lt8 := 8 * ns }
    (rget ((s [] 0).cell 0).wb 0).out = [.inl far] ∧ far.inbound 0 = true ∧ far.outbound 0 = false ∧ (s [] 0).pathLost far = false ∧
    far.since + 1000000 ≤ (s [] 1000000).ns ∧ (s [] 999999).ns < far.since + 1000000 := by decide +kernel
theorem witness_WaybillTransformsAndEvents_failed :
    let far : Piece := ⟨.host 0, .store 0 0, [(0, false)], true, 0, 0, 0, 0, false⟩
    ({ State.reset with hif := { State.reset.hif with linkUp := false } } : State).pathLost far = true ∧ far.inbound 0 = true ∧ far.outbound 0 = false := by decide +kernel

/-- The module after its first start, and the same with the CXL link up. -/
def up : State := match execStartComplete [] State.reset with | .next t => t | _ => State.reset
def linked : State := { up with hif := { up.hif with linkUp := true, width := 16, rate := 64 } }
theorem witness_MemorySectors : up.memRuns = true ∧ up.mem.snoop = [] ∧ up.mem.queued = [] ∧ up.mem.paused = [] ∧
    Sparse.find up.mem.paused (up.mem.pchOf 0) = none ∧ Sparse.find up.mem.paused (up.mem.pchOf 35999999999) = none ∧
    0 ∉ up.mem.poison ∧ 0 ∈ ({ up.mem with poison := [0] } : MemState).poison ∧ (List.replicate 32 (1 : Byte)).length = 32 ∧
    (1 : BitVec 5).toNat + (List.replicate 31 (1 : Byte)).length ≤ 32 ∧ up.mem.scrubCfg.getLsbD 0 = true ∧
    (1151999999992 / 32 = 35999999999 ∧ 1151999999992 % (EFmt.int64.width / 8) = 0) := by decide +kernel
theorem witness_HostMemoryAndRepair_accesses : linked.hostUp = true ∧ linked.hostUndef 0 = false ∧ linked.hostUndef 1151999999999 = false ∧
    linked.hostUndef 1152124977151 = false ∧ 2 * (1151999999999 / 64) ∉ linked.mem.poison ∧
    1151999999999 % 64 + (List.replicate 1 (0 : Byte)).length ≤ 64 := by decide +kernel
/-- HBM whose lane 35 of pseudo-channel 1,023 has just failed `MEM_REPAIR_CFG.THRESH` times. -/
def failing : State := { up with mem := { up.mem with laneErr := [(64 * 1023 + 35, List.replicate up.mem.thresh up.ns)] } }
theorem witness_HostMemoryAndRepair_repair :
    (([⟨5, true⟩] : List SnoopWait).find? fun w => w.line = 5).isSome = true ∧ 17999999999 < 18000000000 ∧
    (failing.memRuns = true ∧ failing.mem.repairCfg.getLsbD 0 = true ∧
      failing.mem.thresh ≤ ((Sparse.at [] failing.mem.laneErr (64 * 1023 + 35)).filter fun t => failing.ns < t + 1000000).length ∧
      Sparse.find failing.mem.paused 1023 = none ∧ 1023 ∉ failing.mem.spareUsed) ∧
    (let m : MemState := { failing.mem with spareUsed := [1023], noSpare := [64 * 1023 + 35] }
     1023 ∈ m.spareUsed ∧ 64 * 1023 + 35 ∈ m.noSpare ∧ 64 * 1023 + 34 ∉ m.noSpare) ∧
    Sparse.find (Sparse.put ([] : Sparse Nat) 1023 35) 1023 = some 35 ∧ up.mem.queued = [] := by decide +kernel
/-- A tensor of 64 KiB in HBM, tier 1. -/
def tensor1 : Tensor := ⟨1, .hbm [(0, 65536)], 65536, 0, 1, false, false, false, 0⟩
def holds : State := { up with mem := { up.mem with tensors := [tensor1], shadow := [tensor1] } }
theorem witness_ScopesAndTiers :
    ((0 : BitVec 32).getLsbD 0 = false ∧ (1 : BitVec 32).getLsbD 0 = true ∧ up.mem.hbm = []) ∧
    (holds.inUse 1 = false ∧ holds.oldMap = false ∧ holds.mem.snoop = [] ∧ holds.mem.paused = [] ∧ holds.mustLeave tensor1 = false ∧
      holds.evictOk tensor1 = true ∧ tensor1.pinned = false ∧ TLoc.ofSpot (.hbm [(65536, 65536)]) ≠ tensor1.loc) ∧
    (holds.hif.fwUp = true ∧ holds.dsp.tasks = [] ∧ holds.memRuns = true ∧ tensorIn holds.mem.tensors 1 = some tensor1 ∧
      (TLoc.ofSpot (.lender 2 0)).tier = tensor1.loc.tier + 1 ∧
      (TLoc.ofSpot (.hbm [(65536, 65536)])).tier = 1 ∧
      holds.placeOk 1 65536 0 (TLoc.ofSpot (.hbm [(65536, 65536)])) = true) ∧
    (∀ e ∈ holds.cells, e.2.qlk.run = [] ∧ e.2.qms.run = [] ∧ ∀ i, (rget e.2.wb i).out = []) := by decide +kernel
/-- A tensor whose preferred tier is 1, in host memory of a grant. -/
theorem witness_ScopesAndTiers_host :
    let t : Tensor := { tensor1 with loc := .host 8192 }
    let s : State := { up with hif := { up.hif with featOn := 0xFF }, mem := { up.mem with tensors := [t], shadow := [t], grants := [(1, (8192, 65536))] } }
    (tensor1.prefer ≤ 1 ∧ 1 < t.loc.tier) ∧ s.placeOk 1 65536 0 (TLoc.ofSpot (.hbm [(0, 65536)])) = true ∧
    s.placeOk 1 65536 0 (TLoc.ofSpot (.host 8192)) = true ∧ s.placeOk 1 65536 0 (TLoc.ofSpot (.host 8193)) = false := by decide +kernel
theorem witness_ArbiterDecisions :
    (let k := up.arbBlock 0; (k.slot + 2 ≠ 0) ∧ up.memRuns = true ∧ k.arbs = [] ∧ up.pwr.main = true) ∧
    ((62 : BitVec 6) + 2 = 0) ∧
    (∃ o, (up.arbBlock 0).act.owner 0 = some o ∧ (eligible 0 (up.arbBlock 0).act Arb.init 0xFFFF).getLsbD o.toNat = true) ∧
    eligible 0 (up.arbBlock 0).act Arb.init 0 = 0 := by
  refine ⟨by decide +kernel, by decide, ⟨11, ?_⟩, by decide +kernel⟩; decide +kernel

/-- A task entry for `size` cells whose image is one block of tensor 1. -/
def entry (ctrl : BitVec 32) (size : BitVec 16) : TaskEntry := ⟨ctrl, size, 0, 0, 0, 1, 1, 0, 0, 0, 0, 0, 0, 0, 0, 0, 0⟩
def task1 (st : Stage) (cells : List CellId) : Task := { Task.new 1 (entry 0x12000000 1) 0 0 1 st 0 with cells := cells }
def ring16 : HostQueue :=
  { HostQueue.init with state := .active, sqSlots := 16, cqSlots := 16, sqBase := 4096, cqBase := 8192, phase := true }
/-- The module with the tasks `l` and queue 0 active, of 16 entries each way. -/
def busy (l : List Task) (f : HostQueue → HostQueue) : State :=
  { linked with
    dsp := { linked.dsp with tasks := l }
    hif := { linked.hif with attached := true, queues := rset linked.hif.queues 0 (f ring16) } }
theorem witness_DispatchIntake :
    let s := busy [] id
    s.hostUp = true ∧ (s.queue 0).tailOk 15 = true ∧ (s.queue 0).tailOk 16 = false ∧ s.hif.fifo.length < 256 ∧ s.dispRuns = true ∧
    s.hif.fwUp = true ∧ s.ns ≤ s.ns + 1000000 ∧ (s.queue 0).state = .active ∧ (s.queue 1).state ≠ .active ∧
    (({ s with hif := { s.hif with fetches := [⟨0, 0, true⟩] } } : State).hif.fetches = [⟨0, 0, true⟩]) ∧
    (entry 0x10000000 0).formed false (s.hif.feat 2) = false ∧ (entry 0x10000000 65535).formed false (s.hif.feat 2) = true ∧
    (entry 0x10000000 1).formed false (s.hif.feat 2) = true ∧ (entry 0x10000000 1152).formed false (s.hif.feat 2) = true := by
  decide +kernel
theorem witness_DispatchIntake_place :
    let s (size : BitVec 16) : State := busy [Task.new 1 (entry 0x10000000 size) 0 0 1 .ready 0] id
    let t (size : BitVec 16) : Task := Task.new 1 (entry 0x10000000 size) 0 0 1 .ready 0
    ((s 1).dsp.tasks.filter Task.isReady) = [t 1] ∧ (s 1).mayStart (t 1) = true ∧ (entry 0x10000000 1).marker = false ∧
    (entry 0x20000000 1).marker = true ∧ (s 1).awaitsMoves (t 1) [0] = false ∧ (s 1).mem.snoop = [] ∧ (s 1).mem.paused = [] ∧
    (match (s 1).findConsist (t 1) with | .cells _ => true | _ => false) = true ∧
    (match (s 1152).findConsist (t 1152) with | .never => true | _ => false) = true ∧
    (match (s 1).findConsist { t 1 with entry := entry 0x10200000 1 } with | .bad => true | _ => false) = true := by decide +kernel
/-- The same with the tensor of the image in HBM, and its task placed on cell 0. -/
def prepared : State :=
  { busy [task1 .placed [0]] id with mem := { up.mem with tensors := [tensor1], shadow := [tensor1] } }
theorem witness_MembersOfTasks :
    prepared.boxRuns 0 = true ∧ (prepared.task 1) = some (task1 .placed [0]) ∧ prepared.mem.snoop = [] ∧ prepared.mem.paused = [] ∧
    ((task1 .placed [0]).cells.filter fun c => boxOf c == 0 && !(task1 .placed [0]).loaded.contains c) = [0] ∧
    (task1 .placed [0]).entry.parts = [(1, 256), (0, 0), (0, 0)] ∧ (prepared.readClean (some 0) 0 1 256).isSome = true ∧
    prepared.readClean (some 0) 0 0 0 = some [] ∧ prepared.readClean (some 0) 0 2 256 = none := by
  decide +kernel
theorem witness_MembersOfTasks_start :
    let k : Task := { task1 .placed [0] with loaded := [0] }
    let s : State := busy [k] id
    let t : State := s.setCell 0 { s.cell 0 with banks := { (s.cell 0).banks with valid1 := true, pre := some 1 } }
    (k.stage = .placed ∧ (∀ c ∈ k.cells, c ∈ k.loaded) ∧ (k.cells.filter fun c => boxOf c == 0) = [0]) ∧
    (t.cell 0).banks.pre = some 1 ∧ (t.cell 0).st = .idle ∧ (t.cell 0).banks.load = none ∧ (t.cell 0).banks.validInactive = true ∧ t.boxRuns 0 = true := by
  decide +kernel
theorem witness_TaskEndsFaultsAndRecords_faults :
    let s : State := (busy [task1 .running [0]] id).setCell 0 { base0.cell 0 with st := .faulted, report := true }
    let e : State := (busy [task1 .ending [0]] id).setCell 0 (base0.cell 0)
    s.dispRuns = true ∧ (s.cell 0).report = true ∧ e.boxRuns (boxOf 0) = true ∧ (e.cell 0).core.enq = none ∧
    (∃ t ∈ e.dsp.tasks, t.stage = .ending ∧ 0 ∈ t.cells) := by decide +kernel
def ebytes : List Byte := [0, 0, 0, 0x10, 1, 0] ++ List.replicate 22 0 ++ [1] ++ List.replicate 35 0
/-- Cell 0 has issued ENQ with a well formed entry at 0 ns, as task 1 with `credits` left. -/
def enqs (credits : Nat) (a : Option EnqAnswer) (ns : Nat) : State :=
  let s := busy [{ task1 .running [0] with credits := credits }] id
  { s.setCell 0 { base0.cell 0 with
      task := { (base0.cell 0).task with id := 1 }
      core := { (base0.cell 0).core with enq := some ⟨0, ebytes, 0, 0, a⟩ } } with
    lt8 := 8 * ns }
theorem witness_TaskEndsFaultsAndRecords_enq :
    ((enqs 1 none 0).dispRuns = true ∧ (enqs 1 none 0).starting = true ∧ ({ enqs 1 none 0 with rcv := { up.rcv with state := 1 } } : State).starting = false ∧
      ((enqs 1 none 0).cell 0).st = .running ∧ ((enqs 1 none 0).task 1).isSome = true ∧
      (match ((enqs 1 none 0).cell 0).core.enq with | some w => (TaskEntry.ofBytes w.entry).formed true false | none => false) = true ∧
      0 < (enqs 1 none 0).dsp.depth) ∧
    ((enqs 0 (some ⟨true, 2⟩) 10000).ns ≤ 0 + 10000 ∧ 0 + 10000 < (enqs 0 none 10001).ns ∧ (enqs 0 none 10001).boxRuns (boxOf 0) = true) := by
  decide +kernel
theorem witness_TaskEndsFaultsAndRecords_refused :
    (let s := enqs 0 none 0; s.starting = true ∧ (s.task 1).isSome = true ∧ ((s.task 1).map Task.credits) = some 0) ∧
    (let s := enqs 1 none 0
     let full : State := { s with dsp := { s.dsp with cfg := 0x10000, tasks := s.dsp.tasks ++ [Task.new 2 (entry 0x10000000 1) 64 1 1 .dmq 0] } }
     full.dsp.depth ≤ (full.dsp.tasks.filter fun t => t.stage == .dmq).length) ∧
    (TaskEntry.ofBytes (ebytes.set 4 0)).formed true false = false := by decide +kernel
theorem witness_TaskEndsFaultsAndRecords_running :
    (task1 .running [0]).stage = .running ∧ (task1 .running [0]).left = [] ∧ ({ task1 .running [0] with left := [0] } : Task).left ≠ [] ∧
    (task1 .running [0]).descFail = false := by decide +kernel
theorem witness_TaskEndsFaultsAndRecords_ends :
    let r : Task := { task1 .ending [0] with status := 1, suspect := some 0 }
    let s : State := busy [r] id
    s.dispRuns = true ∧ s.task 1 = some r ∧ s.membersLeft r = false ∧ s.reruns r = true ∧ r.parent = 0 ∧ r.root = r.id ∧ r.mute = false ∧
    r.entry.phase = 0 ∧ (busy [task1 .running [0]] id).membersLeft (task1 .running [0]) = false := by decide +kernel
def rec1 : CplRec := ⟨0, 1, 0, 0, 0, 0x7FF, false, 0⟩
theorem witness_TaskEndsFaultsAndRecords_records :
    let k := (busy [] id).queue 0
    (k.exists' = true ∧ k.state ≠ .haltedCpl ∧ k.ring = [] ∧ k.waiting = [] ∧ k.cqFull = false ∧ (busy [] id).writing 0 = false ∧
      ((busy [] id).queue 1).exists' = false) ∧
    (let h := (busy [] fun k => { k with state := .haltedCpl }).queue 0; h.exists' = true ∧ h.ring.length < 4096) ∧
    (([⟨0, 8192, [], 0, some rec1, false, 0, 0, 0⟩] : List RecWrite).find? fun w => w.queue = 0).isSome = true := by decide +kernel
theorem witness_HostHeadsLeaseAndFailures_heads :
    let s := busy [] fun k => { k with cqTail := 15 }
    let l (ns : Nat) (lease expired : Bool) : State :=
      { s with lt8 := 8 * ns, hif := { s.hif with lease := lease, expired := expired, leaseNo := 7, leaseAt := 0 } }
    (s.hostUp = true ∧ (s.queue 0).headOk 15 = true ∧ (s.queue 0).headOk 16 = false ∧ s.hif.evBase = 0 ∧ s.portsOn = true ∧
      s.hif.linkUp = true ∧ linkShape 4 8 = true ∧ s.hif.perst = false) ∧
    ((l 2000000000 true false).ns ≤ 0 + 2000000000 ∧ 0 + 2000000000 < (l 2000000001 true false).ns ∧ (l 0 false true).hif.expired = true ∧
      (l 0 true false).pwr.main = true ∧ (l 0 true false).hif.attached = true ∧ (l 0 true false).hif.fwUp = true) := by decide +kernel
theorem witness_HostHeadsLeaseAndFailures_failures :
    let s := busy [] fun k => { k with count := 1, time := 1, since := 1, firstAt := 0 }
    let t : State := { s with hif := { s.hif with featOn := 0x40, fetches := [⟨0, 0, true⟩]
                                                  writes := [⟨0, 8192, [], 0, some rec1, false, 0, 0, 0⟩, ⟨64, 0, [], 0, none, false, 0, 0, 0⟩] } }
    let u : State := { t with lt8 := 8000000 }
    u.hif.fwUp = true ∧ 0 + 1000000 ≤ u.ns ∧ u.hostUp = true ∧ (u.queue 0).state = .active ∧ (u.queue 1).state ≠ .active ∧
    (u.hif.writes.find? fun w => w.queue = 0).isSome = true ∧ (u.hif.writes.find? fun w => w.queue = 64).isSome = true ∧
    u.hif.evQueue = [] ∧ (u.queue 0).ring.length < 4096 ∧ (u.queue 0).waiting = [] ∧
    u.hif.feat 6 = true ∧ (u.queue 0).since ≠ 0 ∧ (u.queue 0).firstAt + 1000 * (u.queue 0).time ≤ u.ns ∧ u.hif.detached = false ∧
    u.dispRuns = true := by decide +kernel

/-- The attached module with message `opc` in its mailbox. -/
def asks (opc : Byte) (args : List Byte) (s : State) : State :=
  { s with hif := { s.hif with mbBusy := true, featOn := 0xFF
                               mbReq := Mem.write 0 [] 0 ([opc, 0, BitVec.ofNat 8 args.length, 0, 0, 0, 0, 0] ++ args) } }
/-- The arguments of a queue 5 with 2 submission and 16 completion slots. -/
def qargs : List Byte := [5, 0, 0, 0, 0, 0, 0, 0] ++ leBytes 8 4096 ++ [1, 0] ++ List.replicate 6 0 ++ leBytes 8 8192 ++ [15, 0]
theorem witness_MailboxQueueMessages :
    ((asks 3 qargs (busy [] id)).Asked 3 34 ∧ (asks 3 qargs (busy [] id)).queueArgsOk = true ∧
      (asks 3 qargs (busy [] id)).mbArg 0 1 = 5 ∧ ((asks 3 qargs (busy [] id)).queue 5).exists' = false) ∧
    (asks 4 [0] (busy [] id)).Asked 4 1 ∧ ((asks 4 [0] (busy [] id)).queue 0).exists' = true ∧ (asks 4 [64] (busy [] id)).mbArg 0 1 = 64 ∧
    (asks 5 qargs (busy [] id)).Asked 5 34 ∧ (asks 6 [0] (busy [] id)).Asked 6 1 ∧ (asks 0xF [0, 0, 0, 0] (busy [] id)).Asked 0xF 4 ∧
    (asks 0x10 (List.replicate 11 0) (busy [] id)).Asked 0x10 11 := by decide +kernel
theorem witness_MailboxQueueMessages_refused :
    ((busy [] fun k => { k with state := .haltedCpl }).queue 0).state = .haltedCpl ∧
    (asks 0x10 (List.replicate 11 0) (busy [] id)).hif.feat 5 = true ∧ (asks 0x10 (List.replicate 11 0) (busy [] id)).mbArg 0 8 = 0 ∧
    (asks 0x11 [] linked).mbServed = true ∧ linked.hif.attached = false ∧ (asks 2 [] linked).hif.mbBusy = true := by decide +kernel
theorem witness_MailboxOtherMessages :
    (asks 1 [1, 1, 0, 0, 0xFF, 0, 0, 0] linked).Asked 1 8 ∧ (asks 1 [1, 1, 0, 0, 0xFF, 0, 0, 0] linked).hif.lease = false ∧
    (asks 1 [1, 1, 0, 0, 0xFF, 0, 0, 0] linked).mbArg 2 2 = 0 ∧ (asks 2 [] (busy [] id)).Asked 2 0 ∧
    (asks 7 [1, 0, 0, 0, 0] (busy [task1 .running [0]] id)).Asked 7 5 ∧
    (asks 7 [1, 0, 0, 0, 0] (busy [task1 .running [0]] id)).task 1 = some (task1 .running [0]) := by decide +kernel
theorem witness_MailboxOtherMessages_tensors :
    let m := asks 8 (leBytes 8 65536 ++ [1, 0, 0, 0]) (busy [] id)
    m.Asked 8 12 ∧ m.mbArg 8 1 ≤ (TLoc.ofSpot (.hbm [(65536, 65536)])).tier ∧ m.mem.tensors = [] ∧
    m.placeOk 2 65536 0 (TLoc.ofSpot (.hbm [(65536, 65536)])) = true ∧
    (prepared.room 1 65536 0 none = true ∧ prepared.room 3 65536 0 none = false) ∧
    tensor1.loc.whole = true ∧ (TLoc.hbm [(0, 256), (1024, 256)]).whole = false ∧ m.mbArg 9 1 = 0 ∧ m.mbArg 11 1 = 0 ∧
    (asks 9 [1, 0, 0, 0] prepared).Asked 9 4 ∧ (asks 9 [1, 0, 0, 0] prepared).tensor 1 = some tensor1 ∧
    (asks 9 [2, 0, 0, 0] prepared).tensor 2 = none ∧ (asks 0xA [1, 0, 0, 0, 1] prepared).Asked 0xA 5 ∧ tensor1.loc.tier = 1 := by
  decide +kernel
/-- Only host memory has room for a tensor of 1,152,000,000,256 bytes. -/
theorem witness_MailboxOtherMessages_spill :
    let m := asks 8 (leBytes 8 1152000000256 ++ [1, 0, 0, 0]) { busy [] id with mem := { up.mem with grants := [(1, (8192, 2000000000000))] } }
    m.Asked 8 12 ∧ m.mbArg 0 8 = 1152000000256 ∧ m.room 1 1152000000256 0 none = false ∧ m.room 2 1152000000256 0 none = false ∧
    m.room 3 1152000000256 0 none = true ∧ m.placeOk 2 1152000000256 0 (TLoc.ofSpot (.host 8192)) = true ∧
    (TLoc.ofSpot (.host 8192)).tier = 3 ∧ m.room 3 2000000000001 0 none = false := by decide +kernel
theorem witness_MailboxOtherMessages_grants :
    let m := asks 0xD (leBytes 8 4096 ++ leBytes 8 8192) (busy [] id)
    m.Asked 0xD 16 ∧ m.hif.feat 3 = true ∧ m.mbArg 0 8 % 4096 = 0 ∧ Sparse.find m.mem.grants 1 = none ∧
    (asks 0xE [1, 0, 0, 0] (busy [] id)).Asked 0xE 4 ∧ m.hostUp = true ∧ linked.hif.attached = false ∧ m.hif.attached = true := by
  decide +kernel

/-- Port 0 trained and UP, then changed by `f`. -/
def onPort (f : LnkPort → LnkPort) : State :=
  up.setPort 0 (f { rget up.lnk.ports 0 with trained := true, state := 5 })
def port0 (s : State) : LnkPort := rget s.lnk.ports 0
/-- A flit whose data begin with a header of two flits for module 0, and its second flit. -/
def flit1 : Flit := ⟨false, 1, 0, [0, 0, 0, 0, 0, 0, 62, 0, 2, 0]⟩
def flit2 : Flit := ⟨false, 2, 0, []⟩
/-- Line time `ns`. -/
def atNs (ns : Nat) (s : State) : State := { s with lt8 := 8 * ns }
theorem witness_LinkFramesAndLiveness_frames :
    (up.portsOn = true ∧ (port0 (onPort id)).trained = true ∧ (port0 (onPort id)).rx0.length < 512 ∧ (port0 (onPort id)).rxSeq ≠ 5) ∧
    ((port0 (onPort fun k => { k with buf := [flit1, flit2] })).buf = [flit1] ++ flit2 :: [] ∧ (∀ g ∈ [flit1], g.seq ≠ 2) ∧ 6 + 1 < 8) ∧
    (let k := port0 (onPort fun k => { k with noLock := [3], sparesRx := 2 })
     k.failing (onPort id).ns 3 = true ∧ k.lostLock < 3 ∧ (∀ m ∈ k.movesRx, m.lane ≠ 3) ∧ k.movesRx.length < k.sparesRx.toNat ∧
     64 ≤ (k.rxSeq + 64 - k.rxSeq).toNat) ∧
    (let k := port0 (onPort fun k => { k with noLock := [3] }); k.failing (onPort id).ns 3 = true ∧ k.sparesRx.toNat ≤ k.movesRx.length) ∧
    (let k := port0 (onPort fun k => { k with sparesTx := 1 }); k.movesTx.length < k.sparesTx.toNat) ∧
    (let k := port0 (onPort fun k => { k with movesTx := [⟨3, 64⟩], movesRx := [⟨3, 64⟩], txSeq := 64, rxSeq := 64 + 2047 })
     k.movesTx = [⟨3, 64⟩] ∧ k.movesRx = [⟨3, 64⟩] ∧ (k.txSeq - 64).toNat < 2048 ∧ (k.rxSeq - 64).toNat < 2048) := by
  decide +kernel
theorem witness_LinkFramesAndLiveness_liveness :
    (let s := ((onPort fun k => { k with hbAt := 0, hbSent := 0 }) |> atNs 100000)
     (port0 s).state = 5 ∧ s.lnk.wdExpired = false ∧ (port0 s).hbSent + 100000 ≤ s.ns ∧
       ({ s.lnk with ltState := 5 } : LnkState).distance = some 0) ∧
    (({ up.lnk with wdExpired := true } : LnkState).wdExpired = true) ∧
    (let s := ((onPort fun k => { k with hbAt := 0 }) |> atNs 800000)
     (port0 s).state = 5 ∧ s.rcv.jobId = 0 ∧ (port0 s).hbAt + 800000 ≤ s.ns ∧ (atNs 799999 s).ns < (port0 s).hbAt + 800000) ∧
    (port0 (onPort fun k => { k with state := 1 })).state ≠ 5 ∧
    (({ up.lnk with probes := 1 } : LnkState).probes = 0 + 1) ∧ up.pwr.main = true ∧
    up.lnk.wdFed + 100000 ≤ (atNs (up.lnk.wdFed + 100000) up).ns ∧ (atNs (up.lnk.wdFed + 99999) up).ns < up.lnk.wdFed + 100000 := by
  decide +kernel
/-- A plan entry that expects module 7, port 3. -/
def plan2 : BitVec 32 := 2 <<< 30 ||| 3 <<< 18 ||| 7
theorem witness_LinkTraining :
    (port0 up).state ≠ 5 ∧ (port0 up).state ≠ 4 ∧ (port0 up).trained = false ∧ up.portsOn = true ∧
    (let k := port0 (onPort fun k => { k with state := 1, level := 2, planAct := plan2 })
     k.trained = true ∧ k.state = 1 ∧ planKind k.planAct = 2 ∧ planId k.planAct = 7 ∧ planPort k.planAct = 3 ∧ k.level ≠ 0 ∧
       k.peerAccepted = false ∧ k.accepted = false) ∧
    planKind (1 <<< 30) = 1 ∧ planKind 0 ≠ 1 ∧ planKind 0 ≠ 2 ∧
    (let k := port0 (onPort fun k => { k with peerAccepted := true, accepted := true, level := 3 })
     k.peerAccepted = true ∧ k.accepted = true ∧ k.level = 3) ∧
    ((port0 up).state = 0 ∧ (port0 up).trainAt + 100000000 ≤ (atNs ((port0 up).trainAt + 100000000) up).ns) ∧
    (let s := up.setPort 0 { port0 up with state := 3, trainAt := 0 }
     (port0 s).state = 3 ∧ (port0 s).trainAt + 10000000 ≤ (atNs 10000000 s).ns ∧ (atNs 9999999 s).ns < (port0 s).trainAt + 10000000) := by
  decide +kernel
theorem witness_PacketsTablesAndLineTime_packets :
    (let s := onPort fun k => { k with rx0 := [flit1, flit2] }
     s.memRuns = true ∧ (port0 s).trained = true ∧ (port0 s).state = 5 ∧ (port0 s).rx0 = flit1 :: [flit2] ++ [] ∧ [flit2].length + 1 = flit1.len ∧
       flit1.hops = 62 ∧ ({ flit1 with data := [0, 0, 0, 0, 0, 0, 63] } : Flit).hops = 63 ∧
       s.route flit1.dst flit1.rtv flit1.det = .deliver ∧ s.route 8192 false false = .drop 0 ∧ s.route 16 false false = .send 0 true ∧
       flit1.len ≤ (port0 s).cr1 ∧ (port0 s).buf.length + flit1.len ≤ 1024) ∧
    (port0 (onPort fun k => { k with cr1 := 1 })).cr1 < flit1.len ∧
    (∀ k ∈ up.lnk.ports.toList, planKind k.planShd ≠ 3) ∧ up.rcv.releaseDue = false ∧
    (let k := port0 (onPort fun k => { k with accepted := true, level := 2, planAct := plan2, peer := 3 <<< 18 ||| 7 ||| 32768 })
     k.trained = true ∧ k.seen = true ∧ k.rejects = 0 ∧ k.accepted = true ∧ k.peerAccepted = false) ∧
    (let k := port0 (onPort fun k => { k with accepted := true, level := 2, peer := 3 <<< 18 ||| 7 ||| 32768 }); k.seen = true ∧ k.rejects ≠ 0) := by
  decide +kernel
/-- The line-time state `st` with port 0 as parent. -/
def timed (st : BitVec 4) : LnkState :=
  { (onPort fun k => { k with peerDist := some 4 }).lnk with ltState := st, ltParent := 0, ltSent := some 0, ltRoot := 5 }
theorem witness_PacketsTablesAndLineTime_time :
    ((timed 2).hasParent = true ∧ (timed 2).up (timed 2).ltParent.toNat = true ∧ 0 + 128000 ≤ (atNs 16000 up).lt8) ∧
    (timed 2).ltState = 2 ∧ (timed 1).ltState ≠ 2 ∧ (timed 1).ltState ≠ 4 ∧
    ((((8000 : Nat) : Int) - 0) - (((0 : Nat) : Int) - 8000)) / 2 - (timed 1).ltAsym.at 0 0 = 8000 ∧
    ((((8001 : Nat) : Int) - 0) - (((0 : Nat) : Int) - 8001)) / 2 - (timed 1).ltAsym.at 0 0 = 8001 ∧
    ((((0 : Nat) : Int) - 8001) - (((8001 : Nat) : Int) - 0)) / 2 - (timed 1).ltAsym.at 0 0 = -8001 ∧
    (timed 2).rootId ≠ 0x7FFF ∧ ((timed 1).backupRoot = 0) ∧
    (let l : LnkState := { timed 2 with ltParent := 1 }
     l.hasParent = true ∧ l.up l.ltParent.toNat = false ∧ l.bestParent = some (0, 4) ∧ l.ltParent.toNat ≠ 0) ∧
    (let l : LnkState := { (up.lnk) with ltState := 2, ltRoot := 5 }
     l.hasParent = true ∧ l.up l.ltParent.toNat = false ∧ l.bestParent = none) ∧
    (-16#6).toInt = -16 ∧ (16#6).toInt = 16 ∧ (8 : BitVec 4).toNat < 9 ∧ (timed 5).ltState = 5 ∧
    ({ timed 5 with speed0 := 1 } : LnkState).speed0 ≠ 0 := by decide +kernel
/-- Ethernet up on port 0 with queue pair 1, a region and posted work for operation 1 of group 0. -/
def wired : State :=
  { grouped id [op1 []] with lnk := { State.reset.lnk with speed0 := 2, qps := [(1, ⟨false, 9, false⟩)], regions := [(0, ⟨4096, 64, 7⟩)]
                                                           work := [⟨1, 1, 0, 1, 0⟩] } }
theorem witness_EthernetAndRdma :
    (wired.lnk.ethUp = true ∧ wired.lnk.qps.find 1 = some ⟨false, 9, false⟩ ∧ wired.lnk.speed0 ≠ 0 ∧
      (∃ r ∈ wired.lnk.regions, r.2.key = 7 ∧ r.2.base ≤ 4096 ∧ 4096 + 64 ≤ r.2.base + r.2.len) ∧ wired.mem.snoop = [] ∧
      (∀ i < 64, (4096 + i) / 32 ∉ wired.mem.poison)) ∧
    (¬ ∃ r ∈ wired.lnk.regions, r.2.key = 7 ∧ r.2.base ≤ 4096 ∧ 4096 + 65 ≤ r.2.base + r.2.len) ∧
    (1151999999936 + (List.replicate 64 (0 : Byte)).length ≤ 1152000000000) ∧
    (⟨1, 1, 0, 1, 0⟩ ∈ wired.lnk.work ∧ (∀ v ∈ wired.lnk.work, v.id = 1 → v = ⟨1, 1, 0, 1, 0⟩) ∧
      (wired.col.find 0 1 0).isSome = true) ∧
    (0 ≠ (3 : BitVec 2) ∧ 16383 < 16384) := by
  refine ⟨⟨by decide +kernel, by decide +kernel, by decide +kernel, ⟨_, List.mem_singleton.2 rfl, by decide, by decide, by decide⟩,
    by decide +kernel, ?_⟩, ?_, by decide +kernel⟩
  · intro i _ h; exact absurd h (by decide +revert)
  · rintro ⟨r, h, -, -, h2⟩
    have : r = (0, ⟨4096, 64, 7⟩) := List.mem_singleton.1 h
    subst this; simp at h2
theorem witness_EthernetAndRdma_regions :
    ({ tensor1 with pinned := true } : Tensor).pinned = true ∧ ({ tensor1 with pinned := true } : Tensor).lost = false ∧
    (∃ e ∈ [((0 : Nat), 65536)], e.1 ≤ 65472 ∧ 65472 + 64 ≤ e.1 + e.2) ∧
    bitsOf (3 * 2 ^ 29) 30 29 = 3 ∧ wired.lnk.qps.find ((wired.group 0).f 7 23 0) = none := by
  refine ⟨rfl, rfl, ⟨_, List.mem_singleton.2 rfl, by decide, by decide⟩, ?_⟩; decide +kernel
/-- The operation's operands, four bytes of INT32. -/
def op4 : ColOp := { op1 [] with arrived := 0, data := List.replicate 4 (0, false), since := 0 }
theorem witness_CollectivePackets :
    (let s := grouped id [op1 []]; s.memRuns = true ∧ (s.col.find 0 1 0).isSome = true ∧ solo.f 0 15 0 = 0 ∧
      (s.group 0).mode ≠ 0 ∧ s.opGone 0 1 0 = false) ∧
    ({ grouped id [] with col := { (grouped id []).col with dead := [(0, solo.place 1 0)] } } : State).opGone 0 1 0 = true ∧
    (let s := (grouped id [op4]) |> atNs (State.reset.col.timeout)
     op4.since + s.col.timeout ≤ s.ns ∧ (atNs (State.reset.col.timeout - 1) s).ns < op4.since + s.col.timeout) ∧
    (let s : State := { grouped id [] with col := { (grouped id []).col with coming := [made (.part 0)] } }
     s.col.coming = made (.part 0) :: [] ∧ s.mixedGroup = false ∧ s.opGone 0 0 0 = false) ∧
    (let c : ColState := { State.reset.col with shadow := [(0, [(1, 0x10022), (2, 0x10001), (16, 0)])] }
     (∀ e ∈ c.shadow, e.2.fault = none) ∧ (c.shadow.map fun e => if e.2.mode = 0 then 0 else e.2.nwords).sum ≤ 1048576) := by
  decide +kernel
theorem witness_CollectivePackets_tables :
    let c : ColState := { State.reset.col with active := [(0, solo)], shadow := [(0, solo)] }
    ∀ k, GEntry.ver (c.active.at [] k) = GEntry.ver (c.shadow.at [] k) := fun _ => rfl
def ring2 : RingStage := ⟨0, [0, 1], 0, [0, 5]⟩
theorem witness_CollectivePackets_take :
    let h : ColHdr := ⟨5, 0, 0x22, 1, false, 0, 0, 0⟩
    op4.cop ≠ 5 ∧ [ring2].zipIdx.find? (fun x => x.1.code = h.code) = some (ring2, 0) ∧
    (let c := cutShare op4.granule (op4.region [ring2] 0) ring2.n (ringArrival ring2 h.gather h.step)
     max c.1 (256 * 0) + 0 ≤ min c.2 op4.data.length) ∧ op4.finished [ring2] = false := by decide +kernel

/-- The module after its first start, its recovery state, power or firmware changed by `f`. -/
def rec' (f : RecState → RecState) : State := { up with rcv := f up.rcv }
def power (f : PwrState → PwrState) : State := { up with pwr := f up.pwr }
def firm (f : FwState → FwState) : State := { up with fw := f up.fw }
/-- Member of job 5, whose epoch group is group 0 and whose coordinator and backup is module 9. -/
def inJob (r : RecState) : RecState := { r with job := 0x50000, coord := 0x00090009 }
theorem witness_RecoveryHolds :
    (let s := rec' inJob; s.rcv.jobId ≠ 0 ∧ s.rcv.selfFailed = false ∧ s.pwr.main = true ∧ s.dbg.braked = false ∧ s.hif.fwUp = true ∧
      s.rcv.state = 0) ∧
    (let s : State := { rec' inJob with lnk := { (onPort id).lnk with holdKeys := [(5, 6)] } }
     s.lnk.up 0 = true ∧ (5, 6) ∈ s.lnk.holdKeys ∧ (5, 7) ∉ s.lnk.holdKeys) ∧
    (let s := rec' fun r => { inJob r with state := 3, pairs := [(7, 8)] }; s.planNames 7 = true ∧ s.planNames 9 = false) ∧
    ({ up with hif := { up.hif with fwUp := false } } : State).hif.fwUp = false := by decide +kernel
theorem witness_RecoveryHolds_held :
    let s := rec' fun r => { inJob r with state := 1 }
    s.rcv.state = 1 ∧ s.rcv.selfFailed = false ∧ s.dsp.tasks = [] ∧
    (∀ i ∈ (List.range 6), (rget s.arbLnk (BitVec.ofNat 3 i)).pending = false) ∧ s.pwr.main = true ∧ s.hif.fwUp = true ∧
    s.dbg.braked = false ∧ s.rcv.saved = none ∧ s.rcv.coordId ≠ 0x7FFF ∧ s.rcv.coordId ∉ s.rcv.heard ∧
    s.rcv.coordId ≠ s.modId.toNat ∧ s.rcv.backupId = s.rcv.coordId ∧ s.rcv.backupId ≠ s.modId.toNat := by decide +kernel
theorem witness_RecoveryRounds :
    (let s := rec' fun r => { inJob r with coord := 0x00000000, state := 2, firstReport := some 0, heldLt := 0 }
     s.recRuns 5 = true ∧ s.rcv.coordId = s.modId.toNat ∧ s.rcv.state = 2 ∧ s.rcv.planned = false ∧ s.rcv.firstReport = some 0 ∧
     s.rcv.backupId = s.modId.toNat ∧ 0 + 50000000 ≤ (atNs 50000000 s).ns ∧ s.rcv.heldLt + 100000000 ≤ (atNs 100000000 s).ns) ∧
    (let s := rec' fun r => { inJob r with planned := true, rebuilding := [7], readys := [8] }
     s.recRuns 5 = true ∧ s.rcv.planned = true ∧ 7 ∉ s.rcv.readys ∧ 7 ∈ s.rcv.rebuilding) ∧
    (let s := rec' fun r => { inJob r with state := 3 }
     s.recRuns 5 = true ∧ s.rcv.state = 3 ∧ s.own ∉ s.parIds 7 ∧ s.rcv.saved = none ∧ s.rcv.pairs = [] ∧ s.coordinates = false) ∧
    (rec' fun r => { inJob r with state := 3, job := 0x54000, parCfg := 0x10100001 }).protects = true := by decide +kernel
/-- A parity group of sixteen modules, of which this one is member 0. -/
def par16 (first : Nat) : GEntry :=
  (1, 0x10022) :: (2, 0x10010) :: (List.range 16).map fun i => (16 + i, BitVec.ofNat 32 ((first + i) % 16))
/-- A job with parity group 1; this module's number in it is 16 - `first`. -/
def parity (first : Nat) (f : RecState → RecState) : State :=
  { up with rcv := f { inJob up.rcv with job := 0x54000, parCfg := 0x10100001, parSize := 0x1 }
            col := { up.col with active := [(1, par16 first)] } }
theorem witness_RelayParity :
    (let s := (parity 0 id).setHeader 0 8 1
     s.relayRuns = true ∧ s.rcv.state = 0 ∧ s.rcv.role = 1 ∧ s.committed < s.written ∧ (s.parIds s.own).head? = some s.own ∧ s.rcv.relays = [] ∧
     s.slotsHeld + s.rcv.slices ≤ 32) ∧
    ((parity 0 id).written ≤ (parity 0 id).committed) ∧
    (let s := (parity 1 id).setHeader 0 8 1
     s.relayRuns = true ∧ (s.parIds s.own)[(14 : BitVec 4).toNat + 1]? = some s.own ∧ s.committed < s.fullEpoch 1 ∧ s.slotsHeld < 32) ∧
    (let s := (parity 14 id).setHeader 0 8 1
     (s.parIds s.own)[(1 : BitVec 4).toNat + 1]? = some s.own ∧ (1 : BitVec 4) ≠ 14 ∧ s.fullEpoch 1 ≤ s.written ∧
       s.committed < s.fullEpoch 1) := by decide +kernel
theorem witness_RelayParity_rebuild :
    (let s := parity 14 fun r => { r with state := 4, current := some (7, 20), drops := [(20, 21)] }
     s.relayRuns = true ∧ s.rcv.state = 4 ∧ s.rcv.current = some (7, 20) ∧ (s.chain true 0)[(1 : BitVec 4).toNat + 1]? = some s.own ∧
       (1 : BitVec 4).toNat + 4 < (s.chain true 0).length) ∧
    (let s := parity 1 fun r => { r with state := 4, current := some (7, 0), drops := [(0, 21)] }
     (s.chain true 0)[(15 : BitVec 4).toNat + 1]? = some s.own ∧ (15 : BitVec 4).toNat + 2 = (s.chain true 0).length) ∧
    (let s := parity 0 fun r => { r with relays := [⟨false, 0, 1, 1, 2⟩] }
     s.relay false 0 = some ⟨false, 0, 1, 1, 2⟩ ∧ (s.chain false 0).head? = some s.own) ∧
    (let s := parity 14 fun r => { r with relays := [⟨false, 0, 1, 1, 2⟩] }
     s.relay false 0 = some ⟨false, 0, 1, 1, 2⟩ ∧ (s.chain false 0).head? ≠ some s.own ∧ 1 < (2 : Nat) ∧
     (s.chain false 0)[(s.chain false 0).idxOf s.own + 1]? = some 1) ∧
    (let s := parity 1 fun r => { r with relays := [⟨false, 0, 1, 1, 2⟩] }
     (s.chain false 0)[(s.chain false 0).idxOf s.own + 1]? = none) ∧
    (let s := parity 14 fun r => { r with relays := [⟨false, 0, 1, 0xFFFFFF, 1⟩] }
     s.sliceChunks false 0 ≤ 0xFFFFFF) ∧ (onPort id).reachable 16 = true ∧
    ((grouped id [op1 [made .epoch]]).finishedFor fun c => c.origin == .epoch).isSome = true := by decide +kernel
theorem witness_PowerInputsAndTemperatures :
    (power fun p => { p with aux := false }).pwr.aux = false ∧ up.pwr.aux = true ∧ up.pwr.main = true ∧
    (let s := power fun p => { p with inrush := .opened, bandFrom := 0 }
     s.pwr.aux = true ∧ s.pwr.inrush = .opened ∧ s.pwr.bandFrom + 100000000 ≤ (atNs 100000000 s).ns ∧
       (atNs 99999999 s).ns < s.pwr.bandFrom + 100000000) ∧
    (let s := power fun p => { p with inrush := .charging, main := false }
     s.pwr.inrush = .charging ∧ s.fw.run = none ∧ s.pwr.main = false ∧ s.fw.depot = false ∧ s.pwr.off ≠ .trip ∧ s.fw.retryFrom = none) ∧
    (let s := firm fun f => { f with run := some ⟨⟨.cold, false, false, false⟩, 0, 4, 0, none, some 0, none⟩ }
     ∃ r, s.fw.run = some r ∧ r.step = 4) ∧
    up.pwr.inrush ≠ .opened ∧
    (let s := power fun p => { p with off := .rail, main := false, offAt := 0 }
     s.pwr.off = .rail ∧ s.pwr.main = false ∧ s.fw.run = none ∧ s.pwr.offAt + 1000000000 ≤ (atNs 1000000000 s).ns) ∧
    up.pwr.inWarn = false ∧
    (let s := power fun p => { p with inWarn := true, inAt := 0 }
     s.pwr.inWarn = true ∧ s.pwr.inAt + 1000000 ≤ (atNs 1000000 s).ns ∧ (atNs 999999 s).ns < s.pwr.inAt + 1000000) := by
  refine ⟨by decide +kernel, by decide +kernel, by decide +kernel, by decide +kernel, by decide +kernel, ⟨_, rfl, rfl⟩, by decide +kernel⟩
theorem witness_PowerInputsAndTemperatures_temperatures :
    ((up.pwr.die 7).railWarn = false ∧ up.pwr.pcUp = true ∧ (up.pwr.die 8).throttle = false ∧ (up.pwr.die 8).thermWarn = false) ∧
    (let s := power fun p => p.modDie 7 fun d => { d with railWarn := true, railAt := 0, throttle := true }
     (s.pwr.die 7).railWarn = true ∧ (s.pwr.die 7).throttle = true ∧ (s.pwr.die 7).railAt + 100000 ≤ (atNs 100000 s).ns) ∧
    (let s := power fun p => p.modDie 8 fun d => { d with thermWarn := true, thermAt := 0 }
     (s.pwr.die 8).thermWarn = true ∧ (s.pwr.die 8).tripWarned = false ∧ s.hif.fwUp = true ∧
       (s.pwr.die 8).thermAt + 100000000 ≤ (atNs 100000000 s).ns ∧ (atNs 99999999 s).ns < (s.pwr.die 8).thermAt + 100000000) ∧
    (let s := power fun p => { p with off := .trip, main := false }
     s.pwr.off = .trip ∧ s.pwr.main = false ∧ s.pwr.aux = true ∧ (List.replicate 9 (69 : BitVec 8)).length = 9 ∧
       (∀ x ∈ List.replicate 9 (69 : BitVec 8), x.toNat < 70)) := by decide +kernel
theorem witness_CapAndController :
    (up.pwr.aux = true ∧ up.pwr.grant = none) ∧
    (let s := power fun p => { p with grant := some ⟨600, 7, some 5, 0⟩ }
     s.pwr.grant = some ⟨600, 7, some 5, 0⟩ ∧ (8 : BitVec 16) ≠ 7 ∧ ((8 : BitVec 16) - 7).toNat < 0x8000 ∧
       0x8000 ≤ ((0x8007 : BitVec 16) - 7).toNat ∧ s.pwr.fallbackOn = false ∧ 5 ≤ (atNs 5 s).ns ∧ (atNs 4 s).ns < 5) ∧
    (up.pwr.main = true ∧ up.pwr.pcUp = true ∧ up.pwr.periodAt + 100000 ≤ (atNs (up.pwr.periodAt + 100000) up).ns ∧
      up.pwr.tableAt + 10000000 ≤ (atNs (up.pwr.tableAt + 10000000) up).ns ∧ up.pwr.untrusted = false ∧ up.pwr.hwLimit = false) ∧
    (up.pwr.capEff.toNat * 12 < 100 * 1000 ∧ 108 * up.pwr.capEff.toNat < 0xFFFF * 100) ∧
    (let s := power fun p => { p with untrusted := true, untrustedAt := 0 }
     s.pwr.untrusted = true ∧ s.pwr.untrustedAt + 20000000 ≤ (atNs 20000000 s).ns ∧
       (atNs 19999999 s).ns < s.pwr.untrustedAt + 20000000) := by decide +kernel
def bundle1 : Bundle := { Bundle.first with hoCur := 0, hoPrev := 0 }
theorem witness_StartsOfTheModule :
    (up.sideUp = true ∧ (up.fw.staged = none) ∧ up.mayBegin = true ∧ up.fw.waiting = []) ∧
    (let s := firm fun f => { f with staged := some bundle1 }; s.fw.staged = some bundle1 ∧ s.fw.stagedBad = false) ∧
    State.reset.mayBegin = false ∧
    (∃ r, State.reset.fw.run = some r ∧ r.step = 14 ∧ r.bundle = none ∧ r.req.kind = .cold ∧ ¬ r.began + 120000000000 ≤ (State.reset.ns : Int) ∧
      r.began + 120000000000 ≤ ((atNs 120000000000 State.reset).ns : Int) ∧ r.loadedAt = some 0 ∧ 0 + 5000000000 ≤ (atNs 5000000000 State.reset).ns) ∧
    (let r : StartRun := ⟨⟨.warm, false, false, false⟩, 0, 13, 0, none, some 0, none⟩
     (firm fun f => { f with run := some r }).fw.run = some r ∧ r.step ≠ 14 ∧ r.req.kind ≠ .cold ∧ r.req.kind ≠ .reload) ∧
    (up.fw.depot = false ∧ up.fw.fails.toNat < 2 ∧ (firm fun f => { f with fails := 2 }).fw.fails.toNat = 2) ∧
    (let s := firm fun f => { f with retryFrom := some 0 }
     s.fw.retryFrom = some 0 ∧ s.fw.depot = false ∧ s.fw.run = none ∧ s.pwr.aux = true ∧ 0 + 10000000000 ≤ (atNs 10000000000 s).ns ∧
       (atNs 9999999999 s).ns < 0 + 10000000000) := by
  refine ⟨by decide +kernel, by decide +kernel, by decide +kernel, ⟨_, rfl, ?_⟩, ?_⟩ <;> decide +kernel
/-- A cold start that fetches, and an activation of that bundle. -/
def fetching (tries : Nat) (failedAt : Option Nat) : StartRun := ⟨⟨.cold, false, false, false⟩, 0, 2, tries, failedAt, none, none⟩
def activating (a : Activation) : State := firm fun f => { f with act := some a, staged := some bundle1, format := 0 }
theorem witness_FirmwareUpdates :
    (let s := firm fun f => { f with run := some (fetching 1 none) }
     s.sideUp = true ∧ s.fw.run = some (fetching 1 none) ∧ (fetching 1 none).step = 2 ∧ (fetching 1 none).req.kind = .cold ∧
       (fetching 1 none).failedAt = none ∧ s.fw.act = none ∧ (fetching 1 none).tries < 2 ∧ 2 ≤ (fetching 2 none).tries ∧
       s.fw.reject bundle1 = 0 ∧ s.fw.reject { bundle1 with badSig := true } = 2) ∧
    ((fetching 1 (some 0)).failedAt = some 0 ∧ 0 + 2000000000 ≤ (atNs 2000000000 up).ns ∧ (atNs 1999999999 up).ns < 0 + 2000000000) ∧
    (up.fw.run = none ∧ up.fw.act = none ∧ up.fw.staged = none) ∧
    (let s := firm fun f => { f with staged := some bundle1, format := 0 }
     s.fw.staged = some bundle1 ∧ s.fw.stagedBad = false ∧ s.fw.act = none ∧ s.fw.depot = false ∧ s.pwr.main = true ∧
       s.fw.format = bundle1.hoCur ∧ s.fw.format ≠ ({ bundle1 with hoCur := 2, hoPrev := 1 } : Bundle).hoCur) := by decide +kernel
theorem witness_FirmwareUpdates_activation :
    (let s := atNs 1000000000 (activating ⟨0, none, none, 0, none, 0⟩)
     s.fw.act = some ⟨0, none, none, 0, none, 0⟩ ∧ s.fw.staged = some bundle1 ∧ s.pwr.emerg = false ∧
       s.pwr.calmFrom + 1000000000 ≤ (s.ns : Int) ∧ s.rcv.state = 0 ∧ s.fw.run = none ∧ (s.ns : Int) < 0 + 60000000000) ∧
    (let s := atNs 60000000000 (activating ⟨0, some 1, none, 0, none, 0⟩)
     ¬ (s.ns : Int) < (0 : Int) + 60000000000 ∧ s.defers = none) ∧
    (let s := atNs 2000000000 (activating ⟨0, none, some 0, 2, some 0, 0⟩)
     s.fw.run = none ∧ s.pwr.emerg = false ∧ 0 + 2000000000 ≤ s.ns) := by decide +kernel

theorem witness_FirmwareUpdates_handover :
    let a : Activation := ⟨0, none, some 0, 0, none, 0⟩
    let s := activating a
    (s.fw.act = some a ∧ a.began ≠ none ∧ s.fw.run = none ∧ a.inHand = none ∧ a.doneTo = 0 ∧ s.pwr.emerg = false ∧
      (s.pwr.calmFrom ≤ (0 : Int))) ∧
    (power fun p => { p with resetEmerg := true }).pwr.emerg = true ∧ a.began.isSome = true ∧
    (∀ n ∈ [1, 2, 3], (activating ⟨0, none, some 0, n, none, 0⟩).fw.act.isSome = true) := by decide +kernel
theorem witness_CoresAndSpdm :
    (up.pwr.aux = true ∧ up.fw.haltSec = false ∧ up.pwr.main = true ∧ up.fw.haltPower = false ∧ up.fw.powerHalts = [] ∧
      up.fw.haltDisp = false ∧ (71 : BitVec 7).toNat < 72 ∧ 71 ∉ up.fw.haltBox ∧ up.dsp.tasks = [] ∧ up.sideUp = true ∧ up.pwr.emerg = false) ∧
    (let s := atNs 600000000000 (firm fun f => { f with powerHalts := [0] })
     s.hif.fwUp = true ∧ (∃ t ∈ s.fw.powerHalts, s.ns ≤ t + 600000000000)) ∧
    (let s := firm fun f => { f with haltPower := true, haltDisp := true }; s.fw.haltPower = true ∧ s.fw.haltDisp = true) ∧
    (power fun p => { p with resetEmerg := true }).pwr.emerg = true ∧
    (let s := firm fun f => { f with haltSec := true }; s.pwr.aux = true ∧ s.fw.haltSec = true ∧ s.sideUp = false) := by
  refine ⟨by decide +kernel, ⟨by decide +kernel, 0, by decide +kernel, by decide +kernel⟩, by decide +kernel⟩
/-- The module after the brake. -/
def stopped' : State := match execSidebandBrake up with | .next t => t | _ => up
theorem witness_EmergencyBrake : up.pwr.main = true ∧ up.dbg.braked = false ∧ up.servesFe = true ∧ up.sideUp = true ∧
    up.dbg.trst = false ∧ stopped'.pwr.main = true ∧ stopped'.dbg.braked = true ∧ stopped'.sideUp = true ∧
    (power fun p => { p with main := false }).sideUp = true := by decide +kernel
theorem witness_ScanAndTestPort :
    (stopped'.sideUp = true ∧ stopped'.pwr.main = true ∧ stopped'.dbg.braked = true ∧ (0x78 : BitVec 16).toNat < 2048 ∧
      (0x78 : BitVec 16).toNat / 16 % 16 < 9 ∧ scanSize 4 = some 1024 ∧ 800 + 224 ≤ 1024 ∧ ¬ (801 + 224 ≤ 1024) ∧ scanSize 9 = none) ∧
    (let c := { State.reset.cell 0 with dmem := { (State.reset.cell 0).dmem with ue := [5] } }
     20 / 4 ∈ c.dmem.ue ∧ 24 / 4 ∉ c.dmem.ue ∧ 0 ∉ c.banks.ue0 ∧ 0 ∉ c.banks.ue1 ∧ 0 ∉ c.store.ue ∧ 0 ∉ c.store.poison) ∧
    (stopped'.dbg.trst = false ∧ cellOk 0x78 = true ∧ (0x4000000000000000 : BitVec 64).extractLsb' 60 4 = (4 : BitVec 4) ∧
      (let d := stopped'.dbg; d.scanOff.toNat + 4 ≤ 3145728 ∧ scanSize d.scanSpace.toNat = some 3145728 ∧ cellOk d.scanCell = true)) := by
  decide +kernel
theorem witness_RegisterAccesses :
    (linked.hostUp = true ∧ linked.sideUp = true ∧ linked.servesFe = true ∧ linked.hif.fe = [] ∧ linked.fwWrites = true) ∧
    (latches 0x10 = true ∧ latches 0x84018 = true ∧ latches 0x14 = false ∧ readClears 0x83018 = true ∧ readClears 0x14 = false ∧
      tracePort 0x8603C = true ∧ tracePort 0x86040 = false ∧ feServed 0x84018 = true ∧ hwServed 0x0 = true ∧ feServed 0x500 = false ∧
      hwServed 0x500 = false) ∧
    (let s : State := { linked with hif := { linked.hif with fwUp := false, fe := [⟨0x84018, none, 0⟩] } }
     s.hostUp = true ∧ s.servesFe = false ∧ s.hif.fe = ⟨0x84018, none, 0⟩ :: [] ∧ s.pwr.main = true ∧ 0 + 40000 ≤ (atNs 40000 s).ns ∧
       (atNs 39999 s).ns < 0 + 40000) ∧
    (let s := busy [] id; (s.queue 0).tailOk 15 = true ∧ (s.queue 0).tailOk 16 = false ∧ (s.queue 0).headOk 16 = false) ∧
    (let s := busy [] fun k => { k with cqTail := 15 }; (s.queue 0).headOk 15 = true) ∧
    (let h : HifState := { linked.hif with pba := 1 <<< 63 }
     h.pba = (1 : BitVec 64) <<< 63 ∧ h.detached = false ∧ h.linkUp = true ∧ (h.msix.at 1 (4 * 63 + 3)).getLsbD 0 = true) ∧
    (let h : HifState := { linked.hif with pba := 1, msix := [(3, 0)] }; h.pba = 1 ∧ (h.msix.at 1 3).getLsbD 0 = false) ∧
    (let s : State := { linked with hif := { linked.hif with fe := [⟨0x84018, none, 0⟩] } }
     s.servesFe = true ∧ (∀ a ∈ s.hif.fe, s.ns < a.at' + 40000)) ∧
    (busy [] id).hostUp = true ∧ ((busy [] id).queue 0).headOk 16 = false := by decide +kernel
/-- The signal box of die 7, cluster 8, its trace changed by `f`. -/
def traced (f : TraceState → TraceState) : State := up.modTrace 120 fun t => f { t with armed := true, run := 0xC0000000 }
def trace' (s : State) : TraceState := (s.box 120).trace
def entry1 (code : BitVec 16) : TraceEntry := ⟨code, 0, 0, 0, []⟩
theorem witness_TraceBlocks :
    (16 * (7 : BitVec 3).toNat + (8 : BitVec 4).toNat = 120) ∧
    (let t := trace' (traced id); t.armed = true ∧ t.stopping = false ∧ t.mode = 3 ∧ t.staged < 64 ∧ t.pendDrops = 0 ∧ t.staging = [] ∧
      t.post = none ∧ t.triggered = false) ∧
    (let t := trace' (traced fun t => { t with run := 0xFFFFFFFF }); t.enabled 0x0101 3 none = true) ∧
    (trace' up).armed = false ∧
    (let t := trace' (traced fun t => { t with staging := List.replicate 64 (entry1 0), pendDrops := 3 }); 64 ≤ t.staged ∧ 0 < t.pendDrops) ∧
    (let t := trace' (traced fun t => { t with staging := [entry1 0xFE], run := 0x80000000 }); t.mode = 2 ∧ t.staging = entry1 0xFE :: [] ∧ t.post = none) ∧
    (let t := trace' (traced fun t => { t with staging := [entry1 0xFE] }); t.mode = 3 ∧ t.wr < 32768 ∧ (entry1 0xFE).code = 0xFE) ∧
    (let t := trace' (traced fun t => { t with staging := [entry1 1], post := some 2 })
     t.mode = 3 ∧ t.post = some 2 ∧ t.region = 0 ∧ t.wr < 32768) ∧
    (let t := trace' (traced fun t => { t with staging := [entry1 1], post := some 1, held := some (0, 1, 0, 0), ovfRaised := true })
     t.mode = 3 ∧ t.post = some 1 ∧ t.held = some (0, 1, 0, 0) ∧ t.ovfRaised = true) ∧
    (let t := trace' (traced fun t => { t with staging := [entry1 1], run := 0x40000000 })
     t.mode = 1 ∧ t.post = none ∧ t.used + 1 < 32768 + t.region) ∧
    (let t := trace' (traced fun t => { t with staging := [entry1 1], run := 0x40000000, used := 32767, ovfRaised := true })
     t.mode = 1 ∧ t.held = none ∧ 32768 + t.region ≤ t.used + 1 ∧ t.ovfRaised = true) ∧
    up.dbg.braked = false ∧ up.pwr.main = true := by decide +kernel
theorem witness_TraceBlocks_stop :
    (let t := trace' (traced id); t.armed = true ∧ t.staging = [] ∧ t.pendDrops = 0) ∧
    (let t := trace' (traced fun t => { t with staging := [entry1 1] }); t.armed = true ∧ t.staging ≠ []) ∧
    stopped'.dbg.braked = true ∧ (power fun p => { p with main := false }).pwr.main = false ∧ 9 ≤ (9 : BitVec 4).toNat := by
  decide +kernel
theorem witness_TraceBlocks_triggers :
    (trace' (traced fun t => { t with trig := 0x38000101 })).trig.getLsbD 30 = false ∧
    (trace' (traced fun t => { t with trig := 0xFFFFFFFF })).trig.getLsbD 30 = true ∧
    (let s := up.setCell 0x788 { up.cell 0x788 with nan := { (up.cell 0x788).nan with status := 0x80000000 }, st := .faulted }
     (s.cell 0x788).nan.latched = true ∧ (s.cell 0x788).st = .faulted) ∧
    (let t := trace' (traced fun t => { t with trig := 0x08000101 })
     t.trig.getLsbD 27 = true ∧ t.trig.getLsbD 26 = false ∧ (0x0101 : BitVec 16) = t.trig.setWidth 16) ∧
    (let t := trace' (traced fun t => { t with trig := 0x0C000100 })
     t.trig.getLsbD 26 = true ∧ (0x01FF : BitVec 16).extractLsb' 8 8 = t.trig.extractLsb' 8 8) ∧
    (up.fwWrites = true ∧ 0 ≠ 120 ∧
      (let s := up.modTrace 0 fun t => { t with triggered := true, trig := 0x80000000 }
       (s.box 0).trace.triggered = true ∧ (s.box 0).trace.trig.getLsbD 31 = true)) := by decide +kernel
/-- Two cells that wait for each other. -/
def wait2 : List SnapWait := [⟨⟨0, 1, 0, 0⟩, ⟨1, 1, 0, 0⟩, 0⟩, ⟨⟨1, 1, 0, 0⟩, ⟨0, 1, 0, 0⟩, 0⟩]
theorem witness_HangGraph :
    (up.servesFe = true ∧ up.pwr.main = true ∧ up.hif.fwUp = true ∧ up.dbg.snap = none ∧ up.dispRuns = true ∧ up.fwWrites = true) ∧
    (let s : State := { busy [task1 .running [0]] id with dbg := { up.dbg with hangCfg := 1 } }
     s.task 1 = some (task1 .running [0]) ∧ bitsOf s.dbg.hangCfg.toNat 15 0 ≠ 0 ∧ (task1 .running [0]).stage = .running ∧
       ((s.cell 0).ctr.moved + 1000000 * 1 ≤ (atNs ((s.cell 0).ctr.moved + 1000000) s).ns)) ∧
    (let s : State := atNs 100000 { up with dbg := { up.dbg with snap := some (0, []) } }
     s.dbg.snap = some (0, []) ∧ 0 + 100000 ≤ s.ns ∧ s.fwWrites = true ∧ (up.graph [] 0).cycles = [] ∧ (up.graph [] 0).dead = [] ∧
       ((up.graph [] 0).bytes 0 100000 1 false).length ≤ 65536) ∧
    (up.graph wait2 0).cycles ≠ [] ∧
    (let s : State := { busy [task1 .running [0]] id with dbg := { up.dbg with hangCfg := 0 } }; bitsOf s.dbg.hangCfg.toNat 15 0 = 0) := by
  decide +kernel

end Sys2Proof.Tests
end

section
/-!
PROOFS. Loads and stores of the cell core (R85, R96 to R98, R100): the address each mode forms, and what a load or a store
that raises nothing leaves.
-/

namespace Sys2Proof.Machine

/-! ### Addresses (R96) -/

/-- The displacement of a memory instruction: its signed immediate, in units of the access size. -/
theorem displacement_eq (size : Nat) (imm : BitVec 11) :
    BitVec.ofNat 40 size * imm.signExtend 40 = BitVec.ofInt 40 (size * imm.toInt) := by
  rw [BitVec.ofInt_mul, BitVec.ofInt_natCast]
  rfl

theorem memAddr_mode0 (c : CellState) (o : BitVec 22) (size : Nat) (h : fMode o = 0) :
    memAddr c o size = ((rget c.core.a (fBase o)).addr + BitVec.ofInt 40 (size * (fImm11 o).toInt),
      (rget c.core.a (fBase o)).addr) := by
  rw [← displacement_eq, memAddr, h]
  rfl

theorem memAddr_mode1 (c : CellState) (o : BitVec 22) (size : Nat) (h : fMode o = 1) :
    memAddr c o size = ((rget c.core.a (fBase o)).addr,
      (rget c.core.a (fBase o)).addr + (rget c.core.a (fBase o)).stride.signExtend 40) := by
  rw [memAddr, h]
  rfl

theorem memAddr_mode2 (c : CellState) (o : BitVec 22) (size : Nat) (h : fMode o = 2) :
    memAddr c o size = ((rget c.core.a (fBase o)).addr,
      (rget c.core.a (fBase o)).addr + BitVec.ofInt 40 (size * (fImm11 o).toInt)) := by
  rw [← displacement_eq, memAddr, h]
  rfl

theorem memLegal_of_mode (o : BitVec 22) (h : fMode o ≠ 3) : memLegal o = true := by
  simpa [memLegal] using h

/-- The reserved bit of LDA, STA, TLD and TST is zero. -/
theorem memLegal_wide (o : BitVec 22) (h : fMode o ≠ 3) (h17 : o.getLsbD 17 = false) :
    (memLegal o && !o.getLsbD 17) = true := by
  rw [memLegal_of_mode o h, h17]
  rfl

/-! ### Loads into address registers and descriptors (R97, R100) -/

/-- A load whose destination is no s register: the base takes its new value, then the destination the loaded number. -/
theorem runCore_loadWide (op : CoreOp) (n : Nat) (put : CellState → Nat → CellState) (id : CellId) (g : BitVec 4)
    (o : BitVec 22) (s : State) (hn : n = 1 ∨ n = 2 ∨ n = 4 ∨ n = 8 ∨ n = 16)
    (hok : cellOk id = true) (hi : (s.cell id).Issues g) (hl : op.legal o = true)
    (hrs : op.rs o = 0) (hws : op.ws o = 0) (hrp : op.rp o = 0) (hwp : op.wp o = 0)
    (htouch : op.touch o (s.cell id) = loadTouch (memAddr (s.cell id) o n).1 n)
    (hbody : ∀ e, op.body e o (s.cell id) = match coreLoad (s.cell id) (memAddr (s.cell id) o n).1 n with
      | .inr e => .exc e
      | .inl v => .done (put ((s.cell id).setAddr (fBase o) (memAddr (s.cell id) o n).2) v) .seq)
    (hfits : ∀ v, (put ((s.cell id).setAddr (fBase o) (memAddr (s.cell id) o n).2) v).Fits)
    (h : (s.cell id).MayLoad (memAddr (s.cell id) o n).1 n) :
    runCore op id g o s = .next (s.setCell id ((put ((s.cell id).writeA (fBase o) (memAddr (s.cell id) o n).2)
      ((s.cell id).numAt (memAddr (s.cell id) o n).1.toNat n)).next s.ns)) := by
  obtain ⟨hload, hclean⟩ := coreLoad_clean s id _ n (by omega) hn h
  have hs : (s.cell id).FreeS (op.rs o) (op.ws o) := by rw [hrs, hws]; constructor <;> simp
  have hp : (s.cell id).FreeP (op.rp o) (op.wp o) := by rw [hrp, hwp]; constructor <;> simp
  rw [runCore_touch op id g o s hok hi hl hs hp (by rw [htouch]; exact hclean) _ (by rw [hbody, hload]) (hfits _),
    hws, hwp, CellState.unmark_zero]
  rfl

theorem exec_lda (id : CellId) (g : BitVec 4) (o : BitVec 22) (s : State) (hok : cellOk id = true)
    (hi : (s.cell id).Issues g) (hf : (s.cell id).Fits) (hm : fMode o ≠ 3) (h17 : o.getLsbD 17 = false)
    (h : (s.cell id).MayLoad (memAddr (s.cell id) o 8).1 8) :
    exec (.lda id g o) s = .next (s.setCell id ((((s.cell id).writeA (fBase o) (memAddr (s.cell id) o 8).2).writeA (fAD o)
      (BitVec.ofNat 40 ((s.cell id).numAt (memAddr (s.cell id) o 8).1.toNat 8))).next s.ns)) :=
  runCore_loadWide opLda 8 (fun c v => c.writeA (fAD o) (BitVec.ofNat 40 v)) id g o s (by decide) hok hi
    (memLegal_wide o hm h17) rfl rfl rfl rfl rfl (fun _ => rfl) (fun _ => hf) h

theorem exec_tld (id : CellId) (g : BitVec 4) (o : BitVec 22) (s : State) (hok : cellOk id = true)
    (hi : (s.cell id).Issues g) (hf : (s.cell id).Fits) (hm : fMode o ≠ 3) (h17 : o.getLsbD 17 = false)
    (h : (s.cell id).MayLoad (memAddr (s.cell id) o 16).1 16) :
    exec (.tld id g o) s = .next (s.setCell id ((((s.cell id).writeA (fBase o) (memAddr (s.cell id) o 16).2).setT (fAD o)
      (BitVec.ofNat 128 ((s.cell id).numAt (memAddr (s.cell id) o 16).1.toNat 16))).next s.ns)) :=
  runCore_loadWide opTld 16 (fun c v => c.setT (fAD o) (BitVec.ofNat 128 v)) id g o s (by decide) hok hi
    (memLegal_wide o hm h17) rfl rfl rfl rfl rfl (fun _ => rfl) (fun _ => hf) h

end Sys2Proof.Machine

open Sys2Proof Sys2Proof.Machine

/-- Settles O9: the three modes by the cases of `memAddr`, the loads by the lemma of a load that raises nothing. -/
theorem loadResults : Obligations.LoadResults := by
  unfold Obligations.LoadResults
  refine ⟨fun c o size => ⟨memAddr_mode0 c o size, memAddr_mode1 c o size, memAddr_mode2 c o size⟩, ?_⟩
  intro s id g o hok hi hf hm
  refine ⟨fun hs => ?_, fun h17 => ⟨exec_lda id g o s hok hi hf hm h17, exec_tld id g o s hok hi hf hm h17⟩⟩
  have load (op : BitVec 6) (n : Nat) (ext : Nat → Word) (hn : n = 1 ∨ n = 2 ∨ n = 4 ∨ n = 8 ∨ n = 16) :=
    runCore_load op n ext id g o s hn hok hi hf hm hs
  exact ⟨fun h => ⟨load 0x11 1 _ (by decide) h, load 0x12 1 _ (by decide) h⟩,
    fun h => ⟨load 0x13 2 _ (by decide) h, load 0x14 2 _ (by decide) h⟩, fun h => load 0x15 4 _ (by decide) h⟩

/-- Settles O10: each of the five stores is the shape of `stores`, with its own size and source register. -/
theorem storeResults : Obligations.StoreResults := by
  unfold Obligations.StoreResults
  intro s id g o hok hi hf hm
  refine ⟨fun hs => ?_, fun h17 => ?_⟩
  · have hl := memLegal_of_mode o hm
    have scalar (op : BitVec 6) (n : Nat) (i : Instr) (hr : exec i s = runCore (storeOp op n) id g o s)
        (hn : n = 1 ∨ n = 2 ∨ n = 4 ∨ n = 8 ∨ n = 16) :=
      stores (storeOp op n) n ((s.cell id).sReg (fD o)).toNat id g o s i hr hn hok hi hf hl hs rfl rfl rfl (.inr rfl)
        fun _ => rfl
    exact ⟨scalar 0x16 1 _ rfl (by decide), scalar 0x17 2 _ rfl (by decide), scalar 0x18 4 _ rfl (by decide)⟩
  · have hl := memLegal_wide o hm h17
    have hfree : (s.cell id).FreeS 0 0 := by constructor <;> simp
    exact ⟨stores opSta 8 ((s.cell id).aReg (fAD o)).addr.toNat id g o s _ rfl (by decide) hok hi hf
        hl hfree rfl rfl rfl (.inl rfl) fun _ => rfl,
      stores opTst 16 ((s.cell id).tReg (fAD o)).toNat id g o s _ rfl (by decide) hok hi hf
        hl hfree rfl rfl rfl (.inl rfl) fun _ => rfl⟩

end

section
/-! PROOFS. The heads of the engine queues (R219): when the engine of each is free, and what the start of each kind is. -/

namespace Sys2Proof.Machine

theorem forall_mem_five {α : Type} {p : α → Prop} {a b c d e : α} (ha : p a) (hb : p b) (hc : p c) (hd : p d)
    (he : p e) : ∀ x ∈ [a, b, c, d, e], p x := by
  simp only [List.forall_mem_cons]
  exact ⟨ha, hb, hc, hd, he, fun _ hi => absurd hi List.not_mem_nil⟩

/-- The row of a command and COMMAND_WAIT_SATISFIED start alike a head that may start. -/
theorem exec_head_start (s : State) (id : CellId) (q : BitVec 2) (h : QCmd) (rest : List QCmd) (mine : QWord → Bool)
    (row : Instr) (u : State) (hrow : exec row s = runEngine id q mine s) (hmine : mine h.word = true)
    (hok : cellOk id = true) (hr : (s.cell id).HeadReady q h rest) (h0 : q = 0 → (s.cell id).mx.cmds = [])
    (he : engineFree (s.cell id) q h = true) (hs : q = 3 → s.mem.snoop = [] ∧ s.mem.paused = [])
    (hu : (s.headTaken id q h rest).startCmd id q h = u) :
    ∀ i ∈ [row, .commandWaitSatisfied id q], exec i s = .next (u.headUndef s id q h) := by
  have start (mine : QWord → Bool) (hm : mine h.word = true) :
      runEngine id q mine s = .next (u.headUndef s id q h) := by
    rw [runEngine_ready s id q h rest mine hok hm hr h0 he hs, hu]
  have hwait : exec (.commandWaitSatisfied id q) s = .next (u.headUndef s id q h) := start (fun _ => true) rfl
  simp only [List.forall_mem_cons]
  exact ⟨hrow.trans (start mine hmine), hwait, fun _ hi => absurd hi List.not_mem_nil⟩

/-! ### When an engine is free (R62, R137, R238, R251) -/

/-- An array that runs nothing takes any command. -/
theorem engineFree_array (c : CellState) (h : QCmd) (hc : c.mx.cmds = []) (hr : c.mx.retry = false) :
    engineFree c 0 h = true := by
  have : arrayFree c h = true := by simp [arrayFree, hc, hr]
  exact Bool.or_eq_true_iff.2 (.inr this)

theorem engineFree_sync (c : CellState) (q : BitVec 2) (h : QCmd) (ho : cOpc h.word = 0) : engineFree c q h = true := by
  rcases q4 q with rfl | rfl | rfl | rfl <;> simp [engineFree, ho]

theorem engineFree_context (c : CellState) (h : QCmd) (hf : c.freeCtx.isSome = true) : engineFree c 2 h = true := by
  simp [engineFree, hf]

theorem engineFree_link (c : CellState) (h : QCmd)
    (hl : (c.qlk.run.filter fun r => cOpc r.cmd.word ≠ 0).length < 4) : engineFree c 3 h = true := by
  exact Bool.or_eq_true_iff.2 (.inr (decide_eq_true hl))

/-! ### What a start is, by queue and opcode (R222 to R237) -/

section
variable (s : State) (id : CellId) (h : QCmd)

/-- A SYNC is put among the commands in progress; one of q.mx ends the chain as well. -/
theorem startCmd_sync (q : BitVec 2) (ho : cOpc h.word = 0) : s.startCmd id q h =
    let u := s.begin id q ⟨h, s.ns, 0, [], [], none, false, none, false, false⟩
    if q = 0 then u.modCell id fun c => { c with mx := { c.mx with prev := none } } else u := by
  unfold State.startCmd
  rcases q4 q with rfl | rfl | rfl | rfl <;> (rw [ho]; rfl)

theorem startCmd_mma (ho : cOpc h.word = 1) : s.startCmd id 0 h = startMma id h s := by
  unfold State.startCmd
  rw [ho]
  rfl

theorem startCmd_vector (ho : cOpc h.word ≠ 0) : s.startCmd id 1 h = startVector id h s := by
  have hn : (cOpc h.word).toNat ≠ 0 := fun e => ho (BitVec.eq_of_toNat_eq e)
  unfold State.startCmd
  simp only
  split <;> simp_all

theorem startCmd_runwb (ho : cOpc h.word = 1) : s.startCmd id 2 h = startWaybill id h s := by
  unfold State.startCmd
  rw [ho]
  rfl

theorem startCmd_link : ∀ e ∈ [(1, startRead), (2, startWrite), (3, startCell), (4, startAtom), (5, startColl)],
    cOpc h.word = BitVec.ofNat 6 e.1 → s.startCmd id 3 h = e.2 id h s := by
  unfold State.startCmd
  refine forall_mem_five ?_ ?_ ?_ ?_ ?_ <;> (intro ho; rw [ho]; rfl)

end

end Sys2Proof.Machine

open Sys2Proof Sys2Proof.Machine

/-- Settles O22: each kind of head is one that may start on an engine that is free, and `startCmd` names its start. -/
theorem queueHeadsStart : Obligations.QueueHeadsStart := by
  unfold Obligations.QueueHeadsStart
  intro s id q h rest hok c opc t sync go hr
  refine ⟨fun hz hcell hfuse u => congrArg _ (headUndef_none u s id q h hz hcell hfuse), ?_, ?_, ?_, ?_⟩
  -- The matrix array.
  · rintro rfl hc hretry
    have start := fun mine row u hrow hmine => exec_head_start s id 0 h rest mine row u hrow hmine hok hr (fun _ => hc)
      (engineFree_array c h hc hretry) (fun hq => absurd hq (by decide))
    exact ⟨fun (ho : cOpc h.word = 0) =>
        start (fun w => cOpc w != 1) (.mxSync id) _ rfl (by simp [ho]) (startCmd_sync t id h 0 ho),
      fun (ho : cOpc h.word = 1) =>
        start (fun w => cOpc w == 1) (.mma id) _ rfl (by simp [ho]) (startCmd_mma t id h ho)⟩
  -- The vector engine.
  · rintro rfl
    have start := fun mine row u hrow hmine => exec_head_start s id 1 h rest mine row u hrow hmine hok hr
      (fun hq => absurd hq (by decide)) rfl (fun hq => absurd hq (by decide))
    have vector (n : BitVec 6) (row : Instr) (hrow : exec row s = runEngine id 1 (fun w => cOpc w == n) s) (hn : n ≠ 0)
        (ho : cOpc h.word = n) := start _ row _ hrow (by simp [ho]) (startCmd_vector t id h (ho ▸ hn))
    exact ⟨fun (ho : cOpc h.word = 0) => start (fun w => cOpc w == 0 || decide (5 < (cOpc w).toNat)) (.vxSync id) _ rfl
        (by simp [ho]) (startCmd_sync t id h 1 ho),
      forall_mem_five (vector 1 _ rfl (by decide)) (vector 2 _ rfl (by decide)) (vector 3 _ rfl (by decide))
        (vector 4 _ rfl (by decide)) (vector 5 _ rfl (by decide))⟩
  -- The marshalling engine.
  · rintro rfl
    have start := fun mine row u hrow hmine he => exec_head_start s id 2 h rest mine row u hrow hmine hok hr
      (fun hq => absurd hq (by decide)) he (fun hq => absurd hq (by decide))
    exact ⟨fun (ho : cOpc h.word = 0) => start (fun w => cOpc w != 1) (.msSync id) _ rfl (by simp [ho])
        (engineFree_sync c 2 h ho) (startCmd_sync t id h 2 ho),
      fun (ho : cOpc h.word = 1) hf => start (fun w => cOpc w == 1) (.runwb id) _ rfl (by simp [ho])
        (engineFree_context c h hf) (startCmd_runwb t id h ho)⟩
  -- The link port.
  · rintro rfl hsnoop hpaused
    have start := fun mine row u hrow hmine he => exec_head_start s id 3 h rest mine row u hrow hmine hok hr
      (fun hq => absurd hq (by decide)) he (fun _ => ⟨hsnoop, hpaused⟩)
    refine ⟨fun (ho : cOpc h.word = 0) => start (fun w => cOpc w == 0 || decide (5 < (cOpc w).toNat)) (.lkSync id) _ rfl
      (by simp [ho]) (engineFree_sync c 3 h ho) (startCmd_sync t id h 3 ho), fun hl => ?_⟩
    have link (n : BitVec 6) (row : Instr) (u : State) (hrow : exec row s = runEngine id 3 (fun w => cOpc w == n) s)
        (hu : cOpc h.word = n → t.startCmd id 3 h = u) (ho : cOpc h.word = n) :=
      start _ row u hrow (by simp [ho]) (engineFree_link c h hl) (hu ho)
    have starts := startCmd_link t id h
    simp only [List.forall_mem_cons] at starts
    obtain ⟨hread, hwrite, hcell, hatom, hcoll, -⟩ := starts
    exact forall_mem_five (link 1 _ _ rfl hread) (link 2 _ _ rfl hwrite) (link 3 _ _ rfl hcell) (link 4 _ _ rfl hatom)
      (link 5 _ _ rfl hcoll)

end

section
/-!
PROOFS. The Ethernet ports and RDMA (R408, R409, R431): accesses from outside, completed work, set-up and the island
stage.
-/

namespace Sys2Proof.Machine

/-! ### Bytes without poison -/

theorem readHbm_unpoisoned (m : MemState) (addr n : Nat) (h : ∀ i < n, (addr + i) / 32 ∉ m.poison) :
    m.readHbm addr n = ((List.range n).map fun i => m.hbm.get 0 (addr + i)).map fun b => (b, false) := by
  unfold MemState.readHbm
  rw [List.map_map]
  exact List.map_congr_left fun i hi => by simp [h i (List.mem_range.1 hi)]

/-- What a reader outside sees of bytes without poison is the bytes, and no free value is taken (R189). -/
theorem seenBytes_unpoisoned (s : State) (bs : List Byte) : s.seenBytes (bs.map fun b => (b, false)) = (bs, s) := by
  have hany : ((bs.map fun b => (b, false)).any Prod.snd) = false := by simp
  rw [State.seenBytes, hany, List.map_map]
  exact congrArg (·, s) (List.map_id bs)

/-! ### Remote accesses (R409) -/

section
variable (s : State) (qp : Nat) (key : BitVec 32) (addr : Nat) (hm : s.memRuns = true) (he : s.lnk.ethUp = true)
include hm he

theorem remoteWrite_served (data : List Byte) (hq : s.lnk.qpUp qp = true) (hr : s.lnk.region key addr data.length = true)
    (hsnoop : s.mem.snoop = []) (hpaused : s.mem.paused = []) : s.remoteWrite qp key addr data =
      ({ s with mem := s.mem.writeHbm addr (data.map fun b => (b, false)) } : State).reply 7 0 [qp] := by
  simp [State.remoteWrite, hm, he, hq, hr, needSnoops_nil s _ _ hsnoop hpaused]

theorem remoteWrite_refused (data : List Byte)
    (h : ¬ s.lnk.qpUp qp = true ∨ ¬ s.lnk.region key addr data.length = true) :
    s.remoteWrite qp key addr data = s.refuseRdma qp := by
  rw [State.remoteWrite, if_neg (by simp [hm, he]), if_pos h]

theorem remoteRead_served (n : Nat) (hq : s.lnk.qpUp qp = true) (hr : s.lnk.region key addr n = true)
    (hsnoop : s.mem.snoop = []) (hpaused : s.mem.paused = []) (hp : ∀ i < n, (addr + i) / 32 ∉ s.mem.poison) :
    s.remoteRead qp key addr n = s.reply 7 2 [qp, addr] ((List.range n).map fun i => s.mem.hbm.get 0 (addr + i)) := by
  rw [State.remoteRead, if_neg (by simp [hm, he]), if_neg (by simp [hq, hr])]
  simp only [needSnoops_nil s _ _ hsnoop hpaused, readHbm_unpoisoned _ _ _ hp, seenBytes_unpoisoned]

theorem remoteRead_refused (n : Nat) (h : ¬ s.lnk.qpUp qp = true ∨ ¬ s.lnk.region key addr n = true) :
    s.remoteRead qp key addr n = s.refuseRdma qp := by
  rw [State.remoteRead, if_neg (by simp [hm, he]), if_pos h]

end

/-! ### Completed work (R409, R431, R433) -/

/-- The bytes a work request of the copy engine or of firmware brings are written where they belong. -/
theorem workDone_data (s : State) (dst : Nat) (data : List Byte) (hm : s.memRuns = true)
    (hd : dst + data.length ≤ 1152000000000) (hsnoop : s.mem.snoop = []) (hpaused : s.mem.paused = []) :
    s.workDone none true dst data = { s with mem := s.mem.writeHbm dst (data.map fun b => (b, false)) } := by
  have hput : s.putHbm dst (data.map fun b => (b, false)) =
      { s with mem := s.mem.writeHbm dst (data.map fun b => (b, false)) } := by
    rw [State.putHbm, needSnoops_nil s _ _ hsnoop hpaused]
    rfl
  simp only [State.workDone]
  rw [if_neg (by simp [hm]), if_pos ⟨trivial, hd⟩, hput]

/-- The work request an identifier names, where no two have the same. -/
theorem find_work (l : List RdmaWork) (w : RdmaWork) (hw : w ∈ l) (hu : ∀ v ∈ l, v.id = w.id → v = w) :
    (l.find? fun v => v.id = w.id) = some w := by
  cases h : l.find? fun v => v.id = w.id with
  | none => exact absurd (decide_eq_true rfl) (List.find?_eq_none.1 h w hw)
  | some v => rw [hu v (List.mem_of_find?_eq_some h) (by simpa using List.find?_some h)]

theorem workDone_operation (s : State) (w : RdmaWork) (o : ColOp) (ok : Bool) (dst : Nat) (data : List Byte)
    (hm : s.memRuns = true) (hw : (s.lnk.work.find? fun v => v.id = w.id) = some w)
    (ho : s.col.find w.group w.n w.slot = some o) :
    let t : State := { s with lnk := { s.lnk with work := s.lnk.work.filter fun v => v.id ≠ w.id } }
    s.workDone (some w.id) ok dst data = if ok then t.acked o else (t.endOp o 4 s.own).admitAll := by
  intro t
  simp only [State.workDone, hm, hw, ho]
  rfl

/-! ### Set-up (R409) -/

/-- A region inside an extent of a pinned tensor of HBM is set up. -/
theorem setupRdma_region (s : State) (num base len : Nat) (key : BitVec 32) (eth : Bool) (peer : Nat) (t : Tensor)
    (ex : List (Nat × Nat)) (ht : t ∈ s.mem.tensors) (hp : t.pinned = true) (hl : t.lost = false)
    (hloc : t.loc = .hbm ex) (hex : ∃ e ∈ ex, e.1 ≤ base ∧ base + len ≤ e.1 + e.2) :
    s.setupRdma true num base len key eth peer =
      { s with lnk := { s.lnk with regions := s.lnk.regions.put num ⟨base, len, key⟩ } } := by
  have hin : (ex.any fun e => decide (e.1 ≤ base ∧ base + len ≤ e.1 + e.2)) = true := by simpa using hex
  simp only [State.setupRdma, if_true]
  rw [if_pos (List.any_eq_true.2 ⟨t, ht, by simp only [hp, hl, hloc, hin]; rfl⟩)]

/-! ### The island stage (R431) -/

section
variable (s : State) (eth : Bool) (h : ColHdr) (off : Nat) (bytes : List (Byte × Bool))

theorem islandWrite_ignored (hn : (if eth then s.lnk.speed1 else s.lnk.speed0) = 0 ∨ h.code ≠ 3) :
    s.islandWrite eth h off bytes = s :=
  if_pos (hn.imp_left fun e he => he e)

theorem islandWrite_known (hup : (if eth then s.lnk.speed1 else s.lnk.speed0) ≠ 0) (hc : h.code = 3)
    (hq : s.lnk.qps.find ((s.group h.group).f 7 23 0) ≠ none) :
    s.islandWrite eth h off bytes = s.colData h off bytes := by
  simp only [State.islandWrite]
  rw [if_neg (fun hn => hn.elim (fun e => e hup) fun e => e hc), if_neg (by simpa using hq)]

theorem islandWrite_unknown (hup : (if eth then s.lnk.speed1 else s.lnk.speed0) ≠ 0) (hc : h.code = 3)
    (hq : s.lnk.qps.find ((s.group h.group).f 7 23 0) = none) : s.islandWrite eth h off bytes =
      { s with lnk := { s.lnk with ethRefused := satInc s.lnk.ethRefused } } := by
  simp only [State.islandWrite]
  rw [if_neg (fun hn => hn.elim (fun e => e hup) fun e => e hc), if_pos (by rw [hq]; rfl)]

end

end Sys2Proof.Machine

open Sys2Proof Sys2Proof.Machine

/-- Settles O46: each command by the lemma of its operation, with `qpUp_iff` and `region_iff` for a remote access. -/
theorem ethernetAndRdma : Obligations.EthernetAndRdma := by
  unfold Obligations.EthernetAndRdma
  refine ⟨?_, ?_, ?_, ?_, fun s id => rfl⟩
  -- Accesses from outside.
  · intro s qp addr key q hm he hq
    have hup := qpUp_iff s.lnk qp q hq
    intro refused up covered
    have hregion (n : Nat) : s.lnk.region key addr n = true ↔ covered n := region_iff s.lnk key addr n
    have hrefused (n : Nat) (h : ¬ up ∨ ¬ covered n) : ¬ s.lnk.qpUp qp = true ∨ ¬ s.lnk.region key addr n = true := by
      rwa [hup, hregion]
    refine ⟨fun data => ⟨fun hu hc hsnoop hpaused => ?_, fun h => ?_⟩,
      fun n => ⟨fun hu hc hsnoop hpaused hp => ?_, fun h => ?_⟩⟩
    · exact congrArg _ (remoteWrite_served s qp key addr hm he data (hup.2 hu) ((hregion _).2 hc) hsnoop hpaused)
    · exact congrArg _ (remoteWrite_refused s qp key addr hm he data (hrefused _ h))
    · exact congrArg _ (remoteRead_served s qp key addr hm he n (hup.2 hu) ((hregion n).2 hc) hsnoop hpaused hp)
    · exact congrArg _ (remoteRead_refused s qp key addr hm he n (hrefused _ h))
  -- Completed work requests.
  · intro s hm
    refine ⟨fun dst data hd hsnoop hpaused => congrArg _ (workDone_data s dst data hm hd hsnoop hpaused), ?_⟩
    intro w hw hu o ho t dst data
    have hfind := find_work s.lnk.work w hw hu
    exact ⟨congrArg _ (workDone_operation s w o true dst data hm hfind ho),
      congrArg _ (workDone_operation s w o false dst data hm hfind ho)⟩
  -- Ports, flow control, queue pairs and regions.
  · intro s hp l
    refine ⟨fun speed hspeed => ?_, fun qp => ?_, fun p => ?_, fun num base len key eth peer => ?_⟩
    · have run (eth : Bool) : exec (.ethLinkChange eth speed) s = .next (s.ethLink eth speed) :=
        (if_neg hspeed).trans (congrArg _ (if_pos hp))
      exact ⟨run false, run true⟩
    · exact congrArg _ (if_pos hp)
    · exact ⟨congrArg _ (if_pos hp), congrArg _ (if_pos hp), congrArg _ (if_pos hp), congrArg _ (if_pos hp)⟩
    · have run (region : Bool) (hn : num < if region then 4096 else 16384) :
          exec (.queuePairSetup region num base len key eth peer) s =
            .next (s.setupRdma region num base len key eth peer.toNat) :=
        (if_neg (by omega)).trans (congrArg _ (if_pos hp))
      refine ⟨fun hn => run false hn, fun hn t ht hpin hlost ex hloc hex => (run true hn).trans ?_⟩
      rw [setupRdma_region s num base len key eth peer.toNat t ex ht hpin hlost hloc hex]
  -- The island stage.
  · intro s eth src g ver n stage off data bad run
    refine ⟨fun hup hcode => ⟨fun hq => ?_, fun hq => ?_⟩, fun h => ?_⟩
    · exact congrArg _ (islandWrite_known s eth _ off.toNat _ hup hcode hq)
    · exact congrArg _ (islandWrite_unknown s eth _ off.toNat _ hup hcode hq)
    · exact congrArg _ (islandWrite_ignored s eth _ off.toNat _ h)

end

section
/-! PROOFS. The Reset values of the registers (R16), read from the start state. -/

open Sys2Proof Sys2Proof.Machine

/-- Settles O4: nothing is under way in the start state, and each listed read of it evaluates to its Reset value. -/
theorem resetValues : Obligations.ResetValues := by
  unfold Obligations.ResetValues
  refine ⟨rfl, rfl, rfl, rfl, rfl, rfl, ?_, ?_⟩
  -- The registers of the windows, then those the host's hardware serves.
  · decide +kernel
  · decide +kernel

end

section
/-!
PROOFS. Reads of registers (R357, R358, R361, R521): which part serves an offset, and what a read answers and leaves.
-/

namespace Sys2Proof.Machine

/-! ### The windows over the side-band (R521) -/

theorem readSide_main (s : State) (off : Nat) (ho : 0x10000 ≤ off) (hm : s.pwr.main = true) :
    s.readSide off = s.readWin off := by
  rw [State.readSide, if_neg (by omega), if_pos (.inl hm)]

theorem readSide_dark (s : State) (off : Nat) (ho : 0x10000 ≤ off) (hm : s.pwr.main = false) (h85 : off / 4096 ≠ 0x85)
    (hlo : off ≠ 0x84018) (hhi : off ≠ 0x8401C) : s.readSide off = (0, s) := by
  rw [State.readSide, if_neg (by omega), if_neg (by simp [hm, alwaysOn, h85, hlo, hhi])]
  rfl

theorem readFe_win (s : State) (off : Nat) (ho : 0x10000 ≤ off) : s.readFe off = s.readWin off := if_pos ho

theorem sideRead_refused (s : State) (off count : Nat) (hs : s.sideUp = true) (hc : count = 0 ∨ 56 < count) :
    s.sideRead off count = s.reply 9 0xFF [1] := by
  rw [State.sideRead, if_neg (by simp [hs]), if_pos hc]
  rfl

theorem sideRead_run (s : State) (off count : Nat) (hs : s.sideUp = true) (h1 : 1 ≤ count) (h56 : count ≤ 56) :
    s.sideRead off count = (State.readRun off count s).2.reply 9 1 (State.readRun off count s).1 := by
  rw [State.sideRead, if_neg (by simp [hs]), if_neg (by omega)]

/-! ### Which part serves an offset of BAR0 (R357) -/

theorem feServed_win (off : Nat) (ho : 0x10000 ≤ off) : feServed off = true := by
  simp [feServed, ho]

theorem hwServed_of_feServed (off : Nat) (h : feServed off = true) : hwServed off = false := by
  simp only [feServed, decide_eq_true_eq] at h
  simp only [hwServed, decide_eq_false_iff_not]
  omega

/-- Every register whose read latches lies in the windows, KHI's line time apart. -/
theorem latches_win (off : Nat) (h : latches off = true) (h10 : off ≠ 0x10) : 0x10000 ≤ off := by
  simp only [latches, Bool.or_eq_true, Bool.and_eq_true, beq_iff_eq, decide_eq_true_eq] at h
  omega

theorem readClears_win (off : Nat) (h : readClears off = true) : 0x10000 ≤ off := by
  simp only [readClears, Bool.or_eq_true, Bool.and_eq_true, beq_iff_eq, decide_eq_true_eq] at h
  omega

theorem tracePort_win (off : Nat) (h : tracePort off = true) : 0x10000 ≤ off := by
  simp only [tracePort, Bool.and_eq_true, beq_iff_eq, decide_eq_true_eq] at h
  omega

/-! ### Accesses that firmware serves (R358) -/

/-- With no access in waiting, nothing is served before a new one. -/
theorem serveWaiting_none (s : State) (h : s.hif.fe = []) : s.serveWaiting = s := by
  have hself : ({ s with hif := { s.hif with fe := [] } } : State) = s := by rw [← h]
  unfold State.serveWaiting
  split
  · rw [h]
    simp only [List.foldl_nil, h]
    exact hself
  · rfl

theorem feAccess_served (s : State) (off : Nat) (write : Option Word) (hs : s.servesFe = true) (h : s.hif.fe = []) :
    s.feAccess off write = s.serveFe off write := by
  rw [State.feAccess, if_pos hs, serveWaiting_none s h]

theorem feAccess_held (s : State) (off : Nat) (write : Option Word) (hs : s.servesFe = false) :
    s.feAccess off write = { s with hif := { s.hif with fe := s.hif.fe ++ [⟨off, write, s.ns⟩] } } := by
  rw [State.feAccess, if_neg (by simp [hs])]

/-- An access that has not waited 40,000 ns is not completed by the port. -/
theorem feTimeout_head (s : State) (a : FeAccess) (rest : List FeAccess) (hfe : s.hif.fe = a :: rest)
    (h : s.ns < a.at' + 40000) : s.feTimeout = s := by
  rw [State.feTimeout, hfe]
  exact if_pos (.inr h)

/-- The port completes the oldest access, which has waited 40,000 ns. -/
theorem feTimeout_late (s : State) (a : FeAccess) (rest : List FeAccess) (hfe : s.hif.fe = a :: rest)
    (hm : s.pwr.main = true) (h : a.at' + 40000 ≤ s.ns) :
    let t := ({ s with hif := { s.hif with fe := rest, hwerr := s.hif.hwerr ||| 2 } } : State).raise 0x0609 .warning
      [(4, a.offset), (1, if a.write.isSome then 1 else 0)]
    s.feTimeout = if a.write.isSome then t else t.reply 8 0 [a.offset, 0xFFFFFFFF] := by
  intro t
  rw [State.feTimeout, hfe]
  exact if_neg (by simp [hm]; omega)

theorem feTimeout_early (s : State) (h : ∀ a ∈ s.hif.fe, s.ns < a.at' + 40000) : s.feTimeout = s := by
  cases hfe : s.hif.fe with
  | nil => rw [State.feTimeout, hfe]
  | cons a rest => exact feTimeout_head s a rest hfe (h a (by rw [hfe]; exact List.mem_cons_self))

theorem serveWaiting_run (s : State) (hs : s.servesFe = true) (h : ∀ a ∈ s.hif.fe, s.ns < a.at' + 40000) :
    s.serveWaiting = s.hif.fe.foldl (fun s a => s.serveFe a.offset a.write) { s with hif := { s.hif with fe := [] } } := by
  have hkeep : s.hif.fe.foldl (fun s _ => s.feTimeout) s = s := List.foldl_fixed' (fun _ => feTimeout_early s h) _
  rw [State.serveWaiting, if_pos hs, hkeep]

/-! ### Reads of the host (R357, R521) -/

/-- The state after a register is read by firmware for the host, with the answer. -/
def State.feRead (s : State) (off : Nat) : State := (s.readFe off).2.reply 8 0 [off, (s.readFe off).1.toNat]

theorem hostReadReg_served (s : State) (off : Nat) (hf : feServed off = true) (hs : s.servesFe = true) (h : s.hif.fe = []) :
    s.hostReadReg off = s.feRead off := by
  rw [State.hostReadReg, if_pos hf, feAccess_served s off none hs h]
  rfl

theorem readClass_other (s : State) (is : Nat → Bool) (side : Bool) (off : Nat) (h : is off = false) :
    s.readClass is side off = s := if_pos (by simp [h])

theorem readClass_host (s : State) (is : Nat → Bool) (off : Nat) (h : is off = true) (hu : s.hostUp = true) :
    s.readClass is false off = s.hostReadReg off := by
  rw [State.readClass, if_neg (by simp [h]), if_neg (by simp), if_pos hu]

/-- A register of a class in the windows, read by the host while firmware serves at once. -/
theorem readClass_host_win (s : State) (is : Nat → Bool) (off : Nat) (h : is off = true) (hw : 0x10000 ≤ off)
    (hu : s.hostUp = true) (hs : s.servesFe = true) (hfe : s.hif.fe = []) : s.readClass is false off = s.feRead off := by
  rw [readClass_host s is off h hu, hostReadReg_served s off (feServed_win off hw) hs hfe]

theorem readClass_side (s : State) (is : Nat → Bool) (off : Nat) (h : is off = true) (hs : s.sideUp = true) :
    s.readClass is true off = (s.readSide off).2.reply 9 1 [(s.readSide off).1.toNat] := by
  rw [State.readClass, if_neg (by simp [h]), if_pos rfl, sideRead_run s off 1 hs (by omega) (by omega)]
  rfl

/-- HIF_LT_LO latches the high half of line time (R361). -/
theorem hostReadReg_lineTime (s : State) : s.hostReadReg 0x10 =
    ({ s with hif := { s.hif with ltHi := BitVec.ofNat 32 (s.ns / 2 ^ 32) } } : State).reply 8 0 [0x10, s.ns % 2 ^ 32] := by
  rw [← BitVec.toNat_ofNat s.ns 32]
  rfl

end Sys2Proof.Machine
end

section
/-!
PROOFS. Writes of registers (R18, R376, R520, R521): which block a write of each writer reaches, and what it leaves alone.
-/

namespace Sys2Proof.Machine

/-! ### The windows, block by block (R520) -/

section
variable (s : State) (off : Nat) (v : Word)

theorem writeHostWin_box (n r : Nat) (hn : n < 72) (hr : r < 1024) (h4 : r % 4 = 0) (ho : off = 0x60000 + 1024 * n + r) :
    s.writeHostWin off v = s.writeBox (16 * (n / 9) + n % 9) r v := by
  have hk : (off - 0x60000) / 1024 = n := by omega
  have hm : off % 1024 = r := by omega
  rw [State.writeHostWin, if_neg (by omega), if_pos (by omega), hk, hm]

theorem writeHostWin_dbg (h4 : off % 4 = 0) (hb : off / 4096 = 0x86) :
    s.writeHostWin off v = s.writeDbg (off % 4096) v := by
  rw [State.writeHostWin, if_neg (by omega), if_neg (by omega), if_pos hb]

/-- Outside the signal boxes and the debug block a write of the host does nothing. -/
theorem writeHostWin_other (hbox : off < 0x60000 ∨ 0x72000 ≤ off) (hb : off / 4096 ≠ 0x86) : s.writeHostWin off v = s := by
  by_cases h4 : off % 4 ≠ 0
  · exact if_pos h4
  · have hout : ¬ (0x60000 ≤ off ∧ off < 0x72000) := by omega
    rw [State.writeHostWin, if_neg h4, if_neg hout, if_neg hb]

theorem writeSide_refused (h : s.pwr.main = false ∨ off % 4 ≠ 0) : s.writeSide off v = s :=
  if_pos (h.imp_left fun e => by simp [e])

variable (hm : s.pwr.main = true)
include hm

theorem writeSide_lnk (h4 : off % 4 = 0) (hb : off / 4096 = 0x82) : s.writeSide off v = s.writeLnk (off % 4096) v := by
  rw [State.writeSide, if_neg (by simp [hm, h4]), hb]
  rfl

theorem writeSide_col (h4 : off % 4 = 0) (hb : off / 4096 = 0x83) : s.writeSide off v = s.writeCol (off % 4096) v := by
  rw [State.writeSide, if_neg (by simp [hm, h4]), hb]
  rfl

theorem writeSide_pwr (h4 : off % 4 = 0) (hb : off / 4096 = 0x84) : s.writeSide off v = s.writePwr (off % 4096) v := by
  rw [State.writeSide, if_neg (by simp [hm, h4]), hb]
  rfl

/-- Outside the blocks of links, recovery and power the side-band writes what the host writes. -/
theorem writeSide_host (h4 : off % 4 = 0) (hb : off / 4096 < 0x82 ∨ 0x84 < off / 4096) :
    s.writeSide off v = s.writeHostWin off v := by
  rw [State.writeSide, if_neg (by simp [hm, h4])]
  split
  · omega
  · omega
  · omega
  · rfl

/-- The side-band writes nothing below the signal boxes, nothing of memory, dispatcher and firmware, and nothing above the
debug block (R521). -/
theorem writeSide_outside (h : off < 0x60000 ∨ (0x72000 ≤ off ∧ off < 0x82000) ∨ (0x85000 ≤ off ∧ off < 0x86000) ∨
    0x87000 ≤ off) : s.writeSide off v = s := by
  by_cases h4 : off % 4 = 0
  · rw [writeSide_host s off v hm h4 (by omega), writeHostWin_other s off v (by omega) (by omega)]
  · exact writeSide_refused s off v (.inr h4)

/-- CL_MX_CONFIG of the signal box with number `n` (R161). -/
theorem writeSide_mxConfig (n : Nat) (hn : n < 72) (ho : off = 0x60100 + 1024 * n) : s.writeSide off v =
    s.setBox (16 * (n / 9) + n % 9) { s.box (16 * (n / 9) + n % 9) with mxConfig := v &&& 0x00000FF1 } := by
  rw [writeSide_host s off v hm (by omega) (by omega), writeHostWin_box s off v n 0x100 hn (by omega) rfl (by omega)]
  rfl

end

/-! ### A port's planned entry (R397) -/

theorem writeLnk_plan (s : State) (p : Nat) (v : Word) (hp : p < 6) :
    s.writeLnk (0x0C + 32 * p) v = s.modPort p fun k => { k with planShd := v &&& 0xC01C7FFF } := by
  have h1 : (0x0C + 32 * p) % 32 = 0x0C := by omega
  have h2 : (0x0C + 32 * p) / 32 = p := by omega
  simp only [State.writeLnk]
  rw [if_pos (by omega), h1, h2]
  rfl

theorem writeSide_plan (s : State) (off p : Nat) (v : Word) (hm : s.pwr.main = true) (hp : p < 6)
    (ho : off = 0x8200C + 32 * p) : s.writeSide off v = s.modPort p fun k => { k with planShd := v &&& 0xC01C7FFF } := by
  have h : off % 4096 = 0x0C + 32 * p := by omega
  rw [writeSide_lnk s off v hm (by omega) (by omega), h, writeLnk_plan s p v hp]

/-! ### Hardware registers of the host (R361, R368) -/

section
variable (s : State) (v : Word)

theorem writeHw_request (k : Nat) (hk : k < 64) : s.writeHw (0x1100 + 4 * k) v =
    { s with hif := { s.hif with mbReq := Mem.writeNat 0 s.hif.mbReq (4 * k) 4 v.toNat } } := by
  simp only [State.writeHw]
  rw [if_neg (by omega), if_pos (by omega), Nat.add_sub_cancel_left]

theorem writeHw_tail (q : Nat) (hq : q < 64) : s.writeHw (0x2000 + 8 * q) v = s.sqDb q (v.setWidth 16) := by
  have h : (0x2000 + 8 * q - 0x2000) / 8 = q := by omega
  simp only [State.writeHw]
  rw [if_neg (by omega), if_neg (by omega), if_pos (by omega), if_pos (by omega), h]

theorem writeHw_head (q : Nat) (hq : q < 64) : s.writeHw (0x2004 + 8 * q) v = s.cqHead q (v.setWidth 16) := by
  have h : (0x2004 + 8 * q - 0x2000) / 8 = q := by omega
  simp only [State.writeHw]
  rw [if_neg (by omega), if_neg (by omega), if_pos (by omega), if_neg (by omega), h]

theorem sqDb_ok (q : Nat) (i : BitVec 16) (h : (s.queue q).tailOk i = true) : s.sqDb q i = s.doorbell q i := by
  rw [State.sqDb, h]
  rfl

theorem sqDb_bad (q : Nat) (i : BitVec 16) (h : (s.queue q).tailOk i = false) :
    s.sqDb q i = s.undefinedAll.doorbell q i := by
  rw [State.sqDb, h]
  rfl

theorem cqHead_ok (q : Nat) (i : BitVec 16) (h : (s.queue q).headOk i = true) : s.cqHead q i = s.cqHeadWrite q i := by
  rw [State.cqHead, h]
  rfl

theorem cqHead_bad (q : Nat) (i : BitVec 16) (h : (s.queue q).headOk i = false) :
    s.cqHead q i = s.undefinedAll.cqHeadWrite q i := by
  rw [State.cqHead, h]
  rfl

/-! ### Who serves a write of the host (R357, R358) -/

theorem hostWriteReg_hw (off : Nat) (h : hwServed off = true) : s.hostWriteReg off v = s.writeHw off v := if_pos h

theorem hostWriteReg_request (off k : Nat) (hk : k < 64) (ho : off = 0x1100 + 4 * k) : s.hostWriteReg off v =
    { s with hif := { s.hif with mbReq := Mem.writeNat 0 s.hif.mbReq (4 * k) 4 v.toNat } } := by
  rw [hostWriteReg_hw s v _ (by simp [hwServed]; omega), ho, writeHw_request s v k hk]

theorem hostWriteReg_tail (off q : Nat) (hq : q < 64) (ho : off = 0x2000 + 8 * q) :
    s.hostWriteReg off v = s.sqDb q (v.setWidth 16) := by
  rw [hostWriteReg_hw s v _ (by simp [hwServed]; omega), ho, writeHw_tail s v q hq]

theorem hostWriteReg_head (off q : Nat) (hq : q < 64) (ho : off = 0x2004 + 8 * q) :
    s.hostWriteReg off v = s.cqHead q (v.setWidth 16) := by
  rw [hostWriteReg_hw s v _ (by simp [hwServed]; omega), ho, writeHw_head s v q hq]

theorem hostWriteReg_fe (off : Nat) (h : feServed off = true) : s.hostWriteReg off v = s.feAccess off (some v) := by
  rw [State.hostWriteReg, hwServed_of_feServed off h, if_neg Bool.false_ne_true, if_pos h]

theorem hostWriteReg_none (off : Nat) (hh : hwServed off = false) (hf : feServed off = false) :
    s.hostWriteReg off v = s := by
  rw [State.hostWriteReg, hh, hf, if_neg Bool.false_ne_true, if_neg Bool.false_ne_true]

/-- A write to a window, served at once, is a write of the host's windows (R521). -/
theorem hostWriteReg_win (off : Nat) (ho : 0x10000 ≤ off) (hs : s.servesFe = true) (hfe : s.hif.fe = []) :
    s.hostWriteReg off v = s.writeHostWin off v := by
  rw [hostWriteReg_fe s v off (feServed_win off ho), feAccess_served s off _ hs hfe]
  simp only [State.serveFe, State.writeFe]
  rw [if_neg (by omega), if_pos ho]

/-- A register of the windows that only firmware or the side-band writes keeps its value (R521). -/
theorem hostWriteReg_denied (off : Nat) (hs : s.servesFe = true) (hfe : s.hif.fe = [])
    (h : off = 0x84004 ∨ off = 0x83100 ∨ off = 0x81004 ∨ off = 0x80008 ∨ off = 0x850FC) : s.hostWriteReg off v = s := by
  rw [hostWriteReg_win s v off (by omega) hs hfe, writeHostWin_other s off v (by omega) (by omega)]

/-! ### The MSI-X table and what an unmasked entry sends (R356, R376) -/

theorem writeMsix_plain (i : Nat) (hi : i < 256) (hm : i % 4 = 1 ∨ i % 4 = 2) : s.writeMsix (4 * i) v =
    ({ s with hif := { s.hif with msix := Sparse.put s.hif.msix i v } } : State).sendPending := by
  have h : 4 * i / 4 = i := by omega
  simp only [State.writeMsix]
  rw [if_neg (by omega), h, if_neg (by omega), if_neg (by omega)]

theorem writeMsix_mask (n : Nat) (hn : n < 64) : s.writeMsix (16 * n + 12) v =
    ({ s with hif := { s.hif with msix := Sparse.put s.hif.msix (4 * n + 3) (v &&& 1) } } : State).sendPending := by
  have h : (16 * n + 12) / 4 = 4 * n + 3 := by omega
  simp only [State.writeMsix]
  rw [if_neg (by omega), h, if_pos (by omega)]

/-- Nothing that is pending can be sent: no vector is pending, or the device is DETACHED. -/
theorem sendPending_idle (h : s.hif.pba = 0 ∨ s.hif.detached = true) : s.sendPending = s := by
  rcases h with h | h
  · simp [State.sendPending, h]
  · unfold State.sendPending
    refine List.foldl_fixed' (fun _ => ?_) _
    exact if_pos (.inl h)

/-- With one vector pending on an attached link, the mask of its entry decides. -/
theorem sendPending_one (n : Nat) (hn : n < 64) (hp : s.hif.pba = (1 : BitVec 64) <<< n) (hd : s.hif.detached = false)
    (hl : s.hif.linkUp = true) : s.sendPending = if (s.hif.msix.at 1 (4 * n + 3)).getLsbD 0 then s
      else ({ s with hif := { s.hif with pba := 0 } } : State).sendVector (BitVec.ofNat 6 n) := by
  have hone : ∀ n < 64, ((List.range 64).filter fun k => ((1 : BitVec 64) <<< n).getLsbD k) = [n] := by decide +kernel
  have hclear : s.hif.pba &&& ~~~((1 : BitVec 64) <<< n) = 0 := by rw [hp, BitVec.and_not_self]
  unfold State.sendPending
  rw [hp, hone n hn, List.foldl_cons, List.foldl_nil, hclear]
  simp only [hd, hl, Bool.false_eq_true, not_true, false_or]

end

/-! ### Registers that firmware writes (R308, R322, R353, R437) -/

section
variable (s : State) (off : Nat) (v : Word)

theorem writeFirmware_misaligned (h : off % 4 ≠ 0) : s.writeFirmware off v = s := if_pos h

/-- A slot of the shadow timetable of a Morgo arbiter block (R322). -/
theorem writeFirmware_slot (b : BitVec 3) (i : Nat) (h1 : 1 ≤ b.toNat) (h6 : b.toNat ≤ 6) (hi : i < 16)
    (ho : off = 0x82780 + 256 * b.toNat + 4 * i) : s.writeFirmware off v = s.setArbBlock b { s.arbBlock b with
      shd := { (s.arbBlock b).shd with slots := rset (s.arbBlock b).shd.slots (BitVec.ofNat 4 i) (v &&& 0x1F1F1F1F) } } := by
  have hblock : off / 4096 = 0x82 := by omega
  have hb : BitVec.ofNat 3 ((off % 4096 - 0x800) / 256 + 1) = b := by
    rw [show (off % 4096 - 0x800) / 256 + 1 = b.toNat by omega, BitVec.ofNat_toNat, BitVec.setWidth_eq]
  have hslot : (off % 4096 % 256 - 0x80) / 4 = i := by omega
  have harb : s.writeFirmware off v = s.writeArb b (off % 4096 % 256) v := by
    rw [State.writeFirmware, if_neg (by omega), if_neg (by omega), hblock, ← hb]
    exact if_pos (by omega)
  rw [harb]
  simp only [State.writeArb]
  rw [if_neg (by omega), if_pos (by omega), hslot]
  rfl

end

end Sys2Proof.Machine
end

section
/-! PROOFS. The rows of register accesses, from the reads and writes they make. -/

open Sys2Proof Sys2Proof.Machine

namespace Sys2Proof.Machine

/-- A side-band read answers its words in order, each word read in the state the word before it left (R521). -/
theorem exec_windowRead (s : State) (off : BitVec 32) (count : BitVec 8) (hs : s.sideUp = true) (h1 : 1 ≤ count.toNat)
    (h56 : count.toNat ≤ 56) : ∃ (at' : Nat → State) (ws : List Nat), at' 0 = s ∧ ws.length = count.toNat ∧
      (∀ k < count.toNat, at' (k + 1) = ((at' k).readSide (off.toNat + 4 * k)).2 ∧
        ws[k]? = some ((at' k).readSide (off.toNat + 4 * k)).1.toNat) ∧
      exec (.windowRead off count) s = .next ((at' count.toNat).reply 9 1 ws) := by
  obtain ⟨at', h0, hlen, hstep, hlast⟩ := readRun_steps count.toNat off.toNat s
  refine ⟨at', _, h0, hlen, hstep, ?_⟩
  rw [hlast]
  exact congrArg _ (sideRead_run s off.toNat count.toNat hs h1 h56)

theorem exec_windowWrite (s : State) (off : BitVec 32) (v : BitVec 32) (hs : s.sideUp = true) :
    exec (.windowWrite off v) s = .next ((s.writeSide off.toNat v).reply 9 2 [off.toNat]) := congrArg _ (if_pos hs)

theorem exec_registerWrite_host (s : State) (off : BitVec 21) (v : BitVec 32) (hu : s.hostUp = true) :
    exec (.registerWrite .host off v) s = .next (s.hostWriteReg off.toNat v) := congrArg _ (if_pos hu)

theorem exec_registerWrite_msix (s : State) (off : BitVec 21) (v : BitVec 32) (hu : s.hostUp = true) :
    exec (.registerWrite .msix off v) s = .next (s.writeMsix off.toNat v) := congrArg _ (if_pos hu)

theorem exec_registerWrite_firmware (s : State) (off : BitVec 21) (v : BitVec 32) (hw : s.fwWrites = true) :
    exec (.registerWrite .firmware off v) s = .next (s.writeFirmware off.toNat v) := congrArg _ (if_pos hw)

end Sys2Proof.Machine

/-- Settles O58: the reads by the part that serves the offset, the writes by the block each writer reaches. -/
theorem registerAccesses : Obligations.RegisterAccesses := by
  unfold Obligations.RegisterAccesses
  refine ⟨⟨?_, ?_, ?_, ?_, ?_, ?_, ?_⟩, ?_, ?_, ?_⟩
  -- Reads of words over the side-band.
  · intro s off count hs
    exact ⟨fun hc => congrArg _ (sideRead_refused s off.toNat count.toNat hs hc), exec_windowRead s off count hs⟩
  · intro s off count hs
    exact congrArg _ (if_pos (by simp [hs]))
  -- What registers of the windows read, and which latch or clear.
  · intro s
    exact ⟨fun off ho => ⟨readFe_win s off ho, readSide_main s off ho, readSide_dark s off ho⟩,
      rfl, rfl, rfl, rfl, rfl, rfl, rfl, rfl, rfl, rfl, rfl⟩
  -- Reads of a class of registers by the host.
  · intro s off hu
    have other (is : Nat → Bool) (h : is off.toNat = false) (side : Bool) := readClass_other s is side off.toNat h
    refine ⟨?_, fun h => ⟨congrArg _ (other latches h false), congrArg _ (other latches h true)⟩,
      fun h => ⟨congrArg _ (other readClears h false), congrArg _ (other readClears h true)⟩,
      fun h => ⟨congrArg _ (other tracePort h false), congrArg _ (other tracePort h true)⟩, fun hs hfe => ?_,
      fun hs h write => congrArg _ ((if_pos ⟨hu, h⟩).trans (feAccess_held s off.toNat write hs))⟩
    · rintro rfl
      exact congrArg _ ((readClass_host s latches 0x10 rfl hu).trans (hostReadReg_lineTime s))
    · have window (is : Nat → Bool) (h : is off.toNat = true) (hw : 0x10000 ≤ off.toNat) :=
        readClass_host_win s is off.toNat h hw hu hs hfe
      refine ⟨fun h => congrArg _ ((if_pos ⟨hu, h⟩).trans (feAccess_served s off.toNat none hs hfe)), fun h h10 => ?_,
        fun h => congrArg _ (window readClears h (readClears_win _ h)),
        fun h => congrArg _ (window tracePort h (tracePort_win _ h))⟩
      have hne : off.toNat ≠ 0x10 := fun e => h10 (BitVec.eq_of_toNat_eq e)
      exact congrArg _ (window latches h (latches_win _ h hne))
  -- The same by the side-band.
  · intro s off hs read
    exact ⟨fun h => congrArg _ (readClass_side s latches off.toNat h hs),
      fun h => congrArg _ (readClass_side s readClears off.toNat h hs),
      fun h => congrArg _ (readClass_side s tracePort off.toNat h hs)⟩
  -- Accesses that wait for firmware, and their timeout.
  · intro s hs h
    exact congrArg _ (serveWaiting_run s hs h)
  · intro s a rest hfe hm late
    refine ⟨fun h => congrArg _ (feTimeout_head s a rest hfe h), fun h => ?_⟩
    have hl := feTimeout_late s a rest hfe hm h
    refine ⟨fun hw => ?_, fun v hw => ?_⟩ <;> (rw [hw] at hl; exact congrArg _ hl)
  -- Writes over the side-band.
  · intro s off v hs
    refine ⟨s.writeSide off.toNat v, exec_windowWrite s off v hs, writeSide_refused s off.toNat v, fun hm => ?_⟩
    refine ⟨writeSide_outside s off.toNat v hm, ?_, ?_, ?_, ?_, ?_, ?_, fun p hp ho => writeSide_plan s _ p v hm hp ho,
      fun n hn ho => writeSide_mxConfig s _ v hm n hn ho⟩
    · rintro rfl
      exact writeSide_pwr s 0x84004 v hm rfl rfl
    · rintro rfl
      exact writeSide_pwr s 0x84010 v hm rfl rfl
    · rintro rfl
      exact writeSide_col s 0x83100 v hm rfl rfl
    · rintro rfl
      exact writeSide_lnk s 0x82110 v hm rfl rfl
    · rintro rfl
      exact (writeSide_host s 0x86010 v hm rfl (.inr (by decide))).trans (writeHostWin_dbg s 0x86010 v rfl rfl)
    · rintro rfl
      exact (writeSide_host s 0x860A0 v hm rfl (.inr (by decide))).trans (writeHostWin_dbg s 0x860A0 v rfl rfl)
  -- Writes of the host to BAR0 and to the MSI-X table.
  · intro s off v hu
    have host {t : State} (h : s.hostWriteReg off.toNat v = t) : exec (.registerWrite .host off v) s = .next t := by
      rw [exec_registerWrite_host s off v hu, h]
    have msix {t : State} (h : s.writeMsix off.toNat v = t) : exec (.registerWrite .msix off v) s = .next t := by
      rw [exec_registerWrite_msix s off v hu, h]
    have tail (q : Nat) (hq : q < 64) (ho : off.toNat = 0x2000 + 8 * q) := hostWriteReg_tail s v off.toNat q hq ho
    have head (q : Nat) (hq : q < 64) (ho : off.toNat = 0x2004 + 8 * q) := hostWriteReg_head s v off.toNat q hq ho
    refine ⟨?_, ?_, ?_, fun k hk ho => host (hostWriteReg_request s v _ k hk ho),
      fun q hq ho ht => host ((tail q hq ho).trans (sqDb_ok s q _ ht)),
      fun q hq ho hh => host ((head q hq ho).trans (cqHead_ok s q _ hh)), fun hs hfe => ⟨?_, ?_, fun h => ?_⟩,
      fun hs hf => host ((hostWriteReg_fe s v _ hf).trans (feAccess_held s _ _ hs)), ⟨_, host rfl⟩,
      fun q hq => ⟨fun ho ht => host ((tail q hq ho).trans (sqDb_bad s q _ ht)),
        fun ho hh => host ((head q hq ho).trans (cqHead_bad s q _ hh))⟩,
      fun hh hf => host (hostWriteReg_none s v _ hh hf), fun i hi ho him => msix (by rw [ho, writeMsix_plain s v i hi him]),
      fun n hn ho => msix (by rw [ho, writeMsix_mask s v n hn]), sendPending_idle s, fun n hn hp hd hl => ?_⟩
    · rintro rfl
      exact host rfl
    · rintro rfl
      exact host rfl
    · rintro rfl
      exact host rfl
    · rintro rfl
      exact host ((hostWriteReg_fe s v 0x10C rfl).trans (feAccess_served s _ _ hs hfe))
    · rintro rfl
      exact host ((hostWriteReg_win s v 0x860A0 (by decide) hs hfe).trans (writeHostWin_dbg s _ v rfl rfl))
    · exact host (hostWriteReg_denied s v _ hs hfe (by rcases h with rfl | rfl | rfl | rfl | rfl <;> decide))
    · have h := sendPending_one s n hn hp hd hl
      exact ⟨fun hb => h.trans (if_pos hb), fun hb => h.trans (if_neg (by rw [hb]; exact Bool.false_ne_true))⟩
  -- Writes while no host is there, of the side-band through the same row, and of firmware.
  · intro s off v
    refine ⟨fun hu => ?_, ?_, fun h => ?_, fun hw => ?_⟩
    · have hn : ¬ s.hostUp = true := by simp [hu]
      exact ⟨congrArg _ (if_neg hn), congrArg _ (if_neg hn)⟩
    · have h : (off.setWidth 32).toNat = off.toNat := by simp; omega
      exact congrArg (fun k => Host.Outcome.next (s.sideWrite k v)) h.symm
    · by_cases hw : s.fwWrites = true
      · rw [exec_registerWrite_firmware s off v hw, writeFirmware_misaligned s off.toNat v (h.resolve_left (by simp [hw]))]
      · exact congrArg _ (if_neg hw)
    · have firmware {t : State} (h : s.writeFirmware off.toNat v = t) :
          exec (.registerWrite .firmware off v) s = .next t := by
        rw [exec_registerWrite_firmware s off v hw, h]
      refine ⟨?_, ?_, ?_, ?_, fun b i h1 h6 hi ho => firmware (writeFirmware_slot s _ v b i h1 h6 hi ho)⟩ <;>
        (rintro rfl; exact firmware rfl)

end

section
/-!
PROOFS. Transfers without an answer (R247), the paths of a corner die and the failure of a die-to-die link (R33), and the
ballast of an array (R158).
-/

namespace Sys2Proof.Machine

/-! ### Rows of one cell (R22, R73) -/

theorem withCell_ok (id : CellId) (s : State) (f : State → State) (h : cellOk id = true) :
    withCell id s f = .next (f s) := if_pos h

theorem withLive_works (id : CellId) (s : State) (f : State → State) (h : cellOk id = true)
    (hw : (s.cell id).works = true) : withLive id s f = .next (f s) := by
  rw [withLive, withCell_ok id s _ h, if_pos hw]

/-! ### Transfers without an answer (R247) -/

theorem exec_transferAckTimeout (s : State) (id : CellId) (queue : BitVec 3) (index landed : Nat)
    (h : cellOk id = true) (hw : (s.cell id).works = true) :
    exec (.transferAckTimeout id queue index landed) s = .next (s.ackTimeout id queue index landed) :=
  withLive_works id s (fun s => s.ackTimeout id queue index landed) h hw

theorem ackTimeout_link (s : State) (id : CellId) (r : RunCmd) (index landed : Nat)
    (hr : (s.cell id).qlk.run[index]? = some r) (ho : cOpc r.cmd.word ≠ 0) (ht : r.start + 1000000 ≤ s.ns) :
    s.ackTimeout id 3 index landed =
      (s.landAll (r.pieces.take landed)).cmdFault id 3 (cOpc r.cmd.word).toNat r.cmd.seq stPath 0 := by
  simp only [State.ackTimeout]
  rw [if_pos trivial, hr]
  exact if_neg (not_or_intro ho (by omega))

theorem ackTimeout_part (s : State) (id : CellId) (p : ColPart) (o : ColOp) (index landed : Nat)
    (hp : (s.cell id).parts[index]? = some p)
    (ho : (s.col.ops.find? fun o => o.parts.any fun k => k.origin = .part id ∧ k.seq = p.seq) = some o)
    (ht : o.since + 1000000 ≤ s.ns) :
    s.ackTimeout id 5 index landed = s.cmdFault id 5 p.opc.toNat p.seq stPath 0 := by
  simp only [State.ackTimeout]
  rw [if_neg (by decide), if_pos trivial, hp]
  simp only [ho]
  exact if_neg (by omega)

/-! ### Paths of a corner die (R33) -/

section
variable (bad : List DieLink) (n : Nat) (hn : n % 2 = 0)
include hn

theorem routeLinks_fromCorner : routeLinks bad (some n) none =
    if ringLink n ∈ bad ∨ spokeLink (n + 1) ∈ bad then [ringLink (n + 7), spokeLink (n + 7)]
    else [ringLink n, spokeLink (n + 1)] := by
  simp [routeLinks, hn]

theorem routeLinks_toCorner : routeLinks bad none (some n) =
    if spokeLink (n + 7) ∈ bad ∨ ringLink (n + 7) ∈ bad then [spokeLink (n + 1), ringLink n]
    else [spokeLink (n + 7), ringLink (n + 7)] := by
  simp [routeLinks, hn]

end

/-! ### A failed die-to-die link (R32, R33) -/

/-- A link that is a ring link, or the spoke of an odd die, exists and can fail (R32). -/
theorem exec_dieLinkFailure (s : State) (l : DieLink) (h : ∀ n, l = .spoke n → n.toNat % 2 = 1) :
    exec (.dieLinkFailure l) s = .next (s.linkFails l) := by
  cases l with
  | ring n => rfl
  | spoke n => exact if_pos (h n rfl)

/-- The failure of a link that no command, no collective part and no waybill segment crosses only marks it: each of the
three passes over what crosses it has nothing to end. -/
theorem linkFails_uncrossed (s : State) (l : DieLink) (hnew : s.badLinks.contains l = false)
    (hrun : ∀ e ∈ s.cells, ∀ r ∈ e.2.qlk.run, s.runCrosses (BitVec.ofNat 11 e.1) l r = false)
    (hcol : ∀ k ∈ s.col.coming, ∀ i, k.origin = .part i ∨ k.origin = .lcoll i →
      l ∉ routeLinks s.badLinks (some (dieOf i)) none)
    (hseg : s.segments (s.crosses l) = []) :
    s.linkFails l = { s.colSettle with badLinks := s.colSettle.badLinks ++ [l] } := by
  have hnone : ∀ e ∈ s.cells, (e.2.qlk.run.find? fun r => s.runCrosses (BitVec.ofNat 11 e.1) l r) = none :=
    fun e he => List.find?_eq_none.2 fun r hr => ne_true_of_eq_false (hrun e he r hr)
  simp only [State.linkFails]
  rw [if_neg (ne_true_of_eq_false hnew), hseg, List.filterMap_eq_nil_iff.2, List.filter_eq_nil_iff.2]
  · rfl
  · intro k hk
    have hroute := hcol k hk
    cases ho : k.origin with
    | part i => simpa using hroute i (.inl ho)
    | lcoll i => simpa using hroute i (.inr ho)
    | epoch => exact Bool.false_ne_true
  · intro e he
    rw [hnone e he]

end Sys2Proof.Machine

open Sys2Proof Sys2Proof.Machine

/-- Settles O26: each row of a cell by its operation, the failure of a link by `linkFails_uncrossed`, the paths by the two
lemmas of `routeLinks`. -/
theorem transfersAndBallast : Obligations.TransfersAndBallast := by
  unfold Obligations.TransfersAndBallast
  intro s id hok c cfg
  refine ⟨fun r index landed hw hr ho ht => ?_, fun p index landed o hw hp ho ht => ?_, fun l hl hnew hrun hcol hseg => ?_,
    fun bad n _ hn => ⟨fun hring hspoke => ?_, fun h => ?_, fun hspoke hring => ?_, fun h => ?_⟩,
    fun duty beats hgap hidle hen hpow => ?_, fun beats hgap ht => ?_, fun beats hgap ht => ?_⟩
  -- A transfer of the link port and a collective part without an answer.
  · rw [exec_transferAckTimeout s id 3 index landed hok hw, ackTimeout_link s id r index landed hr ho ht]
  · rw [exec_transferAckTimeout s id 5 index landed hok hw, ackTimeout_part s id p o index landed hp ho ht]
  -- The failure of a link.
  · have hexists : ∀ n, l = .spoke n → n.toNat % 2 = 1 := by
      rintro n rfl
      exact hl
    rw [exec_dieLinkFailure s l hexists, linkFails_uncrossed s l hnew hrun hcol hseg]
  -- The two paths from a corner die, and the two to it.
  · exact (routeLinks_fromCorner bad n hn).trans (if_neg (not_or_intro hring hspoke))
  · exact (routeLinks_fromCorner bad n hn).trans (if_pos h)
  · exact (routeLinks_toCorner bad n hn).trans (if_neg (not_or_intro hspoke hring))
  · exact (routeLinks_toCorner bad n hn).trans (if_pos h)
  -- A ballast gap begins, holds its duty and ramps it down.
  · exact (withCell_ok id s _ hok).trans (congrArg _ (if_pos ⟨hgap, hidle, hen, hpow⟩))
  · exact (withCell_ok id s _ hok).trans (congrArg _ (if_pos ⟨hgap, ht⟩))
  · exact (withCell_ok id s _ hok).trans (congrArg _ (if_pos ⟨hgap, ht⟩))

end

section
/-!
PROOFS. PUSH (R109 to R112): its repeats, when none has to wait, append their commands one after the other.
-/

namespace Sys2Proof.Machine

/-! ### Instructions without register operands (R88) -/

theorem freeS_none (c : CellState) : c.FreeS 0 0 := by constructor <;> simp

theorem freeP_none (c : CellState) : c.FreeP 0 0 := by constructor <;> simp

/-! ### What one repeat leaves (R109 to R111) -/

/-- The cell with another count of the repeats a PUSH has appended. -/
def CellState.withPushed (c : CellState) (k : BitVec 5) : CellState := { c with core := { c.core with pushed := k } }

section
variable (c : CellState) (q : BitVec 2) (e : EngQueue) (claim : Option (Bool × BitVec 5)) (k : BitVec 5)

theorem setQueue_core : (c.setQueue q e).core = c.core := by
  rcases q4 q with rfl | rfl | rfl | rfl <;> rfl

theorem queue_setQueue : (c.setQueue q e).queue q = e := by
  rcases q4 q with rfl | rfl | rfl | rfl <;> rfl

theorem setQueue_withPushed : (c.withPushed k).setQueue q e = (c.setQueue q e).withPushed k := by
  rcases q4 q with rfl | rfl | rfl | rfl <;> rfl

theorem claim_core : (c.claim claim).core =
    { c.core with sClaim := (c.claim claim).core.sClaim, pClaim := (c.claim claim).core.pClaim } := by
  rcases claim with _ | ⟨_ | _, r⟩ <;> rfl

theorem claim_queue : (c.claim claim).queue q = c.queue q := by
  rcases claim with _ | ⟨_ | _, r⟩ <;> rfl

theorem claim_withPushed : (c.withPushed k).claim claim = (c.claim claim).withPushed k := by
  rcases claim with _ | ⟨_ | _, r⟩ <;> rfl

end

section
variable (c : CellState) (o : BitVec 22)

/-- What one repeat leaves of the core: only claims and address registers change, so fetch goes on where it was. -/
theorem pushOne_core : (pushOne c o).core =
    { c.core with a := (pushOne c o).core.a, sClaim := (pushOne c o).core.sClaim
                  pClaim := (pushOne c o).core.pClaim } := by
  simp only [pushOne]
  split <;> simp only [CellState.setAddr, CellState.setA] <;> rw [claim_core, setQueue_core]

/-- A repeat appends one command to its queue. -/
theorem pushOne_queue_length : ((pushOne c o).queue (fTop2 o)).q.length = (c.queue (fTop2 o)).q.length + 1 := by
  have hq (c' : CellState) (h : c'.queue (fTop2 o) = { c.queue (fTop2 o) with
      q := (c.queue (fTop2 o)).q ++ [pushSlot c (fTop2 o) (pushWord c o)] }) :
      (c'.queue (fTop2 o)).q.length = (c.queue (fTop2 o)).q.length + 1 := by
    rw [h]
    exact List.length_append
  simp only [pushOne]
  split <;> exact hq _ ((claim_queue _ _ _).trans (queue_setQueue _ _ _))

/-- What a repeat appends does not depend on how many went before it. -/
theorem pushOne_withPushed (k : BitVec 5) : pushOne (c.withPushed k) o = (pushOne c o).withPushed k := by
  have hw : pushWord (c.withPushed k) o = pushWord c o := rfl
  have hs (q : BitVec 2) (w : QWord) : pushSlot (c.withPushed k) q w = pushSlot c q w := rfl
  have hq (q : BitVec 2) : (c.withPushed k).queue q = c.queue q := rfl
  simp only [pushOne, hw, hs, hq, setQueue_withPushed, claim_withPushed]
  split <;> rfl

end

/-! ### All repeats (R61, R112) -/

/-- `n` repeats from cell `c`. -/
abbrev pushMany (o : BitVec 22) (n : Nat) (c : CellState) : CellState := iter (fun c => pushOne c o) n c

theorem pushMany_withPushed (o : BitVec 22) (n : Nat) (c : CellState) (k : BitVec 5) :
    pushMany o n (c.withPushed k) = (pushMany o n c).withPushed k := by
  induction n generalizing c with
  | zero => rfl
  | succ n ih =>
    show pushMany o n (pushOne (c.withPushed k) o) = _
    rw [pushOne_withPushed, ih]
    rfl

theorem pushMany_core (o : BitVec 22) (n : Nat) (c : CellState) : (pushMany o n c).core =
    { c.core with a := (pushMany o n c).core.a, sClaim := (pushMany o n c).core.sClaim
                  pClaim := (pushMany o n c).core.pClaim } := by
  induction n generalizing c with
  | zero => rfl
  | succ n ih =>
    show (pushMany o n (pushOne c o)).core = _
    rw [ih, pushOne_core]
    rfl

/-- With room for every repeat, and no repeat whose register is claimed, a PUSH appends them all. -/
theorem pushRun_done (o : BitVec 22) (n : Nat) (c : CellState)
    (hroom : (c.queue (fTop2 o)).q.length + n ≤ queueDepth (fTop2 o))
    (hfree : ∀ k < n, (pushMany o k c).claimed (claimOf (fTop2 o) (pushWord (pushMany o k c) o)) = false) :
    pushRun o n c = .done ((pushMany o n c).withPushed 0) .seq := by
  induction n generalizing c with
  | zero => rfl
  | succ n ih =>
    have hlen := pushOne_queue_length c o
    have hfirst := hfree 0 (Nat.zero_lt_succ n)
    have hq : ¬ queueDepth (fTop2 o) ≤ (c.queue (fTop2 o)).q.length := by omega
    rw [pushRun]
    simp only [pushMany, iter] at hfirst
    simp only [hfirst, Bool.false_eq_true, if_false, if_neg hq]
    show pushRun o n ((pushOne c o).withPushed ((pushOne c o).core.pushed + 1)) = _
    rw [ih, pushMany_withPushed]
    · rfl
    · show ((pushOne c o).queue (fTop2 o)).q.length + n ≤ _
      omega
    · intro k hk
      rw [pushMany_withPushed]
      exact hfree (k + 1) (Nat.succ_lt_succ hk)

/-- A PUSH that begins anew and whose repeats need not wait falls through with all of them appended. -/
theorem exec_push (s : State) (id : CellId) (g : BitVec 4) (o : BitVec 22) (n : Nat) (hok : cellOk id = true)
    (hi : (s.cell id).Issues g) (hf : (s.cell id).Fits) (hl : opPush.legal o = true)
    (hs : (s.cell id).FreeS (opPush.rs o) 0) (hp : (s.cell id).core.pushed = 0)
    (hn : n = (o.extractLsb' 6 4 : BitVec 4).toNat + 1)
    (hroom : ((s.cell id).queue (fTop2 o)).q.length + n ≤ queueDepth (fTop2 o))
    (hfree : ∀ k < n, (pushMany o k (s.cell id)).claimed
      (claimOf (fTop2 o) (pushWord (pushMany o k (s.cell id)) o)) = false) :
    exec (.push id g o) s = .next (s.setCell id ((pushMany o n (s.cell id)).next s.ns)) := by
  have hcore := pushMany_core o n (s.cell id)
  have hpushed : (pushMany o n (s.cell id)).withPushed 0 = pushMany o n (s.cell id) := by
    have h0 : (pushMany o n (s.cell id)).core.pushed = 0 := (congrArg CoreState.pushed hcore).trans hp
    rw [CellState.withPushed, ← h0]
  have hfits : (pushMany o n (s.cell id)).Fits := by
    rw [CellState.Fits, hcore]
    exact hf
  have hbody : opPush.body ⟨id, s.cellLt id, s.ns⟩ o (s.cell id) = .done (pushMany o n (s.cell id)) .seq := by
    rw [← hpushed, ← pushRun_done o n (s.cell id) hroom hfree, hn]
    simp [opPush, hp]
  exact runCore_plain opPush id g o s hok hi hl rfl rfl hs (freeP_none _) rfl _ hbody hfits

/-- Only VRSC, a command of q.vx, claims a register (R111). -/
theorem claimOf_none (q : BitVec 2) (w : QWord) (h : q ≠ 1) : claimOf q w = none := if_neg fun hq => h hq.1

end Sys2Proof.Machine

open Sys2Proof Sys2Proof.Machine

/-- Settles O16: no repeat waits, for lack of a claim in a queue other than q.vx and by hypothesis for a single one. -/
theorem pushResults : Obligations.PushResults := by
  unfold Obligations.PushResults
  intro s id g o hok hi hf h0 h16 hs hp c q n r a cmd word d slot one hroom
  have hl : opPush.legal o = true := by simpa [opPush, h0] using h16
  refine ⟨fun hq => ?_, fun hn hfree => ?_⟩
  · refine exec_push s id g o n hok hi hf hl hs hp rfl hroom fun k _ => ?_
    rw [claimOf_none _ _ hq]
    rfl
  · rw [show one = pushOne c o from one_eq c o]
    refine exec_push s id g o 1 hok hi hf hl hs hp hn.symm (hn ▸ hroom) fun k hk => ?_
    obtain rfl : k = 0 := by omega
    exact hfree

end

section
/-!
PROOFS. Semaphores of a cell (R63 to R65, R114): when a waiter is granted, what a grant leaves, and the core's instructions
on them.
-/

namespace Sys2Proof.Machine

/-! ### Grants (R63, R64) -/

section
variable (c : CellState) (i : BitVec 5) (w n : Nat)

/-- A grant lowers the semaphore it takes from and no other one. -/
theorem take_sem (r : BitVec 5) (hn : n ≤ (c.sem i).toNat) :
    ((c.take i w n).sem r).toNat = if r = i then (c.sem i).toNat - n else (c.sem r).toNat := by
  show (rget (rset c.sems i (c.sem i - BitVec.ofNat 16 n)) r).toNat = _
  have hlt := (c.sem i).isLt
  split
  next h =>
    subst h
    rw [rget_rset_same, BitVec.toNat_sub_of_le, BitVec.toNat_ofNat, Nat.mod_eq_of_lt (by omega)]
    rw [BitVec.le_def, BitVec.toNat_ofNat, Nat.mod_eq_of_lt (by omega)]
    exact hn
  next h => rw [rget_rset_other _ _ _ _ h]; rfl

theorem mayTake_of_short (h : (c.sem i).toNat < n) : c.mayTake i w n = false := by
  simp [CellState.mayTake, h]

theorem mayTake_of_no_rivals (hn : n ≤ (c.sem i).toNat) (h : c.rivals i w = []) : c.mayTake i w n = true := by
  simp [CellState.mayTake, hn, h]

/-- A scarce grant remembers every rival it leaves behind. -/
theorem mem_turns_take (x : Nat × Nat) (hn : 0 < n) (hx : x ∈ c.rivals i w) (hs : c.scarce i w n = true) :
    (i, x.1, w) ∈ (c.take i w n).turns := by
  have hturns : (c.take i w n).turns = (c.turns.filter fun x => !(x.1 == i && x.2.1 == w)) ++
      (c.rivals i w).map fun x => (i, x.1, w) := by
    simp only [CellState.take, hs, if_true, if_neg (Nat.ne_of_gt hn)]
  rw [hturns]
  exact List.mem_append_right _ (List.mem_map_of_mem hx)

/-- While the count is scarce, a waiter whose last grant left a present rival behind is not granted. -/
theorem mayTake_of_left_behind (x : Nat × Nat) (hn : 0 < n) (hx : x ∈ c.rivals i w) (hs : c.scarce i w n = true)
    (ht : (i, x.1, w) ∈ c.turns) : c.mayTake i w n = false := by
  have hany : ((c.rivals i w).any fun x => c.turns.contains (i, x.1, w)) = true :=
    List.any_eq_true.2 ⟨x, hx, List.contains_iff_mem.2 ht⟩
  have h0 : (n == 0) = false := by simpa using Nat.ne_of_gt hn
  rw [CellState.mayTake, hs, hany, h0]
  simp

/-- An addition that stays within 0xFFFF is exact (R65). -/
theorem addSem_fits (h : (c.sem i).toNat + n ≤ 0xFFFF) :
    c.addSem i n = (c.setSem i (BitVec.ofNat 16 ((c.sem i).toNat + n)), false) := by
  rw [CellState.addSem, if_neg (by omega), BitVec.ofNat_add, BitVec.ofNat_toNat, BitVec.setWidth_eq]

end

/-! ### The core's instructions on semaphores (R114) -/

section
variable (s : State) (id : CellId) (g : BitVec 4) (o : BitVec 22)

/-- An instruction whose body waits for a semaphore takes the count where it may, and otherwise records the wait. -/
theorem runCore_waitSem (op : CoreOp) (n : BitVec 16) (hok : cellOk id = true) (hi : (s.cell id).Issues g)
    (hf : (s.cell id).Fits) (hl : op.legal o = true) (hw : op.ws o = 0) (hwp : op.wp o = 0)
    (hs : (s.cell id).FreeS (op.rs o) (op.ws o)) (hp : (s.cell id).FreeP (op.rp o) (op.wp o))
    (ht : op.touch o (s.cell id) = ([], []))
    (hb : op.body ⟨id, s.cellLt id, s.ns⟩ o (s.cell id) = waitSem (s.cell id) (fD o) n) :
    ((s.cell id).mayTake (fD o) 0 n.toNat = true → runCore op id g o s =
      .next (s.setCell id (((s.cell id).take (fD o) 0 n.toNat).next s.ns))) ∧
    ((s.cell id).mayTake (fD o) 0 n.toNat = false → runCore op id g o s =
      .next (s.setCell id (({ s.cell id with core := { (s.cell id).core with need := n } } : CellState).waitsOn
        (op.word g o) 2 ((fD o).setWidth 8) s.ns))) := by
  refine ⟨fun h => ?_, fun h => ?_⟩
  · refine runCore_plain op id g o s hok hi hl hw hwp hs hp ht _ ?_ hf
    rw [hb, waitSem, if_pos h]
  · rw [runCore_hold op id g o s hok hi hl hs hp (by rw [ht, State.touchStore_nil, State.touchDmem_nil])
      { s.cell id with core := { (s.cell id).core with need := n } } 2 ((fD o).setWidth 8)
      (by rw [hb, waitSem, if_neg (ne_true_of_eq_false h)])]
    rfl

theorem exec_sig (hok : cellOk id = true) (hi : (s.cell id).Issues g) (hf : (s.cell id).Fits)
    (h0 : (o.extractLsb' 0 9 : BitVec 9) = 0)
    (h : ((s.cell id).sem (fD o)).toNat + ((o.extractLsb' 9 8 : BitVec 8).toNat + 1) ≤ 0xFFFF) :
    exec (.sig id g o) s = .next (s.setCell id (((s.cell id).setSem (fD o) (BitVec.ofNat 16
      (((s.cell id).sem (fD o)).toNat + ((o.extractLsb' 9 8 : BitVec 8).toNat + 1)))).next s.ns)) := by
  refine runCore_plain opSig id g o s hok hi (beq_iff_eq.2 h0) rfl rfl (freeS_none _) (freeP_none _) rfl _ ?_ hf
  simp only [opSig, addSem_fits _ _ _ h]

end

end Sys2Proof.Machine

open Sys2Proof Sys2Proof.Machine

/-- Settles O17: the waits by `runCore_waitSem`, the turns by what `take` remembers and what `mayTake` asks of it. -/
theorem semaphoreResults : Obligations.SemaphoreResults := by
  unfold Obligations.SemaphoreResults
  intro s id g o hok hi hf c done have' inc takes
  refine ⟨exec_sig s id g o hok hi hf, fun h16 => ?_, fun h0 hs => ?_, fun i w n _ => ⟨?_, ?_, ?_⟩, fun h0 hs => ?_⟩
  · exact runCore_waitSem s id g o opWaits _ hok hi hf (by simp only [opWaits, h16, Bool.not_false]) rfl rfl
      (freeS_none _) (freeP_none _) rfl rfl
  · exact runCore_waitSem s id g o opWaitsr _ hok hi hf (beq_iff_eq.2 h0) rfl rfl hs (freeP_none _) rfl rfl
  -- Grants and turns.
  · exact mayTake_of_short c i w n
  · exact fun hn => ⟨mayTake_of_no_rivals c i w n hn, fun r => take_sem c i w n r hn⟩
  · intro x hx hn hscarce hx' hscarce'
    exact mayTake_of_left_behind _ i w n x hn hx' hscarce' (mem_turns_take c i w n x hn hx hscarce)
  · exact runCore_writeS opSemrd id g o s (fD o) _ hok hi hf (beq_iff_eq.2 h0) rfl rfl hs (freeP_none _) rfl rfl

end

section
/-!
PROOFS. MFS, RDLT, SWB, HALT and ENQ (R70, R71, R115 to R120) on a core that issues them.
-/

namespace Sys2Proof.Machine

/-! ### Special values (R119) -/

/-- The seven special values of a cell, each with its number, as R119 lists them. -/
abbrev specialValues (id : CellId) (c : CellState) : List (Nat × Nat) :=
  [(0, id.toNat), (1, c.task.id.toNat), (2, c.task.member), (3, c.task.size), (4, c.task.phase.toNat),
    (5, c.banks.active.toNat),
    (6, c.qms.q.length * 2 ^ 24 + c.qlk.q.length * 2 ^ 16 + c.qvx.q.length * 2 ^ 8 + c.qmx.q.length)]

theorem specialValues_number_lt (id : CellId) (c : CellState) : ∀ p ∈ specialValues id c, p.1 < 7 := by
  simp [specialValues]

theorem mfsValue_eq (env : CoreEnv) (c : CellState) : ∀ p ∈ specialValues env.id c,
    mfsValue env c (BitVec.ofNat 8 p.1) = BitVec.ofNat 32 p.2 := by
  simp only [specialValues, List.forall_mem_cons]
  refine ⟨?_, ?_, rfl, rfl, ?_, ?_, rfl, fun _ h => absurd h List.not_mem_nil⟩
  · exact (BitVec.ofNat_toNat 32 env.id).symm
  · exact ((BitVec.ofNat_toNat 32 c.task.id).trans (BitVec.setWidth_eq _)).symm
  · exact (BitVec.ofNat_toNat 32 c.task.phase).symm
  · show (if c.banks.active then (1 : Word) else 0) = _
    cases c.banks.active <;> rfl

/-! ### Instructions that leave the PC themselves -/

/-- The core has finished an instruction that set the PC itself: it waits for nothing and has made progress. -/
def CellState.settled (c : CellState) (ns : Nat) : CellState := (c.setWait ⟨0, 0, 0⟩ none).stamp ns

section
variable (s : State) (id : CellId) (g : BitVec 4) (o : BitVec 22)

/-- An instruction without register operands that sets the PC itself. -/
theorem runCore_stay (op : CoreOp) (c' : CellState) (hok : cellOk id = true) (hi : (s.cell id).Issues g)
    (hl : op.legal o = true) (hrs : op.rs o = 0) (hws : op.ws o = 0) (hrp : op.rp o = 0) (hwp : op.wp o = 0)
    (ht : op.touch o (s.cell id) = ([], []))
    (hb : op.body ⟨id, s.cellLt id, s.ns⟩ o (s.cell id) = .done c' .stay) :
    runCore op id g o s = .next (s.setCell id (c'.settled s.ns)) := by
  rw [runCore_body op id g o s hok hi hl (by rw [hrs, hws]; exact freeS_none _)
    (by rw [hrp, hwp]; exact freeP_none _) ht c' .stay hb, hws, hwp, CellState.unmark_zero]
  rfl

theorem exec_mfs (hok : cellOk id = true) (hi : (s.cell id).Issues g) (hf : (s.cell id).Fits)
    (h0 : (o.extractLsb' 8 9 : BitVec 9) = 0) (hs : (s.cell id).FreeS 0 (bit5 (fD o))) :
    ∀ p ∈ specialValues id (s.cell id), (o.extractLsb' 0 8 : BitVec 8).toNat = p.1 →
      exec (.mfs id g o) s = .next (s.setCell id (((s.cell id).writeS (fD o) (BitVec.ofNat 32 p.2)).next s.ns)) := by
  intro p hp hnum
  have hidx : (o.extractLsb' 0 8 : BitVec 8) = BitVec.ofNat 8 p.1 := by
    rw [← hnum, BitVec.ofNat_toNat, BitVec.setWidth_eq]
  have hl : opMfs.legal o = true :=
    Bool.and_eq_true_iff.2 ⟨beq_iff_eq.2 h0, decide_eq_true (hnum ▸ specialValues_number_lt id (s.cell id) p hp)⟩
  refine runCore_writeS opMfs id g o s (fD o) _ hok hi hf hl rfl rfl hs (freeP_none _) rfl ?_
  rw [← mfsValue_eq ⟨id, s.cellLt id, s.ns⟩ (s.cell id) p hp, ← hidx]
  rfl

/-- RDLT clears the marks of both registers it writes (R120). -/
theorem exec_rdlt (hok : cellOk id = true) (hi : (s.cell id).Issues g) (hf : (s.cell id).Fits)
    (h0 : (o.extractLsb' 0 17 : BitVec 17) = 0) (h17 : o.getLsbD 17 = false)
    (hs : (s.cell id).FreeS 0 (bit5 (fD o) ||| bit5 (fD o + 1))) :
    exec (.rdlt id g o) s = .next (s.setCell id ((((s.cell id).writeS (fD o) ((s.cellLt id).setWidth 32)).writeS (fD o + 1)
      ((s.cellLt id).extractLsb' 32 32)).next s.ns)) := by
  have hmarks (m a b : BitVec 32) : m &&& ~~~(a ||| b) = m &&& ~~~a &&& ~~~b := by
    rw [BitVec.not_or, BitVec.and_assoc]
  have hl : opRdlt.legal o = true := by
    simp only [opRdlt, h0, h17, beq_self_eq_true, Bool.not_false, Bool.and_self]
  refine (runCore_seq opRdlt id g o s hok hi hl hs (freeP_none _) rfl _ rfl hf).trans ?_
  simp only [CellState.unmark, opRdlt, hmarks, CellState.setS, CellState.writeS]
  rw [and_not_zero8]

/-- SWB to a valid bank that no load is writing (R70, R118). -/
theorem exec_swb (hok : cellOk id = true) (hi : (s.cell id).Issues g) (ho : o = 0)
    (hv : (s.cell id).banks.validInactive = true) (hw : (s.cell id).banks.loadingInactive = false) :
    exec (.swb id g o) s = .next (s.setCell id ((({ s.cell id with
      banks := { (s.cell id).banks with active := !(s.cell id).banks.active }.release s.ns
      core := { (s.cell id).core with loops := [], pc := 0 } } : CellState)).settled s.ns)) := by
  refine runCore_stay s id g o opSwb _ hok hi (beq_iff_eq.2 ho) rfl rfl rfl rfl rfl ?_
  simp only [opSwb, hw, hv, if_true, Bool.false_eq_true, if_false]
  rfl

theorem exec_halt (hok : cellOk id = true) (hi : (s.cell id).Issues g) (ho : o = 0) :
    exec (.halt id g o) s = .next (s.setCell id (({ s.cell id with
      st := .halted, banks := (s.cell id).banks.release s.ns } : CellState).settled s.ns)) :=
  runCore_stay s id g o opHalt _ hok hi (beq_iff_eq.2 ho) rfl rfl rfl rfl rfl rfl

/-- ENQ of an entry in sound words of the data memory hands its 64 bytes over and waits for the answer (R115). -/
theorem exec_enq (hok : cellOk id = true) (hi : (s.cell id).Issues g) (h0 : (o.extractLsb' 0 10 : BitVec 10) = 0)
    (hs : (s.cell id).FreeS 0 (bit5 (fA18 o))) (hp : (s.cell id).FreeP 0 (bit3 (fPD o)))
    (ha : (s.cell id).InDmem ((s.cell id).aReg (o.extractLsb' 10 4)).addr 64) :
    exec (.enq id g o) s = .next (s.setCell id (({ s.cell id with
      core := { (s.cell id).core with
        enq := some ⟨s.ns, (s.cell id).dmem.mem.read 0 ((s.cell id).aReg (o.extractLsb' 10 4)).addr.toNat 64, fPD o, fA18 o,
          none⟩ } } : CellState).waitsOn (opEnq.word g o) 4 0 s.ns)) := by
  obtain ⟨halign, hlow, hsound⟩ := ha
  have henq : (s.cell id).core.enq = none := by
    obtain ⟨_, henq, _⟩ := hi
    exact henq
  have htarget : addrTarget ((s.cell id).aReg (o.extractLsb' 10 4)).addr =
      .dmem ((s.cell id).aReg (o.extractLsb' 10 4)).addr.toNat := by
    rw [addrTarget, if_pos hlow]
  have hue : (wordsOf ((s.cell id).aReg (o.extractLsb' 10 4)).addr.toNat 64).any
      (fun w => (s.cell id).dmem.ue.contains w) = false := by
    rw [List.any_eq_false]
    intro w hw
    simp [(hsound w hw).1]
  have htouch : (s.touchStore id (opEnq.touch o (s.cell id)).1).touchDmem id (opEnq.touch o (s.cell id)).2 = s := by
    simp only [opEnq, henq, htarget, halign, if_true, State.touchStore_nil]
    exact State.touchDmem_clean s id _ fun w hw => (hsound w hw).2
  refine (runCore_hold opEnq id g o s hok hi (beq_iff_eq.2 h0) hs hp htouch _ 4 0 ?_).trans rfl
  simp only [opEnq, henq, htarget, halign, hue, ne_eq, not_true, if_false, Bool.false_eq_true]

end

end Sys2Proof.Machine

open Sys2Proof Sys2Proof.Machine

/-- Settles O18: each of the five instructions by the lemma of its own. -/
theorem specialInstructionResults : Obligations.SpecialInstructionResults := by
  unfold Obligations.SpecialInstructionResults
  intro s id g o hok hi c done idle lt ae
  exact ⟨fun h0 hs hf => exec_mfs s id g o hok hi hf h0 hs, fun h0 h17 hs hf => exec_rdlt s id g o hok hi hf h0 h17 hs,
    fun ho hv hw => exec_swb s id g o hok hi ho hv hw, fun ho => exec_halt s id g o hok hi ho,
    fun h0 hs hp ha => exec_enq s id g o hok hi h0 hs hp ha⟩

end

section
/-!
PROOFS. Exceptions of a cell core (R122): which check raises each, and what the exception leaves of the machine.
-/

namespace Sys2Proof.Machine

/-- No collective operation is held, so that none can lose a part with a cell, and events go to the side-band only. -/
structure State.Alone (s : State) : Prop where
  ops : s.col.ops = []
  waiting : s.col.waiting = []
  coming : s.col.coming = []
  aux : s.pwr.aux = true
  ring : s.hif.evBase = 0

/-- The record of event 0x0104 (R80). -/
def excEvent (s : State) (id : CellId) (code : Nat) : Event :=
  ⟨0x0104, .error, if s.ltRuns then s.ns else 0,
    leBytes 2 id.toNat ++ leBytes 1 code ++ leBytes 1 (s.cell id).banks.active.toNat ++ leBytes 2 (s.cell id).core.pc.toNat⟩

/-- What an exception of the core makes of its cell (R75, R122). -/
def CellState.excepted (c : CellState) (code : Nat) : CellState :=
  { c.abandon with st := .faulted, fault := 1, report := true, exc := BitVec.ofNat 8 code }

/-- Where an exception of the core leads: the cell is faulted, one error is logged, and nothing else changes. -/
structure Excepted (s t : State) (id : CellId) (code : Nat) : Prop where
  cell : t.cell id = (s.cell id).excepted code
  others : ∀ j, j ≠ id → t.cell j = s.cell j
  frame : t = { s with cells := t.cells, events := t.events, dbg := t.dbg }
  counts : t.dbg = { s.dbg with evtErr := satInc s.dbg.evtErr }
  events : t.events = excEvent s id code :: s.events

section
variable {s : State} {id : CellId} {g : BitVec 4} {o : BitVec 22}

/-! ### Which check raises the exception (R122) -/

/-- A word whose opcode is reserved, or whose operand bits are wrong, is ILLEGAL whatever its guard says (R88, R89). -/
theorem runCore_illegal (op : CoreOp) (hok : cellOk id = true) (hr : (s.cell id).st = .running)
    (he : (s.cell id).core.enq = none) (hh : (s.cell id).core.held = none) (hue : (s.cell id).fetchUe = false)
    (h : (s.cell id).fetchIllegal = true ∨ op.legal o = false) :
    runCore op id g o s = .next (s.coreException id 0x01) := by
  have hbad : ((s.cell id).fetchIllegal || !op.legal o) = true := by
    rcases h with h | h <;> simp [h]
  unfold runCore withCell coreStep
  simp only [hok, hr, he, hh, hue, hbad, if_true, ne_eq, not_true, or_self, if_false, Bool.false_eq_true]

/-- An operand in a poisoned s register is a poisoned operand (R113, R192). -/
theorem runCore_poisoned (op : CoreOp) (hok : cellOk id = true) (hi : (s.cell id).Issues g) (hl : op.legal o = true)
    (hs : (s.cell id).core.sClaim &&& (op.rs o ||| op.ws o) = 0) (hrp : op.rp o = 0) (hwp : op.wp o = 0)
    (hm : (s.cell id).core.sMark &&& op.rs o ≠ 0) : runCore op id g o s = .next (s.coreException id 0x09) := by
  obtain ⟨hr, he, hh, hue, hill, hclaim, hmark, hguard⟩ := hi
  have hm' : ((s.cell id).core.sMark &&& op.rs o != 0) = true := bne_iff_ne.2 hm
  have hp : (s.cell id).core.pClaim &&& (op.rp o ||| op.wp o) = 0 := by rw [hrp, hwp]; exact (freeP_none _).1
  unfold runCore withCell coreStep
  simp only [hok, hr, he, hh, hue, hill, hl, hclaim, hmark, hguard, hs, hp, hm', if_true, ne_eq, not_true, or_self,
    if_false, Bool.false_eq_true, Bool.not_true, Bool.or_self, Bool.true_or, bne_self_eq_false]

/-- Where a load cannot go, it reads nothing and raises the exception of its target (R85, R98). -/
theorem runCore_badLoad (op : BitVec 6) (n : Nat) (ext : Nat → Word) (code : BitVec 8) (hok : cellOk id = true)
    (hi : (s.cell id).Issues g) (hm : fMode o ≠ 3) (hs : (s.cell id).FreeS 0 (bit5 (fD o)))
    (h : accessTarget (memAddr (s.cell id) o n).1 n = .bad code) :
    runCore (loadOp op n ext) id g o s = .next (s.coreException id code) :=
  runCore_exc _ id g o s hok hi (memLegal_of_mode o hm) hs (freeP_none _)
    (by simp only [loadOp, loadTouch, h]) code (by simp only [loadOp, coreLoad, h])

end

/-! ### Targets of an access (R85) -/

theorem accessTarget_outside (a : BitVec 40) (n : Nat)
    (h : (0x10000 ≤ a.toNat ∧ a.toNat < 0x1000000) ∨ 0x1400000 ≤ a.toNat) : accessTarget a n = .bad 3 := by
  have htarget : addrTarget a = .bad 3 := by
    simp only [addrTarget]
    rw [if_neg (by omega), if_neg (by omega), if_neg (by omega)]
  rw [accessTarget, htarget]

theorem accessTarget_invalid (a : BitVec 40) (n : Nat) (h : 0x1300000 ≤ a.toNat) (h' : a.toNat < 0x1400000) :
    accessTarget a n = .bad 4 := by
  have htarget : addrTarget a = .bad 4 := by
    simp only [addrTarget]
    rw [if_neg (by omega), if_neg (by omega), if_pos ⟨h, h'⟩]
  rw [accessTarget, htarget]

theorem accessTarget_misaligned (a : BitVec 40) (n : Nat)
    (h : a.toNat < 0x10000 ∨ (0x1000000 ≤ a.toNat ∧ a.toNat < 0x1300000)) (hn : a.toNat % n ≠ 0) :
    accessTarget a n = .bad 5 := by
  rcases h with h | h
  · have htarget : addrTarget a = .dmem a.toNat := if_pos h
    rw [accessTarget, htarget]
    exact if_neg hn
  · have htarget : addrTarget a = .store (a.toNat - 0x1000000) := by
      simp only [addrTarget]
      rw [if_neg (by omega), if_pos h]
    rw [accessTarget, htarget]
    exact if_neg hn

/-! ### What the exception leaves (R75, R80, R191) -/

section
variable {s : State} {id : CellId}

theorem coreException_excepted (code : Nat) (ha : s.Alone) (hr : (s.cell id).st = .running)
    (he : (s.cell id).core.enq = none) (hcode : code < 0x0B)
    (hp : code ≠ 0x09 ∨ (s.cell id).regs.poisonSeen = true) :
    Excepted s (s.coreException id (BitVec.ofNat 8 code)) id code := by
  have hne (k : Nat) (hk : k < 256) (hkc : code ≠ k) : BitVec.ofNat 8 code ≠ BitVec.ofNat 8 k := fun e => by
    have := congrArg BitVec.toNat e
    rw [BitVec.toNat_ofNat, BitVec.toNat_ofNat] at this
    omega
  rw [exc_idle s id _ ha.ops ha.waiting ha.coming ha.aux ha.ring hr he (hne 0x0B (by decide) (by omega))
    (hp.imp_left (hne 0x09 (by decide)))]
  refine ⟨State.cell_setCell _ _ _, fun j hj => ?_, rfl, rfl, ?_⟩
  · rw [State.cell_setCell_other _ _ _ _ hj, State.cell_setCell_other _ _ _ _ hj]
    rfl
  · show (_ :: _ : List Event) = _
    rw [excEvent, BitVec.toNat_ofNat, Nat.mod_eq_of_lt (by omega)]
    cases (s.cell id).banks.active <;> simp

/-- The first poisoned operand of a task is reported before the exception it raises (R191, R192). -/
theorem corePoison_first (ha : s.Alone) (h : (s.cell id).regs.poisonSeen = false) : s.corePoison id =
    { s.setCell id { s.cell id with regs := { (s.cell id).regs with poisonSeen := true } } with
      free := s.free + 1
      dbg := { s.dbg with evtWarn := satInc s.dbg.evtWarn }
      events := ⟨0x0302, .warning, if s.ltRuns then s.ns else 0,
        leBytes 2 id.toNat ++ leBytes 1 2 ++ leBytes 4 (BitVec.ofNat 32 s.freshNat.1).toNat ++
          leBytes 4 (s.cell id).task.id.toNat⟩ :: s.events } := by
  have hcell : s.freshNat.2.cell id = s.cell id := rfl
  simp only [State.corePoison, State.poisonConsumed, hcell, h, Bool.false_eq_true, if_false]
  generalize hc : ({ s.cell id with regs := { (s.cell id).regs with poisonSeen := true } } : CellState) = c'
  have haux : (s.freshNat.2.setCell id c').pwr.aux = true := ha.aux
  have hring (e : Event) : ((s.freshNat.2.setCell id c').logEvent e).hif.evBase = 0 := ha.ring
  simp only [State.raise, haux, if_true, State.offerEvent, hring, true_or]
  rfl

/-- The exception of a poisoned operand is the same once the operand has been reported. -/
theorem coreException_after_poison (h : (s.corePoison id).cell id =
    { s.cell id with regs := { (s.cell id).regs with poisonSeen := true } }) :
    s.coreException id 0x09 = (s.corePoison id).coreException id 0x09 := by
  have hagain : (s.corePoison id).corePoison id = s.corePoison id := if_pos (by rw [h])
  simp only [State.coreException, if_true, hagain, h]

/-- What the first poisoned operand of a task leaves: the report of the poison as well, which takes a free value for its
command number. -/
theorem coreException_first_poison (ha : s.Alone) (hr : (s.cell id).st = .running)
    (he : (s.cell id).core.enq = none) (hp : (s.cell id).regs.poisonSeen = false) :
    let t := s.coreException id 0x09
    t.cell id = { (s.cell id).excepted 9 with regs := { (s.cell id).regs with poisonSeen := true } } ∧
      (∀ j, j ≠ id → t.cell j = s.cell j) ∧
      t = { s with cells := t.cells, events := t.events, dbg := t.dbg, free := s.free + 1 } ∧
      t.dbg = { s.dbg with evtErr := satInc s.dbg.evtErr, evtWarn := satInc s.dbg.evtWarn } ∧
      t.events = excEvent s id 9 :: ⟨0x0302, .warning, if s.ltRuns then s.ns else 0,
        leBytes 2 id.toNat ++ leBytes 1 2 ++ leBytes 4 (BitVec.ofNat 32 s.freshNat.1).toNat ++
          leBytes 4 (s.cell id).task.id.toNat⟩ :: s.events := by
  have hs' := corePoison_first (id := id) ha hp
  have hcell : (s.corePoison id).cell id = { s.cell id with regs := { (s.cell id).regs with poisonSeen := true } } := by
    rw [hs']
    exact State.cell_setCell s id _
  have hothers (j : CellId) (hj : j ≠ id) : (s.corePoison id).cell j = s.cell j := by
    rw [hs']
    exact State.cell_setCell_other s id j _ hj
  have ha' : (s.corePoison id).Alone := by
    rw [hs']
    exact ⟨ha.ops, ha.waiting, ha.coming, ha.aux, ha.ring⟩
  have hevent : excEvent (s.corePoison id) id 9 = excEvent s id 9 := by
    rw [excEvent, hcell, hs']
    rfl
  have hexc : Excepted (s.corePoison id) ((s.corePoison id).coreException id 0x09) id 9 :=
    coreException_excepted 9 ha' (by rw [hcell]; exact hr) (by rw [hcell]; exact he) (by decide) (.inr (by rw [hcell]))
  rw [coreException_after_poison hcell]
  generalize (s.corePoison id).coreException id 0x09 = t at hexc
  obtain ⟨htc, hto, htf, htd, hte⟩ := hexc
  rw [hcell] at htc
  rw [hs'] at htf htd
  rw [hevent, hs'] at hte
  exact ⟨htc, fun j hj => (hto j hj).trans (hothers j hj), htf, htd, hte⟩

end

end Sys2Proof.Machine

open Sys2Proof Sys2Proof.Machine

/-- Settles O20: each exception by the check that raises it; what it leaves by `coreException_excepted`. -/
theorem coreExceptionsFaultTheCell : Obligations.CoreExceptionsFaultTheCell := by
  unfold Obligations.CoreExceptionsFaultTheCell
  intro s id g o hok hr he hh hops hwaiting hcoming haux hring c faults a
  have ha : s.Alone := ⟨hops, hwaiting, hcoming, haux, hring⟩
  have leads (i : Instr) (code : Nat) (hcode : code < 0x0B) (hp : code ≠ 0x09 ∨ c.regs.poisonSeen = true)
      (h : exec i s = .next (s.coreException id (BitVec.ofNat 8 code))) : faults i code := by
    obtain ⟨hcell, hothers, hframe, hcounts, hevents⟩ := coreException_excepted code ha hr he hcode hp
    exact ⟨_, h, hcell, hothers, hframe, hcounts, hevents⟩
  have raises (i : Instr) (code : Nat) (hcode : code < 0x0B ∧ code ≠ 0x09) := leads i code hcode.1 (.inl hcode.2)
  refine ⟨fun hue p hp h => raises p.1 1 (by decide) ?_, fun hi => ⟨fun hf => raises _ 1 (by decide) ?_,
    fun hclaim hmark => ⟨fun hseen => leads _ 9 (by decide) (.inr hseen) ?_, fun hseen => ?_⟩,
    fun h0 hlen hlc hdepth => raises _ 6 (by decide) ?_, fun h0 hlvl => raises _ 8 (by decide) ?_,
    fun h0 hs hdest => raises _ 2 (by decide) ?_,
    fun hm hs => ⟨fun h => raises _ 3 (by decide) ?_, fun h h' => raises _ 4 (by decide) ?_,
      fun h hn => raises _ 5 (by decide) ?_⟩⟩⟩
  -- Encodings (R88, R89).
  · rw [coreRows_run id g o s p hp]
    exact runCore_illegal p.2 hok hr he hh hue h
  · obtain ⟨_, _, _, hue, _⟩ := hi
    refine runCore_illegal opAlu hok hr he hh hue (.inr ?_)
    have : ¬ (o.extractLsb' 0 7 : BitVec 7).toNat ≤ 0x15 := by omega
    simp only [opAlu, this, decide_false, Bool.false_and]
  -- Poisoned operands (R113).
  · exact runCore_poisoned opAddi hok hi rfl hclaim rfl rfl hmark
  · obtain ⟨hcell, hothers, hframe, hcounts, hevents⟩ := coreException_first_poison ha hr he hseen
    exact ⟨_, _, runCore_poisoned opAddi hok hi rfl hclaim rfl rfl hmark, hcell, hothers, hframe, hcounts, hevents⟩
  -- Loops and jumps (R102, R106, R108).
  · exact runCore_exc opLoop id g o s hok hi (Bool.and_eq_true_iff.2 ⟨beq_iff_eq.2 h0, bne_iff_ne.2 hlen⟩) (freeS_none _)
      (freeP_none _) rfl _ ((if_neg hlc).trans (if_pos hdepth))
  · exact runCore_exc opLbrk id g o s hok hi (beq_iff_eq.2 h0) (freeS_none _) (freeP_none _) rfl _ (if_neg (Nat.not_lt.2 hlvl))
  · exact runCore_exc opJr id g o s hok hi (beq_iff_eq.2 h0) hs (freeP_none _) rfl _ (if_pos hdest)
  -- Loads (R85, R98).
  · exact runCore_badLoad 0x15 4 _ 3 hok hi hm hs (accessTarget_outside _ 4 h)
  · exact runCore_badLoad 0x15 4 _ 4 hok hi hm hs (accessTarget_invalid _ 4 h h')
  · exact runCore_badLoad 0x15 4 _ 5 hok hi hm hs (accessTarget_misaligned _ 4 h hn)

end

section
/-!
PROOFS. The completion of the oldest command of an engine queue (R62, R243), engine by engine.
-/

namespace Sys2Proof.Machine

/-- What every completion ends with (R243): the command leaves its queue, and its flags, its delivery and its signal
follow. -/
abbrev State.finishRun (s : State) (id : CellId) (q : BitVec 2) (r : RunCmd) : State :=
  (s.dropRun id q).completeCmd id q.toNat r.cmd.word r.flags r.deliver

section
variable {s : State} {id : CellId} {r : RunCmd} {rest : List RunCmd}

theorem exec_commandComplete (q : BitVec 2) (hok : cellOk id = true) (hw : (s.cell id).works = true) :
    exec (.commandComplete id q) s = .next (s.completeOldest id q) :=
  withLive_works id s (fun s => s.completeOldest id q) hok hw

/-- A SYNC completes when it is the oldest (R218). -/
theorem completeOldest_sync (q : BitVec 2) (hr : ((s.cell id).queue q).run = r :: rest) (ho : cOpc r.cmd.word = 0) :
    s.completeOldest id q = s.finishRun id q r := by
  simp only [State.completeOldest, hr, ho, if_true]

theorem completeOldest_vector (hr : ((s.cell id).queue 1).run = r :: rest) (ho : cOpc r.cmd.word ≠ 0)
    (hf : r.fuse = false) : s.completeOldest id 1 = s.finishRun id 1 r := by
  simp only [State.completeOldest, hr, if_neg ho, hf, Bool.false_eq_true, if_false]
  rfl

/-- A fused command completes by handing its part off, where there is a place for it (R242). -/
theorem completeOldest_fused (hr : ((s.cell id).queue 1).run = r :: rest) (ho : cOpc r.cmd.word ≠ 0)
    (hf : r.fuse = true) (hplace : (s.cell id).handed.length < 4) : s.completeOldest id 1 =
      (s.setCell id ((s.cell id).handOff r.cmd r.cmd.d2)).finishRun id 1 r := by
  simp only [State.completeOldest, hr, if_neg ho, hf, if_true, if_neg (Nat.not_le.2 hplace)]
  rfl

/-- A RUNWB completes once its waybill has ended and its writes are visible (R252). -/
theorem completeOldest_waybill (hr : ((s.cell id).queue 2).run = r :: rest) (ho : cOpc r.cmd.word ≠ 0)
    (hs : s.mem.snoop = []) (hp : s.mem.paused = []) (he : r.ended = true) :
    s.completeOldest id 2 = (s.landAll r.pieces).finishRun id 2 r := by
  simp only [State.completeOldest, hr, if_neg ho, he, not_true, if_false, needSnoops_nil s true _ hs hp]
  rfl

/-- A link-port command completes with its pieces and then its atomic updates landed (R62). -/
theorem completeOldest_link (hr : ((s.cell id).queue 3).run = r :: rest) (ho : cOpc r.cmd.word ≠ 0)
    (hs : s.mem.snoop = []) (hp : s.mem.paused = []) (hc : r.col = false) :
    s.completeOldest id 3 = (r.atoms.foldl State.landAtom (s.landAll r.pieces)).finishRun id 3 r := by
  simp only [State.completeOldest, hr, if_neg ho, hc, Bool.false_eq_true, if_false, needSnoops_nil s true _ hs hp]
  rfl

/-- An LCOLL completes with the collective operation it contributes to (R242). -/
theorem completeOldest_collective (o : ColOp) (k : Contribution) (hr : ((s.cell id).queue 3).run = r :: rest)
    (ho : cOpc r.cmd.word ≠ 0) (hc : r.col = true)
    (hfin : s.finishedFor (fun k => k.origin = .lcoll id ∧ k.seq = r.cmd.seq) = some (o, k)) :
    s.completeOldest id 3 = (s.finishPart o k).finishRun id 3 r := by
  simp only [State.completeOldest, hr, if_neg ho, hc, if_true, hfin]
  rfl

/-- A signal of one that the semaphore can hold (R63, R65). -/
theorem signal_one (sem : BitVec 5) (queue : Nat) (h : ((s.cell id).sem sem).toNat < 0xFFFF) :
    s.signal id sem 1 queue = s.setCell id ((s.cell id).setSem sem ((s.cell id).sem sem + 1)) := by
  have hadd : (s.cell id).addSem sem 1 = ((s.cell id).setSem sem ((s.cell id).sem sem + 1), false) :=
    if_neg (by omega)
  rw [State.signal, hadd]

/-- The cell once a command without a delivery has completed, its signal apart (R246). -/
def CellState.counted (c : CellState) (flags : BitVec 7) (ns : Nat) : CellState :=
  { c with regs := { c.regs with cmdFlags := c.regs.cmdFlags ||| flags.setWidth 32 }
           ctr := { c.ctr with moved := ns, cmds := c.ctr.cmds + 1 } }

theorem completeCmd_silent (queue : Nat) (w : QWord) (flags : BitVec 7) (h : cSen w = false) :
    s.completeCmd id queue w flags none = s.setCell id ((s.cell id).counted flags s.ns) := by
  simp only [State.completeCmd, h, Bool.false_eq_true, if_false]
  rfl

theorem completeCmd_signals (queue : Nat) (w : QWord) (flags : BitVec 7) (h : cSen w = true)
    (hsem : ((s.cell id).sem (cSsem w)).toNat < 0xFFFF) :
    let u := s.setCell id ((s.cell id).counted flags s.ns)
    s.completeCmd id queue w flags none =
      u.setCell id ((u.cell id).setSem (cSsem w) ((s.cell id).sem (cSsem w) + 1)) := by
  intro u
  have hcell : u.cell id = (s.cell id).counted flags s.ns := State.cell_setCell s id _
  have hcount : (u.cell id).sem (cSsem w) = (s.cell id).sem (cSsem w) := by rw [hcell]; rfl
  have hsignal : s.completeCmd id queue w flags none = u.signal id (cSsem w) 1 queue := by
    simp only [State.completeCmd, h, if_true]
    rfl
  rw [hsignal, signal_one _ _ (by rw [hcount]; exact hsem), hcount]

end

end Sys2Proof.Machine

open Sys2Proof Sys2Proof.Machine

/-- Settles O23: each engine by its lemma about `completeOldest`, the flags and the signal by the two of `completeCmd`. -/
theorem commandsComplete : Obligations.CommandsComplete := by
  unfold Obligations.CommandsComplete
  intro s id q r rest hok c w fin hw hr
  have completes (p : BitVec 2) {t : State} (h : s.completeOldest id p = t) :
      exec (.commandComplete id p) s = .next t := by
    rw [exec_commandComplete p hok hw, h]
  refine ⟨fun ho => completes q (completeOldest_sync q hr ho), ?_, ?_, ?_, ?_, ?_, ?_⟩
  · rintro rfl ho hf
    exact completes 1 (completeOldest_vector hr ho hf)
  · rintro rfl ho hf hplace
    exact completes 1 (completeOldest_fused hr ho hf hplace)
  · rintro rfl ho hs hp he
    exact completes 2 (completeOldest_waybill hr ho hs hp he)
  · rintro rfl ho hs hp hc
    exact completes 3 (completeOldest_link hr ho hs hp hc)
  · rintro rfl ho hc o k hfin
    exact completes 3 (completeOldest_collective o k hr ho hc hfin)
  · intro u hd
    rw [hd]
    exact ⟨fun h => completeCmd_silent _ w _ h, fun h hsem => completeCmd_signals _ w _ h hsem⟩

end

section
/-!
PROOFS. A VBIN on one INT32 element (R178, R225): its views, what its one lane computes, and the bytes it writes
(R175, R219, R224).
-/

namespace Sys2Proof.Machine

/-- The view of a descriptor of one INT32 element. -/
def intView (d e : QWord) : TView :=
  ⟨(dOffset d).toNat, (dLdim d).toNat, .int32, 1, 1, (dOffset e).toNat, (dLdim e).toNat⟩

@[simp] theorem intView_rows (d e : QWord) : (intView d e).rows = 1 := rfl
@[simp] theorem intView_cols (d e : QWord) : (intView d e).cols = 1 := rfl
@[simp] theorem intView_fmt (d e : QWord) : (intView d e).fmt = .int32 := rfl
@[simp] theorem intView_off (d e : QWord) : (intView d e).off = (dOffset d).toNat := rfl
@[simp] theorem int32_scaled : EFmt.int32.scaled = false := rfl

/-- The number an INT32 element at a byte offset of a store spells. -/
def StoreState.intAt (m : StoreState) (a : Nat) : Word := BitVec.ofNat 32 (m.mem.readNat 0 a 4)

section
variable (h : QCmd) (h0 : IntElem h.d0) (h1 : IntElem h.d1) (h2 : IntElem h.d2) (hopc : cOpc h.word = 1)
include h0 h1 h2 hopc

theorem vectorViews_int (hb : vBimm h.word = false) (hf : cFuse h.word = false) :
    vectorViews h = .inl ⟨intView h.d0 h.e0, some (intView h.d1 h.e1), some (intView h.d2 h.e2)⟩ := by
  unfold vectorViews
  simp only [view_int _ _ _ h0, view_int _ _ _ h1, view_int _ _ _ h2, hopc, hb, hf]
  simp [intView]

end

/-- The one lane of the store an INT32 element lies in. -/
theorem intView_lanes (d e : QWord) (h : (dOffset d).toNat % 4 = 0) : (intView d e).lanes = [(dOffset d).toNat / 8] := by
  have hone : ((dOffset d).toNat + 4 - 1) / 8 + 1 - (dOffset d).toNat / 8 = 1 := by omega
  have hlanes : lanesOf (dOffset d).toNat 4 = [(dOffset d).toNat / 8] := by
    rw [lanesOf, hone]
    simp
  have hrow : (intView d e).lanes = lanesOf ((dOffset d).toNat + 0 * (dLdim d).toNat) 4 := by
    simp [TView.lanes, intView, EFmt.rowBytes, EFmt.width, EFmt.scaled]
  rw [hrow, Nat.zero_mul, Nat.add_zero, hlanes]

/-- Aligned elements overlap only as the same element, which R230 allows. -/
theorem intView_overlaps (d e d' e' : QWord) (h : (dOffset d).toNat % 4 = 0) (h' : (dOffset d').toNat % 4 = 0) :
    (intView d e).overlaps (intView d' e') = false := by
  simp only [TView.overlaps, TView.runs, intView, EFmt.rowBytes, EFmt.width, EFmt.scaled]
  simp
  omega

theorem readElem_intView (x : VCtx) (d e : QWord) (m : StoreState) (lane : Nat) (h : (dOffset d).toNat % 4 = 0)
    (hp : (dOffset d).toNat / 8 ∉ m.poison) : readElem x true (intView d e) m 0 0 lane =
      (⟨.ofInt (m.intAt (dOffset d).toNat).toInt, (m.intAt (dOffset d).toNat).toInt, false, none⟩, x) :=
  readElem_int x (intView d e) m lane rfl h hp

section
variable (q : QCmd) (m : StoreState) (x : VCtx) (hopc : cOpc q.word = 1) (hct : vCt q.word = true)
  (h0 : (dOffset q.d0).toNat % 4 = 0) (h1 : (dOffset q.d1).toNat % 4 = 0)
  (hp0 : (dOffset q.d0).toNat / 8 ∉ m.poison) (hp1 : (dOffset q.d1).toNat / 8 ∉ m.poison)

/-- The three views of a command on INT32 elements. -/
abbrev QCmd.intViews (q : QCmd) : VViews :=
  ⟨intView q.d0 q.e0, some (intView q.d1 q.e1), some (intView q.d2 q.e2)⟩

/-- The result of a VBIN on INT32 elements of a store (R225). -/
abbrev QCmd.intResult (q : QCmd) (m : StoreState) : Int :=
  binInt (vFn q.word).toNat (m.intAt (dOffset q.d0).toNat).toInt (m.intAt (dOffset q.d1).toNat).toInt

include hopc hct h0 h1 hp0 hp1

theorem elementwise_int : elementwise q q.intViews m m m x 0 0 =
    (⟨.ofInt (q.intResult m), q.intResult m, false, none⟩, x) := by
  simp only [elementwise, hopc, hct, intView_rows, intView_cols, readElem_intView _ _ _ _ _ h0 hp0, if_true,
    readElem_intView _ _ _ _ _ h1 hp1]
  rfl

/-- The one part of the one row: the result, in range for INT32 whatever the operands are. -/
theorem elementPart_int (now : StoreState) : elementPart q q.intViews (intView q.d2 q.e2) none m now x 0 0 1 =
    ([⟨(BitVec.ofInt 32 (q.intResult m)).toNat, false, none⟩], [], x) := by
  obtain ⟨z, hz⟩ := binInt_range (vFn q.word).toNat (m.intAt (dOffset q.d0).toNat) (m.intAt (dOffset q.d1).toNat)
  have helem := elementwise_int q m x hopc hct h0 h1 hp0 hp1
  simp only [QCmd.intResult, hz] at helem ⊢
  rw [BitVec.ofInt_toInt]
  simp only [elementPart, List.range_one, List.foldl_cons, List.foldl_nil, pickStore, helem]
  simp [writeRow, EFmt.scaled, intView, write_int]

theorem elementRows_int : elementRows q q.intViews (intView q.d2 q.e2) none m x =
    [([⟨(BitVec.ofInt 32 (q.intResult m)).toNat, false, none⟩], [])] := by
  have hpart := elementPart_int q m x hopc hct h0 h1 hp0 hp1
  simp [elementRows, hpart]

/-- The command computes one element, meets no NaN and no poison, and delivers nothing. -/
theorem vectorCompute_int : vectorCompute q q.intViews none m x =
    ⟨[([⟨(BitVec.ofInt 32 (q.intResult m)).toNat, false, none⟩], [])], none, 0, 0, none, none⟩ := by
  simp only [vectorCompute, hopc, hct, elementRows_int q m x hopc hct h0 h1 hp0 hp1]
  rfl

end

/-- The bytes of the result land at the destination. -/
theorem putRows_int (d e : QWord) (m : StoreState) (y : Word) :
    (putRows (intView d e) [([⟨y.toNat, false, none⟩], [])] 1 m).mem =
      m.mem.writeNat 0 (dOffset d).toNat 4 y.toNat := by
  simp [putRows, TView.putRow, EFmt.width, rowBytesOf, StoreState.writeP, Function.comp_def, Mem.writeNat]

/-- A VBIN on sound INT32 elements of the cell store: its start writes the result, counts one beat and queues the command. -/
theorem startVector_int (s : State) (id : CellId) (q : QCmd) (h0 : IntElem q.d0) (h1 : IntElem q.d1) (h2 : IntElem q.d2)
    (hopc : cOpc q.word = 1) (hct : vCt q.word = true) (hb : vBimm q.word = false) (hf : cFuse q.word = false)
    (hl : ∀ l ∈ [(dOffset q.d0).toNat / 8, (dOffset q.d1).toNat / 8],
      l ∉ (s.cell id).store.ue ∧ l ∉ (s.cell id).store.ce ∧ l ∉ (s.cell id).store.poison) :
    startVector id q s = (s.setCell id { s.cell id with
        store := putRows (intView q.d2 q.e2)
          [([⟨(BitVec.ofInt 32 (q.intResult (s.cell id).store)).toNat, false, none⟩], [])] 1 (s.cell id).store
        ctr := { (s.cell id).ctr with utilVx := (s.cell id).ctr.utilVx + 1 } }).modCell id fun c =>
      { c with qvx := { c.qvx with run := c.qvx.run ++ [⟨q, s.ns, 0, [], [], none, false, none, false, false⟩] } } := by
  have aligned (d : QWord) (h : IntElem d) : (dOffset d).toNat % 4 = 0 := by
    obtain ⟨_, _, _, _, ha, _⟩ := h
    exact ha
  have ha0 := aligned _ h0
  have ha1 := aligned _ h1
  have ha2 := aligned _ h2
  obtain ⟨_, _, hp0⟩ := hl ((dOffset q.d0).toNat / 8) (by simp)
  obtain ⟨_, _, hp1⟩ := hl ((dOffset q.d1).toNat / 8) (by simp)
  have htouch : s.touchStore id [(dOffset q.d0).toNat / 8, (dOffset q.d1).toNat / 8] = s :=
    State.touchStore_clean s id _ fun l hmem => (hl l hmem).imp_right And.left
  have hbeats : vectorBeats q 1 = 1 := if_neg fun h => by rw [hopc] at h; exact absurd h.1 (by decide)
  have hnotFma : ¬ (1 : BitVec 6).toNat = 3 := by decide
  simp only [startVector, vectorViews_int q h0 h1 h2 hopc hb hf, intView_lanes _ _ ha0, intView_lanes _ _ ha1, hopc,
    intView_overlaps _ _ _ _ ha0 ha2, intView_overlaps _ _ _ _ ha1 ha2, List.cons_append, List.nil_append, hnotFma,
    if_false, htouch, Bool.or_self, Bool.and_false, Bool.false_eq_true, vectorCompute_int q _ _ hopc hct ha0 ha1 hp0 hp1]
  simp [hbeats, hf, State.skipFree]

end Sys2Proof.Machine

open Sys2Proof Sys2Proof.Machine

/-- Settles O28: `startVector_int` says what the start leaves, `putRows_int` which bytes the result writes. -/
theorem vectorIntegerElement : Obligations.VectorIntegerElement := by
  unfold Obligations.VectorIntegerElement
  intro s id h h0 h1 h2 c w fn at' y hopc hct hb hf hfn hl
  rw [startVector_int s id h h0 h1 h2 hopc hct hb hf hl, State.modCell, State.cell_setCell, State.cell_setCell]
  exact ⟨putRows_int _ _ _ _, rfl, rfl, rfl, rfl⟩

end

section
/-!
PROOFS. Loads of instruction banks (R68, R69), and the states of a cell from its start to its replacement (R70 to R83).
-/

namespace Sys2Proof.Machine

/-- The state with another record of a cell's banks. -/
abbrev State.putBanks (s : State) (id : CellId) (b : BankState) : State := s.setCell id { s.cell id with banks := b }

section
variable {s : State} {id : CellId}

/-- A row that acts on a cell which exists does what its operation does. -/
theorem exec_of_withCell {i : Instr} {f : State → State} {t : State} (hi : exec i s = withCell id s f)
    (hok : cellOk id = true) (ht : f s = t) : exec i s = .next t := by
  rw [hi, withCell_ok id s f hok, ht]

/-! ### Bank loads (R68, R69) -/

/-- A load of a task's own image, or to a cell that does not work (R71). -/
theorem mayLoad_of_own (task : BitVec 32) (h : (s.cell id).works = false ∨ task = (s.cell id).task.id) :
    s.mayLoad id task = true := by
  rcases h with h | h <;> simp [State.mayLoad, h]

theorem issueLoad_eq (task : BitVec 32) (image : List Byte) (hm : s.mayLoad id task = true)
    (hb : s.boxRuns (boxOf id) = true) (ha : s.activeCell id = true) (hst : (s.cell id).st ≠ .stopped)
    (hl : (s.cell id).banks.load = none) (hlen : image.length ≤ 65536) : s.issueLoad id task image =
      s.putBanks id { (s.cell id).banks with load := some ⟨!(s.cell id).banks.active, image, .issued, 0, task⟩ } :=
  if_pos ⟨hm, hb, ha, hst, hl, hlen⟩

section
variable {l : Load} (hl : (s.cell id).banks.load = some l) (hst : (s.cell id).st ≠ .stopped)
include hl hst

theorem firstWrite_held (hp : l.phase = .issued) (hb : l.bank = (s.cell id).banks.active)
    (hr : (s.cell id).st = .running) : s.firstWrite id =
      s.putBanks id { (s.cell id).banks with load := some { l with phase := .held, t0 := s.ns } } := by
  simp only [State.firstWrite, hl]
  rw [if_neg (by simp [hp, hst]), if_pos ⟨hb, hr⟩]

theorem firstWrite_begins (hp : l.phase = .issued) (h : l.bank ≠ (s.cell id).banks.active ∨ (s.cell id).st ≠ .running) :
    s.firstWrite id = s.putBanks id (s.cell id).banks.beginLoad := by
  simp only [State.firstWrite, hl]
  rw [if_neg (by simp [hp, hst]), if_neg (not_and_or.2 h)]

theorem endLoad_bank1 (hp : l.phase = .writing) (hb : l.bank = true) : s.endLoad id =
    s.putBanks id { (s.cell id).banks with
      ib1 := (s.cell id).banks.ib1.write 0xFF 0 l.image
      ue1 := (s.cell id).banks.ue1.filter fun w => (l.image.length + 3) / 4 ≤ w
      valid1 := true, load := none, pre := some l.task } := by
  simp only [State.endLoad, hl]
  rw [if_neg (by simp [hp, hst]), if_pos hb]

theorem endLoad_bank0 (hp : l.phase = .writing) (hb : l.bank = false) : s.endLoad id =
    s.putBanks id { (s.cell id).banks with
      ib0 := (s.cell id).banks.ib0.write 0xFF 0 l.image
      ue0 := (s.cell id).banks.ue0.filter fun w => (l.image.length + 3) / 4 ≤ w
      valid0 := true, load := none, pre := some l.task } := by
  simp only [State.endLoad, hl]
  rw [if_neg (by simp [hp, hst]), if_neg (ne_true_of_eq_false hb)]

theorem abortLoad_late (hp : l.phase = .held) (ht : l.t0 + 100000 ≤ s.ns) : s.abortLoad id =
    ((s.putBanks id { (s.cell id).banks with load := none }).raise 0x0101 .error
      [(2, id.toNat), (1, if l.bank then 1 else 0), (4, l.task.toNat), (8, l.t0)]).endCause l.task.toNat tsBank := by
  simp only [State.abortLoad, hl]
  rw [if_neg (by simp [hp, hst]; omega)]

end

/-- The writes of a load clear the VALID of its bank. -/
theorem beginLoad_eq (b : BankState) (l : Load) (h : b.load = some l) : b.beginLoad =
    if l.bank then { b with load := some { l with phase := .writing }, valid1 := false }
    else { b with load := some { l with phase := .writing }, valid0 := false } := by
  simp only [BankState.beginLoad, h]

/-! ### The start of a cell (R72, R83) -/

theorem startCell_eq (bank : Bool) (hst : (s.cell id).st = .idle) (hv : (s.cell id).banks.validOf bank = true) :
    s.startCell id bank = s.setCell id (((s.cell id).startTask bank).stamp s.ns) := if_pos ⟨hst, hv⟩

/-- A start keeps MODE of CELL_NAN_STATUS and nothing else of it (R181). -/
theorem startTask_nan (c : CellState) (bank : Bool) :
    (c.startTask bank).nan.latched = false ∧ (c.startTask bank).nan.trapMode = c.nan.trapMode := by
  constructor <;> simp [CellState.startTask, NanRegs.latched, NanRegs.trapMode]

/-! ### The end of a cell's part (R74, R75, R79) -/

theorem haltDrained_eq (hst : (s.cell id).st = .halted) (hd : (s.cell id).drained = true) :
    s.haltDrained id = (s.setCell id { s.cell id with st := .idle }).memberDone id := if_pos ⟨hst, hd⟩

theorem faultHandled_eq (hst : (s.cell id).st = .faulted) (hr : (s.cell id).report = false)
    (hf : (s.cell id).retireFault = false) (hb : s.boxRuns (boxOf id) = true) :
    s.faultHandled id = s.setCell id ((s.cell id).clear .idle) :=
  if_pos ⟨hst, ne_true_of_eq_false hr, ne_true_of_eq_false hf, hb⟩

theorem clear_drained (c : CellState) (st : CState) : (c.clear st).drained = true := by
  simp [CellState.drained, CellState.clear, CellState.abandon]

/-- The cell leaves service, and the event and the list in module flash, or its failure, say so (R79). -/
def State.retired (s : State) (id : CellId) (flashOk : Bool) : State :=
  let s1 := s.setCell id { (s.cell id).clear .retired with retiring := false }
  let s2 := s1.raise 0x0107 .warning [(2, id.toNat), (2, s1.countIn .retired)]
  if flashOk then { s2 with pool := { s2.pool with flashRetired := id :: s2.pool.flashRetired } }
  else s2.raise 0x010A .error [(2, id.toNat)]

/-- The third suspect event retires the cell: from FAULTED once the fault it came with has been taken, or from IDLE while
no started task holds the cell. -/
abbrev State.MayRetire (s : State) (id : CellId) : Prop :=
  (s.cell id).st = .faulted ∧ (s.cell id).report = false ∧ (s.cell id).retireFault = true ∨
    (s.cell id).st = .idle ∧ s.dsp.tasks.all (fun t => !(t.started && t.cells.contains id)) = true

section
variable (ok : Bool) (hr : (s.cell id).retiring = true) (h : s.MayRetire id)
include hr h

/-- Nothing that `retireCell` asks before it retires a cell is in the way. -/
theorem retireCell_guard : ¬ (¬ (s.cell id).retiring = true ∨
    ¬ ((s.cell id).st = .idle ∨
      (s.cell id).st = .faulted ∧ ¬ (s.cell id).report = true ∧ (s.cell id).retireFault = true) ∨
    (s.dsp.tasks.any fun t => t.started && t.cells.contains id && (s.cell id).st == .idle) = true) := by
  refine not_or_intro (not_not.2 hr) ?_
  rcases h with ⟨hst, hrep, hrf⟩ | ⟨hst, hall⟩
  · refine not_or_intro (not_not.2 (.inr ⟨hst, ne_true_of_eq_false hrep, hrf⟩)) ?_
    simp [hst]
  · refine not_or_intro (not_not.2 (.inl hst)) fun hany => ?_
    obtain ⟨t, ht, hstarted⟩ := List.any_eq_true.1 hany
    have hnot : (t.started && t.cells.contains id) = false := by
      simpa only [Bool.not_eq_true'] using List.all_eq_true.1 hall t ht
    rw [hnot] at hstarted
    exact Bool.false_ne_true hstarted

theorem retireCell_spare (sp : CellId) (hsp : (s.retired id ok).chooseSpare (dieOf id) = some sp) :
    s.retireCell id ok = { s.retired id ok with
      pool := { (s.retired id ok).pool with joining := (s.retired id ok).pool.joining ++ [(id, sp)] } } := by
  simp only [State.retired] at hsp ⊢
  simp only [State.retireCell]
  rw [if_neg (retireCell_guard hr h), hsp]

theorem retireCell_last (hnone : (s.retired id ok).chooseSpare (dieOf id) = none) : s.retireCell id ok =
    ((s.retired id ok).raise 0x0109 .warning [(2, id.toNat), (2, (s.retired id ok).activeCount)]).bumpGen := by
  simp only [State.retired] at hnone ⊢
  simp only [State.retireCell]
  rw [if_neg (retireCell_guard hr h), hnone]

end

theorem admitSpare_eq (sp : CellId) (hj : (s.pool.joining.find? fun p => p.1 = id) = some (id, sp))
    (hst : (s.cell sp).st = .spare) : s.admitSpare id =
      let s1 := s.setCell sp (s.cell sp).admitted
      let s2 : State := { s1 with pool := { s1.pool with joining := s1.pool.joining.filter fun p => p.1 ≠ id } }
      (s2.raise 0x0108 .info [(2, sp.toNat), (2, id.toNat), (1, dieOf sp)]).bumpGen := by
  simp only [State.admitSpare, hj]
  exact if_neg (not_not.2 hst)

end

end Sys2Proof.Machine

open Sys2Proof Sys2Proof.Machine

/-- Settles O29: each row by the lemma of its operation. -/
theorem cellBanksAndStates : Obligations.CellBanksAndStates := by
  unfold Obligations.CellBanksAndStates
  refine ⟨fun s id hok => ?_, fun s id hok => ?_⟩ <;> intro c
  · intro put
    refine ⟨fun task h => mayLoad_of_own task h, fun task image hm hb ha hst hl hlen => ?_, fun l hl hst =>
      ⟨fun hp hb hr => ?_, fun hp h => ?_, fun hp hb => ?_, fun hp hb => ?_, fun hp ht => ?_⟩, fun bank hb hst hv => ?_⟩
    · exact exec_of_withCell (f := (·.issueLoad id task image)) rfl hok (issueLoad_eq task image hm hb ha hst hl hlen)
    · exact exec_of_withCell (f := (·.firstWrite id)) rfl hok (firstWrite_held hl hst hp hb hr)
    · refine exec_of_withCell (f := (·.firstWrite id)) rfl hok ((firstWrite_begins hl hst hp h).trans ?_)
      rw [beginLoad_eq _ l hl]
    · exact exec_of_withCell (f := (·.endLoad id)) rfl hok (endLoad_bank1 hl hst hp hb)
    · exact exec_of_withCell (f := (·.endLoad id)) rfl hok (endLoad_bank0 hl hst hp hb)
    · exact exec_of_withCell (f := (·.abortLoad id)) rfl hok (abortLoad_late hl hst hp ht)
    · obtain ⟨hlatch, htrap⟩ := startTask_nan c bank
      exact ⟨_, exec_of_withCell (f := fun s => if s.boxRuns (boxOf id) then s.startCell id bank else s) rfl hok
        ((if_pos hb).trans (startCell_eq bank hst hv)),
        rfl, rfl, rfl, rfl, rfl, rfl, rfl, hlatch, htrap, rfl⟩
  · refine ⟨fun hst hd => ?_, fun hst hr hf hb => ?_, ?_, fun sp hj hst => ?_, ?_⟩
    · exact exec_of_withCell (f := (·.haltDrained id)) rfl hok (haltDrained_eq hst hd)
    · exact ⟨_, exec_of_withCell (f := (·.faultHandled id)) rfl hok (faultHandled_eq hst hr hf hb), rfl, rfl,
        clear_drained c .idle, rfl, rfl, rfl, rfl, rfl, rfl, rfl, rfl⟩
    · intro hr h s1 s2 ok s3
      exact ⟨fun sp hsp => exec_of_withCell (f := (·.retireCell id ok)) rfl hok (retireCell_spare ok hr h sp hsp),
        fun hnone => exec_of_withCell (f := (·.retireCell id ok)) rfl hok (retireCell_last ok hr h hnone)⟩
    · exact exec_of_withCell (f := (·.admitSpare id)) rfl hok (admitSpare_eq sp hj hst)
    · exact exec_of_withCell (f := (·.suspectExpiry id)) rfl hok rfl

end

section
/-!
PROOFS. The scalar instructions of the cell core (R90 to R93): each writes one s register and falls through.
-/

namespace Sys2Proof.Machine

section
variable (s : State) (id : CellId) (g : BitVec 4) (o : BitVec 22)

/-- ALU with two operands (R91). -/
theorem exec_alu (hok : cellOk id = true) (hi : (s.cell id).Issues g) (hf : (s.cell id).Fits)
    (hfn : (o.extractLsb' 0 7 : BitVec 7).toNat ≤ 0x12)
    (hs : (s.cell id).FreeS (bit5 (fA o) ||| bit5 (fB o)) (bit5 (fD o))) :
    exec (.alu id g o) s = .next (s.setCell id (((s.cell id).writeS (fD o)
      (aluFn (o.extractLsb' 0 7) ((s.cell id).sReg (fA o)) ((s.cell id).sReg (fB o)))).next s.ns)) := by
  have hl : opAlu.legal o = true := by
    simp only [opAlu, Bool.and_eq_true, Bool.or_eq_true, decide_eq_true_eq]
    exact ⟨by omega, .inl (by omega)⟩
  have hrs : opAlu.rs o = bit5 (fA o) ||| bit5 (fB o) := by
    simp only [opAlu, if_pos (Nat.lt_succ_of_le hfn)]
  exact runCore_writeS opAlu id g o s (fD o) _ hok hi hf hl rfl rfl (hrs ▸ hs) (freeP_none _) rfl rfl

/-- CLZ, CTZ and POPC read sA alone; their B field names s0 and its value does not count (R91). -/
theorem exec_alu_unary (hok : cellOk id = true) (hi : (s.cell id).Issues g) (hf : (s.cell id).Fits)
    (hlo : 0x13 ≤ (o.extractLsb' 0 7 : BitVec 7).toNat) (hhi : (o.extractLsb' 0 7 : BitVec 7).toNat ≤ 0x15)
    (hb : fB o = 0) (hs : (s.cell id).FreeS (bit5 (fA o)) (bit5 (fD o))) :
    exec (.alu id g o) s = .next (s.setCell id (((s.cell id).writeS (fD o)
      (aluFn (o.extractLsb' 0 7) ((s.cell id).sReg (fA o)) 0)).next s.ns)) := by
  have hl : opAlu.legal o = true := by
    simp only [opAlu, Bool.and_eq_true, Bool.or_eq_true, decide_eq_true_eq, beq_iff_eq]
    exact ⟨hhi, .inr hb⟩
  have hrs : opAlu.rs o = bit5 (fA o) := by
    simp only [opAlu, if_neg (Nat.not_lt.2 hlo)]
    exact BitVec.or_zero
  have hfn : (o.extractLsb' 0 7 : BitVec 7) = 0x13 ∨ (o.extractLsb' 0 7 : BitVec 7) = 0x14 ∨
      (o.extractLsb' 0 7 : BitVec 7) = 0x15 := by
    bv_omega
  have hval (a b : Word) : aluFn (o.extractLsb' 0 7) a b = aluFn (o.extractLsb' 0 7) a 0 := by
    rcases hfn with h | h | h <;> rw [h] <;> rfl
  rw [← hval _ ((s.cell id).sReg (fB o))]
  exact runCore_writeS opAlu id g o s (fD o) _ hok hi hf hl rfl rfl (hrs ▸ hs) (freeP_none _) rfl rfl

/-- ADDI, ANDI, ORI and XORI. -/
theorem runCore_imm (op : BitVec 6) (f : Word → BitVec 12 → Word) (hok : cellOk id = true)
    (hi : (s.cell id).Issues g) (hf : (s.cell id).Fits) (hs : (s.cell id).FreeS (bit5 (fA o)) (bit5 (fD o))) :
    runCore (immOp op f) id g o s =
      .next (s.setCell id (((s.cell id).writeS (fD o) (f ((s.cell id).sReg (fA o)) (fImm12 o))).next s.ns)) :=
  runCore_writeS (immOp op f) id g o s (fD o) _ hok hi hf rfl rfl rfl hs (freeP_none _) rfl rfl

/-- SLLI, SRLI and SRAI. -/
theorem runCore_shift (op : BitVec 6) (f : Word → Nat → Word) (hok : cellOk id = true) (hi : (s.cell id).Issues g)
    (hf : (s.cell id).Fits) (h0 : (o.extractLsb' 5 7 : BitVec 7) = 0)
    (hs : (s.cell id).FreeS (bit5 (fA o)) (bit5 (fD o))) :
    runCore (shiftOp op f) id g o s = .next (s.setCell id (((s.cell id).writeS (fD o)
      (f ((s.cell id).sReg (fA o)) (o.extractLsb' 0 5 : BitVec 5).toNat)).next s.ns)) :=
  runCore_writeS (shiftOp op f) id g o s (fD o) _ hok hi hf (beq_iff_eq.2 h0) rfl rfl hs (freeP_none _) rfl rfl

end

/-! ### Division (R92) -/

/-- Division by zero: DIVU and DIV give all ones, REMU and REM the dividend. -/
theorem aluFn_by_zero (f : BitVec 7) (a : Word) :
    (f = 0x0B ∨ f = 0x0D → aluFn f a 0 = 0xFFFFFFFF) ∧ (f = 0x0C ∨ f = 0x0E → aluFn f a 0 = a) := by
  refine ⟨?_, ?_⟩ <;> rintro (rfl | rfl) <;> rfl

theorem div_min_by_minus_one : aluFn 0x0D 0x80000000 0xFFFFFFFF = 0x80000000 := by decide

theorem rem_min_by_minus_one : aluFn 0x0E 0x80000000 0xFFFFFFFF = 0 := by decide

end Sys2Proof.Machine

open Sys2Proof Sys2Proof.Machine

/-- Settles O6: ALU by its two lemmas, the immediate and the shift forms each by the lemma of their shape. -/
theorem scalarArithmeticResults : Obligations.ScalarArithmeticResults := by
  unfold Obligations.ScalarArithmeticResults
  intro s id g o hok hi hf c put f sh imm
  refine ⟨fun h0 => ?_, exec_alu s id g o hok hi hf, exec_alu_unary s id g o hok hi hf, fun hs => ?_, fun h16 hs => ?_,
    fun h16 hs => ?_⟩
  · exact runCore_plain opNop id g o s hok hi (beq_iff_eq.2 h0) rfl rfl (freeS_none _) (freeP_none _) rfl _ rfl hf
  · have imm (op : BitVec 6) (f : Word → BitVec 12 → Word) := runCore_imm s id g o op f hok hi hf hs
    refine ⟨imm 0x02 _, imm 0x03 _, imm 0x04 _, imm 0x05 _, fun h0 => ?_⟩
    have shift (op : BitVec 6) (f : Word → Nat → Word) := runCore_shift s id g o op f hok hi hf h0 hs
    exact ⟨shift 0x06 _, shift 0x07 _, shift 0x08 _⟩
  · exact runCore_writeS opLi id g o s (fD o) _ hok hi hf (by simp only [opLi, h16, Bool.not_false]) rfl rfl hs
      (freeP_none _) rfl rfl
  · exact runCore_writeS opLih id g o s (fD o) _ hok hi hf (by simp only [opLih, h16, Bool.not_false]) rfl rfl hs
      (freeP_none _) rfl rfl

/-- Settles O8: what ALU leaves by `exec_alu`, the values by the corners of division. -/
theorem divisionCorners : Obligations.DivisionCorners := by
  unfold Obligations.DivisionCorners
  intro s id g o hok hi hf c f a b gives hs
  have result (k : BitVec 7) (x : Word) (hk : f = k) (hle : k.toNat ≤ 0x12) (hx : aluFn k a b = x) : gives x := by
    subst hk hx
    exact exec_alu s id g o hok hi hf hle hs
  refine ⟨fun hb => ⟨fun h => ?_, fun h => ?_⟩, fun ha hb => ⟨fun h => ?_, fun h => ?_⟩⟩
  · refine result f _ rfl (by rcases h with h | h <;> rw [h] <;> decide) ?_
    rw [hb]
    exact (aluFn_by_zero f a).1 h
  · refine result f _ rfl (by rcases h with h | h <;> rw [h] <;> decide) ?_
    rw [hb]
    exact (aluFn_by_zero f a).2 h
  · exact result 0x0D _ h (by decide) (by rw [ha, hb]; exact div_min_by_minus_one)
  · exact result 0x0E _ h (by decide) (by rw [ha, hb]; exact rem_min_by_minus_one)

end

section
/-!
PROOFS. The tables of R91, R92, R94 and R95: what each function code computes, said in numbers.
-/

namespace Sys2Proof.Machine

section
variable (a b : Word)

/-! ### Sums, shifts and products (R91) -/

theorem aluFn_sub : (aluFn 0x01 a b).toNat = (a.toNat + 2 ^ 32 - b.toNat) % 2 ^ 32 := by
  have hb := b.isLt
  show (a - b).toNat = _
  rw [BitVec.toNat_sub]
  congr 1
  omega

theorem aluFn_sra : (aluFn 0x07 a b).toInt = a.toInt / 2 ^ (b.toNat % 32) := by
  show (a.sshiftRight _).toInt = _
  rw [BitVec.toInt_sshiftRight, Int.shiftRight_eq_div_pow]
  norm_cast

/-- The upper half of a signed product is a signed word, so nothing is lost of it. -/
theorem aluFn_mulh : (aluFn 0x09 a b).toInt = a.toInt * b.toInt / 2 ^ 32 := by
  have hlo := BitVec.le_toInt_mul_toInt (x := a) (y := b)
  have hhi := BitVec.toInt_mul_toInt_le (x := a) (y := b)
  show (BitVec.ofInt 32 (a.toInt * b.toInt / 2 ^ 32)).toInt = _
  norm_num at hlo hhi
  apply BitVec.toInt_ofInt_eq_self (by decide) <;> norm_num <;> omega

theorem aluFn_mulhu : (aluFn 0x0A a b).toNat = a.toNat * b.toNat / 2 ^ 32 := by
  show a.toNat * b.toNat / 2 ^ 32 % 2 ^ 32 = _
  have hlt : a.toNat * b.toNat < 2 ^ 32 * 2 ^ 32 := Nat.mul_lt_mul'' a.isLt b.isLt
  exact Nat.mod_eq_of_lt (Nat.div_lt_of_lt_mul hlt)

/-! ### Quotients and remainders (R92) -/

theorem aluFn_divu : (aluFn 0x0B a b).toNat = if b = 0 then 2 ^ 32 - 1 else a.toNat / b.toNat := by
  show (if b = 0 then 0xFFFFFFFF else a.udiv b : Word).toNat = _
  split <;> rfl

theorem aluFn_remu : (aluFn 0x0C a b).toNat = if b = 0 then a.toNat else a.toNat % b.toNat := by
  show (if b = 0 then a else a.umod b : Word).toNat = _
  split <;> rfl

/-- The one quotient that is no signed word is that of the most negative number by -1; it wraps to the dividend. -/
theorem aluFn_div : (aluFn 0x0D a b).toInt =
    if b = 0 then -1 else if a.toInt = -2 ^ 31 ∧ b.toInt = -1 then -2 ^ 31 else a.toInt.tdiv b.toInt := by
  show (if b = 0 then 0xFFFFFFFF else BitVec.ofInt 32 (a.toInt.tdiv b.toInt) : Word).toInt = _
  split
  next => rfl
  next =>
    split
    next h =>
      obtain ⟨ha, hb⟩ := h
      rw [ha, hb]
      decide
    next h =>
      have hne : a ≠ BitVec.intMin 32 ∨ b ≠ -1#32 := by
        by_contra hcon
        push Not at hcon
        obtain ⟨rfl, rfl⟩ := hcon
        exact h (by decide)
      rw [BitVec.toInt_ofInt, ← BitVec.toInt_sdiv, BitVec.toInt_sdiv_of_ne_or_ne a b hne]

theorem aluFn_rem : (aluFn 0x0E a b).toInt = if b = 0 then a.toInt else a.toInt.tmod b.toInt := by
  show (if b = 0 then a else BitVec.ofInt 32 (a.toInt.tmod b.toInt) : Word).toInt = _
  split
  · rfl
  · rw [← BitVec.toInt_srem, BitVec.ofInt_toInt]

/-! ### Smaller and larger (R91) -/

theorem aluFn_min : (aluFn 0x0F a b).toInt = min a.toInt b.toInt := by
  show (if a.toInt ≤ b.toInt then a else b).toInt = _
  rw [apply_ite BitVec.toInt]
  exact (min_def _ _).symm

theorem aluFn_max : (aluFn 0x10 a b).toInt = max a.toInt b.toInt := by
  show (if b.toInt ≤ a.toInt then a else b).toInt = _
  rw [apply_ite BitVec.toInt]
  exact (max_def' _ _).symm

theorem aluFn_minu : (aluFn 0x11 a b).toNat = min a.toNat b.toNat := by
  show (if a.toNat ≤ b.toNat then a else b).toNat = _
  rw [apply_ite BitVec.toNat]
  exact (min_def _ _).symm

theorem aluFn_maxu : (aluFn 0x12 a b).toNat = max a.toNat b.toNat := by
  show (if b.toNat ≤ a.toNat then a else b).toNat = _
  rw [apply_ite BitVec.toNat]
  exact (max_def' _ _).symm

end

/-! ### Counts of bits (R91) -/

section
variable (a : Word)

theorem toNat_ne_zero_of_ne (h : a ≠ 0) : a.toNat ≠ 0 := fun h0 => h (BitVec.eq_of_toNat_eq h0)

/-- A leading one at bit `31 - z` bounds the number from both sides. -/
theorem aluFn_clz :
    let z := (aluFn 0x13 a 0).toNat
    if a = 0 then z = 32 else z < 32 ∧ 2 ^ (31 - z) ≤ a.toNat ∧ a.toNat < 2 ^ (32 - z) := by
  intro z
  have hz : z = clz32 a % 2 ^ 32 := rfl
  rw [clz32] at hz
  split at hz
  next h => exact (if_pos h).mpr hz
  next h =>
    have hne := toNat_ne_zero_of_ne a h
    have hlog : Nat.log2 a.toNat < 32 := (Nat.log2_lt hne).2 a.isLt
    have hz' : z = 31 - Nat.log2 a.toNat := by omega
    rw [if_neg h, hz', show 31 - (31 - Nat.log2 a.toNat) = Nat.log2 a.toNat by omega,
      show 32 - (31 - Nat.log2 a.toNat) = Nat.log2 a.toNat + 1 by omega]
    exact ⟨by omega, Nat.log2_self_le hne, Nat.lt_log2_self⟩

/-- Of a number and its negative only the lowest set bit is common. -/
theorem and_neg_eq_twoPow (k : Nat) (hk : a.getLsbD k = true) (hmin : ∀ j < k, a.getLsbD j = false) :
    a &&& (0 - a) = BitVec.twoPow 32 k := by
  have hneg : (0 : Word) - a = -a := BitVec.zero_sub a
  rw [hneg]
  apply BitVec.eq_of_getLsbD_eq
  intro i hi
  rw [BitVec.getLsbD_and, BitVec.getLsbD_neg, BitVec.getLsbD_twoPow]
  have hk32 : k < 32 := BitVec.lt_of_getLsbD hk
  rcases Nat.lt_trichotomy i k with h | h | h
  · have : k ≠ i := by omega
    simp [hmin i h, this]
  · subst h
    have : ¬ ∃ j < i, a.getLsbD j = true := by
      rintro ⟨j, hj, hj'⟩
      rw [hmin j hj] at hj'
      cases hj'
    simp only [hk, this, hi, decide_false, decide_true, Bool.and_false, Bool.xor_false, Bool.and_self]
  · have : ∃ j < i, a.getLsbD j = true := ⟨k, h, hk⟩
    have hne : k ≠ i := by omega
    simp only [this, hi, hne, decide_true, decide_false, Bool.and_self, Bool.and_false]
    cases a.getLsbD i <;> rfl

theorem exists_lowest_bit (h : a ≠ 0) : ∃ k, a.getLsbD k = true ∧ ∀ j < k, a.getLsbD j = false := by
  have hex : ∃ k, a.getLsbD k = true := by
    by_contra hcon
    push Not at hcon
    refine h (BitVec.eq_of_getLsbD_eq fun i _ => ?_)
    simpa using hcon i
  refine ⟨Nat.find hex, Nat.find_spec hex, fun j hj => ?_⟩
  simpa using Nat.find_min hex hj

/-- A number whose low `k` bits are zero is a multiple of `2 ^ k`. -/
theorem mod_two_pow_eq_zero (k : Nat) (hmin : ∀ j < k, a.getLsbD j = false) : a.toNat % 2 ^ k = 0 := by
  refine Nat.eq_of_testBit_eq fun i => ?_
  rw [Nat.testBit_mod_two_pow, Nat.zero_testBit]
  by_cases hi : i < k
  · rw [show a.toNat.testBit i = a.getLsbD i from rfl, hmin i hi, Bool.and_false]
  · rw [decide_eq_false hi, Bool.false_and]

theorem aluFn_ctz :
    let z := (aluFn 0x14 a 0).toNat
    if a = 0 then z = 32 else z < 32 ∧ a.toNat % 2 ^ z = 0 ∧ a.toNat / 2 ^ z % 2 = 1 := by
  intro z
  have hz : z = ctz32 a % 2 ^ 32 := rfl
  rw [ctz32] at hz
  split at hz
  next h => exact (if_pos h).mpr hz
  next h =>
    obtain ⟨k, hk, hmin⟩ := exists_lowest_bit a h
    have hk32 : k < 32 := BitVec.lt_of_getLsbD hk
    rw [and_neg_eq_twoPow a k hk hmin, BitVec.toNat_twoPow_of_lt hk32, Nat.log2_two_pow,
      Nat.mod_eq_of_lt (by omega)] at hz
    rw [if_neg h, hz]
    refine ⟨hk32, mod_two_pow_eq_zero a k hmin, ?_⟩
    have hbit : a.toNat.testBit k = true := hk
    rwa [Nat.testBit_eq_decide_div_mod_eq, decide_eq_true_eq] at hbit

theorem popc_eq_countP (n x : Nat) : popc n x = (List.range n).countP fun i => x.testBit i := by
  induction n generalizing x with
  | zero => rfl
  | succ n ih =>
    rw [popc, ih, List.range_succ_eq_map, List.countP_cons, List.countP_map, Nat.add_comm]
    congr 1
    · simp only [Function.comp_def, Nat.testBit_succ]
    · rw [Nat.testBit_zero]
      have := Nat.mod_two_eq_zero_or_one x
      rcases this with h | h <;> rw [h] <;> rfl

theorem aluFn_popc : (aluFn 0x15 a 0).toNat = (List.range 32).countP fun i => a.getLsbD i := by
  have hle : popc 32 a.toNat ≤ 32 := by
    rw [popc_eq_countP]
    exact List.countP_le_length.trans_eq List.length_range
  show popc 32 a.toNat % 2 ^ 32 = _
  rw [Nat.mod_eq_of_lt (by omega), popc_eq_countP]
  rfl

end

/-! ### Conditions (R94) -/

theorem condFn_table (a b : Word) :
    (condFn 0 a b = true ↔ a = b) ∧ (condFn 1 a b = true ↔ a ≠ b) ∧
    (condFn 2 a b = true ↔ a.toInt < b.toInt) ∧ (condFn 3 a b = true ↔ b.toInt ≤ a.toInt) ∧
    (condFn 4 a b = true ↔ a.toNat < b.toNat) ∧ (condFn 5 a b = true ↔ b.toNat ≤ a.toNat) :=
  ⟨beq_iff_eq, bne_iff_ne, decide_eq_true_iff, decide_eq_true_iff, decide_eq_true_iff, decide_eq_true_iff⟩

end Sys2Proof.Machine

open Sys2Proof Sys2Proof.Machine

/-- Settles O7: one lemma per function whose number is not that of its definition. -/
theorem scalarFunctionTable : Obligations.ScalarFunctionTable := by
  unfold Obligations.ScalarFunctionTable
  intro a b n
  have hshl : (aluFn 0x05 a b).toNat = a.toNat * 2 ^ n % 2 ^ 32 := by
    show (a <<< n).toNat = _
    rw [BitVec.toNat_shiftLeft, Nat.shiftLeft_eq]
  have hshr : (aluFn 0x06 a b).toNat = a.toNat / 2 ^ n := by
    show (a >>> n).toNat = _
    rw [BitVec.toNat_ushiftRight, Nat.shiftRight_eq_div_pow]
  obtain ⟨heq, hne, hlt, hge, hltu, hgeu⟩ := condFn_table a b
  exact ⟨BitVec.toNat_add a b, aluFn_sub a b, fun _ => BitVec.getLsbD_and, fun _ => BitVec.getLsbD_or,
    fun _ => BitVec.getLsbD_xor, hshl, hshr, aluFn_sra a b, BitVec.toNat_mul a b, aluFn_mulh a b, aluFn_mulhu a b,
    aluFn_divu a b, aluFn_remu a b, aluFn_div a b, aluFn_rem a b, aluFn_min a b, aluFn_max a b, aluFn_minu a b,
    aluFn_maxu a b, aluFn_clz a, aluFn_ctz a, aluFn_popc a, heq, hne, hlt, hge, hltu, hgeu, by decide⟩

end

section
/-!
PROOFS. Predicates (R82, R94, R95): the instructions that write one, and those that read one.
-/

namespace Sys2Proof.Machine

section
variable (s : State) (id : CellId) (g : BitVec 4) (o : BitVec 22)

theorem exec_cmp (hok : cellOk id = true) (hi : (s.cell id).Issues g) (hf : (s.cell id).Fits)
    (h0 : (o.extractLsb' 0 6 : BitVec 6) = 0) (hfn : (o.extractLsb' 6 3 : BitVec 3).toNat ≤ 5)
    (hs : (s.cell id).FreeS (bit5 (fA18 o) ||| bit5 (fB13 o)) 0) (hp : (s.cell id).FreeP 0 (bit3 (fPD o))) :
    exec (.cmp id g o) s = .next (s.setCell id (((s.cell id).writeP (fPD o)
      (condFn (o.extractLsb' 6 3) ((s.cell id).sReg (fA18 o)) ((s.cell id).sReg (fB13 o)))).next s.ns)) := by
  have hl : opCmp.legal o = true :=
    Bool.and_eq_true_iff.2 ⟨beq_iff_eq.2 h0, decide_eq_true (Nat.lt_succ_of_le hfn)⟩
  exact runCore_writeP opCmp id g o s (fPD o) _ hok hi hf hl rfl rfl hs hp rfl rfl

theorem exec_cmpi (hok : cellOk id = true) (hi : (s.cell id).Issues g) (hf : (s.cell id).Fits)
    (hfn : (o.extractLsb' 11 3 : BitVec 3).toNat ≤ 5) (hs : (s.cell id).FreeS (bit5 (fA18 o)) 0)
    (hp : (s.cell id).FreeP 0 (bit3 (fPD o))) :
    exec (.cmpi id g o) s = .next (s.setCell id (((s.cell id).writeP (fPD o)
      (condFn (o.extractLsb' 11 3) ((s.cell id).sReg (fA18 o)) ((fImm11 o).signExtend 32))).next s.ns)) :=
  runCore_writeP opCmpi id g o s (fPD o) _ hok hi hf (decide_eq_true (Nat.lt_succ_of_le hfn)) rfl rfl hs hp rfl rfl

/-- PLOG with two operands. -/
theorem exec_plog (hok : cellOk id = true) (hi : (s.cell id).Issues g) (hf : (s.cell id).Fits)
    (h0 : (o.extractLsb' 0 10 : BitVec 10) = 0) (hfn : (fField o).toNat ≤ 4)
    (hp : (s.cell id).FreeP (bit3 (o.extractLsb' 16 3) ||| bit3 (o.extractLsb' 13 3)) (bit3 (fPD o))) :
    exec (.plog id g o) s = .next (s.setCell id (((s.cell id).writeP (fPD o)
      (plogFn (fField o) ((s.cell id).pReg (o.extractLsb' 16 3)) ((s.cell id).pReg (o.extractLsb' 13 3)))).next s.ns)) := by
  have hl : opPlog.legal o = true := by
    simp only [opPlog, h0, beq_self_eq_true, Bool.true_and, Bool.and_eq_true, Bool.or_eq_true, decide_eq_true_eq]
    exact ⟨by omega, .inl (by omega)⟩
  have hrp : opPlog.rp o = bit3 (o.extractLsb' 16 3) ||| bit3 (o.extractLsb' 13 3) := by
    simp only [opPlog, if_pos (Nat.lt_succ_of_le hfn)]
  exact runCore_writeP opPlog id g o s (fPD o) _ hok hi hf hl rfl rfl (freeS_none _) (hrp ▸ hp) rfl rfl

/-- NOT reads one operand; the field of the other must be 0 (R95). -/
theorem exec_plog_not (hok : cellOk id = true) (hi : (s.cell id).Issues g) (hf : (s.cell id).Fits)
    (h0 : (o.extractLsb' 0 10 : BitVec 10) = 0) (hfn : fField o = 5) (hpb : (o.extractLsb' 13 3 : BitVec 3) = 0)
    (hp : (s.cell id).FreeP (bit3 (o.extractLsb' 16 3)) (bit3 (fPD o))) :
    exec (.plog id g o) s = .next (s.setCell id (((s.cell id).writeP (fPD o)
      (!(s.cell id).pReg (o.extractLsb' 16 3))).next s.ns)) := by
  have hl : opPlog.legal o = true := by
    simp only [opPlog, h0, hfn, hpb]
    rfl
  have hrp : opPlog.rp o = bit3 (o.extractLsb' 16 3) := by
    simp only [opPlog, hfn]
    exact BitVec.or_zero
  refine runCore_writeP opPlog id g o s (fPD o) _ hok hi hf hl rfl rfl (freeS_none _) (hrp ▸ hp) rfl ?_
  simp only [opPlog, hfn]
  rfl

theorem exec_pfroms (hok : cellOk id = true) (hi : (s.cell id).Issues g) (hf : (s.cell id).Fits)
    (h0 : (o.extractLsb' 0 14 : BitVec 14) = 0) (hs : (s.cell id).FreeS (bit5 (fA18 o)) 0)
    (hp : (s.cell id).FreeP 0 (bit3 (fPD o))) :
    exec (.pfroms id g o) s = .next (s.setCell id (((s.cell id).writeP (fPD o)
      (decide ((s.cell id).sReg (fA18 o) ≠ 0))).next s.ns)) := by
  refine runCore_writeP opPfroms id g o s (fPD o) _ hok hi hf (beq_iff_eq.2 h0) rfl rfl hs hp rfl ?_
  have hval : ((s.cell id).sReg (fA18 o) != 0) = decide ((s.cell id).sReg (fA18 o) ≠ 0) := by
    rw [Bool.eq_iff_iff, bne_iff_ne, decide_eq_true_iff]
  simp only [opPfroms, hval]

end

/-! ### p0 (R82) -/

theorem pReg_zero (c : CellState) : c.pReg 0 = true := rfl

/-- A write of p0 leaves every predicate, and so does going on. -/
theorem pReg_next_writeP_zero (c : CellState) (x : Bool) (ns : Nat) (r : BitVec 3) :
    ((c.writeP 0 x).next ns).pReg r = c.pReg r := rfl

/-- p0 as a destination is free when it is not claimed, besides what the instruction reads. -/
theorem freeP_write_zero (c : CellState) (rd : BitVec 8) (h0 : c.core.pClaim &&& 1 = 0) (hrd : c.FreeP rd 0) :
    c.FreeP rd (bit3 0) := by
  obtain ⟨hclaim, hmark⟩ := hrd
  refine ⟨?_, hmark⟩
  have hrd : c.core.pClaim &&& rd = 0 := by rwa [show rd ||| 0 = rd from BitVec.or_zero] at hclaim
  rw [BitVec.and_or_distrib_left, hrd, show c.core.pClaim &&& bit3 0 = 0 from h0]
  rfl

end Sys2Proof.Machine

open Sys2Proof Sys2Proof.Machine

/-- Settles O12: one lemma per form that writes a predicate, the lemma of one written s register for PTOS and SEL. -/
theorem predicateResults : Obligations.PredicateResults := by
  unfold Obligations.PredicateResults
  intro s id g o hok hi hf c putP putS pa pb
  refine ⟨exec_cmp s id g o hok hi hf, exec_cmpi s id g o hok hi hf, exec_plog s id g o hok hi hf,
    exec_plog_not s id g o hok hi hf, exec_pfroms s id g o hok hi hf, fun h0 hs hp => ?_, fun h0 hs hp => ?_⟩
  · exact runCore_writeS opPtos id g o s (fD o) _ hok hi hf (beq_iff_eq.2 h0) rfl rfl hs hp rfl rfl
  · exact runCore_writeS opSel id g o s (fD o) _ hok hi hf (beq_iff_eq.2 h0) rfl rfl hs hp rfl rfl

/-- Settles O13: each form completes with `writeP 0`, which leaves every predicate. -/
theorem predicateZero : Obligations.PredicateZero := by
  unfold Obligations.PredicateZero
  refine ⟨pReg_zero, ?_⟩
  intro s id g o hok hi hf c keeps hpd hclaim
  have written (i : Instr) (x : Bool) (h : exec i s = .next (s.setCell id ((c.writeP (fPD o) x).next s.ns))) :
      keeps i := by
    refine ⟨_, h, fun r => ?_⟩
    rw [State.cell_setCell, hpd]
    exact pReg_next_writeP_zero c x s.ns r
  have hfree (rd : BitVec 8) (h : c.FreeP rd 0) : c.FreeP rd (bit3 (fPD o)) := by
    rw [hpd]
    exact freeP_write_zero c rd hclaim h
  have hnone := hfree 0 (freeP_none c)
  exact ⟨fun hs h0 hfn => written _ _ (exec_cmp s id g o hok hi hf h0 hfn hs hnone),
    fun hs hfn => written _ _ (exec_cmpi s id g o hok hi hf hfn hs hnone),
    fun hs h0 => written _ _ (exec_pfroms s id g o hok hi hf h0 hs hnone),
    fun hp h0 hfn => written _ _ (exec_plog s id g o hok hi hf h0 hfn (hfree _ hp))⟩

end

section
/-!
PROOFS. LDA and STA (R97): what each leaves of the address registers, and the eight bytes of a stored address.
-/

namespace Sys2Proof.Machine

/-- Going on to the next instruction leaves the address registers. -/
theorem aReg_next (c : CellState) (ns : Nat) (r : BitVec 4) : (c.next ns).aReg r = c.aReg r := rfl

section
variable {c : CellState} {d : DmemState} {m : StoreState} {a : BitVec 40} {n v : Nat}

/-- The bytes of a number stored in the data memory, which an aligned access does not leave. -/
theorem byteAt_stored_dmem (hn : n = 1 ∨ n = 2 ∨ n = 4 ∨ n = 8 ∨ n = 16) (ha : c.InDmem a n)
    (h : Stored c.dmem.mem d.mem a.toNat n v) (i : Nat) (hi : i < n) :
    ({ c with dmem := d } : CellState).byteAt (a.toNat + i) = BitVec.ofNat 8 (v / 256 ^ i) := by
  obtain ⟨halign, hlow, _⟩ := ha
  have hin : a.toNat + i < 0x10000 := by
    rcases hn with rfl | rfl | rfl | rfl | rfl <;> omega
  rw [CellState.byteAt, if_pos hin, h, if_pos ⟨by omega, by omega⟩, Nat.add_sub_cancel_left]

/-- The bytes of a number stored in the cell store. -/
theorem byteAt_stored_store (ha : 0x1000000 ≤ a.toNat)
    (h : Stored c.store.mem m.mem (a.toNat - 0x1000000) n v) (i : Nat) (hi : i < n) :
    ({ c with store := m } : CellState).byteAt (a.toNat + i) = BitVec.ofNat 8 (v / 256 ^ i) := by
  have hoff : a.toNat + i - 0x1000000 - (a.toNat - 0x1000000) = i := by omega
  rw [CellState.byteAt, if_neg (by omega), h, if_pos ⟨by omega, by omega⟩, hoff]

end

/-- STA to the data memory or to the cell store: the bytes of the address are written, and of the address registers only
the base moves. -/
theorem exec_sta (s : State) (id : CellId) (g : BitVec 4) (o : BitVec 22) (hok : cellOk id = true)
    (hi : (s.cell id).Issues g) (hf : (s.cell id).Fits) (hm : fMode o ≠ 3) (h17 : o.getLsbD 17 = false)
    (ha : (s.cell id).InDmem (memAddr (s.cell id) o 8).1 8 ∨ ((memAddr (s.cell id) o 8).1.toNat % 8 = 0 ∧
      0x1000000 ≤ (memAddr (s.cell id) o 8).1.toNat ∧ (memAddr (s.cell id) o 8).1.toNat < 0x1300000)) :
    ∃ c' : CellState, exec (.sta id g o) s = .next (s.setCell id (c'.next s.ns)) ∧
      (∀ r, c'.aReg r = ((s.cell id).writeA (fBase o) (memAddr (s.cell id) o 8).2).aReg r) ∧
      ∀ i < 8, c'.byteAt ((memAddr (s.cell id) o 8).1.toNat + i) =
        BitVec.ofNat 8 (((s.cell id).aReg (fAD o)).addr.toNat / 256 ^ i) := by
  obtain ⟨hdmem, hstore⟩ := stores opSta 8 ((s.cell id).aReg (fAD o)).addr.toNat id g o s (.sta id g o) rfl (by decide)
    hok hi hf (memLegal_wide o hm h17) (freeS_none _) rfl rfl rfl (.inl rfl) fun _ => rfl
  rcases ha with ha | ⟨halign, hlo, hhi⟩
  · obtain ⟨d, hexec, hd⟩ := hdmem ha
    exact ⟨_, hexec, fun _ => rfl, byteAt_stored_dmem (c := (s.cell id).writeA (fBase o) (memAddr (s.cell id) o 8).2)
      (by decide) ha hd⟩
  · obtain ⟨m, hexec, hd, _⟩ := hstore halign hlo hhi
    exact ⟨_, hexec, fun _ => rfl, byteAt_stored_store (c := (s.cell id).writeA (fBase o) (memAddr (s.cell id) o 8).2)
      hlo hd⟩

end Sys2Proof.Machine

open Sys2Proof Sys2Proof.Machine

/-- Settles O11: LDA writes the base and then aD, so the loaded value wins; STA moves the base alone. -/
theorem addressLoadsAndStores : Obligations.AddressLoadsAndStores := by
  unfold Obligations.AddressLoadsAndStores
  intro s id g o hok hi hf hm h17 c m strides
  refine ⟨fun h => ⟨_, exec_lda id g o s hok hi hf hm h17 h, fun r => ?_, ?_, fun hne => ?_⟩, fun h => ?_⟩
  · rw [State.cell_setCell, aReg_next, writeA_stride, writeA_stride]
  · rw [State.cell_setCell, aReg_next, writeA_same]
  · rw [State.cell_setCell, aReg_next, writeA_other _ _ _ _ hne.symm, writeA_same]
  · obtain ⟨c', hexec, hregs, hbytes⟩ := exec_sta s id g o hok hi hf hm h17 h
    refine ⟨_, hexec, fun r => ?_, fun i hlt => ?_, ?_⟩
    · rw [State.cell_setCell, aReg_next, hregs, writeA_stride]
    · rw [State.cell_setCell]
      exact hbytes i hlt
    · rw [State.cell_setCell, aReg_next, hregs, writeA_same]

end

section
/-!
PROOFS. Address registers and descriptors (R99 to R101): an instruction that writes one of them and falls through, and the
values AFROM and ATO move between s and a registers.
-/

namespace Sys2Proof.Machine

/-! ### Values (R99) -/

/-- AFROM joins the low byte of one s register to another. -/
theorem afrom_value (hi lo : Word) :
    (hi.setWidth 8 ++ lo : BitVec 40) = BitVec.ofNat 40 (hi.toNat % 256 * 2 ^ 32 + lo.toNat) := by
  apply BitVec.eq_of_toNat_eq
  have hlo := lo.isLt
  have hlt : hi.toNat % 256 * 2 ^ 32 + lo.toNat < 2 ^ 40 := by omega
  rw [BitVec.toNat_append, BitVec.toNat_ofNat, BitVec.toNat_setWidth, ← Nat.shiftLeft_add_eq_or_of_lt hlo,
    Nat.shiftLeft_eq]
  exact (Nat.mod_eq_of_lt hlt).symm

/-- ATO gives bits 31 to 0 of an address, or bits 39 to 32. -/
theorem ato_value (a : BitVec 40) (upper : Bool) :
    (if upper then (a.extractLsb' 32 8 : BitVec 8).setWidth 32 else a.setWidth 32 : Word) =
      BitVec.ofNat 32 (if upper then a.toNat / 2 ^ 32 else a.toNat) := by
  have ha := a.isLt
  apply BitVec.eq_of_toNat_eq
  cases upper
  · simp
  · simp only [if_true, BitVec.toNat_setWidth, BitVec.extractLsb'_toNat, Nat.shiftRight_eq_div_pow, BitVec.toNat_ofNat]
    omega

/-! ### Results -/

section
variable (s : State) (id : CellId) (g : BitVec 4) (o : BitVec 22)

/-- An instruction that reads the s registers of `rd` at most, and writes neither an s register nor a predicate. -/
theorem runCore_other (op : CoreOp) (c' : CellState) (rd : BitVec 32) (hok : cellOk id = true)
    (hi : (s.cell id).Issues g) (hl : op.legal o = true) (hrs : op.rs o = rd) (hws : op.ws o = 0) (hrp : op.rp o = 0)
    (hwp : op.wp o = 0) (ht : op.touch o (s.cell id) = ([], []))
    (hb : op.body ⟨id, s.cellLt id, s.ns⟩ o (s.cell id) = .done c' .seq) (hf : c'.Fits) (hs : (s.cell id).FreeS rd 0) :
    runCore op id g o s = .next (s.setCell id (c'.next s.ns)) :=
  runCore_plain op id g o s hok hi hl hws hwp (by rw [hrs, hws]; exact hs) (by rw [hrp, hwp]; exact freeP_none _) ht c'
    hb hf

theorem exec_ato (hok : cellOk id = true) (hi : (s.cell id).Issues g) (hf : (s.cell id).Fits)
    (h0 : (o.extractLsb' 0 12 : BitVec 12) = 0) (hs : (s.cell id).FreeS 0 (bit5 (fD o))) :
    exec (.ato id g o) s = .next (s.setCell id (((s.cell id).writeS (fD o) (BitVec.ofNat 32
      (if o.getLsbD 12 then ((s.cell id).aReg (fBase o)).addr.toNat / 2 ^ 32
        else ((s.cell id).aReg (fBase o)).addr.toNat))).next s.ns)) := by
  refine runCore_writeS opAto id g o s (fD o) _ hok hi hf (beq_iff_eq.2 h0) rfl rfl hs (freeP_none _) rfl ?_
  simp only [opAto, ato_value]

/-- The reserved bits of TGET and TSET are zero, and so is no field (R101). -/
theorem descField_legal (h0 : (o.extractLsb' 0 10 : BitVec 10) = 0) (h7 : fField o ≠ 7) :
    ((o.extractLsb' 0 10 : BitVec 10) == 0 && fField o != 7) = true :=
  Bool.and_eq_true_iff.2 ⟨beq_iff_eq.2 h0, bne_iff_ne.2 h7⟩

end

end Sys2Proof.Machine

open Sys2Proof Sys2Proof.Machine

/-- Settles O14: the forms that write an a or a t register by `runCore_other`, ATO and TGET as writes of an s register. -/
theorem addressRegisterResults : Obligations.AddressRegisterResults := by
  unfold Obligations.AddressRegisterResults
  intro s id g o hok hi hf c done b17 ad src t
  have other (op : CoreOp) (c' : CellState) (rd : BitVec 32) (hl : op.legal o = true) :=
    runCore_other s id g o op c' rd hok hi hl
  have hnone := freeS_none c
  refine ⟨fun h0 => other opAadd _ _ (beq_iff_eq.2 h0) rfl rfl rfl rfl rfl rfl hf,
    other opAaddi _ _ rfl rfl rfl rfl rfl rfl rfl hf hnone, fun h0 => ?_, exec_ato s id g o hok hi hf,
    fun h0 => other opAstr _ _ (beq_iff_eq.2 h0) rfl rfl rfl rfl rfl rfl hf,
    other opAstri _ _ rfl rfl rfl rfl rfl rfl rfl hf hnone,
    fun h0 => other opAmov _ _ (beq_iff_eq.2 h0) rfl rfl rfl rfl rfl rfl hf hnone,
    fun h0 => other opTofs _ _ (beq_iff_eq.2 h0) rfl rfl rfl rfl rfl rfl hf hnone,
    fun h0 => other opTadv _ _ (beq_iff_eq.2 h0) rfl rfl rfl rfl rfl rfl hf, fun h0 h7 hs => ?_,
    fun h0 h7 => other opTset _ _ (descField_legal o h0 h7) rfl rfl rfl rfl rfl rfl hf⟩
  · rw [← afrom_value]
    exact other opAfrom _ _ (beq_iff_eq.2 h0) rfl rfl rfl rfl rfl rfl hf
  · exact runCore_writeS opTget id g o s (fD o) _ hok hi hf (descField_legal o h0 h7) rfl rfl hs (freeP_none _) rfl rfl

end

section
/-!
PROOFS. Loops and branches (R102 to R108): a LOOP that skips and one that pushes, the hidden counters, and the taken and
untaken branches.
-/

namespace Sys2Proof.Machine

section
variable {s : State} {id : CellId} {g : BitVec 4} {o : BitVec 22}

/-! ### Loops (R104, R106, R108) -/

/-- A core that goes on behind a skipped body, its loops counted (R104, R105). -/
theorem retire_skip (c : CellState) (dest : Nat) (h : dest ≤ 0xFFFC)
    (hend : (endCheck c.core.pc.toNat dest c.core.loops).2 ≤ 0xFFFC) :
    s.retire id c (.skip dest) = s.setCell id (c.goOn (endCheck c.core.pc.toNat dest c.core.loops).2
      (endCheck c.core.pc.toNat dest c.core.loops).1 s.ns) := by
  rw [State.retire, flow_skip c s.ns dest h hend]

theorem opLoop_legal (h0 : (o.extractLsb' 14 6 : BitVec 6) = 0) (hlen : (fLen o).toNat ≠ 0) :
    opLoop.legal o = true := by
  have hne : fLen o ≠ 0 := fun h => hlen (by rw [h]; rfl)
  exact Bool.and_eq_true_iff.2 ⟨beq_iff_eq.2 h0, bne_iff_ne.2 hne⟩

/-- A LOOP whose counter register is zero skips its body (R104). -/
theorem exec_loop_skip (hok : cellOk id = true) (hi : (s.cell id).Issues g) (hl : opLoop.legal o = true)
    (hn : (s.cell id).lcReg (fTop2 o) = 0) (hdest : loopSkipTo o (s.cell id) ≤ 0xFFFC)
    (hend : (endCheck (s.cell id).core.pc.toNat (loopSkipTo o (s.cell id)) (s.cell id).core.loops).2 ≤ 0xFFFC) :
    exec (.loop id g o) s = .next (s.setCell id ((s.cell id).goOn
      (endCheck (s.cell id).core.pc.toNat (loopSkipTo o (s.cell id)) (s.cell id).core.loops).2
      (endCheck (s.cell id).core.pc.toNat (loopSkipTo o (s.cell id)) (s.cell id).core.loops).1 s.ns)) := by
  rw [← retire_skip (s.cell id) _ hdest hend, ← CellState.unmark_zero (s.cell id)]
  refine runCore_body opLoop id g o s hok hi hl (freeS_none _) (freeP_none _) rfl _ _ ?_
  simp only [opLoop, hn, if_true]
  rfl

/-- A body that ends in the bank and within every body that encloses the LOOP passes none (R107, R108). -/
theorem passesBody_false {c : CellState}
    (h : ∀ e ∈ c.core.loops, e.start ≤ c.core.pc.toNat → c.core.pc.toNat ≤ e.stop → loopEnd o c ≤ e.stop) :
    passesBody o c = false := by
  rw [passesBody, List.any_eq_false]
  intro e he
  rw [decide_eq_true_eq]
  rintro ⟨hstart, hstop, hpast⟩
  exact absurd (h e he hstart hstop) (Nat.not_le.2 hpast)

/-- A LOOP whose counter register is not zero pushes its entry and goes on with its body (R104). -/
theorem exec_loop_push (hok : cellOk id = true) (hi : (s.cell id).Issues g) (hl : opLoop.legal o = true)
    (hlen : (fLen o).toNat ≠ 0) (hn : (s.cell id).lcReg (fTop2 o) ≠ 0) (hdepth : (s.cell id).core.loops.length < 4)
    (hbank : loopEnd o (s.cell id) ≤ 0xFFFC) (hbody : passesBody o (s.cell id) = false) :
    exec (.loop id g o) s = .next (s.setCell id ((s.cell id).goOn ((s.cell id).core.pc.toNat + 4)
      (⟨(s.cell id).core.pc.toNat + 4, loopEnd o (s.cell id), (s.cell id).lcReg (fTop2 o) - 1⟩ ::
        (s.cell id).core.loops) s.ns)) := by
  -- The pushed body ends after the LOOP, so the end check of the LOOP itself counts nothing.
  have hcheck : endCheck (s.cell id).core.pc.toNat ((s.cell id).core.pc.toNat + 4)
      (⟨(s.cell id).core.pc.toNat + 4, loopEnd o (s.cell id), (s.cell id).lcReg (fTop2 o) - 1⟩ ::
        (s.cell id).core.loops) =
      (⟨(s.cell id).core.pc.toNat + 4, loopEnd o (s.cell id), (s.cell id).lcReg (fTop2 o) - 1⟩ ::
        (s.cell id).core.loops, (s.cell id).core.pc.toNat + 4) := by
    have hne : (s.cell id).core.pc.toNat ≠ loopEnd o (s.cell id) := by
      rw [loopEnd]
      omega
    rw [endCheck, if_neg hne]
  have hfits : ((s.cell id).setLoops (⟨(s.cell id).core.pc.toNat + 4, loopEnd o (s.cell id),
      (s.cell id).lcReg (fTop2 o) - 1⟩ :: (s.cell id).core.loops)).Fits := by
    show (endCheck _ _ _).2 ≤ _
    rw [loopEnd] at hbank
    simp only [CellState.setLoops, hcheck]
    omega
  refine (runCore_plain opLoop id g o s hok hi hl rfl rfl (freeS_none _) (freeP_none _) rfl _ ?_ hfits).trans ?_
  · have hd : ¬ 4 ≤ (s.cell id).core.loops.length := Nat.not_le.2 hdepth
    have hb : ¬ (0xFFFC < loopEnd o (s.cell id) ∨ passesBody o (s.cell id) = true) := by
      rw [hbody]
      rintro (h | h)
      · exact absurd hbank (Nat.not_le.2 h)
      · cases h
    simp only [opLoop, if_neg hn, if_neg hd, if_neg hb]
  · simp only [CellState.next, CellState.setLoops, hcheck]
    rfl

/-- The hidden counter of one level is replaced, and no other entry changes (R106). -/
theorem setHc_get (l : List LoopEntry) (lvl : Nat) (x : Word) (k : Nat) :
    (setHc l lvl x)[k]? = if k = lvl then l[k]?.map (fun e => { e with hc := x }) else l[k]? :=
  lmod_get l lvl _ k

theorem exec_lset (hok : cellOk id = true) (hi : (s.cell id).Issues g) (h0 : (o.extractLsb' 0 15 : BitVec 15) = 0)
    (hlvl : (fTop2 o).toNat < (s.cell id).core.loops.length) (hs : (s.cell id).FreeS (bit5 (fB19 o)) 0)
    (hf : ((s.cell id).setLoops (setHc (s.cell id).core.loops (fTop2 o).toNat ((s.cell id).sReg (fB19 o)))).Fits) :
    exec (.lset id g o) s = .next (s.setCell id (((s.cell id).setLoops
      (setHc (s.cell id).core.loops (fTop2 o).toNat ((s.cell id).sReg (fB19 o)))).next s.ns)) :=
  runCore_plain opLset id g o s hok hi (beq_iff_eq.2 h0) rfl rfl hs (freeP_none _) rfl _
    (by simp only [opLset, if_pos hlvl]) hf

theorem exec_lbrk (hok : cellOk id = true) (hi : (s.cell id).Issues g) (h0 : (o.extractLsb' 0 20 : BitVec 20) = 0)
    (hlvl : (fTop2 o).toNat < (s.cell id).core.loops.length)
    (hf : ((s.cell id).setLoops (setHc (s.cell id).core.loops (fTop2 o).toNat 0)).Fits) :
    exec (.lbrk id g o) s = .next (s.setCell id (((s.cell id).setLoops
      (setHc (s.cell id).core.loops (fTop2 o).toNat 0)).next s.ns)) :=
  runCore_plain opLbrk id g o s hok hi (beq_iff_eq.2 h0) rfl rfl (freeS_none _) (freeP_none _) rfl _
    (by simp only [opLbrk, if_pos hlvl]) hf

theorem exec_lget (hok : cellOk id = true) (hi : (s.cell id).Issues g) (hf : (s.cell id).Fits)
    (e : LoopEntry) (he : (s.cell id).core.loops[(o.extractLsb' 15 2 : BitVec 2).toNat]? = some e)
    (h0 : (o.extractLsb' 0 15 : BitVec 15) = 0) (hs : (s.cell id).FreeS 0 (bit5 (fD o))) :
    exec (.lget id g o) s = .next (s.setCell id (((s.cell id).writeS (fD o) e.hc).next s.ns)) :=
  runCore_writeS opLget id g o s (fD o) _ hok hi hf (beq_iff_eq.2 h0) rfl rfl hs (freeP_none _) rfl
    (by simp only [opLget, he])

/-! ### Branches (R102, R107) -/

/-- A branch that is taken to `dest` and writes no register leaves the loops that do not contain `dest`. -/
theorem runCore_jump (op : CoreOp) (dest : Nat) (hok : cellOk id = true) (hi : (s.cell id).Issues g)
    (hl : op.legal o = true) (hws : op.ws o = 0) (hrp : op.rp o = 0) (hwp : op.wp o = 0)
    (ht : op.touch o (s.cell id) = ([], [])) (hs : (s.cell id).FreeS (op.rs o) 0)
    (hb : op.body ⟨id, s.cellLt id, s.ns⟩ o (s.cell id) = .done (s.cell id) (.jump dest true)) :
    runCore op id g o s = .next (s.setCell id ((s.cell id).goOn dest
      (leaveLoops (s.cell id).core.pc.toNat dest (s.cell id).core.loops) s.ns)) := by
  rw [runCore_body op id g o s hok hi hl (by rw [hws]; exact hs) (by rw [hrp, hwp]; exact freeP_none _) ht _ _ hb,
    hws, hwp, CellState.unmark_zero, retire_jump]

/-- CALL links to s31 and leaves no loop (R102, R107). -/
theorem exec_call (dest : Nat) (hok : cellOk id = true) (hi : (s.cell id).Issues g)
    (hdest : (dest : Int) = (s.cell id).core.pc.toNat + 4 * o.toInt) (hbank : dest ≤ 0xFFFC)
    (hs : (s.cell id).FreeS 0 (bit5 31)) :
    exec (.call id g o) s = .next (s.setCell id (((s.cell id).writeS 31
      (BitVec.ofNat 32 ((s.cell id).core.pc.toNat + 4))).goOn dest (s.cell id).core.loops s.ns)) := by
  refine (runCore_body opCall id g o s hok hi rfl hs (freeP_none _) rfl
    ((s.cell id).setS 31 (BitVec.ofNat 32 ((s.cell id).core.pc.toNat + 4))) (.jump dest false) ?_).trans ?_
  · simp only [opCall, branchTo_ok (s.cell id) o.toInt false dest hdest hbank]
  · rw [retire_call]
    simp only [CellState.unmark, CellState.writeS, CellState.setS, opCall, and_not_zero8]

theorem exec_jr (hok : cellOk id = true) (hi : (s.cell id).Issues g) (h0 : (o.extractLsb' 0 17 : BitVec 17) = 0)
    (hs : (s.cell id).FreeS (bit5 (fD o)) 0) (hbank : ((s.cell id).sReg (fD o)).toNat ≤ 0xFFFC)
    (halign : ((s.cell id).sReg (fD o)).toNat % 4 = 0) :
    exec (.jr id g o) s = .next (s.setCell id ((s.cell id).goOn ((s.cell id).sReg (fD o)).toNat
      (leaveLoops (s.cell id).core.pc.toNat ((s.cell id).sReg (fD o)).toNat (s.cell id).core.loops) s.ns)) := by
  refine runCore_jump opJr _ hok hi (beq_iff_eq.2 h0) rfl rfl rfl rfl hs ?_
  have hgood : ¬ (0xFFFC < ((s.cell id).sReg (fD o)).toNat ∨ ((s.cell id).sReg (fD o)).toNat % 4 ≠ 0) := by omega
  simp only [opJr, if_neg hgood]

/-- BZ and BNZ share a shape: a branch on a test of sD. -/
theorem runCore_branchIf (op : CoreOp) (taken : Prop) [Decidable taken] (hok : cellOk id = true)
    (hi : (s.cell id).Issues g) (hl : op.legal o = true) (hws : op.ws o = 0) (hrp : op.rp o = 0) (hwp : op.wp o = 0)
    (ht : op.touch o (s.cell id) = ([], [])) (hs : (s.cell id).FreeS (op.rs o) 0)
    (hb : op.body ⟨id, s.cellLt id, s.ns⟩ o (s.cell id) =
      if taken then branchTo (s.cell id) (o.extractLsb' 0 17 : BitVec 17).toInt true else .done (s.cell id) .seq) :
    (∀ dest : Nat, (dest : Int) = (s.cell id).core.pc.toNat + 4 * (o.extractLsb' 0 17 : BitVec 17).toInt →
      dest ≤ 0xFFFC → taken → runCore op id g o s = .next (s.setCell id ((s.cell id).goOn dest
        (leaveLoops (s.cell id).core.pc.toNat dest (s.cell id).core.loops) s.ns))) ∧
    ((s.cell id).Fits → ¬ taken → runCore op id g o s = .next (s.setCell id ((s.cell id).next s.ns))) := by
  refine ⟨fun dest hdest hbank h => ?_, fun hf h => ?_⟩
  · refine runCore_jump op dest hok hi hl hws hrp hwp ht hs ?_
    rw [hb, if_pos h, branchTo_ok (s.cell id) _ true dest hdest hbank]
  · refine runCore_plain op id g o s hok hi hl hws hwp (by rw [hws]; exact hs) (by rw [hrp, hwp]; exact freeP_none _) ht
      _ ?_ hf
    rw [hb, if_neg h]

end

end Sys2Proof.Machine

open Sys2Proof Sys2Proof.Machine

/-- Settles O15: the loop instructions and the branches each by their lemma; LCSET and LCI only write their register. -/
theorem loopAndBranchResults : Obligations.LoopAndBranchResults := by
  unfold Obligations.LoopAndBranchResults
  refine ⟨?_, ?_⟩
  · intro s id g o hok hi c pc n len lvl done skip hidden
    have hnone := freeS_none c
    refine ⟨fun h0 hs hf => ?_, fun hf => ?_, fun h0 hlen => ?_, fun hlvl => ⟨fun h0 hs => ?_, fun h0 => ?_⟩,
      fun e he h0 hs hf => exec_lget hok hi hf e he h0 hs⟩
    · exact runCore_plain opLcset id g o s hok hi (beq_iff_eq.2 h0) rfl rfl hs (freeP_none _) rfl _ rfl hf
    · exact runCore_plain opLci id g o s hok hi rfl rfl rfl hnone (freeP_none _) rfl _ rfl hf
    · have hl := opLoop_legal h0 hlen
      exact ⟨fun hn hdest hend => exec_loop_skip hok hi hl hn hdest hend,
        fun hn hdepth hbank hbody => exec_loop_push hok hi hl hlen hn hdepth hbank (passesBody_false hbody)⟩
    · exact ⟨_, setHc_get _ _ _, exec_lset hok hi h0 hlvl hs⟩
    · exact ⟨_, setHc_get _ _ _, exec_lbrk hok hi h0 hlvl⟩
  · intro s id g o hok hi c pc jump d off17
    refine ⟨fun dest hdest hbank => ⟨?_, exec_call dest hok hi hdest hbank⟩, exec_jr hok hi, fun hs => ?_⟩
    · exact runCore_jump opBr dest hok hi rfl rfl rfl rfl rfl (freeS_none c) (branchTo_ok c _ true dest hdest hbank)
    · obtain ⟨hzero, hzero'⟩ := runCore_branchIf opBz (d = 0) hok hi rfl rfl rfl rfl rfl hs rfl
      obtain ⟨hnonzero, hnonzero'⟩ := runCore_branchIf opBnz (d ≠ 0) hok hi rfl rfl rfl rfl rfl hs rfl
      exact ⟨fun dest hdest hbank => ⟨hzero dest hdest hbank, hnonzero dest hdest hbank⟩,
        fun hf => ⟨hzero' hf, fun h => hnonzero' hf (not_not_intro h)⟩⟩

end

section
/-!
PROOFS. Guards (R88): what a guarded-off instruction does, and the instruction a core waits in.
-/

namespace Sys2Proof.Machine

/-- Only LOOP goes elsewhere than to the next instruction when its guard is false (R104). -/
theorem coreRows_off (id : CellId) (g : BitVec 4) (o : BitVec 22) (c : CellState) :
    ∀ p ∈ coreRows id g o, p.2.op ≠ 0x2A → p.2.off o c = .seq := by
  intro p hp hop
  have hflows : ((coreRows id g o).filter fun p => p.2.op ≠ 0x2A).map (fun p => p.2.off o c) =
      List.replicate 60 .seq := rfl
  have hmem : p ∈ (coreRows id g o).filter fun p => p.2.op ≠ 0x2A := List.mem_filter.2 ⟨hp, decide_eq_true hop⟩
  exact List.eq_of_mem_replicate (hflows ▸ List.mem_map_of_mem hmem)

/-- An instruction that falls through when it is guarded off goes on to the next one. -/
theorem retire_seq (s : State) (id : CellId) (c : CellState) (hf : c.Fits) :
    s.retire id c .seq = s.setCell id (c.next s.ns) := by
  rw [State.retire, CellState.flow_seq c s.ns hf]

end Sys2Proof.Machine

open Sys2Proof Sys2Proof.Machine

/-- Settles O19: every row is `runCore` of its operation, so the guard and the record of a wait decide for all alike. -/
theorem guardedOffInstructions : Obligations.GuardedOffInstructions := by
  unfold Obligations.GuardedOffInstructions
  intro s id g o hok c gp skip hr he
  refine ⟨fun w hheld p hp => ?_, fun hheld hue hill hclaim hmark hguard => ⟨fun hf p hp hop hl => ?_, ?_⟩⟩
  · have run := coreRows_run id g o
    rw [run s p hp, run (s.takeUp id) p hp]
    exact runCore_held p.2 id g o s w hok hr he hheld
  · rw [coreRows_run id g o s p hp, runCore_off p.2 id g o s hok hr he hheld hue hill hclaim hmark hguard hl,
      coreRows_off id g o c p hp hop, retire_seq s id c hf]
  · intro h0 hlen hdest hend
    have hl : opLoop.legal o = true := opLoop_legal h0 fun h => hlen (BitVec.eq_of_toNat_eq h)
    exact (runCore_off opLoop id g o s hok hr he hheld hue hill hclaim hmark hguard hl).trans
      (congrArg _ (retire_skip c _ hdest hend))

end

section
/-!
PROOFS. What the instructions of the cell core leave unchanged: for each, the destinations its masks and its body name, from
which the frame of the run follows.
-/

namespace Sys2Proof.Machine.CoreFrame

/-- An operation that reads no memory, goes on to the next instruction, and claims the masks `ws` and `wp` for writing. -/
structure Direct (op : CoreOp) (o : BitVec 22) (ws : BitVec 32) (wp : BitVec 8) : Prop where
  ws : op.ws o = ws
  wp : op.wp o = wp
  off : ∀ c, op.off o c = .seq
  touch : ∀ c, op.touch o c = ([], [])

section
variable (s u : State) (id : CellId) (o : BitVec 22)

/-! ### Bodies that write one register file -/

section
variable {op : CoreOp}

/-- A body that always completes and changes only what `d` names of its cell. -/
theorem Direct.ok {d : CoreDest} (h : Direct op o 0 0) (f : CoreEnv → CellState → CellState)
    (hb : ∀ env c, op.body env o c = .done (f env c) .seq) (hk : ∀ env (c : CellState), c.KeepsBut (f env c) d)
    (hmem : ∀ env c, (f env c).dmem = c.dmem ∧ (f env c).store = c.store ∧ (f env c).core.loops = c.core.loops ∧
      (f env c).core.pc = c.core.pc) : Ok op o id d true u := by
  refine okN h.ws h.wp (fun _ => h.off) h.touch fun env c => ?_
  rw [hb]
  exact ⟨hk env c, fun _ => ⟨rfl, hmem env c⟩⟩

theorem Direct.okS (h : Direct op o (bit5 (fD o)) 0) (x : CoreEnv → CellState → Word)
    (hb : ∀ env c, op.body env o c = .done (c.setS (fD o) (x env c)) .seq) : Ok op o id { s := [fD o] } true u :=
  CoreFrame.okS h.ws h.wp h.off h.touch fun env c => ⟨x env c, .inl (hb env c)⟩

theorem Direct.okP (h : Direct op o 0 (bit3 (fPD o))) (x : CellState → Bool)
    (hb : ∀ env c, op.body env o c = .done (c.setP (fPD o) (x c)) .seq) : Ok op o id { p := [fPD o] } true u :=
  CoreFrame.okP h.ws h.wp h.off h.touch fun env c => ⟨x c, hb env c⟩

theorem Direct.okA (h : Direct op o 0 0) (x : CellState → AReg)
    (hb : ∀ env c, op.body env o c = .done (c.setA (fAD o) (x c)) .seq) : Ok op o id { a := [fAD o] } true u :=
  h.ok u id o (fun _ c => c.setA (fAD o) (x c)) hb (fun _ c => setA_keeps c _ _ _ List.mem_cons_self)
    fun _ _ => ⟨rfl, rfl, rfl, rfl⟩

theorem Direct.okT (h : Direct op o 0 0) (x : CellState → QWord)
    (hb : ∀ env c, op.body env o c = .done (c.setT (fAD o) (x c)) .seq) : Ok op o id { t := [fAD o] } true u :=
  h.ok u id o (fun _ c => c.setT (fAD o) (x c)) hb (fun _ c => setT_keeps c _ _ _ List.mem_cons_self)
    fun _ _ => ⟨rfl, rfl, rfl, rfl⟩

theorem Direct.okLc (h : Direct op o 0 0) (x : CellState → Word)
    (hb : ∀ env c, op.body env o c = .done (c.setLc (fTop2 o) (x c)) .seq) : Ok op o id { lc := [fTop2 o] } true u :=
  h.ok u id o (fun _ c => c.setLc (fTop2 o) (x c)) hb (fun _ c => setLc_keeps c _ _ _ List.mem_cons_self)
    fun _ _ => ⟨rfl, rfl, rfl, rfl⟩

end

/-- LGET writes sD, or raises an exception for a level that does not exist. -/
theorem ok_lget : Ok opLget o id { s := [fD o] } true u := by
  refine okS rfl rfl (fun _ => rfl) (fun _ => rfl) fun env c => ?_
  rcases h : c.core.loops[(o.extractLsb' 15 2 : BitVec 2).toNat]? with _ | e
  · exact ⟨0, .inr ⟨0x08, by simp only [opLget, h]⟩⟩
  · exact ⟨e.hc, .inl (by simp only [opLget, h])⟩

/-- RDLT writes a pair of s registers (R120). -/
theorem ok_rdlt : Ok opRdlt o id { s := [fD o, fD o + 1] } true u := by
  have hmask (r : BitVec 5) (hr : r ∉ [fD o, fD o + 1]) : (opRdlt.ws o).getLsbD r.toNat = false := by
    simp only [List.mem_cons, List.not_mem_nil, or_false, not_or] at hr
    obtain ⟨hlow, hhigh⟩ := hr
    show (bit5 (fD o) ||| bit5 (fD o + 1)).getLsbD r.toNat = false
    rw [BitVec.getLsbD_or, bit5_other _ _ hlow, bit5_other _ _ hhigh]
    rfl
  refine ok_plain hmask (none3 _) (fun _ _ => rfl) (fun _ => rfl) fun env c => ⟨?_, fun _ => ⟨rfl, rfl, rfl, rfl, rfl⟩⟩
  exact keeps_trans (setS_keeps c _ _ _ List.mem_cons_self)
    (setS_keeps _ _ _ _ (List.mem_cons_of_mem _ List.mem_cons_self))

/-- SIG writes its semaphore, or faults the cell when the count would pass 0xFFFF (R65). -/
theorem ok_sig : Ok opSig o id { sem := [fD o] } true u := by
  refine okN rfl rfl (fun _ _ => rfl) (fun _ => rfl) fun env c => ?_
  simp only [opSig, CellState.addSem]
  split
  next h =>
    split at h
    · cases h
    · cases h
      exact ⟨setSem_keeps c _ _ _ List.mem_cons_self, fun _ => ⟨rfl, rfl, rfl, rfl, rfl⟩⟩
  next => trivial

/-! ### Loops and branches -/

/-- A body without written registers keeps the cell but for its fetch state. -/
theorem ok_fetch {op : CoreOp} (hws : op.ws o = 0) (hwp : op.wp o = 0) (ht : ∀ c, op.touch o c = ([], []))
    (hb : ∀ env c, Good c {} false (op.body env o c)) : Ok op o id {} false u :=
  okN hws hwp (fun h => nomatch h) ht hb

/-- A completed body that replaces the loop stack at most. -/
theorem good_loops (c : CellState) (l : List LoopEntry) (f : Flow) : Good c {} false (.done (c.setLoops l) f) :=
  ⟨setLoops_keeps c l _, fun h => nomatch h⟩

theorem good_same (c : CellState) (f : Flow) : Good c {} false (.done c f) :=
  ⟨keeps_refl c _, fun h => nomatch h⟩

theorem good_exc (c : CellState) (code : BitVec 8) : Good c {} false (.exc code) := trivial

theorem good_ite (c : CellState) (p : Prop) [Decidable p] {r r' : CoreResult} (h : Good c {} false r)
    (h' : Good c {} false r') : Good c {} false (if p then r else r') := by
  split
  · exact h
  · exact h'

/-- LOOP skips, raises one of two exceptions, or pushes. -/
theorem ok_loop : Ok opLoop o id {} false u :=
  ok_fetch u id o rfl rfl (fun _ => rfl) fun _ c => good_ite c _ (good_same c _)
    (good_ite c _ (good_exc c _) (good_ite c _ (good_exc c _) (good_loops c _ _)))

theorem ok_lset : Ok opLset o id {} false u :=
  ok_fetch u id o rfl rfl (fun _ => rfl) fun _ c => good_ite c _ (good_loops c _ _) (good_exc c _)

theorem ok_lbrk : Ok opLbrk o id {} false u :=
  ok_fetch u id o rfl rfl (fun _ => rfl) fun _ c => good_ite c _ (good_loops c _ _) (good_exc c _)

theorem ok_br : Ok opBr o id {} false u :=
  ok_fetch u id o rfl rfl (fun _ => rfl) fun _ c => branch_good c _ _

theorem ok_jr : Ok opJr o id {} false u :=
  ok_fetch u id o rfl rfl (fun _ => rfl) fun _ c => good_ite c _ (good_exc c _) (good_same c _)

theorem ok_bz : Ok opBz o id {} false u :=
  ok_fetch u id o rfl rfl (fun _ => rfl) fun _ c => good_ite c _ (branch_good c _ _) (good_same c _)

theorem ok_bnz : Ok opBnz o id {} false u :=
  ok_fetch u id o rfl rfl (fun _ => rfl) fun _ c => good_ite c _ (branch_good c _ _) (good_same c _)

/-- A branch is taken, or raises FETCH_RANGE (R102). -/
theorem branchTo_cases (c : CellState) (off : Int) (pops : Bool) :
    (∃ dest, branchTo c off pops = .done c (.jump dest pops)) ∨ branchTo c off pops = .exc 0x02 := by
  simp only [branchTo]
  split
  · exact .inr rfl
  · exact .inl ⟨_, rfl⟩

/-- CALL links to s31. -/
theorem ok_call : Ok opCall o id { s := [31] } false u := by
  refine ok_plain (one5 _ _ List.mem_cons_self) (none3 _) (fun h => nomatch h) (fun _ => rfl) fun env c => ?_
  rcases branchTo_cases c o.toInt false with ⟨dest, h⟩ | h
  · simp only [opCall, h]
    exact ⟨setS_keeps c _ _ _ List.mem_cons_self, fun h => nomatch h⟩
  · simp only [opCall, h]
    trivial

/-! ### Loads and stores -/

/-- A scalar load writes sD and its base. -/
theorem ok_loadOp (op : BitVec 6) (n : Nat) (ext : Nat → Word) :
    Ok (loadOp op n ext) o id { s := [fD o], a := [fBase o] } true u :=
  okLoad (n := n) (fun c v => c.setS (fD o) (ext v)) (one5 _ _ List.mem_cons_self) rfl (fun _ => rfl) (fun _ => rfl)
    (fun _ _ => rfl) List.mem_cons_self fun c _ => ⟨setS_keeps c _ _ _ List.mem_cons_self, rfl, rfl, rfl, rfl⟩

theorem ok_lda : Ok opLda o id { a := [fBase o, fAD o] } true u :=
  okLoad (n := 8) (fun c v => c.setAddr (fAD o) (BitVec.ofNat 40 v)) (none5 _) rfl (fun _ => rfl) (fun _ => rfl)
    (fun _ _ => rfl) List.mem_cons_self fun c _ =>
      ⟨setA_keeps c _ _ _ (List.mem_cons_of_mem _ List.mem_cons_self), rfl, rfl, rfl, rfl⟩

theorem ok_tld : Ok opTld o id { a := [fBase o], t := [fAD o] } true u :=
  okLoad (n := 16) (fun c v => c.setT (fAD o) (BitVec.ofNat 128 v)) (none5 _) rfl (fun _ => rfl) (fun _ => rfl)
    (fun _ _ => rfl) List.mem_cons_self fun c _ => ⟨setT_keeps c _ _ _ List.mem_cons_self, rfl, rfl, rfl, rfl⟩

/-- The bytes a store of `n` bytes writes. -/
def storedBytes (c : CellState) (o : BitVec 22) (n : Nat) : Nat → Prop :=
  fun x => (memAddr c o n).1.toNat ≤ x ∧ x < (memAddr c o n).1.toNat + n

/-- A scalar store writes its base and its bytes. -/
theorem ok_storeOp (op : BitVec 6) (n : Nat) (hn : n = 1 ∨ n = 2 ∨ n = 4 ∨ n = 8 ∨ n = 16)
    (ha : (u.cell id).core.a = (s.cell id).core.a) :
    Ok (storeOp op n) o id { a := [fBase o], bytes := storedBytes (s.cell id) o n } false u :=
  okStore (s0 := s) (fun c => (c.sReg (fD o)).toNat) hn rfl rfl (fun _ => storeTouch_nil _ _) (fun _ _ => rfl)
    List.mem_cons_self rfl ha

theorem ok_sta (ha : (u.cell id).core.a = (s.cell id).core.a) :
    Ok opSta o id { a := [fBase o], bytes := storedBytes (s.cell id) o 8 } false u :=
  okStore (s0 := s) (fun c => (c.aReg (fAD o)).addr.toNat) (by decide) rfl rfl (fun _ => ⟨[], rfl⟩) (fun _ _ => rfl)
    List.mem_cons_self rfl ha

theorem ok_tst (ha : (u.cell id).core.a = (s.cell id).core.a) :
    Ok opTst o id { a := [fBase o], bytes := storedBytes (s.cell id) o 16 } false u :=
  okStore (s0 := s) (fun c => (c.tReg (fAD o)).toNat) (by decide) rfl rfl (fun _ => ⟨[], rfl⟩) (fun _ _ => rfl)
    List.mem_cons_self rfl ha

end

end Sys2Proof.Machine.CoreFrame

open Sys2Proof Sys2Proof.Machine Sys2Proof.Machine.CoreFrame

/-- Settles O21: every row is a run whose destinations its `Ok` lemma names; `pl` and `kp` give the frame of the run. -/
theorem coreFrames : Obligations.CoreFrames := by
  unfold Obligations.CoreFrames
  intro s t id g o c keeps plain stored
  have frame {d : CoreDest} (op : CoreOp) (i : Instr) (hrun : exec i s = runCore op id g o s)
      (h : ∀ u, Ok op o id d true u) : plain i d := by
    show (exec i s = _ → _) ∧ (exec i s = _ → _)
    rw [hrun]
    exact pl s t (fun u _ => h u) g
  have moves {d : CoreDest} (op : CoreOp) (i : Instr) (hrun : exec i s = runCore op id g o s)
      (h : ∀ u : State, (u.cell id).core.a = (s.cell id).core.a → Ok op o id d false u) : keeps i d := by
    show exec i s = _ → _
    rw [hrun]
    exact kp s t h g
  -- Rows that write one register file of the cell and cannot do otherwise.
  have sreg {x : CoreEnv → CellState → Word} (op : CoreOp) (i : Instr) (hrun : exec i s = runCore op id g o s)
      (h : Direct op o (bit5 (fD o)) 0) (hb : ∀ env c, op.body env o c = .done (c.setS (fD o) (x env c)) .seq) :=
    frame op i hrun fun u => h.okS u id o x hb
  have preg {x : CellState → Bool} (op : CoreOp) (i : Instr) (hrun : exec i s = runCore op id g o s)
      (h : Direct op o 0 (bit3 (fPD o))) (hb : ∀ env c, op.body env o c = .done (c.setP (fPD o) (x c)) .seq) :=
    frame op i hrun fun u => h.okP u id o x hb
  have areg {x : CellState → AReg} (op : CoreOp) (i : Instr) (hrun : exec i s = runCore op id g o s)
      (h : Direct op o 0 0) (hb : ∀ env c, op.body env o c = .done (c.setA (fAD o) (x c)) .seq) :=
    frame op i hrun fun u => h.okA u id o x hb
  have treg {x : CellState → QWord} (op : CoreOp) (i : Instr) (hrun : exec i s = runCore op id g o s)
      (h : Direct op o 0 0) (hb : ∀ env c, op.body env o c = .done (c.setT (fAD o) (x c)) .seq) :=
    frame op i hrun fun u => h.okT u id o x hb
  have lcreg {x : CellState → Word} (op : CoreOp) (i : Instr) (hrun : exec i s = runCore op id g o s)
      (h : Direct op o 0 0) (hb : ∀ env c, op.body env o c = .done (c.setLc (fTop2 o) (x c)) .seq) :=
    frame op i hrun fun u => h.okLc u id o x hb
  have load (op : BitVec 6) (n : Nat) (ext : Nat → Word) (i : Instr)
      (hrun : exec i s = runCore (loadOp op n ext) id g o s) :=
    frame _ i hrun fun u => ok_loadOp u id o op n ext
  have store (op : BitVec 6) (n : Nat) (i : Instr) (hrun : exec i s = runCore (storeOp op n) id g o s)
      (hn : n = 1 ∨ n = 2 ∨ n = 4 ∨ n = 8 ∨ n = 16) : keeps i { a := [fBase o], bytes := stored n } :=
    moves _ i hrun fun u ha => ok_storeOp s u id o op n hn ha
  simp only [List.forall_mem_cons, List.not_mem_nil, false_imp_iff, implies_true, and_true]
  refine ⟨?_, frame _ _ rfl fun u => ok_rdlt u id o, ?_, ?_, ?_, ?_, ?_, frame _ _ rfl fun u => ok_sig u id o, ?_,
    moves _ _ rfl fun u _ => ok_call u id o, ?_, frame _ _ rfl fun u => ok_lda u id o,
    frame _ _ rfl fun u => ok_tld u id o, store 0x16 1 _ rfl (by decide), store 0x17 2 _ rfl (by decide),
    store 0x18 4 _ rfl (by decide), moves _ _ rfl fun u ha => ok_sta s u id o ha,
    moves _ _ rfl fun u ha => ok_tst s u id o ha⟩
  · refine ⟨sreg opAlu _ rfl ?_ fun _ _ => rfl, sreg opAddi _ rfl ?_ fun _ _ => rfl,
      sreg opAndi _ rfl ?_ fun _ _ => rfl, sreg opOri _ rfl ?_ fun _ _ => rfl, sreg opXori _ rfl ?_ fun _ _ => rfl,
      sreg opSlli _ rfl ?_ fun _ _ => rfl, sreg opSrli _ rfl ?_ fun _ _ => rfl, sreg opSrai _ rfl ?_ fun _ _ => rfl,
      sreg opLi _ rfl ?_ fun _ _ => rfl, sreg opLih _ rfl ?_ fun _ _ => rfl, sreg opSel _ rfl ?_ fun _ _ => rfl,
      sreg opPtos _ rfl ?_ fun _ _ => rfl, sreg opAto _ rfl ?_ fun _ _ => rfl, sreg opTget _ rfl ?_ fun _ _ => rfl,
      frame _ _ rfl fun u => ok_lget u id o, sreg opSemrd _ rfl ?_ fun _ _ => rfl, sreg opMfs _ rfl ?_ fun _ _ => rfl⟩
    all_goals exact ⟨rfl, rfl, fun _ => rfl, fun _ => rfl⟩
  · refine ⟨preg opCmp _ rfl ?_ fun _ _ => rfl, preg opCmpi _ rfl ?_ fun _ _ => rfl,
      preg opPlog _ rfl ?_ fun _ _ => rfl, preg opPfroms _ rfl ?_ fun _ _ => rfl⟩
    all_goals exact ⟨rfl, rfl, fun _ => rfl, fun _ => rfl⟩
  · refine ⟨areg opAadd _ rfl ?_ fun _ _ => rfl, areg opAaddi _ rfl ?_ fun _ _ => rfl,
      areg opAfrom _ rfl ?_ fun _ _ => rfl, areg opAstr _ rfl ?_ fun _ _ => rfl,
      areg opAstri _ rfl ?_ fun _ _ => rfl, areg opAmov _ rfl ?_ fun _ _ => rfl⟩
    all_goals exact ⟨rfl, rfl, fun _ => rfl, fun _ => rfl⟩
  · refine ⟨treg opTofs _ rfl ?_ fun _ _ => rfl, treg opTadv _ rfl ?_ fun _ _ => rfl,
      treg opTset _ rfl ?_ fun _ _ => rfl⟩
    all_goals exact ⟨rfl, rfl, fun _ => rfl, fun _ => rfl⟩
  · refine ⟨lcreg opLcset _ rfl ?_ fun _ _ => rfl, lcreg opLci _ rfl ?_ fun _ _ => rfl⟩
    all_goals exact ⟨rfl, rfl, fun _ => rfl, fun _ => rfl⟩
  · exact frame opNop _ rfl fun u => Direct.ok u id o ⟨rfl, rfl, fun _ => rfl, fun _ => rfl⟩ (fun _ c => c)
      (fun _ _ => rfl) (fun _ c => keeps_refl c _) fun _ _ => ⟨rfl, rfl, rfl, rfl⟩
  · exact ⟨moves _ _ rfl fun u _ => ok_loop u id o, moves _ _ rfl fun u _ => ok_lset u id o,
      moves _ _ rfl fun u _ => ok_lbrk u id o, moves _ _ rfl fun u _ => ok_br u id o,
      moves _ _ rfl fun u _ => ok_jr u id o, moves _ _ rfl fun u _ => ok_bz u id o,
      moves _ _ rfl fun u _ => ok_bnz u id o⟩
  · exact ⟨load 0x11 1 _ _ rfl, load 0x12 1 _ _ rfl, load 0x13 2 _ _ rfl, load 0x14 2 _ _ rfl, load 0x15 4 _ _ rfl⟩

end

section
/-!
PROOFS. The ends of tasks (R340 to R346, R372 to R374): fault reports, stopped members, ENQ requests, the end or re-run of
a task, and its completion record.
-/

namespace Sys2Proof.Machine

/-- Dispatcher firmware runs whenever the dispatcher does (R358). -/
theorem fwUp_of_dispRuns {s : State} (h : s.dispRuns = true) : s.hif.fwUp = true := by
  simp only [State.dispRuns, Bool.and_eq_true] at h
  obtain ⟨⟨_, hfw⟩, _⟩ := h
  exact hfw

/-! ### Stopped members (R341) -/

section
variable {s : State} {id : CellId}

/-- A cell that waits in no ENQ has no request to discard (R116). -/
theorem dropEnq_of_none (he : (s.cell id).core.enq = none) : s.dropEnq id = s := by
  simp only [State.dropEnq, he]

theorem stopCell_of_works (he : (s.cell id).core.enq = none) (h : (s.cell id).st = .running ∨ (s.cell id).st = .halted) :
    s.stopCell id = (s.setCell id ((s.cell id).clear .idle)).colSettle := by
  simp only [State.stopCell, if_pos h, dropEnq_of_none he]

theorem stopMember_of_ending (h : ∃ t ∈ s.dsp.tasks, t.stage = .ending ∧ id ∈ t.cells) : s.stopMember id = s.stopCell id := by
  refine if_pos ?_
  obtain ⟨t, ht, hstage, hmem⟩ := h
  refine List.any_eq_true.2 ⟨t, ht, ?_⟩
  rw [hstage, List.contains_iff_mem.2 hmem]
  rfl

/-- The signal box of a member of a task that is ending stops the member. -/
theorem exec_memberStop (hok : cellOk id = true) (hbox : s.boxRuns (boxOf id) = true)
    (h : ∃ t ∈ s.dsp.tasks, t.stage = .ending ∧ id ∈ t.cells) :
    exec (.memberStop id) s = .next (s.stopCell id) :=
  exec_of_withCell (f := fun s => if s.boxRuns (boxOf id) then s.stopMember id else s) rfl hok
    ((if_pos hbox).trans (stopMember_of_ending h))

end

/-! ### ENQ (R115, R116, R346, R347) -/

/-- The dispatcher answers the ENQ a cell waits in. -/
def State.enqAnswered (s : State) (id : CellId) (c : CellState) (w : EnqWait) (a : EnqAnswer) : State :=
  ({ s with dsp := { s.dsp with idle := false } } : State).setCell id
    { c with core := { c.core with enq := some { w with answer := some a } } }

/-- The dispatcher refuses an ENQ for a reason and counts it (R346, R353). -/
def State.enqDenied (s : State) (id : CellId) (w : EnqWait) (reason : Nat) : State :=
  State.enqAnswered { s with dsp := { s.dsp with enqRefused := countRefused s.dsp.enqRefused reason } } id (s.cell id) w
    ⟨false, BitVec.ofNat 32 reason⟩

/-- The tasks after the task of a cell made one: the tree pays a credit, the maker has enqueued, and the new task waits
in the device-made queue (R346, R347). -/
def State.enqTasks (s : State) (id : CellId) (w : EnqWait) (t : Task) : List Task :=
  (s.dsp.tasks.map fun k =>
    let k1 := if k.id = t.root then { k with credits := k.credits - 1 } else k
    if k1.id = (s.cell id).task.id.toNat then { k1 with enqed := true } else k1) ++
  [{ Task.new (nextId s.dsp.lastTask).toNat (TaskEntry.ofBytes w.entry) 64 (s.cell id).task.id.toNat t.root .dmq 0 with
      credits := 0 }]

/-- The dispatcher accepts an ENQ with the next task ID (R330, R346). -/
def State.enqAccepted (s : State) (id : CellId) (w : EnqWait) (t : Task) : State :=
  State.enqAnswered { s with dsp := { s.dsp with tasks := s.enqTasks id w t, lastTask := nextId s.dsp.lastTask } } id
    (s.cell id) w ⟨true, nextId s.dsp.lastTask⟩

/-- The dispatcher takes a request once, while it runs and the cell does (R116). -/
theorem request_open {s : State} {id : CellId} {w : EnqWait} (hr : (s.cell id).st = .running) (ha : w.answer = none)
    (hfw : s.hif.fwUp = true) : ¬ (w.answer.isSome = true ∨ ¬ s.hif.fwUp = true ∨ (s.cell id).st ≠ .running) := by
  simp [hr, ha, hfw]

section
variable {s : State} {id : CellId} {w : EnqWait} (he : (s.cell id).core.enq = some w)
include he

section
variable (hr : (s.cell id).st = .running) (ha : w.answer = none) (hfw : s.hif.fwUp = true)
include hr ha hfw

/-- While the dispatcher starts no tasks it refuses with reason 3, before it looks at credits. -/
theorem answerEnq_not_starting (h : s.starting = false) : s.answerEnq id = s.enqDenied id w 3 := by
  have hno : ¬ s.starting = true := by simp [h]
  unfold State.answerEnq
  simp only [he]
  rw [if_neg (request_open hr ha hfw), if_pos hno]
  rfl

/-- The conditions of R346 after the first: a credit of the tree, then room in the device-made queue. -/
theorem answerEnq_starting {t k : Task} (hst : s.starting = true) (ht : s.task (s.cell id).task.id.toNat = some t)
    (hk : s.task t.root = some k) : s.answerEnq id =
      if k.credits = 0 then s.enqDenied id w 1
      else if s.dsp.depth ≤ (s.dsp.tasks.filter fun t => t.stage == .dmq).length then s.enqDenied id w 2
      else (s.enqAccepted id w t).undefinedIf !(TaskEntry.ofBytes w.entry).formed true (s.hif.feat 2) := by
  unfold State.answerEnq
  simp only [he, ht, hk, Option.map_some, Option.getD_some]
  rw [if_neg (request_open hr ha hfw), if_neg (not_not_intro hst)]
  rfl

end

theorem observeEnq_answered {a : EnqAnswer} (ha : w.answer = some a) (hr : (s.cell id).st = .running)
    (h : s.ns ≤ w.issued + 10000) : s.observeEnq id = s.finishEnq id w a.ok a.value := by
  simp only [State.observeEnq, he, ha, if_pos (And.intro h hr)]

theorem observeEnq_unanswered (ha : w.answer = none) : s.observeEnq id = s := by
  simp only [State.observeEnq, he, ha]

theorem timeoutEnq_late (hr : (s.cell id).st = .running) (h : w.issued + 10000 < s.ns) :
    s.timeoutEnq id = ({ s with dsp := s.dsp.discardEnq w } : State).finishEnq id w false 4 := by
  simp only [State.timeoutEnq, he, if_pos (And.intro h hr), State.dropEnq]

end

section
variable {s : State} {id : CellId} (hok : cellOk id = true)
include hok

theorem exec_enqRequest (hrun : s.dispRuns = true) : exec (.enqRequest id) s = .next (s.answerEnq id) :=
  exec_of_withCell (f := fun s => if s.dispRuns ∨ s.dbg.braked then s.answerEnq id else s) rfl hok (if_pos (.inl hrun))

theorem exec_enqAnswer (hbox : s.boxRuns (boxOf id) = true) : exec (.enqAnswer id) s = .next (s.observeEnq id) :=
  exec_of_withCell (f := fun s => if s.boxRuns (boxOf id) then s.observeEnq id else s) rfl hok (if_pos hbox)

/-- Nothing is observed before the answer, whether the signal box runs or not. -/
theorem exec_enqAnswer_unanswered {w : EnqWait} (he : (s.cell id).core.enq = some w) (ha : w.answer = none) :
    exec (.enqAnswer id) s = .next s := by
  refine exec_of_withCell (f := fun s => if s.boxRuns (boxOf id) then s.observeEnq id else s) rfl hok ?_
  simp only [observeEnq_unanswered he ha, ite_self]

theorem exec_enqTimeout (hbox : s.boxRuns (boxOf id) = true) : exec (.enqTimeout id) s = .next (s.timeoutEnq id) :=
  exec_of_withCell (f := fun s => if s.boxRuns (boxOf id) then s.timeoutEnq id else s) rfl hok (if_pos hbox)

end

/-! ### The end of a task (R340 to R345) -/

/-- The flags of a task's members that started, with those of its earlier attempts (R246, R344). -/
def State.flagsOf (s : State) (t : Task) : BitVec 7 :=
  t.ran.foldl (fun f c => f ||| (s.cell c).regs.cmdFlags.setWidth 7) t.flags

/-- A task that ended at the present line time. -/
def State.endedTask (s : State) (t : Task) : Task := { t with stage := .ended, endLt := s.ns, flags := s.flagsOf t }

/-- A task that is run again without the cell it failed on (R343). -/
def State.rerunTask (s : State) (t : Task) : Task :=
  { t with stage := .ready, cells := [], loaded := [], ran := [], left := [], named := [], attempt := t.attempt + 1
           excluded := t.excluded ++ [t.suspect.getD 0x7FF], status := 0, suspect := none, faultCell := 0x7FF
           faultSeq := 0, flags := s.flagsOf t, rank := -(s.dsp.ranks : Int) - 1 }

section
variable {s : State} {t : Task}

/-- A task that ended OK is not run again (R343). -/
theorem reruns_of_ok (h : t.status = 0) : s.reruns t = false := by
  simp [State.reruns, h, tsCheck, tsFault]

theorem modTask_single (h : s.dsp.tasks = [t]) (u : Task) :
    s.modTask t.id (fun _ => u) = { s with dsp := { s.dsp with tasks := [u] } } := by
  simp only [State.modTask, State.modTasks, h, List.map_cons, List.map_nil, if_true]

/-- A host task that is its whole tree leaves with its record (R344, R345). -/
theorem closeTree_single (h : s.dsp.tasks = [t]) (hroot : t.root = t.id) (hend : t.stage = .ended) (hok : t.status = 0)
    (hdesc : t.descFail = false) (hmute : t.mute = false) : s.closeTree t.root =
      { s with dsp := { s.dsp with tasks := [], recs := s.dsp.recs ++ [(t.source, t.record 0 (0 ||| t.flags) false)] } } := by
  have hfind : s.task t.root = some t := by
    simp only [State.task, h, hroot, List.find?_cons, decide_true]
  simp only [State.closeTree, hfind, h, hend, hok, hdesc, hmute, List.filter_cons, List.filter_nil, beq_self_eq_true,
    bne_self_eq_false, if_true, if_false, List.all_cons, List.all_nil, Bool.and_self, and_self, ne_eq, not_true,
    Bool.false_eq_true, List.foldl_cons, List.foldl_nil]

/-- The only task, a host task that ended OK, leaves the dispatcher (R340, R344). -/
theorem finishTask_ok (h : s.dsp.tasks = [t]) (hid : t.root = t.id) (hparent : t.parent = 0) (hmute : t.mute = false)
    (hdesc : t.descFail = false) : s.finishTask { t with status := 0 } =
      { s with dsp := { s.dsp with
          tasks := []
          recs := s.dsp.recs ++
            [(t.source, (s.endedTask { t with status := 0 }).record 0 (0 ||| s.flagsOf t) false)] } } := by
  have hmod := modTask_single h (s.endedTask { t with status := 0 })
  have hre : ¬ s.reruns { t with status := 0 } = true := by simp [reruns_of_ok]
  have hquiet : ({ t with status := 0 } : Task).status = 0 ∨ ({ t with status := 0 } : Task).mute = true := .inl rfl
  have hclose := closeTree_single (s := s.modTask t.id fun _ => s.endedTask { t with status := 0 })
    (t := s.endedTask { t with status := 0 }) (by rw [hmod]) hid rfl rfl hdesc hmute
  calc s.finishTask { t with status := 0 }
      = (s.modTask t.id fun _ => s.endedTask { t with status := 0 }).closeTree t.root :=
        (if_neg hre).trans ((if_pos hparent).trans (congrArg (fun u : State => u.closeTree t.root) (if_pos hquiet)))
    _ = _ := hclose.trans (by rw [hmod]; rfl)

/-- The only task, when a re-run is due, goes back to the ready list (R343). -/
theorem finishTask_rerun (h : s.dsp.tasks = [t]) (hre : s.reruns t = true) : s.finishTask t =
    ({ s with dsp := { s.dsp with tasks := [s.rerunTask t], ranks := s.dsp.ranks + 1 } } : State).raise
      0x0502 .warning [(4, t.id), (2, (t.suspect.getD 0x7FF).toNat), (1, t.attempt + 1)] :=
  (if_pos hre).trans (congrArg (fun u : State => State.raise
    { u with dsp := { u.dsp with ranks := u.dsp.ranks + 1 } } 0x0502 .warning
    [(4, t.id), (2, (t.suspect.getD 0x7FF).toNat), (1, t.attempt + 1)]) (modTask_single h (s.rerunTask t)))

/-- No phase is learned while the task stays, and none of tag 0 (R484). -/
theorem exec_taskEnd {id : BitVec 32} (hrun : s.dispRuns = true) (ht : s.task id.toNat = some t)
    (hphase : t.entry.phase = 0) : exec (.taskEnd id) s = .next (s.endTask id.toNat) := by
  have hlearn (u : State) : u.learn t.entry.phase = u := if_pos (.inl hphase)
  show execTaskEnd id s = _
  simp only [execTaskEnd, hrun, if_true, ht, hlearn, ite_self]

section
variable {id : Nat} (ht : s.task id = some t) (hleft : s.membersLeft t = false)
include ht hleft

theorem endTask_halted (hstage : t.stage = .running) (h : t.left = []) :
    s.endTask id = s.finishTask { t with status := 0 } := by
  simp only [State.endTask, ht, hleft, hstage, h, Bool.false_eq_true, reduceCtorEq, and_self, if_false, if_true]

theorem endTask_running (hstage : t.stage = .running) (h : t.left ≠ []) : s.endTask id = s := by
  simp only [State.endTask, ht, hleft, hstage, h, Bool.false_eq_true, reduceCtorEq, and_false, if_false]

theorem endTask_ending (hstage : t.stage = .ending) : s.endTask id = s.finishTask t := by
  simp only [State.endTask, ht, hleft, hstage, Bool.false_eq_true, if_false, if_true]

end

end

/-! ### Completion records (R372 to R374) -/

section
variable {s : State} {q : Nat} {r : CplRec} {rest : List (Nat × CplRec)} (h : s.dsp.recs = (q, r) :: rest)
  (hrun : s.dispRuns = true) (hidle : s.writing q = false)
include h hrun hidle

/-- The first record of a queue leaves the dispatcher's list: with its queue, to the overflow ring, or to the host. -/
theorem writeRecord_first : s.writeRecord q =
    let s1 : State := { s with dsp := { s.dsp with recs := rest } }
    let k := s.queue q
    if ¬ k.exists' then s1
    else if k.state = .haltedCpl ∨ k.ring ≠ [] ∨ k.waiting ≠ [] ∨ k.cqFull then (s1.holdRecord q r).drainRing q
    else s1.issueRecord q r false := by
  have hfind : (s.dsp.recs.find? fun r => r.1 = q) = some (q, r) := by
    simp only [h, List.find?_cons, decide_true]
  have herase : (s.dsp.recs.eraseP fun r => r.1 = q) = rest := by
    rw [h, List.eraseP_cons_of_pos (by simp)]
  simp only [State.writeRecord, hfind, herase, hrun, hidle, Bool.false_eq_true, not_true, or_self, if_false]

theorem writeRecord_issues (hex : (s.queue q).exists' = true) (hst : (s.queue q).state ≠ .haltedCpl)
    (hring : (s.queue q).ring = []) (hwait : (s.queue q).waiting = []) (hfull : (s.queue q).cqFull = false) :
    s.writeRecord q = State.issueRecord { s with dsp := { s.dsp with recs := rest } } q r false := by
  rw [writeRecord_first h hrun hidle]
  simp only [hex, hst, hring, hwait, hfull, Bool.false_eq_true, not_true, ne_eq, or_self, if_false]

theorem writeRecord_holds (hex : (s.queue q).exists' = true) (hst : (s.queue q).state = .haltedCpl)
    (hroom : (s.queue q).ring.length < 4096) (hwait : (s.queue q).waiting = []) :
    s.writeRecord q = (State.modQueue { s with dsp := { s.dsp with recs := rest } } q
      fun k => { k with ring := k.ring ++ [r] }).drainRing q := by
  have hhold : State.holdRecord { s with dsp := { s.dsp with recs := rest } } q r =
      State.modQueue { s with dsp := { s.dsp with recs := rest } } q fun k => { k with ring := k.ring ++ [r] } :=
    if_pos ⟨hroom, hwait⟩
  rw [writeRecord_first h hrun hidle]
  simp only [hex, hst, hhold, not_true, true_or, if_false, if_true]

end

/-- The answer to a record write within 1,000,000 ns lands the record (R374, R376). -/
theorem writeCompleted_lands {s : State} {q : Nat} {w : RecWrite} (hq : q ≠ 64)
    (hw : (s.hif.writes.find? fun w => w.queue = q) = some w) (hup : s.hostUp = true) (htime : s.ns ≤ w.issued + 1000000) :
    s.writeCompleted q = State.recordLanded { s with
      hif := { s.hif with writes := s.hif.writes.eraseP fun w => w.queue = q }
      mem := s.mem.writeHost w.addr (w.data.map fun b => (b, false)) } w := by
  simp only [State.writeCompleted, hw, hup, Nat.not_lt.2 htime, hq, not_true, or_self, if_false]

end Sys2Proof.Machine

open Sys2Proof Sys2Proof.Machine

/-- Settles O39: each row by what its operation does in the case the clause names. -/
theorem taskEndsFaultsAndRecords : Obligations.TaskEndsFaultsAndRecords := by
  unfold Obligations.TaskEndsFaultsAndRecords
  refine ⟨?_, ?_, ?_⟩
  · intro s id hok c
    refine ⟨fun hrun hst hrep => ?_, fun hbox htask he => ⟨fun h => ?_, fun h1 h2 => ?_⟩, fun w he hr => ?_⟩
    · exact exec_of_withCell (f := fun s => if s.dispRuns then s.takeFault id else s) rfl hok
        ((if_pos hrun).trans (if_pos ⟨hst, hrep, fwUp_of_dispRuns hrun⟩))
    · rw [exec_memberStop hok hbox htask, stopCell_of_works he h]
    · rw [exec_memberStop hok hbox htask]
      exact congrArg _ (if_neg (not_or_intro h1 h2))
    intro answered refused e
    refine ⟨fun ha hrun => ⟨fun hst => ?_, fun t k ht hk hst => ?_⟩, fun a ha htime hbox => ?_,
      exec_enqAnswer_unanswered hok he, fun htime hbox => ?_⟩
    · rw [exec_enqRequest hok hrun, answerEnq_not_starting he hr ha (fwUp_of_dispRuns hrun) hst]
      rfl
    · rw [exec_enqRequest hok hrun, answerEnq_starting he hr ha (fwUp_of_dispRuns hrun) hst ht hk]
      refine ⟨fun h => congrArg _ (if_pos h), fun h1 h2 => congrArg _ ((if_neg h1).trans (if_pos h2)), fun h1 h2 => ?_⟩
      rw [if_neg h1, if_neg (Nat.not_le.2 h2)]
      exact ⟨fun h => congrArg _ (if_neg (by rw [h]; decide)), fun h => congrArg _ (if_pos (by rw [h]; decide))⟩
    · rw [exec_enqAnswer hok hbox, observeEnq_answered he ha hr htime]
    · rw [exec_enqTimeout hok hbox, timeoutEnq_late he hr htime]
  · intro s t id hrun ht hleft flags hone hparent hroot hmute hphase
    have hend := exec_taskEnd hrun ht hphase
    refine ⟨fun hstage hnone hdesc => ?_, fun hstage h => ?_, fun hstage hre => ?_⟩
    · rw [hend, endTask_halted ht hleft hstage hnone, finishTask_ok hone hroot hparent hmute hdesc]
      rfl
    · rw [hend, endTask_running ht hleft hstage h]
    · rw [hend, endTask_ending ht hleft hstage, finishTask_rerun hone hre]
      rfl
  · intro s q k
    refine ⟨fun r rest h hrun hidle => ⟨fun hex => ?_, fun hex hst hring hwait hfull => ?_, fun hex hst hroom hwait => ?_⟩,
      fun w hw _ hup htime hq => ?_⟩
    · refine congrArg Host.Outcome.next ((writeRecord_first h hrun hidle).trans (if_pos ?_))
      rw [hex]
      decide
    · exact congrArg Host.Outcome.next (writeRecord_issues h hrun hidle hex hst hring hwait hfull)
    · exact congrArg Host.Outcome.next (writeRecord_holds h hrun hidle hex hst hroom hwait)
    · have hnum : (q.setWidth 7).toNat = q.toNat := BitVec.toNat_setWidth_of_le (by decide)
      exact congrArg Host.Outcome.next ((congrArg s.writeCompleted hnum).trans (writeCompleted_lands hq hw hup htime))

end

section
/-!
PROOFS. The check beat of the matrix array (R131 to R133, R146 to R155, R184), the start of a retry (R152) and the fill
of a panel (R137, R139).
-/

namespace Sys2Proof.Machine

/-! ### The check beat, cut at the comparison -/

/-- The tile that is compared: the bank of the command, or the tile kept of it, with the upsets of the beat. -/
abbrev CellState.beatTile (c : CellState) (m : MxCmd) (us : List Upset) : MxBank :=
  upsetBank (m.tile.getD (c.mx.bank m.bank)) us

/-- The command with the flags of its comparison and the tile that was compared. -/
abbrev MxCmd.compared (m : MxCmd) (bank : MxBank) : MxCmd :=
  { m with flags := m.flags ||| (checkTile m.cmd m.config bank).flags, tile := m.tile.map fun _ => bank }

/-- What every check beat does, whatever the comparison says: the tile is drained into the cell store (R133), and the
parts of fused commands whose rows it overwrites are spoiled. -/
def State.tileDrained (s : State) (id : CellId) (m : MxCmd) (bank : MxBank) : State :=
  let c := s.cell id
  let mx := if m.tile.isSome then c.mx else c.mx.setBank m.bank bank
  let s0 := s.setCell id { c with store := drainTile m.cmd bank c.store, mx := mx.modCmd m.cmd.seq fun _ => m.compared bank }
  if cFuse m.cmd.word then s0.spoilParts id fun p => rowsMeet m.cmd.d1 p.desc else s0

/-- A matrix command that passed waits for a hand-off place: it keeps its bank and releases its panels (R242). -/
def State.holdChecked (s : State) (id : CellId) (q : QCmd) : State :=
  releasePanels id q (dRows q.d0).toNat
    (s.modCell id fun c => { c with mx := c.mx.modCmd q.seq fun k => { k with checked := true } })

/-- How a comparison with outcome `o` ends the command `m`, which is `m1` after it, with `n` parts handed off before:
the trap goes first (R184), then a passed check completes or waits (R242), and a failed one is retried once unless the
command streams (R152, R154). -/
def State.verdict (s : State) (id : CellId) (m m1 : MxCmd) (o : CheckOut) (n : Nat) : State :=
  let s2 := if o.kind = 0 then s else s.mxMismatch id m o
  if m.trap then s2.cmdFault id 0 1 m.cmd.seq stNanTrap 0
  else if o.kind = 0 then
    if cFuse m.cmd.word ∧ 4 ≤ n then (s2.mxPassed id m1).holdChecked id m.cmd else (s2.mxPassed id m1).mxComplete id m1
  else if mPace m.cmd.word ∧ ¬ isHeld m.cmd then s2.mxFailed id m o true
  else if m.attempt = 1 then s2.mxFailed id m o false
  else s2.modCell id fun c => c.mxRetry m

/-- The oldest command `m` of the array is at its check beat: all its rows are read, it is the oldest of q.mx, and neither
a passed check nor a retry holds it (R131, R152, R242). -/
structure CellState.AtCheckBeat (c : CellState) (m : MxCmd) : Prop where
  oldest : ∃ ms, c.mx.cmds = m :: ms
  started : ∃ r rs, c.qmx.run = r :: rs ∧ r.cmd.seq = m.cmd.seq
  read : spanOf m.cmd ≤ m.rows
  unchecked : m.checked = false
  noRetry : c.mx.retry = false

/-- The check beat of a finished tile is the drain and then the verdict. -/
theorem checkBeat_finished {s : State} {id : CellId} {m : MxCmd} (us : List Upset) (h : (s.cell id).AtCheckBeat m) :
    let bank := (s.cell id).beatTile m us
    checkBeat id us s = (s.tileDrained id m bank).verdict id m (m.compared bank) (checkTile m.cmd m.config bank)
      (s.cell id).handed.length := by
  obtain ⟨⟨ms, hm⟩, ⟨r, rs, hr, hseq⟩, hread, hunchecked, hretry⟩ := h
  have hready : ¬ (m.rows < spanOf m.cmd ∨ m.checked = true ∨ r.cmd.seq ≠ m.cmd.seq ∨ (s.cell id).mx.retry = true) := by
    simp [hseq, hunchecked, hretry, hread]
  simp only [checkBeat, hm, hr, if_neg hready]
  rfl

/-! ### The verdicts -/

section
variable {s : State} {id : CellId} {m m1 : MxCmd} {o : CheckOut} {n : Nat}

/-- A latched NaN of TRAP mode ends the command, whatever the comparison says (R184). -/
theorem verdict_trapped (ht : m.trap = true) : s.verdict id m m1 o n =
    (if o.kind = 0 then s else s.mxMismatch id m o).cmdFault id 0 1 m.cmd.seq stNanTrap 0 :=
  if_pos ht

/-- Without a trap, a passed check completes the command unless its part finds the four places taken (R132, R242). -/
theorem verdict_passed (ht : m.trap = false) (hk : o.kind = 0) : s.verdict id m m1 o n =
    if cFuse m.cmd.word ∧ 4 ≤ n then (s.mxPassed id m1).holdChecked id m.cmd else (s.mxPassed id m1).mxComplete id m1 := by
  simp only [State.verdict, ht, hk, Bool.false_eq_true, if_false, if_true]

/-- Without a trap, a failed check ends a command that streams or that was retried, and retries another (R152 to R154). -/
theorem verdict_mismatched (ht : m.trap = false) (hk : o.kind ≠ 0) : s.verdict id m m1 o n =
    if mPace m.cmd.word ∧ ¬ isHeld m.cmd then (s.mxMismatch id m o).mxFailed id m o true
    else if m.attempt = 1 then (s.mxMismatch id m o).mxFailed id m o false
    else (s.mxMismatch id m o).modCell id fun c => c.mxRetry m := by
  simp only [State.verdict, ht, if_neg hk, Bool.false_eq_true, if_false]

theorem verdict_completes (ht : m.trap = false) (hk : o.kind = 0) (hroom : cFuse m.cmd.word = false ∨ n < 4) :
    s.verdict id m m1 o n = (s.mxPassed id m1).mxComplete id m1 := by
  rw [verdict_passed ht hk, if_neg]
  rintro ⟨hfuse, hfull⟩
  exact hroom.elim (by simp [hfuse]) (Nat.not_lt.2 hfull)

theorem verdict_waits (ht : m.trap = false) (hk : o.kind = 0) (hfuse : cFuse m.cmd.word = true) (hfull : 4 ≤ n) :
    s.verdict id m m1 o n = (s.mxPassed id m1).holdChecked id m.cmd :=
  (verdict_passed ht hk).trans (if_pos ⟨hfuse, hfull⟩)

theorem verdict_unrepeatable (ht : m.trap = false) (hk : o.kind ≠ 0) (hs : (mPace m.cmd.word && !isHeld m.cmd) = true) :
    s.verdict id m m1 o n = (s.mxMismatch id m o).mxFailed id m o true :=
  (verdict_mismatched ht hk).trans (if_pos (by simpa using hs))

/-- A command that does not stream is judged by its attempt alone. -/
theorem verdict_repeatable (ht : m.trap = false) (hk : o.kind ≠ 0) (hs : (mPace m.cmd.word && !isHeld m.cmd) = false) :
    s.verdict id m m1 o n =
      if m.attempt = 1 then (s.mxMismatch id m o).mxFailed id m o false
      else (s.mxMismatch id m o).modCell id fun c => c.mxRetry m :=
  (verdict_mismatched ht hk).trans (if_neg (by simpa using hs))

end

/-! ### The rows of a cell that works (R73) -/

section
variable {s : State} {id : CellId} (hok : cellOk id = true) (hw : (s.cell id).works = true)
include hok hw

theorem exec_mmaCheckBeat_finished {m : MxCmd} (us : List Upset) (h : (s.cell id).AtCheckBeat m) :
    let bank := (s.cell id).beatTile m us
    exec (.mmaCheckBeat id us) s = .next ((s.tileDrained id m bank).verdict id m (m.compared bank)
      (checkTile m.cmd m.config bank) (s.cell id).handed.length) :=
  (withLive_works id s (checkBeat id us) hok hw).trans (congrArg _ (checkBeat_finished us h))

theorem exec_mmaRetryStart_ready (hretry : (s.cell id).mx.retry = true) : exec (.mmaRetryStart id) s =
    .next (settleTail id (streamOn id (s.setCell id { s.cell id with mx := { (s.cell id).mx with retry := false } }))) :=
  (withLive_works id s (retryStart id) hok hw).trans (congrArg _ (if_pos hretry))

theorem exec_panelFillTaken : exec (.panelFillTaken id) s = .next (panelTaken id s) :=
  withLive_works id s (panelTaken id) hok hw

end

/-! ### The fill of a panel (R137, R139) -/

section
variable {s : State} {id : CellId} (hretry : (s.cell id).mx.retry = false)
include hretry

/-- The chained command that a full array makes wait lets the oldest one finish (R137; assumption log 15). -/
theorem panelTaken_finishes {n : QCmd} {rest : List QCmd}
    (hq : ((settleTail id (streamOn id s)).cell id).qmx.q = n :: rest) (ho : cOpc n.word = 1)
    (hchain : chains ((settleTail id (streamOn id s)).cell id).mx.prev n = true)
    (hfull : 2 ≤ ((settleTail id (streamOn id s)).cell id).mx.cmds.length) :
    panelTaken id s = finishOldest id (settleTail id (streamOn id s)) := by
  simp only [panelTaken, hretry, Bool.false_eq_true, if_false, hq]
  exact if_pos ⟨ho, hchain, hfull⟩

/-- Where no chained command waits for the array, it only reads on. -/
theorem panelTaken_streams (h : ∀ n rest, ((settleTail id (streamOn id s)).cell id).qmx.q = n :: rest →
      cOpc n.word ≠ 1 ∨ chains ((settleTail id (streamOn id s)).cell id).mx.prev n = false ∨
        ((settleTail id (streamOn id s)).cell id).mx.cmds.length < 2) :
    panelTaken id s = settleTail id (streamOn id s) := by
  simp only [panelTaken, hretry, Bool.false_eq_true, if_false]
  cases hq : ((settleTail id (streamOn id s)).cell id).qmx.q with
  | nil => rfl
  | cons n rest =>
    refine if_neg ?_
    rintro ⟨ho, hchain, hfull⟩
    rcases h n rest hq with h | h | h
    · exact h ho
    · exact absurd hchain (by simp [h])
    · exact absurd hfull (Nat.not_le.2 h)

end

end Sys2Proof.Machine

open Sys2Proof Sys2Proof.Machine

/-- Settles O24: the retry and the fill by what the array reads on, the check beat by the verdict on its comparison. -/
theorem matrixCheckBeat : Obligations.MatrixCheckBeat := by
  unfold Obligations.MatrixCheckBeat
  intro s id us hok hw c on k
  refine ⟨exec_mmaRetryStart_ready hok hw, fun hretry => ⟨fun n rest hq ho hchain hfull => ?_, fun h => ?_⟩, ?_⟩
  · exact (exec_panelFillTaken hok hw).trans (congrArg _ (panelTaken_finishes hretry hq ho hchain hfull))
  · exact (exec_panelFillTaken hok hw).trans (congrArg _ (panelTaken_streams hretry h))
  · intro m ms r rs hm hr hseq hrows hc hretry bank o m1 mx s0 s1 bad good streamed i
    have hbeat := exec_mmaCheckBeat_finished hok hw us ⟨⟨ms, hm⟩, ⟨r, rs, hr, hseq⟩, hrows, hc, hretry⟩
    refine ⟨fun hk ht hroom => hbeat.trans (congrArg _ ?_), fun hk ht hfuse hfull => hbeat.trans (congrArg _ ?_),
      fun hk ht hs ha => hbeat.trans (congrArg _ ?_), fun hk ht hs ha => hbeat.trans (congrArg _ ?_),
      fun hk ht hs => hbeat.trans (congrArg _ ?_), fun ht => hbeat.trans (congrArg _ ?_)⟩
    · exact verdict_completes ht hk hroom
    · exact verdict_waits ht hk hfuse hfull
    · exact (verdict_repeatable ht hk hs).trans (if_neg (by omega))
    · exact (verdict_repeatable ht hk hs).trans (if_pos ha)
    · exact verdict_unrepeatable ht hk hs
    · exact verdict_trapped ht

end

section
/-!
PROOFS. The function tables of the vector engine (R178, R225, R226): integers by their 32-bit words, and the special
numbers of the floating-point functions.
-/

namespace Sys2Proof.Machine

/-! ### Integers as 32-bit words (R178) -/

theorem unsignedOf_eq_toNat_ofInt (v : Int) : unsignedOf 32 v = (BitVec.ofInt 32 v).toNat :=
  (BitVec.toNat_ofInt v).symm

theorem signedOf_toNat (z : Word) : signedOf 32 z.toNat = z.toInt := by
  rw [sgn, BitVec.ofNat_toNat, BitVec.setWidth_eq]

/-- Wrapping is the balanced remainder, by which the library gives the word operations on signed values. -/
theorem wrap32_eq_bmod (v : Int) : wrap32 v = v.bmod (2 ^ 32) := by
  rw [wrap32, unsignedOf_eq_toNat_ofInt, signedOf_toNat, BitVec.toInt_ofInt]

theorem unsignedOf_toInt (a : Word) : unsignedOf 32 a.toInt = a.toNat := by
  rw [unsignedOf_eq_toNat_ofInt, BitVec.ofInt_toInt]

section
variable (a b : Word)

/-! ### VBIN on integers (R225) -/

theorem binInt_add : binInt 0x00 a.toInt b.toInt = (a + b).toInt :=
  (wrap32_eq_bmod _).trans (BitVec.toInt_add a b).symm

theorem binInt_sub : binInt 0x01 a.toInt b.toInt = (a - b).toInt :=
  (wrap32_eq_bmod _).trans BitVec.toInt_sub.symm

theorem binInt_mul : binInt 0x02 a.toInt b.toInt = (a * b).toInt :=
  (wrap32_eq_bmod _).trans (BitVec.toInt_mul a b).symm

/-- Both divisions give -1 for a zero divisor and otherwise wrap the quotient (R92). -/
theorem binInt_div : binInt 0x03 a.toInt b.toInt = (aluFn 0x0D a b).toInt := by
  show (if b.toInt = 0 then -1 else wrap32 (a.toInt.tdiv b.toInt)) =
    (if b = 0 then 0xFFFFFFFF else BitVec.ofInt 32 (a.toInt.tdiv b.toInt) : Word).toInt
  by_cases hb : b = 0
  · subst hb
    rfl
  · have hint : b.toInt ≠ 0 := fun h => hb (BitVec.toInt_inj.1 h)
    rw [if_neg hb, if_neg hint, wrap32_eq_bmod, BitVec.toInt_ofInt]

theorem binInt_cmpeq : binInt 0x07 a.toInt b.toInt = if a = b then 1 else 0 :=
  if_congr BitVec.toInt_inj rfl rfl

theorem binInt_and : binInt 0x08 a.toInt b.toInt = (a &&& b).toInt := by
  show signedOf 32 (unsignedOf 32 a.toInt &&& unsignedOf 32 b.toInt) = _
  rw [unsignedOf_toInt, unsignedOf_toInt, ← BitVec.toNat_and, signedOf_toNat]

theorem binInt_or : binInt 0x09 a.toInt b.toInt = (a ||| b).toInt := by
  show signedOf 32 (unsignedOf 32 a.toInt ||| unsignedOf 32 b.toInt) = _
  rw [unsignedOf_toInt, unsignedOf_toInt, ← BitVec.toNat_or, signedOf_toNat]

theorem binInt_xor : binInt 0x0A a.toInt b.toInt = (a ^^^ b).toInt := by
  show signedOf 32 (unsignedOf 32 a.toInt ^^^ unsignedOf 32 b.toInt) = _
  rw [unsignedOf_toInt, unsignedOf_toInt, ← BitVec.toNat_xor, signedOf_toNat]

/-! ### VUN on integers (R226) -/

theorem wrap32_neg_toInt : wrap32 (-a.toInt) = (-a).toInt := by
  rw [wrap32_eq_bmod, BitVec.toInt_neg]

theorem wrap32_toInt : wrap32 a.toInt = a.toInt := by
  rw [wrap32, unsignedOf_toInt, signedOf_toNat]

theorem unInt_abs : unInt 0x01 a.toInt = (if a.toInt < 0 then -a else a).toInt := by
  show wrap32 (if a.toInt < 0 then -a.toInt else a.toInt) = _
  split
  · exact wrap32_neg_toInt a
  · exact wrap32_toInt a

end

/-! ### Special numbers (R225, R226) -/

section
variable (n k : Bool) (m : Nat) (e f : Int)

theorem Num.div_fin_zero : Num.div (.fin n m e) (.fin k 0 f) = if m = 0 then .nan else .inf (n != k) := rfl

theorem alignInt_zero (u : Int) : alignInt n 0 e u = 0 := by
  cases n <;> simp [alignInt]

theorem Num.lt_zeros : Num.lt (.fin n 0 e) (.fin k 0 f) = false := by
  simp only [Num.lt, alignInt_zero, lt_irrefl, decide_false]

/-- Zeros are equal whatever their signs. -/
theorem Num.eq_zeros : Num.eq (.fin n 0 e) (.fin k 0 f) = true := by
  simp only [Num.eq, Num.lt_zeros, Bool.not_false, Bool.and_self]

theorem binNum_cmpeq_zeros : binNum 7 (.fin n 0 e) (.fin k 0 f) = .ofInt 1 :=
  if_pos (Num.eq_zeros n k e f)

theorem unNum_recip_zero : unNum 4 (.fin n 0 e) = .inf n := by
  cases n <;> rfl

theorem unNum_recip_inf : unNum 4 (.inf n) = .fin n 0 0 := by
  cases n <;> rfl

variable {m}

theorem unNum_sqrt_neg (hm : m ≠ 0) : unNum 3 (.fin true m e) = .nan := if_neg hm

theorem unNum_rsqrt_neg (hm : m ≠ 0) : unNum 5 (.fin true m e) = .nan := if_neg hm

theorem unNum_log_neg (hm : m ≠ 0) : unNum 7 (.fin true m e) = .nan := if_neg hm

end

end Sys2Proof.Machine

open Sys2Proof Sys2Proof.Machine

/-- Settles O27: integers by the words they are, special numbers by the branch of the function that takes them. -/
theorem vectorFunctionTable : Obligations.VectorFunctionTable := by
  unfold Obligations.VectorFunctionTable
  refine ⟨fun a b => ⟨binInt_add a b, binInt_sub a b, binInt_mul a b, binInt_div a b, rfl, rfl, rfl, binInt_cmpeq a b,
    binInt_and a b, binInt_or a b, binInt_xor a b, rfl, unInt_abs a, wrap32_neg_toInt a⟩,
    fun n k m e f hm => ⟨?_, ?_, ?_, ?_, ?_, rfl, ?_, rfl, rfl⟩⟩
  · have hzero : binNum 3 (.fin n m e) (.fin k 0 f) = .inf (n != k) := (Num.div_fin_zero n k m e f).trans (if_neg hm)
    rw [hzero]
    rfl
  · rw [binNum_cmpeq_zeros]
    rfl
  · rw [unNum_sqrt_neg e hm]
    rfl
  · rw [unNum_recip_zero, unNum_recip_inf]
  · rw [unNum_rsqrt_neg e hm]
    rfl
  · rw [unNum_log_neg e hm]
    rfl

end

section
/-!
PROOFS. The collective parts of fused commands (R241, R242): the hand-off that frees a held completion, the start of the
oldest part handed off, and the end of the part whose operation is finished.
-/

namespace Sys2Proof.Machine

/-- What a part handed off gives the engine (R241, R424): its region is both source and result. -/
abbrev ColPart.contribution (p : ColPart) (id : CellId) (slot : Nat) : Contribution :=
  ⟨.part id, p.seq, (cfCop p.cf).toNat, (cfCfn p.cf).toNat, (cfGroup p.cf).toNat, p.desc, 0, p.desc, 0, slot, p.spoiled⟩

/-- The part `p` at the head of those handed off starts: it leaves them for the parts in progress, with the version of
its group, and its contribution travels to the engine (R241, R242). -/
def State.contributePart (s : State) (id : CellId) (p : ColPart) (rest : List ColPart) (version : Nat) : State :=
  let c := s.cell id
  let s1 := ((s.setCell id { c with handed := rest }).markShared id).modCell id fun c =>
    { c with parts := c.parts ++ [{ p with version := version }] }
  { s1 with col := { s1.col with coming := s1.col.coming ++ [p.contribution id c.task.member] } }

/-- The part `p` ends with the operation `o` that its contribution `k` belongs to: the result is written, the part
leaves the parts in progress, and CSEM is signalled (R241). -/
def State.partFinished (s : State) (id : CellId) (o : ColOp) (k : Contribution) (p : ColPart) : State :=
  ((s.finishPart o k).modCell id fun c => { c with parts := c.parts.filter fun x => x.seq ≠ k.seq }).signal id
    (cfCsem p.cf) 1 5

section
variable {s : State} {id : CellId}

/-! ### Hand-off (R242) -/

section
variable (hplace : (s.cell id).handed.length < 4)
include hplace

/-- A place that is free goes to the matrix command that passed its check and waits for one. -/
theorem handOffOldest_checked {m : MxCmd} (hm : ((s.cell id).mx.cmds.find? fun m => m.checked) = some m) :
    s.handOffOldest id = s.mxComplete id m := by
  simp only [State.handOffOldest, if_neg (Nat.not_le.2 hplace), hm]

/-- Where no matrix command waits, the place goes to the oldest vector command, if it is fused. -/
theorem handOffOldest_vector {r : RunCmd} {rs : List RunCmd}
    (hnone : ((s.cell id).mx.cmds.find? fun m => m.checked) = none) (hr : (s.cell id).qvx.run = r :: rs)
    (hf : r.fuse = true) : s.handOffOldest id = s.completeOldest id 1 := by
  simp only [State.handOffOldest, if_neg (Nat.not_le.2 hplace), hnone, hr, if_pos hf]

end

/-! ### Start (R241, R242) -/

/-- The oldest part starts where fewer than four are in progress, its group is usable, and a reduce-scatter's rows
divide among the ranks (R425). -/
theorem startPart_contributes {p : ColPart} {rest : List ColPart} {e : GEntry} {st : List RingStage}
    (hh : (s.cell id).handed = p :: rest) (hplace : (s.cell id).parts.length < 4)
    (hg : s.usableGroup id (cfGroup p.cf).toNat = some (e, st))
    (hrows : (cfCop p.cf).toNat = 2 → (dRows p.desc).toNat % e.ranks st = 0) :
    s.startPart id = s.contributePart id p rest (e.f 0 31 0) := by
  have hshape : ¬ ((cfCop p.cf).toNat = 2 ∧ (dRows p.desc).toNat % e.ranks st ≠ 0) := fun h => h.2 (hrows h.1)
  simp only [State.startPart, hh, if_neg (Nat.not_le.2 hplace), hg, if_neg hshape]
  rfl

/-! ### Completion (R241) -/

theorem completePart_finished {o : ColOp} {k : Contribution} {p : ColPart}
    (hfin : s.finishedFor (fun k => k.origin = .part id) = some (o, k))
    (hp : ((s.cell id).parts.find? fun p => p.seq = k.seq) = some p) :
    s.completePart id = s.partFinished id o k p := by
  simp only [State.completePart, hfin, hp]
  rfl

/-! ### Rows of a cell that works (R73) -/

variable (hok : cellOk id = true) (hw : (s.cell id).works = true)
include hok hw

theorem exec_collectivePartHandoff : exec (.collectivePartHandoff id) s = .next (s.handOffOldest id) :=
  withLive_works id s (fun s => s.handOffOldest id) hok hw

theorem exec_collectivePartStart : exec (.collectivePartStart id) s = .next (s.startPart id) :=
  withLive_works id s (fun s => s.startPart id) hok hw

theorem exec_collectivePartComplete : exec (.collectivePartComplete id) s = .next (s.completePart id) :=
  withLive_works id s (fun s => s.completePart id) hok hw

end

end Sys2Proof.Machine

open Sys2Proof Sys2Proof.Machine

/-- Settles O25: each row by the operation it runs on a cell that works, in the case of the operation the clause names. -/
theorem collectiveParts : Obligations.CollectiveParts := by
  unfold Obligations.CollectiveParts
  intro s id hok hw c
  refine ⟨fun hplace m hm => ?_, fun hplace hnone r rs hr hf => ?_, fun p rest e st hh hplace hg hrows => ?_,
    fun o k p hfin hp => ?_⟩
  · rw [exec_collectivePartHandoff hok hw, handOffOldest_checked hplace hm]
  · rw [exec_collectivePartHandoff hok hw, handOffOldest_vector hplace hnone hr hf]
  · rw [exec_collectivePartStart hok hw, startPart_contributes hh hplace hg hrows]
    rfl
  · rw [exec_collectivePartComplete hok hw, completePart_finished hfin hp]
    rfl

end

section
/-!
PROOFS. The words of a waybill (R252 to R263, R274): what a word that is fetched does, by the opcode it spells, and what
each instruction answers.
-/

namespace Sys2Proof.Machine

/-! ### Contexts of a cell -/

theorem rset_rset {α : Type} {n : Nat} (v : Vector α (2 ^ n)) (i : BitVec n) (a b : α) :
    rset (rset v i a) i b = rset v i b := by
  simp [rset]

section
variable (c : CellState) (i : BitVec 2) (x : WbCtx)

@[simp] theorem CellState.rget_setCtx : rget (c.setCtx i x).wb i = x := rget_rset_same c.wb i x

@[simp] theorem CellState.setCtx_self : c.setCtx i (rget c.wb i) = c := by
  simp only [CellState.setCtx, rset_rget]

/-- A context with the 32-byte word of its next instruction fetched (R253). -/
def WbCtx.fetched (x : WbCtx) : WbCtx :=
  if x.buf.contains (x.pc / 32) then x else { x with buf := (x.pc / 32 :: x.buf).take 16 }

theorem WbCtx.fetched_waitOn : x.fetched.waitOn = x.waitOn := by
  rw [WbCtx.fetched]
  split <;> rfl

theorem WbCtx.fetched_ended : x.fetched.ended = x.ended := by
  rw [WbCtx.fetched]
  split <;> rfl

/-- A fetch changes only the words its context has fetched (R253). -/
theorem CellState.rget_fetched : rget (c.fetched i).wb i = (rget c.wb i).fetched := CellState.rget_setCtx c i _

end

@[simp] theorem State.setCtx_setCell (s : State) (id : CellId) (c : CellState) (i : BitVec 2) (x : WbCtx) :
    (s.setCell id c).setCtx id i x = s.setCell id (c.setCtx i x) := by
  simp only [State.setCtx, State.modCell, State.cell_setCell, State.setCell_setCell]

/-! ### The fields of a word (R258) -/

section
variable (w : DWord)

theorem wbD_word : wbD w.toNat = w.extractLsb' 55 3 := bitsOf_ext w 57 55 3 rfl
theorem wbA_word : wbA w.toNat = w.extractLsb' 52 3 := bitsOf_ext w 54 52 3 rfl
theorem wbB_word : wbB w.toNat = w.extractLsb' 49 3 := bitsOf_ext w 51 49 3 rfl
theorem wbN_word : wbN w.toNat = w.extractLsb' 56 2 := bitsOf_ext w 57 56 2 rfl

end

/-! ### What each instruction answers (R254, R258 to R263) -/

section
variable (s : State) (x : WbCtx) (w : DWord)

theorem bodySetv_word : bodySetv s x w.toNat =
    .go (x.setV (w.extractLsb' 55 3) (w.extractLsb' 0 40)) (x.pc + 8) := by
  rw [bodySetv, wbD_word, bitsOf_ext w 39 0 40 rfl]
  rfl

theorem bodyAddv_word : bodyAddv s x w.toNat = .go (x.setV (w.extractLsb' 55 3)
    (rget x.v (w.extractLsb' 52 3) + (w.extractLsb' 0 32 : BitVec 32).signExtend 40)) (x.pc + 8) := by
  rw [bodyAddv, wbD_word, wbA_word, bitsOf_ext w 31 0 32 rfl]
  rfl

theorem bodyAddvv_word : bodyAddvv s x w.toNat = .go (x.setV (w.extractLsb' 55 3)
    (rget x.v (w.extractLsb' 52 3) + rget x.v (w.extractLsb' 49 3))) (x.pc + 8) := by
  rw [bodyAddvv, wbD_word, wbA_word, wbB_word]
  rfl

/-- The field of a descriptor that FLD of GETD names (R258). -/
def descField (d : QWord) (fld : Nat) : BitVec 40 :=
  match fld with
  | 0 => dOffset d
  | 1 => (dLdim d).setWidth 40
  | 2 => (dRows d).setWidth 40
  | 3 => (dCols d).setWidth 40
  | _ => (dFmt d).setWidth 40

theorem descField_eq (d : QWord) {fld : BitVec 3} : ∀ e ∈ [(0, dOffset d), (1, (dLdim d).setWidth 40),
    (2, (dRows d).setWidth 40), (3, (dCols d).setWidth 40), (4, (dFmt d).setWidth 40)],
    fld = BitVec.ofNat 3 e.1 → descField d fld.toNat = e.2 := by
  refine forall_mem_five ?_ ?_ ?_ ?_ ?_ <;> (rintro rfl; rfl)

theorem bodyGetd_word : bodyGetd s x w.toNat = .go (x.setV (w.extractLsb' 55 3)
    (descField (x.slotDesc (w.extractLsb' 52 3 : BitVec 3).toNat) (w.extractLsb' 49 3 : BitVec 3).toNat)) (x.pc + 8) := by
  rw [bodyGetd, wbD_word, wbA_word, wbB_word]
  rfl

/-- The shape SHAPE spells: two lengths, and the registers of its two strides (R258). -/
def shapeOfWord (x : WbCtx) (w : DWord) : Shape :=
  ⟨(w.extractLsb' 44 12 : BitVec 12).toNat + 1, (w.extractLsb' 32 12 : BitVec 12).toNat + 1,
    (rget x.v (w.extractLsb' 29 3)).setWidth 32, (rget x.v (w.extractLsb' 26 3)).setWidth 32⟩

theorem bodyShape_word : bodyShape s x w.toNat =
    .go { x with h := rset x.h (w.extractLsb' 56 2) (some (shapeOfWord x w)) } (x.pc + 8) := by
  rw [bodyShape, wbN_word, bitsOf_ext w 31 29 3 rfl, bitsOf_ext w 28 26 3 rfl, bitsOf_nat w 55 44 12 rfl,
    bitsOf_nat w 43 32 12 rfl]
  rfl

/-- The value SETK gives a count register: an address register's low half, or the immediate (R258). -/
def setkValue (x : WbCtx) (w : DWord) : Word :=
  if w.getLsbD 55 then (rget x.v (w.extractLsb' 52 3)).setWidth 32 else w.extractLsb' 0 32

theorem bodySetk_word : bodySetk s x w.toNat =
    .go { x with k := rset x.k (w.extractLsb' 56 2) (setkValue x w) } (x.pc + 8) := by
  have hbit : bitsOf w.toNat 55 55 = 1 ↔ w.getLsbD 55 = true := by
    rw [BitVec.getLsbD, Nat.testBit_eq_decide_div_mod_eq, decide_eq_true_eq]
    rfl
  rw [bodySetk, wbN_word, wbA_word, bitsOf_ext w 31 0 32 rfl]
  simp only [hbit]
  rfl

/-- A LOOP of count 0 skips its body (R260). -/
theorem bodyLoop_skips (hk : rget x.k (w.extractLsb' 56 2) = 0) : bodyLoop s x w.toNat =
    .go x (x.pc + 8 * (w.extractLsb' 48 8 : BitVec 8).toNat + 8) := by
  rw [bodyLoop, wbN_word, bitsOf_nat w 55 48 8 rfl]
  exact if_pos hk

/-- Another LOOP enters its body where the stack has room and its end lies in the loop around it (R260). -/
theorem bodyLoop_enters (hk : rget x.k (w.extractLsb' 56 2) ≠ 0) (hroom : x.loops.length < 4)
    (hin : ∀ e ∈ x.loops.head?, x.pc + 8 * (w.extractLsb' 48 8 : BitVec 8).toNat ≤ e.stop) :
    bodyLoop s x w.toNat = .go { x with loops := ⟨x.pc + 8, x.pc + 8 * (w.extractLsb' 48 8 : BitVec 8).toNat,
      rget x.k (w.extractLsb' 56 2) - 1⟩ :: x.loops, pc := x.pc } (x.pc + 8) := by
  have hfits : ¬ (x.loops.head?.any fun e =>
      decide (e.stop < x.pc + 8 * (w.extractLsb' 48 8 : BitVec 8).toNat)) = true := by
    simpa [Option.any_eq_true] using hin
  rw [bodyLoop, wbN_word, bitsOf_nat w 55 48 8 rfl]
  exact (if_neg hk).trans ((if_neg (Nat.not_le.2 hroom)).trans (if_neg hfits))

theorem bodySignal_word : bodySignal s x w.toNat = .go { x with
    out := x.out ++ [.inr ⟨w.extractLsb' 53 5, (w.extractLsb' 32 8 : BitVec 8).toNat + 1⟩] } (x.pc + 8) := by
  rw [bodySignal, bitsOf_ext w 57 53 5 rfl, bitsOf_nat w 39 32 8 rfl]
  rfl

theorem bodySetring_word : bodySetring s x w.toNat =
    let base := (rget x.v (w.extractLsb' 55 3)).toNat
    let n := (w.extractLsb' 0 14 : BitVec 14).toNat
    if base % 256 ≠ 0 ∨ 0x300000 < base + 256 * n then .bad wfShape
    else .go { x with ringBase := base, ringW := n } (x.pc + 8) := by
  rw [bodySetring, wbD_word, bitsOf_nat w 13 0 14 rfl]
  rfl

theorem bodySetc_word : bodySetc s x w.toNat = .go { x with remote := w.extractLsb' 0 11 } (x.pc + 8) := by
  rw [bodySetc, bitsOf_ext w 10 0 11 rfl]
  rfl

end

/-- A loop whose end is not this instruction stays as it is (R260). -/
theorem endCheck_inside (pc fall : Nat) (e : LoopEntry) (rest : List LoopEntry) (h : pc ≠ e.stop) :
    endCheck pc fall (e :: rest) = (e :: rest, fall) := if_neg h

/-- The loop that a LOOP enters does not end at the LOOP itself, whose length is not 0 (R258, R260). -/
theorem follow_enters (x : WbCtx) (w : DWord) (k : Word) (hl : legalLoop w.toNat = true) :
    let stop := x.pc + 8 * (w.extractLsb' 48 8 : BitVec 8).toNat
    let y : WbCtx := { x with loops := ⟨x.pc + 8, stop, k⟩ :: x.loops, pc := x.pc }
    y.follow (x.pc + 8) = { x with loops := ⟨x.pc + 8, stop, k⟩ :: x.loops, pc := x.pc + 8 } := by
  intro stop y
  have hlen : bitsOf w.toNat 55 48 ≠ 0 := by
    simpa using (Bool.and_eq_true_iff.1 hl).2
  rw [bitsOf_nat w 55 48 8 rfl] at hlen
  have hstop : x.pc ≠ stop := by omega
  simp only [WbCtx.follow, y, endCheck_inside x.pc _ ⟨x.pc + 8, stop, k⟩ _ hstop]

/-! ### END (R251, R254, R263) -/

/-- The context is closed: it is idle, and the writes of its waybill go on with its RUNWB. -/
def CellState.closed (c : CellState) (i : BitVec 2) (pieces : List Piece) : CellState :=
  let shut (r : RunCmd) : RunCmd := if r.ctx = some i ∧ ¬ r.ended then { r with ended := true, pieces := pieces } else r
  { c with wb := rset c.wb i WbCtx.idle, qms := { c.qms with run := c.qms.run.map shut } }

section
variable {s : State} {id : CellId} {i : BitVec 2} {c : CellState} {x : WbCtx}

theorem wbClose_open (h : ¬ (x.ended = true ∧ x.signals = [])) :
    (s.setCell id (c.setCtx i x)).wbClose id i = s.setCell id (c.setCtx i x) := by
  simp only [State.wbClose, State.cell_setCell, CellState.rget_setCtx, if_neg h]

theorem wbClose_done (he : x.ended = true) (hs : x.signals = []) :
    (s.setCell id (c.setCtx i x)).wbClose id i = s.setCell id (c.closed i x.pieces) := by
  simp only [State.wbClose, State.cell_setCell, CellState.rget_setCtx, State.setCell_setCell, if_pos (And.intro he hs)]
  simp only [CellState.setCtx, rset_rset, CellState.closed]

end

/-! ### Rows (R258) -/

/-- Every row that carries a word runs the word. -/
theorem exec_wbRows (s : State) (id : CellId) (i : BitVec 2) (w : DWord) :
    ∀ j ∈ wbRows id i w, exec j s = wbInstr id i w s := by
  simp only [wbRows, List.forall_mem_cons]
  exact ⟨rfl, rfl, rfl, rfl, rfl, rfl, rfl, rfl, rfl, rfl, rfl, rfl, rfl, rfl, rfl, List.forall_mem_nil _⟩

/-! ### A word of a context that runs (R252, R253, R258) -/

/-- A cell whose context has fetched its instruction (R253), which counts as progress (R536). -/
abbrev State.fetchedCell (s : State) (id : CellId) (i : BitVec 2) : CellState := ((s.cell id).fetched i).stamp s.ns

/-- The module with that instruction fetched. -/
abbrev State.wbFetched (s : State) (id : CellId) (i : BitVec 2) : State := s.setCell id (s.fetchedCell id i)

section
variable {s : State} {id : CellId} {i : BitVec 2} {w : DWord} (hok : cellOk id = true) (hr : (s.cell id).CtxRuns i)

include hr in
/-- The fetch of a context that runs meets no error: the word is at hand, or its lanes are clean (R58, R253). -/
theorem wbFetch_runs : s.wbFetch id i = s.wbFetched id i := by
  obtain ⟨-, -, -, -, -, -, hword⟩ := hr
  have htouch : (if (rget (s.cell id).wb i).buf.contains ((rget (s.cell id).wb i).pc / 32) then s
      else s.touchStore id ((List.range 4).map fun k => 4 * ((rget (s.cell id).wb i).pc / 32) + k)) = s := by
    split
    · rfl
    next hfar =>
      refine State.touchStore_clean s id _ fun l hl => ?_
      obtain ⟨k, hk, rfl⟩ := List.mem_map.1 hl
      exact hword.resolve_left (fun h => hfar (List.contains_iff_mem.2 h)) k (List.mem_range.1 hk)
  exact congrArg (fun t : State => t.modCell id fun c => (c.setCtx i (rget (s.cell id).wb i).fetched).stamp s.ns) htouch

include hr in
/-- A context that runs waits for nothing, also once it has fetched. -/
theorem fetchedCell_waitOn : (rget (s.fetchedCell id i).wb i).waitOn = none := by
  obtain ⟨-, -, -, -, hwait, -⟩ := hr
  exact ((congrArg WbCtx.waitOn (CellState.rget_fetched _ i)).trans (WbCtx.fetched_waitOn _)).trans hwait

include hr in
theorem fetchedCell_ended : (rget (s.fetchedCell id i).wb i).ended = false := by
  obtain ⟨-, -, hended, -⟩ := hr
  exact ((congrArg WbCtx.ended (CellState.rget_fetched _ i)).trans (WbCtx.fetched_ended _)).trans hended

include hok hr

/-- A word that spells an instruction with the right bits does what the instruction says (R258). -/
theorem wbInstr_spelled {n : Nat} {legal : Nat → Bool} {run : CellId → BitVec 2 → Nat → State → State}
    (hop : wbOpOf n = some ⟨legal, run⟩) (hw : wbOp w.toNat = n ∧ legal w.toNat = true) :
    wbInstr id i w s = .next (run id i w.toNat (s.wbFetched id i)) :=
  wb_eq s id i w ⟨legal, run⟩ hok hr (by rw [hw.1, hop]) hw.2

/-- A reserved opcode and wrong bits end the waybill (R258, R274). -/
theorem wbInstr_illegal (h : ∀ op, wbOpOf (wbOp w.toNat) = some op → op.legal w.toNat = false) :
    wbInstr id i w s = .next ((s.wbFetched id i).wbFault id i wfIllegal) := by
  have hfetch := wbFetch_runs hr
  obtain ⟨hworks, hbusy, hended, hfence, hwait, hpc, -⟩ := hr
  have hfree : ¬ (s.cell id).ctxHeld (rget (s.cell id).wb i) = true := by
    simp [CellState.ctxHeld, hworks, hbusy, hended, hfence, hwait]
  refine (withCell_ok id s _ hok).trans (congrArg _ ?_)
  rw [if_neg hfree, if_neg (Nat.not_le.2 hpc), hfetch]
  cases hop : wbOpOf (wbOp w.toNat) with
  | none => rfl
  | some op => exact if_neg (by simp [h op hop])

section
variable {n fall reason : Nat} {legal : Nat → Bool} {body : State → WbCtx → Nat → WbResult} {y : WbCtx}
  (hop : wbOpOf n = some ⟨legal, wbPlain body⟩)
include hop

/-- An instruction that answers a context goes on with it (R252, R260). -/
theorem wbInstr_go (hb : body (s.wbFetched id i) (rget (s.fetchedCell id i).wb i) w.toNat = .go y fall)
    (hw : wbOp w.toNat = n ∧ legal w.toNat = true) :
    wbInstr id i w s = .next (s.setCell id ((s.fetchedCell id i).setCtx i (y.follow fall))) := by
  rw [wbInstr_spelled hok hr hop hw]
  simp only [wbPlain, State.cell_setCell, hb, State.setCtx_setCell]

/-- An instruction that answers a fault ends the waybill (R274). -/
theorem wbInstr_bad (hb : body (s.wbFetched id i) (rget (s.fetchedCell id i).wb i) w.toNat = .bad reason)
    (hw : wbOp w.toNat = n ∧ legal w.toNat = true) :
    wbInstr id i w s = .next ((s.wbFetched id i).wbFault id i reason) := by
  rw [wbInstr_spelled hok hr hop hw]
  simp only [wbPlain, State.cell_setCell, hb]

/-- An instruction that stops its context leaves it there, or closed where nothing is left of it (R262, R263). -/
theorem wbInstr_hold (hb : body (s.wbFetched id i) (rget (s.fetchedCell id i).wb i) w.toNat = .hold y)
    (hw : wbOp w.toNat = n ∧ legal w.toNat = true) :
    wbInstr id i w s = .next ((s.setCell id ((s.fetchedCell id i).setCtx i y)).wbClose id i) := by
  rw [wbInstr_spelled hok hr hop hw]
  simp only [wbPlain, State.cell_setCell, hb, State.setCtx_setCell]

end

/-- WAIT takes its count at once, or its context waits for it (R259). -/
theorem wbInstr_wait (hw : wbOp w.toNat = 0x09 ∧ legalWait w.toNat = true) :
    let c := s.fetchedCell id i
    let x := rget c.wb i
    let sem : BitVec 5 := w.extractLsb' 53 5
    let cnt := (w.extractLsb' 32 16 : BitVec 16).toNat
    wbInstr id i w s = .next (s.setCell id (if c.mayTake sem (5 + i.toNat) cnt
      then (c.take sem (5 + i.toNat) cnt).setCtx i (x.follow (x.pc + 8))
      else c.setCtx i { x with waitOn := some (sem, cnt) })) := by
  have hx : ({ rget (s.fetchedCell id i).wb i with waitOn := none } : WbCtx) = rget (s.fetchedCell id i).wb i := by
    rw [← fetchedCell_waitOn hr]
  rw [wbInstr_spelled hok hr (run := runWait) rfl hw]
  simp only [runWait, State.cell_setCell, bitsOf_ext w 57 53 5 rfl, bitsOf_nat w 47 32 16 rfl, State.wbTake,
    State.setCell_setCell, State.setCtx_setCell, hx]
  split <;> rfl

end

end Sys2Proof.Machine

open Sys2Proof Sys2Proof.Machine

/-- Settles O30: each instruction by what its body answers for the fields of its word, in the frame all words share. -/
theorem waybillInstructions : Obligations.WaybillInstructions := by
  unfold Obligations.WaybillInstructions
  intro s id i w hok hr c x done go spells vd va vb kd last sem cnt w14 base setV shape kv
  have hfetched : s.wbFetched id i = done x := congrArg (s.setCell id) (CellState.setCtx_self c i).symm
  refine ⟨exec_wbRows s id i w, fun h j hj => ?_, by decide, fun hw => ⟨fun hout => ?_, fun hnone => ?_⟩,
    wbInstr_go hok hr rfl rfl, wbInstr_go hok hr rfl (bodySetv_word _ x w), wbInstr_go hok hr rfl (bodyAddv_word _ x w),
    wbInstr_go hok hr rfl (bodyAddvv_word _ x w), fun hw => ?_, wbInstr_go hok hr rfl (bodyShape_word _ x w),
    wbInstr_go hok hr rfl (bodySetk_word _ x w), fun hw => ⟨fun hk => ?_, fun hk hroom hin => ?_⟩,
    fun hw => ⟨fun ht => ?_, fun ht => ?_⟩, wbInstr_go hok hr rfl (bodySignal_word _ x w),
    fun hw => ⟨fun hout => ?_, fun hout => ?_⟩, fun hw => ⟨fun halign hfit => ?_, fun hbad => ?_⟩,
    wbInstr_go hok hr rfl (bodySetc_word _ x w)⟩
  · rw [exec_wbRows s id i w j hj, ← hfetched]
    exact wbInstr_illegal hok hr h
  -- END.
  · exact (wbInstr_hold hok hr rfl rfl hw).trans (congrArg _ (wbClose_open fun hdone => hout hdone.2))
  · exact (wbInstr_hold hok hr rfl rfl hw).trans (congrArg _ (wbClose_done (x := { x with ended := true }) rfl hnone))
  -- GETD.
  · intro d e he hfld
    rw [← descField_eq d e he hfld]
    exact wbInstr_go hok hr rfl (bodyGetd_word _ x w) hw
  -- LOOP.
  · exact wbInstr_go hok hr rfl (bodyLoop_skips _ x w hk) hw
  · rw [← follow_enters x w _ hw.2]
    exact wbInstr_go hok hr rfl (bodyLoop_enters _ x w hk hroom hin) hw
  -- WAIT.
  · exact (wbInstr_wait hok hr hw).trans (congrArg _ (congrArg _ (if_pos ht)))
  · exact (wbInstr_wait hok hr hw).trans (congrArg _ (congrArg _ (if_neg (Bool.eq_false_iff.1 ht))))
  -- FENCE.
  · exact wbInstr_go hok hr rfl (if_neg (Bool.eq_false_iff.1 hout)) hw
  · refine (wbInstr_hold hok hr rfl (if_pos hout) hw).trans (congrArg _ (wbClose_open fun hdone => ?_))
    exact Bool.false_ne_true ((fetchedCell_ended hr).symm.trans hdone.1)
  -- SETRING.
  · exact wbInstr_go hok hr rfl
      ((bodySetring_word _ x w).trans (if_neg (not_or_intro (not_not_intro halign) (Nat.not_lt.2 hfit)))) hw
  · rw [← hfetched]
    exact wbInstr_bad hok hr rfl ((bodySetring_word _ x w).trans (if_pos hbad)) hw

end

section
/-!
PROOFS. MOVE (R255, R257, R261, R264 to R266): one whose checks pass issues its reads and writes, the writes of its
transforms, and what a straight MOVE of one row within the cell store issues.
-/

namespace Sys2Proof.Machine

/-! ### A MOVE whose checks pass (R255, R257, R261, R264, R265) -/

section
variable {s u : State} {id : CellId} {i : BitVec 2} {w : DWord} {sh : Shape}

/-- A MOVE that passes its checks is issued, one with a transform once the unit is free. -/
theorem runMove_ready (hm : MoveReady s (rget (s.cell id).wb i) w sh)
    (hu : ((moveOf w.toNat).xf = 0 ∧ u = s) ∨ ((moveOf w.toNat).xf ≠ 0 ∧ s.freeUnit id = .inl u)) :
    runMove id i w.toNat s = issueMove id i (moveOf w.toNat) sh u := by
  obtain ⟨-, -, hside, hsrc, hdst, hshape, hok, hring, hremote⟩ := hm
  have hspace : ¬ (((moveOf w.toNat).ssp ≠ 0 ∧ (moveOf w.toNat).dsp ≠ 0) ∨
      ¬ (rget (s.cell id).wb i).spaceOk (moveOf w.toNat).ssp = true ∨
      ¬ (rget (s.cell id).wb i).spaceOk (moveOf w.toNat).dsp = true) := by
    simp only [hsrc, hdst, not_true, or_false]
    exact fun h => hside.elim h.1 h.2
  have hfit : ¬ (¬ shapeOk (moveOf w.toNat) sh = true ∨
      ((moveOf w.toNat).rng = true ∧ (rget (s.cell id).wb i).ringW = 0)) := by
    simp only [hok, not_true, false_or]
    exact fun h => hring h.1 h.2
  have hthere : ¬ (((moveOf w.toNat).ssp = 7 ∨ (moveOf w.toNat).dsp = 7) ∧
      ¬ s.activeCell (rget (s.cell id).wb i).remote = true) := fun h => h.2 (hremote h.1)
  simp only [runMove, if_neg hspace, hshape, if_neg hfit, if_neg hthere]
  obtain ⟨hxf, rfl⟩ | ⟨hxf, hunit⟩ := hu
  · exact if_pos hxf
  · rw [if_neg hxf, hunit]

theorem issueMove_gathered {m : MoveOp} {g : MoveOut}
    (hg : moveGather s (s.cellMap id) id (rget (s.cell id).wb i) m sh = g) (hfault : g.fault = none)
    (hsnoop : s.needSnoops false g.lines = none) :
    let x := rget (s.cell id).wb i
    issueMove id i m sh s = g.s.setCtx id i
      ((moveAdvance { x with out := x.out ++ g.pieces.map .inl, segs := x.segs + sh.nr } m sh).follow (x.pc + 8)) := by
  simp only [issueMove, hg, hfault, hsnoop]

end

/-! ### The writes of a transform (R265) -/

/-- The writes of a skewed transform of `rows` rows of elements of `ew` bytes (R265): element `i` of row `j` goes `i` rows
further down, and `src j i` says which source row and offset it comes from. -/
def skewedWrites (ew rows : Nat) (src : Nat → Nat → Nat × Nat) : List (Nat × Nat × Nat × Nat × Nat) :=
  (List.range (rows + 63)).flatMap fun r =>
    (List.range 64).filterMap fun i =>
      if i ≤ r ∧ r - i < rows then some (r, i * ew, (src (r - i) i).1, (src (r - i) i).2, ew) else none

theorem mem_skewedWrites {ew rows : Nat} {src : Nat → Nat → Nat × Nat} {row off srow soff n : Nat} :
    (row, off, srow, soff, n) ∈ skewedWrites ew rows src ↔
      ∃ i < 64, off = i * ew ∧ i ≤ row ∧ row < rows + i ∧ (srow, soff) = src (row - i) i ∧ n = ew := by
  simp only [skewedWrites, List.mem_flatMap, List.mem_filterMap, List.mem_range, Option.ite_none_right_eq_some,
    Option.some.injEq, Prod.mk.injEq]
  constructor
  · rintro ⟨r, -, i, hi, ⟨hir, hrow⟩, rfl, rfl, rfl, rfl, rfl⟩
    exact ⟨i, hi, rfl, hir, by omega, rfl, rfl⟩
  · rintro ⟨i, hi, rfl, hir, hrow, hsrc, rfl⟩
    obtain ⟨rfl, rfl⟩ := Prod.mk.inj hsrc
    exact ⟨row, by omega, i, hi, ⟨hir, by omega⟩, rfl, rfl, rfl, rfl, rfl⟩

section
variable (m : MoveOp) (sh : Shape)

theorem moveWrites_plain (h : m.xf = 0) : moveWrites m sh = (List.range sh.nr).map fun r => (r, 0, r, 0, sh.len) := by
  rw [moveWrites, h]
  rfl

theorem moveWrites_skew (h : m.xf = 1) : moveWrites m sh = skewedWrites m.ew sh.nr fun j i => (j, i * m.ew) := by
  rw [moveWrites, h]
  rfl

theorem moveWrites_transpose (h : m.xf = 2) : moveWrites m sh = (List.range (sh.len / m.ew)).flatMap fun c =>
    (List.range sh.nr).map fun i => (c, i * m.ew, i, c * m.ew, m.ew) := by
  rw [moveWrites, h]
  rfl

theorem moveWrites_transposeSkew (k : Nat) (h : m.xf = k + 3) :
    moveWrites m sh = skewedWrites m.ew (sh.len / m.ew) fun j i => (i, j * m.ew) := by
  rw [moveWrites, h]
  rfl

variable {m sh} {row off srow soff n : Nat}

theorem mem_moveWrites : (row, off, srow, soff, n) ∈ moveWrites m sh ↔
    (m.xf = 0 ∧ row < sh.nr ∧ off = 0 ∧ srow = row ∧ soff = 0 ∧ n = sh.len) ∨
    (∃ i < 64, m.xf = 1 ∧ off = i * m.ew ∧ i ≤ row ∧ row < sh.nr + i ∧ srow = row - i ∧ soff = i * m.ew ∧ n = m.ew) ∨
    (∃ i < sh.nr, m.xf = 2 ∧ row < sh.len / m.ew ∧ off = i * m.ew ∧ srow = i ∧ soff = row * m.ew ∧ n = m.ew) ∨
    (∃ i < 64, 3 ≤ m.xf ∧ off = i * m.ew ∧ i ≤ row ∧ row < sh.len / m.ew + i ∧ srow = i ∧ soff = (row - i) * m.ew ∧
      n = m.ew) := by
  match hxf : m.xf with
  | 0 =>
    rw [moveWrites_plain m sh hxf]
    simp [eq_comm]
  | 1 =>
    rw [moveWrites_skew m sh hxf, mem_skewedWrites]
    simp [and_assoc]
  | 2 =>
    rw [moveWrites_transpose m sh hxf]
    simp [eq_comm, and_left_comm]
  | k + 3 =>
    rw [moveWrites_transposeSkew m sh k hxf, mem_skewedWrites]
    simp [and_assoc]

end

/-! ### A straight MOVE of one row of the cell store (R264, R265) -/

theorem strideAddr_zero (a : BitVec 40) (st : BitVec 32) : strideAddr a st 0 = a.toNat := by
  simp [strideAddr]

/-- Where a run of the source fits a run of the destination, the row is one piece. -/
theorem rowPieces_one (t : Piece) (p q : Place) (n : Nat) (bs : List (Byte × Bool)) (hn : bs.length = n) :
    rowPieces t [(p, n)] [(q, n)] bs = [{ t with src := p, dst := q, data := bs }] := by
  simp [rowPieces, cutPieces, ← hn]

theorem touchPlace_store (s : State) (id : CellId) (a n : Nat) (hn : 0 < n)
    (h : ∀ l ∈ lanesOf a n, l ∉ (s.cell id).store.ue ∧ l ∉ (s.cell id).store.ce) :
    s.touchPlace (.store id.toNat a) n = s := by
  simp only [State.touchPlace, if_neg (Nat.ne_of_gt hn), BitVec.ofNat_toNat, BitVec.setWidth_eq]
  exact State.touchStore_clean s id _ h

theorem readPlace_store (s : State) (id : CellId) (a n : Nat) :
    s.readPlace (.store id.toNat a) n = (s.cell id).store.readP a n := by
  simp only [State.readPlace, BitVec.ofNat_toNat, BitVec.setWidth_eq]

theorem readP_length (m : StoreState) (a n : Nat) : (m.readP a n).length = n := by
  simp [StoreState.readP]

/-- A move within the store whose bytes land beside those it reads, or on them, is not blurred (R265). -/
theorem blurMove_apart (s : State) (t : Piece) (c a b : Nat) (hsrc : t.src = .store c a) (hdst : t.dst = .store c b)
    (ha : a ≤ 0x300000) (hb : b ≤ 0x300000)
    (h : a = b ∨ a + t.data.length ≤ b ∨ b + t.data.length ≤ a) : blurMove s [t] = ([t], 0) := by
  have hspan (k : Nat) (hk : k ≤ 0x300000) : spanOfRuns [(k, t.data.length)] = (k, k + t.data.length) := by
    simp only [spanOfRuns, List.foldl_cons, List.foldl_nil, Prod.mk.injEq]
    omega
  simp only [blurMove, List.filterMap_cons, List.filterMap_nil, hsrc, hdst, storeRun, if_true, List.map_cons, List.map_nil,
    hspan a ha, hspan b hb]
  refine if_pos ?_
  obtain rfl | hbelow | habove := h
  · exact .inr (.inr (.inr (by simp)))
  · exact .inr (.inr (.inl hbelow))
  · exact .inr (.inl habove)

/-- The one row that a straight MOVE within the store of cell `id` reads, as it travels (R264, R265). -/
def straightPiece (s : State) (id : CellId) (x : WbCtx) (m : MoveOp) (len : Nat) : Piece :=
  ⟨.store id.toNat (rget x.v m.sa).toNat, .store id.toNat (rget x.v m.da).toNat,
    (s.cell id).store.readP (rget x.v m.sa).toNat len, m.pm, x.segs, x.segs * 65536, x.pc, s.ns, false⟩

/-- A MOVE of one row within the store of cell `id`: no transform and no ring, its bytes inside the store and read from
lanes without errors, and written on those it reads or beside them. -/
structure State.StraightRow (s : State) (id : CellId) (x : WbCtx) (m : MoveOp) (sh : Shape) : Prop where
  xf : m.xf = 0
  ssp : m.ssp = 0
  dsp : m.dsp = 0
  rng : m.rng = false
  rows : sh.nr = 1
  bytes : 0 < sh.len
  src : (rget x.v m.sa).toNat + sh.len ≤ 0x300000
  dst : (rget x.v m.da).toNat + sh.len ≤ 0x300000
  apart : (rget x.v m.sa).toNat = (rget x.v m.da).toNat ∨ (rget x.v m.sa).toNat + sh.len ≤ (rget x.v m.da).toNat ∨
    (rget x.v m.da).toNat + sh.len ≤ (rget x.v m.sa).toNat
  clean : ∀ l ∈ lanesOf (rget x.v m.sa).toNat sh.len, l ∉ (s.cell id).store.ue ∧ l ∉ (s.cell id).store.ce

theorem sideRuns_store {s : State} {pm : List Tensor} {id : CellId} {x : WbCtx} (a n : Nat) (h : a + n ≤ 0x300000) :
    s.sideRuns pm (x.side id 0) a n = .inl [(.store id.toNat a, n)] :=
  if_neg (Nat.not_lt.2 h)

section
variable {s : State} {pm : List Tensor} {id : CellId} {x : WbCtx} {m : MoveOp} {sh : Shape} (hm : s.StraightRow id x m sh)
include hm

theorem moveWrites_straight : moveWrites m sh = [(0, 0, 0, 0, sh.len)] := by
  rw [moveWrites_plain m sh hm.xf, hm.rows]
  rfl

theorem moveRows_straight : moveRows s pm id x m sh = (s, [([(.store id.toNat (rget x.v m.sa).toNat, sh.len)],
    (s.cell id).store.readP (rget x.v m.sa).toNat sh.len)], none) := by
  simp [moveRows, hm.rows, hm.ssp, List.range_one, strideAddr_zero, sideRuns_store _ _ hm.src,
    touchPlace_store s id _ _ hm.bytes hm.clean, readPlace_store]

omit hm in
theorem rowPieces_straight :
    rowPieces ⟨.host 0, .host 0, [], m.pm, x.segs, x.segs * 65536, x.pc, s.ns, false⟩
      [(.store id.toNat (rget x.v m.sa).toNat, sh.len)] [(.store id.toNat (rget x.v m.da).toNat, sh.len)]
      (((s.cell id).store.readP (rget x.v m.sa).toNat sh.len).take sh.len) = [straightPiece s id x m sh.len] := by
  have hbytes := readP_length (s.cell id).store (rget x.v m.sa).toNat sh.len
  rw [List.take_of_length_le hbytes.le]
  exact rowPieces_one _ _ _ _ _ hbytes

theorem blurMove_straight : blurMove s [straightPiece s id x m sh.len] = ([straightPiece s id x m sh.len], 0) := by
  refine blurMove_apart s (straightPiece s id x m sh.len) id.toNat _ _ rfl rfl ?_ ?_ ?_
  · exact Nat.le_of_add_right_le hm.src
  · exact Nat.le_of_add_right_le hm.dst
  · simpa only [straightPiece, readP_length] using hm.apart

/-- It reads its row and forms one piece of it; no line of HBM is read, and nothing faults. -/
theorem moveGather_straight : moveGather s pm id x m sh = ⟨s, [straightPiece s id x m sh.len], [], none⟩ := by
  have hlines : devLines [(.store id.toNat (rget x.v m.sa).toNat, sh.len)] = [] := rfl
  simp only [moveGather, moveRows_straight hm, moveWrites_straight hm]
  simp [hm.xf, hm.rng, hm.dsp, strideAddr_zero, sideRuns_store _ _ hm.dst, rowPieces_straight, blurMove_straight hm, hlines,
    State.skipFree]

end

end Sys2Proof.Machine

open Sys2Proof Sys2Proof.Machine

/-- Settles O31: a MOVE whose checks pass is issued with what it gathers, which for a straight row is one piece. -/
theorem waybillMoves : Obligations.WaybillMoves := by
  unfold Obligations.WaybillMoves
  intro s id i w sh hok hr c x m s0 src dst hready
  have hx : rget (s0.cell id).wb i = x := by rw [State.cell_setCell]
  have hissue (u : State) (hu : (m.xf = 0 ∧ u = s0) ∨ (m.xf ≠ 0 ∧ s0.freeUnit id = .inl u)) :
      exec (.wbMove id i w) s = .next (issueMove id i m sh u) := by
    have ⟨hop, hlegal, _⟩ := hready
    refine (wbInstr_spelled hok hr (run := runMove) rfl ⟨hop, hlegal⟩).trans (congrArg _ ?_)
    exact runMove_ready (hx ▸ hready) hu
  refine ⟨fun u hu => ?_, fun hxf hssp hdsp hrng hrows hlen hsrc hdst happart hclean => ?_⟩
  · intro y g hg hfault hsnoop hpaused
    rw [hissue u hu, issueMove_gathered hg hfault (needSnoops_nil u _ _ hsnoop hpaused)]
  · intro piece
    have hcell : s0.cell id = c := State.cell_setCell s id c
    have hrow : s0.StraightRow id (rget (s0.cell id).wb i) m sh := by
      rw [hx]
      exact ⟨hxf, hssp, hdsp, hrng, hrows, hlen, hsrc, hdst, happart, by rwa [hcell]⟩
    have hpiece : straightPiece s0 id x m sh.len = piece := by
      rw [straightPiece, hcell]
      rfl
    rw [hissue s0 (.inl ⟨hxf, rfl⟩), issueMove_gathered (moveGather_straight hrow) rfl rfl, hx, State.setCtx_setCell, hpiece,
      hrows]
    rfl

end

section
/-!
PROOFS. The events of a waybill context: waits, deferred SIGNALs, fences and lost segments (R259, R262, R263, R272, R275).
-/

namespace Sys2Proof.Machine

/-! ### Waits and fences (R259, R262) -/

section
variable {s : State} {id : CellId} {i : BitVec 2}

/-- A waiting context goes on once its semaphore may be taken (R259). -/
theorem wbWaitDone_waiting {sem : BitVec 5} {cnt : Nat} (hwait : (rget (s.cell id).wb i).waitOn = some (sem, cnt)) :
    wbWaitDone id i s = if (s.cell id).mayTake sem (5 + i.toNat) cnt then s.wbTake id i sem cnt else s := by
  simp only [wbWaitDone, hwait]

theorem pieces_of_out {x : WbCtx} {ps : List Piece} (h : x.out = ps.map .inl) : x.pieces = ps := by
  simp [WbCtx.pieces, h, List.filterMap_map]

theorem signals_of_out {x : WbCtx} {ps : List Piece} (h : x.out = ps.map .inl) : x.signals = [] := by
  simp [WbCtx.signals, h]

theorem wbFenceDone_lands {ps : List Piece} (hfence : (rget (s.cell id).wb i).fence = true)
    (hout : (rget (s.cell id).wb i).out = ps.map .inl) (hsnoop : s.needSnoops true (pieceLines ps) = none) :
    let x := rget (s.cell id).wb i
    wbFenceDone id i s =
      (s.landAll ps).setCtx id i (({ x with out := [], fence := false } : WbCtx).follow (x.pc + 8)) := by
  simp only [wbFenceDone, hfence, not_true, if_false, pieces_of_out hout, signals_of_out hout, hsnoop]

/-! ### Deferred SIGNALs (R262) -/

theorem splitSignal_first (ps : List Piece) (d : DeferredSig) (rest : List (Piece ⊕ DeferredSig)) :
    splitSignal (ps.map .inl ++ .inr d :: rest) = some (ps, d, rest) := by
  induction ps with
  | nil => rfl
  | cons p ps ih => simp [splitSignal, ih]

theorem wbSignalEffect_first {ps : List Piece} {d : DeferredSig} {rest : List (Piece ⊕ DeferredSig)}
    (hout : (rget (s.cell id).wb i).out = ps.map .inl ++ .inr d :: rest)
    (hsnoop : s.needSnoops true (pieceLines ps) = none) :
    wbSignalEffect id i s =
      (((s.landAll ps).setCtx id i { rget (s.cell id).wb i with out := rest }).signal id d.sem d.add 2).wbClose id i := by
  simp only [wbSignalEffect, hout, splitSignal_first, hsnoop]

/-! ### Lost segments (R272, R275) -/

/-- Whether a segment of a piece is lost: it has gone 1,000,000 ns unacknowledged, or its path has failed (R272). -/
abbrev State.segLost (s : State) (late : Bool) (p : Piece) : Bool :=
  if late then decide (p.since + 1000000 ≤ s.ns) else s.pathLost p

section
variable {p : Piece} {k : Nat} (late : Bool) (hout : (rget (s.cell id).wb i).out = [.inl p]) (hseg : p.seg = k)
  (hside : p.inbound id = true ∨ p.outbound id = true)
include hout hseg hside

/-- What becomes of the one piece of a context's only segment. -/
theorem wbLost_only : wbLost id i k late s =
    let x := rget (s.cell id).wb i
    if ¬ s.segLost late p = true then s
    else if (!p.pm || p.outbound id) = true then s.wbFaultAt id i wfPath p.iaddr x.seq
    else ((s.spoil p).1.setCtx id i { x with out := [.inl (s.spoil p).2], marked := true }).wbMark
      id i x.seq p (!x.marked) late := by
  have hpieces : (rget (s.cell id).wb i).pieces = [p] := pieces_of_out (ps := [p]) hout
  have hof : p.ofSeg id k = true := by simp [Piece.ofSeg, hseg, hside]
  have hspoil : s.spoilAll id k [p] = ((s.spoil p).1, [(s.spoil p).2]) := by simp [State.spoilAll, hof]
  have hhit : [p].filter (fun q => q.ofSeg id k) = [p] := List.filter_cons_of_pos hof
  simp only [wbLost, wbLose, hpieces, hhit, List.any_cons, List.any_nil, Bool.or_false, hspoil, hout, refill, State.segLost]

theorem wbLost_stays (h : s.segLost late p = false) : wbLost id i k late s = s :=
  (wbLost_only late hout hseg hside).trans (if_pos (by simp [h]))

/-- Without PM, and for a piece that leaves the cell, the waybill ends with PATH at the address of its MOVE. -/
theorem wbLost_ends (h : s.segLost late p = true) (hpath : p.pm = false ∨ p.outbound id = true) :
    wbLost id i k late s = s.wbFaultAt id i wfPath p.iaddr (rget (s.cell id).wb i).seq :=
  (wbLost_only late hout hseg hside).trans ((if_neg (not_not_intro h)).trans (if_pos (by simpa using hpath)))

/-- A piece read under PM arrives spoiled; where the RUNWB has reported one before, it is only counted. -/
theorem wbLost_marks (h : s.segLost late p = true) (hpm : p.pm = true) (hin : p.outbound id = false)
    (hmarked : (rget (s.cell id).wb i).marked = true) :
    let c := s.cell id
    wbLost id i k late s = (s.spoil p).1.setCell id { c with
      wb := rset c.wb i { rget c.wb i with out := [.inl (s.spoil p).2], marked := true }
      regs := { c.regs with wbMarked := BitVec.ofNat 32 (min 0xFFFF (c.regs.wbMarked.toNat + 1)) } } := by
  rw [wbLost_only late hout hseg hside, if_neg (not_not_intro h), if_neg (by simp [hpm, hin]), hmarked]
  simp only [State.wbMark, Bool.not_true, Bool.false_eq_true, if_false, State.setCtx, State.modCell, State.cell_setCell,
    State.setCell_setCell]
  rfl

end

end

end Sys2Proof.Machine

open Sys2Proof Sys2Proof.Machine

/-- Settles O32: the transforms by the members of their lists of writes, each event by what it does in the case named. -/
theorem waybillTransformsAndEvents : Obligations.WaybillTransformsAndEvents := by
  unfold Obligations.WaybillTransformsAndEvents
  refine ⟨fun m sh row off srow soff n _ _ => mem_moveWrites, ?_⟩
  intro s id i hok hworks c x
  have live (f : State → State) : withLive id s f = .next (f s) := withLive_works id s f hok hworks
  refine ⟨fun sem cnt hwait ht => ?_, fun sem cnt hwait ht => ?_, fun ps d rest hout hsnoop hpaused => ?_,
    fun ps hfence hout hsnoop hpaused => ?_, fun p k late hout hseg hside => ?_⟩
  · exact (live _).trans (congrArg _ ((wbWaitDone_waiting hwait).trans (if_pos ht)))
  · exact (live _).trans (congrArg _ ((wbWaitDone_waiting hwait).trans (if_neg (Bool.eq_false_iff.1 ht))))
  · exact (live _).trans (congrArg _ (wbSignalEffect_first hout (needSnoops_nil s _ _ hsnoop hpaused)))
  · exact (live _).trans (congrArg _ (wbFenceDone_lands hfence hout (needSnoops_nil s _ _ hsnoop hpaused)))
  · exact ⟨fun h => (live _).trans (congrArg _ (wbLost_stays late hout hseg hside h)),
      fun h hpath => (live _).trans (congrArg _ (wbLost_ends late hout hseg hside h hpath)),
      fun h hpm hin hmarked => (live _).trans (congrArg _ (wbLost_marks late hout hseg hside h hpm hin hmarked))⟩

end

section
/-!
PROOFS. Sectors of HBM (R290 to R297): what a read leaves of a sector by the lanes in error, and the requests of the device
to a sector that nothing holds back.
-/

namespace Sys2Proof.Machine

/-! ### Poisoned bytes (R189) -/

theorem any_snd_poisoned {bs : List Byte} (h : bs ≠ []) : ((bs.map fun b => (b, true)).any Prod.snd) = true := by
  cases bs with
  | nil => exact absurd rfl h
  | cons b bs => rfl

/-- Where every byte is poisoned, a reader outside sees as many free values. -/
theorem seenBytes_poisoned (s : State) (bs : List Byte) (h : bs ≠ []) :
    s.seenBytes (bs.map fun b => (b, true)) = ((List.range bs.length).map s.freeByte, s.skipFree bs.length) := by
  have hfree : ((bs.map fun b => (b, true)).zipIdx.map fun b => if b.1.2 then s.freeByte b.2 else b.1.1) =
      (List.range bs.length).map s.freeByte :=
    List.ext_getElem (by simp) fun i _ _ => by simp
  rw [State.seenBytes, any_snd_poisoned h, if_pos rfl, hfree, List.length_map]

/-! ### Requests to one sector (R289, R297, R305) -/

/-- Nothing holds back an access of the device to a sector: the memory runs, the host has no copy of a line, no request
waits, and the sector's pseudo-channel is not paused. -/
structure State.SectorFree (s : State) (sector : Nat) : Prop where
  runs : s.memRuns = true
  uncached : s.mem.snoop = []
  first : s.mem.queued = []
  unpaused : Sparse.find s.mem.paused (s.mem.pchOf sector) = none

section
variable {s : State} {sector : Nat} (hfree : s.SectorFree sector)
include hfree

/-- A request of the device to such a sector is carried out at once. -/
theorem accessSector_served {r : MemReq} {w : Bool} (hsectors : r.sectors = [sector])
    (hlines : r.lines = some (w, [sector / 2])) : s.accessSector r = s.serve r := by
  have hgo : s.mustQueue r = false := by
    simp [State.mustQueue, hfree.first, hsectors, MemState.pausedAt, hfree.unpaused, hfree.runs]
  simp only [State.accessSector, hfree.runs, if_true, State.request, hgo, hlines,
    needSnoops_one s w sector hfree.uncached hfree.unpaused]
  rfl

theorem atomicUpdate_served {dpa : Nat} {fmt : BitVec 4} {op : BitVec 3} {f : EFmt} (value : Nat) (poison : Bool)
    (hdpa : dpa / 32 = sector) (hop : op.toNat ≤ 2) (hcode : EFmt.ofCode fmt.toNat = some f)
    (hf : f ∈ [.fp32, .bf16, .int32, .int64]) (halign : dpa % (f.width / 8) = 0) :
    s.atomicUpdate dpa fmt op value poison [] = s.applyAtom ⟨.dev dpa, f, op, value, poison⟩ := by
  have hfmt : (f == .fp32 || f == .bf16 || f == .int32 || f == .int64) = true := by simpa [or_assoc] using hf
  have hserved := accessSector_served hfree (r := .atom dpa f op value poison []) (w := true)
    (congrArg (fun k => [k]) hdpa) (by simp only [MemReq.lines, ← hdpa, Nat.div_div_eq_div_mul])
  simp only [State.atomicUpdate, hcode, hfmt, hop, halign, decide_true, Bool.and_true, if_true]
  exact hserved

end

/-! ### What a request does to its sector (R290 to R292) -/

section
variable (s : State) (sector : Nat)

/-- A read of a clean sector answers its bytes, after what its lanes in error leave (R290). -/
theorem serve_read_clean (errs : List Nat) (h : sector ∉ (s.readSector sector errs 0).mem.poison) :
    let s1 := s.readSector sector errs 0
    s.serve (.read sector errs) =
      s1.reply 2 0 [sector, 0] ((List.range 32).map fun i => s1.mem.hbm.get 0 (32 * sector + i)) := by
  intro s1
  have hclean : ∀ i < 32, (32 * sector + i) / 32 ∉ s1.mem.poison := fun i hi => by
    rwa [show (32 * sector + i) / 32 = sector by omega]
  simp only [State.serve]
  rw [readHbm_unpoisoned _ _ _ hclean, seenBytes_unpoisoned]
  simp [s1]

/-- A read of a poisoned sector answers free values with the poison bit (R291). -/
theorem serve_read_poisoned (h : sector ∈ s.mem.poison) : s.serve (.read sector []) =
    (s.skipFree 32).reply 2 0 [sector, 1] ((List.range 32).map s.freeByte) := by
  let bs := (List.range 32).map fun i => s.mem.hbm.get 0 (32 * sector + i)
  have hbad : s.mem.readHbm (32 * sector) 32 = bs.map fun b => (b, true) := by
    simp only [readHbm_bad s.mem sector h, bs, List.map_map]
    rfl
  have hne : bs ≠ [] := by simp [bs]
  have hlen : bs.length = 32 := by simp [bs]
  simp only [State.serve, State.readSector, hbad, seenBytes_poisoned s bs hne, any_snd_poisoned hne, hlen, if_true]

/-- A write that lies in its sector stores its bytes and their poison; only one of less than the sector reads it first
(R292). -/
theorem serve_write (off : Nat) (bytes : List Byte) (poison : Bool) (errs : List Nat) (hfit : off + bytes.length ≤ 32)
    (hread : bytes.length = 32 ∨ errs = []) : s.serve (.write sector off bytes poison errs) =
      { s with mem := s.mem.writeHbm (32 * sector + off) (bytes.map fun b => (b, poison)) } := by
  have hall : min bytes.length (32 - off) = bytes.length := by omega
  have hunread : (if bytes.length < 32 then s.readSector sector errs 4 else s) = s := by
    split
    · rcases hread with hread | rfl
      · omega
      · rfl
    · rfl
  simp only [State.serve, hall, hunread, List.take_length]

/-- Patrol scrub reads a sector of the address space as any other read does (R293). -/
theorem scrub_reads (stack : BitVec 4) (errs : List Nat) (hm : s.memRuns = true) (hcfg : s.mem.scrubCfg.getLsbD 0 = true)
    (hp : Sparse.find s.mem.paused (s.mem.pchOf sector) = none) :
    s.scrub stack sector false errs = s.readSector sector errs 2 := by
  simp [State.scrub, hm, hcfg, hp]

end

end Sys2Proof.Machine

open Sys2Proof Sys2Proof.Machine

/-- Settles O33: each access by what its request does to the sector, once nothing holds the sector back. That
every number of lanes in error above one is detected and poisons the sector is the model's choice (assumption log 58). -/
theorem memorySectors : Obligations.MemorySectors := by
  unfold Obligations.MemorySectors
  intro s sector hsector hm hsnoop hqueued hpaused l st lane1 bad
  have hfree : s.SectorFree sector := ⟨hm, hsnoop, hqueued, hpaused⟩
  have read (errs : List Nat) : exec (.hbmAccess sector .read errs) s = .next (s.serve (.read sector errs)) :=
    (if_neg (Nat.not_le.2 hsector)).trans (congrArg _ (accessSector_served hfree rfl rfl))
  have write (off : BitVec 5) (bytes : List Byte) (poison : Bool) (errs : List Nat) :
      exec (.hbmAccess sector (.write off bytes poison) errs) s =
        .next (s.serve (.write sector off.toNat bytes poison errs)) :=
    (if_neg (Nat.not_le.2 hsector)).trans (congrArg _ (accessSector_served hfree rfl rfl))
  refine ⟨fun hclean => ⟨?_, fun k => ?_⟩, fun hbad => ?_, fun bytes poison errs hlen => ?_,
    fun off bytes poison hfit _ => ?_, fun hcfg stack => ?_, fun dpa value op poison hdpa hop f hf halign => ?_⟩
  · exact (read []).trans (congrArg _ (serve_read_clean s sector [] hclean))
  · exact (read [k]).trans (congrArg _ (serve_read_clean s sector [k] hclean))
  · exact (read []).trans (congrArg _ (serve_read_poisoned s sector hbad))
  · exact (write 0 bytes poison errs).trans (congrArg _ (serve_write s sector 0 bytes poison errs (by omega) (.inl hlen)))
  · exact (write off bytes poison []).trans (congrArg _ (serve_write s sector off.toNat bytes poison [] hfit (.inr rfl)))
  · have scrub (errs : List Nat) : exec (.scrubRead stack sector false errs) s = .next (s.readSector sector errs 2) :=
      (if_neg (Nat.not_le.2 hsector)).trans (congrArg _ (scrub_reads s sector stack errs hm hcfg hpaused))
    exact ⟨scrub [], fun k => scrub [k], fun a b r => scrub (a :: b :: r)⟩
  · have hformat : ∀ f ∈ [(0, EFmt.fp32), (1, EFmt.bf16), (10, EFmt.int32), (11, EFmt.int64)],
        EFmt.ofCode (BitVec.ofNat 4 f.1).toNat = some f.2 ∧ f.2 ∈ [EFmt.fp32, .bf16, .int32, .int64] := by decide
    obtain ⟨hcode, hatomic⟩ := hformat f hf
    exact (if_neg (show ¬ dpaSize ≤ dpa by simp only [dpaSize]; omega)).trans
      (congrArg _ (atomicUpdate_served hfree value poison hdpa hop hcode hatomic halign))

end

section
/-!
PROOFS. The host's accesses to the memory of the device, its answers to snoops, and the repair of a lane (R289, R304 to
R306).
-/

namespace Sys2Proof.Machine

/-! ### Accesses of the host (R304, R306) -/

/-- With no request queued, there is none to try again. -/
theorem retryQueued_nil (s : State) (h : s.mem.queued = []) : s.retryQueued = s := by
  have hmem : ({ s.mem with queued := [] } : MemState) = s.mem := by rw [← h]
  rw [State.retryQueued, h, hmem]
  rfl

section
variable {s : State} (offset : Nat)

/-- A request of the host is served at once where no request waits and no pseudo-channel is paused (R289, R297). -/
theorem request_host {r : MemReq} (hr : r.lines = none) (hqueued : s.mem.queued = []) (hpaused : s.mem.paused = []) :
    s.request r = s.serve r := by
  have hgo : s.mustQueue r = false := by
    simp [State.mustQueue, hqueued, hr, pausedAt_nil _ hpaused]
  simp only [State.request, hgo, hr, Bool.false_eq_true, if_false]

theorem hostRead_device (cache own : Bool) (e0 e1 : List Nat) (hup : s.hostUp = true) (hin : offset < 1152000000000)
    (hqueued : s.mem.queued = []) (hpaused : s.mem.paused = []) :
    s.hostRead offset cache own e0 e1 = s.serveHostRead offset cache own e0 e1 := by
  have hdev : ¬ dpaSize ≤ 64 * (offset / 64) := by simp only [dpaSize]; omega
  simp only [State.hostRead, hup, not_true, if_false, if_neg hdev]
  exact request_host rfl hqueued hpaused

/-- The guard space above the device memory answers poison, with the event (R304). -/
theorem hostRead_guard (cache own : Bool) (e0 e1 : List Nat) (hup : s.hostUp = true) (hout : 1152000000000 ≤ offset) :
    s.hostRead offset cache own e0 e1 =
      ((s.skipFree 1).reply 2 1 [64 * (offset / 64), 1] (leBytes 64 (Config.freeNat s.free))).raise 0x0406 .warning
        [(8, offset)] := by
  have hguard : dpaSize ≤ 64 * (offset / 64) := by simp only [dpaSize]; omega
  simp only [State.hostRead, hup, not_true, if_false, if_pos hguard, freshNat_eq]

theorem hostWrite_device (data : List Byte) (poison keep : Bool) (errs : List Nat) (hup : s.hostUp = true)
    (hin : offset < 1152000000000) (hqueued : s.mem.queued = []) (hpaused : s.mem.paused = []) :
    s.hostWrite offset data poison keep errs = s.serveHostWrite offset data poison keep errs := by
  have hdev : ¬ dpaSize ≤ 64 * (offset / 64) := by simp only [dpaSize]; omega
  simp only [State.hostWrite, hup, not_true, if_false, if_neg hdev]
  exact request_host rfl hqueued hpaused

theorem hostWrite_guard (data : List Byte) (poison keep : Bool) (errs : List Nat) (hup : s.hostUp = true)
    (hout : 1152000000000 ≤ offset) :
    s.hostWrite offset data poison keep errs = s.raise 0x0406 .warning [(8, offset)] := by
  have hguard : dpaSize ≤ 64 * (offset / 64) := by simp only [dpaSize]; omega
  simp only [State.hostWrite, hup, not_true, if_false, if_pos hguard]

/-- A read of a line of clean sectors answers its bytes, and the snoop filter takes a line that the host keeps (R305,
R306). -/
theorem serveHostRead_clean (cache own : Bool) (h0 : 2 * (offset / 64) ∉ s.mem.poison)
    (h1 : 2 * (offset / 64) + 1 ∉ s.mem.poison) :
    let line := offset / 64
    let s1 := s.reply 2 1 [64 * line, 0] ((List.range 64).map fun i => s.mem.hbm.get 0 (64 * line + i))
    s.serveHostRead offset cache own [] [] = if cache ∨ own then s1.trackLine line own else s1 := by
  intro line s1
  have hclean : ∀ i < 64, (64 * (offset / 64) + i) / 32 ∉ s.mem.poison := fun i hi => by
    rcases Nat.lt_or_ge i 32 with hlow | hhigh
    · rwa [show (64 * (offset / 64) + i) / 32 = 2 * (offset / 64) by omega]
    · rwa [show (64 * (offset / 64) + i) / 32 = 2 * (offset / 64) + 1 by omega]
  have hline : 64 * (offset / 64) / 64 = line := Nat.mul_div_cancel_left _ (by decide)
  simp only [State.serveHostRead, State.readSector, readHbm_unpoisoned _ _ _ hclean, seenBytes_unpoisoned, hline]
  simp [s1, line]

/-- A write within its line stores its bytes and their poison, and the host keeps the line modified or gives it up (R305,
R306). -/
theorem serveHostWrite_within (data : List Byte) (poison keep : Bool) (hfit : offset % 64 + data.length ≤ 64) :
    let m := s.mem.writeHbm offset (data.map fun b => (b, poison))
    s.serveHostWrite offset data poison keep [] =
      if keep then ({ s with mem := m } : State).trackLine (offset / 64) true
      else { s with mem := { m with snoop := m.snoop.filter fun e => e.1 ≠ offset / 64 } } := by
  intro m
  have hall : data.take (64 - offset % 64) = data := List.take_of_length_le (by omega)
  simp only [State.serveHostWrite, hall, readSector_fold, m]

end

/-! ### Answers to snoops (R305) -/

/-- The memory once the host has answered for a line that `w` waited for: nothing waits for that answer, and the host has
given the line up or holds it unmodified. -/
def MemState.answered (m : MemState) (line : Nat) (w : SnoopWait) : MemState :=
  { m with
    snoopWait := m.snoopWait.filter fun k => !(k.line == line && k.write == w.write)
    snoop := if w.write then m.snoop.filter fun e => e.1 ≠ line
      else m.snoop.map fun e => if e.1 = line then (line, false) else e }

section
variable {s : State} {line : Nat} {w : SnoopWait} (poison : Bool) (hqueued : s.mem.queued = [])
  (hw : (s.mem.snoopWait.find? fun w => w.line = line) = some w)
include hqueued hw

theorem snoopAnswer_empty : s.snoopAnswer line none poison = { s with mem := s.mem.answered line w } := by
  simp only [State.snoopAnswer, hw]
  exact retryQueued_nil _ hqueued

theorem snoopAnswer_data {data : List Byte} (hline : line < 18000000000) (hlen : data.length = 64) :
    s.snoopAnswer line (some data) poison =
      { s with mem := (s.mem.writeHbm (64 * line) (data.map fun b => (b, poison))).answered line w } := by
  have hdev : line < dpaSize / 64 := hline
  simp only [State.snoopAnswer, hw, if_pos hdev, List.take_of_length_le (Nat.le_of_eq hlen)]
  exact retryQueued_nil _ hqueued

end

/-! ### The repair of a lane (R289) -/

/-- A lane whose recent errors reach the threshold is repaired with the spare; without one, that is reported once. -/
theorem laneRepairStart_due {s : State} {pch : BitVec 10} {lane : Nat} (hm : s.memRuns = true)
    (hcfg : s.mem.repairCfg.getLsbD 0 = true)
    (hdue : s.mem.thresh ≤
      ((Sparse.at [] s.mem.laneErr (64 * pch.toNat + lane)).filter fun t => s.ns < t + 1000000).length)
    (hpaused : Sparse.find s.mem.paused pch.toNat = none) :
    let p := pch.toNat
    s.laneRepairStart pch lane =
      if p ∈ s.mem.spareUsed then
        if 64 * p + lane ∈ s.mem.noSpare then s
        else ({ s with mem := { s.mem with noSpare := setIns s.mem.noSpare (64 * p + lane) } } : State).raise 0x0403
          .warning [(1, p / 64), (1, p % 64 / 2), (1, p % 2), (1, lane)]
      else { s with mem := { s.mem with paused := Sparse.put s.mem.paused p lane } } := by
  intro p
  have hstart : ¬ (¬ s.memRuns = true ∨ ¬ s.mem.repairCfg.getLsbD 0 = true ∨
      ((Sparse.at [] s.mem.laneErr (64 * p + lane)).filter fun t => s.ns < t + 1000000).length < s.mem.thresh ∨
      (Sparse.find s.mem.paused p).isSome = true) := by
    simp [hm, hcfg, p, hpaused, Nat.not_lt.2 hdue]
  simp only [State.laneRepairStart]
  rw [if_neg hstart]
  simp only [List.contains_iff_mem, p]

/-- The end of a repair, with no request to serve: the spare lane carries the traffic, with its event and counts. -/
theorem laneRepairEnd_done {s : State} {pch : BitVec 10} {lane : Nat}
    (hpaused : Sparse.find s.mem.paused pch.toNat = some lane) (hqueued : s.mem.queued = []) :
    let p := pch.toNat
    let i := BitVec.ofNat 4 (p / 64)
    let st := rget s.mem.stks i
    let m : MemState := { s.mem with
      paused := Sparse.erase s.mem.paused p, spareUsed := setIns s.mem.spareUsed p
      laneErr := Sparse.erase s.mem.laneErr (64 * p + lane)
      stks := rset s.mem.stks i { st with spares := st.spares - 1, repLive := satInc st.repLive } }
    s.laneRepairEnd pch = ({ s with mem := m } : State).raise 0x0402 .warning
      [(1, p / 64), (1, p % 64 / 2), (1, p % 2), (1, lane), (1, 1), (1, (st.spares - 1).toNat)] := by
  intro p i st m
  simp only [State.laneRepairEnd, hpaused, State.modStack, rget_rset_same]
  exact retryQueued_nil _ ((congrArg MemState.queued (State.raise_mem _ _ _ _)).trans hqueued)

end Sys2Proof.Machine

open Sys2Proof Sys2Proof.Machine

/-- Settles O34: the host's accesses by the side of the guard space they fall on, answers to snoops by whether they bring
data, and a repair by what is left of the spares. -/
theorem hostMemoryAndRepair : Obligations.HostMemoryAndRepair := by
  unfold Obligations.HostMemoryAndRepair
  refine ⟨?_, fun s => ⟨?_, ?_, ?_⟩⟩
  · intro s offset hin hdef hup hqueued hpaused line bytes
    have hbase : s.undefinedIf (s.hostUndef offset) = s := by rw [hdef]; rfl
    have read (cache own : Bool) (e0 e1 : List Nat) :
        exec (.hostMemRead offset cache own e0 e1) s = .next (s.hostRead offset cache own e0 e1) :=
      (if_neg (Nat.not_le.2 hin)).trans (by rw [hbase])
    have write (data : List Byte) (poison keep : Bool) (errs : List Nat) :
        exec (.hostMemWrite offset data poison keep errs) s = .next (s.hostWrite offset data poison keep errs) :=
      (if_neg (Nat.not_le.2 hin)).trans (by rw [hbase])
    refine ⟨?_, fun hguard => ⟨fun cache own e0 e1 => ?_, fun data poison keep errs => ?_⟩, ?_⟩
    · intro hdev h0 h1 s1
      have served (cache own : Bool) : exec (.hostMemRead offset cache own [] []) s =
          .next (if cache ∨ own then s1.trackLine line own else s1) :=
        (read cache own [] []).trans (congrArg _ ((hostRead_device offset cache own [] [] hup hdev hqueued hpaused).trans
          (serveHostRead_clean offset cache own h0 h1)))
      exact ⟨served false false, served true false,
        fun cache => (served cache true).trans (congrArg _ (if_pos (.inr rfl)))⟩
    · exact (read cache own e0 e1).trans (congrArg _ (hostRead_guard offset cache own e0 e1 hup hguard))
    · exact (write data poison keep errs).trans (congrArg _ (hostWrite_guard offset data poison keep errs hup hguard))
    · intro hdev data poison hfit m
      have served (keep : Bool) := (write data poison keep []).trans (congrArg _
        ((hostWrite_device offset data poison keep [] hup hdev hqueued hpaused).trans
          (serveHostWrite_within offset data poison keep hfit)))
      exact ⟨served false, served true⟩
  · intro line poison w hqueued hw waits held
    exact ⟨congrArg _ (snoopAnswer_empty poison hqueued hw),
      fun data hline hlen => congrArg _ (snoopAnswer_data poison hqueued hw hline hlen)⟩
  · intro pch lane hlane hm hcfg key hdue hpaused
    have start : exec (.laneRepairStart pch lane) s = .next _ :=
      (if_neg (Nat.not_le.2 hlane)).trans (congrArg _ (laneRepairStart_due hm hcfg hdue hpaused))
    exact ⟨fun hspare => start.trans (congrArg _ (if_neg hspare)),
      fun hused htold => start.trans (congrArg _ ((if_pos hused).trans (if_pos htold))),
      fun hused hnew => start.trans (congrArg _ ((if_pos hused).trans (if_neg hnew)))⟩
  · intro pch lane hpaused hqueued i st m
    exact congrArg _ (laneRepairEnd_done hpaused hqueued)

end

section
/-!
PROOFS. The scope table, the commit of the placement map, moves between tiers and lost tensors (R282, R301 to R303, R349).
-/

namespace Sys2Proof.Machine

/-! ### The scope table (R282) -/

/-- A commit that changes the scope of no group with contents leaves every byte as it is. -/
theorem scopeCommit_unmoved (s : State)
    (h : ∀ c ∈ s.mem.hbm, scopeIn s.mem.scopeAct (c.1 / 4608000000) = scopeIn s.mem.scopeShd (c.1 / 4608000000)) :
    let ver := s.mem.scopeVer + 1
    let moved := (List.range 250).filter fun j => scopeIn s.mem.scopeAct j ≠ scopeIn s.mem.scopeShd j
    s.scopeCommit = ({ s with
      mem := { s.mem with
        scopeAct := s.mem.scopeShd, scopeVer := ver, queued := s.mem.queued.map (MemReq.rescope s.mem.rescope) }
      cells := if moved = [] then s.cells else s.cells.map fun e => (e.1, e.2.rescope s.mem.rescope) } : State).raise
        0x0407 .info [(4, ver.toNat), (1, moved.length)] := by
  intro ver moved
  have hhit : (s.mem.hbm.filter fun c => moved.contains (c.1 / 4608000000)) = [] :=
    List.filter_eq_nil_iff.2 fun c hc => by simp [moved, h c hc]
  simp only [State.scopeCommit]
  rw [hhit]
  rfl

/-! ### The placement map (R303, R349) -/

/-- Where no started task uses an older map, firmware that runs makes the shadow map the active one (R349). -/
theorem commitPmap_commits (s : State) (hfw : s.hif.fwUp = true)
    (hnew : ∀ t ∈ s.dsp.tasks, t.started = true → t.version = s.dsp.pmapVer.toNat) :
    let ver := s.dsp.pmapVer + 1
    s.commitPmap = ({ s with
      mem := { s.mem with tensors := s.mem.shadow, previous := s.mem.tensors }
      dsp := { s.dsp with pmapVer := ver } } : State).raise 0x0504 .info
        [(4, ver.toNat), (4, (changedHandles s.mem.tensors s.mem.shadow).length)] := by
  intro ver
  have hold : (s.dsp.tasks.any fun t => t.started && t.version != s.dsp.pmapVer.toNat) = false := by
    simpa [List.any_eq_false] using hnew
  simp only [State.commitPmap]
  rw [if_neg (by simp [hold, hfw])]

/-- A tensor that may move to a place that can take it is copied there, and the map is committed with the move (R303). -/
theorem moveTensor_moves {s : State} {handle : Nat} {loc : TLoc} {t : Tensor} (ht : tensorIn s.mem.tensors handle = some t)
    (hpinned : t.pinned = false) (huse : s.inUse handle = false) (hmap : s.oldMap = false) (hm : s.memRuns = true)
    (hfw : s.hif.fwUp = true) (hsnoop : s.mem.snoop = []) (hpaused : s.mem.paused = [])
    (hway : loc.tier = t.loc.tier + 1 ∧ (s.mustLeave t = true ∨ s.evictOk t = true) ∨
      loc.tier = t.loc.tier ∧ loc ≠ t.loc ∨ t.prefer ≤ loc.tier ∧ loc.tier < t.loc.tier)
    (hplace : s.placeOk handle t.size t.scope loc = true) :
    let s1 := s.copyTensor t loc
    let placed := s1.mem.shadow.map fun k => if k.handle = handle then { k with loc := loc } else k
    s.moveTensor handle loc = ({ s1 with mem := { s1.mem with shadow := placed } } : State).commitPmap := by
  intro s1 placed
  have hwaits : s.copyWaits t loc = none := by simp only [State.copyWaits, needSnoops_nil s _ _ hsnoop hpaused]
  simp only [State.moveTensor, ht, hwaits]
  exact if_neg (by simp only [hpinned, huse, hmap, hm, hfw, hway, hplace]; decide)

/-! ### Lost tensors (R301, R302) -/

/-- The module that lends a place; 0x7FFF names the host (R301, R302). -/
def TLoc.owner : TLoc → Nat
  | .lender k _ => k
  | _ => 0x7FFF

/-- Nothing of a marshalling engine or of a waybill is in flight. -/
abbrev State.Grounded (s : State) : Prop :=
  ∀ e ∈ s.cells, e.2.qlk.run = [] ∧ e.2.qms.run = [] ∧ ∀ i, (rget e.2.wb i).out = []

theorem segments_grounded {s : State} (h : s.Grounded) (p : Piece → Bool) : s.segments p = [] := by
  refine List.flatMap_eq_nil_iff.2 fun e he => List.flatMap_eq_nil_iff.2 fun i _ => ?_
  obtain ⟨_, hqms, hout⟩ := h e he
  simp only [WbCtx.pieces, hout, hqms]
  rfl

/-- With nothing in flight, the loss of tensors only marks them in every copy of the map and raises MEM_TIER_LOST for each
that was not lost before. -/
theorem loseTensors_grounded {s : State} (h : s.Grounded) (p : Tensor → Bool) :
    let mark (l : List Tensor) : List Tensor := l.map fun t => if p t then { t with lost := true } else t
    let m : MemState := { s.mem with
      tensors := mark s.mem.tensors, shadow := mark s.mem.shadow, previous := mark s.mem.previous }
    s.loseTensors p = (s.mem.tensors.filter fun t => p t && !t.lost).foldl (fun (s : State) t =>
      s.raise 0x0408 .error [(4, t.handle), (1, t.loc.tier), (2, t.loc.owner)]) { s with mem := m } := by
  intro mark m
  have hhits (f : RunCmd → Bool) :
      (s.cells.filterMap fun e => (e.2.qlk.run.find? f).map fun r => ((BitVec.ofNat 11 e.1 : CellId), r)) = [] :=
    List.filterMap_eq_nil_iff.2 fun e he => by rw [(h e he).1]; rfl
  simp only [State.loseTensors, hhits, segments_grounded h, List.foldl_nil]
  rfl

end Sys2Proof.Machine

open Sys2Proof Sys2Proof.Machine

/-- Settles O35: each command by the lemma of its operation. That a move names its place and commits the map in the same
step is the model's choice (assumption log 52, 53). -/
theorem scopesAndTiers : Obligations.ScopesAndTiers := by
  unfold Obligations.ScopesAndTiers
  intro s
  refine ⟨fun v hv => ?_, fun v hv h => ?_, fun k => rfl, fun hfw hnew => ?_, ?_, fun module handle hidle => ?_⟩
  · exact congrArg _ (if_neg (Bool.eq_false_iff.1 hv))
  · exact congrArg _ ((if_pos hv).trans (scopeCommit_unmoved s h))
  · exact congrArg _ (commitPmap_commits s hfw hnew)
  · intro handle place t ht hpinned huse hmap hm hfw hsnoop hpaused loc hway hplace
    exact congrArg _ (moveTensor_moves ht hpinned huse hmap hm hfw hsnoop hpaused hway hplace)
  · exact congrArg _ (loseTensors_grounded hidle _)

end

section
/-!
PROOFS. The mailbox messages about attachment, tasks, tensors and grants, and the Function Level Reset (R302, R341, R369,
R370, R377 to R379): what each serves by its parameters.
-/

namespace Sys2Proof.Machine

/-- The row of a message answers a request for it with the status and the payload that serving it comes to (R368, R369). -/
theorem exec_message {c : Instr} {opc len : Nat} {s u : State} {f : State → MbRes} {status : Nat} {payload : List Byte}
    (hrow : exec c s = mbRow opc len s f) (hasked : s.Asked opc len) (hf : f s = .done status payload u) :
    exec c s = .next (u.mbAnswer status payload) := by
  rw [hrow, mbRow_eq opc len s f hasked, hf]

/-! ### Attachment (R377 to R379) -/

/-- The features a request and the device agree on at the request's level (R379). -/
abbrev State.agreed (s : State) : BitVec 32 :=
  (BitVec.ofNat 32 (s.mbArg 4 4) &&& s.hif.featDev &&& levelMask (s.mbArg 0 1)) ||| 1

section
variable {s : State} (lease : BitVec 32)

theorem attach_otherLevel (h0 : s.mbArg 0 1 ≠ s.hif.khiCur.toNat) (h1 : s.mbArg 0 1 ≠ s.hif.khiPrev.toNat) :
    s.attach lease = .done 6 [] s :=
  if_pos ⟨h0, h1⟩

section
variable (hlevel : s.mbArg 0 1 = s.hif.khiCur.toNat ∨ s.mbArg 0 1 = s.hif.khiPrev.toNat)
include hlevel

/-- At a level of the device, ATTACH is judged by the lease. -/
theorem attach_leased (hlease : s.hif.lease = true) : s.attach lease = .done 7 [] s := by
  simp only [State.attach]
  rw [if_neg (fun h => hlevel.elim h.1 h.2), if_pos hlease]

section
variable (hlease : s.hif.lease = false) (hmode : s.mbArg 1 1 = 1)
include hlease hmode

/-- Without a lease, the device attaches only where queues are agreed on (R379). -/
theorem attach_noQueues (hqueues : s.agreed.getLsbD 1 = false) : s.attach lease = .done 5 [] s := by
  simp only [State.attach, hmode]
  rw [if_neg (fun h => hlevel.elim h.1 h.2), if_neg (by simp [hlease]), if_neg (by decide),
    if_pos ⟨trivial, Bool.eq_false_iff.1 hqueues⟩]

/-- A lease is granted with the level and the features agreed on; events held while detached follow (R378, R382). -/
theorem attach_joins (hrsvd : s.mbArg 2 2 = 0) (hqueues : s.agreed.getLsbD 1 = true) (hexpired : s.hif.expired = false) :
    let h := s.hif
    let level := s.mbArg 0 1
    let joined : HifState := { h with
      attached := true, detached := false, lease := true, expired := false, leaseNo := lease, leaseAt := s.ns
      khiInUse := BitVec.ofNat 8 level, featOn := s.agreed
      evQueue := h.evQueue ++ if s.agreed.getLsbD 5 then h.evHeld else []
      evHeld := if s.agreed.getLsbD 5 then [] else h.evHeld }
    let before := if h.detached then 1 else 0
    s.attach lease = .done 0
      (leBytes 4 lease.toNat ++ leBytes 4 s.agreed.toNat ++ leBytes 1 level ++ leBytes 1 before)
      (({ s with hif := joined } : State).sendPending.issueEvent.raise 0x0604 .info
        [(1, 1), (1, level), (2, s.agreed.toNat), (1, before)]) := by
  intro h level joined before
  have hbase : (s.undefinedIf (s.mbArg 2 2 != 0)).lateDetach = s := by
    simp [State.undefinedIf, hrsvd, State.lateDetach, hexpired]
  simp only [State.attach, hmode, hbase]
  rw [if_neg (fun h => hlevel.elim h.1 h.2), if_neg (by simp [hlease]), if_neg (by decide),
    if_neg (fun h => h.2 hqueues)]
  rfl

end

end

end

/-! ### Tasks (R341, R370) -/

/-- The found field of TASK_ABORT: 1 for a task that waits, 2 for one that runs, 0 for one that ends (R370). -/
def Stage.found : Stage → Nat
  | .ready | .dmq => 1
  | .placed | .running => 2
  | .ending | .ended => 0

section
variable {s : State} (htree : s.mbArg 4 1 = 0)
include htree

/-- An ID that names no task was given out before, or was never given out. -/
theorem taskAbort_unknown (htask : s.task (s.mbArg 0 4) = none) : s.taskAbort =
    if s.mbArg 0 4 ≠ 0 ∧ s.mbArg 0 4 ≤ s.dsp.lastTask.toNat then .done 0 [0] s else .done 3 [] s := by
  simp only [State.taskAbort, htree, htask]
  rfl

theorem taskAbort_ends {t : Task} (htask : s.task (s.mbArg 0 4) = some t) : s.taskAbort =
    .done 0 (leBytes 1 t.stage.found) ((s.endCause (s.mbArg 0 4) tsAborted).endTask (s.mbArg 0 4)) := by
  simp only [State.taskAbort, htree, htask]
  rfl

end

/-! ### New tensors (R303, R370) -/

section
variable {s : State} {handle : BitVec 32} {scope : BitVec 2}

/-- No tier from `a` up to before `b` has room for a tensor of a size and a scope. -/
abbrev State.NoRoom (s : State) (a b size scope : Nat) : Prop :=
  ∀ k, a ≤ k → k < b → s.room k size scope none = false

/-- The search of TENSOR_CREATE through the tiers before `b` finds none with room. -/
theorem tiers_full {a b size sc : Nat} (h : s.NoRoom a b size sc) :
    ((List.range b).all fun k => decide (k < a) || !s.room k size sc none) = true := by
  refine List.all_eq_true.2 fun k hk => ?_
  rcases Nat.lt_or_ge k a with habove | hfrom
  · simp [habove]
  · simp [h k hfrom (List.mem_range.1 hk)]

variable (htier : s.mbArg 8 1 ≤ 2) (hask : s.mbArg 9 1 = 0)
include htier hask

/-- Without room in the preferred tier or below it, no tensor is created. -/
theorem tensorCreate_full (hfull : s.NoRoom (s.mbArg 8 1) 4 (s.mbArg 0 8) scope.toNat) :
    s.tensorCreate handle scope none = .done 4 [] s := by
  simp only [State.tensorCreate, hask, if_true, if_pos (show 0 < 2 by decide), tiers_full hfull]
  rw [if_neg (by omega), if_neg (by omega)]

/-- The placement service puts a tensor of package or die scope into a place of the first tier with room. -/
theorem tensorCreate_placed {place : Spot} (hrsvd : s.mbArg 11 1 = 0)
    (hroom : s.NoRoom (s.mbArg 8 1) (TLoc.ofSpot place).tier (s.mbArg 0 8) scope.toNat)
    (hhandle : handle ≠ 0) (hnew : ∀ t ∈ s.mem.tensors ++ s.mem.shadow ++ s.mem.previous, t.handle ≠ handle.toNat)
    (hscope : scope.toNat < 2) (hdown : s.mbArg 8 1 ≤ (TLoc.ofSpot place).tier)
    (hplace : s.placeOk handle.toNat (s.mbArg 0 8) scope.toNat (TLoc.ofSpot place) = true) :
    s.tensorCreate handle scope (some place) = .done 0 (leBytes 4 handle.toNat) { s with mem := { s.mem with
      shadow := s.mem.shadow ++ [⟨handle.toNat, TLoc.ofSpot place, s.mbArg 0 8, scope.toNat, s.mbArg 8 1, false, false,
        false, s.ns⟩] } } := by
  have hused : ((s.mem.tensors ++ s.mem.shadow ++ s.mem.previous).any fun t => t.handle == handle.toNat) = false :=
    List.any_eq_false.2 fun t ht => by simpa using hnew t ht
  have hbase : s.undefinedIf (s.mbArg 11 1 != 0) = s := by rw [hrsvd]; rfl
  simp only [State.tensorCreate, hask, if_true, if_pos (show 0 < 2 by decide), tiers_full hroom, hused, hplace, hbase]
  rw [if_neg (by omega), if_neg (by omega), if_neg]
  rintro (h | h | h | ⟨_, h⟩ | h | h | h | h)
  · exact hhandle h
  · exact Bool.false_ne_true h
  · omega
  · omega
  · omega
  · exact h trivial
  · exact h trivial
  · exact h rfl

end

/-! ### Tensors by handle (R283, R303, R369) -/

section
variable {s : State}

section
variable (h : s.tensor (s.mbArg 0 4) = none)
include h

theorem tensorFree_unknown : s.tensorFree = .done 3 [] s := by simp only [State.tensorFree, h]
theorem tensorPin_unknown (place : Option Spot) : s.tensorPin place = .done 3 [] s := by simp only [State.tensorPin, h]
theorem tensorUnpin_unknown : s.tensorUnpin = .done 3 [] s := by simp only [State.tensorUnpin, h]
theorem tensorQuery_unknown : s.tensorQuery = .done 3 [] s := by simp only [State.tensorQuery, h]

end

section
variable {t : Tensor} (h : s.tensor (s.mbArg 0 4) = some t)
include h

theorem tensorFree_known : s.tensorFree = .done 0 [] { s with mem := { s.mem with
    shadow := s.mem.shadow.filter fun t => t.handle ≠ s.mbArg 0 4 } } := by
  simp only [State.tensorFree, h]

/-- A tensor that lies in one range of HBM is pinned where it is. -/
theorem tensorPin_inPlace (place : Option Spot) (htier : s.mbArg 4 1 = 1) (hbm : t.loc.tier = 1)
    (hwhole : t.loc.whole = true) : s.tensorPin place =
      .done 0 (leBytes 8 t.loc.address) (s.modTensor (s.mbArg 0 4) fun t => { t with pinned := true }) := by
  simp only [State.tensorPin, h, htier]
  rw [if_neg (by decide), if_neg (by simp), if_pos ⟨hbm, hwhole⟩]

theorem tensorUnpin_known :
    s.tensorUnpin = .done 0 [] (s.modTensor (s.mbArg 0 4) fun t => { t with pinned := false }) := by
  simp only [State.tensorUnpin, h]

/-- The number of extents of a place that TENSOR_QUERY answers. -/
def TLoc.extentCount : TLoc → Nat
  | .hbm l => l.length
  | _ => 1

theorem tensorQuery_known : s.tensorQuery = .done 0 (leBytes 1 t.loc.tier ++ leBytes 1 (t.scope + 1) ++
    leBytes 1 (if t.pinned then 1 else 0) ++ leBytes 1 0 ++ leBytes 4 t.loc.extentCount ++ leBytes 8 t.size) s := by
  simp only [State.tensorQuery, h]
  rfl

end

end

/-! ### Host memory (R302, R369) -/

section
variable {s : State}

theorem hostGrant_refused (id : BitVec 32) (h : s.hif.feat 3 = false) : s.hostGrant id = .done 5 [] s :=
  if_pos (Bool.eq_false_iff.1 h)

theorem hostGrant_granted {id : BitVec 32} (h : s.hif.feat 3 = true) (hbase : s.mbArg 0 8 % 4096 = 0)
    (hlen : s.mbArg 8 8 % 4096 = 0) (hnew : Sparse.find s.mem.grants id.toNat = none) :
    s.hostGrant id = .done 0 (leBytes 4 id.toNat)
      { s with mem := { s.mem with grants := s.mem.grants.put id.toNat (s.mbArg 0 8, s.mbArg 8 8) } } := by
  have hdef : s.undefinedIf (s.mbArg 0 8 % 4096 != 0 || s.mbArg 8 8 % 4096 != 0) = s := by rw [hbase, hlen]; rfl
  simp only [State.hostGrant, hdef]
  rw [if_neg (not_not_intro h), if_neg (by simp [hnew])]

theorem hostRevoke_unknown (moves : List (BitVec 32 × Spot)) (h : Sparse.find s.mem.grants (s.mbArg 0 4) = none) :
    s.hostRevoke moves = .done 3 [] s := by
  simp only [State.hostRevoke, h]

/-- Without a move, every tensor in the grant is lost with it. -/
theorem hostRevoke_unmoved {g : Nat × Nat} (h : Sparse.find s.mem.grants (s.mbArg 0 4) = some g) :
    let inside (t : Tensor) : Bool := t.inGrant g.1 g.2
    let s1 := s.loseTensors inside
    s.hostRevoke [] = .done 0 (leBytes 4 0 ++ leBytes 4 (s.mem.tensors.filter inside).length)
      { s1 with mem := { s1.mem with grants := Sparse.erase s1.mem.grants (s.mbArg 0 4) } } := by
  simp only [State.hostRevoke, h]
  rfl

end

/-! ### The Function Level Reset (R378) -/

/-- The state with the mailbox reset (R378). -/
abbrev State.mailboxCleared (s : State) : State :=
  { s with hif := { s.hif with mbBusy := false, mbDone := false, mbReq := [], mbAns := [] } }

/-- An attached device is detached with cause 3; then the host-interface state is discarded. -/
theorem flr_eq (s : State) :
    s.flr = (if s.hif.attached then s.mailboxCleared.detach 3 else s.mailboxCleared).discardHost := rfl

theorem exec_functionLevelReset {s : State} (hup : s.hostUp = true) : exec .functionLevelReset s = .next s.flr := by
  show execFunctionLevelReset s = _
  rw [execFunctionLevelReset, if_pos hup]

end Sys2Proof.Machine

open Sys2Proof Sys2Proof.Machine

/-- Settles O42: each message by what serving it comes to, and the Function Level Reset by whether it finds the device
attached. That the place of a tensor is an operand, that the tensor messages act on the shadow map, and what TASK_ABORT
finds are the model's choices (assumption log 52, 64, 65). -/
theorem mailboxOtherMessages : Obligations.MailboxOtherMessages := by
  unfold Obligations.MailboxOtherMessages
  intro s stops
  refine ⟨?_, fun hasked => ?_, ?_, ?_, ?_, ?_, ?_, ?_⟩
  -- ATTACH.
  · intro lease hasked h level agreed hrsvd
    have row : exec (.attach lease) s = mbRow 0x01 8 s fun s => s.attach lease := rfl
    refine ⟨fun h0 h1 => ?_, fun hlevel =>
      ⟨fun hlease => ?_, fun hlease hmode => ⟨fun hqueues => ?_, fun hqueues hexp => ?_⟩⟩⟩
    · exact exec_message row hasked (attach_otherLevel lease h0 h1)
    · exact exec_message row hasked (attach_leased lease hlevel hlease)
    · exact exec_message row hasked (attach_noQueues lease hlevel hlease hmode hqueues)
    · exact exec_message row hasked (attach_joins lease hlevel hlease hmode hrsvd hqueues hexp)
  -- DETACH.
  · exact exec_message (f := fun s => .done 0 [] (s.detach 1)) rfl hasked rfl
  -- TASK_ABORT.
  · intro hasked htree id
    refine ⟨fun htask h0 hlast => ?_, fun htask hnever => ?_, fun t htask => ?_⟩
    · exact exec_message rfl hasked ((taskAbort_unknown htree htask).trans (if_pos ⟨h0, hlast⟩))
    · exact exec_message rfl hasked ((taskAbort_unknown htree htask).trans (if_neg (by omega)))
    · intro ended
      have found {k : Nat} (hk : t.stage.found = k) : exec .taskAbort s = .next (ended.mbAnswer 0 (leBytes 1 k)) :=
        exec_message rfl hasked (hk ▸ taskAbort_ends htree htask)
      refine ⟨fun hstage => found ?_, fun hstage => found ?_, fun hstage => found ?_⟩ <;>
        (rcases hstage with hstage | hstage <;> rw [hstage] <;> rfl)
  -- TENSOR_CREATE.
  · intro handle scope hasked htier hask hrsvd size
    have row (place : Option Spot) : exec (.tensorCreate handle scope place) s =
        mbRow 0x08 12 s fun s => s.tensorCreate handle scope place := rfl
    refine ⟨fun hfull => ?_, ?_⟩
    · exact exec_message (row none) hasked (tensorCreate_full htier hask hfull)
    · intro place loc hroom hhandle hnew hscope hdown hplace
      exact exec_message (row (some place)) hasked
        (tensorCreate_placed htier hask hrsvd hroom hhandle hnew hscope hdown hplace)
  -- TENSOR_FREE, TENSOR_PIN, TENSOR_UNPIN and TENSOR_QUERY.
  · rintro h rfl
    have row (p : Option Spot) : exec (.tensorPin p) s = mbRow 0x0A 5 s fun s => s.tensorPin p := rfl
    refine ⟨fun hnone => ⟨fun hasked => ?_, fun hasked p => ?_, fun hasked => ?_, fun hasked => ?_⟩,
      fun t ht => ⟨fun hasked => ?_, fun hasked htier hbm hwhole p => ?_, fun hasked => ?_, fun hasked => ?_⟩⟩
    · exact exec_message rfl hasked (tensorFree_unknown hnone)
    · exact exec_message (row p) hasked (tensorPin_unknown hnone p)
    · exact exec_message rfl hasked (tensorUnpin_unknown hnone)
    · exact exec_message rfl hasked (tensorQuery_unknown hnone)
    · exact exec_message rfl hasked (tensorFree_known ht)
    · exact exec_message (row p) hasked (tensorPin_inPlace ht p htier hbm hwhole)
    · exact exec_message rfl hasked (tensorUnpin_known ht)
    · exact exec_message rfl hasked (tensorQuery_known ht)
  -- HOST_GRANT.
  · intro id hasked
    have row : exec (.hostGrant id) s = mbRow 0x0D 16 s fun s => s.hostGrant id := rfl
    refine ⟨fun hfeat => ?_, fun hfeat hbase hlen hnew => ?_⟩
    · exact exec_message row hasked (hostGrant_refused id hfeat)
    · exact exec_message row hasked (hostGrant_granted hfeat hbase hlen hnew)
  -- HOST_REVOKE.
  · intro hasked
    have row (moves : List (BitVec 32 × Spot)) : exec (.hostRevoke moves) s =
        mbRow 0x0E 4 s fun s => s.hostRevoke moves := rfl
    refine ⟨fun hnone moves => ?_, fun g hg => ?_⟩
    · exact exec_message (row moves) hasked (hostRevoke_unknown moves hnone)
    · exact exec_message (row []) hasked (hostRevoke_unmoved hg)
  -- The Function Level Reset.
  · intro hup s1
    refine ⟨fun h => ?_, fun h => ?_⟩
    · rw [exec_functionLevelReset hup, flr_eq, if_pos h]
    · rw [exec_functionLevelReset hup, flr_eq, if_neg (Bool.eq_false_iff.1 h)]

end

section
/-!
PROOFS. The timetable arbiters (R310 to R316, R319, R321, R322): decisions, grants carried out or withdrawn, slot edges and
the commit of a timetable.
-/

namespace Sys2Proof.Machine

/-! ### Decisions (R314 to R316) -/

/-- An arbiter that grants a requester the next slot takes one of its tokens (R314). -/
abbrev Arb.granted (a : Arb) (r : BitVec 4) : Arb :=
  { a with grant := some r, used := a.used.put r.toNat (a.used.at 0 r.toNat + 1) }

/-- The pool of an open slot: the eligible requesters in the foreground, or all where none is (R316). -/
abbrev Timetable.pool (t : Timetable) (e : BitVec 16) : BitVec 16 := if e &&& ~~~t.bg = 0 then e else e &&& ~~~t.bg

theorem Timetable.pool_zero (t : Timetable) : t.pool 0 = 0 := if_pos BitVec.zero_and

theorem rankFirst_zero (last : BitVec 4) : rankFirst last 0 = none :=
  List.find?_eq_none.2 fun _ _ => by simp

section
variable {a : Arb} {b : BitVec 3} {t : Timetable} {n : BitVec 6} {reqs : BitVec 16}

theorem decide_owned {o : BitVec 4} (ho : t.owner n = some o) (he : (eligible b t a reqs).getLsbD o.toNat = true) :
    a.decide b t n reqs = a.granted o := by
  simp only [Arb.decide, ho]
  exact if_pos he

/-- The slot stays idle where no requester is eligible. -/
theorem decide_idle (hopen : ∀ o, t.owner n = some o → (eligible b t a reqs).getLsbD o.toNat = false)
    (he : eligible b t a reqs = 0) : a.decide b t n reqs = { a with grant := none } := by
  have hrank : rankFirst a.lastbg (t.pool (eligible b t a reqs)) = none := by rw [he, t.pool_zero, rankFirst_zero]
  rw [decide_bg a b t n reqs hopen, hrank]

/-- An open slot, or one whose owner is not eligible, goes to the first requester of the pool after lastbg. -/
theorem decide_ranked (hopen : ∀ o, t.owner n = some o → (eligible b t a reqs).getLsbD o.toNat = false) {i : Nat} (hi : i < 16)
    (hwin : (t.pool (eligible b t a reqs)).getLsbD (a.lastbg + 1 + BitVec.ofNat 4 i).toNat = true)
    (hbefore : ∀ j < i, (t.pool (eligible b t a reqs)).getLsbD (a.lastbg + 1 + BitVec.ofNat 4 j).toNat = false) :
    let r := a.lastbg + 1 + BitVec.ofNat 4 i
    a.decide b t n reqs = Arb.granted { a with lastbg := r } r := by
  intro r
  have hrank : rankFirst a.lastbg (t.pool (eligible b t a reqs)) = some r :=
    find_first (fun i => a.lastbg + 1 + BitVec.ofNat 4 i) _ i 16 hi hwin hbefore
  rw [decide_bg a b t n reqs hopen, hrank]

end

/-! ### The slot that begins (R319) -/

section
variable {s : State} {b : BitVec 3} {slot x : Nat} {a : Arb} {r : BitVec 4}

theorem carryOut_ungranted (hg : a.grant = none) : s.carryOut b slot (x, a) = (a, none) := by
  simp only [State.carryOut, hg]

theorem carryOut_withdrawn (hg : a.grant = some r) (hs : s.arbStalled b x = true) : s.carryOut b slot (x, a) =
    ({ a with grant := none, used := a.used.put r.toNat (a.used.at 0 r.toNat - 1) }, none) := by
  simp only [State.carryOut, hg]
  exact if_pos hs

theorem carryOut_carried (hg : a.grant = some r) (hs : s.arbStalled b x = false) : s.carryOut b slot (x, a) =
    (a.carry (b == 0) slot r, some ⟨12, b.toNat, [x, r.toNat], []⟩) := by
  simp only [State.carryOut, hg]
  exact if_neg (Bool.eq_false_iff.1 hs)

end

/-! ### Slot edges (R310, R314, R321) -/

/-- A block with the arbiters `here` when a slot has begun and the next is to be decided: before slot 0 the tokens are
refilled and a pending commit is applied. -/
def ArbBlock.begun (k : ArbBlock) (here : Sparse Arb) : ArbBlock :=
  let k1 : ArbBlock := { k with slot := k.slot + 1, count := k.count + 1, arbs := here }
  if k.slot + 2 ≠ 0 then k1
  else
    let k0 : ArbBlock := { k1 with arbs := here.map fun e => (e.1, { e.2 with used := [] }) }
    if k.pending then { k0 with act := k.shd, ver := k.ver + 1, pending := false } else k0

/-- Every arbiter of a block decides slot `n`, slot `count` since the start, by the active timetable. -/
def State.decideAll (s : State) (b : BitVec 3) (k : ArbBlock) (n : BitVec 6) (count : Nat) : ArbBlock :=
  { k with arbs := k.arbs.map fun e =>
      (e.1, e.2.decide b k.act n (e.2.presents (b == 0) (!s.arbStalled b e.1) count)) }

section
variable (s : State) (b : BitVec 3)

/-- A slot edge with no grant to carry out only registers the requests and decides the next slot. -/
theorem slotEdge_ungranted (h : ∀ e ∈ (s.arbBlock b).arbs, e.2.grant = none) (l : List (Nat × ArbReq)) :
    let k := s.arbBlock b
    s.slotEdge b l =
      s.setArbBlock b (s.decideAll b (k.begun (registerAll b k.arbs l)) (k.slot + 2) (k.count + 2)) := by
  intro k
  have hstay : (k.arbs.map fun e => (e.1, s.carryOut b (k.count + 1) e)) = k.arbs.map fun e => (e.1, e.2, none) :=
    List.map_congr_left fun e he => by rw [carryOut_ungranted (h e he)]
  have hnone : ((k.arbs.map fun e => (e.1, e.2, (none : Option Reply))).filterMap fun e => e.2.2) = [] := by simp
  have hsame : ((k.arbs.map fun e => (e.1, e.2, (none : Option Reply))).map fun e => (e.1, e.2.1)) = k.arbs :=
    List.map_map.trans (List.map_id _)
  have hnext : k.slot + 1 + 1 = k.slot + 2 := BitVec.add_assoc ..
  simp only [State.slotEdge]
  rw [hstay, hnone, hsame, hnext]
  rfl

end

section
variable {k : ArbBlock} (here : Sparse Arb)

theorem begun_within (hn : k.slot + 2 ≠ 0) :
    k.begun here = { k with slot := k.slot + 1, count := k.count + 1, arbs := here } := if_pos hn

theorem begun_window (hn : k.slot + 2 = 0) (hp : k.pending = false) :
    k.begun here = { k with
      slot := k.slot + 1, count := k.count + 1, arbs := here.map fun e => (e.1, { e.2 with used := [] }) } :=
  (if_neg (not_not.2 hn)).trans (if_neg (Bool.eq_false_iff.1 hp))

theorem begun_commit (hn : k.slot + 2 = 0) (hp : k.pending = true) :
    k.begun here = { k with
      slot := k.slot + 1, count := k.count + 1, arbs := here.map fun e => (e.1, { e.2 with used := [] })
      act := k.shd, ver := k.ver + 1, pending := false } :=
  (if_neg (not_not.2 hn)).trans (if_pos hp)

end

section
variable {s : State} {b : BitVec 3}

/-- ARBITER_DECIDE is the slot edge of the block's kind where every request names an arbiter of it. -/
theorem execArbiterDecide_served (hm : s.memRuns = true) {requests : List (BitVec 10 × BitVec 4 × BitVec 5 × BitVec 16)}
    (hq : ∀ q ∈ requests, q.1.toNat < arbCount b) : execArbiterDecide b requests s =
      .next (s.kindEdge b (requests.map fun q => (q.1.toNat, ⟨q.2.1, q.2.2.1, q.2.2.2⟩))) := by
  have hall : ¬ (requests.any fun q => decide (arbCount b ≤ q.1.toNat)) = true := by simpa using hq
  exact (if_neg hall).trans (congrArg _ (if_pos hm))

theorem kindEdge_alone (h : b = 0 ∨ b = 7) (l : List (Nat × ArbReq)) : s.kindEdge b l = s.slotEdge b l := if_pos h

theorem kindEdge_egress (h0 : b ≠ 0) (h7 : b ≠ 7) (l : List (Nat × ArbReq)) :
    s.kindEdge b l = (List.range 6).foldl (fun s p =>
      s.slotEdge (BitVec.ofNat 3 (p + 1)) ((l.filter fun q => q.1 == p).map fun q => (0, q.2))) s :=
  if_neg (not_or.2 ⟨h0, h7⟩)

end

end Sys2Proof.Machine

open Sys2Proof Sys2Proof.Machine

/-- Settles O36: each decision by who is eligible, each slot edge by the slot it decides. That what a bank can take is judged
by its open row and its last activation is the model's choice (assumption log 129). -/
theorem arbiterDecisions : Obligations.ArbiterDecisions := by
  unfold Obligations.ArbiterDecisions
  refine ⟨fun a b t n reqs => ⟨elig b t a reqs, fun o => decide_owned, fun hopen => ⟨decide_idle hopen, ?_⟩⟩,
    fun s b => ⟨fun slot x a r hg => ⟨carryOut_withdrawn hg, carryOut_carried hg⟩, fun hg l => ?_, fun hm requests => ?_,
      fun hmain v hgo => ?_, fun v hgo => ?_⟩⟩
  · exact fun i hi hwin hbefore => decide_ranked hopen hi hwin hbefore
  -- A slot edge, by whether it decides slot 0 and whether a commit is pending.
  · have hedge := slotEdge_ungranted s b hg l
    refine ⟨fun hn => ?_, fun hn hp => ?_, fun hn hp => ?_⟩
    · exact hedge.trans (by rw [begun_within _ hn]; rfl)
    · exact hedge.trans (by rw [begun_window _ hn hp, hn]; rfl)
    · exact hedge.trans (by rw [begun_commit _ hn hp, hn]; rfl)
  · intro l hq
    have hserved : exec (.arbiterDecide b requests) s = .next (s.kindEdge b l) := execArbiterDecide_served hm hq
    exact ⟨fun h => hserved.trans (congrArg _ (kindEdge_alone h l)),
      fun h0 h7 => hserved.trans (congrArg _ (kindEdge_egress h0 h7 l))⟩
  · exact if_pos ⟨hgo, hmain⟩
  · exact if_neg fun h => Bool.eq_false_iff.1 hgo h.1

end

section
/-!
PROOFS. The intake of dispatch (R330 to R336, R350, R351, R363 to R366): doorbells, the wake of the dispatcher, the entry
a fetch brings, and the placement of a ready task.
-/

namespace Sys2Proof.Machine

/-! ### Doorbells (R365, R366) -/

section
variable {s : State} (q : Nat) (i : BitVec 16)

/-- A doorbell sets the tail of its queue and notes when the first one rang. -/
abbrev State.tailSet (s : State) (q : Nat) (i : BitVec 16) : State :=
  s.modQueue q fun k => { k with tail := i, bellAt := some (k.bellAt.getD s.ns) }

theorem doorbell_room (h : s.hif.fifo.length < 256) : s.doorbell q i =
    { s with hif := { (s.tailSet q i).hif with fifo := s.hif.fifo ++ [(q, i, s.ns)] } } := if_pos h

theorem doorbell_full (h : 256 ≤ s.hif.fifo.length) : s.doorbell q i =
    { s with hif := { (s.tailSet q i).hif with ovf := s.hif.ovf ||| (1 <<< q), hwerr := s.hif.hwerr ||| 1 } } :=
  if_neg (Nat.not_lt.2 h)

end

theorem exec_hifSqDb {s : State} (hup : s.hostUp = true) (q : BitVec 6) (i : BitVec 16) :
    exec (.hifSqDb q i) s = .next (s.sqDb q.toNat i) := congrArg _ (if_pos hup)

/-! ### The entry a fetch brings (R330, R350) -/

/-- The only fetch has been answered: none is on its way, and the turn of its queue is over (R351, R352). -/
abbrev State.fetchAnswered (s : State) (f : Fetch) : State :=
  ({ s with hif := { s.hif with fetches := [] } } : State).turnOver f

/-- A fetched entry leaves its queue and becomes a task (R330). -/
abbrev State.withEntry (u : State) (q : Nat) (e : TaskEntry) : State :=
  (u.modQueue q fun k => { k with sqHead := BitVec.ofNat 16 ((k.sqHead.toNat + 1) % k.sqSlots) }).enterTask q e

section
variable {s : State} {f : Fetch} (hf : s.hif.fetches = [f]) (hup : s.hostUp = true) (hfw : s.hif.fwUp = true)
  (htime : s.ns ≤ f.issued + 1000000)
include hf hup hfw htime

/-- An answer within 1,000,000 ns counts: its entry enters, or is discarded when its queue has left ACTIVE. -/
theorem entryArrive_answered : s.entryArrive =
    (if (s.queue f.source).state = .active ∧ f.live = true then
      ((s.fetchAnswered f).undefinedIf !(s.fetchedEntry f).formed false (s.hif.feat 2)).withEntry f.source
        (s.fetchedEntry f)
    else s.fetchAnswered f).takeTurns.settleIdle := by
  have hopen : ¬ (¬ s.hostUp = true ∨ ¬ s.hif.fwUp = true ∨ f.issued + 1000000 < s.ns) := by simp [hup, hfw, htime]
  simp only [State.entryArrive, hf]
  rw [if_neg hopen]

theorem entryArrive_discards (h : (s.queue f.source).state ≠ .active ∨ f.live = false) :
    s.entryArrive = (s.fetchAnswered f).takeTurns.settleIdle := by
  have hleft : ¬ ((s.queue f.source).state = .active ∧ f.live = true) := by
    rintro ⟨hact, hlive⟩
    exact h.elim (fun hne => hne hact) (fun hdead => by simp [hdead] at hlive)
  rw [entryArrive_answered hf hup hfw htime, if_neg hleft]

variable (hact : (s.queue f.source).state = .active) (hlive : f.live = true)
include hact hlive

theorem entryArrive_formed (he : (s.fetchedEntry f).formed false (s.hif.feat 2) = true) : s.entryArrive =
    ((s.fetchAnswered f).withEntry f.source (s.fetchedEntry f)).takeTurns.settleIdle := by
  rw [entryArrive_answered hf hup hfw htime, if_pos ⟨hact, hlive⟩, he]
  rfl

/-- An entry with fields R350 forbids enters too, with an undefined outcome (R6, assumption log 16). -/
theorem entryArrive_malformed (he : (s.fetchedEntry f).formed false (s.hif.feat 2) = false) : s.entryArrive =
    ((s.fetchAnswered f).undefinedAll.withEntry f.source (s.fetchedEntry f)).takeTurns.settleIdle := by
  rw [entryArrive_answered hf hup hfw htime, if_pos ⟨hact, hlive⟩, he]
  rfl

end

/-! ### The placement of a task (R331 to R336) -/

/-- The store lanes of a task's PLIST are checked before the dispatcher reads it (R58, R334). -/
abbrev State.plistChecked (s : State) (t : Task) : State :=
  if t.entry.pin = 2 then s.touchTensor s.mem.tensors t.entry.plist.toNat 0 (2 * t.entry.size.toNat) else s

/-- The lines the placement report of a task writes (R336). -/
def State.reportLines (s : State) (t : Task) (l : List CellId) : List Nat :=
  if t.entry.reports then tensorLines s.mem.tensors t.entry.report.toNat 0 (32 + 2 * l.length) else []

/-- What the dispatcher does with a task that may start, by what the placement service finds for it. -/
def State.placeFound (u : State) (t : Task) : Placing → State
  | .cells l =>
    if u.awaitsMoves t l then u
    else match u.needSnoops true (u.reportLines t l) with
      | some waiting => waiting
      | none => (u.useTensors t.entry.handles).claim t l
  | .wait => u
  | .never => ((u.raise 0x0503 .error [(4, t.id), (2, t.entry.size.toNat), (2, u.activeCount)]).endCause t.id
      tsNoCells).endTask t.id
  | .bad => (u.endCause t.id tsImage).endTask t.id

theorem placeFound_waits {u : State} {t : Task} {l : List CellId} (h : u.awaitsMoves t l = true) :
    u.placeFound t (.cells l) = u := if_pos h

theorem placeFound_claims {u : State} {t : Task} {l : List CellId} (h : u.awaitsMoves t l = false)
    (hsnoop : u.mem.snoop = []) (hpaused : u.mem.paused = []) :
    u.placeFound t (.cells l) = (u.useTensors t.entry.handles).claim t l := by
  have hclear := needSnoops_nil u true (u.reportLines t l) hsnoop hpaused
  simp only [State.placeFound, h, hclear, Bool.false_eq_true, if_false]

section
variable {s : State} {t : Task} (hmay : s.mayStart t = true) (rest : List Task)
include hmay

theorem placeFirst_marker (hm : t.entry.marker = true) : s.placeFirst (t :: rest) =
    (s.modTask t.id fun t => { t with stage := .ending }).endTask t.id := by
  rw [State.placeFirst, if_neg (not_not_intro hmay), if_pos hm]

theorem placeFirst_found (hm : t.entry.marker = false) : s.placeFirst (t :: rest) =
    (s.plistChecked t).placeFound t ((s.plistChecked t).findConsist t) := by
  have hm' : ¬ t.entry.marker = true := by simp [hm]
  rw [State.placeFirst, if_neg (not_not_intro hmay), if_neg hm']
  rfl

end

/-- TASK_PLACE looks at the only ready task. -/
theorem exec_taskPlace {s : State} {t : Task} (hrun : s.dispRuns = true)
    (hready : (s.dsp.tasks.filter Task.isReady) = [t]) : exec .taskPlace s = .next (s.placeFirst [t]) := by
  have hone : s.placeTask = s.placeFirst [t] := by
    rw [State.placeTask, hready]
    rfl
  exact congrArg _ ((if_pos hrun).trans hone)

end Sys2Proof.Machine

open Sys2Proof Sys2Proof.Machine

/-- Settles O37: a doorbell by the room in the FIFO, an entry by its queue and its fields, a task by what the placement
service finds. The undefined outcome (R6) of a doorbell out of range and of forbidden fields is the model's choice
(assumption log 16), and so is the wait for moves from a lender that reclaims its space (assumption log 130). -/
theorem dispatchIntake : Obligations.DispatchIntake := by
  unfold Obligations.DispatchIntake
  intro s
  refine ⟨?_, ?_, fun hrun => congrArg _ (if_pos hrun), ?_, ?_⟩
  · intro q i hup hok h
    have hbell : exec (.hifSqDb q i) s = .next (s.doorbell q.toNat i) :=
      (exec_hifSqDb hup q i).trans (congrArg _ (sqDb_ok s q.toNat i hok))
    exact ⟨fun hroom => hbell.trans (congrArg _ (doorbell_room _ i hroom)),
      fun hfull => hbell.trans (congrArg _ (doorbell_full _ i hfull))⟩
  · intro q i hup hbad
    exact (exec_hifSqDb hup q i).trans (congrArg _ (sqDb_bad s q.toNat i hbad))
  · intro f hf hup hfw htime s0 e
    refine ⟨fun hleft => congrArg Host.Outcome.next (entryArrive_discards hf hup hfw htime hleft), ?_⟩
    intro hact hlive goes
    exact ⟨fun he => congrArg Host.Outcome.next (entryArrive_formed hf hup hfw htime hact hlive he),
      fun he => congrArg Host.Outcome.next (entryArrive_malformed hf hup hfw htime hact hlive he)⟩
  · intro t hrun hready hmay
    have hplace := exec_taskPlace hrun hready
    refine ⟨fun hm => ?_, fun hm => hplace.trans (congrArg _ (placeFirst_marker hmay [] hm))⟩
    intro u
    have found {p : Placing} (hp : u.findConsist t = p) : exec .taskPlace s = .next (u.placeFound t p) := by
      rw [hplace, placeFirst_found hmay [] hm, ← hp]
    refine ⟨fun l hl => ⟨fun hmoves => ?_, fun hmoves hsnoop hpaused => ?_⟩, found, found, found⟩
    · exact (found hl).trans (congrArg _ (placeFound_waits hmoves))
    · exact (found hl).trans (congrArg _ (placeFound_claims hmoves hsnoop hpaused))

end

section
/-!
PROOFS. The members of placed tasks (R337, R338, R72, R83): a signal box reads a task's image, arguments and descriptors,
prepares its members, and starts them together.
-/

namespace Sys2Proof.Machine

/-- A row that acts on a signal box which exists does what its operation does. -/
theorem exec_of_withBox {i : Instr} {s t : State} {die : BitVec 3} {cluster : BitVec 4} {f : Nat → State}
    (hi : exec i s = withBox die cluster f) (hbox : cluster.toNat < 9) (ht : f (16 * die.toNat + cluster.toNat) = t) :
    exec i s = .next t :=
  hi.trans ((if_pos hbox).trans (congrArg _ ht))

/-! ### Preparing members (R337, R338) -/

/-- The store lanes of the parts a signal box reads are checked first (R58). -/
abbrev State.partsChecked (s : State) (t : Task) : State :=
  t.entry.parts.foldl (fun u p => u.touchTensor (s.pmap t.version) p.1 0 p.2) s

/-- The handles that a list of `n` descriptors names. -/
abbrev descHandles (n : Nat) (desc : List Byte) : List Nat :=
  (List.range n).map fun k => (dHandle (BitVec.ofNat 128 (leNat ((desc.drop (16 * k)).take 16)))).toNat

/-- What a signal box does with its members `mine` of a task, by what it read of the three parts. -/
def State.prepareMembers (u : State) (id : Nat) (t : Task) (mine : List CellId) : List (Option (List Byte)) → State
  | [some image, some arg, some desc] =>
    let loaded := mine.foldl (fun s c => s.modCell c fun k => k.prepare t (t.cells.idxOf c) image arg desc) u
    let hs := descHandles t.entry.ndesc.toNat desc
    (loaded.useTensors hs).modTask id fun t => { t with loaded := t.loaded ++ mine, named := hs }
  | _ => u.endCause id tsImage

/-- A part that cannot be read clean ends the task with IMAGE (R338). -/
theorem prepareMembers_unread {u : State} {id : Nat} {t : Task} {mine : List CellId} {l : List (Option (List Byte))}
    (h : none ∈ l) : u.prepareMembers id t mine l = u.endCause id tsImage := by
  unfold State.prepareMembers
  split
  · simp at h
  · rfl

section
variable {s : State} {id b : Nat} {t : Task} (ht : s.task id = some t)
include ht

/-- A box with members of a placed task to prepare reads the parts, and does with its members what they let it. -/
theorem boxTask_placed (hstage : t.stage = .placed) {mine : List CellId} (hne : mine ≠ [])
    (hmine : (t.cells.filter fun c => boxOf c == b && !t.loaded.contains c) = mine)
    (hsnoop : s.mem.snoop = []) (hpaused : s.mem.paused = []) : s.boxTask id b =
      (s.partsChecked t).prepareMembers id t mine
        (t.entry.parts.map fun p => (s.partsChecked t).readClean (some (b / 16)) t.version p.1 p.2) := by
  have hopen : ¬ (t.stage ≠ .placed ∨ mine = []) := by simp [hstage, hne]
  have hclear (lines : List Nat) := needSnoops_nil s false lines hsnoop hpaused
  simp only [State.boxTask, ht, hmine, hclear]
  rw [if_neg hopen]
  rfl

/-! ### Starting members (R72, R337) -/

/-- The task after the members `mine` of one box have started. -/
abbrev Task.membersStarted (t : Task) (mine : List CellId) : Task :=
  { t with stage := .running, loaded := t.loaded.filter (fun c => !mine.contains c), ran := t.ran ++ mine }

/-- Once every member of the task is prepared, the members of a box start when each is idle and holds the image (R337). -/
theorem boxStart_ready (hready : t.stage = .running ∨ t.stage = .placed ∧ ∀ c ∈ t.cells, c ∈ t.loaded)
    {mine : List CellId} (hne : mine ≠ []) (hmine : (t.cells.filter fun c => boxOf c == b) = mine)
    (hall : ∀ c ∈ mine, c ∈ t.loaded ∧ (s.cell c).st = .idle ∧ (s.cell c).banks.load = none ∧
      (s.cell c).banks.validInactive = true ∧ (s.cell c).banks.pre = some (BitVec.ofNat 32 id)) :
    s.boxStart id b = (mine.foldl (fun s c => s.startCell c (!(s.cell c).banks.active)) s).modTask id
      fun t => t.membersStarted mine := by
  simp only [State.boxStart, ht, hmine]
  refine if_pos ⟨?_, hne, List.all_eq_true.2 fun c hc => ?_⟩
  · rcases hready with hrun | ⟨hplaced, hloaded⟩
    · simp [hrun]
    · simpa [hplaced] using hloaded
  · obtain ⟨hloaded, hidle, hload, hvalid, hpre⟩ := hall c hc
    simp [hloaded, hidle, hload, hvalid, hpre]

end

end Sys2Proof.Machine

open Sys2Proof Sys2Proof.Machine

/-- Settles O38: the box prepares its members by what it reads of the parts, and starts those that are ready. -/
theorem membersOfTasks : Obligations.MembersOfTasks := by
  unfold Obligations.MembersOfTasks
  intro s task die cluster t hcluster b e hruns ht
  refine ⟨?_, ?_⟩
  · intro hstage mine hne hmine l s0 read hsnoop hpaused
    have hbox : exec (.signalBoxTask task die cluster) s =
        .next (s0.prepareMembers task.toNat t mine (e.parts.map fun p => read p.1 p.2)) :=
      exec_of_withBox (f := fun b => if s.boxRuns b then s.boxTask task.toNat b else s) rfl hcluster
        ((if_pos hruns).trans (boxTask_placed ht hstage hne hmine hsnoop hpaused))
    refine ⟨fun image arg desc himage harg hdesc => ?_, fun hunread => ?_⟩
    · have hparts : (e.parts.map fun p => read p.1 p.2) = [some image, some arg, some desc] := by
        rw [← himage, ← harg, ← hdesc]
        rfl
      rw [hbox, hparts]
      rfl
    · obtain ⟨p, hp, hnone⟩ := hunread
      rw [hbox, prepareMembers_unread (List.mem_map.2 ⟨p, hp, hnone⟩)]
  · intro hready mine hne hmine hall
    refine exec_of_withBox (f := fun b => if s.boxRuns b then s.boxStart task.toNat b else s) rfl hcluster
      ((if_pos hruns).trans (boxStart_ready ht hready hne hmine fun c hc => ?_))
    rw [BitVec.ofNat_toNat, BitVec.setWidth_eq]
    exact hall c hc

end

section
/-!
PROOFS. The queue of commands and the rollback counters (R505, 95_what_each_step_holds.md): a step takes the front command
from the queue, and no command touches the rest of the queue or lowers a counter.
-/

namespace Sys2Proof.Machine

/-- Whatever a command is, a next state it answers has the same queue, and no rollback counter of it is lower. -/
theorem exec_rises {c : Instr} {s t : State} (h : exec c s = .next t) : Rises s t :=
  match c with
  | .nop .. | .alu .. | .addi .. | .andi .. | .ori .. | .xori .. | .slli .. | .srli .. | .srai .. | .li .. | .lih .. |
  .cmp .. | .cmpi .. | .plog .. | .pfroms .. | .ptos .. | .sel .. | .lb .. | .lbu .. | .lh .. | .lhu .. | .lw .. |
  .sb .. | .sh .. | .sw .. | .lda .. | .sta .. | .tld .. | .tst .. | .aadd .. | .aaddi .. | .afrom .. | .ato .. |
  .astr .. | .astri .. | .amov .. | .tofs .. | .tadv .. | .tget .. | .tset .. | .lcset .. | .lci .. | .loop .. |
  .lset .. | .lbrk .. | .lget .. | .br .. | .call .. | .jr .. | .bz .. | .bnz .. | .push .. | .sig .. | .waits .. |
  .waitsr .. | .semrd .. | .enq .. | .mfs .. | .rdlt .. | .swb .. | .halt .. =>
    .of_kept _ _ (runCore_kept _ _ _ _ s t h)
  | .wbEnd .. | .wbNop .. | .wbSetv .. | .wbAddv .. | .wbAddvv .. | .wbGetd .. | .wbShape .. | .wbSetk .. | .wbLoop ..
  | .wbWait .. | .wbSignal .. | .wbFence .. | .wbSetring .. | .wbSetc .. | .wbMove .. =>
    .of_kept _ _ (wbInstr_kept _ _ _ s t h)
  | .mxSync .. => .of_kept _ _ (execMxSync_kept _ s t h)
  | .mma .. => .of_kept _ _ (execMma_kept _ s t h)
  | .vxSync .. => .of_kept _ _ (execVxSync_kept _ s t h)
  | .vbin .. => .of_kept _ _ (execVbin_kept _ s t h)
  | .vun .. => .of_kept _ _ (execVun_kept _ s t h)
  | .vfma .. => .of_kept _ _ (execVfma_kept _ s t h)
  | .vred .. => .of_kept _ _ (execVred_kept _ s t h)
  | .vrsc .. => .of_kept _ _ (execVrsc_kept _ s t h)
  | .msSync .. => .of_kept _ _ (execMsSync_kept _ s t h)
  | .runwb .. => .of_kept _ _ (execRunwb_kept _ s t h)
  | .lkSync .. => .of_kept _ _ (execLkSync_kept _ s t h)
  | .lread .. => .of_kept _ _ (execLread_kept _ s t h)
  | .lwrite .. => .of_kept _ _ (execLwrite_kept _ s t h)
  | .lcell .. => .of_kept _ _ (execLcell_kept _ s t h)
  | .latom .. => .of_kept _ _ (execLatom_kept _ s t h)
  | .lcoll .. => .of_kept _ _ (execLcoll_kept _ s t h)
  | .commandWaitSatisfied .. => .of_kept _ _ (execCommandWaitSatisfied_kept _ _ s t h)
  | .commandComplete .. => .of_kept _ _ (execCommandComplete_kept _ _ s t h)
  | .mmaCheckBeat .. => .of_kept _ _ (execMmaCheckBeat_kept _ _ s t h)
  | .mmaRetryStart .. => .of_kept _ _ (execMmaRetryStart_kept _ s t h)
  | .panelFillTaken .. => .of_kept _ _ (execPanelFillTaken_kept _ s t h)
  | .collectivePartHandoff .. => .of_kept _ _ (execCollectivePartHandoff_kept _ s t h)
  | .collectivePartStart .. => .of_kept _ _ (execCollectivePartStart_kept _ s t h)
  | .collectivePartComplete .. => .of_kept _ _ (execCollectivePartComplete_kept _ s t h)
  | .transferAckTimeout .. => .of_kept _ _ (execTransferAckTimeout_kept _ _ _ _ s t h)
  | .dieLinkFailure .. => .of_kept _ _ (execDieLinkFailure_kept _ s t h)
  | .ballastGapStart .. => .of_kept _ _ (execBallastGapStart_kept _ _ _ s t h)
  | .ballastHoldEnd .. => .of_kept _ _ (execBallastHoldEnd_kept _ _ s t h)
  | .ballastRampEnd .. => .of_kept _ _ (execBallastRampEnd_kept _ _ s t h)
  | .ibankLoadIssue .. => .of_kept _ _ (execIbankLoadIssue_kept _ _ _ s t h)
  | .ibankFirstWrite .. => .of_kept _ _ (execIbankFirstWrite_kept _ s t h)
  | .ibankLoadEnd .. => .of_kept _ _ (execIbankLoadEnd_kept _ s t h)
  | .ibankHoldTimeout .. => .of_kept _ _ (execIbankHoldTimeout_kept _ s t h)
  | .cellTaskStart .. => .of_kept _ _ (execCellTaskStart_kept _ _ s t h)
  | .cellHaltDrained .. => .of_kept _ _ (execCellHaltDrained_kept _ s t h)
  | .cellFaultHandled .. => .of_kept _ _ (execCellFaultHandled_kept _ s t h)
  | .cellRetire .. => .of_kept _ _ (execCellRetire_kept _ _ s t h)
  | .spareAdmitted .. => .of_kept _ _ (execSpareAdmitted_kept _ s t h)
  | .wbWaitSatisfied .. => .of_kept _ _ (execWbWaitSatisfied_kept _ _ s t h)
  | .wbSignalEffect .. => .of_kept _ _ (execWbSignalEffect_kept _ _ s t h)
  | .wbFenceRelease .. => .of_kept _ _ (execWbFenceRelease_kept _ _ s t h)
  | .wbSegmentLost .. => .of_kept _ _ (execWbSegmentLost_kept _ _ _ _ s t h)
  | .hbmAccess .. => .of_kept _ _ (execHbmAccess_kept _ _ _ s t h)
  | .atomicUpdate .. => .of_kept _ _ (execAtomicUpdate_kept _ _ _ _ _ _ s t h)
  | .hostMemRead .. => .of_kept _ _ (execHostMemRead_kept _ _ _ _ _ s t h)
  | .hostMemWrite .. => .of_kept _ _ (execHostMemWrite_kept _ _ _ _ _ s t h)
  | .bisnpResponse .. => .of_kept _ _ (execBisnpResponse_kept _ _ _ s t h)
  | .scrubRead .. => .of_kept _ _ (execScrubRead_kept _ _ _ _ s t h)
  | .laneRepairStart .. => .of_kept _ _ (execLaneRepairStart_kept _ _ s t h)
  | .laneRepairEnd .. => .of_kept _ _ (execLaneRepairEnd_kept _ s t h)
  | .memScopeCommit .. => .of_kept _ _ (execMemScopeCommit_kept _ s t h)
  | .tierMove .. => .of_kept _ _ (execTierMove_kept _ _ s t h)
  | .tierReclaim .. => .of_kept _ _ (execTierReclaim_kept _ s t h)
  | .tierLost .. => .of_kept _ _ (execTierLost_kept _ _ s t h)
  | .arbiterDecide .. => .of_kept _ _ (execArbiterDecide_kept _ _ s t h)
  | .ttCommit .. => .of_kept _ _ (execTtCommit_kept _ _ s t h)
  | .hifSqDb .. => .of_kept _ _ (execHifSqDb_kept _ _ s t h)
  | .dispatcherWake .. => .of_kept _ _ (execDispatcherWake_kept s t h)
  | .entryArrive .. => .of_kept _ _ (execEntryArrive_kept s t h)
  | .taskPlace .. => .of_kept _ _ (execTaskPlace_kept s t h)
  | .signalBoxTask .. => .of_kept _ _ (execSignalBoxTask_kept _ _ _ s t h)
  | .taskMembersStart .. => .of_kept _ _ (execTaskMembersStart_kept _ _ _ s t h)
  | .faultReport .. => .of_kept _ _ (execFaultReport_kept _ s t h)
  | .memberStop .. => .of_kept _ _ (execMemberStop_kept _ s t h)
  | .taskEnd .. => .of_kept _ _ (execTaskEnd_kept _ s t h)
  | .completionRecordWrite .. => .of_kept _ _ (execCompletionRecordWrite_kept _ s t h)
  | .enqRequest .. => .of_kept _ _ (execEnqRequest_kept _ s t h)
  | .enqAnswer .. => .of_kept _ _ (execEnqAnswer_kept _ s t h)
  | .enqTimeout .. => .of_kept _ _ (execEnqTimeout_kept _ s t h)
  | .pmapCommit .. => .of_kept _ _ (execPmapCommit_kept s t h)
  | .hifCqHead .. => .of_kept _ _ (execHifCqHead_kept _ _ s t h)
  | .hifEvHead .. => .of_kept _ _ (execHifEvHead_kept _ s t h)
  | .hifLease .. => .of_kept _ _ (execHifLease_kept _ s t h)
  | .leaseExpiry .. => .of_kept _ _ (execLeaseExpiry_kept s t h)
  | .feAccess .. => .of_kept _ _ (execFeAccess_kept _ s t h)
  | .feTimeout .. => .of_kept _ _ (execFeTimeout_kept s t h)
  | .attach .. => .of_kept _ _ (execAttach_kept _ s t h)
  | .detach .. => .of_kept _ _ (execDetach_kept s t h)
  | .queueCreate .. => .of_kept _ _ (execQueueCreate_kept s t h)
  | .queueDelete .. => .of_kept _ _ (execQueueDelete_kept s t h)
  | .queueRebind .. => .of_kept _ _ (execQueueRebind_kept s t h)
  | .resume .. => .of_kept _ _ (execResume_kept s t h)
  | .taskAbort .. => .of_kept _ _ (execTaskAbort_kept s t h)
  | .tensorCreate .. => .of_kept _ _ (execTensorCreate_kept _ _ _ s t h)
  | .tensorFree .. => .of_kept _ _ (execTensorFree_kept s t h)
  | .tensorPin .. => .of_kept _ _ (execTensorPin_kept _ s t h)
  | .tensorUnpin .. => .of_kept _ _ (execTensorUnpin_kept s t h)
  | .tensorQuery .. => .of_kept _ _ (execTensorQuery_kept s t h)
  | .hostGrant .. => .of_kept _ _ (execHostGrant_kept _ s t h)
  | .hostRevoke .. => .of_kept _ _ (execHostRevoke_kept _ s t h)
  | .configSet .. => .of_kept _ _ (execConfigSet_kept s t h)
  | .eventRingSet .. => .of_kept _ _ (execEventRingSet_kept s t h)
  | .mbUnknownOpc .. => .of_kept _ _ (execMbUnknownOpc_kept s t h)
  | .functionLevelReset .. => .of_kept _ _ (execFunctionLevelReset_kept s t h)
  | .cplWriteFailed .. => .of_kept _ _ (execCplWriteFailed_kept _ _ s t h)
  | .fetchFailed .. => .of_kept _ _ (execFetchFailed_kept _ s t h)
  | .eventWriteFailed .. => .of_kept _ _ (execEventWriteFailed_kept _ s t h)
  | .msixCoalesceTimeout .. => .of_kept _ _ (execMsixCoalesceTimeout_kept _ s t h)
  | .cxlLinkChange .. => .of_kept _ _ (execCxlLinkChange_kept _ _ _ s t h)
  | .perstAssert .. => .of_kept _ _ (execPerstAssert_kept s t h)
  | .perstRelease .. => .of_kept _ _ (execPerstRelease_kept s t h)
  | .frameReceive .. => .of_kept _ _ (execFrameReceive_kept _ _ _ _ _ _ _ s t h)
  | .nak .. => .of_kept _ _ (execNak_kept _ _ s t h)
  | .ack .. => .of_kept _ _ (execAck_kept _ _ s t h)
  | .credit .. => .of_kept _ _ (execCredit_kept _ _ _ s t h)
  | .laneFailing .. => .of_kept _ _ (execLaneFailing_kept _ _ _ _ s t h)
  | .laneSwitch .. => .of_kept _ _ (execLaneSwitch_kept _ _ _ s t h)
  | .laneSwitchApply .. => .of_kept _ _ (execLaneSwitchApply_kept _ _ s t h)
  | .laneAck .. => .of_kept _ _ (execLaneAck_kept _ _ s t h)
  | .heartbeatSend .. => .of_kept _ _ (execHeartbeatSend_kept _ s t h)
  | .heartbeat .. => .of_kept _ _ (execHeartbeat_kept _ _ _ s t h)
  | .heartbeatTimeout .. => .of_kept _ _ (execHeartbeatTimeout_kept _ s t h)
  | .frameLockLoss .. => .of_kept _ _ (execFrameLockLoss_kept _ s t h)
  | .livenessProbe .. => .of_kept _ _ (execLivenessProbe_kept s t h)
  | .probeReturn .. => .of_kept _ _ (execProbeReturn_kept s t h)
  | .watchdogExpiry .. => .of_kept _ _ (execWatchdogExpiry_kept s t h)
  | .laneTrained .. => .of_kept _ _ (execLaneTrained_kept _ _ _ s t h)
  | .discover .. => .of_kept _ _ (execDiscover_kept _ _ _ _ s t h)
  | .accept .. => .of_kept _ _ (execAccept_kept _ s t h)
  | .reject .. => .of_kept _ _ (execReject_kept _ s t h)
  | .trainingTimeout .. => .of_kept _ _ (execTrainingTimeout_kept _ s t h)
  | .retrainAttempt .. => .of_kept _ _ (execRetrainAttempt_kept _ s t h)
  | .peerPorts .. => .of_kept _ _ (execPeerPorts_kept _ _ s t h)
  | .packetForward .. => .of_kept _ _ (execPacketForward_kept _ _ _ _ _ _ _ _ _ s t h)
  | .lnkPlanCommit .. => .of_kept _ _ (execLnkPlanCommit_kept _ s t h)
  | .lnkRtCommit .. => .of_kept _ _ (execLnkRtCommit_kept _ s t h)
  | .ltSyncSend .. => .of_kept _ _ (execLtSyncSend_kept s t h)
  | .ltSyncRequest .. => .of_kept _ _ (execLtSyncRequest_kept _ s t h)
  | .ltSyncAnswer .. => .of_kept _ _ (execLtSyncAnswer_kept _ _ _ s t h)
  | .ltParentLost .. => .of_kept _ _ (execLtParentLost_kept _ s t h)
  | .ltRealign .. => .of_kept _ _ (execLtRealign_kept _ _ _ s t h)
  | .ethLinkChange .. => .of_kept _ _ (execEthLinkChange_kept _ _ s t h)
  | .rdmaRemoteWrite .. => .of_kept _ _ (execRdmaRemoteWrite_kept _ _ _ _ s t h)
  | .rdmaRemoteRead .. => .of_kept _ _ (execRdmaRemoteRead_kept _ _ _ _ s t h)
  | .islandRdmaWrite .. => .of_kept _ _ (execIslandRdmaWrite_kept _ _ _ _ _ _ _ _ _ s t h)
  | .colContribution .. => .of_kept _ _ (execColContribution_kept s t h)
  | .colData .. => .of_kept _ _ (execColData_kept _ _ _ _ _ _ _ _ s t h)
  | .colAck .. => .of_kept _ _ (execColAck_kept _ _ _ _ _ s t h)
  | .colAbort .. => .of_kept _ _ (execColAbort_kept _ _ _ _ _ s t h)
  | .colOpTimeout .. => .of_kept _ _ (execColOpTimeout_kept _ _ _ s t h)
  | .colGtCommit .. => .of_kept _ _ (execColGtCommit_kept _ s t h)
  | .hold .. => .of_kept _ _ (execHold_kept _ _ _ _ _ _ _ _ s t h)
  | .release .. => .of_kept _ _ (execRelease_kept _ _ _ _ _ _ _ s t h)
  | .holdRequest .. => .of_kept _ _ (execHoldRequest_kept _ s t h)
  | .ownFaultHold .. => .of_kept _ _ (execOwnFaultHold_kept s t h)
  | .heldReached .. => .of_kept _ _ (execHeldReached_kept s t h)
  | .heldReport .. => .of_kept _ _ (execHeldReport_kept _ _ _ _ _ s t h)
  | .reportWaitTimeout .. => .of_kept _ _ (execReportWaitTimeout_kept s t h)
  | .backupTakeover .. => .of_kept _ _ (execBackupTakeover_kept s t h)
  | .plan .. => .of_kept _ _ (execPlan_kept _ _ _ _ _ _ s t h)
  | .ready .. => .of_kept _ _ (execReady_kept _ _ _ s t h)
  | .rebuildGo .. => .of_kept _ _ (execRebuildGo_kept _ _ _ _ s t h)
  | .rebuilt .. => .of_kept _ _ (execRebuilt_kept _ _ _ s t h)
  | .recCommit .. => .of_kept _ _ (execRecCommit_kept _ _ s t h)
  | .stop .. => .of_kept _ _ (execStop_kept _ _ _ s t h)
  | .writtenUpdate .. => .of_kept _ _ (execWrittenUpdate_kept s t h)
  | .refresh .. => .of_kept _ _ (execRefresh_kept _ _ _ _ _ _ _ _ _ s t h)
  | .parityCommit .. => .of_kept _ _ (execParityCommit_kept _ _ s t h)
  | .jobEpochReduced .. => .of_kept _ _ (execJobEpochReduced_kept s t h)
  | .rebuild .. => .of_kept _ _ (execRebuild_kept _ _ _ _ _ _ _ _ s t h)
  | .relayAck .. => .of_kept _ _ (execRelayAck_kept _ _ s t h)
  | .relayAbort .. => .of_kept _ _ (execRelayAbort_kept _ _ s t h)
  | .aux12vPresent .. => .of_kept _ _ (execAux12vPresent_kept _ s t h)
  | .aux12vAbsent .. => .of_kept _ _ (execAux12vAbsent_kept s t h)
  | .mainDwellElapsed .. => .of_kept _ _ (execMainDwellElapsed_kept s t h)
  | .inrushCharged .. => .of_kept _ _ (execInrushCharged_kept _ _ s t h)
  | .overvoltage .. => .of_kept _ _ (execOvervoltage_kept _ s t h)
  | .inputWarn .. => .of_kept _ _ (execInputWarn_kept _ s t h)
  | .inputWarnClear .. => .of_kept _ _ (execInputWarnClear_kept _ s t h)
  | .inputReset .. => .of_kept _ _ (execInputReset_kept _ s t h)
  | .railWarn .. => .of_kept _ _ (execRailWarn_kept _ _ s t h)
  | .railWarnClear .. => .of_kept _ _ (execRailWarnClear_kept _ _ s t h)
  | .railReset .. => .of_kept _ _ (execRailReset_kept _ _ s t h)
  | .railResetRestart .. => .of_kept _ _ (execRailResetRestart_kept _ s t h)
  | .thermalThrottle .. => .of_kept _ _ (execThermalThrottle_kept _ _ s t h)
  | .thermalThrottleEnd .. => .of_kept _ _ (execThermalThrottleEnd_kept _ _ s t h)
  | .thermalWarn .. => .of_kept _ _ (execThermalWarn_kept _ _ s t h)
  | .thermalWarnClear .. => .of_kept _ _ (execThermalWarnClear_kept _ _ _ s t h)
  | .thermalTripWarning .. => .of_kept _ _ (execThermalTripWarning_kept _ s t h)
  | .thermalTrip .. => .of_kept _ _ (execThermalTrip_kept _ _ s t h)
  | .powerGrant .. => .of_kept _ _ (execPowerGrant_kept _ _ _ s t h)
  | .grantExpiry .. => .of_kept _ _ (execGrantExpiry_kept s t h)
  | .controlPeriod .. => .of_kept _ _ (execControlPeriod_kept _ _ _ _ _ _ s t h)
  | .capTableCommit .. => .of_kept _ _ (execCapTableCommit_kept s t h)
  | .estimateUntrusted .. => .of_kept _ _ (execEstimateUntrusted_kept _ _ _ s t h)
  | .estimateTrusted .. => .of_kept _ _ (execEstimateTrusted_kept _ _ s t h)
  | .hwLimit .. => .of_kept _ _ (execHwLimit_kept _ s t h)
  | .startRequest .. => .of_kept _ _ (execStartRequest_kept _ _ _ _ _ s t h)
  | .startComplete .. => execStartComplete_rises _ s t h
  | .startFailed .. => .of_kept _ _ (execStartFailed_kept _ _ _ _ _ _ s t h)
  | .startTimeout .. => .of_kept _ _ (execStartTimeout_kept _ s t h)
  | .coreReadyTimeout .. => .of_kept _ _ (execCoreReadyTimeout_kept _ s t h)
  | .failedStartRetry .. => .of_kept _ _ (execFailedStartRetry_kept _ s t h)
  | .bundleFetchDone .. => .of_kept _ _ (execBundleFetchDone_kept _ _ s t h)
  | .bundlePush .. => .of_kept _ _ (execBundlePush_kept _ s t h)
  | .activateFirmware .. => .of_kept _ _ (execActivateFirmware_kept s t h)
  | .activationBegin .. => .of_kept _ _ (execActivationBegin_kept s t h)
  | .activationCancel .. => .of_kept _ _ (execActivationCancel_kept s t h)
  | .componentHandover .. => execComponentHandover_rises _ s t h
  | .handoverResumeTimeout .. => .of_kept _ _ (execHandoverResumeTimeout_kept s t h)
  | .protectionFault .. => .of_kept _ _ (execProtectionFault_kept _ _ _ s t h)
  | .coreReload .. => .of_kept _ _ (execCoreReload_kept _ _ s t h)
  | .securityCoreRestart .. => .of_kept _ _ (execSecurityCoreRestart_kept s t h)
  | .getVersion .. => .of_kept _ _ (execGetVersion_kept s t h)
  | .getCapabilities .. => .of_kept _ _ (execGetCapabilities_kept s t h)
  | .negotiateAlgorithms .. => .of_kept _ _ (execNegotiateAlgorithms_kept s t h)
  | .getDigests .. => .of_kept _ _ (execGetDigests_kept s t h)
  | .getCertificate .. => .of_kept _ _ (execGetCertificate_kept _ _ _ s t h)
  | .challenge .. => .of_kept _ _ (execChallenge_kept _ _ s t h)
  | .getMeasurements .. => .of_kept _ _ (execGetMeasurements_kept _ _ s t h)
  | .windowRead .. => .of_kept _ _ (execWindowRead_kept _ _ s t h)
  | .windowWrite .. => .of_kept _ _ (execWindowWrite_kept _ _ s t h)
  | .scanRead .. => .of_kept _ _ (execScanRead_kept _ _ _ _ s t h)
  | .sidebandBrake .. => .of_kept _ _ (execSidebandBrake_kept s t h)
  | .dbgBrake .. => .of_kept _ _ (execDbgBrake_kept _ s t h)
  | .extest .. => .of_kept _ _ (execExtest_kept s t h)
  | .samplePreload .. => .of_kept _ _ (execSamplePreload_kept s t h)
  | .jtagBrake .. => .of_kept _ _ (execJtagBrake_kept _ s t h)
  | .scanaddr .. => .of_kept _ _ (execScanaddr_kept _ s t h)
  | .scandata .. => .of_kept _ _ (execScandata_kept s t h)
  | .dbgstat .. => .of_kept _ _ (execDbgstat_kept s t h)
  | .bypass .. => .of_kept _ _ (execBypass_kept _ s t h)
  | .traceEntry .. => .of_kept _ _ (execTraceEntry_kept _ _ _ _ _ _ s t h)
  | .traceWrite .. => .of_kept _ _ (execTraceWrite_kept _ _ s t h)
  | .traceArm .. => .of_kept _ _ (execTraceArm_kept _ _ s t h)
  | .traceStop .. => .of_kept _ _ (execTraceStop_kept _ _ s t h)
  | .traceSwTrigger .. => .of_kept _ _ (execTraceSwTrigger_kept _ _ s t h)
  | .traceTrigger .. => .of_kept _ _ (execTraceTrigger_kept _ _ _ _ _ s t h)
  | .globalTrigger .. => .of_kept _ _ (execGlobalTrigger_kept _ _ _ _ _ s t h)
  | .hangWatchTimeout .. => .of_kept _ _ (execHangWatchTimeout_kept _ s t h)
  | .dbgHangBuild .. => .of_kept _ _ (execDbgHangBuild_kept _ s t h)
  | .hangSnapshotConfirm .. => .of_kept _ _ (execHangSnapshotConfirm_kept s t h)
  | .latchingLoRead .. => .of_kept _ _ (execLatchingLoRead_kept _ _ s t h)
  | .rcRead .. => .of_kept _ _ (execRcRead_kept _ _ s t h)
  | .tracePortRead .. => .of_kept _ _ (execTracePortRead_kept _ _ s t h)
  | .registerWrite .. => .of_kept _ _ (execRegisterWrite_kept _ _ _ s t h)
  | .tripCooldown .. => .of_kept _ _ (execTripCooldown_kept _ _ _ s t h)
  | .suspectWindowExpiry .. => .of_kept _ _ (execSuspectWindowExpiry_kept _ s t h)
  | .ieee1588Sync .. => .of_kept _ _ (execIeee1588Sync_kept _ _ s t h)
  | .rootLineTimeSet .. => .of_kept _ _ (execRootLineTimeSet_kept _ s t h)
  | .congestionNotification .. => .of_kept _ _ (execCongestionNotification_kept _ s t h)
  | .priorityFlowControl .. => .of_kept _ _ (execPriorityFlowControl_kept _ _ _ s t h)
  | .rdmaWorkCompletion .. => .of_kept _ _ (execRdmaWorkCompletion_kept _ _ _ _ s t h)
  | .queuePairSetup .. => .of_kept _ _ (execQueuePairSetup_kept _ _ _ _ _ _ _ s t h)
  | .bundleFetchRetry .. => .of_kept _ _ (execBundleFetchRetry_kept s t h)
  | .moduleIdAssign .. => .of_kept _ _ (execModuleIdAssign_kept _ s t h)
  | .jtagTrst .. => .of_kept _ _ (execJtagTrst_kept _ s t h)
  | .recordWriteCompleted .. => .of_kept _ _ (execRecordWriteCompleted_kept _ s t h)

theorem step_cons {s : State} {c : Instr} {rest : List Instr} (h : s.pending = c :: rest) :
    step s = exec c { s with pending := rest } := by
  rw [step, h]

theorem step_nil {s : State} (h : s.pending = []) : step s = .next s.tick := by
  rw [step, h]

/-- A step with a command in the queue leaves exactly the rest of it. -/
theorem step_leaves_rest {s t : State} {c : Instr} {rest : List Instr} (hq : s.pending = c :: rest)
    (h : step s = .next t) : t.pending = rest :=
  (exec_rises ((step_cons hq).symm.trans h)).q

/-- A step lowers no rollback counter, on an empty queue and with any command at its front. -/
theorem step_counters_rise {s t : State} (h : step s = .next t) :
    s.fw.floor.toNat ≤ t.fw.floor.toNat ∧ s.fw.minKey.toNat ≤ t.fw.minKey.toNat := by
  cases hq : s.pending with
  | nil =>
    rw [step_nil hq] at h
    cases h
    have hr := Rises.of_kept s s.tick s.tick_kept
    exact ⟨hr.f, hr.k⟩
  | cons c rest =>
    have hr := exec_rises ((step_cons hq).symm.trans h)
    exact ⟨hr.f, hr.k⟩

end Sys2Proof.Machine

open Sys2Proof Sys2Proof.Machine

/-- Settles O1: a step is `exec` of the front command, and a tick where the queue is empty. -/
theorem stepTakesTheFrontCommand : Obligations.StepTakesTheFrontCommand := by
  unfold Obligations.StepTakesTheFrontCommand
  exact ⟨fun _ _ _ => step_cons rfl, fun _ => step_nil⟩

/-- Settles O2: `exec` of the front command keeps the queue it is given, which is the rest. -/
theorem commandsWaitInOrder : Obligations.CommandsWaitInOrder := by
  unfold Obligations.CommandsWaitInOrder
  exact fun _ _ _ _ => step_leaves_rest

/-- Settles O3: a tick keeps both counters, and every command lowers neither. -/
theorem rollbackCountersNeverFall : Obligations.RollbackCountersNeverFall := by
  unfold Obligations.RollbackCountersNeverFall
  exact fun _ _ => step_counters_rise

end

section
/-! PROOFS. The wait-for graph (R536 to R538): when a snapshot is taken, and what the second one confirms. -/

namespace Sys2Proof.Machine

/-- The first snapshot is taken. -/
abbrev State.snapped (s : State) : State :=
  { s with free := s.free + 1, dbg := { s.dbg with snap := some (s.ns, s.snapshot) } }

section
variable {s : State}

theorem fwWrites_of (hmain : s.pwr.main = true) (hfw : s.hif.fwUp = true) : s.fwWrites = true := by
  rw [State.fwWrites, hmain, hfw]
  rfl

theorem fwWrites_down (hfw : s.hif.fwUp = false) : s.fwWrites = false := by
  rw [State.fwWrites, hfw, Bool.and_false]

theorem beginGraph_snaps (hfw : s.fwWrites = true) (hsnap : s.dbg.snap = none) : s.beginGraph = s.snapped :=
  if_neg (by simp [hfw, hsnap])

theorem beginGraph_idle (h : s.fwWrites = false ∨ s.dbg.snap ≠ none) : s.beginGraph = s :=
  if_pos (h.imp (by simp [·]) Option.isSome_iff_ne_none.2)

theorem exec_dbgHangBuild (h : s.servesFe = true ∨ s.sideUp = true) (v : BitVec 32) :
    exec (.dbgHangBuild v) s = .next (if v.getLsbD 0 then s.beginGraph else s) :=
  congrArg _ (if_pos h)

/-! ### The watch (R536) -/

section
variable {id : Nat} {k : Task} (hk : s.task id = some k)
include hk

theorem hangWatch_expired (htime : bitsOf s.dbg.hangCfg.toNat 15 0 ≠ 0) (hrun : k.stage = .running)
    (hd : s.dispRuns = true ∨ s.dbg.braked = true)
    (hall : ∀ c ∈ k.cells, (s.cell c).ctr.moved + 1000000 * bitsOf s.dbg.hangCfg.toNat 15 0 ≤ s.ns) :
    s.hangWatch id = s.beginGraph := by
  simp only [State.hangWatch, hk]
  exact if_pos ⟨htime, hrun, by simpa using hd, by simpa using hall⟩

theorem hangWatch_idle (h : bitsOf s.dbg.hangCfg.toNat 15 0 = 0 ∨ k.stage ≠ .running ∨
    ∃ c ∈ k.cells, s.ns < (s.cell c).ctr.moved + 1000000 * bitsOf s.dbg.hangCfg.toNat 15 0) :
    s.hangWatch id = s := by
  simp only [State.hangWatch, hk]
  refine if_neg fun ⟨htime, hrun, _, hall⟩ => ?_
  obtain h | h | ⟨c, hc, hlate⟩ := h
  · exact htime h
  · exact h hrun
  · have := of_decide_eq_true (List.all_eq_true.1 hall c hc)
    omega

end

/-! ### The second snapshot (R537, R538) -/

theorem confirmGraph_none (h : s.dbg.snap = none) : s.confirmGraph = s := by
  simp only [State.confirmGraph, h]

/-- The waits that both snapshots show, as a graph. -/
abbrev State.confirmed (s : State) (first : List SnapWait) : Graph :=
  s.graph (s.snapshot.filter fun w => first.any w.same) (Config.freeNat s.free % 2 ^ 32)

/-- The image of a graph confirmed now: whole where it fits, else its cycles, dead waits and external waits. -/
def State.graphImage (s : State) (g : Graph) (t0 : Nat) : List Byte :=
  let whole := g.bytes t0 s.ns (s.dbg.gen + 1).toNat false
  if 65536 < whole.length then g.cut.bytes t0 s.ns (s.dbg.gen + 1).toNat true else whole

theorem graphImage_whole {g : Graph} {t0 : Nat} (h : (g.bytes t0 s.ns (s.dbg.gen + 1).toNat false).length ≤ 65536) :
    s.graphImage g t0 = g.bytes t0 s.ns (s.dbg.gen + 1).toNat false := by
  rw [State.graphImage, if_neg (Nat.not_lt.2 h)]

/-- The cell of the first node of the first cycle, which the event names; 0x7FF without a cycle. -/
def Graph.lead (g : Graph) : Nat :=
  match g.cycles with
  | (n :: _) :: _ => match g.nodes[n]? with
    | some x => x.cell
    | none => 0x7FF
  | _ => 0x7FF

theorem lead_none {g : Graph} (h : g.cycles = []) : g.lead = 0x7FF := by
  rw [Graph.lead, h]

/-- The confirmed graph has taken the place of the one before. -/
abbrev State.graphPlaced (s : State) (g : Graph) (image : List Byte) : State :=
  { s with free := s.free + 1
           dbg := { s.dbg with snap := none, image := image, gen := s.dbg.gen + 1
                               cycles := BitVec.ofNat 8 (min 255 g.cycles.length)
                               dead := BitVec.ofNat 8 (min 255 g.dead.length) } }

section
variable {t0 : Nat} {first : List SnapWait} (hsnap : s.dbg.snap = some (t0, first))
include hsnap

theorem confirmGraph_early (h : s.ns < t0 + 100000) : s.confirmGraph = s := by
  simp only [State.confirmGraph, hsnap]
  exact if_pos (.inr h)

/-- A confirmed graph is placed; a cycle or a dead wait in it raises DBG_HANG. -/
theorem confirmGraph_due (h : t0 + 100000 ≤ s.ns) (hfw : s.fwWrites = true) :
    let g := s.confirmed first
    let t := s.graphPlaced g (s.graphImage g t0)
    s.confirmGraph = if g.cycles = [] ∧ g.dead = [] then t
      else t.raise 0x0C04 .error [(4, (s.dbg.gen + 1).toNat), (1, min 255 g.cycles.length), (1, min 255 g.dead.length),
        (2, g.lead)] := by
  simp only [State.confirmGraph, hsnap]
  rw [if_neg fun hn => hn.elim (fun e => e hfw) (by omega)]
  unfold State.graphImage Graph.lead
  rfl

end

end

end Sys2Proof.Machine

open Sys2Proof Sys2Proof.Machine

/-- Settles O60: a build and an expired watch both begin a graph; the second snapshot places the graph of the waits that
both show. -/
theorem hangGraph : Obligations.HangGraph := by
  unfold Obligations.HangGraph
  refine ⟨fun s hs => ⟨fun hmain hfw hsnap v hv => ?_, fun v h => ?_⟩, fun s id k hk => ?_,
    fun s h => congrArg _ (confirmGraph_none h), fun s t0 first hsnap => ?_⟩
  · rw [exec_dbgHangBuild hs, if_pos hv, beginGraph_snaps (fwWrites_of hmain hfw) hsnap]
  · obtain hv | h := h
    · rw [exec_dbgHangBuild hs, if_neg (ne_true_of_eq_false hv)]
    · rw [exec_dbgHangBuild hs, beginGraph_idle (h.symm.imp_left fwWrites_down), ite_self]
  · exact ⟨fun h => congrArg _ (hangWatch_idle hk h), fun htime hrun hd hall hfw hsnap =>
      congrArg _ ((hangWatch_expired hk htime hrun hd hall).trans (beginGraph_snaps hfw hsnap))⟩
  · refine ⟨fun h => congrArg _ (confirmGraph_early hsnap h), fun hdue hfw => ?_⟩
    intro g
    have hconfirm : exec .hangSnapshotConfirm s = .next s.confirmGraph := rfl
    rw [hconfirm, confirmGraph_due hsnap hdue hfw]
    refine ⟨fun hc hd hlen => ?_, fun h => ?_⟩
    · rw [if_pos ⟨hc, hd⟩, graphImage_whole hlen]
      simp only [State.graphPlaced, show (s.confirmed first).cycles = [] from hc, show (s.confirmed first).dead = [] from hd]
      rfl
    · refine ⟨s.graphImage g t0, g.lead, graphImage_whole, lead_none, ?_⟩
      rw [if_neg fun ⟨hc, hd⟩ => h.elim (· hc) (· hd)]

end

section
/-!
PROOFS. The emergency brake (R529, R530, R534, R541): each of its three sources, when the brake acts and when it does not.
-/

namespace Sys2Proof.Machine

section
variable {s : State}

theorem brake_idle (k : Nat) (h : s.pwr.main = false ∨ s.dbg.braked = true) : s.brake k = s :=
  if_pos (h.imp_left fun hmain => by simp [hmain])

theorem exec_dbgBrake (h : s.servesFe = true ∨ s.sideUp = true) : exec (.dbgBrake 0xB8A4) s = .next (s.brake 0) :=
  congrArg Host.Outcome.next (if_pos h)

/-- A write of DBG_BRAKE changes nothing where the brake would not act, and with any other value. -/
theorem exec_dbgBrake_idle {v : BitVec 32} (h : s.pwr.main = false ∨ s.dbg.braked = true ∨ v ≠ 0xB8A4) :
    exec (.dbgBrake v) s = .next s := by
  have hwrite : s.writeDbg 0 v = s := by
    by_cases hv : v = 0xB8A4
    · exact (if_pos hv).trans (brake_idle 0 (h.imp_right fun h => h.resolve_right (absurd hv)))
    · exact if_neg hv
  show Host.Outcome.next (if s.servesFe ∨ s.sideUp then s.writeDbg 0 v else s) = _
  rw [hwrite, ite_self]

/-- A JTAG instruction is selected, then acts, while the port works. -/
theorem jtagRow_up (code : BitVec 8) (f : State → State) (hmain : s.pwr.main = true) (htrst : s.dbg.trst = false) :
    jtagRow code s f = .next (f { s with dbg := { s.dbg with ir := code } }) :=
  congrArg Host.Outcome.next (if_pos (by rw [State.tapUp, hmain, htrst]; rfl))

/-- Without power, and while JTAG_TRST# is low, the port does nothing. -/
theorem jtagRow_down (code : BitVec 8) (f : State → State) (h : s.pwr.main = false ∨ s.dbg.trst = true) :
    jtagRow code s f = .next s := by
  refine congrArg Host.Outcome.next (if_neg ?_)
  obtain h | h := h <;> simp [State.tapUp, h]

theorem exec_sidebandBrake_on (hside : s.sideUp = true) (hmain : s.pwr.main = true) :
    exec .sidebandBrake s = .next ((s.brake 2).reply 9 4 []) :=
  congrArg Host.Outcome.next ((if_neg (by simp [hside])).trans (if_pos hmain))

theorem exec_sidebandBrake_off (hside : s.sideUp = true) (hmain : s.pwr.main = false) :
    exec .sidebandBrake s = .next (s.sideError 2) :=
  congrArg Host.Outcome.next ((if_neg (by simp [hside])).trans (if_neg (by simp [hmain])))

end

end Sys2Proof.Machine

open Sys2Proof Sys2Proof.Machine

/-- Settles O56: each source reaches `State.brake`, whose effect `brake_facts` states, and which is idle without the main
stage and while a brake is in force. -/
theorem emergencyBrake : Obligations.EmergencyBrake := by
  unfold Obligations.EmergencyBrake
  refine ⟨?_, fun s v h => exec_dbgBrake_idle h, fun s hside => ⟨fun hmain hbraked => ?_, fun hmain => ?_⟩⟩
  · intro s braked hmain hfree
    have acts (k : Nat) : braked (s.brake k) (BitVec.ofNat 3 k) := by
      obtain ⟨hb, hsource, hlt, hcells, hmem, hqps, -⟩ := brake_facts s k hmain hfree
      exact ⟨hb, hsource, hlt, hcells, hmem, hqps⟩
    refine ⟨fun h => ⟨s.brake 0, exec_dbgBrake h, acts 0⟩, fun htrst => ?_,
      fun hside => ⟨s.brake 2, exec_sidebandBrake_on hside hmain, acts 2⟩⟩
    let u : State := { s with dbg := { s.dbg with ir := 0x10 } }
    obtain ⟨hb, hsource, hlt, hcells, hmem, hqps, hir⟩ := brake_facts u 1 hmain hfree
    exact ⟨u.brake 1, jtagRow_up 0x10 _ hmain htrst, ⟨hb, hsource, hlt, hcells, hmem, hqps⟩, hir⟩
  · rw [exec_sidebandBrake_on hside hmain, brake_idle 2 (.inr hbraked)]
  · exact exec_sidebandBrake_off hside hmain

end

section
/-!
PROOFS. Scan-out over the side-band (R532 to R534) and the instructions of the test access port (R534, R548). That a length
above 224 or not a multiple of 8 is answered with an error is the model's choice (assumption log 29), and so are the free
values of a scan and of the boundary chain (assumption log 3).
-/

namespace Sys2Proof.Machine

section
variable {s : State}

/-! ### Scan-out over the side-band (R532, R534) -/

theorem exec_scanRead_badLength {space : BitVec 8} {cell : BitVec 16} {off : BitVec 32} {len : BitVec 16}
    (hside : s.sideUp = true) (h : 224 < len.toNat ∨ len.toNat % 8 ≠ 0) :
    exec (.scanRead space cell off len) s = .next (s.reply 9 0xFF [3]) :=
  congrArg Host.Outcome.next ((if_neg (by simp [hside])).trans (if_pos h))

/-- A scan of a served range answers its bytes and the poison bit of each group of eight. -/
theorem exec_scanRead_served {space : BitVec 8} {cell : BitVec 16} {off : BitVec 32} {len : BitVec 16}
    (hside : s.sideUp = true) (hlen : ¬ (224 < len.toNat ∨ len.toNat % 8 ≠ 0))
    (h : cell.toNat < 2048 ∧ s.scanServed space.toNat (cell.setWidth 11) off.toNat len.toNat = true) :
    exec (.scanRead space cell off len) s =
      let scan := s.scan space.toNat (cell.setWidth 11) off.toNat len.toNat 8
      .next (({ scan.2.2 with dbg := { scan.2.2.dbg with scanOk := true } } : State).reply 9 3
        (1 :: scan.2.1.map fun p => if p then 1 else 0) scan.1) :=
  congrArg Host.Outcome.next ((if_neg (by simp [hside])).trans ((if_neg hlen).trans (if_pos h)))

theorem exec_scanRead_refused {space : BitVec 8} {cell : BitVec 16} {off : BitVec 32} {len : BitVec 16}
    (hside : s.sideUp = true) (hlen : ¬ (224 < len.toNat ∨ len.toNat % 8 ≠ 0))
    (h : ¬ (cell.toNat < 2048 ∧ s.scanServed space.toNat (cell.setWidth 11) off.toNat len.toNat = true)) :
    exec (.scanRead space cell off len) s =
      .next (({ s with dbg := { s.dbg with scanOk := false } } : State).reply 9 3 [0]) :=
  congrArg Host.Outcome.next ((if_neg (by simp [hside])).trans ((if_neg hlen).trans (if_neg h)))

/-- A side-band scan is served where the brake is in force, the cell exists, and the bytes lie in the space. -/
theorem scanRead_served_iff (space : BitVec 8) (cell : BitVec 16) (off n : Nat) :
    (cell.toNat < 2048 ∧ s.scanServed space.toNat (cell.setWidth 11) off n = true) ↔
      s.pwr.main = true ∧ s.dbg.braked = true ∧ cell.toNat < 2048 ∧ cell.toNat / 16 % 16 < 9 ∧
        ∃ size, scanSize space.toNat = some size ∧ off + n ≤ size := by
  rw [served_iff]
  have hcell (h : cell.toNat < 2048) : cellOk (cell.setWidth 11) = true ↔ cell.toNat / 16 % 16 < 9 := by
    rw [cellOk, clusterOf, BitVec.toNat_setWidth, Nat.mod_eq_of_lt h, decide_eq_true_iff]
  constructor
  · rintro ⟨hlt, hmain, hbraked, hok, hsize⟩
    exact ⟨hmain, hbraked, hlt, (hcell hlt).1 hok, hsize⟩
  · rintro ⟨hmain, hbraked, hlt, hok, hsize⟩
    exact ⟨hlt, hmain, hbraked, (hcell hlt).2 hok, hsize⟩

/-! ### The test access port (R534, R548) -/

/-- What SCANDATA does once it is selected (R534). -/
def State.captureWord (s : State) : State :=
  let d := s.dbg
  let ok := s.scanServed d.scanSpace.toNat d.scanCell d.scanOff.toNat 4
  let (bs, ps, s1) := if ok then s.scan d.scanSpace.toNat d.scanCell d.scanOff.toNat 4 4 else ([], [], s)
  ({ s1 with dbg := { s1.dbg with scanOff := d.scanOff + 4, scanOk := ok } } : State).reply 10 0x12
    [if ps.any id then 1 else 0, if ok then 1 else 0, leNat bs]

theorem exec_scandata (s : State) : exec .scandata s = jtagRow 0x12 s State.captureWord := rfl

theorem exec_extest (s : State) : exec .extest s = jtagRow 0x00 s fun s => s.boundary 0x00 := rfl

theorem exec_samplePreload (s : State) : exec .samplePreload s = jtagRow 0x01 s fun s => s.boundary 0x01 := rfl

theorem exec_jtagBrake (s : State) (bit : Bool) :
    exec (.jtagBrake bit) s = jtagRow 0x10 s fun s => if bit then s.brake 1 else s := rfl

theorem captureWord_served (h : s.scanServed s.dbg.scanSpace.toNat s.dbg.scanCell s.dbg.scanOff.toNat 4 = true) :
    s.captureWord =
      let scan := s.scan s.dbg.scanSpace.toNat s.dbg.scanCell s.dbg.scanOff.toNat 4 4
      ({ scan.2.2 with dbg := { s.dbg with scanOff := s.dbg.scanOff + 4, scanOk := true } } : State).reply 10 0x12
        [if scan.2.1.any id then 1 else 0, 1, leNat scan.1] := by
  rw [State.captureWord, h]
  rfl

theorem captureWord_refused (h : s.scanServed s.dbg.scanSpace.toNat s.dbg.scanCell s.dbg.scanOff.toNat 4 = false) :
    s.captureWord = ({ s with dbg := { s.dbg with scanOff := s.dbg.scanOff + 4, scanOk := false } } : State).reply 10 0x12
      [0, 0, 0] := by
  rw [State.captureWord, h]
  rfl

theorem exec_bypass_of_unlisted {code : BitVec 8} (h : code ∉ jtagCodes) : exec (.bypass code) s = jtagRow 0xFF s id :=
  if_neg (by simpa using h)

theorem exec_bypass_down (code : BitVec 8) (h : s.pwr.main = false ∨ s.dbg.trst = true) :
    exec (.bypass code) s = .next s := by
  by_cases hc : code ∈ jtagCodes
  · exact if_pos (by simpa using hc)
  · exact (exec_bypass_of_unlisted hc).trans (jtagRow_down 0xFF id h)

end

/-! ### What a space reads of the frozen cell (R532, R533) -/

section
variable (c : CellState) (ns : Nat) (free : Nat → Byte) (i : Nat)

theorem scanByte_store (hue : i / 8 ∉ c.store.ue) (hp : i / 8 ∉ c.store.poison) :
    c.scanByte 0 ns free i = c.store.mem.get 0 i ∧ c.scanPoison 0 i = false := by
  simp [CellState.scanByte, CellState.scanPoison, hue, hp]

theorem scanPoison_store (h : i / 8 ∈ c.store.ue ∨ i / 8 ∈ c.store.poison) : c.scanPoison 0 i = true := by
  simpa [CellState.scanPoison] using h

theorem scanByte_dmem (hue : i / 4 ∉ c.dmem.ue) :
    c.scanByte 1 ns free i = c.dmem.mem.get 0 i ∧ c.scanPoison 1 i = false := by
  simp [CellState.scanByte, CellState.scanPoison, hue]

theorem scanPoison_dmem (h : i / 4 ∈ c.dmem.ue) : c.scanPoison 1 i = true := by
  simpa [CellState.scanPoison] using h

/-- Byte `j` of an s register without a poison mark. -/
theorem scanByte_sReg (r : BitVec 5) (j : Nat) (hj : j < 4) (hm : c.core.sMark.getLsbD r.toNat = false) :
    c.scanByte 4 ns free (4 * r.toNat + j) = BitVec.ofNat 8 ((c.sReg r).toNat / 256 ^ j) := by
  have hr := r.isLt
  have hdiv : (4 * r.toNat + j) / 4 = r.toNat := by omega
  have hmod : (4 * r.toNat + j) % 4 = j := by omega
  show c.scanCore ns free _ = _
  rw [CellState.scanCore, if_pos (by omega), hdiv, hm, hmod, BitVec.ofNat_toNat, BitVec.setWidth_eq]
  rfl

end

end Sys2Proof.Machine

open Sys2Proof Sys2Proof.Machine

/-- Settles O57: a scan by whether it is served (`scanRead_served_iff`), each space by its branch of `scanByte`, and each
instruction by whether the port works (`jtagRow_up`, `jtagRow_down`). -/
theorem scanAndTestPort : Obligations.ScanAndTestPort := by
  unfold Obligations.ScanAndTestPort
  refine ⟨⟨?_, ?_⟩, ?_, fun s low => rfl, ?_⟩
  · intro s space cell off len hside c served free
    refine ⟨exec_scanRead_badLength hside, fun hle hmod => ?_⟩
    have hlen : ¬ (224 < len.toNat ∨ len.toNat % 8 ≠ 0) := by omega
    have hserved := scanRead_served_iff (s := s) space cell off.toNat len.toNat
    refine ⟨fun h => (exec_scanRead_served hside hlen (hserved.2 h)).trans ?_,
      fun h => exec_scanRead_refused hside hlen (h ∘ hserved.1)⟩
    simp only [State.scan, List.map_map]
    rfl
  · intro c ns free i
    refine ⟨scanByte_store c ns free i, scanPoison_store c i, scanByte_dmem c ns free i, scanPoison_dmem c i,
      fun h => if_neg (by simpa using h), fun h => if_neg (by simpa using h), ?_, ?_⟩
    · rintro r j hj rfl hm
      exact scanByte_sReg c ns free r j hj hm
    · rintro rfl
      rfl
  · intro s hmain htrst ir seen
    have up (code : BitVec 8) (f : State → State) : jtagRow code s f = .next (f (ir code)) := jtagRow_up code f hmain htrst
    refine ⟨?_, ?_, up 0x13 fun _ => _, (exec_extest s).trans (up 0x00 _),
      (exec_samplePreload s).trans (up 0x01 _), (exec_jtagBrake s false).trans (up 0x10 _), fun code h0 h1 h2 h3 h4 h5 => ?_⟩
    · rintro space cell off value rfl rfl rfl
      exact up 0x11 fun _ => _
    · intro d c served free dbg
      have hserved := served_iff s d.scanSpace.toNat d.scanCell d.scanOff.toNat 4
      refine ⟨fun h => ?_, fun h => ?_⟩
      · rw [exec_scandata, up, captureWord_served (s := ir 0x12) (hserved.2 ⟨hmain, h⟩)]
        simp only [State.scan, Nat.div_self (by decide : 0 < 4), List.range_one, List.map_cons, List.map_nil,
          List.any_cons, List.any_nil, Bool.or_false, id, Nat.mul_zero, Nat.add_zero]
        rfl
      · have hnot : s.scanServed d.scanSpace.toNat d.scanCell d.scanOff.toNat 4 = false :=
          Bool.eq_false_iff.2 fun hs => h (hserved.1 hs).2
        rw [exec_scandata, up, captureWord_refused (s := ir 0x12) hnot]
    · have hnot : code ∉ jtagCodes := by
        simp only [jtagCodes, List.mem_cons, List.not_mem_nil, or_false, not_or]
        exact ⟨h0, h1, h2, h3, h4, h5⟩
      exact (exec_bypass_of_unlisted hnot).trans (up 0xFF id)
  · intro s value bit code h
    have down (code : BitVec 8) (f : State → State) : jtagRow code s f = .next s := jtagRow_down code f h
    exact ⟨down 0x11 fun _ => _, (exec_scandata s).trans (down 0x12 _), down 0x13 fun _ => _,
      (exec_extest s).trans (down 0x00 _), (exec_samplePreload s).trans (down 0x01 _),
      (exec_jtagBrake s bit).trans (down 0x10 _), exec_bypass_down code h⟩

end

section
/-!
PROOFS. Traces (R524 to R528, R540): what an entry does to the trace of a signal box when it is staged and when it is
written, how a trace is armed and stopped, and when a trigger acts. That a command which names a cluster the module does
not have is a stop is the model's choice (assumption log 13).
-/

namespace Sys2Proof.Machine

section
variable {s : State} {k : Nat}

/-! ### An entry is staged (R524, R525) -/

section
variable {code sev : Nat} {cell : Option (BitVec 4)} {payload : List Byte}

theorem traceEntry_off (h : s.pwr.main = false ∨ (s.box k).trace.armed = false ∨ (s.box k).trace.stopping = true ∨
    (s.box k).trace.enabled code sev cell = false) : s.traceEntry k code sev cell payload = s := by
  refine if_pos ?_
  obtain h | h | h | h := h <;> simp [h]

variable (hmain : s.pwr.main = true) (harmed : (s.box k).trace.armed = true) (hstop : (s.box k).trace.stopping = false)
  (hen : (s.box k).trace.enabled code sev cell = true)
include hmain harmed hstop hen

theorem traceEntry_staged (h : (s.box k).trace.staged < 64) : s.traceEntry k code sev cell payload =
    s.modTrace k fun t => t.stage
      ⟨BitVec.ofNat 16 code, BitVec.ofNat 8 sev, 0, s.boxLt k, (payload ++ List.replicate 16 0).take 16⟩ :=
  (if_neg (by simp [hmain, harmed, hstop, hen])).trans (if_pos h)

theorem traceEntry_dropped (h : ¬ (s.box k).trace.staged < 64) : s.traceEntry k code sev cell payload =
    (s.modTrace k fun t => { t with
      pendDrops := t.pendDrops + 1
      pendFirst := if t.pendDrops = 0 then s.boxLt k else t.pendFirst
      pendLast := s.boxLt k }).countDrop k (s.boxLt k) :=
  (if_neg (by simp [hmain, harmed, hstop, hen])).trans (if_neg h)

end

theorem stage_plain {t : TraceState} (e : TraceEntry) (h : t.pendDrops = 0) :
    t.stage e = { t with staging := t.staging ++ [e] } := by
  simp only [TraceState.stage, h, if_true, List.append_nil]

theorem stage_after_drops {t : TraceState} (e : TraceEntry) (h : 0 < t.pendDrops) : t.stage e =
    { t with staging := t.staging ++ [overflowEntry t.pendDrops t.pendFirst t.pendLast, e], pendDrops := 0 } := by
  simp only [TraceState.stage, if_neg (Nat.pos_iff_ne_zero.1 h), List.append_assoc, List.singleton_append]

/-- A drop is counted; the first one since ARM raises its event. -/
theorem countDrop_eq (lt : BitVec 64) : s.countDrop k lt =
    let t := (s.box k).trace
    let s1 := s.modTrace k fun t => { t with dropped := satInc t.dropped, ovfRaised := true }
    if t.ovfRaised then s1
    else s1.raise 0x0C03 .warning [(1, clusterIndex k), (4, (satInc t.dropped).toNat), (8, lt.toNat)] := rfl

/-! ### An entry is written (R525, R526) -/

section
variable {e : TraceEntry}

/-- The trigger's entry opens the post share of a window. -/
theorem bufferEntry_opens (hcode : e.code = 0xFE) (hpost : (s.box k).trace.post = none) (hmode : (s.box k).trace.mode = 3) :
    s.bufferEntry k e = s.modTrace k fun t => { t with post := some (t.share + t.region) }.fill e :=
  if_pos ⟨hcode, hpost, hmode⟩

theorem bufferEntry_fills (hopen : ¬ (e.code = 0xFE ∧ (s.box k).trace.post = none ∧ (s.box k).trace.mode = 3))
    (hroom : ∀ n, (s.box k).trace.limit = some n → 1 < n) : s.bufferEntry k e = s.modTrace k fun t => t.fill e := by
  refine (if_neg hopen).trans ?_
  cases hl : (s.box k).trace.limit with
  | none => rfl
  | some n => exact if_neg (Nat.not_le.2 (hroom n hl))

theorem bufferEntry_last (hopen : ¬ (e.code = 0xFE ∧ (s.box k).trace.post = none ∧ (s.box k).trace.mode = 3)) {n : Nat}
    (hl : (s.box k).trace.limit = some n) (hn : n ≤ 1) : s.bufferEntry k e = s.dropHeld k e.lt := by
  refine (if_neg hopen).trans ?_
  simp only [hl]
  exact if_pos hn

end

/-- The post share is at least 2,048 entries. -/
theorem share_pos (t : TraceState) : 2048 ≤ t.share := by
  unfold TraceState.share
  omega

section
variable {t : TraceState} (e : TraceEntry)

theorem limit_stop (hmode : t.mode = 1) : t.limit = some (32768 + t.region - t.used) := if_pos hmode

theorem limit_ring (hmode : t.mode ≠ 1) : t.limit = t.post := if_neg hmode

/-- Before the post share slots follow each other round the SRAM; a written slot is overwritten and counted. -/
theorem fill_ring (hmode : t.mode ≠ 1) (hpost : t.post = none) : t.fill e =
    { t with slots := Sparse.put t.slots t.wr { e with seq := t.seq }, seq := t.seq + 1, wr := (t.wr + 1) % 32768
             used := t.used + 1, ovwr := if t.wr < 32768 ∧ 32768 ≤ t.used then satInc t.ovwr else t.ovwr } := by
  simp only [TraceState.fill, TraceState.nextSlot, sramSlots, hmode, hpost, ne_eq, not_false_eq_true, and_true, if_false,
    Option.map_none]

/-- Within the SRAM, slots of the post share follow each other round it, unless the next one is the overflow region's. -/
theorem fill_post {left : Nat} (hmode : t.mode ≠ 1) (hpost : t.post = some left) (hwr : t.wr < 32768)
    (hlast : ¬ (left = t.region + 1 ∧ 0 < t.region)) : t.fill e =
    { t with slots := Sparse.put t.slots t.wr { e with seq := t.seq }, seq := t.seq + 1, wr := (t.wr + 1) % 32768
             used := t.used + 1, post := some (left - 1)
             ovwr := if 32768 ≤ t.used then satInc t.ovwr else t.ovwr } := by
  simp only [TraceState.fill, TraceState.nextSlot, sramSlots, hmode, hpost, hwr, hlast, Nat.not_le.2 hwr, ne_eq,
    not_false_eq_true, and_true, true_and, if_false, Option.map_some]

theorem fill_stop (hmode : t.mode = 1) (hpost : t.post = none) : t.fill e =
    { t with slots := Sparse.put t.slots t.wr { e with seq := t.seq }, seq := t.seq + 1, wr := t.wr + 1
             used := t.used + 1 } := by
  simp only [TraceState.fill, TraceState.nextSlot, hmode, hpost, ne_eq, not_true, and_false, if_false, if_true,
    Option.map_none]

end

/-- The oldest staged entry is written: what the buffer makes of the trace is what is left. -/
theorem traceWrite_buffered {e : TraceEntry} {rest : List TraceEntry} (hmain : s.pwr.main = true)
    (harmed : (s.box k).trace.armed = true) (hstop : (s.box k).trace.stopping = false)
    (hstaging : (s.box k).trace.staging = e :: rest) {f : TraceState → TraceState} {t' : TraceState}
    (hb : (s.modTrace k fun t => { t with staging := rest }).bufferEntry k e =
      (s.modTrace k fun t => { t with staging := rest }).modTrace k f)
    (hf : f { (s.box k).trace with staging := rest } = t') (ht : t'.stopping = (s.box k).trace.stopping) :
    s.traceWrite k = s.modTrace k fun _ => t' := by
  rw [traceWrite_cons s k e rest hmain harmed hstaging (fun t => f { t with staging := rest })
    (hb.trans (State.modTrace_modTrace ..)) (by rw [hf, ht, hstop])]
  exact modTrace_self s k t' _ hf.symm

/-! The cases of R526, by the mode and the post share: `e` is the oldest staged entry. -/

section
variable {e : TraceEntry} {rest : List TraceEntry} (hmain : s.pwr.main = true)
  (harmed : (s.box k).trace.armed = true) (hstop : (s.box k).trace.stopping = false)
  (hstaging : (s.box k).trace.staging = e :: rest)
include hmain harmed hstop hstaging

/-- No post share is open and the mode has no end: the entry takes the slot in turn. -/
theorem traceWrite_ring (hmode : (s.box k).trace.mode = 2) (hpost : (s.box k).trace.post = none) :
    s.traceWrite k = s.modTrace k fun _ => { (s.box k).trace with staging := rest }.fill e := by
  refine traceWrite_buffered hmain harmed hstop hstaging (bufferEntry_fills ?_ fun n hl => ?_) rfl rfl <;>
    rw [State.box_modTrace] at *
  · exact fun ⟨_, _, h⟩ => absurd (hmode.symm.trans h) (by decide)
  · have hnone := (limit_ring fun h => absurd (hmode.symm.trans h) (by decide)).symm.trans hl
    exact absurd (hpost.symm.trans hnone) (by simp)

/-- The trigger's entry of a window opens the post share and takes its first slot. -/
theorem traceWrite_opens (hmode : (s.box k).trace.mode = 3) (hpost : (s.box k).trace.post = none) (hcode : e.code = 0xFE) :
    s.traceWrite k = s.modTrace k fun _ =>
      { (s.box k).trace with
        staging := rest
        post := some ((s.box k).trace.share + (s.box k).trace.region) }.fill e := by
  refine traceWrite_buffered (f := fun t => { t with post := some (t.share + t.region) }.fill e) hmain harmed hstop hstaging
    (bufferEntry_opens hcode ?_ ?_) rfl rfl <;> rw [State.box_modTrace]
  · exact hpost
  · exact hmode

/-- An entry of the post share that is not its last takes the slot in turn. -/
theorem traceWrite_post {n : Nat} (hmode : (s.box k).trace.mode = 3) (hpost : (s.box k).trace.post = some n) (hn : 1 < n) :
    s.traceWrite k = s.modTrace k fun _ => { (s.box k).trace with staging := rest }.fill e := by
  refine traceWrite_buffered hmain harmed hstop hstaging (bufferEntry_fills ?_ fun m hl => ?_) rfl rfl <;>
    rw [State.box_modTrace] at *
  · exact fun ⟨_, h, _⟩ => absurd (hpost.symm.trans h) (by simp)
  · have hleft := (limit_ring fun h => absurd (hmode.symm.trans h) (by decide)).symm.trans hl
    obtain rfl : n = m := Option.some.inj (hpost.symm.trans hleft)
    exact hn

/-- An entry before the last slot of a trace that stops when it is full takes the slot in turn. -/
theorem traceWrite_stopMode (hmode : (s.box k).trace.mode = 1)
    (hroom : (s.box k).trace.used + 1 < 32768 + (s.box k).trace.region) :
    s.traceWrite k = s.modTrace k fun _ => { (s.box k).trace with staging := rest }.fill e := by
  refine traceWrite_buffered hmain harmed hstop hstaging (bufferEntry_fills ?_ fun n hl => ?_) rfl rfl <;>
    rw [State.box_modTrace] at *
  · exact fun ⟨_, _, h⟩ => absurd (hmode.symm.trans h) (by decide)
  · have hleft : 32768 + (s.box k).trace.region - (s.box k).trace.used = n :=
      Option.some.inj ((limit_stop hmode).symm.trans hl)
    omega

/-- An entry that finds only the last slot left is dropped into the record held there. -/
theorem traceWrite_held {t' : TraceState} {n : Nat} (hopen : ¬ ((s.box k).trace.post = none ∧ (s.box k).trace.mode = 3))
    (hl : TraceState.limit { (s.box k).trace with staging := rest } = some n) (hn : n ≤ 1)
    (hd : (s.modTrace k fun t => { t with staging := rest }).dropHeld k e.lt = s.modTrace k fun _ => t')
    (ht : t'.stopping = (s.box k).trace.stopping) : s.traceWrite k = s.modTrace k fun _ => t' := by
  refine traceWrite_cons s k e rest hmain harmed hstaging _ ((bufferEntry_last ?_ (n := n) ?_ hn).trans hd) (ht.trans hstop) <;>
    rw [State.box_modTrace]
  · exact fun ⟨_, hpost, hmode⟩ => hopen ⟨hpost, hmode⟩
  · exact hl

end

theorem traceWrite_empty (hstop : (s.box k).trace.stopping = false) (hstaging : (s.box k).trace.staging = []) :
    s.traceWrite k = s := by
  unfold State.traceWrite
  simp only [hstaging, hstop, Bool.false_eq_true, false_and, if_false, ite_self]

theorem traceWrite_off (h : s.pwr.main = false ∨ (s.box k).trace.armed = false) : s.traceWrite k = s :=
  if_pos (by obtain h | h := h <;> simp [h])

/-! ### Arming and stopping (R540) -/

theorem stop_drained {t : TraceState} (harmed : t.armed = true) (hstaging : t.staging = []) (hdrops : t.pendDrops = 0) :
    t.stop = { t with armed := false, stopped := true, stopping := false } :=
  (if_pos harmed).trans (if_pos ⟨rfl, hstaging, hdrops⟩)

theorem stop_draining {t : TraceState} (harmed : t.armed = true) (h : t.staging ≠ [] ∨ 0 < t.pendDrops) :
    t.stop = { t with stopping := true } :=
  (if_pos harmed).trans (if_neg fun ⟨_, hstaging, hdrops⟩ => h.elim (· hstaging) fun hd => (Nat.ne_of_gt hd) hdrops)

end

/-- The four rows of a trace name a cluster of the module, or stop. -/
theorem exec_trace_noSuchPart (s : State) (die : BitVec 3) (cluster : BitVec 4) (code : BitVec 16) (sev : BitVec 2)
    (cell : Option (BitVec 4)) (payload : List Byte) (h : 9 ≤ cluster.toNat) :
    exec (.traceEntry die cluster code sev cell payload) s = .fault (.noSuchPart 22) ∧
    exec (.traceWrite die cluster) s = .fault (.noSuchPart 22) ∧ exec (.traceArm die cluster) s = .fault (.noSuchPart 22) ∧
    exec (.traceStop die cluster) s = .fault (.noSuchPart 22) := by
  have hbox : ¬ cluster.toNat < 9 := Nat.not_lt.2 h
  exact ⟨if_neg hbox, if_neg hbox, if_neg hbox, if_neg hbox⟩

/-! ### Triggers (R527) -/

section
variable {s : State} {die : BitVec 3} {cluster : BitVec 4} (hbox : cluster.toNat < 9)
include hbox

theorem exec_traceSwTrigger : exec (.traceSwTrigger die cluster) s =
    let k := 16 * die.toNat + cluster.toNat
    .next (if s.pwr.main then s.triggerTrace k 0 0x7FF (clusterIndex k) (s.boxLt k) else s) :=
  exec_of_withBox (f := fun k => if s.pwr.main then s.triggerTrace k 0 0x7FF (clusterIndex k) (s.boxLt k) else s) rfl
    hbox rfl

theorem exec_traceTrigger (source : BitVec 2) (cell : BitVec 4) (code : BitVec 16) :
    exec (.traceTrigger die cluster source cell code) s =
      let k := 16 * die.toNat + cluster.toNat
      .next (if s.pwr.main ∧ s.triggerDue k source.toNat cell code then
        s.triggerTrace k source.toNat (if source = 3 then 0x7FF else 16 * k + cell.toNat) (clusterIndex k) (s.boxLt k)
      else s) :=
  if_pos hbox

theorem exec_globalTrigger (fromDie : BitVec 3) (fromCluster : BitVec 4) (lt : BitVec 64) :
    exec (.globalTrigger die cluster fromDie fromCluster lt) s =
      let k := 16 * die.toNat + cluster.toNat
      let o := 16 * fromDie.toNat + fromCluster.toNat
      .next (if s.fwWrites ∧ fromCluster.toNat < 9 ∧ o ≠ k ∧ (s.box o).trace.triggered ∧ (s.box o).trace.trig.getLsbD 31
        then s.triggerTrace k 4 0x7FF (clusterIndex o) lt else s) :=
  if_pos hbox

end

/-- An event code matches by its value, or by its upper byte where the trace asks for the group. -/
theorem codeMatch_of {t : TraceState} {code : BitVec 16}
    (h : t.trig.getLsbD 26 = false ∧ code = t.trig.setWidth 16 ∨
      t.trig.getLsbD 26 = true ∧ code.extractLsb' 8 8 = t.trig.extractLsb' 8 8) : t.codeMatch code = true := by
  unfold TraceState.codeMatch
  obtain ⟨hgroup, hcode⟩ | ⟨hgroup, hcode⟩ := h
  · simp only [hgroup, hcode, Bool.false_eq_true, if_false, beq_self_eq_true]
  · have hlow : (t.trig.setWidth 16).extractLsb' 8 8 = t.trig.extractLsb' 8 8 := by
      ext i hi
      simp
      omega
    simp only [hgroup, hcode, hlow, if_true, beq_self_eq_true]

end Sys2Proof.Machine

open Sys2Proof Sys2Proof.Machine

/-- Settles O59: an entry by the state of the trace and by where the buffer puts it; a trigger by `trig_outcome`. -/
theorem traceBlocks : Obligations.TraceBlocks := by
  unfold Obligations.TraceBlocks
  refine ⟨⟨?_, ?_, ?_, fun s die cluster code sev cell payload => exec_trace_noSuchPart s die cluster code sev cell payload⟩, ?_⟩
  -- An entry is staged or dropped.
  · intro s die cluster code sev cell payload hbox k t e sent
    have hsent : sent = .next (if s.dbg.braked then s else s.traceEntry k code.toNat sev.toNat cell payload) :=
      traceEntry_eq s die cluster code sev cell payload hbox
    refine ⟨fun h => ?_, fun hbraked hmain harmed hstop hen => ?_⟩
    · rw [hsent]
      obtain hb | h := h
      · rw [if_pos hb]
      · rw [traceEntry_off h, ite_self]
    · rw [hsent, hbraked, if_neg Bool.false_ne_true]
      have he : (⟨BitVec.ofNat 16 code.toNat, BitVec.ofNat 8 sev.toNat, 0, s.boxLt k,
          (payload ++ List.replicate 16 0).take 16⟩ : TraceEntry) = e := by
        simp only [BitVec.ofNat_toNat, BitVec.setWidth_eq]
        rfl
      refine ⟨fun hroom hdrops => ?_, fun hroom hdrops => ?_, fun hfull => ?_⟩
      · rw [traceEntry_staged hmain harmed hstop hen hroom, he]
        exact congrArg Host.Outcome.next (modTrace_self s k _ _ (stage_plain e hdrops).symm)
      · rw [traceEntry_staged hmain harmed hstop hen hroom, he]
        exact congrArg Host.Outcome.next (modTrace_self s k _ _ (stage_after_drops e hdrops).symm)
      · intro lost
        rw [traceEntry_dropped hmain harmed hstop hen (Nat.not_lt.2 hfull), countDrop_eq]
        simp only [State.box_modTrace, State.modTrace_modTrace]
        refine ⟨fun hovf => ?_, fun hovf => ?_⟩
        · rw [if_pos hovf]
          rfl
        · rw [if_neg (ne_true_of_eq_false hovf)]
          rfl
  -- An entry is written.
  · intro s die cluster hbox k t
    have hrun : exec (.traceWrite die cluster) s = .next (s.traceWrite k) := traceWrite_eq s die cluster hbox
    refine ⟨fun h => hrun.trans (congrArg _ (traceWrite_off h)), fun hmain harmed hstop => ⟨fun h =>
      hrun.trans (congrArg _ (traceWrite_empty hstop h)), ?_⟩⟩
    intro e rest hstaging
    let v : TraceState := { t with staging := rest }
    have ring {m : Nat} (hmode : t.mode = m) (hm : m ≠ 1) : v.mode ≠ 1 := fun h => hm (hmode.symm.trans h)
    rw [hrun]
    refine ⟨fun hmode hpost => ?_, fun hmode hpost hwr hcode => ?_, fun n hmode hpost hn hregion hwr => ?_,
      fun a hmode hpost hheld hovf => ?_, fun hmode hpost hroom => ?_, fun hmode hheld hlast hovf => ?_⟩
    · rw [traceWrite_ring hmain harmed hstop hstaging hmode hpost]
      exact congrArg Host.Outcome.next (modTrace_self s k _ _ (fill_ring (t := v) e (ring hmode (by decide)) hpost).symm)
    · rw [traceWrite_opens hmain harmed hstop hstaging hmode hpost hcode]
      have hshare : 2048 ≤ t.share := share_pos t
      have hlast : ¬ (t.share + t.region = t.region + 1 ∧ 0 < t.region) := fun ⟨h, _⟩ => by omega
      exact congrArg Host.Outcome.next (modTrace_self s k _ _
        (fill_post (t := { v with post := some (t.share + t.region) }) e (ring hmode (by decide)) rfl hwr hlast).symm)
    · rw [traceWrite_post hmain harmed hstop hstaging hmode hpost hn]
      have hlast : ¬ (n = t.region + 1 ∧ 0 < t.region) := fun ⟨_, h⟩ => by omega
      exact congrArg Host.Outcome.next (modTrace_self s k _ _
        (fill_post (t := v) e (ring hmode (by decide)) hpost hwr hlast).symm)
    · exact congrArg Host.Outcome.next (traceWrite_held hmain harmed hstop hstaging
        (fun ⟨h, _⟩ => absurd (hpost.symm.trans h) (by simp)) ((limit_ring (ring hmode (by decide))).trans hpost) le_rfl
        (dropHeld_some s k e rest a hheld hovf) rfl)
    · rw [traceWrite_stopMode hmain harmed hstop hstaging hmode hroom]
      exact congrArg Host.Outcome.next (modTrace_self s k _ _ (fill_stop (t := v) e hmode hpost).symm)
    · have hleft : 32768 + t.region - t.used ≤ 1 := by omega
      exact congrArg Host.Outcome.next (traceWrite_held hmain harmed hstop hstaging
        (fun ⟨_, h⟩ => absurd (hmode.symm.trans h) (by decide)) (limit_stop (t := v) hmode) hleft
        (dropHeld_none s k e rest hmode hheld hovf) rfl)
  -- A trace is armed and stopped.
  · intro s die cluster hbox k t
    have harm : exec (.traceArm die cluster) s = .next (if s.pwr.main then s.traceArm k else s) := if_pos hbox
    have hstop : exec (.traceStop die cluster) s = .next (if s.pwr.main then s.modTrace k TraceState.stop else s) :=
      if_pos hbox
    refine ⟨fun hmain hbraked => ?_, fun h => ?_, fun hmain harmed hstaging hdrops => ?_, fun hmain harmed h => ?_,
      fun hmain => hstop.trans (congrArg _ (if_neg (ne_true_of_eq_false hmain)))⟩
    · rw [harm, if_pos hmain, State.traceArm, if_neg (ne_true_of_eq_false hbraked)]
      rfl
    · rw [harm]
      obtain hmain | hbraked := h
      · rw [if_neg (ne_true_of_eq_false hmain)]
      · rw [State.traceArm, if_pos hbraked, ite_self]
    · rw [hstop, if_pos hmain]
      exact congrArg Host.Outcome.next (modTrace_self s k _ _ (stop_drained harmed hstaging hdrops).symm)
    · rw [hstop, if_pos hmain]
      exact congrArg Host.Outcome.next (modTrace_self s k _ _ (stop_draining harmed h).symm)
  -- A trigger acts, or not.
  · intro s die cluster hbox k t entry fired ready outcome
    have acts {o : Out} (hmain : s.pwr.main = true) {source cell origin : Nat} {lt : BitVec 64}
        (ho : o = .next (s.triggerTrace k source cell origin lt)) : outcome o source cell origin lt := by
      obtain ⟨hnot, hfires, hbrakes⟩ := trig_outcome s k source cell origin lt hmain
      exact ⟨fun h => ho.trans (congrArg _ (hnot h)), fun h h30 => ho.trans (congrArg _ (hfires h h30)),
        fun h h30 hbraked => ⟨_, ho, hbrakes h h30 hbraked⟩⟩
    have hsource := exec_traceTrigger (s := s) (die := die) hbox
    refine ⟨fun hmain => ⟨acts hmain ((exec_traceSwTrigger hbox).trans (congrArg _ (if_pos hmain))), fun cell code => ?_⟩,
      fun hfw fromDie fromCluster lt hfrom => ?_, fun hmain => ⟨?_, fun source cell code fromDie fromCluster lt => ?_⟩⟩
    · intro id
      have due (source : BitVec 2) (h : s.triggerDue k source.toNat cell code = true) :=
        (hsource source cell code).trans (congrArg Host.Outcome.next (if_pos ⟨hmain, h⟩))
      have idle (source : BitVec 2) (h : s.triggerDue k source.toNat cell code = false) :
          exec (.traceTrigger die cluster source cell code) s = .next s :=
        (hsource source cell code).trans (congrArg Host.Outcome.next (if_neg fun hd => ne_true_of_eq_false h hd.2))
      refine ⟨fun h29 hnan => ?_, fun h28 hst => ?_, fun h27 hev hcode => ?_, fun h29 => ?_, fun h28 => ?_, fun h27 => ?_,
        idle 0 rfl⟩
      · exact acts hmain (due 1 (Bool.and_eq_true_iff.2 ⟨h29, hnan⟩))
      · exact acts hmain (due 2 (Bool.and_eq_true_iff.2 ⟨h28, beq_iff_eq.2 hst⟩))
      · obtain ⟨e, he, rfl⟩ := hev
        refine acts hmain (due 3 (Bool.and_eq_true_iff.2 ⟨Bool.and_eq_true_iff.2 ⟨h27, codeMatch_of hcode⟩, ?_⟩))
        exact List.any_eq_true.2 ⟨e, he, beq_self_eq_true _⟩
      · exact idle 1 (Bool.and_eq_false_iff.2 (.inl h29))
      · exact idle 2 (Bool.and_eq_false_iff.2 (.inl h28))
      · exact idle 3 (Bool.and_eq_false_iff.2 (.inl (Bool.and_eq_false_iff.2 (.inl h27))))
    · intro o hother htriggered hglobal
      refine acts (Bool.and_eq_true_iff.1 hfw).1 ((exec_globalTrigger hbox fromDie fromCluster lt).trans (congrArg _ ?_))
      exact if_pos ⟨hfw, hfrom, hother, htriggered, hglobal⟩
    · exact (exec_traceSwTrigger hbox).trans (congrArg _ (if_neg (ne_true_of_eq_false hmain)))
    · have hoff : ¬ s.pwr.main = true := ne_true_of_eq_false hmain
      refine ⟨(hsource source cell code).trans (congrArg _ (if_neg fun h => hoff h.1)),
        (exec_globalTrigger hbox fromDie fromCluster lt).trans (congrArg _ (if_neg fun h => ?_))⟩
      exact hoff (Bool.and_eq_true_iff.1 h.1).1

end

section
/-! PROOFS. The level of MOD_READY (R551): what holds it low, what raises it, and what a brake leaves. -/

namespace Sys2Proof.Machine

section
variable {s : State}

theorem modReady_low (h : s.fw.run ≠ none ∨ s.pwr.main = false ∨ s.pwr.aux = false ∨ s.fw.depot = true) :
    s.modReady = false := by
  unfold State.modReady
  obtain h | h | h | h := h
  · simp [Option.isNone_iff_eq_none, h]
  · simp [h]
  · simp [h]
  · simp [h]

/-- No start begins where none waits (R507). -/
theorem nextStart_none (flash : List (BitVec 4)) (found : Training) (h : s.fw.waiting = []) :
    s.nextStart flash found = s := by
  unfold State.nextStart
  rw [h]
  exact ite_self s

/-- A command whose state has the power and the firmware of `s` leaves MOD_READY. -/
theorem exec_keeps_modReady {i : Instr} {t : State} (hi : exec i s = .next t) (h : PF s t) :
    ∃ t, exec i s = .next t ∧ t.modReady = s.modReady :=
  ⟨t, hi, pf_mr h⟩

theorem writeBrake_pf (v : Word) : PF s (s.writeDbg 0 v) := by
  show PF s (if v = 0x0000B8A4 then s.brake 0 else s)
  split
  · exact brake_pf s 0
  · exact ⟨rfl, rfl⟩

theorem exec_dbgBrake_pf (v : BitVec 32) : ∃ t, exec (.dbgBrake v) s = .next t ∧ t.modReady = s.modReady := by
  refine exec_keeps_modReady rfl ?_
  split
  · exact writeBrake_pf v
  · exact ⟨rfl, rfl⟩

theorem exec_jtagBrake_pf (b : Bool) : ∃ t, exec (.jtagBrake b) s = .next t ∧ t.modReady = s.modReady := by
  refine exec_keeps_modReady rfl ?_
  split
  · cases b with
    | false => exact ⟨rfl, rfl⟩
    | true => exact brake_pf { s with dbg := { s.dbg with ir := 0x10 } } 1
  · exact ⟨rfl, rfl⟩

theorem exec_sidebandBrake_pf : ∃ t, exec .sidebandBrake s = .next t ∧ t.modReady = s.modReady := by
  refine exec_keeps_modReady rfl ?_
  split
  · exact ⟨rfl, rfl⟩
  · split
    · exact brake_pf s 2
    · exact ⟨rfl, rfl⟩

/-! ### Supplies and temperature (R468, R474, R476, R478) -/

theorem auxOff_present (h : s.pwr.aux = true) : s.auxOff.pwr.aux = false := by
  rw [State.auxOff, if_neg (by simp [h])]

theorem thermTrip_due {die : BitVec 4} {temp : BitVec 8} (hmain : s.pwr.main = true) (htemp : 105 ≤ temp.toNat) :
    s.thermTrip die temp = (s.setPwr (s.pwr.modDie die.toNat fun d => { d with temp := temp })).supplyReset .trip 2
      temp.toNat 5 0x0A08 [(1, die.toNat), (1, temp.toNat)] := by
  rw [State.thermTrip, if_neg (by simp [hmain]; omega)]

theorem inputReset_due {low : BitVec 16} (hmain : s.pwr.main = true) (hlow : low.toNat < 3800) :
    s.inputReset low = (s.supplyReset .input 0 low.toNat 4 0x0A03 [(2, low.toNat)]).openInrush := by
  rw [State.inputReset, if_pos ⟨hmain, hlow⟩]

section
variable {volt : BitVec 16} (haux : s.pwr.aux = true) (hinrush : s.pwr.inrush ≠ .opened) (hvolt : 5900 < volt.toNat)
include haux hinrush hvolt

theorem overvoltage_running (hmain : s.pwr.main = true) : s.overvoltage volt =
    (s.supplyReset .input 3 volt.toNat 4 0x0A0F [(2, volt.toNat)]).openInrush := by
  rw [State.overvoltage, if_neg (by simp [haux, hinrush]; omega), if_pos hmain]

theorem overvoltage_waiting (hmain : s.pwr.main = false) : s.overvoltage volt =
    (s.raise 0x0A0F .error [(2, volt.toNat)]).openInrush := by
  rw [State.overvoltage, if_neg (by simp [haux, hinrush]; omega), if_neg (ne_true_of_eq_false hmain)]

end

end

end Sys2Proof.Machine

open Sys2Proof Sys2Proof.Machine

/-- Settles O5: MOD_READY is read from the power and firmware state, which a brake leaves and a reset turns off. -/
theorem moduleReady : Obligations.ModuleReady := by
  unfold Obligations.ModuleReady
  refine ⟨fun s => modReady_low, ?_, fun s v b => ?_, fun s haux => ?_, fun s haux hmain => ⟨?_, ?_, ?_⟩⟩
  · intro s r flash hrun hstep hbundle hwaiting hexpired hdeferred hmain haux
    obtain ⟨hready, hwait⟩ := complete_facts s r hrun hstep hbundle hexpired hdeferred hmain haux
    exact ⟨s.completeStart, congrArg Host.Outcome.next (nextStart_none flash .clean (hwait.trans hwaiting)), hready⟩
  · simp only [List.forall_mem_cons]
    exact ⟨exec_dbgBrake_pf v, exec_jtagBrake_pf b, exec_sidebandBrake_pf, fun _ h => absurd h List.not_mem_nil⟩
  · exact ⟨s.auxOff, rfl, modReady_low (.inr (.inr (.inl (auxOff_present haux))))⟩
  · intro die temp hdie htemp
    refine ⟨s.thermTrip die temp, withDie_ok die _ hdie, low_main _ ?_⟩
    rw [thermTrip_due hmain htemp]
    exact supply_main ..
  · intro low hlow
    refine ⟨s.inputReset low, rfl, low_main _ ?_⟩
    rw [inputReset_due hmain hlow]
    exact supply_main ..
  · intro volt hinrush hvolt
    refine ⟨s.overvoltage volt, rfl, low_main _ ?_⟩
    rw [overvoltage_running haux hinrush hvolt hmain]
    exact supply_main ..

end

section
/-! PROOFS. Starts (R505 to R512): how one is asked for, how it completes or fails, and when a failed one is tried again. -/

namespace Sys2Proof.Machine

section
variable {s : State} {flash : List (BitVec 4)} {found : Training}

/-! ### Requests (R507, R509) -/

theorem startRequest_served {kind : StartKind} {clear staged : Bool} (hside : s.sideUp = true)
    (h : ¬ (staged = true ∧ (s.fw.staged.isNone = true ∨ s.fw.stagedBad = true))) :
    s.startRequest kind clear staged flash found =
      (s.askStart ⟨kind, clear && kind == .warm, staged, true⟩ flash found).reply 9 0x10 [kind.code] :=
  (if_neg (by simp [hside])).trans (if_neg h)

/-- A request that names STAGED is refused where no bundle is there that may be used. -/
theorem startRequest_refused {kind : StartKind} {clear : Bool} (hside : s.sideUp = true)
    (h : s.fw.staged = none ∨ s.fw.stagedBad = true) :
    s.startRequest kind clear true flash found = s.sideError 1 :=
  (if_neg (by simp [hside])).trans (if_pos ⟨rfl, h.imp_left Option.isNone_iff_eq_none.2⟩)

theorem exec_startRequest {code : BitVec 2} {kind : StartKind} (clear staged : Bool)
    (h : (code, kind) ∈ [(1#2, StartKind.cold), (2#2, StartKind.warm), (3#2, StartKind.reload)]) :
    exec (.startRequest code clear staged flash found) s = .next (s.startRequest kind clear staged flash found) := by
  simp only [List.mem_cons, Prod.mk.injEq, List.not_mem_nil, or_false] at h
  obtain ⟨rfl, rfl⟩ | ⟨rfl, rfl⟩ | ⟨rfl, rfl⟩ := h <;> rfl

theorem exec_startRequest_unknown (clear : Bool) (hside : s.sideUp = true) :
    exec (.startRequest 0 clear false flash found) s = .next (s.sideError 0) :=
  congrArg Host.Outcome.next (if_pos hside)

theorem askStart_waits {req : StartReq} (h : s.mayBegin = false) : s.askStart req flash found =
    { s with fw := { s.fw with waiting := s.fw.waiting ++ [req] } } :=
  if_neg (ne_true_of_eq_false h)

theorem askStart_begins {req : StartReq} (h : s.mayBegin = true) (hwaiting : s.fw.waiting = []) :
    s.askStart req flash found =
      ({ s with fw := { s.fw with waiting := [req] } } : State).beginStart req flash found := by
  rw [State.askStart, hwaiting]
  exact if_pos h

/-! ### Completion (R505, R511, R512) -/

theorem completeStart_early {r : StartRun} (hrun : s.fw.run = some r) (hstep : r.step ≠ 14) : s.completeStart = s := by
  simp only [State.completeStart, hrun]
  exact if_pos hstep

/-- A start at its last step, of no staged bundle, completes: FW_UP is set, its event raised, and what waited for it acts. -/
theorem completeStart_done {r : StartRun} (hrun : s.fw.run = some r) (hstep : r.step = 14) (hbundle : r.bundle = none) :
    let f := s.fw
    let ms := (((s.ns : Int) - r.began) / 1000000).toNat
    s.completeStart = ((({ s with
      fw := { f with format := f.active.hoCur, run := none, stage := 0x1F, fails := 0, depot := false
                     lastMs := BitVec.ofNat 16 (min 0xFFFF ms) }
      hif := { s.hif with fwUp := true, start := BitVec.ofNat 3 r.req.kind.code, depotExit := f.depot } } : State).setPwr
        { s.pwr with pcUp := true, resetEmerg := false }).raise 0x0B04 .info
          [(1, r.req.kind.code), (4, min 0xFFFFFFFF ms), (1, f.fails.toNat)]).openUp := by
  simp only [State.completeStart, hrun, hbundle]
  rw [if_neg (fun h => h hstep)]

/-! ### Failure (R501, R511) -/

section
variable {r : StartRun} (hrun : s.fw.run = some r)
include hrun

/-- Reasons 3 to 6 fail the start at their step with nothing more. -/
theorem startFailed_plain {reason step : Nat} (stack channel lane : Nat) (hmay : mayFail r.req.kind reason = true)
    (h2 : reason ≠ 2) (h7 : reason ≠ 7) :
    s.startFailed reason step stack channel lane = (s.atStep step).failStart reason := by
  simp only [State.startFailed, hrun]
  rw [if_neg (by simp [hmay]), if_neg h2, if_neg h7]

/-- Reason 7, a failed training, raises the event of the lane first (R287). -/
theorem startFailed_training (step stack channel lane : Nat) (hk : r.req.kind ≠ .reload) :
    s.startFailed 7 step stack channel lane =
      ((s.atStep step).raise 0x0404 .error [(1, stack), (1, channel), (1, lane)]).failStart 7 := by
  simp only [State.startFailed, hrun]
  rw [if_neg (by simp [mayFail, hk])]
  rfl

/-- Reason 2, a failed re-check, marks ACTIVE unusable unless the start used another bundle (R501). -/
theorem startFailed_recheck (step stack channel lane : Nat) (hk : r.req.kind ≠ .cold) :
    let t := s.atStep step
    s.startFailed 2 step stack channel lane =
      (({ t with fw := { t.fw with activeBad := t.fw.activeBad || r.bundle.isNone } } : State).raise 0x0B02 .error
        [(1, 3), (4, s.fw.active.svn.toNat)]).failStart 2 := by
  simp only [State.startFailed, hrun]
  rw [if_neg (by simp [mayFail, hk])]
  rfl

theorem startTimeout_due (h : r.began + 120000000000 ≤ (s.ns : Int)) : s.startTimeout = s.failStart 9 := by
  simp only [State.startTimeout, hrun]
  exact if_pos h

theorem startTimeout_early (h : (s.ns : Int) < r.began + 120000000000) : s.startTimeout = s := by
  simp only [State.startTimeout, hrun]
  exact if_neg (Int.not_le.2 h)

theorem readyTimeout_due {t : Nat} (hload : r.loadedAt = some t) (h : t + 5000000000 ≤ s.ns) :
    s.readyTimeout = (s.atStep 12).failStart 10 := by
  simp only [State.readyTimeout, hrun, hload]
  exact if_pos h

theorem readyTimeout_early {t : Nat} (hload : r.loadedAt = some t) (h : s.ns < t + 5000000000) : s.readyTimeout = s := by
  simp only [State.readyTimeout, hrun, hload]
  exact if_neg (Nat.not_le.2 h)

end

/-! ### The retry (R507, R512) -/

theorem startRetry_due {t : Nat} (hretry : s.fw.retryFrom = some t) (hdepot : s.fw.depot = false) (hrun : s.fw.run = none)
    (haux : s.pwr.aux = true) (h : t + 10000000000 ≤ s.ns) :
    s.startRetry flash = s.askStart ⟨.cold, false, false, false⟩ flash .clean := by
  simp only [State.startRetry, hretry]
  exact if_neg (by simp [hdepot, hrun, haux, h])

theorem startRetry_early {t : Nat} (hretry : s.fw.retryFrom = some t) (h : s.ns < t + 10000000000) :
    s.startRetry flash = s := by
  simp only [State.startRetry, hretry]
  exact if_pos (.inr (.inr (.inr h)))

end

end Sys2Proof.Machine

open Sys2Proof Sys2Proof.Machine

/-- Settles O53: a request by whether STAGED may be used and a start may begin, a start by its step, its reason and its
time, and its failure by `failStart_facts`. -/
theorem startsOfTheModule : Obligations.StartsOfTheModule := by
  unfold Obligations.StartsOfTheModule
  refine ⟨?_, fun s req flash found => ⟨askStart_waits, askStart_begins⟩, ?_, ?_⟩
  · intro s hside clear flash found f
    refine ⟨fun code kind hcode => ?_, exec_startRequest_unknown clear hside⟩
    have run (staged : Bool) := exec_startRequest (s := s) (flash := flash) (found := found) clear staged hcode
    refine ⟨?_, fun h => ?_, fun b hstaged hgood => ?_⟩
    · rw [run, startRequest_served hside fun h => Bool.false_ne_true h.1]
    · rw [run, startRequest_refused hside h]
    · have husable : ¬ (true = true ∧ (s.fw.staged.isNone = true ∨ s.fw.stagedBad = true)) := by
        rw [show s.fw.staged = some b from hstaged, show s.fw.stagedBad = false from hgood]
        simp
      rw [run, startRequest_served hside husable]
  · intro s r hrun flash next
    have then' {t u : State} (h : t = u) : Host.Outcome.next (next t) = (Host.Outcome.next (next u) : Out) := by rw [h]
    refine ⟨fun hstep hbundle => then' (completeStart_done hrun hstep hbundle),
      fun hstep => then' (completeStart_early hrun hstep), ?_, fun h => then' (startTimeout_due hrun h),
      fun h => then' (startTimeout_early hrun h), fun t hload => ⟨fun h => then' (readyTimeout_due hrun hload h),
      fun h => then' (readyTimeout_early hrun hload h)⟩, failStart_facts s r hrun⟩
    intro reason step stack channel lane k at' failed
    refine ⟨fun h => then' (startFailed_plain hrun _ _ _ ?_ ?_ ?_), ?_, ?_⟩
    · obtain rfl | ⟨hk, rfl | rfl | rfl⟩ := h
      · rfl
      all_goals exact beq_iff_eq.2 hk
    · obtain rfl | ⟨-, rfl | rfl | rfl⟩ := h <;> decide
    · obtain rfl | ⟨-, rfl | rfl | rfl⟩ := h <;> decide
    · rintro rfl hk
      exact then' (startFailed_training hrun _ _ _ _ hk)
    · rintro rfl hk
      exact then' (startFailed_recheck hrun _ _ _ _ hk)
  · intro s t flash hretry hdepot hrun haux
    exact ⟨fun h => congrArg Host.Outcome.next (startRetry_due hretry hdepot hrun haux h),
      fun h => congrArg Host.Outcome.next (startRetry_early hretry h)⟩

end

section
/-! PROOFS. Bundles and the live update (R500 to R505, R513 to R515): what verifies, fetches, pushes and hands over. -/

namespace Sys2Proof.Machine

section
variable {s : State}

/-! ### Bundles (R500, R502, R503) -/

theorem stageBundle_verified {b : Bundle} (source : Nat) (h : s.fw.reject b = 0) : s.stageBundle b source =
    ((({ s with fw := { s.fw with staged := some b, stagedBad := false,
                                  updState := if s.fw.act.isSome then s.fw.updState else 1, updReason := 0 } } : State).raise
      0x0B01 .info [(4, b.svn.toNat), (8, b.version.toNat), (1, source)]), true) :=
  if_pos h

theorem stageBundle_rejected {b : Bundle} (source : Nat) (h : s.fw.reject b ≠ 0) : s.stageBundle b source =
    ((({ s with fw := { s.fw with staged := none, stagedBad := false, updState := 7,
                                  updReason := BitVec.ofNat 8 (s.fw.reject b) } } : State).raise
      0x0B02 .error [(1, s.fw.reject b), (4, b.svn.toNat)]), false) :=
  if_neg h

theorem stageBundle_staged {b : Bundle} (source : Nat) (h : s.fw.reject b = 0) :
    (s.stageBundle b source).1.fw.staged = some b := by
  rw [stageBundle_verified source h, State.raise_fw]

/-- The fetch of a cold start: its start is at step 2 and no try of it has just failed. -/
theorem fetching_cold {f : FwState} {r : StartRun} (hrun : f.run = some r) (hstep : r.step = 2)
    (hkind : r.req.kind = .cold) (hfailed : r.failedAt = none) : f.fetching = true := by
  simp [FwState.fetching, hrun, hstep, hkind, hfailed]

section
variable (hside : s.sideUp = true) (hfetch : s.fw.fetching = true)
include hside hfetch

section
variable {r : StartRun} (hrun : s.fw.run = some r) (found : Training)
include hrun

theorem fetchDone_again (h : r.tries < 2) : s.fetchDone none found =
    { s with fw := { s.fw with run := some { r with tries := r.tries + 1, failedAt := some s.ns } } } := by
  rw [State.fetchDone, if_neg (by simp [hside]), if_pos hfetch]
  simp only [hrun]
  exact if_neg (by omega)

/-- The third try that fails ends the start with reason 1. -/
theorem fetchDone_exhausted (h : 2 ≤ r.tries) : s.fetchDone none found = s.failStart 1 := by
  rw [State.fetchDone, if_neg (by simp [hside]), if_pos hfetch]
  simp only [hrun]
  exact if_pos (by omega)

end

section
variable {b : Bundle} (hact : s.fw.act = none) (found : Training)
include hact

theorem fetchDone_rejected (h : s.fw.reject b ≠ 0) :
    s.fetchDone (some b) found = (s.stageBundle b 0).1.failStart 2 := by
  rw [State.fetchDone, if_neg (by simp [hside]), if_pos hfetch]
  simp only [hact, stageBundle_rejected 0 h, Option.isSome_none, Bool.false_eq_true, if_false]

theorem fetchDone_verified (h : s.fw.reject b = 0) :
    s.fetchDone (some b) found = ((s.stageBundle b 0).1.useBundle b).coldOn found := by
  have honStaged (go : State → State) : (s.stageBundle b 0).1.onStaged go = go ((s.stageBundle b 0).1.useBundle b) := by
    simp only [State.onStaged, stageBundle_staged 0 h]
  rw [← honStaged fun t => t.coldOn found, State.fetchDone, if_neg (by simp [hside]), if_pos hfetch]
  simp only [hact, stageBundle_verified 0 h, Option.isSome_none, Bool.false_eq_true, if_false, if_true]

end

end

theorem fetchRetry_due {r : StartRun} {t : Nat} (hrun : s.fw.run = some r) (hfailed : r.failedAt = some t)
    (h : t + 2000000000 ≤ s.ns) :
    s.fetchRetry = { s with fw := { s.fw with run := some { r with failedAt := none } } } := by
  simp only [State.fetchRetry, hrun, hfailed]
  rw [if_pos h]

theorem fetchRetry_early {r : StartRun} {t : Nat} (hrun : s.fw.run = some r) (hfailed : r.failedAt = some t)
    (h : s.ns < t + 2000000000) : s.fetchRetry = s := by
  simp only [State.fetchRetry, hrun, hfailed]
  rw [if_neg (Nat.not_le.2 h)]

theorem push_free {b : Bundle} (hside : s.sideUp = true) (hrun : s.fw.run = none) (hact : s.fw.act = none) :
    s.push b = (s.stageBundle b 1).1 :=
  (if_neg (by simp [hside])).trans (if_neg (by simp [hrun, hact]))

theorem push_busy {b : Bundle} {a : Activation} (hside : s.sideUp = true) (hact : s.fw.act = some a)
    (hbegan : a.began.isSome = true) : s.push b = s.sideError 2 :=
  (if_neg (by simp [hside])).trans (if_pos (by simp [hact, hbegan]))

/-! ### The request of an activation (R513) -/

theorem activate_empty (hside : s.sideUp = true) (hstaged : s.fw.staged = none) : s.activate = s.sideError 3 := by
  rw [State.activate, if_neg (by simp [hside])]
  simp only [hstaged]

section
variable {b : Bundle} (hside : s.sideUp = true) (hstaged : s.fw.staged = some b) (hbad : s.fw.stagedBad = false)
    (hact : s.fw.act = none) (hdepot : s.fw.depot = false) (hmain : s.pwr.main = true)
include hside hstaged hbad hact hdepot hmain

/-- The bundle accepts neither handover format of the running images. -/
theorem activate_format (hcur : s.fw.format ≠ b.hoCur) (hprev : s.fw.format ≠ b.hoPrev) : s.activate =
    ({ s with fw := { s.fw with updState := 7, updReason := 6 } } : State).raise 0x0B02 .error [(1, 6), (4, b.svn.toNat)] := by
  rw [State.activate, if_neg (by simp [hside])]
  simp only [hstaged]
  rw [if_neg (by simp [hbad, hact, hdepot, hmain]), if_pos ⟨hcur, hprev⟩]

theorem activate_begins (h : s.fw.format = b.hoCur ∨ s.fw.format = b.hoPrev) : s.activate =
    ({ s with fw := { s.fw with act := some ⟨s.ns, none, none, 0, none, 0⟩ } } : State).activationBegin := by
  rw [State.activate, if_neg (by simp [hside])]
  simp only [hstaged]
  rw [if_neg (by simp [hbad, hact, hdepot, hmain]), if_neg fun hn => h.elim hn.1 hn.2]
  exact (if_pos hside).symm

end

/-! ### What defers an activation, its beginning and its end (R513) -/

theorem defers_calm (hemerg : s.pwr.emerg = false) (hcalm : s.pwr.calmFrom + 1000000000 ≤ (s.ns : Int))
    (hhold : s.rcv.state = 0 ∨ s.rcv.jobId = 0) (hrun : s.fw.run = none) : s.defers = none := by
  rw [State.defers, if_neg, if_neg, if_neg]
  · simp [hrun]
  · exact fun hn => hhold.elim hn.1 hn.2
  · simp [hemerg, hcalm]

/-- The cause is the first condition that fails: 0 emergency, 1 hold, 2 a start. -/
theorem defers_cause {c : Nat} (h : c = 0 ∧ (s.pwr.emerg = true ∨ (s.ns : Int) < s.pwr.calmFrom + 1000000000) ∨
    s.pwr.emerg = false ∧ s.pwr.calmFrom + 1000000000 ≤ (s.ns : Int) ∧
      (c = 1 ∧ s.rcv.state ≠ 0 ∧ s.rcv.jobId ≠ 0 ∨ c = 2 ∧ (s.rcv.state = 0 ∨ s.rcv.jobId = 0) ∧ s.fw.run ≠ none)) :
    s.defers = some c := by
  obtain ⟨rfl, h⟩ | ⟨hemerg, hcalm, ⟨rfl, hstate, hjob⟩ | ⟨rfl, hhold, hrun⟩⟩ := h
  · exact if_pos h
  · rw [State.defers, if_neg (by simp [hemerg, hcalm]), if_pos ⟨hstate, hjob⟩]
  · rw [State.defers, if_neg (by simp [hemerg, hcalm]), if_neg (fun hn => hhold.elim hn.1 hn.2),
      if_pos (Option.isSome_iff_ne_none.2 hrun)]

section
variable {a : Activation} {b : Bundle} (hact : s.fw.act = some a) (hbegan : a.began = none)
include hact hbegan

section
variable (hstaged : s.fw.staged = some b)
include hstaged

theorem tryActivate_calm (h : s.defers = none) : s.tryActivate =
    { s with fw := { s.fw with act := some { a with began := some s.ns, doneTo := 0, inHand := none }, updState := 3
                               updComp := 1
                               deferS := BitVec.ofNat 16 (min 0xFFFF (((s.ns : Int) - a.asked) / 1000000000).toNat) } } := by
  simp only [State.tryActivate, hact, hstaged, hbegan, h, Option.isSome_none, Bool.false_eq_true, if_false]

theorem tryActivate_deferred {c : Nat} (hdeferred : a.deferred = none) (h : s.defers = some c) : s.tryActivate =
    ({ s with fw := { s.fw with act := some { a with deferred := some c }, updState := 2
                                updReason := BitVec.ofNat 8 c } } : State).raise 0x0B08 .info
      [(1, c), (4, b.svn.toNat)] := by
  simp only [State.tryActivate, hact, hstaged, hbegan, hdeferred, h, Option.isSome_none, Bool.false_eq_true, if_false]

end

omit hbegan in
theorem activationCancel_early (h : (s.ns : Int) < a.asked + 60000000000) : s.activationCancel = s := by
  simp only [State.activationCancel, hact]
  exact if_pos (.inr (.inr h))

theorem activationCancel_due {c : Nat} (hside : s.sideUp = true) (h : a.asked + 60000000000 ≤ (s.ns : Int))
    (hnone : s.defers = none) (hdeferred : a.deferred = some c) : s.activationCancel = s.cancelAct c := by
  simp only [State.activationCancel, hact]
  rw [if_neg (by simp [hbegan, hside, h]), hnone, hdeferred]
  rfl

end

theorem cancelAct_some {a : Activation} (cause : Nat) (hact : s.fw.act = some a) : s.cancelAct cause =
    ({ s with fw := { s.fw with act := none, updState := 5, updComp := 0
                                deferS := BitVec.ofNat 16 (min 0xFFFF (((s.ns : Int) - a.asked) / 1000000000).toNat) } } :
      State).raise 0x0B09 .warning [(1, cause), (2, min 0xFFFF (((s.ns : Int) - a.asked) / 1000000000).toNat)] := by
  simp only [State.cancelAct, hact]

/-! ### The handover of the components (R514, R515) -/

section
variable {a : Activation} (hact : s.fw.act = some a)
include hact

section
variable (hbegan : a.began ≠ none) (hrun : s.fw.run = none)
include hbegan hrun

section
variable (hhand : a.inHand = none) (ok : Bool)
include hhand

/-- Cluster control and the security core stop nothing while their image is loaded. -/
theorem handover_later (h : a.doneTo = 2 ∨ a.doneTo = 3) : s.handover ok =
    { s with fw := { s.fw with act := some { a with inHand := some s.ns }, updComp := BitVec.ofNat 4 (a.doneTo + 1) } } := by
  simp only [State.handover, hact]
  rw [if_neg (by simp [hbegan, hrun])]
  simp only [hhand]
  obtain h | h := h <;> simp [h]

theorem handover_dispatcher (h : a.doneTo = 1) : s.handover ok =
    { s with fw := { s.fw with act := some { a with inHand := some s.ns }, updComp := 2 }
             hif := { s.hif with fwUp := false } } := by
  simp only [State.handover, hact]
  rw [if_neg (by simp [hbegan, hrun])]
  simp [hhand, h]

/-- The update turns back to its request where the module is no longer calm at the boundary of the power core. -/
theorem handover_emergency (h : a.doneTo = 0) (hemerg : s.pwr.emerg = true) : s.handover ok =
    ({ s with fw := { s.fw with act := some { a with began := none }, updState := 2, updComp := 0 } } : State).tryActivate := by
  simp only [State.handover, hact]
  rw [if_neg (by simp [hbegan, hrun])]
  simp [hhand, h, hemerg]

theorem handover_power (h : a.doneTo = 0) (hemerg : s.pwr.emerg = false)
    (hcalm : ∀ t, a.began = some t → s.pwr.calmFrom ≤ (t : Int)) : s.handover ok =
    { s with fw := { s.fw with act := some { a with inHand := some s.ns }, updComp := 1 }
             pwr := { s.pwr with pcUp := false } } := by
  obtain ⟨t, ht⟩ := Option.ne_none_iff_exists'.1 hbegan
  simp only [State.handover, hact]
  rw [if_neg (by simp [ht, hrun])]
  simp [hhand, h, hemerg, ht, Int.not_lt.2 (hcalm t ht)]

end

section
variable {t : Nat} (hhand : a.inHand = some t)
include hhand

/-- A record that fails its check takes the update back with cause 0. -/
theorem handover_fails : s.handover false = s.revert (a.doneTo + 1) 0 := by
  simp only [State.handover, hact]
  rw [if_neg (by simp [hbegan, hrun])]
  simp only [hhand]
  exact if_pos Bool.false_ne_true

theorem handover_cluster (h : a.doneTo = 2) : s.handover true =
    { s with fw := { s.fw with act := some { a with doneTo := 3, inHand := none }, updComp := 4 } } := by
  simp only [State.handover, hact]
  rw [if_neg (by simp [hbegan, hrun])]
  simp [hhand, h]

/-- The security core is the last: the bundle is installed and the floor rises. -/
theorem handover_security {b : Bundle} (hstaged : s.fw.staged = some b) (h : a.doneTo = 3) : s.handover true =
    (((({ s with fw := { s.fw with act := some { a with doneTo := 4, inHand := none }, updComp := 0 } } : State).install b
      |> fun u => ({ u with fw := { u.fw with act := none, updState := 4, updComp := 0 } } : State)).raise 0x0B0A .info
        [(4, b.svn.toNat), (2, min 0xFFFF (a.dspNs / 1000000))]).raiseFloor b) := by
  simp only [State.handover, hact]
  rw [if_neg (by simp [hbegan, hrun])]
  simp [hhand, h, State.updateDone, hstaged]

end

end

theorem resumeTimeout_due {t : Nat} (hhand : a.inHand = some t) (h : t + 2000000000 ≤ s.ns) :
    s.resumeTimeout = s.revert (a.doneTo + 1) 1 := by
  simp only [State.resumeTimeout, hact, hhand]
  rw [if_pos h]

theorem resumeTimeout_early {t : Nat} (hhand : a.inHand = some t) (h : s.ns < t + 2000000000) :
    s.resumeTimeout = s := by
  simp only [State.resumeTimeout, hact, hhand]
  rw [if_neg (Nat.not_le.2 h)]

end

end

end Sys2Proof.Machine

open Sys2Proof Sys2Proof.Machine

/-- Settles O54: each check, fetch, push and step of an activation has one lemma per outcome, and the floor rises by
`raiseFloor_rises`. That a bundle whose handover formats do not fit stays in STAGED (reject reason 6) is the model's choice
(assumption log 93), and so is that a component is handed over and resumes in two rows (log 103). -/
theorem firmwareUpdates : Obligations.FirmwareUpdates := by
  unfold Obligations.FirmwareUpdates
  refine ⟨fun s b source => ⟨fun h => stageBundle_verified source h, fun h => stageBundle_rejected source h⟩,
    fun s hside => ⟨fun r hrun hstep hkind hfailed hact found => ?_, fun r t hrun hfailed => ?_, fun b => ?_,
      fun h => congrArg Host.Outcome.next (activate_empty hside h), fun b hstaged hbad hact hdepot hmain => ?_,
      fun a b hact hstaged hbegan => ?_, fun a hact hbegan hrun => ?_⟩,
    fun s b => ⟨_, rfl, (raiseFloor_rises s b).f, (raiseFloor_rises s b).k⟩⟩
  · have hfetch := fetching_cold hrun hstep hkind hfailed
    have hnext {x : Option Bundle} {t : State} (h : s.fetchDone x found = t) :
        exec (.bundleFetchDone x found) s = .next (t.nextStart [] .clean) :=
      congrArg (fun u : State => Host.Outcome.next (u.nextStart [] .clean)) h
    exact ⟨fun h => hnext (fetchDone_again hside hfetch hrun found h),
      fun h => hnext (fetchDone_exhausted hside hfetch hrun found h),
      fun b h => hnext (fetchDone_rejected hside hfetch hact found h),
      fun b h => hnext (fetchDone_verified hside hfetch hact found h)⟩
  · exact ⟨fun h => congrArg Host.Outcome.next ((if_pos hside).trans (fetchRetry_due hrun hfailed h)),
      fun h => congrArg Host.Outcome.next ((if_pos hside).trans (fetchRetry_early hrun hfailed h))⟩
  · exact ⟨fun hrun hact => congrArg Host.Outcome.next (push_free hside hrun hact),
      fun a hact hbegan => congrArg Host.Outcome.next (push_busy hside hact hbegan)⟩
  · exact ⟨fun hcur hprev => congrArg Host.Outcome.next (activate_format hside hstaged hbad hact hdepot hmain hcur hprev),
      fun h => congrArg Host.Outcome.next (activate_begins hside hstaged hbad hact hdepot hmain h)⟩
  · exact ⟨fun hemerg hcalm hhold hrun => congrArg Host.Outcome.next ((if_pos hside).trans
        (tryActivate_calm hact hbegan hstaged (defers_calm hemerg hcalm hhold hrun))),
      fun hdeferred c h => congrArg Host.Outcome.next ((if_pos hside).trans
        (tryActivate_deferred hact hbegan hstaged hdeferred (defers_cause h))),
      fun h => congrArg Host.Outcome.next (activationCancel_early hact h),
      fun h hnone c hc => congrArg Host.Outcome.next
        ((activationCancel_due hact hbegan hside h hnone hc).trans (cancelAct_some c hact))⟩
  · have hserved (t : State) {ok : Bool} (h : s.handover ok = t) : exec (.componentHandover ok) s = .next t :=
      congrArg Host.Outcome.next ((if_pos hside).trans h)
    have htimeout (t : State) (h : s.resumeTimeout = t) : exec .handoverResumeTimeout s = .next t :=
      congrArg Host.Outcome.next ((if_pos hside).trans h)
    exact ⟨fun hhand h ok => hserved _ (handover_later hact hbegan hrun hhand ok h),
      fun hhand h ok => hserved _ (handover_dispatcher hact hbegan hrun hhand ok h),
      fun hhand h hemerg ok => hserved _ (handover_emergency hact hbegan hrun hhand ok h hemerg),
      fun hhand h hemerg hcalm ok => hserved _ (handover_power hact hbegan hrun hhand ok h hemerg hcalm),
      fun t hhand => ⟨hserved _ (handover_fails hact hbegan hrun hhand),
        fun h => htimeout _ (resumeTimeout_due hact hhand h), fun h => htimeout _ (resumeTimeout_early hact hhand h),
        fun h => hserved _ (handover_cluster hact hbegan hrun hhand h),
        fun b hstaged h => hserved _ (handover_security hact hbegan hrun hhand hstaged h)⟩⟩

end

section
/-! PROOFS. Halted cores (R497, R498) and the SPDM requests (R517). -/

namespace Sys2Proof.Machine

/-- A protection fault is said (R497): its core, its cluster control where it has one, and its address. -/
abbrev State.saidFault (s : State) (core where' : Nat) (addr : BitVec 64) : State :=
  s.raise 0x0B0C .error [(1, core), (1, where'), (8, addr.toNat)]

/-- The power core is halted, and the time of this halt is kept. -/
abbrev State.powerHalted (s : State) : State :=
  { s with fw := { s.fw with haltPower := true, powerHalts := s.ns :: s.fw.powerHalts }, pwr := { s.pwr with pcUp := false } }

section
variable {s : State} {addr : BitVec 64}

/-! ### Protection faults (R497, R498) -/

theorem protectionFault_security (k : Nat) (haux : s.pwr.aux = true) (hrun : s.fw.haltSec = false) :
    s.protectionFault 0 k addr =
      ({ s with fw := { s.fw with haltSec := true } } : State).saidFault 0 0xFF addr :=
  if_neg (by simp [haux, hrun])

theorem protectionFault_dispatcher (k : Nat) (hmain : s.pwr.main = true) (hrun : s.fw.haltDisp = false) :
    s.protectionFault 2 k addr =
      ({ s with fw := { s.fw with haltDisp := true }, hif := { s.hif with fwUp := false } } : State).saidFault 2 0xFF addr :=
  if_neg (by simp [hmain, hrun])

section
variable (k : Nat) (hmain : s.pwr.main = true) (hrun : s.fw.haltPower = false)
include hmain hrun

/-- A power core whose earlier halts are all older than ten minutes halts alone. -/
theorem protectionFault_power (h : ∀ t ∈ s.fw.powerHalts, t + 600000000000 < s.ns) :
    s.protectionFault 1 k addr = s.powerHalted.saidFault 1 0xFF addr := by
  refine (if_neg (by simp [hmain, hrun])).trans ((if_pos rfl).trans (if_neg fun hn => ?_))
  obtain ⟨t, ht, hle⟩ := List.any_eq_true.1 hn.1
  exact Nat.not_le.2 (h t ht) (of_decide_eq_true hle)

/-- The second halt of the power core within ten minutes holds the job. -/
theorem protectionFault_power_again (hfw : s.hif.fwUp = true) (h : ∃ t ∈ s.fw.powerHalts, s.ns ≤ t + 600000000000) :
    s.protectionFault 1 k addr = (s.powerHalted.saidFault 1 0xFF addr).ownFault := by
  obtain ⟨t, ht, hle⟩ := h
  exact (if_neg (by simp [hmain, hrun])).trans
    ((if_pos rfl).trans (if_pos ⟨List.any_eq_true.2 ⟨t, ht, decide_eq_true hle⟩, hfw⟩))

end

theorem protectionFault_cluster {k : Nat} (hmain : s.pwr.main = true) (hrun : k ∉ s.fw.haltBox) (htasks : s.dsp.tasks = []) :
    s.protectionFault 3 k addr =
      ({ s with fw := { s.fw with haltBox := setIns s.fw.haltBox k } } : State).saidFault 3 k addr := by
  refine (if_neg (by simp [hmain, hrun])).trans ?_
  simp only [State.raise_dsp, htasks, List.filter_nil, List.foldl_nil]
  rfl

/-! ### Reloads (R498) -/

section
variable (k : Nat) (found : Training) (hside : s.sideUp = true) (hmain : s.pwr.main = true)
include hside hmain

theorem coreReload_power (hhalt : s.fw.haltPower = true) (hemerg : s.pwr.emerg = false) :
    s.coreReload 1 k found = { s with fw := { s.fw with haltPower := false }, pwr := { s.pwr with pcUp := true } } :=
  (if_neg (by simp [hside, hmain])).trans (if_pos (by simp [hhalt, hemerg]))

theorem coreReload_emergency (hemerg : s.pwr.emerg = true) : s.coreReload 1 k found = s :=
  (if_neg (by simp [hside, hmain])).trans (if_neg (by simp [hemerg]))

theorem coreReload_dispatcher (hhalt : s.fw.haltDisp = true) :
    s.coreReload 2 k found = s.askStart ⟨.reload, false, false, false⟩ [] found :=
  (if_neg (by simp [hside, hmain])).trans (if_pos hhalt)

theorem coreReload_cluster :
    s.coreReload 3 k found = { s with fw := { s.fw with haltBox := setDel s.fw.haltBox k } } :=
  if_neg (by simp [hside, hmain])

end

/-! ### SPDM (R517) -/

theorem spdm_served (hside : s.sideUp = true) (code : Nat) (nums : List Nat) (data : List Byte) :
    s.spdm code nums data = s.reply 14 code nums data :=
  if_pos hside

theorem spdm_silent (hside : s.sideUp = false) (code : Nat) (nums : List Nat) (data : List Byte) :
    s.spdm code nums data = s :=
  if_neg (ne_true_of_eq_false hside)

theorem exec_getCertificate_silent (hside : s.sideUp = false) (slot : BitVec 8) (off len : BitVec 16) :
    exec (.getCertificate slot off len) s = .next s := by
  refine congrArg Host.Outcome.next ?_
  by_cases hslot : slot.toNat < 2
  · exact (if_pos hslot).trans (spdm_silent hside _ _ _)
  · exact (if_neg hslot).trans (if_neg (ne_true_of_eq_false hside))

/-- The bytes of the signature of an exchange, and the state that has taken their free value. -/
theorem signature_eq : s.signature = ((List.range 4627).map (Config.signByte (Config.freeNat s.free)),
    ({ s with free := s.free + 1 } : State)) := by
  simp only [State.signature, State.freshNat, signed]

section
variable (nonce : List Byte) {slot index : BitVec 8} (hside : s.sideUp = true)
include hside

/-- An answer that is signed takes one free value. -/
theorem spdm_signed (code : Nat) (nums : List Nat) (data : List Byte) : ({ s with free := s.free + 1 } : State).spdm code nums data =
    ({ s with free := s.free + 1 } : State).reply 14 code nums data :=
  spdm_served (s := { s with free := s.free + 1 }) hside code nums data

theorem challenge_known (hslot : slot.toNat < 2) : execChallenge slot nonce s =
    .next (({ s with free := s.free + 1 } : State).reply 14 0x03 [slot.toNat] (nonce ++ signed (1 + slot.toNat) 64 ++
      (List.range 4627).map (Config.signByte (Config.freeNat s.free)))) := by
  simp only [execChallenge, signature_eq]
  rw [if_neg (by simp [hside]), if_pos hslot, spdm_signed hside]

theorem challenge_unknown (hslot : 2 ≤ slot.toNat) :
    execChallenge slot nonce s = .next (s.reply 14 0x7F [slot.toNat]) := by
  simp only [execChallenge, signature_eq]
  rw [if_neg (by simp [hside]), if_neg (Nat.not_lt.2 hslot)]

theorem getMeasurements_one (hlow : 1 ≤ index.toNat) (hhigh : index.toNat ≤ 8) :
    execGetMeasurements index nonce s = .next (({ s with free := s.free + 1 } : State).reply 14 0x60 [index.toNat]
      (s.measurement index.toNat ++ nonce ++ (List.range 4627).map (Config.signByte (Config.freeNat s.free)))) := by
  simp only [execGetMeasurements, signature_eq]
  rw [if_neg (by simp [hside]), if_neg (by omega), if_pos ⟨hlow, hhigh⟩, spdm_signed hside]

theorem getMeasurements_all (h : index = 0xFF) : execGetMeasurements index nonce s =
    .next (({ s with free := s.free + 1 } : State).reply 14 0x60 [8] ((List.range 8).flatMap (fun k => s.measurement (k + 1)) ++
      nonce ++ (List.range 4627).map (Config.signByte (Config.freeNat s.free)))) := by
  simp only [execGetMeasurements, signature_eq]
  rw [if_neg (by simp [hside]), if_pos (by rw [h]; rfl), spdm_signed hside]

theorem getMeasurements_unknown (h : index = 0 ∨ 8 < index.toNat ∧ index ≠ 0xFF) :
    execGetMeasurements index nonce s = .next (s.reply 14 0x7F [index.toNat]) := by
  have hall : index.toNat ≠ 0xFF := by
    obtain rfl | ⟨-, hne⟩ := h
    · decide
    · exact fun hn => hne (BitVec.eq_of_toNat_eq hn)
  have hone : ¬ (1 ≤ index.toNat ∧ index.toNat ≤ 8) := by
    obtain rfl | ⟨hgt, -⟩ := h
    · decide
    · omega
  simp only [execGetMeasurements, signature_eq]
  rw [if_neg (by simp [hside]), if_neg hall, if_neg hone]

end

end

end Sys2Proof.Machine

open Sys2Proof Sys2Proof.Machine

/-- Settles O55: a fault, a reload and an SPDM request have one lemma per outcome. That the digests, certificates and
signatures are free values is assumption log 7, and that the responder is the side-band's is log 12; the answers for an
unknown slot or index, the algorithm numbers and the error a security core's restart answers are the model's choices, and so
is that a fault halts one core, which a reload restarts (log 102). -/
theorem coresAndSpdm : Obligations.CoresAndSpdm := by
  unfold Obligations.CoresAndSpdm
  refine ⟨fun s k addr => ⟨?_, ?_, ?_, ?_, ?_, fun hside hmain => ⟨?_, ?_, ?_, ?_⟩, ?_⟩,
    fun s hside => ⟨?_, ?_, ?_, ?_, fun slot off len nonce => ⟨?_, ?_⟩, fun i nonce => ⟨?_, ?_, ?_⟩, rfl⟩,
    fun s hside slot off len nonce i => ⟨?_, ?_, ?_, ?_, ?_, ?_, ?_⟩⟩
  · exact fun haux hrun => congrArg Host.Outcome.next (protectionFault_security _ haux hrun)
  · exact fun hmain hrun h => congrArg Host.Outcome.next (protectionFault_power _ hmain hrun h)
  · exact fun hmain hrun hfw h => congrArg Host.Outcome.next (protectionFault_power_again _ hmain hrun hfw h)
  · exact fun hmain hrun => congrArg Host.Outcome.next (protectionFault_dispatcher _ hmain hrun)
  · exact fun hmain hk hrun htasks => (if_neg (by simp [hk])).trans
      (congrArg Host.Outcome.next (protectionFault_cluster hmain hrun htasks))
  · exact fun hhalt hemerg => congrArg Host.Outcome.next (coreReload_power _ _ hside hmain hhalt hemerg)
  · exact fun hemerg => congrArg Host.Outcome.next (coreReload_emergency _ _ hside hmain hemerg)
  · exact fun hhalt => congrArg Host.Outcome.next (coreReload_dispatcher _ _ hside hmain hhalt)
  · exact fun hk => (if_neg (by simp [hk])).trans (congrArg Host.Outcome.next (coreReload_cluster _ _ hside hmain))
  · exact fun haux hhalt => congrArg Host.Outcome.next (if_pos ⟨haux, hhalt⟩)
  · exact congrArg Host.Outcome.next (spdm_served hside _ _ _)
  · exact congrArg Host.Outcome.next (spdm_served hside _ _ _)
  · exact congrArg Host.Outcome.next (spdm_served hside _ _ _)
  · exact congrArg Host.Outcome.next (spdm_served hside _ _ _)
  · exact fun hslot => ⟨congrArg Host.Outcome.next ((if_pos hslot).trans (spdm_served hside _ _ _)),
      challenge_known nonce hside hslot⟩
  · exact fun hslot => ⟨congrArg Host.Outcome.next ((if_neg (Nat.not_lt.2 hslot)).trans (if_pos hside)),
      challenge_unknown nonce hside hslot⟩
  · exact fun hlow hhigh => getMeasurements_one nonce hside hlow hhigh
  · exact fun h => getMeasurements_all nonce hside h
  · exact fun h => getMeasurements_unknown nonce hside h
  · exact congrArg Host.Outcome.next (spdm_silent hside _ _ _)
  · exact congrArg Host.Outcome.next (spdm_silent hside _ _ _)
  · exact congrArg Host.Outcome.next (spdm_silent hside _ _ _)
  · exact congrArg Host.Outcome.next (spdm_silent hside _ _ _)
  · exact exec_getCertificate_silent hside slot off len
  · exact congrArg Host.Outcome.next (if_pos (by simp [hside]))
  · exact congrArg Host.Outcome.next (if_pos (by simp [hside]))

end

section
/-! PROOFS. Power inputs, supply monitors and temperatures (R468 to R479): what each does at its threshold and its time. -/

namespace Sys2Proof.Machine

theorem setPwr_die (s : State) (p : PwrState) (n : Nat) : (s.setPwr p).pwr.die n = p.die n := by
  simp only [State.setPwr]
  split <;> rfl

section
variable {s : State}

/-! ### The 12 V input, the dwell and the charge (R468, R471) -/

theorem auxOn_absent (slot : BitVec 3) (h : s.pwr.aux = false) : s.auxOn slot =
    { s with pwr := { s.pwr with aux := true, bandFrom := s.ns }, fw := { s.fw with slotId := slot } } :=
  if_neg (ne_true_of_eq_false h)

theorem auxOn_present (slot : BitVec 3) (h : s.pwr.aux = true) : s.auxOn slot = s := if_pos h

/-- What the loss of the 12 V input leaves: module flash, SLOT_ID's module and the inputs of the power block. -/
theorem auxOff_keeps (h : s.pwr.aux = true) : s.auxOff.pwr.main = false ∧ s.auxOff.pwr.grant = none ∧
    s.auxOff.pwr.capLocal = s.pwr.capLocal ∧ s.auxOff.pwr.fallback = s.pwr.fallback ∧ s.auxOff.pwr.resets = s.pwr.resets ∧
    s.auxOff.mem.hbm = [] ∧ s.auxOff.fw.floor = s.fw.floor ∧ s.auxOff.fw.minKey = s.fw.minKey ∧ s.auxOff.fw.staged = none ∧
    s.auxOff.fw.activeBad = true ∧ s.auxOff.modId = s.modId ∧ s.auxOff.rcv.coord = s.rcv.coord := by
  rw [State.auxOff, if_neg (by simp [h])]
  exact ⟨rfl, rfl, rfl, rfl, rfl, rfl, rfl, rfl, rfl, rfl, rfl, rfl⟩

theorem dwell_due (haux : s.pwr.aux = true) (hopen : s.pwr.inrush = .opened) (h : s.pwr.bandFrom + 100000000 ≤ s.ns) :
    s.dwell = { s with pwr := { s.pwr with inrush := .charging } } := by
  rw [State.dwell, if_pos ⟨haux, hopen, h⟩]

theorem dwell_early (h : s.ns < s.pwr.bandFrom + 100000000) : s.dwell = s := by
  rw [State.dwell, if_neg fun hn => Nat.not_le.2 h hn.2.2]

/-- The inrush switch closes. -/
abbrev State.closed (s : State) : State := { s with pwr := { s.pwr with inrush := .closed } }

section
variable (flash : List (BitVec 4)) (found : Training) (hcharging : s.pwr.inrush = .charging)
include hcharging

theorem charged_starts (hrun : s.fw.run = none) (hmain : s.pwr.main = false) (hdepot : s.fw.depot = false)
    (hoff : s.pwr.off ≠ .trip) (hretry : s.fw.retryFrom = none) :
    s.charged flash found = s.closed.askStart ⟨.cold, false, false, false⟩ flash found := by
  rw [State.charged, if_neg (not_not_intro hcharging)]
  simp only [hrun]
  exact if_neg (by simp [hmain, hdepot, hoff, hretry])

theorem charged_goesOn {r : StartRun} (hrun : s.fw.run = some r) (hstep : r.step = 4) :
    s.charged flash found = s.closed.coldOn found := by
  rw [State.charged, if_neg (not_not_intro hcharging)]
  simp only [hrun]
  exact if_pos hstep

end

/-! ### Resets (R474, R476) -/

theorem overvoltage_below {volt : BitVec 16} (h : volt.toNat ≤ 5900) : s.overvoltage volt = s := by
  rw [State.overvoltage, if_pos (.inr (.inr h))]

theorem inputReset_above {low : BitVec 16} (h : 3800 ≤ low.toNat) : s.inputReset low = s := by
  rw [State.inputReset, if_neg fun hn => Nat.not_lt.2 h hn.2]

theorem railReset_due {die : BitVec 3} {low : BitVec 10} (hmain : s.pwr.main = true) (h : low.toNat < 420) :
    s.railReset die low =
      (s.supplyReset .rail 1 low.toNat 4 0x0A05 [(1, die.toNat), (2, low.toNat)]).nextStart [] .clean := by
  rw [State.railReset, if_pos ⟨hmain, h⟩]

theorem railReset_above {die : BitVec 3} {low : BitVec 10} (h : 420 ≤ low.toNat) : s.railReset die low = s := by
  rw [State.railReset, if_neg fun hn => Nat.not_lt.2 h hn.2]

theorem railRestart_due (flash : List (BitVec 4)) (found : Training) (hoff : s.pwr.off = .rail) (hmain : s.pwr.main = false)
    (hrun : s.fw.run = none) (haux : s.pwr.aux = true) (h : s.pwr.offAt + 1000000000 ≤ s.ns) :
    s.railRestart flash found = s.askStart ⟨.cold, false, false, false⟩ flash found := by
  rw [State.railRestart, if_pos ⟨hoff, ne_true_of_eq_false hmain, Option.isNone_iff_eq_none.2 hrun, haux, h⟩]

/-! ### Supply warnings (R475) -/

/-- A rail as an input warning leaves it: at 0.55 V or lower. -/
def DiePower.sunk (d : DiePower) : DiePower := { d with rail := BitVec.ofNat 10 (min d.rail.toNat 550) }

/-- The power state under a new input warning. -/
def PwrState.inputWarned (p : PwrState) (ns volt : Nat) : PwrState :=
  { (List.range 8).foldl (fun p n => p.modDie n DiePower.sunk) p with inWarn := true, inAt := ns, inLow := volt }

theorem inputWarned_other (p : PwrState) (ns volt : Nat) : p.inputWarned ns volt =
    { p with inWarn := true, inAt := ns, inLow := volt, dies := (p.inputWarned ns volt).dies } := by
  obtain ⟨d, hd⟩ := foldl_other (fun _ => DiePower.sunk) (List.range 8) p
  simp only [PwrState.inputWarned, hd]

theorem inputWarned_die (p : PwrState) (ns volt : Nat) {n : Nat} (hn : n < 16) :
    (p.inputWarned ns volt).die n = if n < 8 then (p.die n).sunk else p.die n := by
  have h := foldl_modDie (fun _ => DiePower.sunk) (List.range 8) p List.nodup_range
    (fun m hm => (List.mem_range.1 hm).trans (by decide)) n hn
  simpa only [List.mem_range, PwrState.die, PwrState.inputWarned] using h

theorem inputWarn_due {volt : BitVec 16} (hmain : s.pwr.main = true) (hwarn : s.pwr.inWarn = false)
    (hlow : 3800 ≤ volt.toNat) (hhigh : volt.toNat < 4200) : s.inputWarn volt =
      (s.setPwr (s.pwr.inputWarned s.ns volt.toNat)).raise 0x0A01 .warning [(2, volt.toNat), (2, s.pwr.watts.toNat)] := by
  rw [State.inputWarn]
  exact if_neg (by simp [hmain, hwarn, hlow, hhigh])

theorem inputWarn_above {volt : BitVec 16} (h : 4200 ≤ volt.toNat) : s.inputWarn volt = s :=
  if_pos (.inr (.inr (.inl h)))

section
variable (low : BitVec 16) (hwarn : s.pwr.inWarn = true)

include hwarn in
theorem inputClear_due (h : s.pwr.inAt + 1000000 ≤ s.ns) : s.inputClear low =
    (s.setPwr { s.pwr with inWarn := false }).raise 0x0A02 .info
      [(1, 0), (1, 0xFF), (4, (s.ns - s.pwr.inAt) / 1000), (2, min s.pwr.inLow low.toNat)] :=
  if_neg (not_or_intro (not_not_intro hwarn) (Nat.not_lt.2 h))

theorem inputClear_early (h : s.ns < s.pwr.inAt + 1000000) : s.inputClear low = s := if_pos (.inr h)

end

theorem railWarn_due {die : BitVec 3} {rail : BitVec 10} (hmain : s.pwr.main = true)
    (hwarn : (s.pwr.die die.toNat).railWarn = false) (hlow : 420 ≤ rail.toNat) (hhigh : rail.toNat < 460) :
    s.railWarn die rail = (s.setPwr (s.pwr.modDie die.toNat fun d =>
      { d with railWarn := true, railAt := s.ns, railLow := rail.toNat })).raise 0x0A04 .warning
        [(1, die.toNat), (2, rail.toNat), (2, (s.pwr.die die.toNat).rail.toNat)] :=
  if_neg (by simp [hmain, hwarn, hlow, hhigh])

theorem railClear_due {die : BitVec 3} (low : BitVec 10) (hwarn : (s.pwr.die die.toNat).railWarn = true)
    (h : (s.pwr.die die.toNat).railAt + 100000 ≤ s.ns) : s.railClear die low =
      (s.setPwr (s.pwr.modDie die.toNat fun d => { d with railWarn := false })).raise 0x0A02 .info
        [(1, 1), (1, die.toNat), (4, (s.ns - (s.pwr.die die.toNat).railAt) / 1000),
          (2, min (s.pwr.die die.toNat).railLow low.toNat)] :=
  if_neg (not_or_intro (not_not_intro hwarn) (Nat.not_lt.2 h))

/-! ### Duty limits (R475, R478, R488) -/

theorem dutyOf_warned (p : PwrState) (n : Nat)
    (h : p.inWarn = true ∨ (p.die n).railWarn = true ∨ (p.die n).thermWarn = true) : p.dutyOf n ≤ 25 := by
  have hwarn : (p.inWarn || (p.die n).railWarn || (p.die n).thermWarn) = true := by
    simpa only [Bool.or_eq_true, or_assoc] using h
  simp only [PwrState.dutyOf, hwarn, if_true]
  split <;> omega

theorem dutyOf_hwLimit (p : PwrState) (n : Nat) (h : (p.die n).hwLimit = true) : p.dutyOf n ≤ 50 := by
  simp only [PwrState.dutyOf, h, if_true]
  exact Nat.min_le_right _ _

theorem dutyOf_le (p : PwrState) (n : Nat) : p.dutyOf n ≤ (p.die n).duty.toNat := by
  simp only [PwrState.dutyOf]
  split <;> split <;> omega

/-! ### Temperature (R478, R479) -/

section
variable {die : BitVec 4} {temp : BitVec 8} (hmain : s.pwr.main = true)
include hmain

section
variable (hpc : s.pwr.pcUp = true)
include hpc

/-- A die as a throttle at a temperature leaves it: its rail is 5 mV lower, and at least 0.50 V. -/
def DiePower.throttled (d : DiePower) (temp : BitVec 8) : DiePower :=
  let down := BitVec.ofNat 10 (max 500 (d.rail.toNat - 5))
  { d with throttle := true, temp := temp, rail := if down.toNat < d.rail.toNat then down else d.rail }

section
variable (hdie : die.toNat < 8)
include hdie

theorem thermThrottle_begins (hthrottle : (s.pwr.die die.toNat).throttle = false) (h : 95 ≤ temp.toNat) :
    s.thermThrottle die temp =
      (s.setPwr (s.pwr.modDie die.toNat fun _ => (s.pwr.die die.toNat).throttled temp)).raise 0x0A06 .info
        [(1, die.toNat), (1, temp.toNat), (2, ((s.pwr.die die.toNat).throttled temp).rail.toNat)] := by
  have hrail : ((s.setPwr (s.pwr.modDie die.toNat fun _ => (s.pwr.die die.toNat).throttled temp)).pwr.die die.toNat).rail =
      ((s.pwr.die die.toNat).throttled temp).rail := by
    rw [setPwr_die, die_modDie _ _ _ _ die.isLt die.isLt, if_pos rfl]
  rw [← hrail, State.thermThrottle, if_neg (by simp [hmain, hpc, hthrottle]; omega),
    ← modDie_congr s.pwr die.toNat (·.throttled temp) _ rfl]
  exact if_neg (ne_true_of_eq_false hthrottle)

theorem thermThrottle_goesOn (hthrottle : (s.pwr.die die.toNat).throttle = true) (h : 93 ≤ temp.toNat) :
    s.thermThrottle die temp = s.setPwr (s.pwr.modDie die.toNat fun _ => (s.pwr.die die.toNat).throttled temp) := by
  rw [State.thermThrottle, if_neg (by simp [hmain, hpc, hthrottle]; omega),
    ← modDie_congr s.pwr die.toNat (·.throttled temp) _ rfl]
  exact if_pos hthrottle

end

omit hmain hpc in
theorem thermThrottle_below (h : temp.toNat < 93) : s.thermThrottle die temp = s :=
  if_pos (.inr (.inr (.inr (.inr h))))

theorem throttleEnd_below (h : temp.toNat < 93) : s.throttleEnd die temp =
    s.setPwr (s.pwr.modDie die.toNat fun d => { d with throttle := false, temp := temp }) :=
  if_neg (by simp [hmain, hpc]; omega)

omit hmain hpc in
theorem throttleEnd_above (h : 93 ≤ temp.toNat) : s.throttleEnd die temp = s := if_pos (.inr (.inr h))

theorem tripWarning_due (hfw : s.hif.fwUp = true) (hwarn : (s.pwr.die die.toNat).thermWarn = true)
    (hsent : (s.pwr.die die.toNat).tripWarned = false) (h : (s.pwr.die die.toNat).thermAt + 100000000 ≤ s.ns) :
    s.tripWarning die = (s.setPwr (s.pwr.modDie die.toNat fun d => { d with tripWarned := true })).ownFault := by
  rw [State.tripWarning]
  exact if_neg (by simp [hmain, hpc, hfw, hwarn, hsent, h])

omit hmain hpc in
theorem tripWarning_early (h : s.ns < (s.pwr.die die.toNat).thermAt + 100000000) : s.tripWarning die = s := by
  rw [State.tripWarning]
  exact if_pos (.inr (.inr (.inr (.inr (.inr h)))))

end

theorem thermWarn_due (hwarn : (s.pwr.die die.toNat).thermWarn = false) (h : 100 ≤ temp.toNat) : s.thermWarn die temp =
    (s.setPwr (s.pwr.modDie die.toNat fun d =>
      { d with thermWarn := true, temp := temp, thermAt := s.ns, thermHigh := temp.toNat, tripWarned := false })).raise
        0x0A07 .error [(1, die.toNat), (1, temp.toNat)] :=
  if_neg (by simp [hmain, hwarn]; omega)

omit hmain in
theorem thermWarn_below (h : temp.toNat < 100) : s.thermWarn die temp = s := if_pos (.inr (.inr h))

omit hmain in
theorem thermClear_due (high : BitVec 8) (haux : s.pwr.aux = true) (hwarn : (s.pwr.die die.toNat).thermWarn = true)
    (h : temp.toNat < 97) : s.thermClear die temp high =
      (s.setPwr (s.pwr.modDie die.toNat fun d => { d with thermWarn := false, temp := temp })).raise 0x0A02 .info
        [(1, 2), (1, die.toNat), (4, (s.ns - (s.pwr.die die.toNat).thermAt) / 1000),
          (2, max (s.pwr.die die.toNat).thermHigh high.toNat)] :=
  if_neg (by simp [haux, hwarn]; omega)

omit hmain in
theorem thermClear_above (high : BitVec 8) (h : 97 ≤ temp.toNat) : s.thermClear die temp high = s := if_pos (.inr (.inr h))

omit hmain in
theorem thermTrip_below (h : temp.toNat < 105) : s.thermTrip die temp = s := if_pos (.inr h)

end

section
variable {temps : List (BitVec 8)} (flash : List (BitVec 4)) (found : Training)

theorem cooldown_cool (hoff : s.pwr.off = .trip) (hmain : s.pwr.main = false) (haux : s.pwr.aux = true)
    (hlength : temps.length = 9) (h : ∀ x ∈ temps, x.toNat < 70) : s.cooldown temps flash found =
      (s.setPwr (temps.zipIdx.foldl (fun p x => p.modDie x.2 fun d => { d with temp := x.1 }) s.pwr)).nextStart flash found :=
  if_neg (by simpa [hoff, hmain, haux, hlength] using h)

theorem cooldown_hot (h : ∃ x ∈ temps, 70 ≤ x.toNat) : s.cooldown temps flash found = s :=
  if_pos (.inr (.inr (.inr (.inr (by simpa using h)))))

end

end

end Sys2Proof.Machine

open Sys2Proof Sys2Proof.Machine

/-- Settles O51: each input, warning and temperature has a lemma for its threshold and one below it or too early. That a
throttle is said once for a hot spell is assumption log 98, and that an overvoltage raises PWR_OVERVOLTAGE alone is log 104;
which charge starts the module (log 91) and what a loss of the 12 V input leaves (log 96) are the model's choices too. -/
theorem powerInputsAndTemperatures : Obligations.PowerInputsAndTemperatures := by
  unfold Obligations.PowerInputsAndTemperatures
  refine ⟨fun s => ⟨?_, ?_, ?_, ?_, ?_, ?_, ?_, ?_, ?_, ?_, ?_, ?_⟩, fun s die hdie => ?_⟩
  · exact fun haux slot => congrArg Host.Outcome.next (auxOn_absent slot haux)
  · exact fun haux => ⟨fun slot => congrArg Host.Outcome.next (auxOn_present slot haux),
      _, rfl, auxOff_present haux, auxOff_keeps haux⟩
  · exact fun haux hopen => ⟨fun h => congrArg Host.Outcome.next (dwell_due haux hopen h),
      fun h => congrArg Host.Outcome.next (dwell_early h)⟩
  · exact fun hcharging flash found => ⟨fun hrun hmain hdepot hoff hretry => congrArg Host.Outcome.next
        (charged_starts flash found hcharging hrun hmain hdepot hoff hretry),
      fun r hrun hstep => congrArg Host.Outcome.next (charged_goesOn flash found hcharging hrun hstep)⟩
  · exact fun volt haux hinrush => ⟨fun h => congrArg Host.Outcome.next (overvoltage_below h),
      fun h hmain => congrArg Host.Outcome.next (overvoltage_waiting haux hinrush h hmain),
      fun h hmain => congrArg Host.Outcome.next (overvoltage_running haux hinrush h hmain)⟩
  · exact fun hmain low => ⟨fun h => congrArg Host.Outcome.next (inputReset_due hmain h),
      fun h => congrArg Host.Outcome.next (inputReset_above h)⟩
  · exact fun hmain die low => ⟨fun h => congrArg Host.Outcome.next (railReset_due hmain h),
      fun h => congrArg Host.Outcome.next (railReset_above h)⟩
  · exact fun hoff hmain hrun haux h flash =>
      congrArg Host.Outcome.next (railRestart_due flash .clean hoff hmain hrun haux h)
  · exact fun hmain hwarn volt => ⟨fun hlow hhigh => ⟨_, inputWarned_other s.pwr s.ns volt.toNat,
        fun n hn => (inputWarned_die _ _ _ (hn.trans (by decide))).trans (if_pos hn),
        (inputWarned_die _ _ _ (by decide)).trans (if_neg (by decide)),
        congrArg Host.Outcome.next (inputWarn_due hmain hwarn hlow hhigh)⟩,
      fun h => congrArg Host.Outcome.next (inputWarn_above h)⟩
  · exact fun hwarn low => ⟨fun h => congrArg Host.Outcome.next (inputClear_due low hwarn h),
      fun h => congrArg Host.Outcome.next (inputClear_early low h)⟩
  · exact fun die => ⟨fun hmain hwarn rail hlow hhigh => congrArg Host.Outcome.next (railWarn_due hmain hwarn hlow hhigh),
      fun hwarn h low => congrArg Host.Outcome.next (railClear_due low hwarn h)⟩
  · exact fun n => ⟨dutyOf_warned _ n, dutyOf_hwLimit _ n, dutyOf_le _ n⟩
  · have hserved {t u : State} (h : t = u) : withDie die t = .next u := (withDie_ok die t hdie).trans (congrArg _ h)
    refine ⟨?_, ?_, ?_, ?_, ?_, ?_, ?_⟩
    · exact fun hmain hpc hn temp => ⟨fun ht h => hserved (thermThrottle_begins hmain hpc hn ht h),
        fun ht h => hserved (thermThrottle_goesOn hmain hpc hn ht h), fun h => hserved (thermThrottle_below h)⟩
    · exact fun hmain hpc temp => ⟨fun h => hserved (throttleEnd_below hmain hpc h), fun h => hserved (throttleEnd_above h)⟩
    · exact fun hmain hwarn temp => ⟨fun h => hserved (thermWarn_due hmain hwarn h), fun h => hserved (thermWarn_below h)⟩
    · exact fun haux hwarn temp high => ⟨fun h => hserved (thermClear_due high haux hwarn h),
        fun h => hserved (thermClear_above high h)⟩
    · exact fun hmain hpc hfw hwarn hsent => ⟨fun h => hserved (tripWarning_due hmain hpc hfw hwarn hsent h),
        fun h => hserved (tripWarning_early h)⟩
    · exact fun hmain temp => ⟨fun h => hserved (thermTrip_due hmain h), fun h => hserved (thermTrip_below h)⟩
    · exact fun hoff hmain haux temps flash found hlength =>
        ⟨fun h => congrArg Host.Outcome.next (cooldown_cool flash found hoff hmain haux hlength h),
          fun h => congrArg Host.Outcome.next (cooldown_hot flash found h)⟩

end

section
/-! PROOFS. Grants and the cap controller (R480 to R488). -/

namespace Sys2Proof.Machine

/-- A list of monitor readings in per cent, read at a die; a die it does not reach keeps what it has. -/
abbrev percentAt (l : List (BitVec 7)) (n : Nat) (kept : BitVec 7) : BitVec 7 :=
  match l[n]? with
  | some x => BitVec.ofNat 7 (min 100 x.toNat)
  | none => kept

/-- A die after a control period (R483): what the controller chose for it and what its monitor read. -/
def DiePower.controlled (warned : Bool) (rails : List (BitVec 10)) (duty hbm : List (BitVec 7)) (temps : List (BitVec 8))
    (n : Nat) (d : DiePower) : DiePower :=
  { d with
    rail := if n < 8 then (match rails[n]? with | some r => d.railTo warned r.toNat | none => d.rail) else d.rail
    duty := percentAt duty n d.duty
    hbm := percentAt hbm n d.hbm
    temp := (temps[n]?).getD d.temp
    hwLimit := false }

/-- The power state after a control period, before PWR_CAP_EFF shows the cap. -/
def PwrState.controlled (p : PwrState) (warned : Bool) (rails : List (BitVec 10)) (duty hbm : List (BitVec 7))
    (temps : List (BitVec 8)) : PwrState :=
  (List.range 9).foldl (fun k n => k.modDie n (DiePower.controlled warned rails duty hbm temps n)) p

theorem percentAt_eq (l : List (BitVec 7)) (n : Nat) (kept : BitVec 7) :
    percentAt l n kept = ((l[n]?).map fun x => BitVec.ofNat 7 (min 100 x.toNat)).getD kept := by
  unfold percentAt
  cases l[n]? <;> rfl

section
variable (p : PwrState) (warned : Bool) (rails : List (BitVec 10)) (duty hbm : List (BitVec 7)) (temps : List (BitVec 8))

theorem controlled_die {n : Nat} (hn : n < 9) : (p.controlled warned rails duty hbm temps).die n =
    (p.die n).controlled warned rails duty hbm temps n := by
  have h := foldl_modDie (DiePower.controlled warned rails duty hbm temps) (List.range 9) p List.nodup_range
    (fun m hm => (List.mem_range.1 hm).trans (by decide)) n (hn.trans (by decide))
  rwa [if_pos (List.mem_range.2 hn)] at h

theorem showCap_die (q : PwrState) (n : Nat) : q.showCap.die n = q.die n := rfl

/-- The power state after a control period. -/
abbrev PwrState.shown : PwrState := (p.controlled warned rails duty hbm temps).showCap

theorem shown_other : let p' := p.shown warned rails duty hbm temps
    p'.volt = p.volt ∧ p'.watts = p.watts ∧ p'.hwLimit = p.hwLimit ∧ p'.periodAt = p.periodAt ∧ p'.grant = p.grant ∧
      p'.capLocal = p.capLocal ∧ p'.capEff = BitVec.ofNat 12 p'.eff.1 := by
  obtain ⟨d, hd⟩ := foldl_other (DiePower.controlled warned rails duty hbm temps) (List.range 9) p
  simp only [PwrState.shown, PwrState.controlled, hd]
  exact ⟨rfl, rfl, rfl, rfl, rfl, rfl, rfl⟩

theorem shown_die {n : Nat} (hn : n < 9) : (p.shown warned rails duty hbm temps).die n =
    (p.die n).controlled warned rails duty hbm temps n := by
  rw [PwrState.shown, showCap_die, controlled_die p warned rails duty hbm temps hn]

end

/-- The fields of a die after a control period; the I/O die's rail is fixed. -/
theorem controlled_fields (d : DiePower) (warned : Bool) (rails : List (BitVec 10)) (duty hbm : List (BitVec 7))
    (temps : List (BitVec 8)) (n : Nat) : let d' := d.controlled warned rails duty hbm temps n
    d'.hwLimit = false ∧ d'.temp = (temps[n]?).getD d.temp ∧
      d'.duty = ((duty[n]?).map fun x => BitVec.ofNat 7 (min 100 x.toNat)).getD d.duty ∧
      d'.hbm = ((hbm[n]?).map fun x => BitVec.ofNat 7 (min 100 x.toNat)).getD d.hbm ∧
      (n < 8 → ∀ r, rails[n]? = some r → d'.rail = d.railTo warned r.toNat) ∧ (n = 8 → d'.rail = d.rail) := by
  refine ⟨rfl, rfl, percentAt_eq _ _ _, percentAt_eq _ _ _, fun hn r hr => ?_, fun hn => ?_⟩
  · simp only [DiePower.controlled, hn, hr, if_true]
  · simp only [DiePower.controlled, hn, Nat.lt_irrefl, if_false]

section
variable {s : State}

/-! ### Grants (R480, R481) -/

section
variable {watts seq life : BitVec 16}

/-- A grant is newer than the one in force, if any. -/
theorem takeGrant_newer (haux : s.pwr.aux = true)
    (h : s.pwr.grant = none ∨ ∃ g, s.pwr.grant = some g ∧ seq ≠ g.seq ∧ (seq - g.seq).toNat < 0x8000) :
    let t := (s.setPwr ({ s.pwr with
        grant := some ⟨BitVec.ofNat 12 (capWatts watts.toNat), seq,
          if life = 0 then none else some (s.ns + 1000000000 * life.toNat), life.toNat⟩
        fallbackOn := false } : PwrState).capChanged).raise 0x0A0B .info
      [(2, capWatts watts.toNat), (2, seq.toNat), (2, life.toNat)]
    s.takeGrant watts seq life =
      if watts.toNat < 600 then t.raise 0x0A0C .warning [(2, watts.toNat), (2, capWatts watts.toNat)] else t := by
  obtain h | ⟨g, h, hne, hlater⟩ := h
  · simp only [State.takeGrant, h]
    exact if_neg (by simp [haux])
  · have hfresh : seqLater seq g.seq = true := by
      rw [seqLater, decide_eq_true hlater, Bool.and_true]
      exact bne_iff_ne.2 hne
    simp only [State.takeGrant, h, hfresh]
    exact if_neg (by simp [haux])

theorem takeGrant_older {g : Grant} (hgrant : s.pwr.grant = some g) (h : 0x8000 ≤ (seq - g.seq).toNat ∨ seq = g.seq) :
    s.takeGrant watts seq life = s := by
  have hstale : seqLater seq g.seq = false := by
    obtain h | rfl := h
    · rw [seqLater, decide_eq_false (Nat.not_lt.2 h), Bool.and_false]
    · rw [seqLater, bne_self_eq_false, Bool.false_and]
  simp only [State.takeGrant, hgrant, hstale]
  exact if_pos (.inr Bool.false_ne_true)

end

section
variable {g : Grant} {e : Nat} (hgrant : s.pwr.grant = some g) (hends : g.ends = some e)
include hgrant hends

theorem grantExpiry_due (haux : s.pwr.aux = true) (hfallback : s.pwr.fallbackOn = false) (h : e ≤ s.ns) : s.grantExpiry =
    (s.setPwr ({ s.pwr with fallbackOn := true } : PwrState).capChanged).raise 0x0A0D .warning
      [(2, g.watts.toNat), (2, capWatts s.pwr.fallback.toNat)] := by
  simp only [State.grantExpiry, hgrant, hends]
  exact if_neg (by simp [haux, hfallback, h])

theorem grantExpiry_early (h : s.ns < e) : s.grantExpiry = s := by
  simp only [State.grantExpiry, hgrant, hends]
  exact if_pos (by simp [h])

end

/-! ### The control period and the cap table (R483, R485) -/

/-- The power state as a control period finds it: the ballast is summed and the monitors of the module are read. -/
abbrev State.periodPwr (s : State) (volt : BitVec 16) (watts : BitVec 12) : PwrState :=
  { s.sumBallast.pwr with volt := volt, watts := watts, hwLimit := false, periodAt := s.ns }

theorem periodPwr_die (s : State) (volt : BitVec 16) (watts : BitVec 12) (n : Nat) :
    (s.periodPwr volt watts).die n = s.pwr.die n := by
  simp only [PwrState.die, State.sumBallast]

section
variable (hmain : s.pwr.main = true) (hpc : s.pwr.pcUp = true)
include hmain hpc

theorem controlPeriod_due (rails : List (BitVec 10)) (duty hbm : List (BitVec 7)) (temps : List (BitVec 8))
    (volt : BitVec 16) (watts : BitVec 12) (h : s.pwr.periodAt + 100000 ≤ s.ns) :
    s.controlPeriod rails duty hbm temps volt watts = (s.sumBallast.setPwr
      (PwrState.shown (s.periodPwr volt watts) s.pwr.warned rails duty hbm temps)).paceBallast := by
  rw [State.controlPeriod]
  exact if_neg (by simp [hmain, hpc, h])

theorem capCommit_due (h : s.pwr.tableAt + 10000000 ≤ s.ns) : s.capCommit =
    { s with pwr := { s.pwr with table := s.pwr.shadow, capVer := s.pwr.capVer + 1, tableAt := s.ns } } := by
  rw [State.capCommit, if_pos ⟨hmain, hpc, h⟩]

/-! ### Estimates (R487) -/

section
variable {e m : BitVec 16}

theorem untrust_apart (phases : List (BitVec 16)) (htrust : s.pwr.untrusted = false)
    (h : s.pwr.capEff.toNat * 12 < 100 * (max e.toNat m.toNat - min e.toNat m.toNat)) :
    let gone := phases.filter fun t => s.pwr.shadow.any fun x => x.tag = t
    s.untrust e m phases = (s.setPwr
      { s.pwr with untrusted := true, untrustedAt := s.ns, cleared := gone
                   shadow := s.pwr.shadow.filter fun x => !phases.contains x.tag }).raise 0x0A09 .warning
        [(2, e.toNat), (2, m.toNat), (2, s.pwr.capEff.toNat), (2, gone.length), (2, ((gone.head?).getD 0).toNat)] :=
  if_neg (by simp only [hmain, hpc, htrust, apart, decide_eq_true h]; decide)

omit hmain hpc in
theorem untrust_near (phases : List (BitVec 16))
    (h : 100 * (max e.toNat m.toNat - min e.toNat m.toNat) ≤ s.pwr.capEff.toNat * 12) : s.untrust e m phases = s :=
  if_pos (.inr (.inr (.inr (by rw [apart, decide_eq_false (Nat.not_lt.2 h)]; exact Bool.false_ne_true))))

theorem trust_near (htrust : s.pwr.untrusted = true)
    (h : 100 * (max e.toNat m.toNat - min e.toNat m.toNat) ≤ s.pwr.capEff.toNat * 6)
    (hlong : s.pwr.untrustedAt + 20000000 ≤ s.ns) : s.trust e m =
      (s.setPwr { s.pwr with untrusted := false, cleared := [] }).raise 0x0A0A .info
        [(2, (s.pwr.cleared.filter fun t => s.pwr.shadow.any fun x => x.tag = t).length),
          (4, (s.ns - s.pwr.untrustedAt) / 1000000)] := by
  rw [State.trust]
  refine if_neg ?_
  rintro (hn | hn | hn | hn | hn)
  · exact hn hmain
  · exact hn hpc
  · exact hn htrust
  · exact Nat.not_lt.2 h (of_decide_eq_true hn)
  · exact Nat.not_lt.2 hlong hn

omit hmain hpc in
theorem trust_not_yet (h : s.pwr.capEff.toNat * 6 < 100 * (max e.toNat m.toNat - min e.toNat m.toNat) ∨
    s.ns < s.pwr.untrustedAt + 20000000) : s.trust e m = s := by
  rw [State.trust]
  exact if_pos (.inr (.inr (.inr (h.imp_left decide_eq_true))))

end

end

/-! ### The hardware limit (R488) -/

/-- The power state under the hardware limit: every die is limited. -/
def PwrState.hwLimited (p : PwrState) : PwrState :=
  (List.range 8).foldl (fun p n => p.modDie n fun d => { d with hwLimit := true }) { p with hwLimit := true }

theorem hwLimited_die (p : PwrState) {n : Nat} (hn : n < 8) : p.hwLimited.die n = { p.die n with hwLimit := true } := by
  have h := foldl_modDie (fun _ d => { d with hwLimit := true }) (List.range 8) { p with hwLimit := true } List.nodup_range
    (fun m hm => (List.mem_range.1 hm).trans (by decide)) n (hn.trans (by decide))
  rwa [if_pos (List.mem_range.2 hn)] at h

theorem hwLimited_other (p : PwrState) : p.hwLimited.hwLimit = true ∧ p.hwLimited.capEff = p.capEff := by
  obtain ⟨d, hd⟩ := foldl_other (fun _ d => { d with hwLimit := true }) (List.range 8) { p with hwLimit := true }
  simp only [PwrState.hwLimited, hd, and_self]

section
variable {average : BitVec 16}

theorem hwLimit_above (hmain : s.pwr.main = true) (hlimit : s.pwr.hwLimit = false)
    (h : 108 * s.pwr.capEff.toNat < average.toNat * 100) : s.hwLimit average =
      (s.setPwr s.pwr.hwLimited).raise 0x0A0E .warning [(2, average.toNat), (2, s.pwr.capEff.toNat)] := by
  rw [State.hwLimit]
  exact if_neg (by simp [hmain, hlimit, h])

theorem hwLimit_below (h : average.toNat * 100 ≤ 108 * s.pwr.capEff.toNat) : s.hwLimit average = s := by
  rw [State.hwLimit]
  exact if_pos (.inr (.inr h))

end

end

end Sys2Proof.Machine

open Sys2Proof Sys2Proof.Machine

/-- Settles O52: grants, their expiry, the control period (die by die), cap tables, estimates and the hardware limit. -/
theorem capAndController : Obligations.CapAndController := by
  unfold Obligations.CapAndController
  refine fun s => ⟨fun haux watts seq life => ⟨fun h => ⟨fun hw => ?_, fun hw => ?_⟩, fun g hg h => ?_⟩,
    fun haux hfallback g e hg he => ⟨fun h => ?_, fun h => ?_⟩,
    fun hmain hpc hperiod rails duty hbm temps volt watts => ?_, fun hmain hpc h => ?_,
    fun hmain hpc htrust e m phases => ⟨fun h => ?_, fun h => ?_⟩,
    fun hmain hpc htrust e m => ⟨fun h hlong => ?_, fun h => ?_⟩,
    fun hmain hlimit average => ⟨fun h => ?_, fun h => ?_⟩⟩
  · exact congrArg Host.Outcome.next ((takeGrant_newer haux h).trans (if_neg (Nat.not_lt.2 hw)))
  · exact congrArg Host.Outcome.next ((takeGrant_newer haux h).trans (if_pos hw))
  · exact congrArg Host.Outcome.next (takeGrant_older hg h)
  · exact congrArg Host.Outcome.next (grantExpiry_due hg he haux hfallback h)
  · exact congrArg Host.Outcome.next (grantExpiry_early hg he h)
  · obtain ⟨hvolt, hwatts, hlimit, hat, hgrant, hlocal, heff⟩ :=
      shown_other (s.periodPwr volt watts) s.pwr.warned rails duty hbm temps
    refine ⟨_, hvolt, hwatts, hlimit, hat, hgrant, hlocal, heff, fun n hn => ?_,
      congrArg Host.Outcome.next (controlPeriod_due hmain hpc rails duty hbm temps volt watts hperiod)⟩
    rw [shown_die _ _ _ _ _ _ hn, periodPwr_die]
    exact controlled_fields _ _ _ _ _ _ _
  · exact congrArg Host.Outcome.next (capCommit_due hmain hpc h)
  · exact congrArg Host.Outcome.next (untrust_apart hmain hpc phases htrust h)
  · exact congrArg Host.Outcome.next (untrust_near phases h)
  · exact congrArg Host.Outcome.next (trust_near hmain hpc htrust h hlong)
  · exact congrArg Host.Outcome.next (trust_not_yet h)
  · exact ⟨_, fun n hn => hwLimited_die s.pwr hn, (hwLimited_other s.pwr).1, (hwLimited_other s.pwr).2,
      congrArg Host.Outcome.next (hwLimit_above hmain hlimit h)⟩
  · exact congrArg Host.Outcome.next (hwLimit_below h)

end

section
/-! PROOFS. Holds (R441 to R446): how one is originated, forwarded and taken, and how a stopped module reports. -/

namespace Sys2Proof.Machine

section
variable {s : State}

/-! ### A module's own holds (R441, R442) -/

/-- The message of a hold that this module originates. -/
abbrev State.ownHold (s : State) (cause failed fport : Nat) : HoldMsg :=
  ⟨false, cause, s.rcv.jobId, s.own, s.rcv.oseq.toNat, 0, failed, fport, 0, s.ns⟩

section
variable (hjob : s.rcv.jobId ≠ 0) (hself : s.rcv.selfFailed = false)
include hjob hself

theorem originateHold_sent (hmain : s.pwr.main = true) (cause failed fport : Nat) : s.originateHold cause failed fport =
    ((({ s with rcv := { s.rcv with oseq := s.rcv.oseq + 1 } } : State).noteKey (s.ownHold cause failed fport)).floodHold
      (s.ownHold cause failed fport) 8).takeHold (s.ownHold cause failed fport) :=
  if_neg (by simp [hjob, hself, hmain])

theorem ownFault_holds : s.ownFault =
    { s.originateHold 1 s.own 0xFF with rcv := { (s.originateHold 1 s.own 0xFF).rcv with selfFailed := true } } :=
  if_neg (by simp [hjob, hself])

end

/-! ### Holds that arrive (R443, R444) -/

section
variable {port : BitVec 3} (m : HoldMsg)

/-- A message of a new key is noted, forwarded and taken. -/
theorem holdArrives_new (hmain : s.pwr.main = true) (hup : s.lnk.up port.toNat = true)
    (hnew : (m.origin, m.oseq) ∉ s.lnk.holdKeys) : s.holdArrives port m =
      if m.release then ((s.noteKey m).floodHold m port.toNat).takeRelease m
      else ((s.noteKey m).floodHold m port.toNat).takeHold m :=
  if_neg (by simp [hmain, hup, hnew])

theorem holdArrives_known (hold : (m.origin, m.oseq) ∈ s.lnk.holdKeys) : s.holdArrives port m = s :=
  if_pos (.inr (.inr (List.contains_iff_mem.2 hold)))

end

theorem exec_hold {port : BitVec 3} (hport : port.toNat < 6) (job : BitVec 16) (origin : BitVec 15) (oseq : BitVec 8)
    (cause : BitVec 4) (failed : BitVec 15) (fport : BitVec 8) (lt : BitVec 64) :
    exec (.hold port job origin oseq cause failed fport lt) s = .next (s.holdArrives port
      ⟨false, cause.toNat, job.toNat, origin.toNat, oseq.toNat, 0, failed.toNat, fport.toNat, 0, lt.toNat⟩) :=
  if_neg (Nat.not_le.2 hport)

theorem exec_release {port : BitVec 3} (hport : port.toNat < 6) (job : BitVec 16) (origin : BitVec 15)
    (oseq round : BitVec 8) (epoch : BitVec 32) (lt : BitVec 64) :
    exec (.release port job origin oseq round epoch lt) s = .next (s.holdArrives port
      ⟨true, 0, job.toNat, origin.toNat, oseq.toNat, round.toNat, 0x7FFF, 0xFF, epoch.toNat, lt.toNat⟩) :=
  if_neg (Nat.not_le.2 hport)

/-! ### What a hold does by the recovery state (R445, R446, R457, R464) -/

/-- The hold is said. -/
abbrev State.saidHold (s : State) (m : HoldMsg) : State :=
  s.raise 0x0901 .error [(2, m.origin), (1, m.oseq), (1, m.cause), (2, m.failed), (1, m.fport)]

section
variable {m : HoldMsg}

theorem takeHold_otherJob (h : m.job ≠ s.rcv.jobId) : s.takeHold m = s := if_pos (.inl h)

theorem takeRelease_otherJob (h : m.job ≠ s.rcv.jobId) : s.takeRelease m = s := if_neg fun hn => h hn.1

section
variable (hmine : m.job = s.rcv.jobId) (hjob : s.rcv.jobId ≠ 0) (hbrake : s.dbg.braked = false)
include hmine hjob hbrake

/-- While firmware is down the hold waits for it. -/
theorem takeHold_deferred (hfw : s.hif.fwUp = false) : s.takeHold m =
    { s.saidHold m with rcv := { (s.saidHold m).rcv with
      deferred := (s.saidHold m).rcv.deferred ++ [(m.cause, m.failed, m.lt)] } } :=
  (if_neg (by simp [hmine, hjob, hbrake])).trans (if_neg (ne_true_of_eq_false hfw))

theorem takeHold_acts (hfw : s.hif.fwUp = true) :
    s.takeHold m = (s.saidHold m).actOnHold m.cause m.failed m.lt :=
  (if_neg (by simp [hmine, hjob, hbrake])).trans (if_pos hfw)

theorem takeRelease_round (hself : s.rcv.selfFailed = false) (h : m.round = s.rcv.round.toNat) :
    s.takeRelease m = s.release :=
  if_pos ⟨hmine, hjob, h, ne_true_of_eq_false hbrake, ne_true_of_eq_false hself⟩

end

theorem takeRelease_otherRound (h : m.round ≠ s.rcv.round.toNat) : s.takeRelease m = s := if_neg fun hn => h hn.2.2.1

end

section
variable {cause failed lt : Nat} (hself : s.rcv.selfFailed = false)
include hself

theorem actOnHold_enters (h : s.rcv.state = 0 ∨ s.rcv.state = 4 ∨ s.rcv.state = 5 ∧ cause = 3 ∨
    s.rcv.state = 3 ∧ s.planNames failed = false) : s.actOnHold cause failed lt = s.enterHolding cause failed lt := by
  rw [State.actOnHold, if_neg (ne_true_of_eq_false hself)]
  obtain h | h | ⟨h, hcause⟩ | ⟨h, hplan⟩ := h <;> rw [h]
  · rfl
  · rfl
  · exact if_pos hcause
  · exact if_neg (ne_true_of_eq_false hplan)

theorem actOnHold_hears (h : s.rcv.state = 1 ∨ s.rcv.state = 2) : s.actOnHold cause failed lt = s.hearFailed failed := by
  rw [State.actOnHold, if_neg (ne_true_of_eq_false hself)]
  obtain h | h := h <;> rw [h] <;> rfl

theorem actOnHold_ignores (h : s.rcv.state = 3 ∧ s.planNames failed = true ∨ s.rcv.state = 5 ∧ cause ≠ 3) :
    s.actOnHold cause failed lt = s := by
  rw [State.actOnHold, if_neg (ne_true_of_eq_false hself)]
  obtain ⟨h, hplan⟩ | ⟨h, hcause⟩ := h <;> rw [h]
  · exact if_pos hplan
  · exact if_neg hcause

end

theorem saidHold_planNames (m : HoldMsg) (failed : Nat) : (s.saidHold m).planNames failed = s.planNames failed := by
  simp only [State.planNames, State.epochEntry, State.group, State.raise_rcv, State.raise_col]

end

/-! ### The HELD report (R445) -/

/-- A timetable with the raised quota of R445. -/
def Timetable.raised (t : Timetable) : Timetable :=
  { t with tok := rset t.tok 0 ((rget t.tok 0 &&& 0xFF00FFFF) ||| 0x00400000) }

/-- The timetables of the six ports. -/
def State.portTables (s : State) : List Timetable :=
  (List.range 6).map fun i => (rget s.arbLnk (BitVec.ofNat 3 i)).act

/-- The arbiters of the ports with their quotas raised, to be committed. -/
def State.raisedArbs (s : State) : Vector ArbBlock (2 ^ 3) :=
  Vector.ofFn fun i => match s.portTables[i.val]? with
    | some t => { s.arbLnk[i] with shd := t.raised, pending := true }
    | none => s.arbLnk[i]

theorem portTables_get (s : State) (i : BitVec 3) (h : i.toNat < 6) :
    s.portTables[i.toNat]? = some (rget s.arbLnk i).act := by
  simp [State.portTables, List.getElem?_map, List.getElem?_range h]

theorem portTables_none (s : State) (i : BitVec 3) (h : 6 ≤ i.toNat) : s.portTables[i.toNat]? = none :=
  List.getElem?_eq_none (by simpa [State.portTables] using h)

theorem rget_ofFn {α : Type} {n : Nat} (f : Fin (2 ^ n) → α) (i : BitVec n) :
    rget (Vector.ofFn f) i = f ⟨i.toNat, i.isLt⟩ := by
  simp [rget]

theorem raisedArbs_port (s : State) (i : BitVec 3) (h : i.toNat < 6) : rget s.raisedArbs i =
    { rget s.arbLnk i with shd := (rget s.arbLnk i).act.raised, pending := true } := by
  simp only [State.raisedArbs, rget_ofFn, portTables_get s i h]
  rfl

theorem raisedArbs_other (s : State) (i : BitVec 3) (h : 6 ≤ i.toNat) : rget s.raisedArbs i = rget s.arbLnk i := by
  simp only [State.raisedArbs, rget_ofFn, portTables_none s i h]
  rfl

theorem sendRec_nobody (s : State) (kind epoch : Nat) (words : List Nat) : s.sendRec kind 0x7FFF epoch words = s :=
  if_pos (.inl rfl)

/-- No Morgo timetable waits for its commit. -/
theorem pending_none {s : State} (h : ∀ i : BitVec 3, i.toNat < 6 → (rget s.arbLnk i).pending = false) :
    ((List.range 6).any fun i => (rget s.arbLnk (BitVec.ofNat 3 i)).pending) = false := by
  refine List.any_eq_false.2 fun i hi => ne_true_of_eq_false (h _ ?_)
  have hi := List.mem_range.1 hi
  rw [BitVec.toNat_ofNat, Nat.mod_eq_of_lt (hi.trans (by decide))]
  exact hi

/-- A stopped module whose coordinator is another one, and which is not the backup, reports to the coordinator. -/
theorem reachHeld_reports {s : State} (hstate : s.rcv.state = 1) (hself : s.rcv.selfFailed = false)
    (htasks : ∀ t ∈ s.dsp.tasks, t.started = false)
    (hpending : ∀ i : BitVec 3, i.toNat < 6 → (rget s.arbLnk i).pending = false)
    (hmain : s.pwr.main = true) (hfw : s.hif.fwUp = true) (hbrake : s.dbg.braked = false) (hsaved : s.rcv.saved = none)
    (hcoord : s.rcv.coordId ≠ 0x7FFF) (hheard : s.rcv.coordId ∉ s.rcv.heard) (hcoordOwn : s.rcv.coordId ≠ s.own)
    (hbackup : s.rcv.backupId = s.rcv.coordId ∨ s.rcv.backupId = 0x7FFF) (hbackupOwn : s.rcv.backupId ≠ s.own) :
    s.reachHeld = (({ s with arbLnk := s.raisedArbs, rcv := { s.rcv with state := 2, saved := some s.portTables, heldLt := s.ns } } :
        State).raise 0x0902 .info [(1, s.rcv.round.toNat), (8, s.committed)]).sendRec 1 s.rcv.coordId s.committed
          (s.rcv.heard.length :: s.rcv.heard) := by
  have hbusy : (s.dsp.tasks.any fun t => t.started) = false :=
    List.any_eq_false.2 fun t ht => ne_true_of_eq_false (htasks t ht)
  simp only [State.reachHeld, hbusy, pending_none hpending, hsaved]
  rw [if_neg (by simp [hstate, hself, hmain, hfw, hbrake]), if_neg (by simp [hcoord, hheard]), if_neg hcoordOwn,
    if_neg (by simp [hcoordOwn, hbackupOwn])]
  obtain h | h := hbackup
  · exact if_pos (.inr h)
  · rw [h, sendRec_nobody, ite_self]
    rfl

end Sys2Proof.Machine

open Sys2Proof Sys2Proof.Machine

/-- Settles O48: a hold is originated, arrives and is taken by one lemma per case of the recovery state, and the report of
a stopped module is read off `reachHeld_reports`. That HELD_REACHED does the last steps of R445 in one step is the model's
choice (assumption log 77). -/
theorem recoveryHolds : Obligations.RecoveryHolds := by
  unfold Obligations.RecoveryHolds
  refine ⟨fun s hjob hself hmain => ⟨fun failed => ?_, ?_⟩, fun s p hp hmain hup job origin oseq lt => ⟨?_, ?_⟩,
    fun s m => ⟨fun h => ⟨takeHold_otherJob h, takeRelease_otherJob h⟩, fun hmine hjob hbrake hself => ?_⟩, ?_⟩
  · exact congrArg Host.Outcome.next (originateHold_sent hjob hself hmain 3 failed.toNat 0xFF)
  · refine congrArg Host.Outcome.next ((ownFault_holds hjob hself).trans ?_)
    rw [originateHold_sent hjob hself hmain]
    rfl
  · exact fun cause failed fport => ⟨fun hnew => (exec_hold hp _ _ _ _ _ _ _).trans
        (congrArg Host.Outcome.next (holdArrives_new _ hmain hup hnew)),
      fun hold => (exec_hold hp _ _ _ _ _ _ _).trans (congrArg Host.Outcome.next (holdArrives_known _ hold))⟩
  · exact fun round epoch => ⟨fun hnew => (exec_release hp _ _ _ _ _ _).trans
        (congrArg Host.Outcome.next (holdArrives_new _ hmain hup hnew)),
      fun hold => (exec_release hp _ _ _ _ _ _).trans (congrArg Host.Outcome.next (holdArrives_known _ hold))⟩
  · have hsaid : (s.saidHold m).rcv = s.rcv := State.raise_rcv _ _ _ _
    have hself' : (s.saidHold m).rcv.selfFailed = false := by rw [hsaid, hself]
    refine ⟨fun hfw => takeHold_deferred hmine hjob hbrake hfw, fun hfw h => ?_, fun hfw h => ?_, fun hfw h => ?_,
      fun h => takeRelease_round hmine hjob hbrake hself h, fun h => takeRelease_otherRound h⟩
    · refine (takeHold_acts hmine hjob hbrake hfw).trans (actOnHold_enters hself' ?_)
      rwa [hsaid, saidHold_planNames]
    · refine (takeHold_acts hmine hjob hbrake hfw).trans (actOnHold_hears hself' ?_)
      rwa [hsaid]
    · refine (takeHold_acts hmine hjob hbrake hfw).trans (actOnHold_ignores hself' ?_)
      rwa [hsaid, saidHold_planNames]
  · exact fun s hstate hself htasks hpending hmain hfw hbrake hsaved hcoord hheard hcoordOwn hbackup hbackupOwn =>
      ⟨s.raisedArbs, raisedArbs_port s, raisedArbs_other s, congrArg Host.Outcome.next (reachHeld_reports hstate hself htasks
        hpending hmain hfw hbrake hsaved hcoord hheard hcoordOwn hbackup hbackupOwn)⟩

end

section
/-! PROOFS. The round of a recovery (R446, R454 to R459): reports, the plan, readiness, the commit, STOP and the return. -/

namespace Sys2Proof.Machine

section
variable {s : State} {job : BitVec 16}

/-- The job whose recovery runs is the module's own. -/
theorem recRuns_own (h : s.recRuns job = true) : s.recRuns (BitVec.ofNat 16 s.rcv.jobId) = true := by
  have hjob : s.rcv.jobId = job.toNat := by
    simp only [State.recRuns, Bool.and_eq_true, beq_iff_eq] at h
    exact h.2
  rwa [hjob, BitVec.ofNat_toNat, BitVec.setWidth_eq]

/-- The round of a recovery at this module is 3 or 4: PLANNED or REBUILD. -/
theorem not_other_round (h : s.rcv.state = 3 ∨ s.rcv.state = 4) : ¬ (s.rcv.state ≠ 3 ∧ s.rcv.state ≠ 4) :=
  fun hn => h.elim hn.1 hn.2

section
variable (hruns : s.recRuns job = true)
include hruns

/-! ### Reports (R454, R455) -/

theorem exec_heldReport_collects (hrole : s.rcv.coordId = s.own ∨ s.rcv.backupId = s.own)
    (hstate : s.rcv.state = 1 ∨ s.rcv.state = 2) (src : BitVec 15) (epoch : BitVec 64) (heard : List (BitVec 15)) :
    exec (.heldReport src s.rcv.round job epoch heard) s =
      .next (s.collectReport src.toNat epoch.toNat (heard.map BitVec.toNat)) :=
  if_pos ⟨hruns, hrole, hstate, rfl⟩

section
variable (hstate : s.rcv.state = 2)
include hstate

section
variable {t : Nat} (hfirst : s.rcv.firstReport = some t)
include hfirst

/-- Positions that have not reported 50 ms after the first report count as failed. -/
theorem exec_reportWaitTimeout_due (hplanned : s.rcv.planned = false) (h : t + 50000000 ≤ s.ns) :
    exec .reportWaitTimeout s = .next ({ s with rcv := { s.rcv with
      failedSet := (s.jobIds.filter fun m => !(s.rcv.reports.any fun x => x.1 == m)).foldl setIns s.rcv.failedSet } } :
      State).tryPlan := by
  show execReportWaitTimeout s = _
  simp only [execReportWaitTimeout, hfirst]
  rw [if_neg (by simp [recRuns_own hruns, hplanned, hstate, h])]

omit hruns hstate in
theorem exec_reportWaitTimeout_early (h : s.ns < t + 50000000) : exec .reportWaitTimeout s = .next s := by
  show execReportWaitTimeout s = _
  simp only [execReportWaitTimeout, hfirst]
  rw [if_pos (.inr (.inl h))]

end

theorem exec_backupTakeover_due (hbackup : s.rcv.backupId = s.own) (h : s.rcv.heldLt + 100000000 ≤ s.ns) :
    exec .backupTakeover s = .next ({ s with rcv := { s.rcv with acting := true } } : State).tryPlan := by
  show execBackupTakeover s = _
  rw [execBackupTakeover, if_neg (by simp [recRuns_own hruns, hbackup, hstate, h])]

omit hruns hstate in
theorem exec_backupTakeover_early (h : s.ns < s.rcv.heldLt + 100000000) : exec .backupTakeover s = .next s := by
  show execBackupTakeover s = _
  rw [execBackupTakeover, if_pos (.inr (.inr (.inr h)))]

/-! ### The plan, readiness and rebuilding (R456) -/

theorem exec_plan_held (src : BitVec 15) (round : BitVec 8) (epoch : BitVec 64) (pairs drops : List (BitVec 15 × BitVec 15)) :
    exec (.plan src round job epoch pairs drops) s = .next ((s.applyPlan round epoch.toNat
      (pairs.map fun p => (p.1.toNat, p.2.toNat)) (drops.map fun p => (p.1.toNat, p.2.toNat))).sendRec 3 src.toNat epoch.toNat []) :=
  if_neg (by simp [hruns, hstate])

end

section
variable (hplanned : s.rcv.planned = true) {src : BitVec 15}
include hplanned

theorem exec_ready_new (h : src.toNat ∉ s.rcv.readys) : exec (.ready src s.rcv.round job) s =
    .next ({ s with rcv := { s.rcv with readys := setIns s.rcv.readys src.toNat } } : State).whenReady :=
  if_neg (by simp [hruns, hplanned, h])

theorem exec_rebuilt_waited (h : src.toNat ∈ s.rcv.rebuilding) : exec (.rebuilt src s.rcv.round job) s =
    .next ({ s with rcv := { s.rcv with rebuilding := s.rcv.rebuilding.erase src.toNat } } : State).nextRebuild :=
  if_neg (by simp [hruns, hplanned, h])

end

section
variable (hstate : s.rcv.state = 3 ∨ s.rcv.state = 4)
include hstate

/-- The module rebuilds a position for a spare. -/
abbrev State.rebuilds (s : State) (pos spare : Nat) : State :=
  { s with rcv := { s.rcv with state := 4, current := some (pos, spare), rebuildAt := s.ns } }

omit hruns in
/-- A module that is neither a survivor of the position nor the first of its chain only enters REBUILD. -/
theorem rebuildGo_other {pos spare : Nat} (hsurvivor : s.own ∉ s.parIds pos)
    (hfirst : ((s.rebuilds pos spare).chain true 0).head? ≠ some s.own) : s.rebuildGo pos spare = s.rebuilds pos spare := by
  rw [State.rebuildGo, if_neg (not_other_round hstate)]
  exact (if_neg (by simp [hsurvivor])).trans (if_neg hfirst)

omit hstate in
theorem exec_rebuildGo (pos spare : BitVec 15) :
    exec (.rebuildGo s.rcv.round job pos spare) s = .next (s.rebuildGo pos.toNat spare.toNat) :=
  if_neg (by simp [hruns])

theorem exec_recCommit : exec (.recCommit s.rcv.round job) s = .next s.recCommit :=
  if_neg (by simpa [hruns] using not_other_round hstate)

theorem exec_stop_follows (hcoord : s.coordinates = false) (reason : BitVec 8) :
    exec (.stop s.rcv.round job reason) s = .next (s.stuck reason.toNat) := by
  show execStop _ _ _ _ = _
  rw [execStop, if_neg, if_neg (ne_true_of_eq_false hcoord)]
  rintro (hn | hn | ⟨-, h3, h4⟩)
  · exact hn hruns
  · exact hn rfl
  · exact hstate.elim h3 h4

omit hruns in
/-- The return of a module to RUN. -/
theorem release_returns : s.release = ({ s with
    rcv := { s.rcv with
      state := 0, lastMs := BitVec.ofNat 16 (min 0xFFFF ((s.ns - s.rcv.detectLt) / 1000000)), count := satInc s.rcv.count
      saved := none, heard := [], reports := [], firstReport := none, failedSet := [], readys := [], rebuilding := []
      current := none, relays := [], slicesDone := [], planned := false, acting := false, releaseDue := false }
    col := { s.col with issued := [], turn := [], dead := [], early := [] } } : State).raise 0x0905 .info
      [(1, s.rcv.round.toNat), (8, s.rcv.epoch), (2, min 0xFFFF ((s.ns - s.rcv.detectLt) / 1000000))] :=
  if_neg (not_other_round hstate)

end

end

/-- A commit of a round without spares, with no timetable saved, writes the header alone. -/
theorem recCommit_header (hsaved : s.rcv.saved = none) (hprotects : s.protects = true) (hpairs : s.rcv.pairs = []) :
    s.recCommit = ((s.setHeader 8 8 s.rcv.epoch).setHeader 16 8 s.rcv.epoch).setHeader 0 8 s.rcv.epoch := by
  simp only [State.recCommit, hsaved, hprotects, hpairs, if_true]

/-! ### Messages of another round (R457) -/

section
variable {round : BitVec 8} (h : round ≠ s.rcv.round)
include h

theorem exec_heldReport_otherRound (src : BitVec 15) (epoch : BitVec 64) (heard : List (BitVec 15)) :
    exec (.heldReport src round job epoch heard) s = .next s :=
  if_neg fun hn => h hn.2.2.2

theorem exec_ready_otherRound (src : BitVec 15) : exec (.ready src round job) s = .next s := if_pos (.inr (.inr (.inl h)))

theorem exec_rebuildGo_otherRound (pos spare : BitVec 15) : exec (.rebuildGo round job pos spare) s = .next s :=
  if_pos (.inr h)

theorem exec_rebuilt_otherRound (src : BitVec 15) : exec (.rebuilt src round job) s = .next s :=
  if_pos (.inr (.inr (.inl h)))

theorem exec_recCommit_otherRound : exec (.recCommit round job) s = .next s := if_pos (.inr (.inl h))

theorem exec_stop_otherRound (reason : BitVec 8) : exec (.stop round job reason) s = .next s := if_pos (.inr (.inl h))

end

end

end Sys2Proof.Machine

open Sys2Proof Sys2Proof.Machine

/-- Settles O49: each message of a round has a lemma for the round the module is in, and one for every other round. -/
theorem recoveryRounds : Obligations.RecoveryRounds := by
  unfold Obligations.RecoveryRounds
  refine fun s job hruns => ⟨fun hrole hstate src epoch heard => exec_heldReport_collects hruns hrole hstate src epoch heard,
    fun hstate hplanned t hfirst => ⟨fun h => exec_reportWaitTimeout_due hruns hstate hfirst hplanned h,
      fun h => exec_reportWaitTimeout_early hfirst h⟩,
    fun hstate hbackup => ⟨fun h => exec_backupTakeover_due hruns hstate hbackup h, fun h => exec_backupTakeover_early h⟩,
    fun hstate src round epoch pairs drops => exec_plan_held hruns hstate src round epoch pairs drops,
    fun hplanned src => ⟨fun h => exec_ready_new hruns hplanned h, fun h => exec_rebuilt_waited hruns hplanned h⟩,
    fun hstate => ⟨fun pos spare hsurvivor hfirst => ?_, exec_recCommit hruns hstate, recCommit_header,
      fun hcoord reason => exec_stop_follows hruns hstate hcoord reason, release_returns hstate⟩,
    fun round h src epoch heard pos spare reason => ⟨exec_heldReport_otherRound h src epoch heard,
      exec_ready_otherRound h src, exec_rebuildGo_otherRound h pos spare, exec_rebuilt_otherRound h src,
      exec_recCommit_otherRound h, exec_stop_otherRound h reason⟩⟩
  exact (exec_rebuildGo hruns pos spare).trans (congrArg Host.Outcome.next (rebuildGo_other hstate hsurvivor hfirst))

end

section
/-! PROOFS. Training of a Morgo port (R397 to R404): what a partner says, what the plan answers, and the events. -/

namespace Sys2Proof.Machine

section
variable {s : State} {p : BitVec 3}

/-- A command of a port that exists, with the I/O die powered, is its operation. -/
theorem withPort_next (hp : p.toNat < 6) (hon : s.portsOn = true) (f : Nat → State) {t : State} (h : f p.toNat = t) :
    withPort p s f = .next t :=
  (withPort_run s p f hp hon).trans (congrArg Host.Outcome.next h)

/-- A port that is not UP becomes UP. -/
theorem portUp_raises (h : (rget s.lnk.ports p).state ≠ 5) : s.portUp p.toNat =
    ((s.setPort p { rget s.lnk.ports p with state := 5, hbAt := s.ns, hbSent := s.ns, peerDist := none }).raise 0x0701 .info
      [(1, p.toNat), (2, (rget s.lnk.ports p).peerId), (1, (rget s.lnk.ports p).level.toNat)]).tellPorts := by
  simp only [State.portUp, port_get, modPort_set]
  exact if_neg h

theorem portQuarantine_raises (h : (rget s.lnk.ports p).state ≠ 4) (why : Nat) : s.portQuarantine p.toNat why =
    ((s.setPort p { rget s.lnk.ports p with state := 4, reason := BitVec.ofNat 4 why }).raise 0x0703 .warning
      [(1, p.toNat), (1, why), (2, (rget s.lnk.ports p).peerId), (1, (rget s.lnk.ports p).peerPort)]).tellPorts := by
  simp only [State.portQuarantine, port_get, modPort_set]
  exact if_neg h

/-! ### DISCOVER (R398) -/

/-- The word that is kept of a partner (R416). -/
abbrev peerWord (id : BitVec 15) (port : BitVec 3) (levels : BitVec 4) : BitVec 32 :=
  BitVec.ofNat 32 (levels.toNat * 2 ^ 28 + port.toNat * 2 ^ 18 + 2 ^ 15 + id.toNat)

theorem peerWord_toNat (id : BitVec 15) (port : BitVec 3) (levels : BitVec 4) :
    (peerWord id port levels).toNat = levels.toNat * 2 ^ 28 + port.toNat * 2 ^ 18 + 2 ^ 15 + id.toNat := by
  rw [BitVec.toNat_ofNat, Nat.mod_eq_of_lt (by omega)]

theorem peerWord_id (id : BitVec 15) (port : BitVec 3) (levels : BitVec 4) :
    bitsOf (peerWord id port levels).toNat 14 0 = id.toNat := by
  rw [peerWord_toNat, bitsOf]
  omega

theorem peerWord_port (id : BitVec 15) (port : BitVec 3) (levels : BitVec 4) :
    bitsOf (peerWord id port levels).toNat 20 18 = port.toNat := by
  rw [peerWord_toNat, bitsOf]
  omega

/-- Why a partner that says so is rejected. -/
abbrev discoverWhy (k : LnkPort) (id : BitVec 15) (port : BitVec 3) : Nat :=
  if planKind k.planAct = 1 then 3 else if planKind k.planAct ≠ 2 then 4
  else if id.toNat ≠ planId k.planAct then 1 else if port.toNat ≠ planPort k.planAct then 2
  else if k.level = 0 then 5 else 0

theorem rejects_discover (k : LnkPort) (id : BitVec 15) (port : BitVec 3) (levels : BitVec 4) :
    ({ k with peer := peerWord id port levels } : LnkPort).rejects = discoverWhy k id port := by
  simp only [LnkPort.rejects, LnkPort.peerId, LnkPort.peerPort, peerWord_id, peerWord_port]
  split
  · next h => rw [discoverWhy, if_pos h]
  · next h =>
    rw [discoverWhy, h]
    rfl
  · next h1 h2 => rw [discoverWhy, if_neg h1, if_pos h2]

section
variable (htrained : (rget s.lnk.ports p).trained = true)
include htrained

section
variable (hstate : (rget s.lnk.ports p).state = 1 ∨ (rget s.lnk.ports p).state = 4)
    (id : BitVec 15) (port : BitVec 3) (levels : BitVec 4)
include hstate

theorem discover_accepted (h : discoverWhy (rget s.lnk.ports p) id port = 0) : s.discover p.toNat id port levels =
    let ok := (s.setPort p { rget s.lnk.ports p with peer := peerWord id port levels, accepted := true }).reply 3 0x51 [p.toNat]
    if (rget s.lnk.ports p).peerAccepted then ok.portUp p.toNat else ok := by
  simp only [State.discover, port_get, modPort_set, rejects_discover]
  rw [if_neg (not_or_intro (not_not_intro htrained) fun hn => hstate.elim hn.1 hn.2), if_pos h]

theorem discover_rejected (h : discoverWhy (rget s.lnk.ports p) id port ≠ 0) : s.discover p.toNat id port levels =
    ((s.setPort p { rget s.lnk.ports p with peer := peerWord id port levels, accepted := false }).reply 3 0x52
      [p.toNat, discoverWhy (rget s.lnk.ports p) id port]).portQuarantine p.toNat
        (discoverWhy (rget s.lnk.ports p) id port) := by
  simp only [State.discover, port_get, modPort_set, rejects_discover]
  rw [if_neg (not_or_intro (not_not_intro htrained) fun hn => hstate.elim hn.1 hn.2), if_neg h]

end

/-! ### ACCEPT and REJECT (R398) -/

theorem accept_port : s.accept p.toNat =
    let t := s.setPort p { rget s.lnk.ports p with peerAccepted := true }
    if (rget s.lnk.ports p).accepted then t.portUp p.toNat else t := by
  simp only [State.accept, port_get, modPort_set]
  exact if_neg (not_not_intro htrained)

theorem reject_port : s.reject p.toNat = (s.setPort p { rget s.lnk.ports p with peerAccepted := false }).portQuarantine p.toNat
    (if (rget s.lnk.ports p).accepted then 6 else (rget s.lnk.ports p).reason.toNat) := by
  simp only [State.reject, port_get, modPort_set]
  exact if_neg (not_not_intro htrained)

end

/-! ### Training with and without a partner (R392, R398, R399, R400) -/

section
variable (hmain : s.pwr.main = true)
include hmain

/-- The spare lanes a lane map leaves. -/
abbrev sparesLeft (m : BitVec 16) : BitVec 2 :=
  BitVec.ofNat 2 (2 - min 2 ((List.range 16).filter fun i => m.getLsbD i).length)

theorem laneTrained_offers (h : (rget s.lnk.ports p).trained = false) (levels : BitVec 4) (asym : Int) :
    s.laneTrained p.toNat levels asym =
      let t := s.setPort p { (rget s.lnk.ports p).untrain 1 (rget s.lnk.ports p).trainAt with
        trained := true, level := if levels.getLsbD 3 then 3 else if levels.getLsbD 2 then 2 else 0
        sparesRx := sparesLeft (rget s.lnk.ports p).laneMap, sparesTx := sparesLeft (rget s.lnk.ports p).laneMapTx }
      ({ t with lnk := { t.lnk with ltAsym := s.lnk.ltAsym.put p.toNat asym } } : State).reply 3 0x50
        [p.toNat, s.modId.toNat, 12, s.lnk.planVer.toNat] := by
  simp only [State.laneTrained, port_get, modPort_set]
  exact if_neg (by simp [h, hmain])

theorem trainTimeout_alone (htrained : (rget s.lnk.ports p).trained = false)
    (hstate : (rget s.lnk.ports p).state = 0 ∨ (rget s.lnk.ports p).state = 1)
    (h : (rget s.lnk.ports p).trainAt + 100000000 ≤ s.ns) : s.trainTimeout p.toNat =
      let t := s.setPort p { rget s.lnk.ports p with state := (rget s.lnk.ports p).alone }
      (if (rget s.lnk.ports p).alone = 3 then
        t.raise 0x0702 .warning [(1, p.toNat), (2, planId (rget s.lnk.ports p).planAct)] else t).tellPorts := by
  have hlow : ¬ 1 < (rget s.lnk.ports p).state.toNat := by
    obtain hs | hs := hstate <;> rw [hs] <;> decide
  simp only [State.trainTimeout, port_get, modPort_set]
  exact if_neg (by simp [htrained, hlow, hmain, h])

theorem retrain_due (hstate : (rget s.lnk.ports p).state = 2 ∨ (rget s.lnk.ports p).state = 3)
    (h : (rget s.lnk.ports p).trainAt + 10000000 ≤ s.ns) : s.retrain p.toNat =
      (s.setPort p { rget s.lnk.ports p with trainAt := s.ns }).reply 3 0x101 [p.toNat] := by
  simp only [State.retrain, port_get, modPort_set]
  exact if_pos ⟨hstate, h, hmain⟩

omit hmain in
theorem retrain_early (h : s.ns < (rget s.lnk.ports p).trainAt + 10000000) : s.retrain p.toNat = s := by
  simp only [State.retrain, port_get, modPort_set]
  exact if_neg fun hn => Nat.not_le.2 h hn.2.1

end

end

/-- The states of a neighbour's ports are kept at level 3 (R401, R404). -/
abbrev State.hearPeers (s : State) (p : Nat) (states : List (BitVec 4)) : State :=
  if (s.port p).level = 3 then s.modPort p fun k => { k with peerPorts := states } else s

section
variable {s : State} {p : BitVec 3} {states : List (BitVec 4)}

theorem hearPeers_local (h : (rget s.lnk.ports p).level = 3) :
    s.hearPeers p.toNat states = s.setPort p { rget s.lnk.ports p with peerPorts := states } := by
  rw [State.hearPeers, port_get, if_pos h, modPort_set]

theorem hearPeers_other (h : (rget s.lnk.ports p).level ≠ 3) : s.hearPeers p.toNat states = s := by
  rw [State.hearPeers, port_get, if_neg h]

end

theorem alone_edge {k : LnkPort} (h : planKind k.planAct = 1) : k.alone = 2 := if_pos h

theorem alone_absent {k : LnkPort} (h : planKind k.planAct ≠ 1) : k.alone = 3 := if_neg h

end Sys2Proof.Machine

open Sys2Proof Sys2Proof.Machine

/-- Settles O44: each message and timeout of training is a lemma about the port it names. -/
theorem linkTraining : Obligations.LinkTraining := by
  unfold Obligations.LinkTraining
  intro s p hp hon
  have hmain := portsOn_main s hon
  have hrun := withPort_next hp hon
  refine ⟨portUp_raises, portQuarantine_raises, fun htrained levels asym => hrun (s.laneTrained · levels asym) (laneTrained_offers hmain htrained levels asym),
    fun htrained hstate id port levels => ⟨fun h hpeer => ?_, fun h hpeer => ?_,
      fun h => hrun (s.discover · id port levels) (discover_rejected htrained hstate id port levels h)⟩,
    fun htrained => ⟨fun h => hrun (s.accept ·) ((accept_port htrained).trans (if_neg (ne_true_of_eq_false h))),
      fun h => hrun (s.accept ·) ((accept_port htrained).trans (if_pos h)), hrun (s.reject ·) (reject_port htrained)⟩,
    fun htrained hstate h => ⟨fun hplan => hrun (s.trainTimeout ·) ((trainTimeout_alone hmain htrained hstate h).trans ?_),
      fun hplan => hrun (s.trainTimeout ·) ((trainTimeout_alone hmain htrained hstate h).trans ?_)⟩,
    fun hstate => ⟨fun h => hrun (s.retrain ·) (retrain_due hmain hstate h), fun h => hrun (s.retrain ·) (retrain_early h)⟩,
    fun states => ⟨fun h => hrun (s.hearPeers · states) (hearPeers_local h),
      fun h => hrun (s.hearPeers · states) (hearPeers_other h)⟩⟩
  · exact hrun (s.discover · id port levels) ((discover_accepted htrained hstate id port levels h).trans (if_neg (ne_true_of_eq_false hpeer)))
  · exact hrun (s.discover · id port levels) ((discover_accepted htrained hstate id port levels h).trans (if_pos hpeer))
  · rw [alone_edge hplan]
    rfl
  · rw [alone_absent hplan]
    rfl

end

section
/-! PROOFS. Frames of a Morgo link and the liveness of a port (R387 to R396), port by port. -/

namespace Sys2Proof.Machine

section
variable {s : State} {p : BitVec 3}

/-! ### Frames (R388, R391) -/

section
variable (htrained : (rget s.lnk.ports p).trained = true) (hmain : s.pwr.main = true)
include htrained hmain

/-- The expected frame is taken and acknowledged, as far as its buffer has room. -/
theorem frame_expected (vc : Bool) (flit : List Byte) (mask : BitVec 32)
    (hroom : (if vc then (rget s.lnk.ports p).rx1 else (rget s.lnk.ports p).rx0).length < 512) :
    let k := rget s.lnk.ports p
    s.frame p.toNat true vc k.rxSeq flit mask [] [] = (s.setPort p
      { k with rxSeq := k.rxSeq + 1
               rx0 := if vc then k.rx0 else k.rx0 ++ [⟨vc, k.rxSeq, mask, flit⟩]
               rx1 := if vc then k.rx1 ++ [⟨vc, k.rxSeq, mask, flit⟩] else k.rx1 }).reply 3 2 [p.toNat, k.rxSeq.toNat] := by
  simp only [State.frame, LnkPort.corrected, port_get, modPort_set]
  rw [if_neg (by simp [htrained, hmain]), if_neg (by simp), if_neg (not_not_intro trivial), if_neg (Nat.not_le.2 hroom)]
  cases vc <;> rfl

/-- A frame with two symbols in error, or out of its turn, is answered by NAK. -/
theorem frame_refused {valid : Bool} {seq : BitVec 12} {a b : List (BitVec 4)} (vc : Bool) (flit : List Byte)
    (mask : BitVec 32) (h : 2 ≤ a.length ∨ 2 ≤ b.length ∨ valid = true ∧ seq ≠ (rget s.lnk.ports p).rxSeq) :
    let k := rget s.lnk.ports p
    s.frame p.toNat valid vc seq flit mask a b =
      (s.setPort p { k with replay := satInc k.replay }).reply 3 1 [p.toNat, k.rxSeq.toNat] := by
  simp only [State.frame, port_get, modPort_set]
  rw [if_neg (by simp [htrained, hmain]), if_pos h]

end

section
variable {seq : BitVec 12} {older newer : List Flit} {f : Flit} (hbuf : (rget s.lnk.ports p).buf = older ++ f :: newer)
    (holder : ∀ g ∈ older, g.seq ≠ seq) (hseq : f.seq = seq)
include hbuf holder hseq

/-- The frames from the one named on. -/
theorem buf_from : (rget s.lnk.ports p).buf.dropWhile (fun g => g.seq ≠ seq) = f :: newer := by
  rw [hbuf]
  exact drop_to _ older f newer (fun g hg => decide_eq_true (holder g hg)) (decide_eq_false (not_not_intro hseq))

theorem ack_frees : s.ack p.toNat seq = s.setPort p { rget s.lnk.ports p with buf := newer, replays := 0 } := by
  have hany : ((rget s.lnk.ports p).buf.any fun g => g.seq = seq) = true :=
    List.any_eq_true.2 ⟨f, by simp [hbuf], decide_eq_true hseq⟩
  simp only [State.ack, port_get, modPort_set, buf_from hbuf holder hseq]
  exact if_pos hany

theorem nak_replays (htrained : (rget s.lnk.ports p).trained = true) {n : Nat}
    (hn : n = if older = [] then (rget s.lnk.ports p).replays + 1 else 1) (h8 : n < 8) : s.nak p.toNat seq =
      (s.setPort p { rget s.lnk.ports p with buf := f :: newer, replays := n }).reply 3 0x100
        (p.toNat :: (f :: newer).map fun g => g.seq.toNat) := by
  have hwhole : (f :: newer).length = (rget s.lnk.ports p).buf.length ↔ older = [] := by
    rw [hbuf, List.length_append, ← List.length_eq_zero_iff]
    omega
  simp only [State.nak, port_get, modPort_set, buf_from hbuf holder hseq, hwhole, ← hn]
  rw [if_neg (by simp [htrained]), if_neg (Nat.not_le.2 h8)]

end

/-! ### Lanes (R392 to R394) -/

section
variable {lane : BitVec 4} {seq : BitVec 12}

section
variable (htrained : (rget s.lnk.ports p).trained = true) (hmain : s.pwr.main = true)
    (hfailing : (rget s.lnk.ports p).failing s.ns lane.toNat = true) (hlock : (rget s.lnk.ports p).lostLock < 3)
    (hmoves : ∀ m ∈ (rget s.lnk.ports p).movesRx, m.lane ≠ lane)
include htrained hmain hfailing hlock hmoves

/-- A failing lane that has not been moved yet, and has not lost its lock just now. -/
theorem laneFailing_unmoved : s.laneFailing p.toNat lane false seq =
    let k := rget s.lnk.ports p
    if k.sparesRx.toNat ≤ k.movesRx.length then
      (s.setPort p { k with laneErr := k.laneErr.erase lane.toNat }).raise 0x0706 .warning
        [(1, p.toNat), (1, 0), (1, lane.toNat)]
    else if (seq - k.rxSeq).toNat < 64 then s
    else (s.setPort p { k with movesRx := addMove k.rxSeq ⟨lane, seq⟩ k.movesRx }).reply 3 0x30
      [p.toNat, lane.toNat, seq.toNat] := by
  have hmoved : ((rget s.lnk.ports p).movesRx.any fun m => m.lane = lane) = false :=
    List.any_eq_false.2 fun m hm => by simpa using hmoves m hm
  simp only [State.laneFailing, port_get, modPort_set, Bool.false_eq_true, false_and, if_false]
  rw [if_neg (by simp [htrained, hmain]), if_neg (Nat.not_le.2 hlock), if_neg (by rw [hfailing, hmoved]; decide)]

theorem laneFailing_switches (hspare : (rget s.lnk.ports p).movesRx.length < (rget s.lnk.ports p).sparesRx.toNat)
    (hahead : 64 ≤ (seq - (rget s.lnk.ports p).rxSeq).toNat) : s.laneFailing p.toNat lane false seq =
      (s.setPort p { rget s.lnk.ports p with
        movesRx := addMove (rget s.lnk.ports p).rxSeq ⟨lane, seq⟩ (rget s.lnk.ports p).movesRx }).reply 3 0x30
        [p.toNat, lane.toNat, seq.toNat] :=
  (laneFailing_unmoved htrained hmain hfailing hlock hmoves).trans
    ((if_neg (Nat.not_le.2 hspare)).trans (if_neg (Nat.not_lt.2 hahead)))

theorem laneFailing_noSpare (hspare : (rget s.lnk.ports p).sparesRx.toNat ≤ (rget s.lnk.ports p).movesRx.length) :
    s.laneFailing p.toNat lane false seq =
      (s.setPort p { rget s.lnk.ports p with laneErr := (rget s.lnk.ports p).laneErr.erase lane.toNat }).raise 0x0706
        .warning [(1, p.toNat), (1, 0), (1, lane.toNat)] :=
  (laneFailing_unmoved htrained hmain hfailing hlock hmoves).trans (if_pos hspare)

end

theorem laneSwitch_named (htrained : (rget s.lnk.ports p).trained = true)
    (hspare : (rget s.lnk.ports p).movesTx.length < (rget s.lnk.ports p).sparesTx.toNat) : s.laneSwitch p.toNat lane seq =
      s.setPort p { rget s.lnk.ports p with
        movesTx := addMove (rget s.lnk.ports p).txSeq ⟨lane, seq⟩ (rget s.lnk.ports p).movesTx } := by
  simp only [State.laneSwitch, port_get, modPort_set]
  exact if_pos ⟨htrained, hspare⟩

end

section
variable {m : LaneMove} {rest : List LaneMove} (hrest : ∀ x ∈ rest, x.lane ≠ m.lane)
include hrest

/-- Moves of other lanes stay when a move is made. -/
theorem filter_moves : (m :: rest).filter (fun x => x.lane ≠ m.lane) = rest := by
  rw [List.filter_cons_of_neg (by simp)]
  exact List.filter_eq_self.2 fun x hx => decide_eq_true (hrest x hx)

theorem laneApply_transmit (hmoves : (rget s.lnk.ports p).movesTx = m :: rest)
    (hreached : ((rget s.lnk.ports p).txSeq - m.seq).toNat < 2048) : s.laneApply p.toNat true =
      let k := rget s.lnk.ports p
      ((s.setPort p
        { k with movesTx := rest, sparesTx := k.sparesTx - 1, laneMapTx := k.laneMapTx ||| (1 <<< m.lane.toNat) }).raise
          0x0705 .warning [(1, p.toNat), (1, 1), (1, m.lane.toNat), (1, (k.sparesTx - 1).toNat)]).reply 3 0x31
          [p.toNat, m.lane.toNat, m.seq.toNat] := by
  simp only [State.laneApply, State.moveTx, port_get, modPort_set, hmoves, if_true, filter_moves hrest]
  exact if_pos (decide_eq_true hreached)

/-- The receive direction of a port after a move, with its event. -/
abbrev State.movedRx (s : State) (p : BitVec 3) (m : LaneMove) (rest : List LaneMove) : State :=
  let k := rget s.lnk.ports p
  (s.setPort p { k with movesRx := rest, sparesRx := k.sparesRx - 1, laneMap := k.laneMap ||| (1 <<< m.lane.toNat)
                        noLock := setDel k.noLock m.lane.toNat, laneErr := k.laneErr.erase m.lane.toNat }).raise
    0x0705 .warning [(1, p.toNat), (1, 0), (1, m.lane.toNat), (1, (k.sparesRx - 1).toNat)]

section
variable (hmoves : (rget s.lnk.ports p).movesRx = m :: rest)
include hmoves

theorem moveRx_first : s.moveRx p.toNat m = s.movedRx p m rest := by
  simp only [State.moveRx, port_get, modPort_set, hmoves, filter_moves hrest]

theorem laneApply_receive (hreached : ((rget s.lnk.ports p).rxSeq - m.seq).toNat < 2048) :
    s.laneApply p.toNat false = s.movedRx p m rest := by
  simp only [State.laneApply, port_get, hmoves, moveRx_first hrest hmoves, Bool.false_eq_true, if_false]
  exact if_pos (decide_eq_true hreached)

theorem laneAck_receive : s.laneAck p.toNat m.lane = s.movedRx p m rest := by
  rw [State.laneAck, port_get, hmoves, List.find?_cons_of_pos (by simp)]
  exact moveRx_first hrest hmoves

end

end

/-! ### Heartbeats (R395, R411) -/

theorem sendHeartbeat_due (hup : (rget s.lnk.ports p).state = 5) (hwd : s.lnk.wdExpired = false)
    (h : (rget s.lnk.ports p).hbSent + 100000 ≤ s.ns) {d : Nat} (hd : s.lnk.distance = some d) :
    s.sendHeartbeat p.toNat = (s.setPort p { rget s.lnk.ports p with hbSent := s.ns }).reply 3 0x40
      [p.toNat, s.modId.toNat, s.rcv.state.toNat, d + 1] := by
  simp only [State.sendHeartbeat, port_get, modPort_set, hd]
  exact if_neg (by simp [hup, hwd, h])

/-- No heartbeat is sent once the watchdog has expired. -/
theorem sendHeartbeat_expired (hwd : s.lnk.wdExpired = true) : s.sendHeartbeat p.toNat = s :=
  if_pos (.inr (.inl hwd))

theorem heartbeat_up (hup : (rget s.lnk.ports p).state = 5) (hold : BitVec 4) (dist : Option (BitVec 6)) :
    s.heartbeat p.toNat hold dist = (s.setPort p { rget s.lnk.ports p with
      hbAt := s.ns, peerHold := hold, peerDist := dist.map BitVec.toNat }).chooseParent := by
  simp only [State.heartbeat, port_get, modPort_set]
  exact if_neg (not_not_intro hup)

/-! ### Loss of a port (R396) -/

section
variable (htrained : (rget s.lnk.ports p).trained = true)
include htrained

/-- A port that was UP goes ABSENT; a module without a job raises no hold. -/
theorem portDown_up (hjob : s.rcv.jobId = 0) (hup : (rget s.lnk.ports p).state = 5) (cause : Nat) : s.portDown p.toNat cause =
    ((s.setPort p ((rget s.lnk.ports p).untrain 3 s.ns)).tellPorts.raise 0x0704 .error
      [(1, p.toNat), (2, (rget s.lnk.ports p).peerId), (1, cause)]).colPaths := by
  simp only [State.portDown, port_get, modPort_set, hjob, hup, beq_self_eq_true, if_true, not_true_eq_false, if_false,
    ne_eq, false_and]
  exact if_neg (not_not_intro htrained)

theorem portDown_other (hup : (rget s.lnk.ports p).state ≠ 5) (cause : Nat) : s.portDown p.toNat cause =
    (s.setPort p ((rget s.lnk.ports p).untrain 0 s.ns)).tellPorts := by
  have hwas : ((rget s.lnk.ports p).state == 5) = false := beq_eq_false_iff_ne.2 hup
  simp only [State.portDown, port_get, modPort_set, hwas, Bool.false_eq_true, if_false, not_false_eq_true, if_true]
  exact if_neg (not_not_intro htrained)

end

/-- The command of a silent port. -/
abbrev State.heartbeatGone (s : State) (p : Nat) : State :=
  if (s.port p).state = 5 ∧ (s.port p).hbAt + 800000 ≤ s.ns then s.portDown p 2 else s

theorem heartbeatGone_due (hup : (rget s.lnk.ports p).state = 5) (h : (rget s.lnk.ports p).hbAt + 800000 ≤ s.ns) :
    s.heartbeatGone p.toNat = s.portDown p.toNat 2 := by
  rw [State.heartbeatGone, port_get, if_pos ⟨hup, h⟩]

theorem heartbeatGone_early (h : s.ns < (rget s.lnk.ports p).hbAt + 800000) : s.heartbeatGone p.toNat = s := by
  rw [State.heartbeatGone, port_get, if_neg fun hn => Nat.not_le.2 h hn.2]

/-! ### The watchdog (R395) -/

theorem watchdog_due (hmain : s.pwr.main = true) (h : s.lnk.wdFed + 100000 ≤ s.ns) :
    s.watchdog = { s with lnk := { s.lnk with wdExpired := true } } := by
  rw [State.watchdog, if_pos ⟨hmain, h⟩]

theorem watchdog_early (h : s.ns < s.lnk.wdFed + 100000) : s.watchdog = s := by
  rw [State.watchdog, if_neg fun hn => Nat.not_le.2 h hn.2]

theorem exec_probeReturn_one (hon : s.portsOn = true) {n : Nat} (h : s.lnk.probes = n + 1) : exec .probeReturn s =
    .next { s with lnk := { s.lnk with probes := n, wdFed := s.ns, wdExpired := false } } := by
  refine congrArg Host.Outcome.next ((if_pos ⟨hon, by rw [h]; exact Nat.succ_pos n⟩).trans ?_)
  rw [h, Nat.add_sub_cancel]

end

end Sys2Proof.Machine

open Sys2Proof Sys2Proof.Machine

/-- Settles O43: each row of a link is a lemma about its port. That a NAK acknowledges the frames before it (assumption
log 69), the direction codes of the lane events (log 70) and the 512 credits of a VC (log 20) are the model's choices. -/
theorem linkFramesAndLiveness : Obligations.LinkFramesAndLiveness := by
  unfold Obligations.LinkFramesAndLiveness
  refine ⟨fun s p hp hon => ?_, fun s p hp hon => ?_, fun s => ⟨fun hon => ⟨?_, fun n hn => exec_probeReturn_one hon hn⟩,
    fun hmain => ⟨fun h => congrArg Host.Outcome.next (watchdog_due hmain h),
      fun h => congrArg Host.Outcome.next (watchdog_early h)⟩⟩⟩
  · have hmain := portsOn_main s hon
    have hrun := withPort_next hp hon
    refine ⟨fun htrained seq flit mask valid vc a b => ⟨fun hseq hroom => ?_, fun h => ?_⟩,
      fun htrained seq older f newer hbuf holder hseq => ⟨?_, fun n hn h8 => ?_⟩, fun n => ⟨?_, ?_⟩,
      fun htrained lane seq => ⟨fun hfailing hlock hmoves => ⟨fun hspare hahead => ?_, fun hspare => ?_⟩, fun hspare => ?_⟩,
      fun m rest hmoves hrest hreached => ?_, fun m rest hmoves hrest => ⟨fun hreached => ?_, ?_⟩⟩
    · rw [hseq]
      exact hrun (s.frame · true vc _ flit mask [] []) (frame_expected htrained hmain vc flit mask hroom)
    · exact hrun (s.frame · valid vc seq flit mask a b) (frame_refused htrained hmain vc flit mask h)
    · exact hrun (s.ack · seq) (ack_frees hbuf holder hseq)
    · exact hrun (s.nak · seq) (nak_replays hbuf holder hseq htrained hn h8)
    · exact hrun (s.credit · false n.toNat) (modPort_set s p _)
    · exact hrun (s.credit · true n.toNat) (modPort_set s p _)
    · exact hrun (s.laneFailing · lane false seq)
        (laneFailing_switches htrained hmain hfailing hlock hmoves hspare hahead)
    · exact hrun (s.laneFailing · lane false seq) (laneFailing_noSpare htrained hmain hfailing hlock hmoves hspare)
    · exact hrun (s.laneSwitch · lane seq) (laneSwitch_named htrained hspare)
    · exact hrun (s.laneApply · true) (laneApply_transmit hrest hmoves hreached)
    · exact hrun (s.laneApply · false) (laneApply_receive hrest hmoves hreached)
    · exact hrun (s.laneAck · m.lane) (laneAck_receive hrest hmoves)
  · have hrun := withPort_next hp hon
    refine ⟨fun hup => ⟨fun hwd h d hd => hrun (s.sendHeartbeat ·) (sendHeartbeat_due hup hwd h hd),
        fun hwd => hrun (s.sendHeartbeat ·) (sendHeartbeat_expired hwd),
        fun hold dist => hrun (s.heartbeat · hold dist) (heartbeat_up hup hold dist)⟩,
      fun htrained hjob => ⟨fun hup h => ?_, fun _ h => hrun (s.heartbeatGone ·) (heartbeatGone_early h),
        fun hup => hrun (s.portDown · 0) (portDown_up htrained hjob hup 0),
        fun hup => hrun (s.portDown · 0) (portDown_other htrained hup 0)⟩⟩
    exact hrun (s.heartbeatGone ·) ((heartbeatGone_due hup h).trans (portDown_up htrained hjob hup 2))
  · exact congrArg Host.Outcome.next (if_pos hon)

end

section
/-! PROOFS. The mailbox messages about queues, settings and the event ring (R363, R368 to R370, R374, R375). -/

namespace Sys2Proof.Machine

/-- A request that must wait stays in the mailbox (R370). -/
theorem exec_message_waits {c : Instr} {opc len : Nat} {s : State} {f : State → MbRes}
    (hrow : exec c s = mbRow opc len s f) (hasked : s.Asked opc len) (hf : f s = .wait s) : exec c s = .next s := by
  rw [hrow, mbRow_eq opc len s f hasked, hf]

/-- While the device is not attached, a message other than ATTACH is answered with status 2 (R378). -/
theorem exec_message_detached {c : Instr} {opc len : Nat} {s : State} {f : State → MbRes}
    (hrow : exec c s = mbRow opc len s f) (hopc : opc ≠ 1) (hbusy : s.hif.mbBusy = true) (hserved : s.mbServed = true)
    (hreq : Mem.readNat 0 s.hif.mbReq 0 1 = opc) (hattached : s.hif.attached = false) :
    exec c s = .next (s.mbAnswer 2 []) := by
  rw [hrow, mbRow, if_neg (not_or_intro (not_not_intro hbusy) (not_or_intro (not_not_intro hserved) (not_not_intro hreq))),
    if_pos ⟨hopc, ne_true_of_eq_false hattached⟩]

section
variable {s : State}

theorem undefinedIf_ok (h : s.queueArgsOk = true) : (s.undefinedIf !s.queueArgsOk) = s := by
  rw [h]
  rfl

/-! ### QUEUE_CREATE and QUEUE_DELETE -/

theorem queueCreate_outside (hq : 64 ≤ s.mbArg 0 1) : s.queueCreate = .done 3 [] s := if_pos hq

section
variable (hq : s.mbArg 0 1 < 64)
include hq

theorem queueCreate_taken (h : (s.queue (s.mbArg 0 1)).exists' = true) : s.queueCreate = .done 4 [] s :=
  (if_neg (Nat.not_le.2 hq)).trans (if_pos h)

theorem queueCreate_free (h : (s.queue (s.mbArg 0 1)).exists' = false) (hargs : s.queueArgsOk = true) :
    s.queueCreate = .done 0 [] (s.modQueue (s.mbArg 0 1) fun _ => { s.setQueue HostQueue.init with state := .active }) := by
  rw [State.queueCreate, undefinedIf_ok hargs]
  exact (if_neg (Nat.not_le.2 hq)).trans (if_neg (ne_true_of_eq_false h))

end

theorem queueDelete_unknown (h : 64 ≤ s.mbArg 0 1 ∨ (s.queue (s.mbArg 0 1)).exists' = false) :
    s.queueDelete = .done 3 [] s :=
  if_pos (h.imp_right ne_true_of_eq_false)

section
variable (hq : s.mbArg 0 1 < 64) (hexists : (s.queue (s.mbArg 0 1)).exists' = true)
include hq hexists

/-- The queue a request names is one that exists. -/
theorem not_unknown : ¬ (64 ≤ s.mbArg 0 1 ∨ ¬ (s.queue (s.mbArg 0 1)).exists' = true) :=
  not_or_intro (Nat.not_le.2 hq) (not_not_intro hexists)

theorem queueDelete_known {n r : Nat} {s1 : State} (h : s.deleteQueue (s.mbArg 0 1) = (n, r, s1)) :
    s.queueDelete = .done 0 (leBytes 2 n ++ leBytes 2 r) s1 := by
  rw [State.queueDelete, h]
  exact if_neg (not_unknown hq hexists)

/-! ### QUEUE_REBIND and RESUME -/

theorem queueRebind_running (h1 : (s.queue (s.mbArg 0 1)).state ≠ .haltedCpl)
    (h2 : (s.queue (s.mbArg 0 1)).state ≠ .haltedFetch) : s.queueRebind = .done 2 [] s :=
  (if_neg (not_unknown hq hexists)).trans (if_pos ⟨h1, h2⟩)

section
variable (hhalted : (s.queue (s.mbArg 0 1)).state = .haltedCpl ∨ (s.queue (s.mbArg 0 1)).state = .haltedFetch)
include hhalted

theorem queueRebind_halted (hargs : s.queueArgsOk = true) (hwriting : s.writing (s.mbArg 0 1) = false) :
    s.queueRebind = .done 0 [] (s.modQueue (s.mbArg 0 1) s.setQueue) := by
  rw [State.queueRebind, undefinedIf_ok hargs]
  exact (if_neg (not_unknown hq hexists)).trans
    ((if_neg fun hn => hhalted.elim hn.1 hn.2).trans (if_neg (ne_true_of_eq_false hwriting)))

theorem queueRebind_writing (hwriting : s.writing (s.mbArg 0 1) = true) : s.queueRebind = .wait s :=
  (if_neg (not_unknown hq hexists)).trans ((if_neg fun hn => hhalted.elim hn.1 hn.2).trans (if_pos hwriting))

end

theorem resume_active (h : (s.queue (s.mbArg 0 1)).state = .active) : s.resume = .done 0 (leBytes 2 0) s :=
  (if_neg (not_unknown hq hexists)).trans (if_pos h)

theorem resume_halted (h : (s.queue (s.mbArg 0 1)).state ≠ .active) :
    let q := s.mbArg 0 1
    let n := (s.queue q).ring.length + (s.queue q).waiting.length
    let late := (s.hif.writes.filter fun w => w.queue == q && w.held).length
    let s1 := s.modQueue q fun k =>
      { k with state := .active, replay := if n = 0 then 0 else n + late, replayed := n, fullRaised := false }
    s.resume = .done 0 (leBytes 2 (min 0xFFFF n)) (s1.drainRing q).takeTurns :=
  (if_neg (not_unknown hq hexists)).trans (if_neg h)

end

/-! ### CONFIG_SET and EVENT_RING_SET -/

theorem eventRingSet_off (hfeat : s.hif.feat 5 = true) (hwriting : s.writing 64 = false) (hbase : s.mbArg 0 8 = 0) :
    s.eventRingSet = .done 0 [] { s with hif := { s.hif with evBase := 0, evQueue := [], evDrops := 0 } } :=
  (if_neg (not_not_intro hfeat)).trans ((if_neg (ne_true_of_eq_false hwriting)).trans (if_pos hbase))

/-- An OPC outside 1 to 0x10 is answered UNKNOWN. -/
theorem exec_mbUnknownOpc_reserved (hbusy : s.hif.mbBusy = true) (hserved : s.mbServed = true)
    (h : Mem.readNat 0 s.hif.mbReq 0 1 = 0 ∨ 0x10 < Mem.readNat 0 s.hif.mbReq 0 1) :
    exec .mbUnknownOpc s = .next (s.mbAnswer 1 []) := by
  refine if_neg ?_
  rintro (hn | hn | ⟨hlow, hhigh⟩)
  · exact hn hbusy
  · exact hn hserved
  · exact h.elim (fun h0 => Nat.not_le.2 (by rw [h0]; decide) hlow) (Nat.not_lt.2 hhigh)

end

end Sys2Proof.Machine

open Sys2Proof Sys2Proof.Machine

/-- Settles O41: a request is answered with the status and the effect of the function that serves its message. That a
QUEUE_REBIND with an unanswered write leaves BUSY set is the model's choice (assumption log 60). -/
theorem mailboxQueueMessages : Obligations.MailboxQueueMessages := by
  unfold Obligations.MailboxQueueMessages
  intro s q k stops
  refine ⟨fun hasked => ⟨fun hq => ?_, fun hq hk => ?_, fun hq hk hargs => ?_⟩,
    fun hasked => ⟨fun h => ?_, fun hq hk n r s1 h => ?_⟩,
    fun hasked hq hk => ⟨fun h1 h2 => ?_, fun h hargs => ⟨fun hw => ?_, fun hw => ?_⟩⟩,
    fun hasked hq hk => ⟨fun h => ?_, fun h => ?_⟩, fun hasked => ?_, fun hasked hfeat hw hbase => ?_, ?_, ?_⟩
  · exact exec_message rfl hasked (queueCreate_outside hq)
  · exact exec_message rfl hasked (queueCreate_taken hq hk)
  · exact exec_message rfl hasked (queueCreate_free hq hk hargs)
  · exact exec_message rfl hasked (queueDelete_unknown h)
  · exact exec_message rfl hasked (queueDelete_known hq hk h)
  · exact exec_message rfl hasked (queueRebind_running hq hk h1 h2)
  · exact exec_message rfl hasked (queueRebind_halted hq hk h hargs hw)
  · exact exec_message_waits rfl hasked (queueRebind_writing hq hk h hw)
  · exact exec_message rfl hasked (resume_active hq hk h)
  · exact exec_message rfl hasked (resume_halted hq hk h)
  · exact exec_message (f := State.configSet) rfl hasked rfl
  · exact exec_message rfl hasked (eventRingSet_off hfeat hw hbase)
  · intro c hc hbusy hserved hreq hattached
    have detached {c' : Instr} {opc len : Nat} {f : State → MbRes} (hrow : exec c' s = mbRow opc len s f) (hopc : opc ≠ 1)
        (hreq : Mem.readNat 0 s.hif.mbReq 0 1 = opc) : exec c' s = .next (s.mbAnswer 2 []) :=
      exec_message_detached hrow hopc hbusy hserved hreq hattached
    simp only [List.mem_cons, List.not_mem_nil, or_false] at hc
    obtain rfl | rfl | rfl | rfl | rfl | rfl | rfl | rfl | rfl | rfl | rfl := hc
    · exact detached (f := fun s => .done 0 [] (s.detach 1)) rfl (by decide) hreq
    · exact detached (f := State.queueCreate) rfl (by decide) hreq
    · exact detached (f := State.queueDelete) rfl (by decide) hreq
    · exact detached (f := State.queueRebind) rfl (by decide) hreq
    · exact detached (f := State.resume) rfl (by decide) hreq
    · exact detached (f := State.taskAbort) rfl (by decide) hreq
    · exact detached (f := State.tensorFree) rfl (by decide) hreq
    · exact detached (f := State.tensorUnpin) rfl (by decide) hreq
    · exact detached (f := State.tensorQuery) rfl (by decide) hreq
    · exact detached (f := State.configSet) rfl (by decide) hreq
    · exact detached (f := State.eventRingSet) rfl (by decide) hreq
  · exact exec_mbUnknownOpc_reserved

end

section
/-! PROOFS. Heads, the lease, the link and PERST, and host accesses that fail (R355, R361, R363, R374 to R376, R381, R382,
R550). -/

namespace Sys2Proof.Machine

section
variable {s : State}

/-! ### Heads (R363, R375) -/

theorem exec_hifCqHead (hup : s.hostUp = true) (q : BitVec 6) (i : BitVec 16) :
    exec (.hifCqHead q i) s = .next (s.cqHead q.toNat i) :=
  congrArg Host.Outcome.next (if_pos hup)

theorem exec_hifEvHead (hup : s.hostUp = true) (i : BitVec 16) : exec (.hifEvHead i) s = .next (s.evHead i) :=
  congrArg Host.Outcome.next (if_pos hup)

theorem evHeadOk_iff (h : HifState) (i : BitVec 16) : h.evHeadOk i = true ↔ h.evBase = 0 ∨
    ringOk h.evSlots h.evHead.toNat i.toNat ((h.evTail.toNat + h.evSlots - h.evHead.toNat) % h.evSlots) = true := by
  rw [HifState.evHeadOk, Bool.or_eq_true, beq_iff_eq]

theorem evHead_ok {i : BitVec 16} (h : s.hif.evHeadOk i = true) : s.evHead i = s.evHeadWrite i := by
  rw [State.evHead, h]
  rfl

theorem evHead_bad {i : BitVec 16} (h : s.hif.evHeadOk i = false) : s.evHead i = s.undefinedAll.evHeadWrite i := by
  rw [State.evHead, h]
  rfl

/-! ### The lease (R361, R381, R382) -/

theorem renewLease_living (hlease : s.hif.lease = true) (h : s.ns ≤ s.hif.leaseAt + 2000000000) :
    s.renewLease s.hif.leaseNo = { s with hif := { s.hif with leaseAt := s.ns } } := by
  rw [State.renewLease]
  exact (if_neg (not_not_intro rfl)).trans (if_pos ⟨hlease, h⟩)

/-- A renewal that comes too late is noted in HIF_HWERR. -/
theorem renewLease_late (h : s.hif.lease = true ∧ s.hif.leaseAt + 2000000000 < s.ns ∨
    s.hif.lease = false ∧ s.hif.expired = true) :
    s.renewLease s.hif.leaseNo = { s with hif := { s.hif with hwerr := s.hif.hwerr ||| 4 } } := by
  rw [State.renewLease]
  refine (if_neg (not_not_intro rfl)).trans ((if_neg fun hn => ?_).trans (if_pos (h.imp And.left And.right)))
  exact h.elim (fun hlate => Nat.not_le.2 hlate.2 hn.2) (fun hgone => ne_true_of_eq_false hgone.1 hn.1)

theorem renewLease_other {n : BitVec 32} (h : n ≠ s.hif.leaseNo) : s.renewLease n = s := if_pos h

/-- A lease that has run out. -/
abbrev State.leaseGone (s : State) : State := { s with hif := { s.hif with lease := false, expired := true } }

theorem leaseExpiry_due (hmain : s.pwr.main = true) (hlease : s.hif.lease = true)
    (h : s.hif.leaseAt + 2000000000 ≤ s.ns) : s.leaseExpiry = s.leaseGone.lateDetach := by
  rw [State.leaseExpiry]
  exact (if_neg (not_not_intro hmain)).trans (if_pos ⟨hlease, h⟩)

theorem leaseGone_detaches (hattached : s.hif.attached = true) (hfw : s.hif.fwUp = true) :
    s.leaseGone.lateDetach = s.leaseGone.detach 0 :=
  if_pos ⟨rfl, hattached, hfw⟩

/-- Without firmware the detachment waits. -/
theorem leaseGone_waits (hfw : s.hif.fwUp = false) : s.leaseGone.lateDetach = s.leaseGone :=
  if_neg fun hn => ne_true_of_eq_false hfw hn.2.2

/-! ### The CXL link and PERST (R355, R550) -/

theorem exec_cxlLinkChange {w r : Nat} (hshape : linkShape w r = true) (up : Bool) :
    exec (.cxlLinkChange up w r) s = .next (s.linkChange up w r) :=
  if_pos hshape

section
variable (hon : s.portsOn = true)
include hon

theorem linkChange_down (hup : s.hif.linkUp = true) (w r : Nat) : s.linkChange false w r =
    ({ s with hif := { s.hif with linkUp := false, width := w, rate := r } } : State).raise 0x0607 .warning
      [(1, w), (1, r), (1, 0)] :=
  if_neg (by simp [hon, hup])

theorem linkChange_up (hperst : s.hif.perst = false) (w r : Nat) : s.linkChange true w r =
    ({ s with hif := { s.hif with linkUp := true, width := w, rate := r } } : State).raise 0x0607 .warning
      [(1, w), (1, r), (1, 1)] :=
  if_neg (by simp [hon, hperst])

/-- PERST takes the link down with the width and the rate it had. -/
theorem perstAssert_down (hup : s.hif.linkUp = true) : s.perstAssert =
    ({ s with hif := { s.hif with perst := true, linkUp := false } } : State).raise 0x0607 .warning
      [(1, s.hif.width), (1, s.hif.rate), (1, 0)] :=
  (if_pos ⟨portsOn_main s hon, hup⟩).trans
    (linkChange_down (s := { s with hif := { s.hif with perst := true } }) hon hup s.hif.width s.hif.rate)

end

/-! ### Fetches that fail (R374) -/

section
variable {f : Fetch} {noAnswer : Bool} (hfetch : s.hif.fetches = [f]) (hfw : s.hif.fwUp = true)
    (hlate : noAnswer = true → f.issued + 1000000 ≤ s.ns) (hup : noAnswer = false → s.hostUp = true)
include hfetch hfw hlate hup

/-- The state after the fetch of a turn has ended. -/
abbrev State.fetchOver (s : State) (f : Fetch) : State :=
  ({ s with hif := { s.hif with fetches := [] } } : State).turnOver f

theorem fetchFailed_answered : s.fetchFailed noAnswer =
    (if (s.queue f.source).state = .active ∧ f.live = true then (s.fetchOver f).haltQueue f.source .haltedFetch
        (if noAnswer then 2 else 1) ((s.queue f.source).sqBase + 64 * (s.queue f.source).sqHead.toNat)
      else s.fetchOver f).takeTurns.settleIdle := by
  simp only [State.fetchFailed, hfetch]
  refine if_neg (not_or_intro (not_not_intro hfw) (not_or_intro (fun hn => ?_) (fun hn => ?_)))
  · exact Nat.not_le.2 hn.2 (hlate hn.1)
  · exact hn.2 (hup (eq_false_of_ne_true hn.1))

theorem fetchFailed_halts (hactive : (s.queue f.source).state = .active) (hlive : f.live = true) : s.fetchFailed noAnswer =
    ((s.fetchOver f).haltQueue f.source .haltedFetch (if noAnswer then 2 else 1)
      ((s.queue f.source).sqBase + 64 * (s.queue f.source).sqHead.toNat)).takeTurns.settleIdle := by
  rw [fetchFailed_answered hfetch hfw hlate hup, if_pos ⟨hactive, hlive⟩]

/-- A fetch of a queue that has left ACTIVE fails without more. -/
theorem fetchFailed_void (h : (s.queue f.source).state ≠ .active ∨ f.live = false) :
    s.fetchFailed noAnswer = (s.fetchOver f).takeTurns.settleIdle := by
  rw [fetchFailed_answered hfetch hfw hlate hup, if_neg fun hn => h.elim (· hn.1) fun hv => ne_true_of_eq_false hv hn.2]

end

/-! ### Record writes that fail (R374, R375) -/

section
variable {w : RecWrite} {noAnswer : Bool}
    (hlate : noAnswer = true → w.issued + 1000000 ≤ s.ns) (hup : noAnswer = false → s.hostUp = true)
include hlate hup

/-- The state without the first unanswered write of a queue. -/
abbrev State.writeGone (s : State) (q : Nat) : State :=
  { s with hif := { s.hif with writes := s.hif.writes.eraseP fun w => w.queue = q } }

/-- The failed record becomes the first of its overflow ring, and the queue halts. -/
theorem recordFailed_halts {q : Nat} {r : CplRec} (hfind : (s.hif.writes.find? fun w => w.queue = q) = some w)
    (hrcd : w.rcd = some r) (hfw : s.hif.fwUp = true) (hroom : (s.queue q).ring.length < 4096)
    (hstate : (s.queue q).state ≠ .haltedCpl) (hwaiting : (s.queue q).waiting = []) : s.recordFailed q noAnswer =
      ((s.writeGone q).modQueue q fun k => { k with ring := r :: k.ring }).haltQueue q .haltedCpl
        (if noAnswer then 2 else 1) w.addr := by
  have hfull : (r :: (s.queue q).ring).length ≤ 4096 := hroom
  have hring : ((s.writeGone q).modQueue q fun k =>
      { k with ring := (r :: k.ring).take 4096, waiting := (r :: k.ring).drop 4096 ++ k.waiting }) =
      (s.writeGone q).modQueue q fun k => { k with ring := r :: k.ring } := by
    refine modQueue_congr _ _ _ _ ?_
    have hq : (s.writeGone q).queue q = s.queue q := rfl
    simp only [hq, List.take_of_length_le hfull, List.drop_of_length_le hfull, hwaiting, List.append_nil]
  simp only [State.recordFailed, hfind, hrcd]
  rw [if_neg, hring, if_neg hstate]
  rintro (hn | hn | hn)
  · exact Nat.not_le.2 hn.2 (hlate hn.1)
  · exact hn.2 (hup (eq_false_of_ne_true hn.1))
  · exact hn hfw

/-- A record of the event ring whose write fails is dropped and counted. -/
theorem eventFailed_drops (hfind : (s.hif.writes.find? fun w => w.queue = 64) = some w) (hempty : s.hif.evQueue = []) :
    let lt := leNat (w.data.take 8)
    s.eventFailed noAnswer = { s with hif := { s.hif with
      writes := s.hif.writes.eraseP (fun w => w.queue = 64), evDrops := s.hif.evDrops + w.drops + 1
      evDropLt := if w.drops ≠ 0 then w.dropLt else if s.hif.evDrops ≠ 0 then min s.hif.evDropLt lt else lt } } := by
  simp only [State.eventFailed, hfind]
  rw [if_neg, if_pos hempty]
  rintro (hn | hn)
  · exact Nat.not_le.2 hn.2 (hlate hn.1)
  · exact hn.2 (hup (eq_false_of_ne_true hn.1))

end

/-! ### The coalescing timer (R376) -/

theorem coalesceTimeout_sends {q : Nat} (hfeat : s.hif.feat 6 = true) (hcount : (s.queue q).count ≠ 0)
    (htime : (s.queue q).time ≠ 0) (hsince : (s.queue q).since ≠ 0)
    (h : (s.queue q).firstAt + 1000 * (s.queue q).time ≤ s.ns) (hdetached : s.hif.detached = false)
    (hruns : s.dispRuns = true) :
    s.coalesceTimeout q = (s.modQueue q fun k => { k with since := 0 }).sendVector (s.queue q).vector :=
  if_pos ⟨hfeat, hcount, htime, hsince, h, ne_true_of_eq_false hdetached, hruns⟩

end

end Sys2Proof.Machine

open Sys2Proof Sys2Proof.Machine

/-- Settles O40: each head, each event of the lease and the link, and each access that fails has its lemma. What a head
out of range leaves (assumption log 16) and that an event record whose write fails is dropped and counted (log 32) are
the model's choices. -/
theorem hostHeadsLeaseAndFailures : Obligations.HostHeadsLeaseAndFailures := by
  unfold Obligations.HostHeadsLeaseAndFailures
  refine ⟨fun s hup => ⟨fun q i => ⟨fun h => ?_, fun h => ?_⟩, fun i => ⟨fun h => ?_, fun h => ?_⟩,
      fun n => ⟨?_, ?_, fun h => ?_⟩, fun hmain hlease h hattached => ⟨fun hfw => ?_, fun hfw => ?_⟩,
      fun hon hlink w r hshape => ⟨?_, ?_, fun hperst => ?_⟩, rfl⟩,
    fun s => ⟨fun f noAnswer hfetch hfw hlate hhost => ⟨fun hactive hlive => ?_, fun h => ?_⟩,
      fun q w r noAnswer hfind hrcd hfw hlate hhost hroom hstate hwaiting => ?_,
      fun w noAnswer hfind hempty hlate hhost => ?_, fun q hfeat hcount htime hsince h hdetached hruns => ?_⟩⟩
  · exact (exec_hifCqHead hup q i).trans (congrArg Host.Outcome.next (cqHead_ok _ _ _ h))
  · exact (exec_hifCqHead hup q i).trans (congrArg Host.Outcome.next (cqHead_bad _ _ _ h))
  · exact (exec_hifEvHead hup i).trans (congrArg Host.Outcome.next (evHead_ok ((evHeadOk_iff _ _).2 h)))
  · exact (exec_hifEvHead hup i).trans
      (congrArg Host.Outcome.next (evHead_bad (eq_false_of_ne_true (mt (evHeadOk_iff _ _).1 h))))
  · rintro rfl hlease h
    exact congrArg Host.Outcome.next ((if_pos hup).trans (renewLease_living hlease h))
  · rintro rfl h
    exact congrArg Host.Outcome.next ((if_pos hup).trans (renewLease_late h))
  · exact congrArg Host.Outcome.next ((if_pos hup).trans (renewLease_other h))
  · exact congrArg Host.Outcome.next ((leaseExpiry_due hmain hlease h).trans (leaseGone_detaches hattached hfw))
  · exact congrArg Host.Outcome.next ((leaseExpiry_due hmain hlease h).trans (leaseGone_waits hfw))
  · exact (exec_cxlLinkChange hshape false).trans (congrArg Host.Outcome.next (linkChange_down hon hlink w r))
  · exact congrArg Host.Outcome.next (perstAssert_down hon hlink)
  · exact (exec_cxlLinkChange hshape true).trans (congrArg Host.Outcome.next (linkChange_up hon hperst w r))
  · exact congrArg Host.Outcome.next (fetchFailed_halts hfetch hfw hlate hhost hactive hlive)
  · exact congrArg Host.Outcome.next (fetchFailed_void hfetch hfw hlate hhost h)
  · exact congrArg Host.Outcome.next (recordFailed_halts hlate hhost hfind hrcd hfw hroom hstate hwaiting)
  · exact congrArg Host.Outcome.next (eventFailed_drops hlate hhost hfind hempty)
  · exact congrArg Host.Outcome.next (coalesceTimeout_sends hfeat hcount htime hsince h hdetached hruns)

end

section
/-! PROOFS. Packets of a collective operation (R423 to R438): what DATA, ACK and ABORT do to an operation in progress, one
that has ended and one that is not admitted yet, its timeout, a contribution, and the commit of the group table. -/

namespace Sys2Proof.Machine

section
variable {s : State} {h : ColHdr} {o : ColOp}

/-! ### The operation a packet names (R424, R433, R435) -/

theorem withOp_match (hfind : s.col.find h.group h.n h.slot = some o) (hver : h.ver = o.entry.f 0 15 0) (waits : State)
    (f : ColOp → State) : s.withOp h waits f = f o := by
  simp only [State.withOp, hfind]
  exact if_pos hver.symm

/-- A packet of another version ends the operation with cause 3. -/
theorem withOp_mismatch (hfind : s.col.find h.group h.n h.slot = some o) (hver : h.ver ≠ o.entry.f 0 15 0) (waits : State)
    (f : ColOp → State) : s.withOp h waits f = ((s.verEvent h (o.entry.f 0 15 0)).endOp o 3 s.own).admitAll := by
  have hsaid : (s.verEvent h (o.entry.f 0 15 0)).col.find h.group h.n h.slot = some o := by
    rw [State.verEvent, State.raise_col, hfind]
  simp only [State.withOp, hfind, State.verMismatch, hsaid]
  exact if_neg hver.symm

/-- An operation that is gone is not in progress. -/
theorem opGone_find {g n slot : Nat} (hgone : s.opGone g n slot = true) : s.col.find g n slot = none := by
  simp only [State.opGone, Bool.and_eq_true] at hgone
  exact Option.isNone_iff_eq_none.1 hgone.1

theorem withOp_gone (hmode : (s.group h.group).mode ≠ 0) (hgone : s.opGone h.group h.n h.slot = true) (waits : State)
    (f : ColOp → State) : s.withOp h waits f = s := by
  simp only [State.withOp, opGone_find hgone]
  exact if_pos ⟨hmode, hgone⟩

theorem withOp_early (hmode : (s.group h.group).mode ≠ 0) (hgone : s.opGone h.group h.n h.slot = false)
    (hfind : s.col.find h.group h.n h.slot = none) (hver : h.ver = (s.group h.group).f 0 15 0) (waits : State)
    (f : ColOp → State) : s.withOp h waits f = waits := by
  simp only [State.withOp, hfind]
  rw [if_neg fun hn => ne_true_of_eq_false hgone hn.2, if_neg fun hn => hn.elim hmode (· hver.symm)]

/-! ### The three packets (R432, R433) -/

section
variable (hruns : s.memRuns = true)
include hruns

theorem colData_runs (off : Nat) (bytes : List (Byte × Bool)) : s.colData h off bytes =
    s.withOp h { s with col := { s.col with early := s.col.early ++ [⟨h, off, bytes⟩] } }
      fun o => (s.takeData o ⟨h, off, bytes⟩).colPaths :=
  if_neg (not_not_intro hruns)

theorem colAck_runs : s.colAck h = s.withOp h s s.acked := if_pos hruns

section
variable (hmode : (s.group h.group).mode ≠ 0)
include hmode

theorem colAbort_found (hfind : s.col.find h.group h.n h.slot = some o) :
    s.colAbort h = (s.endOp o 1 h.src).admitAll := by
  rw [State.colAbort, if_neg (not_or_intro (not_not_intro hruns) hmode)]
  simp only [hfind]

theorem colAbort_gone (hgone : s.opGone h.group h.n h.slot = true) : s.colAbort h = s := by
  rw [State.colAbort, if_neg (not_or_intro (not_not_intro hruns) hmode)]
  simp only [opGone_find hgone]
  exact if_pos hgone

end

end

/-! ### Timeouts (R433) -/

section
variable {g n slot : Nat} (hfind : s.col.find g n slot = some o)
include hfind

theorem colTimeout_early (hns : s.ns < o.since + s.col.timeout) : s.colTimeout g n slot = s := by
  simp only [State.colTimeout, hfind]
  exact if_pos (.inr (.inr hns))

theorem colTimeout_ends (hruns : s.memRuns = true) (hns : o.since + s.col.timeout ≤ s.ns)
    (hfinished : o.finished ((s.groupStages o.entry).getD []) = false) :
    s.colTimeout g n slot = (s.endOp o 2 s.own).admitAll := by
  simp only [State.colTimeout, hfind]
  exact if_neg (not_or_intro (not_not_intro hruns)
    (not_or_intro (ne_true_of_eq_false hfinished) (Nat.not_lt.2 hns)))

end

/-! ### Contributions (R424) -/

section
variable {c : Contribution} {rest : List Contribution} (hcoming : s.col.coming = c :: rest)
include hcoming

theorem mixed_same (hmixed : s.mixedGroup = false) : s.mixed = s := by
  simp only [State.mixed, hcoming]
  exact if_neg (ne_true_of_eq_false hmixed)

/-- The state in which the oldest contribution has its number. -/
abbrev State.numbered (s : State) (c : Contribution) (rest : List Contribution) : State :=
  { s with col := { s.col with
    issued := s.col.issued.put (c.group * 1024 + c.slot) (s.col.issued.at 0 (c.group * 1024 + c.slot) + 1), coming := rest } }

theorem contribution_numbered : s.contribution =
    let n := s.col.issued.at 0 (c.group * 1024 + c.slot)
    let t := s.numbered c rest
    if t.opGone c.group n c.slot then t.endPart c stPath
    else (({ t with col := { t.col with waiting := t.col.waiting ++ [(c, n)] } } : State).admitAll).colPaths := by
  simp only [State.contribution, hcoming, ColState.number]

end

end

/-! ### The data of a share (R430) -/

/-- Bytes that lie in their share are combined with what is there, or stored in a gather phase. -/
theorem take_data {o : ColOp} {st : List RingStage} {h : ColHdr} {off : Nat} {bytes : List (Byte × Bool)} {r : RingStage}
    {i : Nat} (hcop : o.cop ≠ 5) (hstage : st.zipIdx.find? (fun x => x.1.code = h.code) = some (r, i))
    (hfit : max (cutShare o.granule (o.region st i) r.n (ringArrival r h.gather h.step)).1 (256 * off) + bytes.length ≤
      (cutShare o.granule (o.region st i) r.n (ringArrival r h.gather h.step)).2) :
    let a := max (cutShare o.granule (o.region st i) r.n (ringArrival r h.gather h.step)).1 (256 * off)
    (o.take st h off bytes).data = splice o.data a (if h.gather then bytes
      else combineData o.fmt o.cfn ((o.data.drop a).take bytes.length) bytes) := by
  have hall := List.take_of_length_le (Nat.le_sub_of_add_le' hfit)
  simp only [ColOp.take, hcop, if_false, hstage, hall, or_false]

/-! ### The commit of the group table (R423) -/

section
variable {c : ColState} (hfault : ∀ e ∈ c.shadow, e.2.fault = none)
include hfault

/-- A table without faults is taken as it is. -/
theorem commit_table : (c.shadow.map fun e => (e.1, if e.2.fault.isSome then [] else e.2)) = c.shadow := by
  conv_rhs => rw [← List.map_id c.shadow]
  refine List.map_congr_left fun e he => ?_
  rw [hfault e he]
  rfl

theorem commit_noFaults : (c.shadow.filterMap fun e => e.2.fault.map fun r => (e.1, r)) = [] :=
  List.filterMap_eq_nil_iff.2 fun e he => by rw [hfault e he, Option.map_none]

end

theorem commitGroups_sound {s : State} (hfault : ∀ e ∈ s.col.shadow, e.2.fault = none)
    (hsize : (s.col.shadow.map fun e => if e.2.mode = 0 then 0 else e.2.nwords).sum ≤ 1048576)
    (hver : ∀ k, GEntry.ver (s.col.active.at [] k) = GEntry.ver (s.col.shadow.at [] k)) : s.commitGroups =
      ({ s with col := { s.col with active := s.col.shadow, gtVer := s.col.gtVer + 1 } } : State).raise 0x0802 .info
        [(4, (s.col.gtVer + 1).toNat), (2, 0)] := by
  simp only [State.commitGroups, commit_table hfault, commit_noFaults hfault, hver, ne_eq, not_true_eq_false,
    decide_false, List.filter_false, List.foldl_nil, List.length_nil]
  exact if_neg (Nat.not_lt.2 hsize)

end Sys2Proof.Machine

open Sys2Proof Sys2Proof.Machine

/-- Settles O47: a packet acts through the operation it names, by version and by what has become of it; the timeout, a
contribution and the group table have lemmas of their own. That an early DATA packet waits at the engine's input
(assumption log 75) and that a commit of the group table is one step (log 46) are the model's choices. -/
theorem collectivePackets : Obligations.CollectivePackets := by
  unfold Obligations.CollectivePackets
  refine ⟨fun s src g ver n stage hruns => ?_, fun o st h off bytes r i hcop hstage hfit => ?_,
    fun s g n slot o hruns hfind => ⟨fun hns => ?_, fun hns hfinished => ?_⟩,
    fun s c rest hruns hcoming hmixed => ?_, fun s v hmain hgo hfault hsize hver => ?_, fun _ _ _ _ => rfl⟩
  · have hdata {off : BitVec 32} {data : List Byte} {bad : List Nat} {t : State} (ht : s.withOp (ColHdr.of src g ver n stage)
          { s with col := { s.col with early := s.col.early ++ [⟨ColHdr.of src g ver n stage, off.toNat, lanePoison data bad⟩] } }
          (fun o => (s.takeData o ⟨ColHdr.of src g ver n stage, off.toNat, lanePoison data bad⟩).colPaths) = t) :
        exec (.colData src g ver n stage off data bad) s = .next t :=
      congrArg Host.Outcome.next ((colData_runs hruns _ _).trans ht)
    have hack {t : State} (ht : s.withOp (ColHdr.of src g ver n stage) s s.acked = t) :
        exec (.colAck src g ver n stage) s = .next t :=
      congrArg Host.Outcome.next ((colAck_runs hruns).trans ht)
    refine ⟨fun o hfind hver => ⟨fun off data bad => hdata (withOp_match hfind hver _ _), hack (withOp_match hfind hver _ _)⟩,
      fun o hfind hver off data bad => ⟨hdata (withOp_mismatch hfind hver _ _), hack (withOp_mismatch hfind hver _ _)⟩,
      fun hmode => ⟨fun o hfind => congrArg Host.Outcome.next (colAbort_found hruns hmode hfind),
        fun hgone off data bad => ⟨hdata (withOp_gone hmode hgone _ _), hack (withOp_gone hmode hgone _ _),
          congrArg Host.Outcome.next (colAbort_gone hruns hmode hgone)⟩,
        fun hgone hfind hver off data bad => hdata (withOp_early hmode hgone hfind hver _ _)⟩⟩
  · exact take_data hcop hstage (hfit.trans (Nat.min_le_left _ _))
  · exact congrArg Host.Outcome.next (colTimeout_early hfind hns)
  · exact congrArg Host.Outcome.next (colTimeout_ends hfind hruns hns hfinished)
  · have hrun : exec .colContribution s = .next s.contribution :=
      congrArg Host.Outcome.next ((if_pos hruns).trans (congrArg State.contribution (mixed_same hcoming hmixed)))
    exact ⟨fun hgone => hrun.trans (congrArg Host.Outcome.next ((contribution_numbered hcoming).trans (if_pos hgone))),
      fun hgone => hrun.trans (congrArg Host.Outcome.next
        ((contribution_numbered hcoming).trans (if_neg (ne_true_of_eq_false hgone))))⟩
  · exact congrArg Host.Outcome.next ((if_pos ⟨hgo, hmain⟩).trans
      (congrArg State.admitAll (commitGroups_sound hfault hsize hver)))

end

section
/-! PROOFS. Packets, the route and plan tables, and the exchange of line time (R390 to R415). -/

namespace Sys2Proof.Machine

theorem memRuns_portsOn {s : State} (h : s.memRuns = true) : s.portsOn = true := by
  simp only [State.memRuns, Bool.and_eq_true] at h
  exact h.1

section
variable {s : State} {p : BitVec 3} {vc : Bool} {h : Flit} {more rest : List Flit}

/-! ### Packets (R390, R391, R405, R407) -/

/-- The flits that have arrived on a virtual channel of a port. -/
abbrev LnkPort.arrived (k : LnkPort) (vc : Bool) : List Flit := if vc then k.rx1 else k.rx0

/-- The state in which a packet has left its buffer, and its credits have gone back. -/
abbrev State.popped (s : State) (p : BitVec 3) (vc : Bool) (rest : List Flit) (n : Nat) : State :=
  let k := rget s.lnk.ports p
  (s.setPort p (if vc then { k with rx1 := rest } else { k with rx0 := rest })).reply 3 3 [p.toNat, if vc then 1 else 0, n]

theorem named_self (h : Flit) : h.named (BitVec.ofNat 16 h.dst) (BitVec.ofNat 16 h.src) (BitVec.ofNat 8 h.cls) h.rtv h.det
    (BitVec.ofNat 8 h.hops) (BitVec.ofNat 16 h.len) = true := by
  simp only [Flit.named, beq_self_eq_true, Bool.and_self]

section
variable (hbuf : (rget s.lnk.ports p).arrived vc = h :: more ++ rest) (hlen : more.length + 1 = h.len)
include hbuf hlen

omit hbuf in
theorem take_packet : (h :: more ++ rest).take h.len = h :: more :=
  List.take_left' hlen

theorem popFlits_packet : s.popFlits p.toNat vc h.len = s.popped p vc rest h.len := by
  have hrest : ((rget s.lnk.ports p).arrived vc).drop h.len = rest := by
    rw [hbuf]
    exact List.drop_left' hlen
  simp only [State.popFlits, modPort_set]
  cases vc with
  | false => exact congrArg (fun l => (s.setPort p { rget s.lnk.ports p with rx0 := l }).reply 3 3 [p.toNat, 0, h.len]) hrest
  | true => exact congrArg (fun l => (s.setPort p { rget s.lnk.ports p with rx1 := l }).reply 3 3 [p.toNat, 1, h.len]) hrest

/-- What becomes of a whole packet on a port that is UP: by its hops, and then by its route. -/
theorem forward_whole (hruns : s.memRuns = true) (htrained : (rget s.lnk.ports p).trained = true)
    (hup : (rget s.lnk.ports p).state = 5) : s.forward p.toNat vc =
      if h.hops = 63 then (s.popped p vc rest h.len).dropPacket p.toNat h.dst 2
      else match s.route h.dst h.rtv h.det with
        | .deliver => (s.popped p vc rest h.len).reply 3 0x102 [p.toNat, h.dst, h.src, h.cls, h.len]
            ((h :: more).flatMap Flit.data)
        | .drop cause => (s.popped p vc rest h.len).dropPacket p.toNat h.dst cause
        | .send q v =>
          if (s.port q).roomFor v h.len then
            ((s.popped p vc rest h.len).modPort q fun k => k.sendFlits v (h.onward v :: more)).reply 3 0x103
              [q, if v then 1 else 0, h.dst, h.src, h.cls, if h.rtv then 1 else 0, h.hops + 1, h.len]
          else s := by
  have hpop := popFlits_packet hbuf hlen
  have htake : (h :: (more ++ rest)).take h.len = h :: more := take_packet hlen
  have hwhole : ¬ ((h :: more).length < h.len ∨ h.len = 0 ∨ ¬ (rget s.lnk.ports p).trained = true ∨ ¬ s.memRuns = true) := by
    simp [htrained, hruns, ← hlen]
  have hthere : ¬ ((rget s.lnk.ports p).state ≠ 5 ∧ (h.cls ≠ 4 ∨ h.dst ≠ s.own)) := fun hn => hn.1 hup
  simp only [LnkPort.arrived, List.cons_append] at hbuf
  simp only [State.forward, port_get, hbuf, htake, if_neg hwhole, if_neg hthere, hpop]
  rfl

omit hlen in
/-- The row that names the packet at the head of the buffer forwards it. -/
theorem exec_packetForward (hp : p.toNat < 6) (hruns : s.memRuns = true) :
    exec (.packetForward p vc (BitVec.ofNat 16 h.dst) (BitVec.ofNat 16 h.src) (BitVec.ofNat 8 h.cls) h.rtv h.det
      (BitVec.ofNat 8 h.hops) (BitVec.ofNat 16 h.len)) s = .next (s.forward p.toNat vc) := by
  refine withPort_next hp (memRuns_portsOn hruns) (s.forwardNamed · vc _) ?_
  simp only [LnkPort.arrived, List.cons_append] at hbuf
  simp only [State.forwardNamed, port_get, hbuf, named_self, if_true]

end

theorem roomFor_credits {q : BitVec 3} {v : Bool} {n : Nat}
    (hcredit : n ≤ if v then (rget s.lnk.ports q).cr1 else (rget s.lnk.ports q).cr0)
    (hroom : (rget s.lnk.ports q).buf.length + n ≤ 1024) : (s.port q.toNat).roomFor v n = true := by
  rw [port_get]
  exact decide_eq_true ⟨hcredit, hroom⟩

theorem roomFor_short {q : BitVec 3} {v : Bool} {n : Nat}
    (hcredit : (if v then (rget s.lnk.ports q).cr1 else (rget s.lnk.ports q).cr0) < n) :
    (s.port q.toNat).roomFor v n = false := by
  rw [port_get]
  exact decide_eq_false fun hn => Nat.not_le.2 hcredit hn.1

/-! ### The plan and the route table (R402, R403, R406) -/

section
variable (htrained : (rget s.lnk.ports p).trained = true) (hseen : (rget s.lnk.ports p).seen = true)
    (haccepted : (rget s.lnk.ports p).accepted = true)
include htrained hseen haccepted

/-- A port whose partner the plan still wants, and which waits for its ACCEPT, stays as it is. -/
theorem replan_same (hrejects : (rget s.lnk.ports p).rejects = 0) (hpeer : (rget s.lnk.ports p).peerAccepted = false) :
    s.replan p.toNat = s := by
  have hself : s.setPort p { rget s.lnk.ports p with accepted := true } = s :=
    setPort_self s p _ (by rw [← haccepted])
  simp only [State.replan, port_get, modPort_set]
  rw [if_pos ⟨htrained, hseen⟩, if_pos hrejects, hself, if_pos haccepted, if_neg (ne_true_of_eq_false hpeer)]

theorem replan_rejects (hrejects : (rget s.lnk.ports p).rejects ≠ 0) : s.replan p.toNat =
    ((s.setPort p { rget s.lnk.ports p with accepted := false }).reply 3 0x52
      [p.toNat, (rget s.lnk.ports p).rejects]).portQuarantine p.toNat (rget s.lnk.ports p).rejects := by
  simp only [State.replan, port_get, modPort_set]
  rw [if_pos ⟨htrained, hseen⟩, if_neg hrejects, if_pos haccepted]

end

section
variable {v : BitVec 32} (hon : s.portsOn = true) (hgo : v.getLsbD 0 = true)
include hon hgo

theorem exec_lnkPlanCommit (hkinds : ∀ k ∈ s.lnk.ports.toList, planKind k.planShd ≠ 3) :
    exec (.lnkPlanCommit v) s = .next s.commitPlan := by
  have hnone : (s.lnk.ports.any fun k => planKind k.planShd = 3) = false := by
    rw [← Vector.any_toList]
    exact List.any_eq_false.2 fun k hk => by simpa using hkinds k hk
  refine congrArg Host.Outcome.next ((if_pos ⟨hgo, hon⟩).trans ?_)
  rw [hnone]
  rfl

theorem exec_lnkRtCommit (hdue : s.rcv.releaseDue = false) : exec (.lnkRtCommit v) s = .next
    (({ s with lnk := { s.lnk with rtVer := s.lnk.rtVer + 1, rtCopy := !s.lnk.rtCopy } } : State).raise 0x0708 .info
      [(4, (s.lnk.rtVer + 1).toNat), (1, if !s.lnk.rtCopy then 1 else 0)]) :=
  congrArg Host.Outcome.next ((if_pos ⟨hgo, hon⟩).trans (if_neg (ne_true_of_eq_false hdue)))

end

/-! ### The exchange with the parent (R411, R412) -/

theorem syncSend_due (hparent : s.lnk.hasParent = true) (hup : s.lnk.up s.lnk.ltParent.toNat = true)
    (hdue : ∀ t1, s.lnk.ltSent = some t1 → t1 + 128000 ≤ s.lt8) : s.syncSend =
      ({ s with lnk := { s.lnk with ltSent := some s.lt8 } } : State).reply 3 0x20 [s.lnk.ltParent.toNat] := by
  cases hsent : s.lnk.ltSent with
  | none =>
    simp only [State.syncSend, hsent]
    exact if_pos ⟨hparent, hup, trivial⟩
  | some t1 =>
    simp only [State.syncSend, hsent]
    exact if_pos ⟨hparent, hup, decide_eq_true (hdue t1 hsent)⟩

/-- The links after an answer of the parent: the rate corrects the offset, which shows. -/
abbrev LnkState.heard (l : LnkState) (o : Int) : LnkState :=
  { l with ltRate := max (-200) (min 200 (o * 78125 / 10000)), ltOffset := BitVec.ofInt 16 o }

section
variable {t1 t2 t3 : Nat} {o : Int} (hparent : s.lnk.hasParent = true) (hsent : s.lnk.ltSent = some t1)
    (ho : o = (((t2 : Int) - t1) - ((s.lt8 : Int) - t3)) / 2 - s.lnk.ltAsym.at 0 s.lnk.ltParent.toNat)
    (hlow : -32768 ≤ o) (hhigh : o ≤ 32767)
include hparent hsent ho hlow hhigh

theorem syncAnswer_heard (settle : Bool) : s.syncAnswer t2 t3 settle =
    let l := s.lnk
    let s1 : State := { s with lnk := l.heard o }
    if l.ltState = 2 ∨ ¬ settle then s1
    else if 8000 < o then
      ({ s with lt8 := s.lt8 + o.toNat, lnk := { l.heard o with ltState := 2, ltRate := 0, ltSent := none } } : State).raise
        0x070A .info [(1, l.ltParent.toNat), (1, l.ltDist.toNat), (8, o.toNat / 8)]
    else if o < -8000 then
      if l.ltState = 4 then s1
      else ({ s with lnk := { l.heard o with ltState := 4 } } : State).raise 0x070B .error
        [(1, l.ltParent.toNat), (8, (-o).toNat / 8)]
    else ({ s with lnk := { l.heard o with ltState := 2 } } : State).raise 0x070A .info
      [(1, l.ltParent.toNat), (1, l.ltDist.toNat), (8, 0)] := by
  simp only [State.syncAnswer, LnkState.heard, hsent, ← ho, State.showOffset, if_pos (And.intro hlow hhigh), rateFor]
  exact if_neg (not_not_intro hparent)

theorem syncAnswer_follows (settle : Bool) (h : s.lnk.ltState = 2 ∨ settle = false) :
    s.syncAnswer t2 t3 settle = { s with lnk := s.lnk.heard o } :=
  (syncAnswer_heard hparent hsent ho hlow hhigh settle).trans (if_pos (h.imp_right ne_true_of_eq_false))

section
variable (hstate : s.lnk.ltState ≠ 2)
include hstate

/-- The last exchange of ACQUIRE sees an offset within 1 microsecond. -/
theorem syncAnswer_near (h1 : -8000 ≤ o) (h2 : o ≤ 8000) : s.syncAnswer t2 t3 true =
    ({ s with lnk := { s.lnk.heard o with ltState := 2 } } : State).raise 0x070A .info
      [(1, s.lnk.ltParent.toNat), (1, s.lnk.ltDist.toNat), (8, 0)] :=
  (syncAnswer_heard hparent hsent ho hlow hhigh true).trans ((if_neg (not_or_intro hstate (not_not_intro rfl))).trans
    ((if_neg (Int.not_lt.2 h2)).trans (if_neg (Int.not_lt.2 h1))))

theorem syncAnswer_forward (h : 8000 < o) : s.syncAnswer t2 t3 true =
    ({ s with lt8 := s.lt8 + o.toNat, lnk := { s.lnk.heard o with ltState := 2, ltRate := 0, ltSent := none } } : State).raise
      0x070A .info [(1, s.lnk.ltParent.toNat), (1, s.lnk.ltDist.toNat), (8, o.toNat / 8)] :=
  (syncAnswer_heard hparent hsent ho hlow hhigh true).trans
    ((if_neg (not_or_intro hstate (not_not_intro rfl))).trans (if_pos h))

/-- Line time never goes backward: a module that is ahead waits for its parent. -/
theorem syncAnswer_ahead (hwait : s.lnk.ltState ≠ 4) (h : o < -8000) : s.syncAnswer t2 t3 true =
    ({ s with lnk := { s.lnk.heard o with ltState := 4 } } : State).raise 0x070B .error
      [(1, s.lnk.ltParent.toNat), (8, (-o).toNat / 8)] :=
  (syncAnswer_heard hparent hsent ho hlow hhigh true).trans ((if_neg (not_or_intro hstate (not_not_intro rfl))).trans
    ((if_neg (by omega)).trans ((if_pos h).trans (if_neg hwait))))

end

end

/-! ### Loss of the parent (R412, R414) -/

theorem parentLost_backup (hbackup : s.lnk.backupRoot = s.own) : s.parentLost true =
    { s with lnk := { s.lnk with ltState := 5, ltParent := 7, ltDist := 0, ltRate := 0, ltSent := none } } :=
  if_pos ⟨rfl, hbackup⟩

/-- A module with a parent is not the root. -/
theorem hasParent_notRoot {l : LnkState} (hparent : l.hasParent = true) : l.ltState ≠ 5 := by
  intro h
  rw [LnkState.hasParent, h] at hparent
  exact absurd hparent (by decide)

section
variable (hparent : s.lnk.hasParent = true) (hdown : s.lnk.up s.lnk.ltParent.toNat = false)
include hparent hdown

theorem parentLost_chooses : s.parentLost false = s.chooseParent := by
  simp only [State.parentLost, hparent, hdown, Bool.false_eq_true, false_and, if_false, not_false_eq_true, and_self, if_true]

section
variable (hroot : s.lnk.rootId ≠ 0x7FFF)
include hroot

/-- Without another way to the root the module goes into HOLDOVER. -/
theorem parentLost_holdover (hbest : s.lnk.bestParent = none) : s.parentLost false =
    { s with lnk := { s.lnk with ltState := 3, ltParent := 7, ltSent := none } } := by
  rw [parentLost_chooses hparent hdown, State.chooseParent, if_neg (not_or_intro (hasParent_notRoot hparent) hroot)]
  simp only [hbest]
  exact if_pos hparent

theorem parentLost_other {q d : Nat} (hbest : s.lnk.bestParent = some (q, d)) (hother : s.lnk.ltParent.toNat ≠ q) :
    s.parentLost false = ({ s with lnk := { s.lnk with
      ltParent := BitVec.ofNat 3 q, ltDist := BitVec.ofNat 6 (min 63 (d + 1)), ltSent := none } } : State).raise 0x070C .info
        [(1, s.lnk.ltParent.toNat), (1, q), (1, min 63 (d + 1)), (2, s.lnk.rootId)] := by
  rw [parentLost_chooses hparent hdown, State.chooseParent, if_neg (not_or_intro (hasParent_notRoot hparent) hroot)]
  simp only [hbest, hparent, if_true, true_and]
  exact if_neg hother

end

end

/-! ### Realignment, and the root's own time (R410, R415) -/

section
variable (hon : s.portsOn = true)
include hon

theorem exec_ltSyncRequest (hp : p.toNat < 6) (htrained : (rget s.lnk.ports p).trained = true) :
    exec (.ltSyncRequest p) s = .next (s.reply 3 0x21 [p.toNat, s.lt8, s.lt8]) := by
  refine withPort_next hp hon (fun q => if (s.port q).trained then s.reply 3 0x21 [q, s.lt8, s.lt8] else s) ?_
  rw [port_get, if_pos htrained]

theorem exec_ltRealign (die : BitVec 3) {cluster : BitVec 4} {dev : BitVec 6} (hcluster : cluster.toNat < 9)
    (hlow : -16 ≤ dev.toInt) (hhigh : dev.toInt ≤ 16) : exec (.ltRealign die cluster dev) s =
      .next (s.setBox (16 * die.toNat + cluster.toNat) { s.box (16 * die.toNat + cluster.toNat) with ltDev := dev.toInt }) :=
  (if_neg (Nat.not_le.2 hcluster)).trans (congrArg Host.Outcome.next (if_pos ⟨hon, by omega⟩))

section
variable (hroot : s.lnk.ltState = 5)
include hroot

theorem exec_rootLineTimeSet_forward {v : BitVec 64} (h : s.lt8 ≤ 8 * v.toNat) :
    exec (.rootLineTimeSet v) s = .next { s with lt8 := 8 * v.toNat } :=
  congrArg Host.Outcome.next (if_pos ⟨hon, hroot, h⟩)

omit hon hroot in
theorem exec_rootLineTimeSet_backward {v : BitVec 64} (h : 8 * v.toNat < s.lt8) :
    exec (.rootLineTimeSet v) s = .next s :=
  congrArg Host.Outcome.next (if_neg fun hn => Nat.not_le.2 h hn.2.2)

theorem exec_ieee1588Sync {eth : Bool} (hspeed : (if eth then s.lnk.speed1 else s.lnk.speed0) ≠ 0) (o : Int) :
    exec (.ieee1588Sync eth o) s = .next { s with lnk := { s.lnk with ltRate := rateFor o } } :=
  congrArg Host.Outcome.next (if_pos ⟨hon, hspeed, hroot⟩)

end

end

end

end Sys2Proof.Machine

open Sys2Proof Sys2Proof.Machine

/-- Settles O45: a whole packet goes where its hops and its route send it (`forward_whole`); the two tables, and each case
of an answer of the parent (`syncAnswer_heard`), have lemmas of their own. That an LT_SYNC answer carries one time twice
(assumption log 72) and that a commit of a table is one step (log 46) are the model's choices. -/
theorem packetsTablesAndLineTime : Obligations.PacketsTablesAndLineTime := by
  unfold Obligations.PacketsTablesAndLineTime
  refine ⟨⟨fun s p vc hp hruns htrained hup h more rest hbuf hlen => ?_, fun s hon v hgo => ⟨fun hkinds => ?_, fun hdue => ?_,
      fun p hp => ⟨fun htrained hseen hrejects haccepted hpeer => ?_, fun htrained hseen hrejects haccepted => ?_⟩⟩⟩,
    fun s hon => ⟨fun hparent hup hdue => ?_, fun p hp htrained => exec_ltSyncRequest hon hp htrained,
      fun t1 t2 t3 o hparent hsent ho hlow hhigh => ?_, fun hbackup => ?_,
      fun hparent hdown hroot => ⟨fun hbest => ?_, fun q d hbest hother => ?_⟩,
      fun die cluster dev hcluster hlow hhigh => exec_ltRealign hon die hcluster hlow hhigh,
      fun hroot => ⟨fun v => ⟨exec_rootLineTimeSet_forward hon hroot, exec_rootLineTimeSet_backward⟩,
        fun eth o hspeed => exec_ieee1588Sync hon hroot hspeed o⟩⟩⟩
  · have hrun {t : State} (ht : s.forward p.toNat vc = t) :
        exec (.packetForward p vc (BitVec.ofNat 16 h.dst) (BitVec.ofNat 16 h.src) (BitVec.ofNat 8 h.cls) h.rtv h.det
          (BitVec.ofNat 8 h.hops) (BitVec.ofNat 16 h.len)) s = .next t :=
      (exec_packetForward hbuf hp hruns).trans (congrArg Host.Outcome.next ht)
    have hwhole := forward_whole hbuf hlen hruns htrained hup
    refine ⟨fun hhops => hrun (hwhole.trans (if_pos hhops)), fun hhops hroute => hrun (hwhole.trans ?_),
      fun hhops cause hroute => hrun (hwhole.trans ?_),
      fun hhops q v hroute => ⟨fun hcredit hroom => hrun (hwhole.trans ?_), fun hcredit => hrun (hwhole.trans ?_)⟩⟩
    · rw [if_neg hhops, hroute]
    · rw [if_neg hhops, hroute]
    · rw [if_neg hhops, hroute]
      exact (if_pos (roomFor_credits hcredit hroom)).trans (by rw [modPort_set])
    · rw [if_neg hhops, hroute]
      exact if_neg (ne_true_of_eq_false (roomFor_short hcredit))
  · exact exec_lnkPlanCommit hon hgo hkinds
  · exact exec_lnkRtCommit hon hgo hdue
  · exact replan_same htrained hseen haccepted hrejects hpeer
  · exact replan_rejects htrained hseen haccepted hrejects
  · exact congrArg Host.Outcome.next ((if_pos hon).trans (syncSend_due hparent hup hdue))
  · have hrun {b : Bool} {t : State} (ht : s.syncAnswer t2 t3 b = t) : exec (.ltSyncAnswer t2 t3 b) s = .next t :=
      congrArg Host.Outcome.next ((if_pos hon).trans ht)
    exact ⟨fun hstate b => hrun (syncAnswer_follows hparent hsent ho hlow hhigh b (.inl hstate)),
      hrun (syncAnswer_follows hparent hsent ho hlow hhigh false (.inr rfl)),
      fun hstate h1 h2 => hrun (syncAnswer_near hparent hsent ho hlow hhigh hstate h1 h2),
      fun hstate h => hrun (syncAnswer_forward hparent hsent ho hlow hhigh hstate h),
      fun hstate hwait h => hrun (syncAnswer_ahead hparent hsent ho hlow hhigh hstate hwait h)⟩
  · exact congrArg Host.Outcome.next ((if_pos hon).trans (parentLost_backup hbackup))
  · exact congrArg Host.Outcome.next ((if_pos hon).trans (parentLost_holdover hparent hdown hroot hbest))
  · exact congrArg Host.Outcome.next ((if_pos hon).trans (parentLost_other hparent hdown hroot hbest hother))

end


section
/-!
PROOFS. Relay operations of parity (R449 to R453, R459): what a chunk does at each stage of its chain, the commit of an
epoch, and the packets a stage sends.
-/

namespace Sys2Proof.Machine

section
variable {s : State}

/-! ### Relay packets (R453) -/

/-- No lane of unpoisoned data is poisoned. -/
theorem poisonedLanes_clean {data : List (Byte × Bool)} (h : ∀ b ∈ data, b.2 = false) :
    ((List.range (data.length / 8)).filter fun l => ((data.drop (8 * l)).take 8).any Prod.snd) = [] := by
  refine List.filter_eq_nil_iff.2 fun l _ => ne_true_of_eq_false (List.any_eq_false.2 fun b hb => ?_)
  exact ne_true_of_eq_false (h b (List.mem_of_mem_drop (List.mem_of_mem_take hb)))

theorem seenBytes_clean {data : List (Byte × Bool)} (h : ∀ b ∈ data, b.2 = false) :
    s.seenBytes data = (data.map Prod.fst, s) := by
  have hdata : ((data.map Prod.fst).map fun b => (b, false)) = data := by
    rw [List.map_map]
    refine (List.map_congr_left (g := id) fun b hb => ?_).trans (List.map_id data)
    exact Prod.ext rfl (h b hb).symm
  have hseen := seenBytes_unpoisoned s (data.map Prod.fst)
  rwa [hdata] at hseen

theorem sendRelay_clean {kind slice stage e off dst : Nat} {crcs : List Nat} {data : List (Byte × Bool)}
    (h : ∀ b ∈ data, b.2 = false) (hreach : s.reachable dst = true) :
    s.sendRelay kind slice stage e off dst crcs data = s.reply 5 kind
      ([s.rcv.parGroup, s.rcv.fmt, slice, stage, e % 2 ^ 32, 256 * off, dst, crcs.length] ++ crcs) (data.map Prod.fst) := by
  rw [State.sendRelay, if_pos hreach]
  simp only [seenBytes_clean h, poisonedLanes_clean h, List.append_nil]

/-- FMT 2 of a packet is FMT 2 of the chunk it carries. -/
theorem ite_fmt (fmt : BitVec 8) (crcs : List Nat) : (if fmt = 2 then crcs else []) = if fmt.toNat = 2 then crcs else [] :=
  if_congr (BitVec.toNat_inj (y := 2)).symm rfl rfl

section
variable (hruns : s.relayRuns = true)
include hruns

/-! ### Refreshing an epoch (R451) -/

/-- The chunk of a REFRESH packet. -/
abbrev RelayChunk.ofPacket (src : BitVec 15) (sl stage : BitVec 4) (e off : BitVec 32) (fmt : BitVec 8)
    (crcs : List (BitVec 32)) (data : List Byte) (bad : List Nat) : RelayChunk :=
  ⟨sl.toNat, stage.toNat, e, off.toNat / 256, fmt.toNat, crcs.map BitVec.toNat, lanePoison data bad, src.toNat⟩

section
variable (hnormal : s.rcv.state = 0)
include hnormal

/-- Once this module's program has written a newer epoch, the first member may start it and the others retry. -/
theorem startRefresh_newer (hnew : s.committed < s.written) : s.startRefresh =
    if (s.parIds s.own).head? ≠ some s.own then s.retryRefresh
    else if s.rcv.relays ≠ [] ∨ 32 < s.slotsHeld + s.rcv.slices then s
    else (List.range s.rcv.slices).foldl (fun u q => u.sendFirst false q s.written) s :=
  if_neg (not_or_intro (not_not_intro hruns) (not_or_intro (not_not_intro hnormal) (Nat.not_le.2 hnew)))

omit hruns hnormal in
theorem startRefresh_current (hold : s.written ≤ s.committed) : s.startRefresh = s :=
  if_pos (.inr (.inr hold))

section
variable {k : RelayChunk} (hstage : (s.parIds s.own)[k.stage + 1]? = some s.own)
    (hnew : s.committed < s.fullEpoch k.epoch) (hslots : s.slotsHeld < 32)
include hstage hnew hslots

/-- A chunk of a newer epoch at the next stage of its chain waits for this module's own epoch; the holder has none to
wait for. -/
theorem refresh_chunk : s.refresh k =
    let e := s.fullEpoch k.epoch
    let m := k.stage + 1
    let own := s.readChunk e (s.sliceLo s.rcv.slices k.slice + k.chunkOff)
    let r := (s.relay false k.slice).getD ⟨false, k.slice, k.epoch, 0, 0⟩
    if m ≠ 15 ∧ s.written < e then { s with rcv := { s.rcv with early := s.rcv.early ++ [k] } }
    else if m = 15 then
      (s.sendRelay 3 k.slice 15 e k.chunkOff k.src [] []).holderChunk k.slice e k.chunkOff k.fmt k.crcs k.data
    else ((s.putRelay { r with chunk := r.chunk + 1, unacked := r.unacked + 1 }).sendRelay 3 k.slice m e k.chunkOff k.src
      [] []).sendRelay 1 k.slice m e k.chunkOff (((s.parIds s.own)[m + 1]?).getD 0x7FFF)
        (if k.fmt = 2 then k.crcs ++ [(crc32c own).toNat] else []) (xorRun k.data own) := by
  have hhere : ¬ (¬ s.relayRuns = true ∨ s.rcv.state ≠ 0 ∨ (s.parIds s.own)[k.stage + 1]? ≠ some s.own ∨
      s.fullEpoch k.epoch ≤ s.committed) :=
    not_or_intro (not_not_intro hruns) (not_or_intro (not_not_intro hnormal)
      (not_or_intro (not_not_intro hstage) (Nat.not_le.2 hnew)))
  have hfree : ¬ ((s.relay false k.slice).isNone = true ∧ 32 ≤ s.slotsHeld) := fun hn => Nat.not_le.2 hslots hn.2
  simp only [State.refresh, if_neg hhere, hfree, false_or]

theorem refresh_holder (hlast : k.stage = 14) : s.refresh k =
    (s.sendRelay 3 k.slice 15 (s.fullEpoch k.epoch) k.chunkOff k.src [] []).holderChunk k.slice (s.fullEpoch k.epoch)
      k.chunkOff k.fmt k.crcs k.data := by
  have hm : k.stage + 1 = 15 := by rw [hlast]
  exact (refresh_chunk hruns hnormal hstage hnew hslots).trans ((if_neg fun hn => hn.1 hm).trans (if_pos hm))

theorem refresh_waits (hmember : k.stage ≠ 14) (hearly : s.written < s.fullEpoch k.epoch) :
    s.refresh k = { s with rcv := { s.rcv with early := s.rcv.early ++ [k] } } :=
  (refresh_chunk hruns hnormal hstage hnew hslots).trans (if_pos ⟨fun hm => hmember (Nat.succ.inj hm), hearly⟩)

theorem refresh_member (hmember : k.stage ≠ 14) (hown : s.fullEpoch k.epoch ≤ s.written) : s.refresh k =
    let e := s.fullEpoch k.epoch
    let m := k.stage + 1
    let own := s.readChunk e (s.sliceLo s.rcv.slices k.slice + k.chunkOff)
    let r := (s.relay false k.slice).getD ⟨false, k.slice, k.epoch, 0, 0⟩
    ((s.putRelay { r with chunk := r.chunk + 1, unacked := r.unacked + 1 }).sendRelay 3 k.slice m e k.chunkOff k.src
      [] []).sendRelay 1 k.slice m e k.chunkOff (((s.parIds s.own)[m + 1]?).getD 0x7FFF)
        (if k.fmt = 2 then k.crcs ++ [(crc32c own).toNat] else []) (xorRun k.data own) :=
  (refresh_chunk hruns hnormal hstage hnew hslots).trans ((if_neg fun hn => Nat.not_le.2 hn.2 hown).trans
    (if_neg fun hm => hmember (Nat.succ.inj hm)))

end

/-! ### The commit of an epoch (R452) -/

theorem exec_parityCommit (e : BitVec 32) (fmt : BitVec 8) :
    exec (.parityCommit e fmt) s = .next (s.parityCommit (s.fullEpoch e) fmt.toNat) :=
  if_neg (not_or_intro (not_not_intro hruns) (not_not_intro hnormal))

end

omit hruns in
theorem jobReduced_finished {o : ColOp} {c : Contribution} (h : s.finishedFor (fun c => c.origin == .epoch) = some (o, c)) :
    s.jobReduced =
      let job := (BitVec.ofInt 64 ((s.jobEpoch : Int) + signedOf 32 (leNat ((o.data.take 4).map Prod.fst)))).toNat
      ((s.setHeader 16 8 job).finishPart o c).raise 0x0908 .info
        [(2, s.rcv.parGroup), (4, s.committed % 2 ^ 32), (4, job % 2 ^ 32)] := by
  simp only [State.jobReduced, h]

/-! ### Rebuilding (R459) -/

section
variable {pos spare slice stage c fmt src : Nat} {ck : BitVec 32} {data : List (Byte × Bool)}
    (hrebuild : s.rcv.state = 4) (hcurrent : s.rcv.current = some (pos, spare))
    (hstage : (s.chain true slice)[stage + 1]? = some s.own)
include hrebuild hcurrent hstage

omit hcurrent in
theorem rebuild_expected :
    ¬ (¬ s.relayRuns = true ∨ s.rcv.state ≠ 4 ∨ (s.chain true slice)[stage + 1]? ≠ some s.own) :=
  not_or_intro (not_not_intro hruns) (not_or_intro (not_not_intro hrebuild) (not_not_intro hstage))

theorem rebuild_spare (hspare : s.own = spare) (hlast : stage + 2 = (s.chain true slice).length) :
    s.rebuild slice stage c fmt ck data src =
      (s.sendRelay 3 slice (stage + 1) s.rcv.epoch c src [] []).spareChunk pos slice c fmt ck data := by
  simp only [State.rebuild, hcurrent, if_neg (rebuild_expected hruns hrebuild hstage)]
  exact if_pos ⟨hspare, hlast⟩

/-- A stage before the holder, the drop point and the spare adds its copy and passes the check value on. -/
theorem rebuild_survivor (hbefore : stage + 4 < (s.chain true slice).length) :
    s.rebuild slice stage c fmt ck data src =
      let r := (s.relay true slice).getD ⟨true, slice, BitVec.ofNat 32 s.rcv.epoch, 0, 0⟩
      ((s.sendRelay 3 slice (stage + 1) s.rcv.epoch c src [] []).putRelay
        { r with chunk := r.chunk + 1, unacked := r.unacked + 1 }).sendRelay 2 slice (stage + 1) s.rcv.epoch c
          (((s.chain true slice)[stage + 2]?).getD 0x7FFF) [ck.toNat]
          (xorRun data (s.readChunk s.rcv.epoch (s.sliceLo (s.sliceCount true) slice + c))) := by
  have hspare : ¬ (s.own = spare ∧ stage + 1 + 1 = (s.chain true slice).length) := by omega
  have hdrop : ¬ stage + 1 + 2 = (s.chain true slice).length := by omega
  have hholder : ¬ (stage + 1 + 3 = (s.chain true slice).length ∧ fmt = 2) := by omega
  simp only [State.rebuild, hcurrent, if_neg (rebuild_expected hruns hrebuild hstage), if_neg hspare, if_neg hdrop,
    if_neg hholder]

end

/-! ### Acknowledgements and aborts (R433, R453) -/

theorem exec_relayAck (rb : Bool) (sl : BitVec 4) : exec (.relayAck rb sl) s = .next (s.relayAck rb sl.toNat) :=
  congrArg Host.Outcome.next (if_pos hruns)

theorem exec_relayAbort (rb : Bool) (sl : BitVec 4) : exec (.relayAbort rb sl) s = .next (s.relayAbort rb sl.toNat) :=
  congrArg Host.Outcome.next (if_pos hruns)

end

section
variable {rb : Bool} {slice : Nat} {q : RelayOp} (hrelay : s.relay rb slice = some q)
include hrelay

theorem relayAck_relay : s.relayAck rb slice =
    let t := s.putRelay { q with unacked := q.unacked - 1 }
    if (s.chain rb slice).head? = some s.own then t.sendFirst rb slice (if rb then s.rcv.epoch else s.fullEpoch q.epoch)
    else if s.sliceChunks rb slice ≤ q.chunk ∧ q.unacked ≤ 1 then t.dropRelay rb slice
    else t := by
  simp only [State.relayAck, hrelay]

theorem relayAbort_last (hnone : (s.chain rb slice)[(s.chain rb slice).idxOf s.own + 1]? = none) :
    s.relayAbort rb slice = s.dropRelay rb slice := by
  simp only [State.relayAbort, hrelay, hnone]

theorem relayAbort_tells {n : Nat} (hnext : (s.chain rb slice)[(s.chain rb slice).idxOf s.own + 1]? = some n)
    (hreach : s.reachable n = true) : s.relayAbort rb slice = (s.dropRelay rb slice).reply 5 5
      [s.rcv.parGroup, s.rcv.fmt, slice, (s.chain rb slice).idxOf s.own, q.epoch.toNat, 0, n, 0] := by
  simp only [State.relayAbort, hrelay, hnext, hreach, if_true]

end

end

end Sys2Proof.Machine

open Sys2Proof Sys2Proof.Machine

/-- Settles O50: each stage of a chain has its lemma (`refresh_holder`, `refresh_member`, `rebuild_survivor`,
`rebuild_spare`). The model's choices are that a chunk which comes before this module's own epoch waits (assumption log
139), that a 32-bit epoch is read against COMMITTED (log 140), that the holder's check values are state of the model (log
141) and the form of the CRC-32C (log 80, PRESUMED). -/
theorem relayParity : Obligations.RelayParity := by
  unfold Obligations.RelayParity
  refine fun s hruns => ⟨fun hnormal hnew => ⟨fun hfirst hidle hfit => ?_, fun hother => ?_⟩, fun hnormal hold => ?_,
    fun hnormal src sl stage e off fmt crcs data bad hstage hnew hslots => ⟨fun hlast => ?_, fun hmember hearly => ?_,
      fun hmember hown => ?_⟩,
    fun hnormal e fmt t ht => (exec_parityCommit hruns hnormal e fmt).trans ?_, fun o c hdone => ?_,
    fun hrebuild pos spare hcurrent src sl stage off fmt ck data bad hstage => ⟨fun hspare hlast => ?_, fun hbefore => ?_⟩,
    fun rb sl q hrelay => ⟨fun hfirst => ?_, fun hother => ⟨fun hmore => ?_, fun hsent hacked => ?_⟩, fun hnone => ?_,
      fun n hnext hreach => ?_⟩,
    fun t kind slice stage e off dst crcs data hclean hreach => sendRelay_clean hclean hreach⟩
  · exact congrArg Host.Outcome.next ((startRefresh_newer hruns hnormal hnew).trans ((if_neg (not_not_intro hfirst)).trans
      (if_neg (not_or_intro (not_not_intro hidle) (Nat.not_lt.2 hfit)))))
  · exact congrArg Host.Outcome.next ((startRefresh_newer hruns hnormal hnew).trans (if_pos hother))
  · exact congrArg Host.Outcome.next (startRefresh_current hold)
  · exact congrArg Host.Outcome.next (refresh_holder (k := .ofPacket src sl stage e off fmt crcs data bad) hruns hnormal
      hstage hnew hslots (congrArg BitVec.toNat hlast))
  · exact congrArg Host.Outcome.next (refresh_waits (k := .ofPacket src sl stage e off fmt crcs data bad) hruns hnormal
      hstage hnew hslots (hmember <| BitVec.eq_of_toNat_eq ·) hearly)
  · simp only [ite_fmt]
    exact congrArg Host.Outcome.next (refresh_member (k := .ofPacket src sl stage e off fmt crcs data bad) hruns hnormal
      hstage hnew hslots (hmember <| BitVec.eq_of_toNat_eq ·) hown)
  · exact congrArg Host.Outcome.next (parityCommit_eq s _ _ t ht)
  · exact congrArg Host.Outcome.next ((if_pos hruns).trans (jobReduced_finished hdone))
  · exact congrArg Host.Outcome.next (rebuild_spare hruns hrebuild hcurrent hstage hspare hlast)
  · exact congrArg Host.Outcome.next (rebuild_survivor hruns hrebuild hcurrent hstage hbefore)
  · exact (exec_relayAck hruns rb sl).trans (congrArg Host.Outcome.next ((relayAck_relay hrelay).trans (if_pos hfirst)))
  · exact (exec_relayAck hruns rb sl).trans (congrArg Host.Outcome.next ((relayAck_relay hrelay).trans
      ((if_neg hother).trans (if_neg (by omega)))))
  · exact (exec_relayAck hruns rb sl).trans (congrArg Host.Outcome.next ((relayAck_relay hrelay).trans
      ((if_neg hother).trans (if_pos ⟨hsent, hacked⟩))))
  · exact (exec_relayAbort hruns rb sl).trans (congrArg Host.Outcome.next (relayAbort_last hrelay hnone))
  · exact (exec_relayAbort hruns rb sl).trans (congrArg Host.Outcome.next (relayAbort_tells hrelay hnext hreach))

end
